-- ==== Sys2Proof/Word.lean ====
section
/-! DEFINITION. The plain words of the block (00_scope.md R6): bytes, and the names of the sets of like parts that
the conventions of the manual fix (units, channels, streams, flows, ports, lanes ...). -/

namespace Sys2Proof

abbrev Byte := BitVec 8

/-- Unit A and Unit B (00_scope.md, Conventions). -/
inductive UnitId where
  | a
  | b
  deriving DecidableEq, Repr

/-- The other unit of the pair. -/
def UnitId.other : UnitId → UnitId
  | .a => .b
  | .b => .a

/-- The UNIT bit of every record of the manual: 0 Unit A, 1 Unit B. -/
def UnitId.bit : UnitId → Nat
  | .a => 0
  | .b => 1

abbrev Chan := Fin 4
abbrev StreamId := Fin 16
abbrev FlowId := Fin 256
abbrev PortId := Fin 4
abbrev LaneId := Fin 64
abbrev LinkId := Fin 16
abbrev SlotId := Fin 32
abbrev MeterId := Fin 64
abbrev DmaId := Fin 16
abbrev CvId := Fin 16
abbrev EngineId := Fin 64
abbrev RectId := Fin 16
/-- A client slot of the dictionary: 0 is the CAN FD USDO client (17_dictionary.md R411). -/
abbrev Client := Fin 9
abbrev WinId := Fin 4
abbrev ReadoutId := Fin 4
/-- Die of 0x5C11 + k: Unit A, Unit B, base die (16_power_ageing.md R402). -/
abbrev DieId := Fin 3
/-- One of the 32 x16 DRAM channels of a unit (11_dram.md Table 11-1). -/
abbrev DramChan := Fin 32
/-- Bank pair p is banks p and p + 8 (11_dram.md Table 11-1). -/
abbrev BankPair := Fin 8

/-- A signed pair: a motion vector or a displacement. -/
structure Mv where
  x : Int
  y : Int
  deriving DecidableEq, Repr

end Sys2Proof
end

