-- ==== Sys2Proof/Syntax.lean ====
section
/-! DEFINITION. The commands of the block, one constructor of `Instr` per row of spec/opcode_table.json, with the
types of their operands. What the outside hands to the block (frames, line packets, messages) and what only content
decides (coded bits, measured cycles, check values computed from samples) are operands: plain data (log entry 3). -/

namespace Sys2Proof

/-- What the voter found at a tick (01_module.md R20). -/
inductive VoterReport where
  | agree
  | oneOutvoted (copy : Fin 3)
  | twoDisagree
  deriving DecidableEq, Repr

/-- What a port's RS-FEC decoder counted in a lap: codewords corrected, codewords it could not correct, and whether it reported a high symbol
error rate (08_network.md Tables 8-9, 8-10). -/
structure FecCount where
  corrected : Nat
  uncorrected : Nat
  highSer : Bool
  deriving DecidableEq, Repr

/-- A line of reconstructed samples of a component (0 Y, 1 Cb, 2 Cr) in a segment's columns; `line` counts the picture's lines of that
component. -/
structure ReconLine where
  component : Fin 3
  line : Nat
  samples : List Nat
  deriving DecidableEq, Repr

/-- One side's reconstruction of a segment: its samples before deblocking and SAO, and the filtered samples of the lines in its columns that are
final (06_decoders.md R134). -/
structure Reconstruction where
  pre : List ReconLine
  filtered : List ReconLine
  deriving DecidableEq, Repr

/-- The verifying decoder's check of a stripe's stand-in (13_relay.md R313): unit that made it, and what that decoder reconstructed. -/
structure StandInCheck where
  unit : UnitId
  stream : StreamId
  stripe : Nat
  decoder : Reconstruction
  deriving DecidableEq, Repr

/-- What a lap tick finds that the commands before it do not fix: the stalls measured in the lap that
ended (11_dram.md R275), the voter's comparison (01_module.md R20), whether the baton write of the
tick before finished (02_lap.md Table 2-4), the checks that the verifying decoder makes of the stand-ins of the lap that begins (13_relay.md R313), the eye openings measured anew, in 1/128 UI (07_sensor_lanes.md R162), and
what the RS-FEC decoders of the ports counted in the lap (08_network.md R201). -/
structure TickInput where
  stall : Vector Nat 4
  voter : VoterReport
  batonDone : Bool
  standIns : List StandInCheck
  eyes : List (UnitId × LaneId × Nat)
  fec : List (PortId × FecCount)
  deriving DecidableEq, Repr

/-- A task that a unit's firmware creates at its boot (02_lap.md R45): number, engine, class, wait mask and mode. -/
structure TaskDecl where
  ident : Nat
  engine : EngineId
  cls : Fin 3
  mask : BitVec 32
  all : Bool
  deriving DecidableEq, Repr

/-- What the task on an engine does before the next one is dispatched: the flags it sets in tasks, and whether it gives the engine up
(02_lap.md R45, R48). -/
structure TaskTurn where
  sets : List (Nat × Fin 32)
  yielded : Bool
  deriving DecidableEq, Repr

/-- One inter-coded 16 × 16 block of a CTU: the luma position of its centre, its chosen reference and its chosen vector in
quarter samples (04_prediction.md R93, R94, R105). -/
structure InterBlock where
  cx : Nat
  cy : Nat
  ref : Nat
  mv : Mv
  deriving DecidableEq, Repr

/-- What a CU is coded as, and the partitions the module uses (04_prediction.md R96, R97; 03_streams.md Table 3-2). -/
inductive CuKind where
  | skip
  | merge
  | inter
  | intra
  deriving DecidableEq, Repr

inductive PartMode where
  | square
  | horizontal
  | vertical
  deriving DecidableEq, Repr

/-- One way to code one CU of a CTU, as the pixel pipelines measure it (04_prediction.md R96): its place and size inside the CTU, kind and
partitions, merge index or intra mode, transform depth, SSE and estimated bits; for an intra mode its SATD, whether it is a most probable mode, and
whether the gradients point to it; the vectors of its partitions with their references. -/
structure CuTrial where
  x : Nat
  y : Nat
  size : Nat
  kind : CuKind
  part : PartMode
  mode : Nat
  depth : Nat
  sse : Nat
  bits : Nat
  satd : Nat
  mostProbable : Bool
  gradient : Bool
  vectors : List (Nat × Mv)
  deriving DecidableEq, Repr

/-- What H.265 derives for a 16 × 16 block and a reference: AMVP predictors and merge vectors (04_prediction.md Table 4-3). -/
structure BlockPredictors where
  block : Nat
  ref : Nat
  amvp : List Mv
  merge : List Mv
  deriving DecidableEq, Repr

/-- What content decides about one CTU: the bits it takes when coded as decided and when floor-coded, whether any coded block flag is 1 when coded
as decided (then it carries a cu_qp_delta), its cost in cycles, the cycles for which the DRAM has stalled the channel in this lap so far, H.265's predictors, and what the
pixel pipelines measure of each way to code a CU (05_pacer.md R118, 02_lap.md R42, 04_prediction.md R93, R96). -/
structure CtuContent where
  bits : Nat
  floorBits : Nat
  residual : Bool
  cycles : Nat
  stall : Nat
  predictors : List BlockPredictors
  trials : List CuTrial
  deriving DecidableEq, Repr

/-- Error classes of the decoders (06_decoders.md Table 6-5). -/
inductive ErrClass where
  | e1
  | e2
  | e3
  | e4
  | e5
  | e6
  deriving DecidableEq, Repr

/-- What a verified segment comes to: what the encoder and the verifying decoder reconstructed, the first error met, the most CABAC bins of a CTU,
and whether a write was suppressed (06_decoders.md R134, R146). -/
structure SegmentResult where
  stripe : Nat
  segment : Nat
  error : Option ErrClass
  bins : Nat
  encoder : Reconstruction
  decoder : Reconstruction
  suppressed : Bool
  deriving DecidableEq, Repr

/-- One translation entry (12_translation_dma.md R284). -/
structure AtuEntry where
  vbase : Nat
  page : Nat
  ubase : Nat
  readable : Bool
  writable : Bool
  eccBad : Bool
  deriving DecidableEq, Repr

/-- One context's load at a channel start (12_translation_dma.md R285, R286). -/
structure AtuLoad where
  ctx : Fin 64
  entries : List AtuEntry
  deriving DecidableEq, Repr

/-- One 66-bit block as it arrives: sync header and scrambled payload (07_sensor_lanes.md R163). -/
structure Block66 where
  sync : BitVec 2
  payload : BitVec 64
  deriving DecidableEq, Repr

/-- One line packet of a link (07_sensor_lanes.md R171, Tables 7-5 and 7-6). `whole` says that header and trailer
are both present and no control block but markers lies inside. -/
structure LinePacket where
  blocks : Nat
  flags : Nat
  line : Nat
  alive : Nat
  payload : List (BitVec 64)
  crc : BitVec 32
  whole : Bool
  deriving DecidableEq, Repr

/-- A picture descriptor block (07_sensor_lanes.md Table 7-7). -/
structure PictureDescriptor where
  width : Nat
  height : Nat
  chroma : Nat
  depth : Nat
  deriving DecidableEq, Repr

/-- How a NAL unit travels in an RTP packet (06_decoders.md R151). -/
inductive NalCarry where
  | single
  | aggregated
  | fuStart
  | fuMiddle
  | fuEnd
  | paci
  deriving DecidableEq, Repr

/-- What the parameter sets of the return feed say (06_decoders.md Table 6-6): `constraints` are general_max_12bit_constraint_flag down to
general_lower_bit_rate_constraint_flag, nine bits; samples per picture, per second and per CTU count every component, the nominal picture period is
in ns, `ctb` is the width of a CTU in luma samples; `pictures`, `reorder` and `latency` are the sizes of the decoded picture buffer for its highest temporal sub-layer. -/
structure ReturnFormat where
  width : Nat
  height : Nat
  chroma : Nat
  profile : Nat
  constraints : Nat
  level : Nat
  bitDepth : Nat
  samples : Nat
  samplesPerSecond : Nat
  periodNs : Nat
  ctus : Nat
  ctb : Nat
  ctuSamples : Nat
  slices : Nat
  donDiff : Nat
  pictures : Nat
  reorder : Nat
  latency : Option Nat
  deriving DecidableEq, Repr

/-- The tile columns and rows of a picture, in CTUs; none of them where the picture is one tile. -/
structure TileGrid where
  columns : List Nat
  rows : List Nat
  deriving DecidableEq, Repr

/-- A parameter set of the return feed: its identifier, that of the set it refers to, whether its content is valid, and what it says (06_decoders.md
R147, Table 6-5). -/
inductive ParamSet where
  | vps (ident : Nat) (valid : Bool)
  | sps (ident vps : Nat) (valid : Bool) (form : ReturnFormat)
  | pps (ident sps : Nat) (valid : Bool) (tiles : TileGrid)
  deriving DecidableEq, Repr

/-- A slice segment of the return feed as it is parsed and decoded (06_decoders.md R146 to R149): the PPS it refers to, the pictures its reference picture set names and
those it predicts from; its CTUs in coding order; its NAL unit's bytes and the CTUs that lie in the first 8 MiB of them; the CABAC bins of each CTU; the CTU at which a syntax
element leaves its range; writes that the hardware suppressed. -/
structure ReturnSlice where
  pps : Nat
  first : Bool
  nalType : Nat
  poc : Int
  shown : Bool
  discardPrior : Bool
  refs : List Int
  uses : List Int
  firstCtu : Nat
  ctus : Nat
  bytes : Nat
  held : Nat
  bins : List Nat
  errorAt : Option Nat
  suppressed : Nat
  deriving DecidableEq, Repr

/-- What a NAL unit of the return feed says when it is parsed (06_decoders.md R147, R150). -/
inductive NalInfo where
  | params (x : ParamSet)
  | slice (x : ReturnSlice)
  | endOfSequence
  | other
  deriving DecidableEq, Repr

/-- One RTP packet of the return feed: the NAL unit it holds or completes, or the units of an aggregation packet (06_decoders.md R151). -/
structure RtpPacket where
  ssrc : Nat
  pt : Nat
  seq : Nat
  ts : Nat
  marker : Bool
  carry : NalCarry
  nals : List NalInfo
  deriving DecidableEq, Repr

/-- A dictionary datagram as Table 17-3 lays it out (17_dictionary.md R410). -/
structure Datagram where
  protocol : Nat
  version : Nat
  opcode : Nat
  sequence : Nat
  index : Nat
  sub : Nat
  flags : Nat
  offset : Nat
  abort : Nat
  stamp : Nat
  payload : List Byte
  crc : BitVec 32
  deriving DecidableEq, Repr

/-- What the datagram or message inside a received frame is (08_network.md R194, R197); `ptpMetadata` is a PTP management message with the SMPTE
synchronization metadata TLV (10_time.md R248, Table 10-3). -/
inductive FrameBody where
  | arpRequest (senderMac senderIp targetIp : Nat)
  | arpReply (senderMac senderIp targetIp : Nat)
  | icmpEcho (ident seq : Nat) (data : List Byte)
  | igmpQuery (group : Nat)
  | ptp (event : Bool) (correction : Int)
  | ptpMetadata (utcOffset : Int)
  | datagram (d : Datagram)
  | rtp (r : RtpPacket)
  | flowControl
  | other
  deriving DecidableEq, Repr

/-- A received Ethernet frame: addresses, EtherType, length with FCS, whether the FCS holds, and the IPv4 and UDP
fields the rules test (08_network.md R193 to R199, 09_flows.md R233). `skew` and `stampError` are those of PtpSync. -/
structure Frame where
  dst : Nat
  src : Nat
  tagged : Bool
  etherType : Nat
  len : Nat
  fcsOk : Bool
  srcIp : Nat
  dstIp : Nat
  ipOdd : Bool
  srcPort : Nat
  dstPort : Nat
  udpSumOk : Bool
  skew : Int
  stampError : Int
  body : FrameBody
  deriving DecidableEq, Repr

/-- A timestamp as PTP carries it: 48 bits of seconds and nanoseconds (10_time.md R242). -/
structure PtpTime where
  seconds : BitVec 48
  nanoseconds : BitVec 32
  deriving DecidableEq, Repr

/-- A PTP Sync (10_time.md R252): domain, sender's port identity, origin time, correction in units of 2⁻¹⁶ ns. Of its reception: the deskew
delay of the PCS lane with the start-of-frame block, in the same units, and how far the stamp lies from the replica (R255, R256). -/
structure PtpSync where
  seqId : Nat
  domain : Nat
  sourceId : Nat
  twoStep : Bool
  t1 : PtpTime
  correction : Int
  skew : Int
  stampError : Int
  logInterval : Int
  deriving DecidableEq, Repr

/-- A PTP Follow_Up (10_time.md R252). -/
structure PtpFollowUp where
  seqId : Nat
  domain : Nat
  sourceId : Nat
  t1 : PtpTime
  correction : Int
  deriving DecidableEq, Repr

/-- A PTP Delay_Resp (10_time.md R252); `forUs` says that it answers a port of this module. -/
structure PtpDelayResp where
  seqId : Nat
  domain : Nat
  sourceId : Nat
  forUs : Bool
  t4 : PtpTime
  correction : Int
  logInterval : Int
  deriving DecidableEq, Repr

/-- The data set of an Announce (10_time.md R250; the comparison order of IEEE 1588-2019). -/
structure PtpAnnounce where
  gmId : Nat
  priority1 : Nat
  clockClass : Nat
  clockAccuracy : Nat
  variance : Nat
  priority2 : Nat
  stepsRemoved : Nat
  sourceId : Nat
  sourceIp : Nat
  timeTraceable : Bool
  utcOffset : Int
  domain : Nat
  logInterval : Int
  deriving DecidableEq, Repr

/-- Monitors of Table 10-6 that lead to a clock fault (10_time.md R262). -/
inductive ClockMonitor where
  | refclk100
  | refclk156
  | basePll
  deriving DecidableEq, Repr

/-- What the ECC of a DRAM read finds in a 64-byte block (11_dram.md R276, R277): nothing, single-bit errors in so many of its 8-byte groups, or an
error that it cannot correct. -/
inductive EccResult where
  | clean
  | corrected (groups : Nat)
  | uncorrectable
  deriving DecidableEq, Repr

/-- The reader or writer behind a DRAM request (11_dram.md R267, R277, R278). -/
inductive DramUser where
  | windowFetch (c : Chan)
  | verifyRead (c : Chan)
  | otherRealTime
  | nonRealTime
  | engineTask (ident : Nat)
  | segmentZero
  | scrub
  deriving DecidableEq, Repr

/-- One request waiting at a DRAM channel of a unit (11_dram.md R267): context and virtual address (12 R284), the
bytes of a write, its age in cycles, and what the ECC finds. Its class is its user's. -/
structure DramRequest where
  ctx : Fin 64
  vaddr : Nat
  size : Nat
  write : Bool
  data : List Byte
  age : Nat
  user : DramUser
  ecc : EccResult
  deriving DecidableEq, Repr

/-- What is queued at a DRAM channel when a refresh command falls due: the real-time requests of each bank pair, and the other requests (11_dram.md
R270, R271). -/
structure RefreshQueue where
  realTime : Vector Nat 8
  others : Nat
  deriving DecidableEq, Repr

/-- A 64-byte DMA descriptor (12_translation_dma.md Table 12-3). Steps are signed. -/
structure Descriptor where
  nextAddr : Nat
  srcAddr : Nat
  dstAddr : Nat
  srcStep : Vector Int 3
  dstStep : Vector Int 3
  count : Vector Nat 3
  timestamp : Nat
  rowBase : Nat
  pktElems : Nat
  srcCtx : Fin 64
  dstCtx : Fin 64
  flow : Nat
  elemBytes : Nat
  dstKind : Nat
  markLast : Bool
  fence : Bool
  eventDone : Bool
  deriving DecidableEq, Repr

/-- What an engine task starts an idle DMA channel with: the address of its first descriptor, its source context, and the task that owns the
channel; `resume` says that it resumes its stopped channel instead (12_translation_dma.md R288, R294, R296; 02_lap.md R49). -/
structure DmaStart where
  addr : Nat
  ctx : Fin 64
  task : Nat
  resume : Bool
  deriving DecidableEq, Repr

/-- Where a unit fault comes from (13_relay.md Table 13-6, with the EMCY sources of 17_dictionary.md Table 17-4). -/
inductive UnitFaultSource where
  | verdict (c : Chan)
  | egress (c : Chan)
  | hurdle
  | lane
  | memory
  | watchdog
  | clockOrRail
  | thermal
  deriving DecidableEq, Repr

/-- What one step of the standby's self-test covers: a partition of logic, an array of on-die SRAM, a 64 MiB region of DRAM segments 1 to 7, the free
bank of the line store, a slot of the baton SRAM (13_relay.md Table 13-2). -/
inductive SelfTestBlock where
  | logic (partition : Nat)
  | sram (array : Nat)
  | pattern (region : Fin 784)
  | lineStore (bank : Fin 3)
  | batonSlot (slot : Fin 2)
  deriving DecidableEq, Repr

/-- A step of the standby's self-test begins, or ends with its result, and a pass that is complete (13_relay.md R310). -/
inductive SelfTestResult where
  | begun (b : SelfTestBlock)
  | passed
  | failed (block : Nat)
  | unfinished
  | passComplete
  deriving DecidableEq, Repr

/-- A record that a check-value unit ends (14_integrity.md R344): its bytes, expected value and alive field. -/
structure CvRecord where
  bytes : List Byte
  expected : BitVec 64
  alive : Option Nat
  owner : Option Nat
  deriving DecidableEq, Repr

/-- A telemetry frame of the power stage (16_power_ageing.md Table 16-2), or none when it did not arrive. -/
structure TelemetryFrame where
  alive : BitVec 8
  flags : BitVec 8
  phases : BitVec 8
  cause : BitVec 3
  slowId : BitVec 5
  slowValue : BitVec 32
  crc : BitVec 16
  deriving DecidableEq, Repr

/-- What the margin planner measures on one die (16_power_ageing.md R396, R398): the counts over 100 µs of the stressed and the reference
oscillator of each pair, canary events since the last run, and corrected ECC errors of the last 24 h. -/
structure DieMeasure where
  counts : Vector (Nat × Nat) 48
  canaryEvents : Nat
  eccErrors : Nat
  deriving DecidableEq, Repr

/-- What a margin-planner run measures (16_power_ageing.md R398): the dies, whether a network receive lane's eye is below 16/128 UI, and the
network receive lanes of each unit that are locked with an eye of at least 24/128 UI. -/
structure PlanMeasure where
  dies : Vector DieMeasure 3
  lowNet : Bool
  goodNetA : BitVec 16
  goodNetB : BitVec 16
  deriving DecidableEq, Repr

/-- The header of an Auvos package and the outcome of its signature and hash checks (15_reset.md R371). -/
structure PackageHeader where
  version : Nat
  rollback : Nat
  stepping : Nat
  keyOk : Bool
  signatureOk : Bool
  hashOk : Bool
  lengthOk : Bool
  deriving DecidableEq, Repr

/-- What a unit's boot ROM reads from the flash: the headers of the two boot regions and the tasks of the firmware it loads (15_reset.md R371, R372;
02_lap.md R45). -/
structure UnitImage where
  regions : Vector PackageHeader 2
  tasks : List TaskDecl
  deriving DecidableEq, Repr

/-- The bytes of a flash record, or a record that cannot be read, with the outcome of its own check. -/
structure SavedImage where
  crcOk : Bool
  values : List (Nat × Nat)
  emcyCobWritten : Bool
  deriving DecidableEq, Repr

/-- A dictionary request on a client's route (17_dictionary.md R403, R406): a read, or the bytes of a write. -/
inductive DictRequest where
  | read (index sub : Nat)
  | write (index sub : Nat) (data : List Byte)
  | segment (index sub offset : Nat) (data : List Byte) (final : Bool)
  deriving DecidableEq, Repr

/-- A CRC-16, CRC-32 or CRC-64 parameter choice of CV7 (14_integrity.md Table 14-5). -/
abbrev CrcCode := Fin 4

/-- The partial CRC-16 of one line of a component in a channel's columns, from an initial value of 0 (03_streams.md R79). -/
structure LineCrc where
  chan : Chan
  component : Fin 3
  line : Nat
  crc : BitVec 16
  deriving DecidableEq, Repr

/-- What content decides about a coded stripe: its slices' NAL units byte by byte, without start codes, by channel in slice order
(05_pacer.md R108), what each channel reconstructed of it (03_streams.md R65, R69), and the partial CRCs of its decoded lines (R79). -/
structure CodedStripe where
  slices : List (List Byte)
  recon : List (Chan × Reconstruction)
  crcs : List LineCrc
  deriving DecidableEq, Repr

/-- The commands of the block: one constructor per row of spec/opcode_table.json, in the table's order. -/
inductive Instr where
  -- the lap and the task dispatcher (02_lap.md)
  | lapTick (i : TickInput)
  | timerExpiry (u : UnitId)
  | timerInsert (u : UnitId) (task laps : Nat) (flag : Fin 32)
  | taskRun (u : UnitId) (e : EngineId) (x : TaskTurn)
  | flagWriteRetry (u : UnitId)
  | contextSaveFault (u : UnitId) (e : EngineId)
  -- coding (02_lap.md, 04_prediction.md, 05_pacer.md, 06_decoders.md)
  | stripeJobFire (c : Chan)
  | operandDeadline
  | ctuCode (c : Chan) (n : StreamId) (x : CtuContent)
  | budgetStep (n : StreamId)
  | stripeCoded (n : StreamId) (x : CodedStripe)
  | windowFetchDone (c : Chan) (n : StreamId)
  | segmentVerified (c : Chan) (n : StreamId) (x : SegmentResult)
  | egressByteCheck (c : Chan) (n : StreamId) (stripe slice : Nat) (verifier egress : List Byte)
  | globalVectorEstimate (n : StreamId)
  | roiTrackUpdate (n : StreamId)
  -- channels, groups, maps (02_lap.md, 03_streams.md, 04_prediction.md)
  | channelStart (k : Client) (c : Chan) (loads : List AtuLoad)
  | channelBegin
  | channelStop (k : Client) (c : Chan)
  | channelStopped (c : Chan)
  | groupOpen (k : Client)
  | groupCommit (k : Client)
  | groupAbandon (k : Client)
  | groupTimeout
  | mapLoadBegin (k : Client) (c : Chan) (n : StreamId)
  | mapData (k : Client) (c : Chan) (n : StreamId) (data : List Byte)
  | mapCommit (k : Client) (c : Chan) (n : StreamId)
  | mapDiscard (k : Client) (c : Chan) (n : StreamId)
  | verifyEnableWrite (k : Client) (c : Chan) (v : Nat)
  | objectWrite (k : Client) (index sub : Nat) (data : List Byte)
  | mirrorTimeout (u : UnitId)
  -- return decoder and monitor output (06_decoders.md)
  | returnDecoderEnable (k : Client) (v : Nat)
  | pictureClose
  | presentationTime
  | returnTimeLimit
  | pathSkewExpiry
  | tb1PictureStart
  -- sensor lanes (07_sensor_lanes.md)
  | losAssert (u : UnitId) (l : LaneId)
  | losRelease (u : UnitId) (l : LaneId)
  | lolAssert (u : UnitId) (l : LaneId)
  | blockRx (u : UnitId) (l : LaneId) (b : Block66)
  | signalDetect (u : UnitId) (l : LaneId)
  | wakeTimeout (u : UnitId) (l : LaneId)
  | linePacketRx (u : UnitId) (l : LinkId) (p : LinePacket)
  | pictureDescriptorRx (u : UnitId) (l : LinkId) (d : PictureDescriptor)
  | phaseFaultClear
  -- ports, bridge and flows (08_network.md, 09_flows.md)
  | portLinkUp (p : PortId)
  | portLinkDown (p : PortId)
  | frameRx (p : PortId) (f : Frame)
  | arpRetry (p : PortId) (ip : Nat)
  | arpRefresh (p : PortId) (ip : Nat)
  | addressAgeing (mac : Nat)
  | receiveBufferEnqueue (p : PortId)
  | frameTxStart (p : PortId)
  | shaperAdmit (f : FlowId)
  | flowDrained (f : FlowId)
  | tokenReoffer (f : FlowId)
  | sessionDescriptionRead (k : Client) (f : FlowId)
  -- time (10_time.md)
  | genlockEdge
  | genlockEdgeMissing
  | tb0Second
  | syncOutPulse (n : Fin 4)
  | ptpSyncRx (p : PortId) (m : PtpSync)
  | ptpFollowUpRx (p : PortId) (m : PtpFollowUp)
  | ptpDelayReqSend (p : PortId) (stampError : Int)
  | ptpDelayRespRx (p : PortId) (m : PtpDelayResp)
  | ptpAnnounceRx (p : PortId) (m : PtpAnnounce)
  | announceReceiptTimeout (p : PortId)
  | clockFault (m : ClockMonitor)
  -- DRAM (11_dram.md)
  | dramRequest (u : UnitId) (ch : DramChan) (waiting : List DramRequest)
  | refreshInterval (u : UnitId) (ch : DramChan) (queued : RefreshQueue)
  | mr4Poll (u : UnitId) (rates : Vector Nat 32) (tempChanged : Bool)
  | hammerWindowClear (u : UnitId)
  | scrubPassStart (u : UnitId)
  | selfRefreshEntry (u : UnitId)
  | selfRefreshCommit (u : UnitId)
  | selfRefreshExit (u : UnitId) (heldSince : Nat)
  | zqLatch (u : UnitId)
  | driftMeasure (u : UnitId) (drifted : BitVec 32)
  | standbyRecentre
  -- DMA and trigger capture (12_translation_dma.md)
  | descriptorFetch (u : UnitId) (d : DmaId) (start : Option DmaStart)
  | dmaBurst (u : UnitId) (d : DmaId) (found : List (Nat × EccResult))
  | descriptorComplete (u : UnitId) (d : DmaId)
  | landed (u : UnitId) (d : DmaId)
  | dmaStallResume (u : UnitId) (d : DmaId)
  | arm (k : Client)
  | trigger (k : Client)
  | release (k : Client)
  | disarm (k : Client)
  | trigPinEdge (n : Fin 4) (falling : Bool)
  | triggerTimeReached
  | triggerTimeWrite (k : Client) (v : BitVec 128)
  | readoutStart (k : Client) (r : ReadoutId)
  | readoutAbort (k : Client) (r : ReadoutId)
  | readoutResume (k : Client) (r : ReadoutId)
  -- the relay (13_relay.md)
  | plannedSwitch (k : Client)
  | forcedSwitch (k : Client)
  | lockout (k : Client)
  | endLockout (k : Client)
  | abandonPlannedSwitch (k : Client)
  | retryRepair (k : Client)
  | reversionLockWrite (k : Client) (v : Nat)
  | unitFault (u : UnitId) (src : UnitFaultSource)
  | arbiterLatch
  | selectorSwitch (p : PortId)
  | batonCheck (u : UnitId) (damage : List (Nat × Byte))
  | releaseReport (pairs crc : List Byte)
  | selfTestStep (r : SelfTestResult)
  | repairResetRelease
  | repairRetry
  | holdOffExpiry
  | homeBootTimeout
  -- integrity (14_integrity.md)
  | engineWatchdogExpiry (u : UnitId) (e : EngineId)
  | controllerWatchdogExpiry
  | unitRailFault (u : UnitId) (rail : Fin 7)
  | unitClockFault (u : UnitId)
  | sensorRead (values : Vector Nat 38)
  | checkValueRecord (i : CvId) (r : CvRecord)
  | monitorClear (k : Client) (m : SlotId) (v : Nat)
  | monitorSnapshot (k : Client) (m : SlotId)
  | overflowListEmpty (k : Client)
  | controllerRestart
  -- reset and bring-up (15_reset.md)
  | powerOnReset
  | rstNAssert (ns : Nat)
  | rstNRelease
  | resetSourceRelease (code : Fin 8)
  | blockReset (k : Client) (mask : BitVec 32)
  | clockStable
  | clockStableTimeout (where_ : Option UnitId)
  | releaseStepDone
  | programPulseEnd
  | eraseSuspendDone
  | limitRecordCheck
  | controllerImageCheck (regions : Vector PackageHeader 2)
  | dictionaryLoad
  | unitImageCheck (u : UnitId) (x : UnitImage)
  | bootComplete (u : UnitId)
  -- power stage and ageing (16_power_ageing.md)
  | stageStart
  | powerFailWarning (cause : Fin 8)
  | stageStop
  | inputReturn
  | flushComplete
  | powerFailAreaErase
  | logSave
  | phaseFault (i : Fin 7)
  | currentClamp
  | telemetryFrameRx (f : TelemetryFrame)
  | telemetryLost
  | plannerRun (m : PlanMeasure)
  | planNow (k : Client) (m : PlanMeasure)
  | voltageStep (die : DieId)
  -- the dictionary's routes (17_dictionary.md)
  | usdoTransfer (r : DictRequest)
  | dictionaryDatagram (p : PortId) (srcIp srcPort : Nat) (d : Datagram)
  | transferTimeout (k : Client)
  | clientSlotTimeout (k : Client)
  | nmtStart
  | nmtStop
  | nmtEnterPreOperational
  | resetNode
  | resetCommunication
  | busOffRecovery
  | canSyncRx
  | heartbeat
  | emcySend
  | windowOpenWrite (k : Client) (w : WinId)
  | windowOpenRead (k : Client) (w : WinId)
  | windowCommit (k : Client) (w : WinId)
  | windowAbandon (k : Client) (w : WinId)
  | windowData (k : Client) (w : WinId) (write : Bool) (data : List Byte)
  | windowTimeout (w : WinId)
  | firmwareEraseDone
  | programBufferRoom (failed : Bool)
  | firmwareVerifyDone (h : PackageHeader)
  | challengeRead (k : Client)
  | responseWrite (k : Client) (v : BitVec 128)
  | maintenanceLock (k : Client)
  | unlockAttemptBlockExpiry
  | unlockExpiry
  | save (k : Client)
  | load (k : Client)
  | errorListEmpty (k : Client)
  -- rows the table lists last
  | lolRelease (u : UnitId) (l : LaneId)
  | canBusOff
  | saveComplete
  | controllerRestartDone
  | wornDutyEnd (die : DieId)
  deriving DecidableEq, Repr

end Sys2Proof
end

