-- ==== Sys2Proof/Decode.lean ====
section
/-! DEFINITION. The word decoder over spec/opcode_table.json. No row of the table gives its command any bits, so no
word spells a command (log entry 2). -/

namespace Sys2Proof

/-- The command a word spells: none, for every word. -/
def decodeTableWord (_nbits _w : Nat) : Option Instr := none

end Sys2Proof
end

