-- ==== Sys2Proof/Machine/Crc.lean ====
section
/-! DEFINITION. The CRCs of 14_integrity.md Table 14-5, bit by bit over bytes. -/

namespace Sys2Proof.Machine

/-- One bit of a reflected CRC: shift right, the reversed polynomial where a 1 leaves. -/
def crcBitR {w : Nat} (poly : BitVec w) (r : BitVec w) : BitVec w :=
  if r.getLsbD 0 then (r >>> 1) ^^^ poly else r >>> 1

/-- One bit of an unreflected CRC: shift left, the polynomial where a 1 leaves. -/
def crcBitL {w : Nat} (poly : BitVec w) (r : BitVec w) : BitVec w :=
  if r.msb then (r <<< 1) ^^^ poly else r <<< 1

/-- Eight bits. -/
def eightTimes {α : Type} (f : α → α) (x : α) : α := f (f (f (f (f (f (f (f x)))))))

def crcReflected {w : Nat} (poly init xorOut : BitVec w) (l : List Byte) : BitVec w :=
  (l.foldl (fun r b => eightTimes (crcBitR poly) (r ^^^ b.setWidth w)) init) ^^^ xorOut

def crcForward {w : Nat} (poly init : BitVec w) (l : List Byte) : BitVec w :=
  l.foldl (fun r b => eightTimes (crcBitL poly) (r ^^^ BitVec.shiftLeft (b.setWidth w) (w - 8))) init

/-- Code 0, CRC-32: polynomial 0x04C1_1DB7, reflected. -/
def crc32 (init : BitVec 32) (l : List Byte) : BitVec 32 := crcReflected 0xEDB88320#32 init 0xFFFFFFFF#32 l

/-- Code 1, CRC-32C: polynomial 0x1EDC_6F41, reflected. -/
def crc32c (l : List Byte) : BitVec 32 := crcReflected 0x82F63B78#32 0xFFFFFFFF#32 0xFFFFFFFF#32 l

/-- Code 1 with another initial value. -/
def crc32cFrom (init : BitVec 32) (l : List Byte) : BitVec 32 := crcReflected 0x82F63B78#32 init 0xFFFFFFFF#32 l

/-- Code 2, CRC-16/CCITT: polynomial 0x1021. -/
def crc16 (init : BitVec 16) (l : List Byte) : BitVec 16 := crcForward 0x1021#16 init l

/-- Code 3, CRC-64/ECMA-182: polynomial 0x42F0_E1EB_A9EA_3693. -/
def crc64 (init : BitVec 64) (l : List Byte) : BitVec 64 := crcForward 0x42F0E1EBA9EA3693#64 init l

/-- The result of a code over bytes; an override of 0 takes the initial value of Table 14-5 (0x5800:03). -/
def crcOf (code override : Nat) (l : List Byte) : BitVec 64 :=
  match code with
  | 0 => (crc32 (if override = 0 then 0xFFFFFFFF#32 else BitVec.ofNat 32 override) l).setWidth 64
  | 1 => (crc32cFrom (if override = 0 then 0xFFFFFFFF#32 else BitVec.ofNat 32 override) l).setWidth 64
  | 2 => (crc16 (if override = 0 then 0x1D0F#16 else BitVec.ofNat 16 override) l).setWidth 64
  | _ => crc64 (BitVec.ofNat 64 override) l

/-- Little-endian value of bytes (00_scope.md R7). -/
def leNat : List Byte → Nat
  | [] => 0
  | b :: t => b.toNat + 256 * leNat t

/-- `n` little-endian bytes of a value (00_scope.md R7). -/
def leBytes : Nat → Nat → List Byte
  | 0, _ => []
  | n + 1, v => BitVec.ofNat 8 v :: leBytes n (v / 256)

/-- A record of 8 × n bits from bytes, little-endian (00_scope.md R7). -/
def recordAt (l : List Byte) (off n : Nat) : Nat := leNat ((l.drop off).take n)

/-- Field [hi:lo] of a record. -/
def recordField (w hi lo : Nat) : Nat := (w >>> lo) % 2 ^ (hi + 1 - lo)

/-- A field of a record as a two's complement number (00_scope.md R9). -/
def recordSigned (w hi lo : Nat) : Int :=
  let v := recordField w hi lo
  if v < 2 ^ (hi - lo) then v else (v : Int) - 2 ^ (hi + 1 - lo)

end Sys2Proof.Machine
end

