-- ==== Sys2Proof/Config.lean ====
section
/-! DEFINITION. What the spec fixes per part and does not state, and the free values: constants with no body, so that
nothing can be proved of their values (log entries 4 and 6). -/

namespace Sys2Proof.Config

/-- A free value of `w` bits: the n-th the machine draws (log entry 4). -/
opaque freeValue (w : Nat) (n : Nat) : BitVec w

/-- The byte an undefined region of DRAM holds (13_relay.md R311, 11_dram.md R281): region tag and address. -/
opaque freeByte (tag address : Nat) : BitVec 8

/-- A challenge of 17_dictionary.md R419: the n-th drawn. -/
opaque challenge (n : Nat) : BitVec 64

/-- The first 16 bytes of HMAC-SHA-256 under the maintenance key over challenge and serial number (R419). -/
opaque hmac (challenge serial : BitVec 64) : BitVec 128

/-- Module serial number, 0x2000:04 (17_dictionary.md Table 17-7). -/
opaque serialNumber : BitVec 64

/-- Date code, 0x2000:03. -/
opaque dateCode : BitVec 16

/-- Die identities, 0x2000:05 to 07. -/
opaque dieIdentity (die : DieId) : BitVec 64

/-- Whether the ordering code is MBS2564-X (00_scope.md Table 0-1). -/
opaque wideRange : Bool

/-- Calibrated sensitivity s of a die, ppm per mV, 0x5C11:07 (16_power_ageing.md R398). -/
opaque sensitivity (die : DieId) : BitVec 16

/-- Baseline ratio of the oscillators of pair `i` of a die, in units of 2⁻³², measured at the factory (16_power_ageing.md R396). -/
opaque baselineRatio (die : DieId) (i : Nat) : BitVec 64

/-- Receive latency of a port less skew, pcs_rx + base_rx, ps, 0x2202:01 to 04 (10_time.md R255). -/
opaque rxLatency (u : UnitId) (p : PortId) (fec : Bool) : BitVec 32

/-- Transmit latency of a port, pcs_tx + base_tx, ps, 0x2202:05 to 08 (10_time.md R255). -/
opaque txLatency (u : UnitId) (p : PortId) (fec : Bool) : BitVec 32

/-- The factory equalisation values of a lane receiver of a unit: sensor lanes 0 to 63 (07_sensor_lanes.md R162). -/
opaque factoryEqual (u : UnitId) (lane : LaneId) : Nat

/-- How far the TB0 and the TB3 replica of a unit lie from the time core, in 2⁻¹⁶ ns, within ±1 ns (10_time.md R244). -/
opaque replicaError (u : UnitId) (tb3 : Bool) : Int

/-- Whether an RST_N pulse of 50 ns to 100 ns is taken as a reset (18_electrical.md R432 leaves it open). -/
opaque shortPulseResets (n : Nat) : Bool

/-- Factory estimate of the largest cost of a CTU at a ladder level, cycles (02_lap.md R42): ladder level, CTB size, chroma
format and bit depth. -/
opaque factoryCost (level ctb chroma depth : Nat) : Nat

/-- The rollback floor held in the fuses (15_reset.md R371). -/
opaque rollbackFloor : Nat

/-- Bits of a component of a vector difference: the tables of the Auvos firmware (04_prediction.md R95). -/
opaque vectorBits (component : Int) : Nat

/-- Whether component `c` of vertical bar `bar` of the monitor's test pattern is full-scale rather than 0 (06_decoders.md R154 names no colours). -/
opaque barFull (bar c : Nat) : Bool

/-- Chroma format and bit depth of the monitor's test pattern (06_decoders.md R154 states none). -/
opaque patternForm : Nat × Nat

/-- Sample `i` of line `line` of the `k`-th picture sent from a decoded picture or a reconstruction, whose samples the model does not hold
(06_decoders.md R154). -/
opaque monitorSample (k line i : Nat) : Nat

/-- Session identifier and version of a flow's SDP (RFC 8866; 08_network.md R209 states neither). -/
opaque sdpOrigin (flow : Nat) : Nat × Nat

/-- The loop delay of the CAN FD transceiver at a time, ns (18_electrical.md R433). -/
opaque loopDelay (now : Nat) : Nat

/-- The bytes of the limit record written to the flash while maintenance was unlocked, none where none was (08_network.md R211 gives the write no
object). -/
opaque limitWritten (n : Nat) : Option (List (BitVec 8))

/-- The ECC byte of 64 data bits in the block at a usable address: a single-error-correcting, double-error-detecting code that the manual does not
spell out (11_dram.md R266). -/
opaque eccCode (data : BitVec 64) (block : Nat) : BitVec 8

/-- A byte of the Auvos working copy in segment 0, as the flash holds it (11_dram.md Table 11-5, R277). -/
opaque auvosByte (address : Nat) : BitVec 8

/-- Partitions of logic and arrays of on-die SRAM that a self-test cycle covers, one a step (13_relay.md Table 13-2 states no number). -/
opaque testPartitions : Nat

opaque testArrays : Nat

/-- The translation loads that the running firmware has laid out for the n-th start of a channel by an object write (12_translation_dma.md R286 states no
page numbers). -/
opaque allocation (n : Nat) : List (Fin 64 × List (Nat × Nat × Nat))

end Sys2Proof.Config
end

