-- ==== Sys2Proof/Machine/Types.lean ====
section
/-! DEFINITION. The parts that State is made of: one structure per block of the module, plain data only. Each
docstring names the rule of spec/ that gives the machine that state. -/

namespace Sys2Proof.Machine

/-! ## Pairs -/

/-- One value per unit. -/
structure Pair (α : Type) where
  a : α
  b : α
  deriving DecidableEq, Repr

/-- The value of unit `u`. -/
def Pair.get {α : Type} (p : Pair α) : UnitId → α
  | .a => p.a
  | .b => p.b

/-- The pair with the value of unit `u` replaced. -/
def Pair.set {α : Type} (p : Pair α) (u : UnitId) (x : α) : Pair α :=
  match u with
  | .a => { p with a := x }
  | .b => { p with b := x }

/-! ## The object dictionary (17_dictionary.md, R9) -/

/-- Access types of 00_scope.md R9. -/
inductive Access where
  | ro
  | rw
  | wo
  | rws
  | rwp
  | rwl
  deriving DecidableEq, Repr

/-- CANopen types of the dictionary (00_scope.md R9). -/
inductive ObjType where
  | u8
  | u16
  | u32
  | u64
  | i8
  | i16
  | i32
  | i64
  | bool
  | octet128
  | str
  | domain
  deriving DecidableEq, Repr

/-- Counter classes of 14_integrity.md Table 14-7; `plain` is no counter. -/
inductive CounterClass where
  | plain
  | stat
  | event
  | halves
  | peak
  | wraps
  deriving DecidableEq, Repr

/-- What a written value may be: the ranges the object tables state, and reserved bits as a mask (R8). -/
inductive Range where
  | any
  | upTo (n : Nat)
  | atLeast (n : Nat)
  | within (lo hi : Nat)
  | signed (lo hi : Int)
  | oneOf (l : List Nat)
  | mask (m : Nat)
  | multiple (m : Nat)
  | qpEntry
  | field (hi lo : Nat) (r : Range)
  | both (a b : Range)
  | either (a b : Range)
  deriving Repr

/-- One row of an object table: sub-indices `lo` to `hi`, type, access, default, the bits a write of 1 clears (0: not
a status word), counter class, range. -/
structure ObjRow where
  lo : Nat
  hi : Nat
  ty : ObjType
  acc : Access
  dflt : Nat
  clear : Nat
  cls : CounterClass
  rng : Range
  deriving Repr

/-- Values by key (index × 256 + sub-index), rising keys, no entry equal to what an unlisted key reads as. -/
abbrev Store := List (Nat × Nat)

/-- A write that counts and has not been applied (02_lap.md R51, R52). -/
structure Counted where
  key : Nat
  val : Nat
  cycle : Nat
  perPicture : Bool
  deriving DecidableEq, Repr

/-- The open commit group (02_lap.md R53, R54). -/
structure Group where
  owner : Client
  openedAt : Nat
  writes : List (Nat × Nat)
  deriving DecidableEq, Repr

/-- The written values of the object dictionary: master copy, unit shadows, applied values, the values that a channel start took into use
(03_streams.md R80, R83), counted writes, open group (17_dictionary.md R404, 02_lap.md R52, R53). -/
structure DictState where
  master : Store
  shadowA : Store
  shadowB : Store
  applied : Store
  inUse : Store
  counted : List Counted
  group : Option Group
  deriving DecidableEq, Repr

/-! ## The lap (02_lap.md) -/

/-- The lap counters and the schedule of ticks (02_lap.md R29, R54, R55, R374). Times in core cycles; pictureStart
and pictureLen in 1/256 cycles; `stretch` is what a step of 07_sensor_lanes.md R182 adds to the picture in progress, `shift` that the next
picture takes the step carried in PhaseState, `dropped` that the picture in progress is dropped, `dropNext` that
the next one is, `droppedLast` that the one before it was (R183). -/
structure LapState where
  count : Nat
  inPicture : Nat
  period : Nat
  lastTick : Nat
  nextTick : Nat
  pictureStart : Nat
  pictureLen : Nat
  picture : Nat
  generation : Nat
  dropped : Bool
  dropNext : Bool
  droppedLast : Bool
  stretch : Int
  shift : Bool
  captureTb0 : Nat
  captureTod : Nat
  voterHold : Bool
  voterNoteAt : Option Nat
  deriving DecidableEq, Repr

/-- Status of a task (02_lap.md R45, R48 to R50). -/
inductive TaskStatus where
  | waiting
  | ready
  | running
  | preempted
  | killed
  deriving DecidableEq, Repr

/-- One dispatcher task (02_lap.md R45). Class 0 lap-deadline, 1 service, 2 background. -/
structure Task where
  ident : Nat
  engine : EngineId
  cls : Fin 3
  flags : BitVec 32
  mask : BitVec 32
  all : Bool
  status : TaskStatus
  readyLap : Nat
  refused : Bool
  failed : Bool
  deriving DecidableEq, Repr

/-- One timer on the delay list (02_lap.md R47). -/
structure Timer where
  laps : Nat
  task : Nat
  flag : Fin 32
  deriving DecidableEq, Repr

/-- One stripe job in a matching store with its four operands (02_lap.md R39, R46). -/
structure Job where
  stream : StreamId
  stripe : Nat
  pixels : Bool
  window : Bool
  budget : Bool
  space : Bool
  fired : Bool
  deriving DecidableEq, Repr

/-- The task dispatcher of a unit (02_lap.md R45 to R50). -/
structure DispState where
  tasks : List Task
  queues : Vector (List Nat) 12
  running : Vector (Option Nat) 64
  saved : Vector (List Nat) 64
  timers : List Timer
  heldFlags : List (Nat × Fin 32)
  jobs : Vector (List Job) 4
  heldJobs : List (Chan × Job)
  deriving DecidableEq, Repr

/-! ## Lanes and input (07_sensor_lanes.md) -/

/-- Lane states of 07_sensor_lanes.md Table 7-3. -/
inductive LaneMode where
  | down
  | hunt
  | locked
  | idle
  | wake
  | disabled
  deriving DecidableEq, Repr

/-- One lane receiver (07_sensor_lanes.md Tables 7-3 and 7-11): `window` holds the invalid-header history of the last
64 blocks, `scrambler` the 58 bits of the descrambler, `slips` the bit slips of the boundary, `equal` the equalisation values the receiver works with (R162). -/
structure Lane where
  mode : LaneMode
  los : Bool
  lol : Bool
  valid : Nat
  window : BitVec 64
  slips : Nat
  scrambler : BitVec 58
  wakeSeen : Bool
  wakeAt : Nat
  slowExits : Nat
  lockLosses : Nat
  eye : Nat
  lockedTicks : Nat
  marker : Option (BitVec 16)
  markerAt : Nat
  prevMarker : Option (BitVec 16)
  prevAt : Nat
  equal : Nat
  deriving DecidableEq, Repr

/-- A link receiver: the markers, and the line sequence of R173, R175 (07_sensor_lanes.md): `picture` is the number of the picture whose lines the
link last accepted, `skipped` the lines that the last accepted one skipped. -/
structure Link where
  up : Bool
  skew : Nat
  expLine : Nat
  expAlive : Option (BitVec 8)
  lastLine : Option (Nat × Nat)
  skipped : List Nat
  picture : Nat
  descriptorOk : Bool
  deriving DecidableEq, Repr

/-- A line in an input stripe buffer or the line store: picture, link, line number, its samples, whether it was replaced, and
when its trailer came (07_sensor_lanes.md R174, R176). -/
structure BufLine where
  picture : Nat
  link : LinkId
  line : Nat
  samples : List Nat
  replaced : Bool
  heldAt : Nat
  deriving DecidableEq, Repr

/-- Phase measurement and servo of TB2 (07_sensor_lanes.md R181 to R183). Quantities in 10⁻³ ppm and cycles. `arrival` is when the line-0 header of
the picture to be measured next came, `ahead` that of the picture after it, which with one lap per picture may come before the measurement. -/
structure PhaseState where
  arrival : Option Int
  ahead : Option (LinkId × Int)
  phi : Int
  measured : Bool
  integral : Int
  pull : Int
  carry : Int
  settled : Nat
  cleanPictures : Nat
  fault : Bool
  linkOf : Option LinkId
  firstStep : Bool
  deriving DecidableEq, Repr

/-! ## Coding, Pacer, verification (03 to 06) -/

/-- Channel states of 03_streams.md Table 3-14. -/
inductive ChanMode where
  | stopped
  | starting
  | running
  | stopping
  | refused
  deriving DecidableEq, Repr

/-- A coding channel (02_lap.md R42, R43; 03_streams.md R82, R85). `costs` keeps, for each level, the largest CTU cost
measured in this lap and in each of the last four, newest first, 0 where none was; `startedAt` is the cycle of the start;
`spoiled` says that a read for the segment being verified was poisoned (11_dram.md R277), `coders` are the CABAC coders used in this lap (R85),
`doneAt` is the cycle of its last completion in this lap (02_lap.md R36). -/
structure Channel where
  mode : ChanMode
  level : Fin 5
  costs : Vector (Vector Nat 5) 5
  slack : Nat
  startedAt : Nat
  verifyOn : Bool
  spoiled : Bool
  coders : Nat
  doneAt : Option Nat
  deriving DecidableEq, Repr

/-- Slice kinds by slice type (05_pacer.md R116). -/
inductive StripeKind where
  | intra
  | inter
  deriving DecidableEq, Repr

/-- Verdicts of 06_decoders.md Table 6-1 with their causes. -/
inductive Verdict where
  | good
  | bad (cause : Nat)
  | unverified (cause : Nat)
  deriving DecidableEq, Repr

/-- A NAL unit of a release (03_streams.md R75, 08_network.md R202): its type, its size without start code, and its bytes where the module's own
fields make them; a slice's data is content, and a filler data NAL unit is its header, bytes FFH and the trailing bits. -/
structure NalUnit where
  ty : Nat
  size : Nat
  data : List Nat
  deriving DecidableEq, Repr

/-- One coded slice (06_decoders.md R135, R145) with its slice QP, its slice segment header (03_streams.md R78) and its NAL unit byte by byte; empty
where nothing has coded it yet. -/
structure Slice where
  addr : Nat
  ctus : Nat
  bytes : Nat
  chan : Chan
  tile : Nat
  segment : Nat
  verdict : Option Verdict
  firstSeq : Nat
  packets : Nat
  withheld : Bool
  qp : Nat
  header : List Bool
  data : List Byte
  deriving DecidableEq, Repr

/-- A boundary between two channels of a gang in a stripe (03_streams.md R69): the first column to its right, the 8 unfiltered columns on either
side that the channels exchange, and those of the left side as the channel on the right returns them filtered. -/
structure Edge where
  left : Chan
  right : Chan
  x : Nat
  fromLeft : List ReconLine
  fromRight : List ReconLine
  returned : List ReconLine
  deriving DecidableEq, Repr

/-- A stripe in flight: coded in one lap, verified in the next, released at `due`, its tokens at `tokenDue` (02_lap.md
Table 2-1, 06_decoders.md R139); ticks are lap counts. `lead` are the non-VCL NAL units before the slices, byte by byte, `tail` the sizes of
those after them, `supersedes` says that tokens of it were released before, `judged` that its verdicts are set, `vouched` that its
tokens are released, `nalType` is the NAL unit type of its slices (03_streams.md Table 3-3), `hash` the CRC of each component where it closes a
picture with a hash, `hashFiller` that a filler NAL unit of the same length stands in its place (R79), `edges` the boundaries between its
channels that have been filtered (R69), `releasedAt` the cycle of its release (09_flows.md R236), `refs` the reference pictures that its slices choose from, 0 for I slices. -/
structure Stripe where
  picture : Nat
  row : Nat
  poc : Nat
  irap : Bool
  timestamp : Nat
  codedAt : Nat
  due : Nat
  tokenDue : Nat
  bits : Nat
  lead : List (List Nat)
  tail : List Nat
  filler : Nat
  slices : List Slice
  last : Bool
  withheld : Bool
  standIn : Bool
  supersedes : Bool
  judged : Bool
  vouched : Bool
  released : Bool
  unit : UnitId
  nalType : Nat
  tmvp : Bool
  sao : Bool
  hash : List (BitVec 16)
  hashFiller : Bool
  edges : List Edge
  releasedAt : Nat
  refs : Nat
  deriving DecidableEq, Repr

/-- A channel's part of the stripe being coded (05_pacer.md R118, R119); `window` says that its reference window was there when its job
fired (02_lap.md R41), `sliceQp` and `prevQp` are the QP of the slice and the QpY of the CTU before (04_prediction.md R104), `heads` the slice QP
and slice segment header of each slice begun (03_streams.md R78), `cus` the CUs of the last CTU (04_prediction.md R96, R98). -/
structure Part where
  ctus : Nat
  done : Nat
  slicesBegun : Nat
  budget : Nat
  spent : Nat
  fixedLeft : Nat
  lastQp : Nat
  codedBits : Nat
  codedCtus : Nat
  qpSum : Nat
  window : Bool
  sliceQp : Nat
  prevQp : Nat
  heads : List (Nat × List Bool)
  cus : List CuTrial
  deriving DecidableEq, Repr

/-- What the NAL units of a picture depend on besides the configuration (03_streams.md R75 to R79): number, POC, IRAP, RTP
timestamp, time of day, picture within the second, whether the picture is coded, whether a PPS precedes it, pictures
since the buffering period, the occupancy e_0 in bits (none: the first IRAP after a start), slice_temporal_mvp_enabled_flag,
whether its slices are I slices, whether its first decoding unit is released, whether its hash is sent, whether a stripe of it
has been withheld (05_pacer.md R125), whether SAO is on (Table 3-10), and how many reference pictures its blocks choose from (R60, 13_relay.md
R324). -/
structure PictureState where
  number : Nat
  poc : Nat
  irap : Bool
  timestamp : Nat
  tod : Nat
  frames : Nat
  live : Bool
  newPps : Bool
  sinceBp : Nat
  e0 : Option Nat
  tmvp : Bool
  intra : Bool
  opened : Bool
  hash : Bool
  starved : Bool
  sao : Bool
  refs : Nat
  deriving DecidableEq, Repr

/-- A line of samples on its way to a coder (03_streams.md R70, R71): its number, Y samples, and on the lines that carry chroma Cb and Cr
samples. -/
structure SampleLine where
  line : Nat
  y : List Nat
  cb : List Nat
  cr : List Nat
  deriving DecidableEq, Repr

/-- The stripe a stream is coding now, with the budget and hardware-cap shares of each channel (05_pacer.md R115, R121,
R122), the boundaries between its channels (03_streams.md R69) and the lines each channel codes (R70, R71). `ek` is in 2⁻⁸ bits. -/
structure Coding where
  pic : PictureState
  row : Nat
  stripe : Nat
  codedAt : Nat
  kind : StripeKind
  qp : Nat
  budget : Nat
  ek : Nat
  withheld : Bool
  budgetHere : Bool
  shares : Vector Nat 4
  reserved : Nat
  lead : List (List Nat)
  tail : List Nat
  parts : Vector (Option Part) 4
  unit : UnitId
  edges : List Edge
  source : Vector (List SampleLine) 4
  deriving DecidableEq, Repr

/-- Complexity of one kind of stripe (05_pacer.md R116): measurements by row × 4 + channel, complexity and samples of the
last picture coded with the kind and of the picture in progress, the baton's average per 1,024 samples (0 none). -/
structure Complexity where
  measured : List (Nat × Nat)
  lastSum : Nat
  lastSamples : Nat
  sum : Nat
  samples : Nat
  baton : Nat
  deriving DecidableEq, Repr

/-- The stream's Pacer (05_pacer.md Tables 5-1, 5-5). Occupancies in 2⁻⁸ bits, the credit in bits; `releasedAt` is the cycle
of the last release, `cold` that no stripe has been budgeted since the start, `handed` that none has been since a
hand-over. -/
structure PacerState where
  rate : Nat
  cpb : Nat
  cpbAu : Nat
  limit : Nat
  e : Nat
  releaseIndex : Nat
  releasedAt : Nat
  lastQp : Nat
  prevBudget : Nat
  prevShare : Vector Nat 4
  credit : Int
  cplxI : Complexity
  cplxP : Complexity
  rebuild : Fin 3
  cold : Bool
  handed : Bool
  deriving DecidableEq, Repr

/-- QP map states of 04_prediction.md Table 4-10. -/
inductive MapMode where
  | none
  | loading
  | commitPending
  | inUse
  deriving DecidableEq, Repr

/-- Front and back QP map of a stream (04_prediction.md R101); `dropBack` says that a late discard empties the back map at the
exchange. -/
structure MapState where
  mode : MapMode
  front : Option (List Byte)
  back : List Byte
  size : Nat
  commitAt : Nat
  dropBack : Bool
  deriving DecidableEq, Repr

/-- Layout modes of 03_streams.md R66. -/
inductive LayoutMode where
  | single
  | slice
  | stripeTile
  deriving DecidableEq, Repr

/-- A row of a reference window: the picture it serves, the reference index, and the stripe or proxy CTB row (04_prediction.md R86, R88); once it has
arrived, its samples in the window's columns, from the first of these inside the picture on. -/
structure WinRow where
  picture : Nat
  ref : Nat
  row : Nat
  lines : List ReconLine := []
  deriving DecidableEq, Repr

/-- A picture that the unit has reconstructed in its DRAM, after in-loop filtering: each line over all columns (03_streams.md R65, 04_prediction.md
R99). -/
structure RefPicture where
  number : Nat
  lines : List ReconLine
  deriving DecidableEq, Repr

/-- Search state of a stream (04_prediction.md R87 to R94). For each channel `asked` are the rows fetched in this lap, `owed` those of earlier laps
not yet there, `ring` the window's rows; `wanted` are all rows of this lap, which the verifying decoder fetches one lap later; `verAsked` and `verRing` are its own
(R91). `due` and `late` say for each channel whether the row fetch of this
lap, or of an earlier one, is outstanding, `spoiled` that its read was poisoned (11_dram.md R277); `blocks` are the inter-coded blocks of the picture being coded, `finished` those of
picture `finishedPicture`; `pending` are estimates with the picture from which they are used; `refs` are the reconstructed pictures, the newest
first. -/
structure SearchState where
  reachH : Nat
  reachV : Nat
  hasWindow : Bool
  due : Vector Bool 4
  late : Vector Bool 4
  spoiled : Vector Bool 4
  asked : Vector (List WinRow) 4
  owed : Vector (List WinRow) 4
  ring : Vector (List WinRow) 4
  wanted : Vector (List WinRow) 4
  verAsked : Vector (List WinRow) 4
  verRing : Vector (List WinRow) 4
  blocks : List InterBlock
  finished : List InterBlock
  finishedPicture : Nat
  pending : List (Nat × Option Mv × Option Mv)
  globalA : Option Mv
  globalB : Option Mv
  history : Bool
  refs : List RefPicture
  deriving DecidableEq, Repr

/-- One stream (03_streams.md R60, R61, R68, R78; 06_decoders.md R145; 09_flows.md R220). `sinceIrap` counts the pictures since
the last IRAP picture, `ppsPending` says that an RWP change altered the PPS, `recent` keeps the released and vouched stripes whose
packets may not have left yet, `supersede` the slices whose superseding tokens the next tick releases (R137), `hashNow` the CRCs of the picture being
coded, `voidHash` the pictures of which a slice was replaced (R79), `scaled` the scaled copy of a proxy's stripes in progress (R71). -/
structure Stream where
  active : Bool
  mode : LayoutMode
  level : Nat
  profile : Nat
  q : Nat
  pic : PictureState
  sinceIrap : Nat
  firstPicture : Bool
  forceIrap : Bool
  ppsPending : Bool
  coding : Option Coding
  flight : List Stripe
  recent : List Stripe
  supersede : List (Stripe × Nat)
  pacer : PacerState
  map : MapState
  search : SearchState
  tokenSeq : Nat
  tokenStore : List (Nat × List (BitVec 256))
  hashNow : Vector (BitVec 16) 3
  voidHash : List Nat
  scaled : List SampleLine
  ownFrom : Option Nat
  shownFrom : Nat
  shown : Option (UnitId × RefPicture)
  deriving DecidableEq, Repr

/-- Tracking state of one ROI rectangle (04_prediction.md R105). -/
structure Rect where
  pos : Mv
  displacement : Mv
  moves : List (Nat × Mv)
  deriving DecidableEq, Repr

/-! ## Ports, bridge, flows (08_network.md, 09_flows.md) -/

/-- What an egress packet is made of. -/
inductive PacketKind where
  | media (n : StreamId) (stripe : Nat)
  | filler (n : StreamId) (stripe : Nat)
  | tokens (count : Nat)
  | readout (r : Nat)
  | arp
  | icmp
  | igmp
  | delayReq
  | reply (k : Client)
  | moduleSent
  | bridged (src : Nat) (ptp : Bool) (correction : Int) (arrived : Int) (port : PortId)
  deriving DecidableEq, Repr

/-- The RTP payload of a packet the module originates: one NAL unit, an aggregation packet, a fragmentation unit with the bytes from `offset` on
(08_network.md R202), integrity tokens (06_decoders.md R144), a line's samples as pgroups (08_network.md Table 8-5), the payload of a dictionary datagram
(17_dictionary.md R410), the groups of a membership report (08_network.md R193); none in the other frames. -/
inductive Payload where
  | none
  | single (u : NalUnit)
  | aggregate (l : List NalUnit)
  | fragment (u : NalUnit) (offset bytes : Nat)
  | tokens (l : List (BitVec 256))
  | line (row offset : Nat) (data : List Byte)
  | datagram (l : List Byte)
  | report (groups : List Nat)
  deriving DecidableEq, Repr

/-- Where a datagram of the endpoint goes (08_network.md R193, R196): MAC address, none where nothing has resolved it yet, EtherType, IPv4 address,
protocol, UDP ports. -/
structure PacketDest where
  mac : Option Nat
  etherType : Nat
  ip : Nat
  protocol : Nat
  srcPort : Nat
  dstPort : Nat
  deriving DecidableEq, Repr

/-- A packet in a flow queue or a path queue: frame bytes with FCS, the bytes its shaper is charged, RTP sequence
number, timestamp and marker (08_network.md Table 8-4, 09_flows.md Table 9-3). `counted` says that its other copy has been
counted as sent, `high` are the upper 16 bits of its packet count (Table 8-5), `dest` is where an endpoint's datagram goes. -/
structure Packet where
  kind : PacketKind
  frame : Nat
  charge : Nat
  seq : Nat
  timestamp : Nat
  marker : Bool
  srcMac : Nat
  entered : Nat
  counted : Bool := false
  high : Nat := 0
  payload : Payload := .none
  dest : Option PacketDest := .none
  deriving DecidableEq, Repr

/-- A path of a flow on one port: its path queue of 4 packets, its tags and its credit (09_flows.md R224, R229, R230). -/
structure PathState where
  queue : List Packet
  startTag : BitVec 48
  finishTag : BitVec 48
  idle : Bool
  credit : Nat
  deriving DecidableEq, Repr

/-- One flow (09_flows.md R218 to R226; 08_network.md R203). `tokens` is the 48-bit shaper count; `lapsed` says that a channel
start has ended the carrying, which the next tick completes. -/
structure Flow where
  queue : List Packet
  reserved : Nat
  tokens : Nat
  enabled : Bool
  draining : Bool
  refusing : Bool
  carries : Option StreamId
  packets : Nat
  started : Bool
  primary : PathState
  secondary : PathState
  highDepth : Nat
  highDelay : Nat
  lapsed : Bool
  deriving DecidableEq, Repr

/-- An address-resolution entry (08_network.md R195): port, address, MAC once resolved, time of the last request. -/
structure ArpEntry where
  port : PortId
  ip : Nat
  mac : Option Nat
  askedAt : Nat
  deriving DecidableEq, Repr

/-- A learned bridge entry (08_network.md R198). -/
structure Learned where
  mac : Nat
  port : PortId
  seenAt : Nat
  deriving DecidableEq, Repr

/-- A received frame that waits for its bridged flows (08_network.md R199). -/
structure Waiting where
  packet : Packet
  ports : List PortId
  deriving DecidableEq, Repr

/-- The PCS of a port in one unit (01_module.md R13): its receive lanes are locked and aligned, its egress blocks are aligned to
the common block counter. -/
structure PortPcs where
  locked : Bool
  aligned : Bool
  deriving DecidableEq, Repr

/-- What a port's MAC sends of a frame (08_network.md R196, R210): the bytes of its Ethernet, IPv4, UDP, RTP and payload headers, empty for a bridged
frame, its payload, its bytes with FCS, whether the FCS is the inverse of the truncated frame's CRC, whether the UDP checksum of a forwarded event
message is written as 0 (R200), and the FCS, none where the model does not hold the content. -/
structure WireFrame where
  header : List Byte
  payload : Payload
  bytes : Nat
  inverted : Bool
  sumCleared : Bool
  fcs : Option (BitVec 32)
  deriving DecidableEq, Repr

/-- One port (08_network.md R189, R199, R210). `up`, `fecLocked` and `lanes` say what arrives at its pins, which the fan-outs pass to both
units (01_module.md R16); `pcs` is each unit's own. `bucket` is the emission-ceiling bucket in 2⁻²⁴ bytes, `wire` the last frame sent, `refused` the
datagrams of the endpoint that its flow refused (09_flows.md Table 9-2). -/
structure Port where
  up : Bool
  fecLocked : Bool
  lanes : BitVec 20
  pcs : Pair PortPcs
  txIdle : Bool
  selected : Option UnitId
  bucket : Nat
  busyUntil : Nat
  ceilHeld : Bool
  receive : List Waiting
  lastTx : Option Packet
  wire : Option WireFrame
  refused : List Packet
  vt : Vector (BitVec 48) 4
  roundPos : Vector Nat 4
  creditMode : Bool
  flows : Nat
  deriving DecidableEq, Repr

/-- One meter bucket pair in 2⁻²⁴ bytes (09_flows.md R234). -/
structure Meter where
  bucketC : Nat
  bucketE : Nat
  deriving DecidableEq, Repr

/-- What a unit has counted for a port, flow or scheduler counter since the last tick, for one half of it where it has two (08_network.md R201;
09_flows.md R231). -/
structure UnitCount where
  key : Nat
  half : Option Bool
  n : Nat
  deriving DecidableEq, Repr

/-- Watch or service, and the cause of the watch (09_flows.md R236, Table 9-8). -/
structure WatchState where
  watch : Bool
  cause : Fin 4
  firstPicture : Bool
  openedAt : Option Nat
  recovery : Bool
  deriving DecidableEq, Repr

/-! ## The return decoder and the monitor output (06_decoders.md) -/

/-- A picture of the return decoder (06_decoders.md R147, R149, R152); `missing` are the ranges of CTUs, in coding order, that no decoded slice
covers, `presentAt` is in TB0 ns, `shown` says that it was output. -/
structure RetPicture where
  poc : Int
  sequence : Nat
  timestamp : Nat
  irap : Bool
  form : ReturnFormat
  tiles : TileGrid
  missing : List (Nat × Nat)
  slices : Nat
  concealed : Bool
  derived : Bool
  motion : Bool
  openedAt : Nat
  presentAt : Nat
  shown : Bool
  waiting : Bool
  reference : Bool
  passed : Nat
  deriving DecidableEq, Repr

/-- Bytes received on one path since a time (06_decoders.md Table 6-6, input bit rate). -/
structure PathRate where
  since : Nat
  bytes : Nat
  deriving DecidableEq, Repr

/-- The return decoder (06_decoders.md R150 to R153): `decoded` is the decoded picture buffer, `bumped` the pictures it has output, in output order,
whose presentation time has not come, `output` the last one whose time has; `outputs` counts those. `setting` holds the values of 0x4800:02 to 09
latched at the enable, `sets` are the parameter sets received, `reorder` the packets held with the cycle of their arrival, `gapAt` is that of the
earliest of them while there are any, `begun` says whether a coded video sequence is in progress, `raslOff` that its RASL pictures are not output (H.265 Annex C),
`closedTs` the RTP timestamp of the last picture closed, `fuLost` that a fragmentation unit with a lost part has been counted. -/
structure RetState where
  enabled : Bool
  setting : Vector Nat 8
  waitIrap : Bool
  secondPath : Bool
  nextSeq : Option Nat
  reorder : List (Nat × RtpPacket)
  gapAt : Option Nat
  fuOpen : Bool
  fuLost : Bool
  sets : List ParamSet
  begun : Bool
  sequence : Nat
  raslOff : Bool
  closedTs : Option Nat
  rates : Vector PathRate 2
  current : Option RetPicture
  decoded : List RetPicture
  bumped : List RetPicture
  output : Option RetPicture
  outputs : Nat
  lastClass : Nat
  deriving DecidableEq, Repr

/-- What the monitor lanes last sent (06_decoders.md R154 to R157). -/
inductive MonPicture where
  | off
  | pattern (width height : Nat)
  | feed (poc : Int) (concealed derived : Bool)
  | stream (n : StreamId) (picture : Nat)
  | grey
  deriving DecidableEq, Repr

/-- What the samples of a monitor frame are: full-scale bars, the decoded picture that was output as the given one, with its format, tiles and
missing CTUs, or the lines that a stream's gang has reconstructed (06_decoders.md R154); `none` where every line is grey. -/
inductive MonSamples where
  | none
  | bars
  | decoded (number : Nat) (form : ReturnFormat) (tiles : TileGrid) (missing : List (Nat × Nat))
  | rebuilt (lines : List ReconLine)
  deriving DecidableEq, Repr

/-- A picture on its way over the monitor lanes: the descriptor's fields, the FLAGS of its lines, the ALIVE of line 0, the lanes, when its line 0
leaves and the period its lines are spread over in 1/256 cycle, the lines sent grey and flagged CONCEALED as half-open ranges, and its samples
(06_decoders.md R155, R157; 07_sensor_lanes.md R185). -/
structure MonFrame where
  width : Nat
  height : Nat
  chroma : Nat
  depth : Nat
  flags : Nat
  alive : Nat
  lanes : Nat
  start : Nat
  period : Nat
  grey : List (Nat × Nat)
  samples : MonSamples
  deriving DecidableEq, Repr

/-- The monitor output: the last picture, its number within the source and stream it came from, the unit the selectors take, whether the new unit
still has no picture of the source, the frame in progress and the next ALIVE; `sent` is how many blocks each lane has sent when the scramblers were
last brought up, `scrambler` their states, the last 58 scrambled bits of each lane (07_sensor_lanes.md R163, R185). -/
structure MonState where
  last : MonPicture
  lastId : Option Int
  lastSource : Nat × Nat
  selected : Option UnitId
  grey : Bool
  frame : Option MonFrame
  alive : Nat
  sent : Nat
  scrambler : Vector (BitVec 58) 8
  deriving DecidableEq, Repr

/-! ## Time (10_time.md) -/

/-- Servo states of 10_time.md Table 10-4. -/
inductive Servo where
  | freeRun
  | acquiring
  | locked
  | holdover
  deriving DecidableEq, Repr

/-- A master heard on a port (10_time.md R250). -/
structure Master where
  announce : PtpAnnounce
  heardAt : Nat
  deriving DecidableEq, Repr

/-- The PTP port state machine of a port: the masters that it hears, and for how many Announce intervals in a row its best one has ranked strictly
better than the selected port's (10_time.md R250). -/
structure PtpPort where
  heard : List Master
  better : Nat
  deriving DecidableEq, Repr

/-- A two-step Sync that waits for its Follow_Up: its compensated receive time in each unit, and the unit whose one counts, the active one
(10_time.md R255, R256). -/
structure WaitingSync where
  port : PortId
  sync : PtpSync
  stamps : Pair Int
  unit : UnitId
  deriving DecidableEq, Repr

/-- A Delay_Req sent: t3 is known once the frame has left (10_time.md R252, R255). -/
structure DelayRequest where
  port : PortId
  seqId : Nat
  stampError : Int
  t3 : Option Int
  deriving DecidableEq, Repr

/-- Time bases, servo, genlock (10_time.md). TB3 counts from `tb3Start`; TB0 is in 2⁻³² ns; offsets and delays in
2⁻¹⁶ ns. TB1's start and period are in 1/256 core cycles, `tb1Rest` is the part of R246's change limit that has not reached one; `genCounted` says that
the edge predicted last was counted as missing; `second` is TB0's second at which PPS_OUT last rose. -/
structure TimeState where
  tb3Start : Nat
  tb0 : Nat
  adj : Int
  servo : Servo
  integral : Int
  recentAdj : List Int
  delays : List Int
  meanDelay : Int
  offset : Int
  bigSamples : Nat
  smallSamples : Nat
  stepSamples : Nat
  samples : Nat
  sync : Option WaitingSync
  request : Option DelayRequest
  seqId : Nat
  exchangeReady : Option (Int × Int × Int)
  requestAt : Option Nat
  respLog : Option Int
  metadata : Option Int
  masters : Vector PtpPort 4
  selected : Option PortId
  grandmaster : Nat
  traceable : Bool
  utcOffset : Int
  holdoverAt : Nat
  lastSample : Nat
  genEdges : Nat
  genMisses : Nat
  genLocked : Bool
  genExpected : Option Nat
  genCounted : Bool
  tb1Start : Nat
  tb1Period : Nat
  tb1Rest : Nat
  tb1Index : Nat
  groupStart : Nat
  second : Nat
  tb1Limited : Bool
  stepPending : Bool
  deriving DecidableEq, Repr

/-! ## DRAM, translation, DMA, capture (11_dram.md, 12_translation_dma.md) -/

/-- Self-refresh states of 11_dram.md 0x2800:11. -/
inductive SelfRefresh where
  | active
  | entering
  | inside
  | exiting
  deriving DecidableEq, Repr

/-- One entry of a bank's row-hammer table (11_dram.md R272). -/
structure Hammer where
  row : Nat
  count : Nat
  deriving DecidableEq, Repr

/-- One x16 DRAM channel: refresh debt, pairs refreshed this round, open rows and row-hammer tables of its 16 banks,
training and re-centre state (11_dram.md R268 to R273, R282); the rate its device's MR4 requests, the multiplier of the interval in progress, when that
interval began in 1/32 cycle and when a bank was last refreshed (R269, R271); the ECC blocks in its cache, the latest first, as bank, row and ECC
block (R266). -/
structure DramChannel where
  debt : Int
  refreshed : BitVec 8
  openRow : Vector (Option Nat) 16
  hammer : Vector (List Hammer) 16
  trained : Bool
  recentre : Nat
  rate : Nat
  multiplier : Nat
  intervalAt : Nat
  refreshedAt : Nat
  eccCache : List (Nat × Nat × Nat)
  deriving DecidableEq, Repr

/-- A request held until the DRAM has left self-refresh (11_dram.md R280): its channel, and when it arrived. -/
structure HeldRequest where
  chan : DramChan
  request : DramRequest
  arrived : Nat
  deriving DecidableEq, Repr

/-- The DRAM of one unit (11_dram.md): written bytes in canonical form, and the ranges (first, end, tag) whose contents
the manual leaves undefined (R281, 13_relay.md R311); `held` are the requests that wait for the exit from self-refresh (R280), `polledAt` and `driftAt`
the last poll of MR4 and the last drift measurement (R269, R282), `hammerWindow` the TB3 window for which the tables stand (R272), `dmaLast` the DMA
channel whose burst was served last (12_translation_dma.md R291). -/
structure DramState where
  mem : List Host.Cell
  undef : List (Nat × Nat × Nat)
  chan : Vector DramChannel 32
  refresh : SelfRefresh
  refreshAt : Nat
  committedAt : Nat
  lastRequest : Nat
  maskZero : Bool
  held : List HeldRequest
  polledAt : Nat
  overRange : Bool
  tempChanged : Bool
  scrubStart : Nat
  scrubbing : Bool
  scrubRaised : Bool
  stall : Vector Nat 4
  latchedAt : Nat
  driftAt : Nat
  recentredAt : Nat
  hammerWindow : Nat
  threshold : Nat
  scrubRate : Nat
  dmaLast : Nat
  deriving DecidableEq, Repr

/-- One ATU context (12_translation_dma.md R284 to R286). -/
structure AtuContext where
  enabled : Bool
  first : Nat
  entries : List AtuEntry
  deriving DecidableEq, Repr

/-- DMA channel states of Table 12-5. -/
inductive DmaMode where
  | idle
  | running
  | stalled
  | stopped
  | done
  deriving DecidableEq, Repr

/-- A DMA channel (12_translation_dma.md R288 to R297); `ctx` is the context its descriptors stand in, `packetData` are the elements of the packet
being filled, byte by byte (R292). -/
structure Dma where
  mode : DmaMode
  desc : Option Descriptor
  descAddr : Nat
  pos : Vector Nat 3
  bytePos : Nat
  bytesWritten : Nat
  faultAddr : Nat
  faultCtx : Nat
  faultSide : Nat
  cause : Nat
  doneCount : Nat
  owner : Option Nat
  packetElems : Nat
  packetData : List Byte
  stalledAt : Option (Vector Nat 3)
  awaitLanded : Bool
  status : BitVec 256
  ctx : Fin 64
  deriving DecidableEq, Repr

/-- Capture states of 12_translation_dma.md Table 12-6. -/
inductive CaptureMode where
  | idle
  | armed
  | collecting
  | held
  | reading
  | lost
  deriving DecidableEq, Repr

/-- A picture in the ring (12_translation_dma.md R298, Table 12-5). -/
structure RingSlot where
  picture : Nat
  slot : Nat
  tb0 : Nat
  timestamp : Nat
  replaced : Nat
  complete : Bool
  deriving DecidableEq, Repr

/-- A readout (12_translation_dma.md R303, R304): whether it runs, the flow that it was started with, and the pictures still to be sent. -/
structure Readout where
  running : Bool
  todo : List Nat
  flow : FlowId := 0
  deriving DecidableEq, Repr

/-- Trigger capture (12_translation_dma.md R300 to R303): `partialHeld` says that a hand-over cut the collection, `awaiting`
that the next stored picture is the trigger picture, `timePending` that TB0 has not reached 0x2900:05 yet. -/
structure CaptureState where
  mode : CaptureMode
  p : Nat
  q : Nat
  due : Nat
  trigPicture : Nat
  trigTb0 : Nat
  partialHeld : Bool
  awaiting : Bool
  timePending : Bool
  slots : List RingSlot
  writing : Option RingSlot
  nextSlot : Nat
  capacity : Nat
  slotBytes : Nat
  stride : Nat
  readouts : Vector Readout 4
  deriving DecidableEq, Repr

/-! ## Relay, baton, self-test (13_relay.md) -/

/-- Relay states of 13_relay.md Table 13-1; `standbyReady` is PROTECTED. -/
inductive RelayMode where
  | starting
  | standbyReady
  | exposed
  | repairing
  | revertPending
  | draining
  | warming
  | lockedOut
  | failed
  deriving DecidableEq, Repr

/-- Why a hand-over is made: 0x2010:0B [31] and [29:24] (13_relay.md Table 13-9). -/
structure HandOver where
  planned : Bool
  source : Nat
  deriving DecidableEq, Repr

/-- Where the unit in repair stands (13_relay.md R330). -/
inductive RepairPhase where
  | none
  | inReset (since : Nat)
  | booting
  | testing
  | waiting (since : Nat)
  deriving DecidableEq, Repr

/-- The relay arbiter (13_relay.md R308, R319, R325 to R331). `fault` is a reported unit fault not yet answered by a
hand-over, `handoverAt` the cycle of the last hand-over tick, `latched` the decision taken at T-64 with the standby's readiness, `warmAt` the tick count at which the incoming unit begins to
code, `dead` a unit that failed three repairs or lost its rails. -/
structure RelayState where
  mode : RelayMode
  active : Option UnitId
  fault : Option Nat
  latched : Option HandOver
  refusedNow : Bool
  forced : Bool
  planned : Bool
  drainPictures : Nat
  switchTick : Option Nat
  warmAt : Option Nat
  holdOffAt : Option Nat
  repair : RepairPhase
  repairUnit : UnitId
  repairDone : Bool
  bootedAt : Nat
  dead : Bool
  handoverAt : Nat
  deriving DecidableEq, Repr

/-- A stream's entry of the baton (13_relay.md Table 13-5). -/
structure BatonStream where
  e : Nat
  releaseIndex : Nat
  held : List Nat
  cplxI : Nat
  cplxP : Nat
  credit : Int
  lastQp : Nat
  rebuild : Nat
  flags : Nat
  picsSinceBp : Nat
  poc : Nat
  picsSinceIrap : Nat
  picturesCoded : Nat
  tokenSeq : Nat
  prevBudget : Nat
  deriving DecidableEq, Repr

/-- The baton (13_relay.md Tables 13-3 to 13-5). -/
structure Baton where
  alive : Nat
  unit : UnitId
  lapCount : Nat
  stateCycle : Nat
  generation : Nat
  lapInPicture : Nat
  streamsOn : Nat
  counters : List (Nat × Nat × Nat)
  capture : Nat × Nat × Nat × Nat × Nat × Nat × Nat
  streams : List BatonStream
  flows : List (Nat × Nat)
  deriving DecidableEq, Repr

/-- The baton SRAM of one unit (13_relay.md R315, R316): two slots, which holds the last complete baton, the expected
ALIVE, faults in a row, and the mirror of the last 128 complete batons in segment 0 (11_dram.md Table 11-5). -/
structure BatonState where
  slots : Vector (Option Baton) 2
  last : Option (Fin 2)
  lastTick : Nat
  expected : Option Nat
  written : Bool
  misses : Nat
  mirror : List Baton
  mirrorAt : Nat
  report : Option (List (Nat × Nat))
  deriving DecidableEq, Repr

/-- The self-test of one unit (13_relay.md R310, R311): a failed step since the last complete pass, whether a pass is complete and found no fault, when;
the steps not finished at their hurdle check (02_lap.md Table 2-4); the step in progress; when the cycle began, the blocks that it has covered, those to
be repeated in the next; and by when a block whose step a hand-over stopped is back in its reset state. -/
structure SelfTestState where
  stepFailed : Bool
  passGood : Bool
  lastPass : Nat
  late : Nat
  step : Option SelfTestBlock
  cycleAt : Nat
  covered : List SelfTestBlock
  again : List SelfTestBlock
  resetBy : Nat
  deriving DecidableEq, Repr

/-- Stand-ins of one unit built for the next tick, one a stream with a stripe due then, and whether one of them has not passed its check (13_relay.md
R313). -/
structure StandIns where
  tick : Nat
  built : List (StreamId × Stripe)
  failed : Bool
  deriving DecidableEq, Repr

/-- Boot of a unit (15_reset.md R372, R373; 13_relay.md R330, 16_power_ageing.md R381). -/
inductive BootMode where
  | inReset
  | booting
  | imageChecked
  | booted
  | bootFault
  | railsOff
  deriving DecidableEq, Repr

/-- A unit's boot and the faults it has reported; `tasks` are those of the image its boot ROM loaded (02_lap.md R45). -/
structure UnitBoot where
  mode : BootMode
  bootedAt : Nat
  clockFault : Bool
  railFault : Bool
  tasks : List TaskDecl
  deriving DecidableEq, Repr

/-! ## Integrity (14_integrity.md) -/

/-- A monitor slot record (14_integrity.md R350). -/
structure Slot where
  min : Nat
  max : Nat
  count : Nat
  bins : Vector Nat 64
  underSeen : Bool
  overSeen : Bool
  binOverflow : Bool
  absent : Bool
  deriving DecidableEq, Repr

/-- A check-value unit (14_integrity.md R344): the expected alive value, none before the first record. -/
structure CvUnit where
  alive : Option Nat
  deriving DecidableEq, Repr

/-- An EMCY on its way to the routes (17_dictionary.md R409, R423). -/
structure Emcy where
  code : Nat
  source : Nat
  level : Nat
  unit : Nat
  detail : Nat
  deriving DecidableEq, Repr

/-- The EMCY queue, the error list 0x1003 and the instants of the last EMCY of each code (17_dictionary.md R409, R422;
14_integrity.md R354). `untilTick` holds the codes whose register bit is held until the next tick, `lastSent` the bytes of the last EMCY sent
(R423). -/
structure EmcyState where
  queue : List Emcy
  errors : List Nat
  lastAt : Store
  noteAt : Store
  sentAt : Option Nat
  untilTick : List Nat
  lastRegister : Nat
  lastSent : List Byte
  deriving DecidableEq, Repr

/-- An event log record (14_integrity.md Table 14-9). -/
structure LogRecord where
  tb0 : Nat
  tb3 : Nat
  code : Nat
  source : Nat
  level : Nat
  unit : Nat
  stampFw : Bool
  rep : Nat
  detail : Nat
  deriving DecidableEq, Repr

/-- The event log (14_integrity.md R353, 16_power_ageing.md R390): records newest first, how many are unsaved, the
records saved in the flash in this session, and the previous session. -/
structure LogState where
  records : List LogRecord
  unsaved : Nat
  savedAt : Nat
  previous : List LogRecord
  deriving DecidableEq, Repr

/-! ## Reset, flash, controller (15_reset.md) -/

/-- The reset controller (15_reset.md R357 to R366). `asserted` holds bit c for code c; `step` is the release step in
progress (0 none, 1 to 6), `waiting` a reset that waits for the flash. -/
structure ResetState where
  asserted : BitVec 8
  assertedAt : Vector Nat 8
  causes : BitVec 8
  step : Fin 7
  stepAt : Nat
  releasing : Bool
  releasedAt : Nat
  blocks : BitVec 32
  blocksAt : Nat
  pendingClock : BitVec 32
  bypass : Bool
  clockRuns : Nat
  heldForever : Bool
  limitChecked : Bool
  waiting : Option Nat
  deriving DecidableEq, Repr

/-- The fields of the limit record (14_integrity.md Table 14-3). -/
structure LimitRecord where
  crcOk : Bool
  macs : Vector Nat 4
  ceilRate : Vector Nat 4
  ceilDepth : Vector Nat 4
  frameLimit : Vector Nat 4
  current : Nat
  deriving DecidableEq, Repr

/-- A boot region of the flash (15_reset.md R371, R372): the package header last read or staged; `blank` says that its header
has been erased since (17_dictionary.md R418). -/
structure Region where
  header : Option PackageHeader
  reErased : Bool
  blank : Bool
  deriving DecidableEq, Repr

/-- The power-fail record (16_power_ageing.md Table 16-8). -/
structure PfRecord where
  seconds : Nat
  vin : Nat
  hold : Nat
  cause : Nat
  flushed : Bool
  skipped : Bool
  returned : Bool
  flushTime : Nat
  logRecords : Nat
  deriving DecidableEq, Repr

/-- A stored word of the flash with the outcome of its CRC-32C (01_module.md R24): a lane's equalisation, a DRAM channel's training. -/
structure StoredWord where
  value : Nat
  crcOk : Bool
  deriving DecidableEq, Repr

/-- What a program pulse is writing (15_reset.md R367, R369). -/
inductive FlashWrite where
  | none
  | history
  | log
  | saved
  deriving DecidableEq, Repr

/-- A record of the ageing history (16_power_ageing.md R398), with the outcome of its CRC-32C. -/
structure AgeRecord where
  hours : Nat
  die : DieId
  degradation : Nat
  canarySteps : Nat
  offset : Nat
  forecast : Nat
  crcOk : Bool
  deriving DecidableEq, Repr

/-- The serial NOR flash (01_module.md R24; 15_reset.md R367 to R371; 16_power_ageing.md R390, R398;
17_dictionary.md R421). Erased power-fail areas are `true`; `newest` says which area or copy is newest. `limitOpen` says that maintenance has been unlocked
since the limit record was last checked, `calibrationOk` that the CRC-32C of
the factory calibration holds, `equal`, `netEqual` and `training` are the last-good equalisation values of the sensor lanes and of the network
receive lanes and the last-good training values of the DRAM channels, by unit (01_module.md R24, 07_sensor_lanes.md R162, 11_dram.md R282). -/
structure FlashState where
  regions : Vector Region 2
  limit : LimitRecord
  saved : Vector (Option SavedImage) 2
  savedNewest : Fin 2
  savedVoid : Bool
  saving : Option (Client × Nat × SavedImage)
  pulse : Bool
  erasing : Option Nat
  suspended : Bool
  intents : List Nat
  areaErased : Vector Bool 2
  areaNewest : Fin 2
  areaEraseAt : Option Nat
  flushLog : List LogRecord
  flushBaton : Option Baton
  pfRecord : Option PfRecord
  logSaved : List LogRecord
  history : List AgeRecord
  writing : FlashWrite
  limitOpen : Bool
  calibrationOk : Bool
  equal : Pair (Vector (Option StoredWord) 64)
  netEqual : Pair (Vector (Option StoredWord) 16)
  training : Pair (Vector (Option StoredWord) 32)
  deriving DecidableEq, Repr

/-- The module controller (01_module.md R19, 15_reset.md R372). -/
inductive CtrlMode where
  | inReset
  | booting
  | imageOk
  | running
  | restarting
  | recovery
  deriving DecidableEq, Repr

structure CtrlState where
  mode : CtrlMode
  restartAt : Nat
  lockUnit : Bool
  deriving DecidableEq, Repr

/-! ## Power and ageing (16_power_ageing.md) -/

/-- The power stage (16_power_ageing.md R378 to R392). `warn` is the cause of a warning in force. -/
structure StageState where
  running : Bool
  warn : Option (Fin 8)
  warnAt : Nat
  stopped : Bool
  stoppedAt : Nat
  criticalStop : Bool
  hvToggled : Bool
  phases : BitVec 7
  shortAt : Option Nat
  railsRemoved : Option UnitId
  clampAt : Option Nat
  alive : Option (BitVec 8)
  badFrames : Nat
  lost : Bool
  flush : Bool
  record : Option PfRecord
  deriving DecidableEq, Repr

/-- Crossed limits of the 38 sensors, and the millisecond of the last monitor sample (16_power_ageing.md R393,
14_integrity.md Table 14-8). -/
structure SensorState where
  warn : BitVec 38
  fault : BitVec 38
  critical : BitVec 38
  sampledMs : Nat
  deriving DecidableEq, Repr

/-- One die of the planner (16_power_ageing.md R398 to R401). -/
structure DieState where
  inUse : Nat
  target : Nat
  stepAt : Option Nat
  noticed365 : Bool
  noticed180 : Bool
  noticeAt : Option Nat
  worn : Bool
  dutyEnded : Bool
  floor : Nat
  lowRuns : Nat
  steps : Nat
  skipped : Bool
  deriving DecidableEq, Repr

/-- The margin planner (16_power_ageing.md R397). -/
structure PlannerState where
  hours : Nat
  lastEnd : Option Nat
  dies : Vector DieState 3
  deriving DecidableEq, Repr

/-! ## The dictionary's routes (17_dictionary.md) -/

/-- NMT states of 0x2002:04. -/
inductive NmtMode where
  | initialisation
  | stopped
  | operational
  | preOperational
  deriving DecidableEq, Repr

/-- The CAN FD node (17_dictionary.md R407 to R409, R424); `delayComp` says that transmitter delay compensation is enabled (18_electrical.md R433). -/
structure CanState where
  nmt : NmtMode
  nodeId : Nat
  nominal : Nat
  data : Nat
  syncId : Nat
  emcyId : Nat
  busOff : Bool
  heartbeatAt : Nat
  bootUps : Nat
  cobWritten : Bool
  delayComp : Bool
  deriving DecidableEq, Repr

/-- Abort codes of 17_dictionary.md Table 17-1. -/
inductive Abort where
  | protocolTimeout
  | unsupportedAccess
  | writeOnly
  | readOnly
  | noObject
  | lengthMismatch
  | tooLong
  | noSub
  | outOfRange
  | general
  | cannotStore
  | localControl
  | presentState
  deriving DecidableEq, Repr

/-- The code of an abort (17_dictionary.md Table 17-1). -/
def Abort.code : Abort → Nat
  | .protocolTimeout => 0x05040000
  | .unsupportedAccess => 0x06010000
  | .writeOnly => 0x06010001
  | .readOnly => 0x06010002
  | .noObject => 0x06020000
  | .lengthMismatch => 0x06070010
  | .tooLong => 0x06070012
  | .noSub => 0x06090011
  | .outOfRange => 0x06090030
  | .general => 0x08000000
  | .cannotStore => 0x08000020
  | .localControl => 0x08000021
  | .presentState => 0x08000022

/-- What a client is answered (17_dictionary.md R403): the value read, an acknowledgement, an abort. -/
inductive Answer where
  | value (data : List Byte)
  | ack
  | abort (a : Abort)
  deriving DecidableEq, Repr

/-- A transfer in progress (17_dictionary.md R413). -/
structure Transfer where
  index : Nat
  sub : Nat
  data : List Byte
  lastAt : Nat
  deriving DecidableEq, Repr

/-- A client slot (17_dictionary.md R411 to R413): source address and UDP port of a datagram client, the port and time of its last
request, its last reply, whether a request is in service and the datagram that made it, the transfer, the read snapshot. -/
structure ClientSlot where
  source : Option (Nat × Nat)
  port : PortId
  host : Bool
  lastAt : Nat
  stamp : Nat
  lastReply : Option Datagram
  answer : Option Answer
  busy : Bool
  request : Option Datagram
  transfer : Option Transfer
  snapshot : Option (Nat × List Byte)
  deriving DecidableEq, Repr

/-- States of a bulk window, 0x5F01:07 [31:28] (17_dictionary.md Table 17-8). -/
inductive WinMode where
  | closed
  | openWrite
  | openRead
  | committing
  | committed
  | failed
  deriving DecidableEq, Repr

/-- A bulk window (17_dictionary.md R415 to R417). -/
structure Window where
  mode : WinMode
  reason : Nat
  owner : Option Client
  target : Nat
  length : Nat
  pos : Nat
  content : List Byte
  lastAt : Nat
  check : Bool
  deriving DecidableEq, Repr

/-- Update states, 0x5F00:04 (17_dictionary.md Table 17-8). -/
inductive UpdateMode where
  | idle
  | erasing
  | ready
  | verifying
  | staged
  | failed
  deriving DecidableEq, Repr

/-- Firmware loading (17_dictionary.md R418): `room` is the free room of the 64 KiB program buffer, `held` the data
write that waits for it. -/
structure FirmwareState where
  mode : UpdateMode
  reason : Nat
  region : Fin 2
  window : Option WinId
  eraseAt : Nat
  room : Nat
  roomAt : Nat
  held : Option (Client × WinId × List Byte)
  badWord : Bool
  deriving DecidableEq, Repr

/-- Maintenance unlock (17_dictionary.md R419, R420). -/
structure MaintState where
  owner : Option Client
  lastWrite : Nat
  challenges : Vector (Option (BitVec 64)) 9
  failures : Nat
  blockUntil : Option Nat
  deriving DecidableEq, Repr

/-- Pins the State holds: SYNC_OUT0 to 3 and PPS_OUT levels and the instants they fall (10_time.md R261), the IOVSEL level
sampled at the release of power-on reset (18_electrical.md R428), the instants of the last accepted TRIG edges (R300). -/
structure PinState where
  syncOut : Vector Bool 4
  syncWord : Vector Nat 4
  syncFall : Vector Nat 4
  pps : Bool
  ppsFall : Nat
  iovHigh : Bool
  trigStamp : Vector Nat 4
  deriving DecidableEq, Repr

/-- Bridge tables of a unit (08_network.md R192, R195, R198). -/
structure BridgeState where
  learned : List Learned
  arp : List ArpEntry
  deriving DecidableEq, Repr

/-- The input of a unit: the input stripe buffer of the active unit, the line store of the standby, in three banks in rotation, and the picture and
stripe that each bank holds (07_sensor_lanes.md R174, 13_relay.md R312). -/
structure InputState where
  lines : List BufLine
  banks : Vector (Option (Nat × Nat)) 3
  lineFault : Bool
  deriving DecidableEq, Repr

end Sys2Proof.Machine
end

