-- ==== Sys2Proof/Machine/Objects.lean ====
section
/-! DEFINITION. The object tables of the manual (00_scope.md R9, 17_dictionary.md R425): for each index the rows of
its table with type, access, default, write-1-to-clear bits, counter class and range. An index that copies another
(channel n at + 0x100 × n, stream, flow, port ... at + its number) has the rows of the copied index. -/

namespace Sys2Proof.Machine

/-- Rows of index 0x1000 (Table 17-6, R424). -/
def rows1000 : List ObjRow := [
  ⟨0, 0, .u32, .ro, 0, 0, .plain, .any⟩]

/-- Rows of index 0x1001 (Table 17-6, R424). -/
def rows1001 : List ObjRow := [
  ⟨0, 0, .u8, .ro, 0, 0, .plain, .any⟩]

/-- Rows of index 0x1003 (Table 17-6, R424). -/
def rows1003 : List ObjRow := [
  ⟨0, 0, .u8, .rw, 0, 0, .plain, .oneOf [0]⟩,
  ⟨1, 16, .u32, .ro, 0, 0, .plain, .any⟩]

/-- Rows of index 0x1005 (Table 17-6, R424). -/
def rows1005 : List ObjRow := [
  ⟨0, 0, .u32, .rw, 128, 0, .plain, .any⟩]

/-- Rows of index 0x1008 (Table 17-6, R424). -/
def rows1008 : List ObjRow := [
  ⟨0, 0, .str, .ro, 0, 0, .plain, .any⟩]

/-- Rows of index 0x1009 (Table 17-6, R424). -/
def rows1009 : List ObjRow := [
  ⟨0, 0, .str, .ro, 0, 0, .plain, .any⟩]

/-- Rows of index 0x100A (Table 17-6, R424). -/
def rows100A : List ObjRow := [
  ⟨0, 0, .str, .ro, 0, 0, .plain, .any⟩]

/-- Rows of index 0x1010 (Table 17-6, R424). -/
def rows1010 : List ObjRow := [
  ⟨0, 0, .u8, .ro, 1, 0, .plain, .any⟩,
  ⟨1, 1, .u32, .rw, 1, 0, .plain, .oneOf [0x6576_6173]⟩]

/-- Rows of index 0x1011 (Table 17-6, R424). -/
def rows1011 : List ObjRow := [
  ⟨0, 0, .u8, .ro, 1, 0, .plain, .any⟩,
  ⟨1, 1, .u32, .rw, 1, 0, .plain, .oneOf [0x6461_6F6C]⟩]

/-- Rows of index 0x1014 (Table 17-6, R424). -/
def rows1014 : List ObjRow := [
  ⟨0, 0, .u32, .rw, 128, 0, .plain, .any⟩]

/-- Rows of index 0x1015 (Table 17-6, R424). -/
def rows1015 : List ObjRow := [
  ⟨0, 0, .u16, .rw, 0, 0, .plain, .any⟩]

/-- Rows of index 0x1017 (Table 17-6, R424). -/
def rows1017 : List ObjRow := [
  ⟨0, 0, .u16, .rw, 1000, 0, .plain, .any⟩]

/-- Rows of index 0x1018 (Table 17-6, R424). -/
def rows1018 : List ObjRow := [
  ⟨0, 0, .u8, .ro, 4, 0, .plain, .any⟩,
  ⟨1, 1, .u32, .ro, 967, 0, .plain, .any⟩,
  ⟨2, 2, .u32, .ro, 0x2564, 0, .plain, .any⟩,
  ⟨3, 3, .u32, .ro, 0x420001, 0, .plain, .any⟩,
  ⟨4, 4, .u32, .ro, 0, 0, .plain, .any⟩]

/-- Rows of index 0x2000 (Table 17-7, R424). -/
def rows2000 : List ObjRow := [
  ⟨0, 0, .u8, .ro, 7, 0, .plain, .any⟩,
  ⟨1, 1, .str, .ro, 0, 0, .plain, .any⟩,
  ⟨2, 2, .str, .ro, 0, 0, .plain, .any⟩,
  ⟨3, 3, .u16, .ro, 0, 0, .plain, .any⟩,
  ⟨4, 4, .u64, .ro, 0, 0, .plain, .any⟩,
  ⟨5, 7, .u64, .ro, 0, 0, .plain, .any⟩]

/-- Rows of index 0x2002 (Table 17-7, R424). -/
def rows2002 : List ObjRow := [
  ⟨0, 0, .u8, .ro, 8, 0, .plain, .any⟩,
  ⟨1, 1, .u8, .rw, 64, 0, .plain, .within 1 127⟩,
  ⟨2, 2, .u16, .rw, 500, 0, .plain, .oneOf [125, 250, 500, 1000]⟩,
  ⟨3, 3, .u16, .rw, 2000, 0, .plain, .oneOf [1000, 2000, 4000, 5000, 8000]⟩,
  ⟨4, 4, .u8, .ro, 127, 0, .plain, .any⟩,
  ⟨5, 5, .bool, .rw, 0, 0, .plain, .any⟩,
  ⟨6, 6, .u32, .ro, 0, 0, .event, .any⟩,
  ⟨7, 7, .octet128, .ro, 0, 0, .plain, .any⟩,
  ⟨8, 8, .u32, .rw, 0, 0xa0000000, .plain, .any⟩]

/-- Rows of index 0x2003 (Table 17-7, R424). -/
def rows2003 : List ObjRow := [
  ⟨0, 0, .u8, .ro, 11, 0, .plain, .any⟩,
  ⟨1, 8, .u64, .rw, 0, 0, .plain, .mask 0xE0FF_FFFF_FFFF_FFFF⟩,
  ⟨9, 9, .u16, .rw, 0x2564, 0, .plain, .any⟩,
  ⟨10, 10, .u32, .ro, 0, 0, .halves, .any⟩,
  ⟨11, 11, .u16, .ro, 1, 0, .plain, .any⟩]

/-- Rows of index 0x2010 (Table 13-9, R332). -/
def rows2010 : List ObjRow := [
  ⟨0, 0, .u8, .ro, 15, 0, .plain, .any⟩,
  ⟨1, 1, .u8, .ro, 0, 0, .plain, .any⟩,
  ⟨2, 2, .u8, .wo, 0, 0, .plain, .within 1 6⟩,
  ⟨3, 3, .u8, .rw, 0, 0, .plain, .upTo 1⟩,
  ⟨4, 4, .bool, .rw, 0, 0, .plain, .any⟩,
  ⟨5, 5, .u32, .rw, 600, 0, .plain, .within 60 86400⟩,
  ⟨6, 6, .u32, .ro, 0, 0, .plain, .any⟩,
  ⟨7, 7, .u8, .rw, 16, 0, .plain, .within 1 255⟩,
  ⟨8, 8, .u32, .rw, 0, 0x7c000000, .plain, .any⟩,
  ⟨9, 9, .u32, .ro, 0, 0, .halves, .any⟩,
  ⟨10, 10, .u64, .ro, 0, 0, .plain, .any⟩,
  ⟨11, 11, .u32, .ro, 0, 0, .plain, .any⟩,
  ⟨12, 12, .u32, .ro, 0, 0, .event, .any⟩,
  ⟨13, 13, .u32, .ro, 0, 0, .event, .any⟩,
  ⟨14, 14, .u8, .ro, 0, 0, .plain, .any⟩,
  ⟨15, 15, .u32, .ro, 0, 0, .event, .any⟩]

/-- Rows of index 0x2011 (Table 13-11, R332). -/
def rows2011 : List ObjRow := [
  ⟨0, 0, .u8, .ro, 8, 0, .plain, .any⟩,
  ⟨1, 1, .u8, .ro, 0, 0, .plain, .any⟩,
  ⟨2, 2, .u32, .ro, 0, 0, .event, .any⟩,
  ⟨3, 3, .u32, .ro, 0, 0, .event, .any⟩,
  ⟨4, 4, .u16, .ro, 0, 0, .plain, .any⟩,
  ⟨5, 5, .u64, .ro, 0, 0, .plain, .any⟩,
  ⟨6, 6, .u8, .ro, 0, 0, .event, .any⟩,
  ⟨7, 7, .u32, .ro, 0, 0, .halves, .any⟩,
  ⟨8, 8, .u32, .ro, 0, 0, .event, .any⟩]

/-- Rows of index 0x2100 (Table 15-7, R377). -/
def rows2100 : List ObjRow := [
  ⟨0, 0, .u8, .ro, 8, 0, .plain, .any⟩,
  ⟨1, 1, .u8, .ro, 1, 0, .plain, .any⟩,
  ⟨2, 2, .u32, .rw, 0, 0x79000000, .plain, .any⟩,
  ⟨3, 3, .u32, .ro, 0, 0, .event, .any⟩,
  ⟨4, 4, .u32, .ro, 0, 0, .plain, .any⟩,
  ⟨5, 5, .u32, .ro, 0, 0, .plain, .any⟩,
  ⟨6, 6, .u32, .ro, 0, 0, .plain, .any⟩,
  ⟨7, 7, .u32, .ro, 0, 0, .plain, .any⟩,
  ⟨8, 8, .u16, .ro, 0, 0, .plain, .any⟩]

/-- Rows of index 0x2101 (Table 15-8, R377). -/
def rows2101 : List ObjRow := [
  ⟨0, 0, .u8, .ro, 2, 0, .plain, .any⟩,
  ⟨1, 1, .u32, .rw, 0, 0, .plain, .mask 0xF300_0FFF⟩,
  ⟨2, 2, .u32, .ro, 0, 0, .plain, .any⟩]

/-- Rows of index 0x2200 (Table 10-7, R263). -/
def rows2200 : List ObjRow := [
  ⟨0, 0, .u8, .ro, 14, 0, .plain, .any⟩,
  ⟨1, 1, .octet128, .ro, 0, 0, .plain, .any⟩,
  ⟨2, 2, .octet128, .ro, 0, 0, .plain, .any⟩,
  ⟨3, 3, .octet128, .ro, 0, 0, .plain, .any⟩,
  ⟨4, 4, .octet128, .ro, 0, 0, .plain, .any⟩,
  ⟨5, 5, .u8, .ro, 0, 0, .plain, .any⟩,
  ⟨6, 6, .u32, .rw, 0, 0x27000000, .plain, .any⟩,
  ⟨7, 7, .i32, .ro, 0, 0, .plain, .any⟩,
  ⟨8, 8, .i64, .ro, 0, 0, .plain, .any⟩,
  ⟨9, 9, .i64, .ro, 0, 0, .plain, .any⟩,
  ⟨10, 10, .u8, .ro, 255, 0, .plain, .any⟩,
  ⟨11, 11, .u64, .ro, 0, 0, .plain, .any⟩,
  ⟨12, 12, .u32, .ro, 0, 0, .plain, .any⟩,
  ⟨13, 13, .i16, .ro, 37, 0, .plain, .any⟩,
  ⟨14, 14, .u32, .ro, 0, 0, .event, .any⟩]

/-- Rows of index 0x2201 (Table 10-8, R263). -/
def rows2201 : List ObjRow := [
  ⟨0, 0, .u8, .ro, 11, 0, .plain, .any⟩,
  ⟨1, 1, .u8, .rw, 15, 0, .plain, .upTo 15⟩,
  ⟨2, 2, .u8, .rw, 127, 0, .plain, .upTo 127⟩,
  ⟨3, 3, .u8, .rw, 0, 0, .plain, .upTo 1⟩,
  ⟨4, 4, .i8, .rw, 253, 0, .plain, .signed (-7) 1⟩,
  ⟨5, 5, .u8, .rw, 3, 0, .plain, .within 2 10⟩,
  ⟨6, 6, .bool, .rw, 1, 0, .plain, .any⟩,
  ⟨7, 7, .i32, .rw, 0, 0, .plain, .any⟩,
  ⟨8, 11, .i32, .rw, 0, 0, .plain, .any⟩]

/-- Rows of index 0x2202 (Table 10-9, R263). -/
def rows2202 : List ObjRow := [
  ⟨0, 0, .u8, .ro, 8, 0, .plain, .any⟩,
  ⟨1, 4, .u32, .ro, 0, 0, .plain, .any⟩,
  ⟨5, 8, .u32, .ro, 0, 0, .plain, .any⟩]

/-- Rows of index 0x2203 (Table 10-10, R263). -/
def rows2203 : List ObjRow := [
  ⟨0, 0, .u8, .ro, 5, 0, .plain, .any⟩,
  ⟨1, 1, .u8, .rwl, 0, 0, .plain, .upTo 1⟩,
  ⟨2, 2, .u32, .rwl, 50, 0, .plain, .within 1 4294967295⟩,
  ⟨3, 3, .u32, .rwl, 1, 0, .plain, .within 1 4294967295⟩,
  ⟨4, 4, .u32, .rwl, 0x10001, 0, .plain, .both (.field 31 16 (.within 1 65535)) (.field 15 0 (.within 1 65535))⟩,
  ⟨5, 5, .u32, .rwl, 0, 0, .plain, .any⟩]

/-- Rows of index 0x2204 (Table 10-11, R263). -/
def rows2204 : List ObjRow := [
  ⟨0, 0, .u8, .ro, 9, 0, .plain, .any⟩,
  ⟨1, 4, .u32, .rw, 0, 0, .plain, .both (.mask 0x87FF_FFFF) (.field 26 24 (.upTo 4))⟩,
  ⟨5, 8, .i32, .rw, 0, 0, .plain, .any⟩,
  ⟨9, 9, .u32, .rw, 100, 0, .plain, .within 1 500000⟩]

/-- Rows of index 0x2300 (Table 7-9, R186). -/
def rows2300 : List ObjRow := [
  ⟨0, 0, .u8, .ro, 16, 0, .plain, .any⟩,
  ⟨1, 1, .u8, .rwl, 0, 0, .plain, .upTo 3⟩,
  ⟨2, 2, .u8, .rwl, 12, 0, .plain, .oneOf [8, 10, 12, 16]⟩,
  ⟨3, 3, .u16, .rwl, 0, 0, .plain, .upTo 32768⟩,
  ⟨4, 4, .u8, .rwl, 0, 0, .plain, .upTo 1⟩,
  ⟨5, 5, .u8, .ro, 0, 0, .plain, .any⟩,
  ⟨6, 6, .i32, .ro, 0, 0, .plain, .any⟩,
  ⟨7, 7, .i32, .ro, 0, 0, .plain, .any⟩,
  ⟨8, 8, .u32, .rw, 0, 0x5e000000, .plain, .any⟩,
  ⟨9, 9, .u32, .ro, 0, 0, .event, .any⟩,
  ⟨10, 10, .u64, .ro, 0, 0, .stat, .any⟩,
  ⟨11, 11, .u32, .ro, 0, 0, .plain, .any⟩,
  ⟨12, 15, .u32, .rwl, 0, 0, .plain, .any⟩,
  ⟨16, 16, .u32, .ro, 0xFFFFFFFF, 0, .plain, .any⟩]

/-- Rows of index 0x2310 (Table 7-10, R186). -/
def rows2310 : List ObjRow := [
  ⟨0, 0, .u8, .ro, 14, 0, .plain, .any⟩,
  ⟨1, 1, .bool, .rwl, 0, 0, .plain, .any⟩,
  ⟨2, 2, .u8, .rwl, 0, 0, .plain, .upTo 63⟩,
  ⟨3, 3, .u8, .rwl, 1, 0, .plain, .within 1 16⟩,
  ⟨4, 4, .u16, .rwl, 0, 0, .plain, .any⟩,
  ⟨5, 5, .u16, .rwl, 0, 0, .plain, .any⟩,
  ⟨6, 6, .u16, .rwl, 0, 0, .plain, .any⟩,
  ⟨7, 7, .u8, .ro, 0, 0, .plain, .any⟩,
  ⟨8, 8, .u64, .ro, 0, 0, .stat, .any⟩,
  ⟨9, 9, .u64, .ro, 0, 0, .stat, .any⟩,
  ⟨10, 10, .u32, .ro, 0, 0, .event, .any⟩,
  ⟨11, 11, .u32, .ro, 0, 0, .event, .any⟩,
  ⟨12, 12, .u32, .ro, 0, 0, .event, .any⟩,
  ⟨13, 13, .u8, .ro, 0, 0, .plain, .any⟩,
  ⟨14, 14, .u32, .ro, 0, 0, .plain, .any⟩]

/-- Rows of index 0x2330 (Table 7-11, R186). -/
def rows2330 : List ObjRow := [
  ⟨0, 0, .u8, .ro, 64, 0, .plain, .any⟩,
  ⟨1, 64, .u32, .ro, 0, 0, .plain, .any⟩]

/-- Rows of index 0x2331 (Table 7-11, R186). -/
def rows2331 : List ObjRow := [
  ⟨0, 0, .u8, .ro, 64, 0, .plain, .any⟩,
  ⟨1, 64, .u32, .ro, 0, 0, .plain, .any⟩]

/-- Rows of index 0x2340 (Table 7-14, R186). -/
def rows2340 : List ObjRow := [
  ⟨0, 0, .u8, .ro, 8, 0, .plain, .any⟩,
  ⟨1, 8, .u16, .rw, 2048, 0, .plain, .both (.field 15 8 (.upTo 16)) (.field 7 0 (.upTo 12))⟩]

/-- Rows of index 0x2400 (Table 8-7, R213). -/
def rows2400 : List ObjRow := [
  ⟨0, 0, .u8, .ro, 4, 0, .plain, .any⟩,
  ⟨1, 1, .bool, .rw, 1, 0, .plain, .any⟩,
  ⟨2, 2, .u16, .rw, 300, 0, .plain, .within 10 3600⟩,
  ⟨3, 3, .u16, .ro, 0, 0, .plain, .any⟩,
  ⟨4, 4, .u32, .ro, 0, 0, .event, .any⟩]

/-- Rows of index 0x2401 (Table 8-8, R214). -/
def rows2401 : List ObjRow := [
  ⟨0, 0, .u8, .ro, 128, 0, .plain, .any⟩,
  ⟨1, 128, .u64, .rw, 0, 0, .plain, .mask 0x801F_FFFF_FFFF_FFFF⟩]

/-- Rows of index 0x2410 (Table 8-9, R214). -/
def rows2410 : List ObjRow := [
  ⟨0, 0, .u8, .ro, 27, 0, .plain, .any⟩,
  ⟨1, 1, .bool, .rw, 0, 0, .plain, .any⟩,
  ⟨2, 2, .bool, .rw, 1, 0, .plain, .any⟩,
  ⟨3, 3, .u8, .rw, 0, 0, .plain, .upTo 1⟩,
  ⟨4, 4, .u8, .rw, 0, 0, .plain, .any⟩,
  ⟨5, 5, .u64, .ro, 0, 0, .plain, .any⟩,
  ⟨6, 6, .u32, .rw, 0, 0, .plain, .any⟩,
  ⟨7, 7, .u8, .rw, 24, 0, .plain, .upTo 32⟩,
  ⟨8, 8, .u32, .rw, 0, 0, .plain, .any⟩,
  ⟨9, 9, .bool, .rw, 0, 0, .plain, .any⟩,
  ⟨10, 10, .bool, .rw, 0, 0, .plain, .any⟩,
  ⟨11, 11, .u32, .rw, 0, 0x38000000, .plain, .any⟩,
  ⟨12, 12, .u64, .ro, 0, 0, .stat, .any⟩,
  ⟨13, 13, .u64, .ro, 0, 0, .stat, .any⟩,
  ⟨14, 14, .u64, .ro, 0, 0, .stat, .any⟩,
  ⟨15, 15, .u64, .ro, 0, 0, .stat, .any⟩,
  ⟨16, 16, .u64, .ro, 0, 0, .halves, .any⟩,
  ⟨17, 17, .u32, .ro, 0, 0, .event, .any⟩,
  ⟨18, 18, .u32, .ro, 0, 0, .event, .any⟩,
  ⟨19, 19, .u32, .ro, 0, 0, .event, .any⟩,
  ⟨20, 20, .u32, .ro, 0, 0, .event, .any⟩,
  ⟨21, 21, .u32, .ro, 0, 0, .event, .any⟩,
  ⟨22, 22, .u32, .ro, 0, 0, .event, .any⟩,
  ⟨23, 23, .u32, .ro, 0, 0, .event, .any⟩,
  ⟨24, 24, .u32, .ro, 0, 0, .event, .any⟩,
  ⟨25, 25, .u32, .ro, 0, 0, .plain, .any⟩,
  ⟨26, 26, .u32, .ro, 0, 0, .plain, .any⟩,
  ⟨27, 27, .u16, .ro, 0, 0, .plain, .any⟩]

/-- Rows of index 0x2500 (Table 2-7, R55). -/
def rows2500 : List ObjRow := [
  ⟨0, 0, .u8, .ro, 16, 0, .plain, .any⟩,
  ⟨1, 1, .u8, .rwl, 16, 0, .plain, .oneOf [16, 32, 64]⟩,
  ⟨2, 2, .u32, .rwl, 0, 0, .plain, .any⟩,
  ⟨3, 3, .u32, .rwl, 0, 0, .plain, .any⟩,
  ⟨4, 4, .u32, .ro, 0, 0, .plain, .any⟩,
  ⟨5, 5, .u8, .rwl, 0, 0, .plain, .upTo 1⟩,
  ⟨6, 6, .u64, .ro, 0, 0, .stat, .any⟩,
  ⟨7, 7, .u32, .ro, 0, 0, .plain, .any⟩,
  ⟨8, 8, .u32, .ro, 0, 0, .event, .any⟩,
  ⟨9, 9, .u32, .rw, 0, 0x1fff00, .plain, .any⟩,
  ⟨10, 10, .u16, .ro, 0, 0, .plain, .any⟩,
  ⟨11, 11, .u64, .ro, 0, 0, .stat, .any⟩,
  ⟨12, 12, .u32, .ro, 0, 0, .wraps, .any⟩,
  ⟨13, 13, .u32, .ro, 0, 0, .wraps, .any⟩,
  ⟨14, 14, .u32, .rw, 0, 0xa0000000, .plain, .any⟩,
  ⟨15, 15, .u8, .wo, 0, 0, .plain, .within 1 3⟩,
  ⟨16, 16, .u32, .ro, 0, 0, .plain, .any⟩]

/-- Rows of index 0x2800 (Table 11-6, R283). -/
def rows2800 : List ObjRow := [
  ⟨0, 0, .u8, .ro, 22, 0, .plain, .any⟩,
  ⟨1, 1, .u32, .rw, 100, 0, .plain, .within 1 1000000⟩,
  ⟨2, 2, .u16, .rw, 2048, 0, .plain, .within 256 8192⟩,
  ⟨3, 3, .u16, .rw, 2000, 0, .plain, .within 1000 8000⟩,
  ⟨4, 4, .u8, .ro, 1, 0, .plain, .any⟩,
  ⟨5, 5, .u8, .ro, 1, 0, .plain, .any⟩,
  ⟨6, 6, .i8, .ro, 0, 0, .peak, .any⟩,
  ⟨7, 7, .u32, .ro, 0, 0, .event, .any⟩,
  ⟨8, 8, .u64, .ro, 0, 0, .stat, .any⟩,
  ⟨9, 9, .u32, .ro, 0, 0, .peak, .any⟩,
  ⟨10, 10, .u32, .ro, 0, 0, .event, .any⟩,
  ⟨11, 11, .u64, .ro, 0, 0, .stat, .any⟩,
  ⟨12, 12, .u32, .ro, 0, 0, .event, .any⟩,
  ⟨13, 13, .u64, .ro, 0, 0, .plain, .any⟩,
  ⟨14, 14, .u32, .ro, 0, 0, .plain, .any⟩,
  ⟨15, 15, .u32, .ro, 0, 0, .event, .any⟩,
  ⟨16, 16, .u32, .rw, 0, 0xfc000000, .plain, .any⟩,
  ⟨17, 17, .u8, .ro, 0, 0, .plain, .any⟩,
  ⟨18, 18, .u32, .ro, 0, 0, .event, .any⟩,
  ⟨19, 19, .u32, .ro, 0, 0, .event, .any⟩,
  ⟨20, 20, .u32, .ro, 0, 0, .plain, .any⟩,
  ⟨21, 21, .u32, .ro, 0, 0, .plain, .any⟩,
  ⟨22, 22, .u64, .ro, 0xE00000000, 0, .plain, .any⟩]

/-- Rows of index 0x2880 (Table 12-7, R305). -/
def rows2880 : List ObjRow := [
  ⟨0, 0, .u8, .ro, 4, 0, .plain, .any⟩,
  ⟨1, 1, .u16, .ro, 0, 0, .plain, .any⟩,
  ⟨2, 2, .u32, .ro, 0, 0, .event, .any⟩,
  ⟨3, 3, .octet128, .ro, 0, 0, .plain, .any⟩,
  ⟨4, 4, .u32, .rw, 0, 0xc0000000, .plain, .any⟩]

/-- Rows of index 0x2881 (Table 12-7, R305). -/
def rows2881 : List ObjRow := [
  ⟨0, 0, .u8, .ro, 64, 0, .plain, .any⟩,
  ⟨1, 64, .u64, .ro, 0, 0, .plain, .any⟩]

/-- Rows of index 0x2900 (Table 12-9, R306). -/
def rows2900 : List ObjRow := [
  ⟨0, 0, .u8, .ro, 15, 0, .plain, .any⟩,
  ⟨1, 1, .u32, .rwl, 0, 0, .plain, .upTo 49152⟩,
  ⟨2, 2, .u32, .rws, 0, 0, .plain, .any⟩,
  ⟨3, 3, .u32, .rws, 1, 0, .plain, .atLeast 1⟩,
  ⟨4, 4, .u8, .rws, 0, 0, .plain, .any⟩,
  ⟨5, 5, .octet128, .rw, 0, 0, .plain, .mask 0x0000_FFFF_FFFF_FFFF_FFFF_FFFF_FFFF_FFFF⟩,
  ⟨6, 6, .u8, .wo, 0, 0, .plain, .within 1 4⟩,
  ⟨7, 7, .u8, .ro, 0, 0, .plain, .any⟩,
  ⟨8, 8, .u32, .rw, 0, 0x38000000, .plain, .any⟩,
  ⟨9, 9, .u32, .ro, 0, 0, .plain, .any⟩,
  ⟨10, 10, .u32, .ro, 0, 0, .plain, .any⟩,
  ⟨11, 11, .u64, .ro, 0, 0, .plain, .any⟩,
  ⟨12, 12, .octet128, .ro, 0, 0, .plain, .any⟩,
  ⟨13, 13, .u64, .ro, 0, 0, .plain, .any⟩,
  ⟨14, 14, .u32, .ro, 0, 0, .event, .any⟩,
  ⟨15, 15, .u32, .ro, 0, 0, .plain, .any⟩]

/-- Rows of index 0x2901 (Table 12-10, R306). -/
def rows2901 : List ObjRow := [
  ⟨0, 0, .u8, .ro, 10, 0, .plain, .any⟩,
  ⟨1, 1, .u8, .rw, 16, 0, .plain, .upTo 247⟩,
  ⟨2, 2, .u32, .rw, 0, 0, .plain, .any⟩,
  ⟨3, 3, .u32, .rw, 0, 0, .plain, .any⟩,
  ⟨4, 4, .u8, .rw, 0, 0, .plain, .upTo 3⟩,
  ⟨5, 5, .i32, .rw, 0, 0, .plain, .any⟩,
  ⟨6, 6, .u32, .rw, 1, 0, .plain, .any⟩,
  ⟨7, 7, .u8, .wo, 0, 0, .plain, .within 1 3⟩,
  ⟨8, 8, .u32, .ro, 0, 0, .plain, .any⟩,
  ⟨9, 9, .u16, .ro, 0, 0, .plain, .any⟩,
  ⟨10, 10, .u32, .ro, 0, 0, .plain, .any⟩]

/-- Rows of index 0x2910 (Table 12-11, R307). -/
def rows2910 : List ObjRow := [
  ⟨0, 0, .u8, .ro, 5, 0, .plain, .any⟩,
  ⟨1, 1, .octet128, .ro, 0, 0, .plain, .any⟩,
  ⟨2, 2, .octet128, .ro, 0, 0, .plain, .any⟩,
  ⟨3, 3, .u64, .ro, 0, 0, .stat, .any⟩,
  ⟨4, 4, .u32, .ro, 0, 0, .halves, .any⟩,
  ⟨5, 5, .u32, .ro, 0, 0, .event, .any⟩]

/-- Rows of index 0x3000 (Table 3-14, R85). -/
def rows3000 : List ObjRow := [
  ⟨0, 0, .u8, .ro, 8, 0, .plain, .any⟩,
  ⟨1, 1, .u8, .rw, 0, 0, .plain, .upTo 1⟩,
  ⟨2, 2, .u8, .ro, 0, 0, .plain, .any⟩,
  ⟨3, 3, .u16, .ro, 0, 0, .plain, .any⟩,
  ⟨4, 4, .u8, .ro, 0, 0, .plain, .any⟩,
  ⟨5, 5, .u8, .ro, 0, 0, .plain, .any⟩,
  ⟨6, 6, .u64, .ro, 0, 0, .stat, .any⟩,
  ⟨7, 7, .u64, .ro, 0, 0, .stat, .any⟩,
  ⟨8, 8, .u64, .ro, 0, 0, .stat, .any⟩]

/-- Rows of index 0x3001 (Table 4-7, R106). -/
def rows3001 : List ObjRow := [
  ⟨0, 0, .u8, .ro, 4, 0, .plain, .any⟩,
  ⟨1, 1, .u32, .ro, 0, 0, .plain, .any⟩,
  ⟨2, 2, .u64, .ro, 0, 0, .stat, .any⟩,
  ⟨3, 3, .u32, .ro, 0, 0, .plain, .any⟩,
  ⟨4, 4, .u64, .ro, 0, 0, .stat, .any⟩]

/-- Rows of index 0x3002 (Table 6-7, R158). -/
def rows3002 : List ObjRow := [
  ⟨0, 0, .u8, .ro, 10, 0, .plain, .any⟩,
  ⟨1, 1, .u64, .ro, 0, 0, .stat, .any⟩,
  ⟨2, 2, .u64, .ro, 0, 0, .stat, .any⟩,
  ⟨3, 3, .u64, .ro, 0, 0, .stat, .any⟩,
  ⟨4, 4, .u64, .ro, 0, 0, .stat, .any⟩,
  ⟨5, 5, .u32, .ro, 0, 0, .event, .any⟩,
  ⟨6, 6, .u32, .ro, 0, 0, .plain, .any⟩,
  ⟨7, 7, .u32, .ro, 0, 0, .plain, .any⟩,
  ⟨8, 8, .bool, .rw, 1, 0, .plain, .any⟩,
  ⟨9, 9, .u32, .ro, 0, 0, .event, .any⟩,
  ⟨10, 10, .u32, .rw, 0, 0x70000000, .plain, .any⟩]

/-- Rows of index 0x3010 (Table 4-8, R106). -/
def rows3010 : List ObjRow := [
  ⟨0, 0, .u8, .ro, 9, 0, .plain, .any⟩,
  ⟨1, 1, .u16, .rwl, 128, 0, .plain, .both (.within 16 1024) (.multiple 8)⟩,
  ⟨2, 2, .u8, .rwl, 1, 0, .plain, .upTo 4⟩,
  ⟨3, 3, .u16, .ro, 0, 0, .plain, .any⟩,
  ⟨4, 4, .u8, .ro, 0, 0, .plain, .any⟩,
  ⟨5, 5, .u32, .rwp, 0, 0, .plain, .any⟩,
  ⟨6, 6, .bool, .rwp, 1, 0, .plain, .any⟩,
  ⟨7, 7, .u32, .ro, 0, 0, .plain, .any⟩,
  ⟨8, 8, .u16, .ro, 0, 0, .plain, .any⟩,
  ⟨9, 9, .u32, .ro, 0, 0, .plain, .any⟩]

/-- Rows of index 0x3020 (Table 4-10, R106). -/
def rows3020 : List ObjRow := [
  ⟨0, 0, .u8, .ro, 6, 0, .plain, .any⟩,
  ⟨1, 1, .bool, .rwp, 0, 0, .plain, .any⟩,
  ⟨2, 2, .u8, .wo, 0, 0, .plain, .within 1 3⟩,
  ⟨3, 3, .u32, .ro, 0, 0, .plain, .any⟩,
  ⟨4, 4, .domain, .wo, 0, 0, .plain, .any⟩,
  ⟨5, 5, .u32, .ro, 0, 0, .plain, .any⟩,
  ⟨6, 6, .u8, .ro, 0, 0, .plain, .any⟩]

/-- Rows of index 0x3030 (Table 6-9, R159). -/
def rows3030 : List ObjRow := [
  ⟨0, 0, .u8, .ro, 5, 0, .plain, .any⟩,
  ⟨1, 1, .u8, .rwl, 0, 0, .plain, .upTo 1⟩,
  ⟨2, 2, .u16, .rwl, 0xFFFF, 0, .plain, .either (.upTo 255) (.oneOf [0xFFFF])⟩,
  ⟨3, 3, .u32, .ro, 0, 0, .wraps, .any⟩,
  ⟨4, 4, .u64, .ro, 0, 0, .stat, .any⟩,
  ⟨5, 5, .u32, .ro, 0, 0, .event, .any⟩]

/-- Rows of index 0x3040 (Table 4-11, R106). -/
def rows3040 : List ObjRow := [
  ⟨0, 0, .u8, .ro, 9, 0, .plain, .any⟩,
  ⟨1, 1, .bool, .rwp, 0, 0, .plain, .any⟩,
  ⟨2, 2, .u8, .rwp, 0, 0, .plain, .upTo 15⟩,
  ⟨3, 3, .u32, .rwp, 0, 0, .plain, .any⟩,
  ⟨4, 4, .u32, .rwp, 0, 0, .plain, .any⟩,
  ⟨5, 5, .u8, .rwp, 0, 0, .plain, .qpEntry⟩,
  ⟨6, 6, .u8, .rwp, 0, 0, .plain, .upTo 15⟩,
  ⟨7, 7, .bool, .rwp, 0, 0, .plain, .any⟩,
  ⟨8, 8, .u32, .ro, 0, 0, .plain, .any⟩,
  ⟨9, 9, .u8, .ro, 0, 0, .plain, .any⟩]

/-- Rows of index 0x3400 (Table 3-12, R83). -/
def rows3400 : List ObjRow := [
  ⟨0, 0, .u8, .ro, 31, 0, .plain, .any⟩,
  ⟨1, 1, .bool, .rwl, 0, 0, .plain, .any⟩,
  ⟨2, 2, .u8, .rwl, 0, 0, .plain, .upTo 2⟩,
  ⟨3, 3, .u8, .rwl, 1, 0, .plain, .any⟩,
  ⟨4, 4, .u16, .rwl, 0, 0, .plain, .any⟩,
  ⟨5, 5, .u16, .rwl, 0, 0, .plain, .any⟩,
  ⟨6, 6, .u16, .rwl, 0, 0, .plain, .any⟩,
  ⟨7, 7, .u16, .rwl, 0, 0, .plain, .any⟩,
  ⟨8, 8, .u8, .rwl, 1, 0, .plain, .upTo 3⟩,
  ⟨9, 9, .u8, .rwl, 10, 0, .plain, .oneOf [8, 10, 12, 16]⟩,
  ⟨10, 10, .bool, .rwl, 0, 0, .plain, .any⟩,
  ⟨11, 11, .u8, .rwl, 1, 0, .plain, .within 1 2⟩,
  ⟨12, 12, .u32, .rwp, 60, 0, .plain, .any⟩,
  ⟨13, 13, .u8, .rwl, 0, 0, .plain, .upTo 11⟩,
  ⟨14, 14, .u8, .rwl, 1, 0, .plain, .upTo 1⟩,
  ⟨15, 15, .u8, .rwl, 0, 0, .plain, .any⟩,
  ⟨16, 16, .u32, .rwl, 0, 0, .plain, .any⟩,
  ⟨17, 17, .u32, .rwl, 1, 0, .plain, .any⟩,
  ⟨18, 18, .u8, .rwl, 1, 0, .plain, .oneOf [1, 2, 4]⟩,
  ⟨19, 19, .u8, .rwl, 0, 0, .plain, .upTo 16⟩,
  ⟨20, 20, .u8, .ro, 0, 0, .plain, .any⟩,
  ⟨21, 21, .u8, .rwl, 1, 0, .plain, .within 1 3⟩,
  ⟨22, 22, .u8, .rwl, 32, 0, .plain, .oneOf [16, 32, 64]⟩,
  ⟨23, 23, .u32, .rwl, 0x10101, 0, .plain, .mask 0x01FF_FFFF⟩,
  ⟨24, 24, .u32, .rwl, 0x10001, 0, .plain, .any⟩,
  ⟨25, 25, .bool, .rwp, 1, 0, .plain, .any⟩,
  ⟨26, 26, .u16, .rwp, 0, 0, .plain, .any⟩,
  ⟨27, 27, .u16, .rwp, 0, 0, .plain, .any⟩,
  ⟨28, 28, .u16, .rwp, 3, 0, .plain, .mask 0x002F⟩,
  ⟨29, 29, .u32, .rwl, 0, 0, .plain, .any⟩,
  ⟨30, 30, .u32, .ro, 0, 0, .plain, .any⟩,
  ⟨31, 31, .u64, .ro, 0, 0, .stat, .any⟩]

/-- Rows of index 0x3800 (Table 5-6, R131). -/
def rows3800 : List ObjRow := [
  ⟨0, 0, .u8, .ro, 22, 0, .plain, .any⟩,
  ⟨1, 1, .u8, .rwl, 0, 0, .plain, .upTo 1⟩,
  ⟨2, 2, .u64, .rwl, 0, 0, .plain, .upTo 9007199252643840⟩,
  ⟨3, 3, .u64, .rwl, 0, 0, .plain, .upTo 2251799813160960⟩,
  ⟨4, 4, .u64, .rws, 0, 0, .plain, .any⟩,
  ⟨5, 5, .u16, .rws, 0x3300, 0, .plain, .any⟩,
  ⟨6, 6, .u16, .rws, 100, 0, .plain, .any⟩,
  ⟨7, 7, .u16, .rws, 150, 0, .plain, .any⟩,
  ⟨8, 8, .u16, .rws, 500, 0, .plain, .any⟩,
  ⟨9, 9, .u8, .rwl, 32, 0, .plain, .upTo 51⟩,
  ⟨10, 10, .u32, .rwl, 0x32C8, 0, .plain, .any⟩,
  ⟨11, 11, .u32, .rwl, 2600, 0, .plain, .any⟩,
  ⟨12, 12, .u32, .rws, 240, 0, .plain, .any⟩,
  ⟨13, 13, .u32, .rwl, 0, 0, .plain, .any⟩,
  ⟨14, 14, .u64, .ro, 0, 0, .plain, .any⟩,
  ⟨15, 15, .u64, .ro, 0, 0, .plain, .any⟩,
  ⟨16, 16, .u64, .ro, 0, 0, .plain, .any⟩,
  ⟨17, 17, .u64, .ro, 0, 0, .stat, .any⟩,
  ⟨18, 18, .u32, .rw, 0, 0x6000000, .plain, .any⟩,
  ⟨19, 19, .u64, .ro, 0, 0, .stat, .any⟩,
  ⟨20, 20, .u64, .ro, 0, 0, .stat, .any⟩,
  ⟨21, 21, .u32, .ro, 0, 0, .event, .any⟩,
  ⟨22, 22, .u64, .ro, 0, 0, .plain, .any⟩]

/-- Rows of index 0x4000 (Table 9-5, R238). -/
def rows4000 : List ObjRow := [
  ⟨0, 0, .u8, .ro, 31, 0, .plain, .any⟩,
  ⟨1, 1, .bool, .rws, 0, 0, .plain, .any⟩,
  ⟨2, 2, .u8, .rwl, 0, 0, .plain, .either (.upTo 15) (.oneOf [0xFF])⟩,
  ⟨3, 3, .u16, .rws, 784, 0, .plain, .both (.mask 0x03FF) (.field 7 0 (.within 1 255))⟩,
  ⟨4, 4, .u64, .rws, 0, 0, .plain, .any⟩,
  ⟨5, 5, .u32, .rws, 0, 0, .plain, .upTo 16777215⟩,
  ⟨6, 6, .u8, .rws, 20, 0, .plain, .any⟩,
  ⟨7, 7, .u8, .rws, 0, 0, .plain, .upTo 1⟩,
  ⟨8, 8, .u32, .rwl, 0, 0, .plain, .any⟩,
  ⟨9, 9, .u64, .ro, 0, 0, .plain, .any⟩,
  ⟨10, 10, .u32, .rw, 0, 0x600000, .plain, .any⟩,
  ⟨11, 11, .u32, .ro, 0, 0, .plain, .any⟩,
  ⟨12, 12, .u32, .ro, 0, 0, .plain, .any⟩,
  ⟨13, 13, .u32, .ro, 0, 0, .plain, .any⟩,
  ⟨14, 14, .u32, .ro, 0, 0, .plain, .any⟩,
  ⟨15, 15, .u64, .ro, 0, 0, .stat, .any⟩,
  ⟨16, 16, .u32, .ro, 0, 0, .halves, .any⟩,
  ⟨17, 17, .u16, .rwl, 255, 0, .plain, .both (.field 15 8 (.upTo 3)) (.field 7 0 (.either (.upTo 3) (.oneOf [0xFF])))⟩,
  ⟨18, 18, .octet128, .rwl, 0, 0, .plain, .mask 0x0000_FFFF_FFFF_FFFF_0000_FFFF_FFFF_FFFF⟩,
  ⟨19, 19, .domain, .ro, 0, 0, .plain, .any⟩,
  ⟨20, 20, .u32, .rwl, 0x4D420000, 0, .plain, .any⟩,
  ⟨21, 21, .u64, .rwl, 0, 0, .plain, .any⟩,
  ⟨22, 22, .u32, .rwl, 0x2710138C, 0, .plain, .any⟩,
  ⟨23, 23, .u8, .rwl, 96, 0, .plain, .within 96 127⟩,
  ⟨24, 24, .u8, .rwl, 34, 0, .plain, .upTo 63⟩,
  ⟨25, 25, .u8, .rwl, 64, 0, .plain, .within 1 255⟩,
  ⟨26, 26, .u32, .rwl, 0, 0, .plain, .mask 0x0001_EFFF⟩,
  ⟨27, 27, .u16, .rwl, 1500, 0, .plain, .within 576 9004⟩,
  ⟨28, 28, .u8, .rwl, 0, 0, .plain, .upTo 2⟩,
  ⟨29, 29, .bool, .rwl, 1, 0, .plain, .any⟩,
  ⟨30, 30, .u32, .rwl, 0, 0, .plain, .any⟩,
  ⟨31, 31, .u32, .ro, 0, 0, .plain, .any⟩]

/-- Rows of index 0x4100 (Table 9-9, R240). -/
def rows4100 : List ObjRow := [
  ⟨0, 0, .u8, .ro, 13, 0, .plain, .any⟩,
  ⟨1, 1, .bool, .rw, 0, 0, .plain, .any⟩,
  ⟨2, 2, .u8, .rw, 1, 0, .plain, .upTo 1⟩,
  ⟨3, 3, .u16, .rw, 3840, 0, .plain, .both (.mask 0x0FFF) (.field 7 0 (.upTo 4))⟩,
  ⟨4, 4, .u64, .rw, 0, 0, .plain, .any⟩,
  ⟨5, 5, .u64, .rw, 0x2540BE400, 0, .plain, .any⟩,
  ⟨6, 6, .u32, .rw, 0x10000, 0, .plain, .within 64 16777215⟩,
  ⟨7, 7, .u32, .rw, 0x20000, 0, .plain, .upTo 16777215⟩,
  ⟨8, 8, .u64, .rw, 0x4A817C800, 0, .plain, .any⟩,
  ⟨9, 9, .u8, .rw, 1, 0, .plain, .upTo 2⟩,
  ⟨10, 10, .u64, .ro, 0, 0, .stat, .any⟩,
  ⟨11, 11, .u64, .ro, 0, 0, .stat, .any⟩,
  ⟨12, 12, .u64, .ro, 0, 0, .stat, .any⟩,
  ⟨13, 13, .u64, .ro, 0, 0, .stat, .any⟩]

/-- Rows of index 0x4200 (Table 9-7, R239). -/
def rows4200 : List ObjRow := [
  ⟨0, 0, .u8, .ro, 10, 0, .plain, .any⟩,
  ⟨1, 1, .u16, .rws, 1538, 0, .plain, .within 64 9042⟩,
  ⟨2, 2, .u8, .ro, 0, 0, .plain, .any⟩,
  ⟨3, 3, .u16, .ro, 2, 0, .plain, .any⟩,
  ⟨4, 4, .u32, .ro, 0, 0, .plain, .any⟩,
  ⟨5, 5, .u32, .ro, 0, 0, .plain, .any⟩,
  ⟨6, 6, .u32, .rw, 0x28000000, 0x44000000, .plain, .any⟩,
  ⟨7, 10, .u64, .ro, 0, 0, .stat, .any⟩]

/-- Rows of index 0x4800 (Table 6-10, R160). -/
def rows4800 : List ObjRow := [
  ⟨0, 0, .u8, .ro, 20, 0, .plain, .any⟩,
  ⟨1, 1, .bool, .rw, 0, 0, .plain, .any⟩,
  ⟨2, 2, .u8, .rw, 1, 0, .plain, .oneOf [1, 2, 4, 8, 3, 5, 6, 9, 10, 12]⟩,
  ⟨3, 3, .u32, .rw, 0, 0, .plain, .any⟩,
  ⟨4, 4, .u32, .rw, 0, 0, .plain, .any⟩,
  ⟨5, 5, .u16, .rw, 0, 0, .plain, .any⟩,
  ⟨6, 6, .u32, .rw, 0, 0, .plain, .any⟩,
  ⟨7, 7, .u8, .rw, 96, 0, .plain, .within 96 127⟩,
  ⟨8, 8, .u32, .rw, 0x4E20, 0, .plain, .any⟩,
  ⟨9, 9, .u32, .rw, 0x2710, 0, .plain, .any⟩,
  ⟨10, 10, .u32, .rw, 0, 0x18000000, .plain, .any⟩,
  ⟨11, 11, .u64, .ro, 0, 0, .stat, .any⟩,
  ⟨12, 12, .u64, .ro, 0, 0, .stat, .any⟩,
  ⟨13, 13, .u32, .ro, 0, 0, .event, .any⟩,
  ⟨14, 14, .u32, .ro, 0, 0, .event, .any⟩,
  ⟨15, 15, .u32, .ro, 0, 0, .event, .any⟩,
  ⟨16, 16, .u32, .ro, 0, 0, .event, .any⟩,
  ⟨17, 17, .u32, .ro, 0, 0, .event, .any⟩,
  ⟨18, 18, .u32, .ro, 0, 0, .halves, .any⟩,
  ⟨19, 19, .u32, .ro, 0, 0, .plain, .any⟩,
  ⟨20, 20, .u16, .ro, 0, 0, .plain, .any⟩]

/-- Rows of index 0x4801 (Table 6-11, R160). -/
def rows4801 : List ObjRow := [
  ⟨0, 0, .u8, .ro, 8, 0, .plain, .any⟩,
  ⟨1, 1, .u8, .rw, 0, 0, .plain, .upTo 3⟩,
  ⟨2, 2, .u8, .rw, 0, 0, .plain, .upTo 15⟩,
  ⟨3, 3, .u32, .rw, 0x7800438, 0, .plain, .any⟩,
  ⟨4, 4, .u8, .rw, 8, 0, .plain, .oneOf [1, 2, 4, 8]⟩,
  ⟨5, 5, .u32, .rw, 0, 0x40000000, .plain, .any⟩,
  ⟨6, 6, .u64, .ro, 0, 0, .stat, .any⟩,
  ⟨7, 7, .u64, .ro, 0, 0, .stat, .any⟩,
  ⟨8, 8, .u64, .ro, 0, 0, .stat, .any⟩]

/-- Rows of index 0x5000 (Table 14-10, R356). -/
def rows5000 : List ObjRow := [
  ⟨0, 0, .u8, .ro, 10, 0, .plain, .any⟩,
  ⟨1, 1, .u32, .rws, 0, 0, .plain, .both (.mask 0xFF00_FFFF) (.field 31 24 (.upTo 12))⟩,
  ⟨2, 2, .u8, .rws, 0, 0, .plain, .upTo 1⟩,
  ⟨3, 3, .u32, .rws, 0, 0, .plain, .any⟩,
  ⟨4, 4, .u32, .rws, 1, 0, .plain, .atLeast 1⟩,
  ⟨5, 5, .bool, .rws, 0, 0, .plain, .any⟩,
  ⟨6, 6, .u8, .wo, 0, 0, .plain, .oneOf [1]⟩,
  ⟨7, 7, .u32, .ro, 0xFFFFFFFF, 0, .plain, .any⟩,
  ⟨8, 8, .u32, .ro, 0, 0, .plain, .any⟩,
  ⟨9, 9, .u64, .ro, 0, 0, .plain, .any⟩,
  ⟨10, 10, .u32, .ro, 0, 0, .plain, .any⟩]

/-- Rows of index 0x5040 (Table 14-10, R356). -/
def rows5040 : List ObjRow := [
  ⟨0, 0, .u8, .ro, 16, 0, .plain, .any⟩,
  ⟨1, 16, .octet128, .ro, 0, 0, .plain, .any⟩]

/-- Rows of index 0x5080 (Table 14-11, R356). -/
def rows5080 : List ObjRow := [
  ⟨0, 0, .u8, .ro, 1, 0, .plain, .any⟩,
  ⟨1, 1, .u32, .rw, 0, 0xbb400000, .plain, .any⟩]

/-- Rows of index 0x5081 (Table 14-11, R356). -/
def rows5081 : List ObjRow := [
  ⟨0, 0, .u8, .rw, 0, 0, .plain, .oneOf [0]⟩,
  ⟨1, 64, .u32, .ro, 0, 0, .plain, .any⟩]

/-- Rows of index 0x5082 (Table 14-11, R356). -/
def rows5082 : List ObjRow := [
  ⟨0, 0, .u8, .ro, 6, 0, .plain, .any⟩,
  ⟨1, 1, .u16, .ro, 0, 0, .plain, .any⟩,
  ⟨2, 2, .u32, .ro, 0, 0, .event, .any⟩,
  ⟨3, 3, .u8, .rw, 0, 0, .plain, .upTo 1⟩,
  ⟨4, 4, .u16, .rw, 0, 0, .plain, .upTo 1023⟩,
  ⟨5, 5, .octet128, .ro, 0, 0, .plain, .any⟩,
  ⟨6, 6, .octet128, .ro, 0, 0, .plain, .any⟩]

/-- Rows of index 0x5800 (Table 14-14, R356). -/
def rows5800 : List ObjRow := [
  ⟨0, 0, .u8, .ro, 9, 0, .plain, .any⟩,
  ⟨1, 1, .u8, .ro, 0, 0, .plain, .any⟩,
  ⟨2, 2, .u8, .ro, 0, 0, .plain, .upTo 3⟩,
  ⟨3, 3, .u64, .ro, 0, 0, .plain, .any⟩,
  ⟨4, 4, .u64, .ro, 0, 0, .plain, .any⟩,
  ⟨5, 5, .u64, .ro, 0, 0, .plain, .any⟩,
  ⟨6, 6, .u64, .ro, 0, 0, .stat, .any⟩,
  ⟨7, 7, .u32, .ro, 0, 0, .event, .any⟩,
  ⟨8, 8, .u32, .ro, 0, 0, .event, .any⟩,
  ⟨9, 9, .u32, .rw, 0, 0xc0000000, .plain, .any⟩]

/-- Rows of index 0x5C00 (Table 16-6, R402). -/
def rows5C00 : List ObjRow := [
  ⟨0, 0, .u8, .ro, 12, 0, .plain, .any⟩,
  ⟨1, 1, .u32, .rw, 0, 0x45a00000, .plain, .any⟩,
  ⟨2, 2, .u32, .ro, 0, 0, .plain, .any⟩,
  ⟨3, 3, .u32, .ro, 0, 0, .plain, .any⟩,
  ⟨4, 4, .u32, .ro, 0, 0, .plain, .any⟩,
  ⟨5, 5, .u32, .ro, 0, 0, .plain, .any⟩,
  ⟨6, 6, .u32, .ro, 0, 0, .plain, .any⟩,
  ⟨7, 7, .u8, .ro, 127, 0, .plain, .any⟩,
  ⟨8, 8, .u32, .ro, 0, 0, .event, .any⟩,
  ⟨9, 9, .u16, .ro, 270, 0, .plain, .any⟩,
  ⟨10, 10, .u32, .ro, 0, 0, .event, .any⟩,
  ⟨11, 11, .u32, .ro, 0, 0, .event, .any⟩,
  ⟨12, 12, .octet128, .ro, 0, 0, .plain, .any⟩]

/-- Rows of index 0x5C01 (Table 16-6, R402). -/
def rows5C01 : List ObjRow := [
  ⟨0, 0, .u8, .ro, 38, 0, .plain, .any⟩,
  ⟨1, 38, .u16, .ro, 0, 0, .plain, .any⟩]

/-- Rows of index 0x5C02 (Table 16-6, R402). -/
def rows5C02 : List ObjRow := [
  ⟨0, 0, .u8, .ro, 23, 0, .plain, .any⟩,
  ⟨1, 23, .u32, .ro, 0, 0, .plain, .any⟩]

/-- Rows of index 0x5C10 (Table 16-9, R402). -/
def rows5C10 : List ObjRow := [
  ⟨0, 0, .u8, .ro, 6, 0, .plain, .any⟩,
  ⟨1, 1, .u8, .wo, 0, 0, .plain, .oneOf [1]⟩,
  ⟨2, 2, .octet128, .ro, 0, 0, .plain, .any⟩,
  ⟨3, 3, .u16, .ro, 1000, 0, .plain, .any⟩,
  ⟨4, 4, .u32, .ro, 0xFFFFFFFF, 0, .plain, .any⟩,
  ⟨5, 5, .u32, .rw, 0, 0x56000000, .plain, .any⟩,
  ⟨6, 6, .u32, .ro, 0, 0, .event, .any⟩]

/-- Rows of index 0x5C11 (Table 16-9, R402). -/
def rows5C11 : List ObjRow := [
  ⟨0, 0, .u8, .ro, 8, 0, .plain, .any⟩,
  ⟨1, 1, .u32, .ro, 0, 0, .plain, .any⟩,
  ⟨2, 2, .u8, .ro, 0, 0, .plain, .any⟩,
  ⟨3, 3, .u8, .ro, 0, 0, .plain, .any⟩,
  ⟨4, 4, .u64, .ro, 0, 0, .stat, .any⟩,
  ⟨5, 5, .u8, .ro, 60, 0, .plain, .any⟩,
  ⟨6, 6, .u32, .ro, 0xFFFFFFFF, 0, .plain, .any⟩,
  ⟨7, 7, .u16, .ro, 0, 0, .plain, .any⟩,
  ⟨8, 8, .u16, .ro, 0xFFFF, 0, .plain, .any⟩]

/-- Rows of index 0x5F00 (Table 17-8, R424). -/
def rows5F00 : List ObjRow := [
  ⟨0, 0, .u8, .ro, 16, 0, .plain, .any⟩,
  ⟨1, 2, .u32, .ro, 0, 0, .plain, .any⟩,
  ⟨3, 3, .u8, .ro, 0, 0, .plain, .any⟩,
  ⟨4, 4, .u8, .ro, 0, 0, .plain, .any⟩,
  ⟨5, 5, .u8, .ro, 0, 0, .plain, .any⟩,
  ⟨16, 16, .domain, .wo, 0, 0, .plain, .any⟩]

/-- Rows of index 0x5F01 (Table 17-8, R424). -/
def rows5F01 : List ObjRow := [
  ⟨0, 0, .u8, .ro, 8, 0, .plain, .any⟩,
  ⟨1, 1, .u32, .rw, 0, 0, .plain, .mask 0xFFFF_FF00⟩,
  ⟨2, 2, .u32, .rw, 0, 0, .plain, .any⟩,
  ⟨3, 3, .u8, .wo, 0, 0, .plain, .within 1 4⟩,
  ⟨4, 4, .octet128, .rw, 0, 0, .plain, .any⟩,
  ⟨5, 5, .u32, .ro, 0, 0, .plain, .any⟩,
  ⟨6, 6, .u8, .rw, 0, 0, .plain, .upTo 1⟩,
  ⟨7, 7, .u32, .ro, 0, 0, .plain, .any⟩,
  ⟨8, 8, .u8, .ro, 255, 0, .plain, .any⟩]

/-- Rows of index 0x5F08 (Table 17-8, R424). -/
def rows5F08 : List ObjRow := [
  ⟨0, 0, .u8, .ro, 5, 0, .plain, .any⟩,
  ⟨1, 1, .u64, .ro, 0, 0, .plain, .any⟩,
  ⟨2, 2, .octet128, .wo, 0, 0, .plain, .any⟩,
  ⟨3, 3, .u8, .rw, 0, 0, .plain, .oneOf [0]⟩,
  ⟨4, 4, .u16, .ro, 0, 0, .plain, .any⟩,
  ⟨5, 5, .u32, .ro, 0, 0, .event, .any⟩]

/-- Part 1 of the object tables by base index. -/
def objTable1 : List (Nat × List ObjRow) := [
  (0x1000, rows1000),
  (0x1001, rows1001),
  (0x1003, rows1003),
  (0x1005, rows1005),
  (0x1008, rows1008),
  (0x1009, rows1009),
  (0x100A, rows100A),
  (0x1010, rows1010),
  (0x1011, rows1011),
  (0x1014, rows1014),
  (0x1015, rows1015),
  (0x1017, rows1017),
  (0x1018, rows1018),
  (0x2000, rows2000),
  (0x2002, rows2002),
  (0x2003, rows2003)]

/-- Part 2 of the object tables by base index. -/
def objTable2 : List (Nat × List ObjRow) := [
  (0x2010, rows2010),
  (0x2011, rows2011),
  (0x2100, rows2100),
  (0x2101, rows2101),
  (0x2200, rows2200),
  (0x2201, rows2201),
  (0x2202, rows2202),
  (0x2203, rows2203),
  (0x2204, rows2204),
  (0x2300, rows2300),
  (0x2310, rows2310),
  (0x2330, rows2330),
  (0x2331, rows2331),
  (0x2340, rows2340),
  (0x2400, rows2400),
  (0x2401, rows2401)]

/-- Part 3 of the object tables by base index. -/
def objTable3 : List (Nat × List ObjRow) := [
  (0x2410, rows2410),
  (0x2500, rows2500),
  (0x2800, rows2800),
  (0x2880, rows2880),
  (0x2881, rows2881),
  (0x2900, rows2900),
  (0x2901, rows2901),
  (0x2910, rows2910),
  (0x3000, rows3000),
  (0x3001, rows3001),
  (0x3002, rows3002),
  (0x3010, rows3010),
  (0x3020, rows3020),
  (0x3030, rows3030),
  (0x3040, rows3040),
  (0x3400, rows3400)]

/-- Part 4 of the object tables by base index. -/
def objTable4 : List (Nat × List ObjRow) := [
  (0x3800, rows3800),
  (0x4000, rows4000),
  (0x4100, rows4100),
  (0x4200, rows4200),
  (0x4800, rows4800),
  (0x4801, rows4801),
  (0x5000, rows5000),
  (0x5040, rows5040),
  (0x5080, rows5080),
  (0x5081, rows5081),
  (0x5082, rows5082),
  (0x5800, rows5800),
  (0x5C00, rows5C00),
  (0x5C01, rows5C01),
  (0x5C02, rows5C02),
  (0x5C10, rows5C10)]

/-- Part 5 of the object tables by base index. -/
def objTable5 : List (Nat × List ObjRow) := [
  (0x5C11, rows5C11),
  (0x5F00, rows5F00),
  (0x5F01, rows5F01),
  (0x5F08, rows5F08)]

/-- Every object table of the manual, by base index. -/
def objTable : List (Nat × List ObjRow) := objTable1 ++ objTable2 ++ objTable3 ++ objTable4 ++ objTable5

/-- The index whose table describes `i`: channel copies lie at + 0x100 × n, and one copy per stream, flow, port, link,
meter, slot, unit or die follows the index shown (17_dictionary.md R425). -/
def baseIndex (i : Nat) : Nat :=
  if 0x3000 ≤ i ∧ i < 0x3400 then
    let j := 0x3000 + i % 0x100
    if 0x3010 ≤ j ∧ j < 0x3020 then 0x3010
    else if 0x3020 ≤ j ∧ j < 0x3030 then 0x3020
    else if 0x3030 ≤ j ∧ j < 0x3040 then 0x3030
    else if 0x3040 ≤ j ∧ j < 0x3050 then 0x3040
    else j
  else if 0x3400 ≤ i ∧ i < 0x3410 then 0x3400
  else if 0x3800 ≤ i ∧ i < 0x3810 then 0x3800
  else if 0x4000 ≤ i ∧ i < 0x4100 then 0x4000
  else if 0x4100 ≤ i ∧ i < 0x4140 then 0x4100
  else if 0x4200 ≤ i ∧ i < 0x4204 then 0x4200
  else if 0x2310 ≤ i ∧ i < 0x2320 then 0x2310
  else if 0x2410 ≤ i ∧ i < 0x2414 then 0x2410
  else if 0x2901 ≤ i ∧ i < 0x2905 then 0x2901
  else if 0x2910 ≤ i ∧ i < 0x2920 then 0x2910
  else if 0x5000 ≤ i ∧ i < 0x5020 then 0x5000
  else if 0x5040 ≤ i ∧ i < 0x5060 then 0x5040
  else if 0x5800 ≤ i ∧ i < 0x5810 then 0x5800
  else if 0x5C11 ≤ i ∧ i < 0x5C14 then 0x5C11
  else if 0x5F01 ≤ i ∧ i < 0x5F05 then 0x5F01
  else i

/-- The rows of an index: none where no object table of the manual defines it. -/
def rowsOf (i : Nat) : List ObjRow :=
  match objTable.find? (fun p => p.1 == baseIndex i) with
  | some p => p.2
  | none => []

/-- CV7 alone may be configured: 0x5807:02 to 04 are RW (14_integrity.md R343, Table 14-14). -/
def accessFix (i sub : Nat) (r : ObjRow) : ObjRow :=
  if i = 0x5807 ∧ 2 ≤ sub ∧ sub ≤ 4 then { r with acc := .rw } else r

/-- The row of index:sub, if an object table defines it. -/
def rowOf (i sub : Nat) : Option ObjRow :=
  ((rowsOf i).find? (fun r => decide (r.lo ≤ sub ∧ sub ≤ r.hi))).map (accessFix i sub)

/-- The key of index:sub in a store. -/
abbrev key (i sub : Nat) : Nat := i * 256 + sub

/-- The code of a check-value unit (14_integrity.md Table 14-6). -/
def cvCode (i : Nat) : Nat := if i < 4 then 2 else if i = 7 then 0 else 1

/-- Defaults that depend on the number of the flow, or that another table gives: Table 9-5 for 01, 02 and 03, Table 8-11 for
14, and Table 14-6 for the use and code of a check-value unit. -/
def defaultFix (i sub : Nat) (d : Nat) : Nat :=
  if 0x4000 ≤ i ∧ i < 0x4100 then
    let f := i - 0x4000
    if sub = 1 then (if 248 ≤ f then 1 else 0)
    else if sub = 2 then (if f < 16 then f else 0xFF)
    else if sub = 3 then (if f < 16 then 0x0310 else if f < 248 then 0x0110
      else if f < 252 then 0x0210 else 0x0010)
    else if sub = 0x14 then 0x4D420000 + f
    else d
  else if 0x5800 ≤ i ∧ i < 0x5810 then
    if sub = 1 then i - 0x5800 else if sub = 2 then cvCode (i - 0x5800) else d
  else d

/-- The default of index:sub: the Default column of its object table. -/
def defaultOf (k : Nat) : Nat :=
  match rowOf (k / 256) (k % 256) with
  | some r => defaultFix (k / 256) (k % 256) r.dflt
  | none => 0

/-- Width in bits of a dictionary type; 0 for the two that carry any number of bytes. -/
def ObjType.bits : ObjType → Nat
  | .u8 => 8
  | .u16 => 16
  | .u32 => 32
  | .u64 => 64
  | .i8 => 8
  | .i16 => 16
  | .i32 => 32
  | .i64 => 64
  | .bool => 1
  | .octet128 => 128
  | .str => 0
  | .domain => 0

/-- Bytes of a value on the routes (17_dictionary.md R403). -/
def ObjType.bytes : ObjType → Nat
  | .bool => 1
  | t => t.bits / 8

/-- The two's complement value of an n-bit pattern. -/
def asSigned (n v : Nat) : Int := if v < 2 ^ (n - 1) then (v : Int) else (v : Int) - 2 ^ n

/-- Whether a value written is in the object's stated range; `bits` is the width of its type (R403, R8). -/
def Range.holds (bits : Nat) : Range → Nat → Bool
  | .any, _ => true
  | .upTo n, v => decide (v ≤ n)
  | .atLeast n, v => decide (n ≤ v)
  | .within lo hi, v => decide (lo ≤ v ∧ v ≤ hi)
  | .signed lo hi, v => decide (lo ≤ asSigned bits v ∧ asSigned bits v ≤ hi)
  | .oneOf l, v => l.contains v
  | .mask m, v => decide (v &&& m = v)
  | .multiple m, v => decide (v % m = 0)
  | .qpEntry, v => decide (v ≤ 115)
  | .field hi lo r, v => r.holds (hi + 1 - lo) ((v >>> lo) % 2 ^ (hi + 1 - lo))
  | .both a b, v => a.holds bits v && b.holds bits v
  | .either a b, v => a.holds bits v || b.holds bits v

/-- Whether two channels, streams ... share this index range as class B (the base die) in 17_dictionary.md Table 17-10. -/
def isClassB (i : Nat) : Bool :=
  decide (i < 0x2300 ∨ (0x5080 ≤ i ∧ i ≤ 0x5082) ∨ 0x5C00 ≤ i)

end Sys2Proof.Machine
end

