-- ==== Sys2Proof/Machine/State.lean ====
section
/-! DEFINITION. The state of the block as plain data, and the state right after power-on reset. INVENTORY.md lists every
field with the rule of spec/ that gives the machine that state. -/

namespace Sys2Proof.Machine

/-- Why the machine stops. -/
inductive Fault where
  /-- Raised by nobody: every condition the manual calls a fault has an effect on State there (safe). -/
  | neverRaised
  deriving DecidableEq, Repr

/-- Why a command has no meaning. -/
inductive Refusal where
  /-- A command whose arm has no meaning yet, by its mnemonic (safe). -/
  | notModelled (mnemonic : String)
  deriving DecidableEq, Repr

/-- The whole machine. Fields in the order of the manual's chapters. -/
structure State where
  now : Nat
  free : Nat
  pending : List Instr
  dict : DictState
  regs : Store
  overflow : List Nat
  emcy : EmcyState
  log : LogState
  lap : LapState
  disp : Pair DispState
  chans : Vector Channel 4
  streams : Vector Stream 16
  rois : Vector (Vector Rect 16) 4
  lanes : Pair (Vector Lane 64)
  links : Pair (Vector Link 16)
  input : Pair InputState
  phase : PhaseState
  ret : RetState
  mon : MonState
  ports : Vector Port 4
  bridge : Pair BridgeState
  flows : Vector Flow 256
  meters : Pair (Vector Meter 64)
  watch : WatchState
  counts : Pair (List UnitCount)
  time : TimeState
  dram : Pair DramState
  atu : Pair (Vector AtuContext 64)
  dma : Pair (Vector Dma 16)
  capture : CaptureState
  relay : RelayState
  baton : Pair BatonState
  selfTest : Pair SelfTestState
  standIns : Pair StandIns
  boot : Pair UnitBoot
  slots : Pair (Vector Slot 32)
  snaps : Vector (Option Slot) 32
  cv : Vector CvUnit 16
  rst : ResetState
  flash : FlashState
  ctrl : CtrlState
  stage : StageState
  sensors : SensorState
  planner : PlannerState
  can : CanState
  clients : Vector ClientSlot 9
  windows : Vector Window 4
  firmware : FirmwareState
  maint : MaintState
  pins : PinState
  deriving DecidableEq, Repr

/-! ## Cold-start values of the parts (15_reset.md Table 15-5) -/

def dictReset : DictState :=
  { master := [], shadowA := [], shadowB := [], applied := [], inUse := [], counted := [], group := none }

def emcyReset : EmcyState :=
  { queue := [], errors := [], lastAt := [], noteAt := [], sentAt := none, untilTick := [], lastRegister := 0, lastSent := [] }

def logReset : LogState := { records := [], unsaved := 0, savedAt := 0, previous := [] }

/-- Idle ticks every 15,000 cycles (15_reset.md R374). -/
def lapReset : LapState :=
  { count := 0, inPicture := 0, period := 0, lastTick := 0, nextTick := 15000, pictureStart := 0, pictureLen := 0,
    picture := 0, generation := 0, dropped := false, dropNext := false, droppedLast := false, stretch := 0, shift := false, captureTb0 := 0, captureTod := 0,
    voterHold := false, voterNoteAt := none }

def dispReset : DispState :=
  { tasks := [], queues := .replicate 12 [], running := .replicate 64 none, saved := .replicate 64 [], timers := [],
    heldFlags := [], jobs := .replicate 4 [], heldJobs := [] }

def chanReset : Channel :=
  { mode := .stopped, level := 0, costs := .replicate 5 (.replicate 5 0), slack := 0, startedAt := 0, verifyOn := true, spoiled := false,
    coders := 0, doneAt := none }

/-- Pacer before a first start (05_pacer.md Table 5-4, 15_reset.md Table 15-5). -/
def complexityReset : Complexity := { measured := [], lastSum := 0, lastSamples := 0, sum := 0, samples := 0, baton := 0 }

def pacerReset : PacerState :=
  { rate := 0, cpb := 0, cpbAu := 0, limit := 0, e := 0, releaseIndex := 0, releasedAt := 0, lastQp := 0, prevBudget := 0,
    prevShare := .replicate 4 0, credit := 0, cplxI := complexityReset, cplxP := complexityReset, rebuild := 0, cold := true,
    handed := false }

def mapReset : MapState := { mode := .none, front := none, back := [], size := 0, commitAt := 0, dropBack := false }

def searchReset : SearchState :=
  { reachH := 0, reachV := 0, hasWindow := false, due := .replicate 4 false, late := .replicate 4 false, spoiled := .replicate 4 false,
    asked := .replicate 4 [], owed := .replicate 4 [], ring := .replicate 4 [], wanted := .replicate 4 [], verAsked := .replicate 4 [], verRing := .replicate 4 [], blocks := [],
    finished := [], finishedPicture := 0, pending := [], globalA := none, globalB := none, history := false, refs := [] }

def pictureReset : PictureState :=
  { number := 0, poc := 0, irap := false, timestamp := 0, tod := 0, frames := 0, live := false, newPps := false, sinceBp := 0,
    e0 := none, tmvp := false, intra := false, opened := false, hash := false, starved := false, sao := true, refs := 0 }

def streamReset : Stream :=
  { active := false, mode := .single, level := 0, profile := 0, q := 0, pic := pictureReset, sinceIrap := 0,
    firstPicture := true, forceIrap := false, ppsPending := false, coding := none, flight := [], recent := [], supersede := [], pacer := pacerReset,
    map := mapReset, search := searchReset, tokenSeq := 0, tokenStore := [], hashNow := .replicate 3 0x1D0F, voidHash := [], scaled := [], ownFrom := none, shownFrom := 0, shown := none }

def rectReset : Rect := { pos := ⟨0, 0⟩, displacement := ⟨0, 0⟩, moves := [] }

def laneReset : Lane :=
  { mode := .down, los := false, lol := false, valid := 0, window := 0, slips := 0, scrambler := 0, wakeSeen := false,
    wakeAt := 0, slowExits := 0, lockLosses := 0, eye := 0, lockedTicks := 0, marker := none, markerAt := 0, prevMarker := none, prevAt := 0, equal := 0 }

def linkReset : Link :=
  { up := false, skew := 0, expLine := 0, expAlive := none, lastLine := none, skipped := [], picture := 0, descriptorOk := false }

def inputReset : InputState := { lines := [], banks := .replicate 3 none, lineFault := false }

def phaseReset : PhaseState :=
  { arrival := none, ahead := none, phi := 0, measured := false, integral := 0, pull := 0, carry := 0, settled := 0,
    cleanPictures := 0, fault := false, linkOf := none, firstStep := false }

def retReset : RetState :=
  { enabled := false, setting := .replicate 8 0, waitIrap := true, secondPath := false, nextSeq := none, reorder := [],
    gapAt := none, fuOpen := false, fuLost := false, sets := [], begun := false, sequence := 0, raslOff := false, closedTs := none,
    rates := .replicate 2 ⟨0, 0⟩, current := none, decoded := [], bumped := [], output := none, outputs := 0, lastClass := 0 }

def monReset : MonState :=
  { last := .off, lastId := none, lastSource := (0, 0), selected := none, grey := false, frame := none, alive := 0, sent := 0,
    scrambler := .replicate 8 0 }

def pathReset : PathState := { queue := [], startTag := 0, finishTag := 0, idle := true, credit := 0 }

def pcsReset : PortPcs := { locked := false, aligned := false }

/-- Transmit idle until a unit is active; the ceiling bucket of the factory limit record full (Table 15-5, R210). -/
def portReset : Port :=
  { up := false, fecLocked := false, lanes := 0, pcs := ⟨pcsReset, pcsReset⟩, txIdle := true, selected := none, bucket := 16384 * 2 ^ 24,
    busyUntil := 0, ceilHeld := false, receive := [], lastTx := none, wire := none, refused := [], vt := .replicate 4 0,
    roundPos := .replicate 4 0, creditMode := false, flows := 0 }

def bridgeReset : BridgeState := { learned := [], arp := [] }

/-- A flow after module reset: F248 to F255 are always enabled (09_flows.md R221); its count is that of a token reset "full" at burst `b`, the default of
0x4000:07 (R225). -/
def flowReset (always : Bool) (b : Nat) : Flow :=
  { queue := [], reserved := 0, tokens := b * 2 ^ 24, enabled := always, draining := false, refusing := false,
    carries := none, packets := 0, started := false, primary := pathReset, secondary := pathReset, highDepth := 0,
    highDelay := 0, lapsed := false }

/-- The automatic bursts of R224: 2 × 1,500 bytes on the timed flows, 2 packets on the others. -/
def flowsReset : Vector Flow 256 :=
  Vector.replicate 16 (flowReset false 3000) ++ Vector.replicate 232 (flowReset false 2) ++ Vector.replicate 8 (flowReset true 2)

/-- Buckets are full at module reset: the defaults of CBS and EBS (09_flows.md R234, Table 9-9). -/
def meterReset : Meter := { bucketC := 65536 * 2 ^ 24, bucketE := 131072 * 2 ^ 24 }

def watchReset : WatchState := { watch := true, cause := 1, firstPicture := true, openedAt := none, recovery := false }

/-- TB3 = TB0 = 0, FREE_RUN, TB1 from TB0 (10_time.md R243, 15_reset.md Table 15-5). -/
def timeReset : TimeState :=
  { tb3Start := 0, tb0 := 0, adj := 0, servo := .freeRun, integral := 0, recentAdj := [], delays := [], meanDelay := 0, offset := 0,
    bigSamples := 0, smallSamples := 0, stepSamples := 0, samples := 0, sync := none, request := none, seqId := 0,
    exchangeReady := none, requestAt := none, respLog := none, metadata := none, masters := .replicate 4 ⟨[], 0⟩, selected := none, grandmaster := 0,
    traceable := false, utcOffset := 37, holdoverAt := 0, lastSample := 0, genEdges := 0, genMisses := 0,
    genLocked := false, genExpected := none, genCounted := false, tb1Start := 0, tb1Period := 0, tb1Rest := 0, tb1Index := 0, groupStart := 0, second := 0,
    tb1Limited := false,
    stepPending := false }

def dramChannelReset : DramChannel :=
  { debt := 0, refreshed := 0, openRow := .replicate 16 none, hammer := .replicate 16 [], trained := false,
    recentre := 0, rate := 1, multiplier := 1, intervalAt := 0, refreshedAt := 0, eccCache := [] }

/-- Refresh debt 0, multiplier 1, row-hammer tables empty, nothing listed in memory (15_reset.md Table 15-5). -/
def dramReset : DramState :=
  { mem := [], undef := [], chan := .replicate 32 dramChannelReset, refresh := .active, refreshAt := 0, committedAt := 0,
    lastRequest := 0, maskZero := false, held := [], polledAt := 0, overRange := false, tempChanged := false, scrubStart := 0,
    scrubbing := false, scrubRaised := false, stall := .replicate 4 0, latchedAt := 0, driftAt := 0, recentredAt := 0, hammerWindow := 0,
    threshold := 2048, scrubRate := 0, dmaLast := 15 }

/-- A context that is disabled and owns no entry. -/
def contextReset : AtuContext := { enabled := false, first := 0, entries := [] }

/-- A loaded context: `n` pages of 1 GiB from usable address 0 on, each mapped to itself, in the entries from `first` on (12_translation_dma.md Table
12-1; log entry 68, DESIGN CHOICE of pages and entries). -/
def contextLoaded (first n : Nat) : AtuContext :=
  { enabled := true, first := first
    entries := (List.range n).map fun i => ⟨i * 1073741824, 1073741824, i * 1073741824, true, true, false⟩ }

/-- Contexts 14 and 15 loaded, all usable memory and segment 0, the others disabled (15_reset.md Table 15-5, 12_translation_dma.md Table 12-1). -/
def atuReset : Vector AtuContext 64 :=
  Vector.replicate 14 contextReset ++ #v[contextLoaded 0 56, contextLoaded 56 7] ++ Vector.replicate 48 contextReset

def dmaReset : Dma :=
  { mode := .idle, desc := none, descAddr := 0, pos := .replicate 3 0, bytePos := 0, bytesWritten := 0, faultAddr := 0,
    faultCtx := 0, faultSide := 0, cause := 0, doneCount := 0, owner := none, packetElems := 0, packetData := [], stalledAt := none,
    awaitLanded := false, status := 0, ctx := 0 }

def captureReset : CaptureState :=
  { mode := .idle, p := 0, q := 0, due := 0, trigPicture := 0, trigTb0 := 0, partialHeld := false,
    awaiting := false, timePending := false, slots := [], writing := none, nextSlot := 0, capacity := 0, slotBytes := 0, stride := 0,
    readouts := .replicate 4 { running := false, todo := [] } }

def relayReset : RelayState :=
  { mode := .starting, active := none, fault := none, latched := none, refusedNow := false, forced := false,
    planned := false, drainPictures := 0, switchTick := none, warmAt := none, holdOffAt := none, repair := .none, repairUnit := .b,
    repairDone := false, bootedAt := 0, dead := false, handoverAt := 0 }

def batonReset : BatonState :=
  { slots := .replicate 2 none, last := none, lastTick := 0, expected := none, written := false, misses := 0,
    mirror := [], mirrorAt := 0, report := none }

def selfTestReset : SelfTestState :=
  { stepFailed := false, passGood := false, lastPass := 0, late := 0, step := none, cycleAt := 0, covered := [], again := [], resetBy := 0 }

def standInsReset : StandIns := { tick := 0, built := [], failed := false }

def bootReset : UnitBoot := { mode := .inReset, bootedAt := 0, clockFault := false, railFault := false, tasks := [] }

/-- An empty slot (14_integrity.md R351). -/
def slotEmpty : Slot :=
  { min := 0xFFFFFFFF, max := 0, count := 0, bins := .replicate 64 0, underSeen := false, overSeen := false,
    binOverflow := false, absent := false }

/-- Power-on reset asserted, every domain in reset (15_reset.md Table 15-1, Table 15-4 row 10 ms). -/
def rstReset : ResetState :=
  { asserted := 1, assertedAt := .replicate 8 0, causes := 1, step := 0, stepAt := 0,
    releasing := false, releasedAt := 0, blocks := 0, blocksAt := 0, pendingClock := 0, bypass := false, clockRuns := 0,
    heldForever := false, limitChecked := false, waiting := none }

/-- Factory limit record: C 100,000 Mb/s, depth 16,384, F 1,522, 27.0 A (08_network.md Table 8-6, 14_integrity.md
Table 14-3); the port addresses are the model's choice (log entry 6). -/
def limitFactory : LimitRecord :=
  { crcOk := true, macs := #v[1, 2, 3, 4], ceilRate := .replicate 4 100000, ceilDepth := .replicate 4 16384,
    frameLimit := .replicate 4 1522, current := 270 }

/-- A flash as delivered: factory limit record, no saved dictionary, no session, both power-fail areas erased
(log entry 6). -/
def flashReset : FlashState :=
  { regions := .replicate 2 { header := none, reErased := false, blank := false }, limit := limitFactory, saved := .replicate 2 none,
    savedNewest := 0, savedVoid := true, saving := none, pulse := false, erasing := none, suspended := false,
    intents := [], areaErased := .replicate 2 true, areaNewest := 1, areaEraseAt := none, flushLog := [],
    flushBaton := none, pfRecord := none, logSaved := [], history := [], writing := .none, limitOpen := false, calibrationOk := true,
    equal := ⟨.replicate 64 none, .replicate 64 none⟩, netEqual := ⟨.replicate 16 none, .replicate 16 none⟩,
    training := ⟨.replicate 32 none, .replicate 32 none⟩ }

def ctrlReset : CtrlState := { mode := .inReset, restartAt := 0, lockUnit := false }

/-- The stage has started (the 12 V bus is up) and seven phases serve (16_power_ageing.md Table 16-6). -/
def stageReset : StageState :=
  { running := true, warn := none, warnAt := 0, stopped := false, stoppedAt := 0, criticalStop := false,
    hvToggled := true, phases := 0x7F, shortAt := none, railsRemoved := none, clampAt := none, alive := none,
    badFrames := 0, lost := false, flush := false, record := none }

def sensorsReset : SensorState := { warn := 0, fault := 0, critical := 0, sampledMs := 0 }

def dieReset : DieState :=
  { inUse := 0, target := 0, stepAt := none, noticed365 := false, noticed180 := false, noticeAt := none, worn := false,
    dutyEnded := false, floor := 1, lowRuns := 0, steps := 0, skipped := false }

def plannerReset : PlannerState := { hours := 0, lastEnd := none, dies := .replicate 3 dieReset }

/-- Node-ID 64, 500 and 2,000 kbit/s (17_dictionary.md Table 17-7); pre-operational after a reset (R408). -/
def canReset : CanState :=
  { nmt := .preOperational, nodeId := 64, nominal := 500, data := 2000, syncId := 0x80, emcyId := 0x80 + 64,
    busOff := false, heartbeatAt := 0, bootUps := 0, cobWritten := false, delayComp := true }

def clientReset : ClientSlot :=
  { source := none, port := 0, host := false, lastAt := 0, stamp := 0, lastReply := none, answer := none, busy := false, request := none, transfer := none,
    snapshot := none }

def windowReset : Window :=
  { mode := .closed, reason := 0, owner := none, target := 0, length := 0, pos := 0, content := [], lastAt := 0,
    check := false }

def firmwareReset : FirmwareState :=
  { mode := .idle, reason := 0, region := 0, window := none, eraseAt := 0, room := 65536, roomAt := 0, held := none, badWord := false }

def maintReset : MaintState :=
  { owner := none, lastWrite := 0, challenges := .replicate 9 none, failures := 0, blockUntil := none }

def pinsReset : PinState :=
  { syncOut := .replicate 4 false, syncWord := .replicate 4 0, syncFall := .replicate 4 0, pps := false, ppsFall := 0, iovHigh := false,
    trigStamp := .replicate 4 0 }

/-- The machine right after power-on reset: source 0 asserted, every domain in reset, no unit active. -/
def State.reset : State :=
  { now := 0, free := 0, pending := [], dict := dictReset, regs := [], overflow := [], emcy := emcyReset,
    log := logReset, lap := lapReset, disp := ⟨dispReset, dispReset⟩, chans := .replicate 4 chanReset,
    streams := .replicate 16 streamReset, rois := .replicate 4 (.replicate 16 rectReset),
    lanes := ⟨.replicate 64 laneReset, .replicate 64 laneReset⟩, links := ⟨.replicate 16 linkReset, .replicate 16 linkReset⟩,
    input := ⟨inputReset, inputReset⟩, phase := phaseReset, ret := retReset, mon := monReset,
    ports := .replicate 4 portReset, bridge := ⟨bridgeReset, bridgeReset⟩, flows := flowsReset, counts := ⟨[], []⟩,
    meters := ⟨.replicate 64 meterReset, .replicate 64 meterReset⟩, watch := watchReset, time := timeReset,
    dram := ⟨dramReset, dramReset⟩, atu := ⟨atuReset, atuReset⟩, dma := ⟨.replicate 16 dmaReset, .replicate 16 dmaReset⟩,
    capture := captureReset, relay := relayReset, baton := ⟨batonReset, batonReset⟩,
    selfTest := ⟨selfTestReset, selfTestReset⟩, standIns := ⟨standInsReset, standInsReset⟩, boot := ⟨bootReset, bootReset⟩,
    slots := ⟨.replicate 32 slotEmpty, .replicate 32 slotEmpty⟩, snaps := .replicate 32 none,
    cv := .replicate 16 { alive := none }, rst := rstReset, flash := flashReset, ctrl := ctrlReset, stage := stageReset,
    sensors := sensorsReset, planner := plannerReset, can := canReset, clients := .replicate 9 clientReset,
    windows := .replicate 4 windowReset, firmware := firmwareReset, maint := maintReset, pins := pinsReset }

end Sys2Proof.Machine
end

