-- ==== Sys2Proof/Machine/Ops.lean ====
section
/-! DEFINITION. The shared operations: sparse stores in canonical form, register words, counters and the overflow list
(14_integrity.md R346 to R348), the event log and EMCY (R353, R354; 17_dictionary.md R409, R422), configuration values
(R404), and plain accessors. Every meaning of a command is written over these. -/

namespace Sys2Proof.Machine

/-! ## Sparse lists: rising keys, no entry equal to what an unlisted key reads as -/

/-- The value at `k`: the entry listed, else what an unlisted key reads as. -/
def assocGet {α : Type} (d : Nat → α) : List (Nat × α) → Nat → α
  | [], k => d k
  | (j, x) :: t, k => if k = j then x else assocGet d t k

/-- The list with `v` at `k`; writing what an unlisted key reads as removes the entry. -/
def assocPut {α : Type} [DecidableEq α] (d : Nat → α) : List (Nat × α) → Nat → α → List (Nat × α)
  | [], k, v => if v = d k then [] else [(k, v)]
  | (j, x) :: t, k, v =>
    if k < j then (if v = d k then (j, x) :: t else (k, v) :: (j, x) :: t)
    else if k = j then (if v = d k then t else (k, v) :: t)
    else (j, x) :: assocPut d t k v

/-- The canonical form holds. -/
def assocWf {α : Type} [DecidableEq α] (d : Nat → α) : List (Nat × α) → Bool
  | [] => true
  | (j, x) :: t => decide (x ≠ d j) && t.all (fun p => decide (j < p.1)) && assocWf d t

/-! ## Vectors and pairs -/

/-- A vector with one element changed. -/
def vmod {α : Type} {n : Nat} (v : Vector α n) (i : Fin n) (f : α → α) : Vector α n :=
  v.set i.val (f v[i]) i.isLt

/-- A pair with one side changed. -/
def Pair.mod {α : Type} (p : Pair α) (u : UnitId) (f : α → α) : Pair α := p.set u (f (p.get u))

/-- An index taken modulo the size of a set. -/
def finOf (n : Nat) (h : 0 < n) (k : Nat) : Fin n := ⟨k % n, Nat.mod_lt k h⟩

/-! ## Cycles (00_scope.md R6: 1.5 GHz core cycles, 100 MHz reference cycles) -/

def cyclesPerRef : Nat := 15
def cyclesPerUs : Nat := 1500
def cyclesPerMs : Nat := 1500000
def cyclesPerSec : Nat := 1500000000

/-- TB3 in reference cycles since module reset (10_time.md R243). -/
def tb3Ref (s : State) : Nat := (s.now - s.time.tb3Start) / cyclesPerRef

/-- TB3 nanoseconds since module reset. -/
def tb3Ns (s : State) : Nat := tb3Ref s * 10

/-- TB0 as seconds, nanoseconds and 2⁻¹⁶ ns (10_time.md Table 10-2) from a count of 2⁻³² ns. -/
def timeValue (t : Nat) : Nat :=
  let ns := t / 2 ^ 32
  (ns / 1000000000) * 2 ^ 48 + (ns % 1000000000) * 2 ^ 16 + (t / 2 ^ 16) % 2 ^ 16

/-- TB0 now, as a time value. -/
def tb0Value (s : State) : Nat := timeValue s.time.tb0

/-- TB0, in 2⁻³² ns, at an instant in 1/256 core cycles, at the rate of the reference cycle in progress (10_time.md R243). -/
def tb0At (s : State) (t : Int) : Nat :=
  let ref : Int := (s.time.tb3Start + tb3Ref s * cyclesPerRef : Nat)
  ((s.time.tb0 : Int) + (t - ref * 256) * (10 * 2 ^ 32 + s.time.adj) / (256 * cyclesPerRef : Nat)).toNat

/-- TB0 at this core cycle. -/
def tb0Now (s : State) : Nat := tb0At s ((s.now : Int) * 256)

/-- A value kept within ±limit. -/
def bounded (limit v : Int) : Int := max (-limit) (min limit v)

/-- The TB0 replica of a unit, in 2⁻¹⁶ ns (10_time.md R244). -/
def replicaTb0 (s : State) (u : UnitId) : Int := (tb0Now s / 2 ^ 16 : Nat) + bounded 65536 (Config.replicaError u false)

/-- The TB3 replica of a unit in ns (10_time.md R244). -/
def replicaTb3 (s : State) (u : UnitId) : Nat := (((tb3Ns s * 65536 : Nat) : Int) + bounded 65536 (Config.replicaError u true)).toNat / 65536

def setDram (s : State) (u : UnitId) (f : DramState → DramState) : State := { s with dram := s.dram.mod u f }

/-- The longest stall of a channel's coder in the lap, of the unit. -/
def modStall (s : State) (u : UnitId) (c : Chan) (f : Nat → Nat) : State := setDram s u fun d => { d with stall := vmod d.stall c f }

/-! ## Register words: counters and status the module produces (17_dictionary.md R404) -/

/-- Width of the object at a key, in bits. -/
def widthOf (k : Nat) : Nat :=
  match rowOf (k / 256) (k % 256) with
  | some r => r.ty.bits
  | none => 64

def regGet (s : State) (k : Nat) : Nat := assocGet defaultOf s.regs k

/-- A register takes a value, cut to the object's width. -/
def regPut (s : State) (k v : Nat) : State :=
  { s with regs := assocPut defaultOf s.regs k (v % 2 ^ widthOf k) }

/-- Bit `b` of a status word. -/
def flag (s : State) (k b : Nat) : Bool := (regGet s k).testBit b

def setFlag (s : State) (k b : Nat) : State := regPut s k (regGet s k ||| 1 <<< b)

/-- The word `w` without the bits of `m`. -/
def maskOff (w m : Nat) : Nat := w ^^^ (w &&& m)

def clearFlag (s : State) (k b : Nat) : State := regPut s k (maskOff (regGet s k) (1 <<< b))

def putFlag (s : State) (k b : Nat) (v : Bool) : State := if v then setFlag s k b else clearFlag s k b

/-- A field [hi:lo] of a word replaced. -/
def insertField (w hi lo v : Nat) : Nat :=
  let m := (2 ^ (hi + 1 - lo) - 1) <<< lo
  maskOff w m ||| ((v <<< lo) &&& m)

/-- A field [hi:lo] of a word. -/
def fieldOf (w hi lo : Nat) : Nat := (w >>> lo) % 2 ^ (hi + 1 - lo)

def putField (s : State) (k hi lo v : Nat) : State := regPut s k (insertField (regGet s k) hi lo v)

/-! ## Counters (14_integrity.md R346, R348) -/

/-- Integrity status 0x5080:01 and its bits (14_integrity.md Table 14-13). -/
def kIntegrity : Nat := key 0x5080 1

/-- A counter's first saturation enters the overflow list; a full list sets LIST_FULL (R348). -/
def overflowEnter (s : State) (k part : Nat) : State :=
  if s.overflow.length < 64 then { s with overflow := s.overflow ++ [k * 256 + part * 64] }
  else setFlag s kIntegrity 22

/-- Whether the object is a number that wraps and is never flagged (14_integrity.md Table 14-7). -/
def wrapsAt (k : Nat) : Bool :=
  match rowOf (k / 256) (k % 256) with
  | some r => decide (r.cls = .wraps)
  | none => false

/-- A whole counter adds `n`: it stays at its largest value, and wraps where its object defines it so (Table 14-7). -/
def bumpBy (s : State) (k n : Nat) : State :=
  let v := regGet s k
  let top := 2 ^ widthOf k - 1
  if wrapsAt k then regPut s k (v + n)
  else if v + n < top then regPut s k (v + n)
  else if v < top then overflowEnter (regPut s k top) k 0
  else s

def bump (s : State) (k : Nat) : State := bumpBy s k 1

/-- One 16-bit half of a split counter adds 1 (part 1 the low half, part 2 the high half). -/
def bumpHalf (s : State) (k : Nat) (high : Bool) : State :=
  let lo := if high then 16 else 0
  let v := fieldOf (regGet s k) (lo + 15) lo
  if v + 1 < 0xFFFF then putField s k (lo + 15) lo (v + 1)
  else if v < 0xFFFF then overflowEnter (putField s k (lo + 15) lo 0xFFFF) k (if high then 2 else 1)
  else s

/-- A peak-since-read word keeps the largest value. -/
def regMax (s : State) (k v : Nat) : State := regPut s k (max (regGet s k) v)

/-! ## Configuration values (17_dictionary.md R404, 02_lap.md R52) -/

/-- The master copy of a written value. -/
def written (s : State) (k : Nat) : Nat := assocGet defaultOf s.dict.master k

/-- RWL objects whose tables say that they take effect at the next channel start, by index: streams, Pacers, search and verdict objects,
the transport, source and queue size of a flow, and the configuration of the lap, the input, the links, TB1 and TB2 and the ring
(03_streams.md Table 3-12, 05_pacer.md Table 5-8, 04_prediction.md Table 4-8, 06_decoders.md Table 6-7, 08_network.md Table 8-11,
09_flows.md Table 9-5, 02_lap.md Table 2-7, 07_sensor_lanes.md Tables 7-9, 7-10, 10_time.md R263, 12_translation_dma.md Table 12-9). -/
def streamWaits (i : Nat) : Bool :=
  decide ((0x3400 ≤ i ∧ i < 0x3410) ∨ (0x3800 ≤ i ∧ i < 0x3810)) ||
    (decide (0x3000 ≤ i ∧ i < 0x3400) && (decide (0x10 ≤ i % 256 ∧ i % 256 < 0x20) || decide (0x30 ≤ i % 256 ∧ i % 256 < 0x40)))

def flowWaits (i sub : Nat) : Bool := decide (0x4000 ≤ i ∧ i < 0x4100 ∧ (sub = 2 ∨ sub = 8 ∨ 0x11 ≤ sub))

def moduleWaits (i sub : Nat) : Bool :=
  decide ((i = 0x2500 ∧ sub < 6) ∨ (i = 0x2300 ∧ (sub < 5 ∨ 0x0C ≤ sub)) ∨ (0x2310 ≤ i ∧ i < 0x2320 ∧ sub < 7) ∨ (i = 0x2203 ∧ sub < 6) ∨
    (i = 0x2900 ∧ sub = 1))

def waitsForStart (i sub : Nat) : Bool := streamWaits i || flowWaits i sub || moduleWaits i sub

/-- The value of a configuration object in effect: what the last channel start took of an object that waits for one, else the master copy. -/
def cfg (s : State) (k : Nat) : Nat :=
  if waitsForStart (k / 256) (k % 256) then assocGet defaultOf s.dict.inUse k else written s k

/-- The state with every written value in effect. -/
def asWritten (s : State) : State := { s with dict := { s.dict with inUse := s.dict.master } }

/-- An object whose written value waits takes it. -/
def takeWritten (s : State) (k : Nat) : State :=
  { s with dict := { s.dict with inUse := assocPut defaultOf s.dict.inUse k (written s k) } }

/-- The applied value of an RWS or RWP object. -/
def applied (s : State) (k : Nat) : Nat := assocGet defaultOf s.dict.applied k

/-- A value is committed to the master copy and to the shadows of the units present (R405). -/
def commitValue (s : State) (k v : Nat) (toA toB : Bool) : State :=
  { s with dict := { s.dict with
      master := assocPut defaultOf s.dict.master k v
      shadowA := if toA then assocPut defaultOf s.dict.shadowA k v else s.dict.shadowA
      shadowB := if toB then assocPut defaultOf s.dict.shadowB k v else s.dict.shadowB } }

/-- A value of an RWS or RWP object is applied (02_lap.md R52). -/
def applyValue (s : State) (k v : Nat) : State :=
  { s with dict := { s.dict with applied := assocPut defaultOf s.dict.applied k v } }

/-! ## Units -/

/-- The standby: the other unit of the active one. -/
def standbyOf (s : State) : Option UnitId := s.relay.active.map UnitId.other

/-- The unit whose view the objects give: the active unit, Unit A while none is. -/
def viewUnit (s : State) : UnitId := s.relay.active.getD .a

/-- The UNIT bit of base-die records: the active unit (14_integrity.md Table 14-9). -/
def unitBit (s : State) : Nat := (viewUnit s).bit

/-- Whether a unit is in reset or without rails, so that no mirrored write reaches it (17_dictionary.md R405). -/
def unitPresent (s : State) (u : UnitId) : Bool :=
  match (s.boot.get u).mode with
  | .booted => !(decide (s.relay.repairUnit = u) && (match s.relay.repair with | .none => false | _ => true))
  | _ => false

/-- Whether some channel runs, starts or stops: no channel reads stopped (03_streams.md R82). -/
def chanBusy (c : Channel) : Bool :=
  match c.mode with
  | .stopped => false
  | .refused => false
  | _ => true

def anyChannelBusy (s : State) : Bool := s.chans.toList.any chanBusy

def chanRunning (c : Channel) : Bool :=
  match c.mode with
  | .running => true
  | .stopping => true
  | _ => false

def anyChannelRunning (s : State) : Bool := s.chans.toList.any chanRunning

/-- The module controller serves the dictionary (01_module.md R19). -/
def dictAnswers (s : State) : Bool := decide (s.ctrl.mode = .running)

/-! ## Streams, flows and their configuration (03_streams.md, 09_flows.md) -/

def kStream (n : StreamId) (sub : Nat) : Nat := key (0x3400 + n.val) sub
def kPacer (n : StreamId) (sub : Nat) : Nat := key (0x3800 + n.val) sub
def kChan (c : Chan) (idx sub : Nat) : Nat := key (idx + 0x100 * c.val) sub
def kFlow (f : FlowId) (sub : Nat) : Nat := key (0x4000 + f.val) sub
def kPort (p : PortId) (sub : Nat) : Nat := key (0x2410 + p.val) sub
def kSched (p : PortId) (sub : Nat) : Nat := key (0x4200 + p.val) sub
def kLink (l : LinkId) (sub : Nat) : Nat := key (0x2310 + l.val) sub
def kDma (d : DmaId) (sub : Nat) : Nat := key (0x2910 + d.val) sub
def kCv (i : CvId) (sub : Nat) : Nat := key (0x5800 + i.val) sub
def kSlot (m : SlotId) (sub : Nat) : Nat := key (0x5000 + m.val) sub
def kDie (d : DieId) (sub : Nat) : Nat := key (0x5C11 + d.val) sub
def kMeter (m : MeterId) (sub : Nat) : Nat := key (0x4100 + m.val) sub
def kReadout (r : ReadoutId) (sub : Nat) : Nat := key (0x2901 + r.val) sub
def kWin (w : WinId) (sub : Nat) : Nat := key (0x5F01 + w.val) sub

/-- A check-value unit ends a record: its result and count; a mismatch with the expected value is counted (14_integrity.md R342 to R344). -/
def cvEnd (s : State) (i : CvId) (result : Nat) (good : Bool) : State :=
  let t := bump (regPut s (kCv i 5) result) (kCv i 6)
  if good then t else setFlag (bump t (kCv i 7)) (kCv i 9) 31

/-- An accepted record's alive field is not the expected one (R344). -/
def cvGap (s : State) (i : CvId) : State := setFlag (bump s (kCv i 8)) (kCv i 9) 30

/-- Both buckets full, as a write to a meter object and module reset leave them (09_flows.md R234). -/
def meterFull (s : State) (m : MeterId) : Meter :=
  { bucketC := cfg s (kMeter m 6) * 2 ^ 24, bucketE := cfg s (kMeter m 7) * 2 ^ 24 }

/-- Every meter full. -/
def metersFull (s : State) : Vector Meter 64 := (Vector.range 64).map fun i => meterFull s (finOf 64 (by decide) i)

/-- Stream s is enabled (0x3400 + s:01). -/
def streamEnabled (s : State) (n : StreamId) : Bool := decide (cfg s (kStream n 1) = 1)

/-- The channel mask of a stream (03_streams.md R64). -/
def streamMask (s : State) (n : StreamId) : Nat := cfg s (kStream n 3)

/-- The lead channel: the lowest-numbered channel of the mask (03_streams.md R64). -/
def leadOf (mask : Nat) : Chan :=
  if mask.testBit 0 then 0 else if mask.testBit 1 then 1 else if mask.testBit 2 then 2 else 3

def leadChan (s : State) (n : StreamId) : Chan := leadOf (streamMask s n)

/-- Whether channel c carries stream n. -/
def carries (s : State) (c : Chan) (n : StreamId) : Bool := streamEnabled s n && (streamMask s n).testBit c.val

def allStreams : List StreamId := (List.range 16).map (finOf 16 (by decide))
def allChans : List Chan := [0, 1, 2, 3]
def allPorts : List PortId := [0, 1, 2, 3]
def allFlows : List FlowId := (List.range 256).map (finOf 256 (by decide))
def allLinks : List LinkId := (List.range 16).map (finOf 16 (by decide))
def allLanes : List LaneId := (List.range 64).map (finOf 64 (by decide))
def allSlots : List SlotId := (List.range 32).map (finOf 32 (by decide))

/-- Apply an action to each element of a list in order. -/
def forEach {α : Type} (l : List α) (f : State → α → State) (s : State) : State := l.foldl f s

/-- Fast timing (02_lap.md R33): 0x2500:05 is 1. -/
def fastTiming (s : State) : Bool := decide (cfg s (key 0x2500 5) = 1)

/-! ## Event log and EMCY (14_integrity.md R353, R354; 17_dictionary.md R409, R422) -/

/-- The log takes a record; the oldest of 1,024 is overwritten and counted in 0x5082:02 (R353). -/
def logPush (s : State) (r : LogRecord) : State :=
  let full := decide (1024 ≤ s.log.records.length)
  let s1 := if full then bump s (key 0x5082 2) else s
  { s1 with log := { s1.log with
      records := (r :: s1.log.records).take 1024
      unsaved := min 1024 (s1.log.unsaved + 1) } }

/-- Source, level and error-register bit of a code (17_dictionary.md Table 17-4). -/
def emcyRow (code : Nat) : Nat × Nat × Nat :=
  match code with
  | 0x1000 => (1, 2, 0)
  | 0x2100 => (6, 2, 1)
  | 0x3100 => (4, 2, 2)
  | 0x3200 => (5, 2, 2)
  | 0x4201 => (7, 1, 3)
  | 0x4202 => (8, 2, 3)
  | 0x5000 => (2, 2, 7)
  | 0x5001 => (3, 2, 7)
  | 0x5010 => (9, 2, 7)
  | 0x5011 => (10, 2, 7)
  | 0x5012 => (11, 2, 7)
  | 0x5013 => (12, 2, 7)
  | 0x5014 => (14, 2, 7)
  | 0x6100 => (13, 2, 7)
  | 0x6000 => (27, 1, 7)
  | 0x6200 => (28, 1, 7)
  | 0x6300 => (26, 2, 7)
  | 0x6301 => (33, 1, 7)
  | 0x8110 => (34, 1, 4)
  | 0x8140 => (32, 1, 4)
  | 0x9000 => (19, 2, 7)
  | 0x9001 => (20, 2, 7)
  | 0x9002 => (21, 2, 7)
  | 0x9003 => (22, 1, 7)
  | 0xFF01 => (15, 2, 7)
  | 0xFF02 => (16, 2, 7)
  | 0xFF03 => (17, 1, 7)
  | 0xFF04 => (18, 2, 7)
  | 0xFF05 => (23, 2, 7)
  | 0xFF06 => (24, 2, 7)
  | 0xFF07 => (25, 1, 7)
  | 0xFF08 => (29, 1, 7)
  | 0xFF09 => (30, 2, 7)
  | 0xFF0A => (31, 1, 7)
  | 0xFF0B => (35, 2, 7)
  | _ => (0, 0, 0)

/-- The status bits that hold an error-register bit, by code (17_dictionary.md Table 17-4, Held while). -/
def emcyHeld (s : State) (code : Nat) : Bool :=
  match code with
  | 0x2100 => flag s (key 0x5C00 1) 24
  | 0x3100 => flag s (key 0x5C00 1) 30
  | 0x3200 => flag s (key 0x5C00 1) 26 || flag s (key 0x5C00 1) 23
  | 0x4201 => flag s (key 0x5C00 1) 22
  | 0x4202 => flag s kIntegrity 24
  | 0x5000 => flag s kIntegrity 31
  | 0x5001 => flag s kIntegrity 27
  | 0x5010 => allChans.any fun c => flag s (kChan c 0x3002 0x0A) 30
  | 0x5011 => decide (fieldOf (regGet s (key 0x2500 9)) 20 16 ≠ 0)
  | 0x5012 => flag s (key 0x2800 0x10) 29 || flag s (key 0x4800 0x0A) 27 ||
      allChans.any fun c => flag s (kChan c 0x3002 0x0A) 28
  | 0x5014 => flag s (key 0x2300 8) 25
  | 0x6100 => flag s kIntegrity 25
  | 0x6000 => flag s (key 0x2100 2) 27
  | 0x6200 => flag s (key 0x2500 0x0E) 29
  | 0x6300 => flag s kIntegrity 30
  | 0x6301 => flag s (key 0x2100 2) 24
  | 0x8110 => flag s (key 0x2002 8) 29
  | 0x8140 => flag s (key 0x2002 8) 31
  | 0x9000 => flag s (key 0x2300 8) 26
  | 0x9001 => flag s (key 0x2300 8) 27
  | 0x9002 => flag s (key 0x2300 8) 30
  | 0x9003 => flag s (key 0x2200 6) 29
  | 0xFF01 => flag s (key 0x2010 8) 28
  | 0xFF02 => flag s (key 0x2010 8) 30
  | 0xFF03 => flag s (key 0x2010 8) 29 || flag s (key 0x2010 8) 26
  | 0xFF04 => flag s kIntegrity 26
  | 0xFF05 => allStreams.any fun n => flag s (kPacer n 0x12) 26
  | 0xFF06 => allFlows.any fun f => flag s (kFlow f 0x0A) 21
  | 0xFF07 => allPorts.any fun p => flag s (kSched p 6) 30
  | 0xFF08 => flag s (key 0x2200 6) 26
  | 0xFF09 => flag s (key 0x2900 8) 28
  | 0xFF0A => flag s (key 0x5C10 5) 30
  | c => s.emcy.untilTick.contains c

def emcyCodes : List Nat :=
  [0x1000, 0x2100, 0x3100, 0x3200, 0x4201, 0x4202, 0x5000, 0x5001, 0x5010, 0x5011, 0x5012, 0x5013, 0x5014, 0x6100,
   0x6000, 0x6200, 0x6300, 0x6301, 0x8110, 0x8140, 0x9000] ++
  [0x9001, 0x9002, 0x9003, 0xFF01, 0xFF02, 0xFF03, 0xFF04, 0xFF05, 0xFF06, 0xFF07, 0xFF08, 0xFF09, 0xFF0A, 0xFF0B]

/-- The error register 0x1001: each named bit, together with bit 0, while its status bit is set (R422). -/
def errorRegister (s : State) : Nat :=
  emcyCodes.foldl (fun r c => if emcyHeld s c then r ||| 1 ||| 1 <<< (emcyRow c).2.2 else r) 0

/-- A message enters the EMCY queue: 15 places, and the kept place for one 0x8110 (17_dictionary.md R409). -/
def emcyEnqueue (s : State) (e : Emcy) : State :=
  let used := (s.emcy.queue.filter fun x => x.code ≠ 0x8110).length
  let note : Emcy := ⟨0x8110, 34, 1, e.unit, key 0x2002 8 * 256⟩
  if used < 15 then { s with emcy := { s.emcy with queue := s.emcy.queue ++ [e] } }
  else
    let s1 := setFlag s (key 0x2002 8) 29
    if s.emcy.queue.any fun x => x.code == 0x8110 then s1
    else
      let s2 : State := { s1 with emcy := { s1.emcy with
        queue := s1.emcy.queue ++ [note]
        errors := ((34 * 65536 + 0x8110) :: s1.emcy.errors).take 16 } }
      logPush s2 ⟨tb0Value s, tb3Ns s, 0x8110, 34, 1, e.unit, true, 0, note.detail⟩

/-- An EMCY is raised: logged, entered in the error list and queued (R354, R422). -/
def emcyPost (s : State) (code level unit detail : Nat) : State :=
  let src := (emcyRow code).1
  let s1 := logPush s ⟨tb0Value s, tb3Ns s, code, src, level, unit, false, 0, detail⟩
  let s2 : State := { s1 with emcy := { s1.emcy with
    errors := ((src * 65536 + code) :: s1.emcy.errors).take 16
    lastAt := assocPut (fun _ => 0) s1.emcy.lastAt code (s.now + 1)
    untilTick := if code = 0x1000 ∨ code = 0x5013 ∨ code = 0xFF0B then code :: s1.emcy.untilTick else s1.emcy.untilTick
    lastRegister := 1 } }
  emcyEnqueue s2 ⟨code, src, level, unit, detail⟩

/-- The newest log record of a code counts one more event of it, saturating at 65,535 (Table 14-9 REPEAT). -/
def logRepeat (code : Nat) : List LogRecord → List LogRecord
  | [] => []
  | r :: t => if r.code = code then { r with rep := min 0xFFFF (r.rep + 1) } :: t else r :: logRepeat code t

/-- The codes whose rules limit their EMCYs per picture or per loss, in place of the 100 ms (R354; R125, R176, R183, R245). -/
def ownLimit (code : Nat) : Bool := code == 0x9001 || code == 0x9002 || code == 0x9003 || code == 0xFF05

/-- An event with its EMCY: within 100 ms of the code's last EMCY it only counts in that record's REPEAT (R354). -/
def raiseEmcyWith (s : State) (code level unit detail : Nat) : State :=
  let last := assocGet (fun _ => 0) s.emcy.lastAt code
  if 0 < last ∧ s.now < last - 1 + 100 * cyclesPerMs ∧ ownLimit code = false then
    { s with log := { s.log with records := logRepeat code s.log.records } }
  else emcyPost s code level unit detail

/-- An EMCY at its table level, of the active unit; `k` and `inst` form DETAIL (Table 14-9). -/
def raiseEmcy (s : State) (code k inst : Nat) : State :=
  raiseEmcyWith s code (emcyRow code).2.1 (unitBit s) (k * 256 + inst)

/-- An EMCY of unit `u`. -/
def raiseEmcyOf (s : State) (u : UnitId) (code k inst : Nat) : State :=
  raiseEmcyWith s code (emcyRow code).2.1 u.bit (k * 256 + inst)

/-- A count joins a unit's counts. -/
def addCount (k : Nat) (half : Option Bool) (n : Nat) : List UnitCount → List UnitCount
  | [] => [⟨k, half, n⟩]
  | c :: t => if c.key = k ∧ c.half = half then { c with n := c.n + n } :: t else c :: addCount k half n t

/-- A unit's count for a counter of Tables 8-9, 9-5 and 9-7; the module controller adds it at the next tick (08_network.md R201, 09_flows.md R231). A
frame that both units receive is counted by the unit that acts on it (log entry 63, DEDUCED). -/
def countUnit (s : State) (k : Nat) (half : Option Bool) (n : Nat) : State :=
  { s with counts := s.counts.mod (viewUnit s) (addCount k half n) }

def countPort (s : State) (p : PortId) (sub n : Nat) : State := countUnit s (kPort p sub) none n

/-- One count enters its counter; each half of a counter of two saturates. -/
def enterCount (s : State) (c : UnitCount) : State :=
  match c.half with
  | none => bumpBy s c.key c.n
  | some h => forEach (List.range c.n) (fun x _ => bumpHalf x c.key h) s

/-- At a lap tick both units' counts enter the counters. -/
def addUnitCounts (s : State) : State := forEach (s.counts.a ++ s.counts.b) enterCount { s with counts := ⟨[], []⟩ }

/-- A note of the log: it raises no EMCY (R354). -/
def logNote (s : State) (source k inst : Nat) : State :=
  logPush s ⟨tb0Value s, tb3Ns s, 0, source, 0, unitBit s, true, 0, k * 256 + inst⟩

/-- A note at most once per second per source (R354). -/
def logNoteLimited (s : State) (source k inst : Nat) : State :=
  let last := assocGet (fun _ => 0) s.emcy.noteAt source
  if 0 < last ∧ s.now < last - 1 + cyclesPerSec then s
  else
    let s1 := logNote s source k inst
    { s1 with emcy := { s1.emcy with noteAt := assocPut (fun _ => 0) s1.emcy.noteAt source (s.now + 1) } }

/-- When the error register returns to 0 the module sends EMCY 0x0000 (R422). -/
def settleRegister (s : State) : State :=
  let r := errorRegister s
  let s1 := if r = 0 ∧ s.emcy.lastRegister ≠ 0 then emcyEnqueue s ⟨0, 0, 0, unitBit s, 0⟩ else s
  { s1 with emcy := { s1.emcy with lastRegister := r } }

/-! ## Free values (log entry 4) -/

/-- The next free value of `w` bits. -/
def freeWord (s : State) (w : Nat) : Nat := (Config.freeValue w s.free).toNat

/-- The counter of free values advances. -/
def drawFree (s : State) : State := { s with free := s.free + 1 }

/-! ## FAULT_N and the relay pins (14_integrity.md R355, 01_module.md R21) -/

/-- FAULT_N: none while high-impedance (it reads high), else whether it is driven low (R355, R363). -/
def faultN (s : State) : Option Bool :=
  if s.rst.heldForever then some true
  else if !s.rst.limitChecked then none
  else some (decide ((regGet s kIntegrity) &&& 0xFC200000 ≠ 0))

/-- RELAY_A and RELAY_B: asserted while that unit is active (R21). -/
def relayPin (s : State) (u : UnitId) : Bool := decide (s.relay.active = some u)

/-! ## Outcomes -/

/-- Shorthand: the next state. -/
abbrev Out := Host.Outcome State Fault Refusal

end Sys2Proof.Machine
end

