-- ==== Sys2Proof/Machine/Shared.lean ====
section
/-! DEFINITION. Operations several families share: serving a client's write (17_dictionary.md R403 to R411), monitor
samples (14_integrity.md R349 to R352), reporting a unit fault and entering repair (13_relay.md R318, R319, R330), the
power-fail warning (16_power_ageing.md R388, R389), putting a unit into its cold-start state (15_reset.md Table 15-5). -/

namespace Sys2Proof.Machine

/-! ## Clients of the dictionary -/

/-- Whether client k's request reaches the dictionary: the controller runs, the CAN FD node of slot 0 is neither stopped
nor bus-off, and the recovery loader answers only CAN FD requests for the identity and firmware objects
(17_dictionary.md R408, R418; 15_reset.md R372). -/
def serves (s : State) (k : Client) (i : Nat) : Bool :=
  let node := !(decide (k = 0)) || (!s.can.busOff && decide (s.can.nmt ≠ .stopped) && decide (s.can.nmt ≠ .initialisation))
  match s.ctrl.mode with
  | .running => node
  | .recovery => decide (k = 0) && node && (decide (0x1000 ≤ i ∧ i ≤ 0x1018) || decide (i = 0x2000) ||
      decide (0x5F00 ≤ i ∧ i ≤ 0x5F08))
  | _ => false

/-- Host rights: slot 0 and every datagram client whose access entry has HOST set (R411). -/
def hostRights (s : State) (k : Client) : Bool := decide (k = 0) || s.clients[k].host

/-- Why a client may not write an index at all: a client without host rights writes only 0x3000 to 0x5EFF (R411), and
no write is taken under a power-fail warning (16_power_ageing.md R389). -/
def writeGate (s : State) (k : Client) (i : Nat) : Option Abort :=
  if !hostRights s k && !decide (0x3000 ≤ i ∧ i ≤ 0x5EFF) then some .unsupportedAccess
  else if s.stage.warn.isSome then some .cannotStore
  else none

/-- Client k is answered. -/
def answer (s : State) (k : Client) (a : Answer) : State :=
  { s with clients := vmod s.clients k fun c => { c with answer := some a } }

/-- Client k has made a request now; a write of the unlocking client restarts the 600 s of R420. -/
def touchClient (s : State) (k : Client) : State :=
  { s with
    clients := vmod s.clients k fun c => { c with lastAt := s.now }
    maint := if s.maint.owner = some k then { s.maint with lastWrite := s.now } else s.maint }

/-- Client k has read now. -/
def touchRead (s : State) (k : Client) : State :=
  { s with clients := vmod s.clients k fun c => { c with lastAt := s.now } }

/-- Serve client k's write of index i: refused requests change nothing but the answer (R403). -/
def serveWrite (s : State) (k : Client) (i : Nat) (f : State → Except Abort State) : State :=
  if serves s k i then
    match writeGate s k i with
    | some a => answer s k (.abort a)
    | none =>
      match f (touchClient s k) with
      | .ok t => answer t k .ack
      | .error a => answer s k (.abort a)
  else s

/-- Serve a write whose refusal also leaves a trace in the objects (a REASON field). -/
def serveTrace (s : State) (k : Client) (i : Nat) (f : State → State × Option Abort) : State :=
  if serves s k i then
    match writeGate s k i with
    | some a => answer s k (.abort a)
    | none =>
      let r := f (touchClient s k)
      match r.2 with
      | none => answer r.1 k .ack
      | some a => answer r.1 k (.abort a)
  else s

/-- Whether client k holds maintenance unlock (R419). -/
def unlocked (s : State) (k : Client) : Bool := decide (s.maint.owner = some k)

/-! ## Monitor samples -/

/-- The bin of x = v - base (14_integrity.md R350). -/
def log2Bin (x : Nat) : Nat :=
  if x < 2 then x
  else
    let k := Nat.log2 x
    if 3 * 2 ^ (k - 1) ≤ x then 2 * k + 1 else 2 * k

def binOf (logBins : Bool) (base width v : Nat) : Nat :=
  if v < base then 0
  else if logBins then min 63 (log2Bin (v - base))
  else min 63 ((v - base) / max 1 width)

/-- One sample into a slot record (14_integrity.md R350). -/
def slotSample (logBins : Bool) (base width v : Nat) (r : Slot) : Slot :=
  let b := finOf 64 (by decide) (binOf logBins base width v)
  { r with
    min := Nat.min r.min v
    max := Nat.max r.max v
    count := Nat.min (r.count + 1) (2 ^ 64 - 1)
    bins := vmod r.bins b fun x => Nat.min (x + 1) 0xFFFFFFFF
    underSeen := r.underSeen || decide (v < base)
    overSeen := r.overSeen || (!logBins && decide (base ≤ v) && decide (63 < (v - base) / Nat.max 1 width))
    binOverflow := r.binOverflow || decide (0xFFFFFFFE ≤ r.bins[b]) }

/-- Sources 7, 8 and 9 are sampled in both units, the others in the active unit only (14_integrity.md R352). -/
def sampledIn (s : State) (u : UnitId) (source : Nat) : Bool :=
  decide (s.relay.active = some u) || decide (7 ≤ source ∧ source ≤ 9)

/-- Whether slot m is enabled and bound to this source and instance. -/
def slotBound (s : State) (m : SlotId) (source inst : Nat) : Bool :=
  decide (applied s (kSlot m 5) = 1) && decide (applied s (kSlot m 1) = source * 2 ^ 24 + inst)

/-- What a sample event leaves in unit u's record of a slot bound to it: a unit that does not sample the source sets
SOURCE_ABSENT (R349, R352). -/
def slotEvent (s : State) (u : UnitId) (source v : Nat) (m : SlotId) (r : Slot) : Slot :=
  if sampledIn s u source then
    slotSample (decide (applied s (kSlot m 2) = 1)) (applied s (kSlot m 3)) (applied s (kSlot m 4)) v { r with absent := false }
  else { r with absent := true }

/-- A sample of a source and instance in unit u goes to every enabled slot bound to it (R349); for a source that the standby does
not sample, its record of the slot is marked absent (R352). -/
def monitorSample (s : State) (u : UnitId) (source inst v : Nat) : State :=
  let record := fun (w : UnitId) (records : Vector Slot 32) => records.mapFinIdx fun i r hi =>
    if slotBound s ⟨i, hi⟩ source inst then slotEvent s w source v ⟨i, hi⟩ r else r
  let mine := s.slots.mod u (record u)
  { s with slots := if sampledIn s u.other source then mine else mine.mod u.other (record u.other) }

/-- A sample in both units. -/
def monitorBoth (s : State) (source inst v : Nat) : State :=
  monitorSample (monitorSample s .a source inst v) .b source inst v

/-- A signed sample is encoded as its value + 0x8000_0000 (R349). -/
def signedSample (v : Int) : Nat := (max 0 (v + 0x80000000)).toNat % 2 ^ 32

/-! ## Cold start of a unit (15_reset.md Table 15-5) -/

/-- A stored word counts only where its CRC-32C holds (01_module.md R24). -/
def goodWord (w : Option StoredWord) : Option Nat :=
  match w with
  | some x => if x.crcOk then some x.value else none
  | none => none

/-- The lane receivers of a unit start their equalisation from the last-good values of the flash, else from the factory values
(07_sensor_lanes.md R162); a lane that its link does not use stays disabled (R165). -/
def freshLanes (s : State) (u : UnitId) : Vector Lane 64 :=
  Vector.ofFn fun n => { laneReset with
    mode := if (s.lanes.get u)[n].mode = .disabled then .disabled else .down
    equal := (goodWord ((s.flash.equal.get u)[n])).getD (Config.factoryEqual u n) }

/-- What a reset of a unit leaves of its parts; its DRAM contents are undefined afterwards (log entry 4). -/
def unitCold (s : State) (u : UnitId) : State :=
  { s with
    disp := s.disp.set u dispReset
    lanes := s.lanes.set u (freshLanes s u)
    links := s.links.set u (.replicate 16 linkReset)
    input := s.input.set u inputReset
    bridge := s.bridge.set u bridgeReset
    meters := s.meters.set u (metersFull s)
    dram := s.dram.set u { dramReset with
      undef := [(0, 60129542144, s.free)]
      chan := (s.dram.get u).chan.map fun c => { dramChannelReset with trained := c.trained } }
    atu := s.atu.set u atuReset
    dma := s.dma.set u (.replicate 16 dmaReset)
    baton := s.baton.set u batonReset
    selfTest := s.selfTest.set u selfTestReset
    standIns := s.standIns.set u standInsReset
    slots := s.slots.set u (.replicate 32 slotEmpty)
    ports := s.ports.map fun p => { p with pcs := p.pcs.set u pcsReset }
    free := s.free + 1 }

/-! ## Unit faults and repair (13_relay.md R318, R319, R330) -/

def kRelayStatus : Nat := key 0x2010 8

/-- Reset source 6 holds unit u in reset (15_reset.md Table 15-1). -/
def assertSource (s : State) (c : Nat) : State :=
  { s with rst := { s.rst with
      asserted := s.rst.asserted ||| BitVec.ofNat 8 (1 <<< c)
      assertedAt := s.rst.assertedAt.set (c % 8) s.now (Nat.mod_lt _ (by decide)) } }

/-- A stopped channel, its clock gated, is reset on the bypass clock: BYPASS_SEEN (15_reset.md R361). -/
def noteBypass (s : State) : State :=
  if s.chans.toList.any fun c => decide (c.mode = .stopped) then setFlag s (key 0x2100 2) 30 else s

/-- The standby ceases to be ready between two ticks: 0x2010:08 [31] falls, and PROTECTED and REVERT_PENDING are left (13_relay.md R309, Table 13-1). -/
def loseReady (s : State) : State :=
  let t := clearFlag s kRelayStatus 31
  { t with relay := { t.relay with
      mode := match t.relay.mode with
        | .standbyReady => .exposed
        | .revertPending => .exposed
        | m => m
      holdOffAt := if t.relay.mode = .revertPending then none else t.relay.holdOffAt } }

/-- A unit enters repair: held in unit reset for 10 ms (R330), a new attempt of the series is counted in 0x2010:0E. -/
def startRepair (s : State) (u : UnitId) : State :=
  let s1 := unitCold (loseReady (assertSource s 6)) u
  let s2 := noteBypass (regPut s1 (key 0x2010 0x0E) (regGet s1 (key 0x2010 0x0E) + 1))
  { s2 with
    relay := { s2.relay with
      repair := .inReset s.now
      repairUnit := u
      repairDone := false
      holdOffAt := none
      mode := match s2.relay.mode with
        | .lockedOut => .lockedOut
        | .failed => .failed
        | .starting => .starting
        | _ => .repairing }
    boot := s2.boot.mod u fun b => { b with mode := .inReset } }

/-- A unit not already in repair starts a new series of attempts. -/
def enterRepair (s : State) (u : UnitId) : State :=
  let busy := decide (s.relay.repair ≠ .none) && decide (s.relay.repairUnit = u)
  if busy || decide (s.relay.mode = .failed) then s
  else startRepair (regPut s (key 0x2010 0x0E) 0) u

/-- A planned switch in DRAINING or WARMING is abandoned and the goals restored (R326, R327). -/
def dropSwitch (s : State) : State :=
  { s with relay := { s.relay with
      planned := false
      drainPictures := 0
      switchTick := none
      warmAt := none
      mode := match s.relay.mode with
        | .draining => .standbyReady
        | .warming => .standbyReady
        | m => m } }

/-- A fault is reported for unit u: a unit fault of the active unit waits for the arbiter, a fault of the other unit is a
standby fault and puts it into repair; in WARMING that abandons the switch (R318, R319, R327). -/
def reportUnitFault (s : State) (u : UnitId) (source : Nat) : State :=
  if s.relay.active = some u then
    { s with relay := { s.relay with fault := s.relay.fault <|> some source } }
  else
    let s1 := if s.relay.mode = .warming then setFlag (dropSwitch s) kRelayStatus 26 else s
    let s2 := if s.relay.mode = .warming then raiseEmcy s1 0xFF03 kRelayStatus 0 else s1
    enterRepair s2 u

/-- Whether the standby is ready by the last evaluation (13_relay.md R309, 0x2010:08 [31]). -/
def standbyIsReady (s : State) : Bool := flag s kRelayStatus 31

/-! ## Maintenance unlock, firmware window (17_dictionary.md R418, R420) -/

/-- A window is closed with a state and a reason (Table 17-8). -/
def closeWindow (s : State) (w : WinId) (mode : WinMode) (reason : Nat) : State :=
  { s with windows := vmod s.windows w fun x =>
      { x with mode := mode, reason := reason, owner := none, content := [], check := false } }

/-- The firmware window is abandoned and the region's header erased (R418). -/
def abandonFirmware (s : State) : State :=
  match s.firmware.window with
  | none => s
  | some w =>
    let s1 := closeWindow s w .closed 0
    { s1 with
      firmware := { s1.firmware with mode := .idle, window := none, held := none, badWord := false, room := 65536 }
      flash := { s1.flash with
        erasing := none
        regions := vmod s1.flash.regions s1.firmware.region fun r => { r with header := none, blank := true } } }

/-- The state and its cause are shown by every port (Table 9-8). -/
def showWatch (s : State) (cause : Fin 4) : State :=
  forEach allPorts (fun x p => putField x (kSched p 6) 29 27 ((if cause = 0 then 0 else 4) + cause.val))
    { s with watch := { s.watch with watch := decide (cause ≠ 0), cause := cause } }

/-- Whether a cause of watch still holds (R236). -/
def watchHolds (s : State) (cause : Fin 4) : Bool :=
  match cause with
  | 0 => false
  | 1 => s.watch.firstPicture
  | 2 => s.maint.owner.isSome
  | 3 => s.watch.recovery

/-- Watch lasts while any cause holds; where the one shown has passed, the next that holds is shown. Recovery ends when no
stream is rebuilding (R236). -/
def watchTick (s : State) : State :=
  if ¬ s.watch.watch then s
  else
    let t : State := { s with watch := { s.watch with
      recovery := s.watch.recovery && allStreams.any fun n => flag s (kPacer n 0x12) 27 } }
    if watchHolds t t.watch.cause then t
    else showWatch t (([1, 2, 3].find? (watchHolds t)).getD 0)

/-- The unlock ends: every verification enable returns to 1 at the next tick, an open firmware window is abandoned, and so does a cause of watch
(R418, R420; 09_flows.md R236). -/
def endUnlock (s : State) : State :=
  match s.maint.owner with
  | none => s
  | some _ =>
    watchTick (abandonFirmware { s with
      maint := { s.maint with owner := none }
      ctrl := { s.ctrl with lockUnit := true } })

/-! ## Controller restart (01_module.md R19) -/

/-- The mean of the last 64 values of adj (10_time.md Table 10-4). -/
def meanAdj (t : TimeState) : Int :=
  if t.recentAdj.isEmpty then t.adj else t.recentAdj.sum / (t.recentAdj.length : Int)

/-- HOLDOVER is entered: adj is held at the mean of its last 64 values, TRACEABLE is clear and the time in HOLDOVER begins
at 0 (R251, R254, Table 10-7). A servo that is in HOLDOVER stays in it. -/
def enterHoldover (s : State) : State :=
  if s.time.servo = .holdover then s
  else clearFlag { regPut s (key 0x2200 0x0E) 0 with time := { s.time with
    servo := .holdover
    adj := meanAdj s.time
    holdoverAt := s.now } } (key 0x2200 6) 31

/-- The controller restarts alone: the dictionary answers nothing, unacknowledged writes are lost, the unlock ends, the
servo goes to HOLDOVER (R19, R420; 10_time.md R260; 15_reset.md Table 15-1 code 4). -/
def restartController (s : State) : State :=
  let s1 := endUnlock s
  assertSource (enterHoldover { s1 with
    ctrl := { s1.ctrl with mode := .restarting, restartAt := s.now }
    clients := s1.clients.map fun c => { c with transfer := none, snapshot := none, busy := false, request := none }
    flash := { s1.flash with saving := none }
    maint := { s1.maint with challenges := .replicate 9 none } }) 4

/-! ## Power -/

/-- The last complete baton of a unit. -/
def lastBaton (b : BatonState) : Option Baton := b.last.bind fun i => b.slots.get i

/-- The rate that the devices of a unit request: the largest of its channels' (11_dram.md R269). -/
def deviceRate (d : DramState) : Nat := (d.chan.toList.map fun c => c.rate).foldl max 1

/-- A sensor or a unit's DRAM is above its warning limit (16_power_ageing.md Table 16-4). -/
def thermalWarning (s : State) : Bool := decide (s.sensors.warn ≠ 0) || decide (1 < deviceRate s.dram.a ∨ 1 < deviceRate s.dram.b)

/-- A power fault sets POWER_FAULT (14_integrity.md Table 14-13). -/
def powerFault (s : State) : State := setFlag s kIntegrity 28

def kStage : Nat := key 0x5C00 1

/-- The planner's die of a unit. -/
def dieOf (u : UnitId) : DieId := match u with | .a => 0 | .b => 1

/-- The pulse or erase in progress when the flash must be left (15_reset.md R367, R368): an erase is suspended. -/
def suspendErase (s : State) : State :=
  { s with flash := { s.flash with
      suspended := s.flash.suspended || s.flash.erasing.isSome || s.flash.areaEraseAt.isSome } }

/-- What the base die does from a warning on: POWER_FAIL_SEEN, log record and EMCY, a planner run abandoned, an erase
suspended, the flush begun where an erased area exists (16_power_ageing.md R389, R390). -/
def warnActions (s : State) (cause : Fin 8) : State :=
  let s1 := raiseEmcy (bump (setFlag (setFlag s kStage 31) kStage 30) (key 0x5C00 0x0B)) 0x3100 kStage cause.val
  let s2 := if flag s1 (key 0x5C10 5) 31 then
    setFlag (clearFlag { s1 with planner := { s1.planner with lastEnd := some s.now } } (key 0x5C10 5) 31) (key 0x5C10 5) 28 else s1
  let other : Fin 2 := 1 - s2.flash.areaNewest
  let ready := s2.flash.areaErased.get other && s2.flash.areaEraseAt.isNone
  let r : PfRecord := { seconds := s2.time.tb0 / 2 ^ 32 / 1000000000, vin := regGet s2 (key 0x5C00 2) % 65536,
                        hold := regGet s2 (key 0x5C00 5) / 10, cause := cause.val, flushed := false, skipped := !ready,
                        returned := false, flushTime := 0, logRecords := 0 }
  suspendErase { s2 with
    stage := { s2.stage with
      warn := some cause
      warnAt := s.now
      flush := ready
      record := some r }
    flash := if ready then s2.flash else { s2.flash with pfRecord := some r } }

/-- A power-fail warning of the stage: for causes 1, 3, 4 and 7 HOLD takes the load (R388); a warning already in force is
not raised again, but one of lost telemetry (cause 6) gives way to one that stops the stage. -/
def powerFailWarning (s : State) (cause : Fin 8) : State :=
  if s.stage.warn.any fun c => decide (c.val ≠ 6 ∨ cause.val = 6) then s
  else
    let s1 := warnActions s cause
    let hold := decide (cause.val = 1 ∨ cause.val = 3 ∨ cause.val = 4 ∨ cause.val = 7)
    let s2 := if hold then setFlag s1 kStage 29 else s1
    { s2 with stage := { s2.stage with criticalStop := s2.stage.criticalStop || decide (cause.val = 5) } }

end Sys2Proof.Machine
end

