-- ==== Sys2Proof/Machine/Operands.lean ====
section
/-! DEFINITION. Quantities that the meanings read from the configuration: picture and lap periods (02_lap.md R29, R35;
10_time.md R247), the ports, class, shaper and queue of a flow (09_flows.md R215 to R224), signed words. -/

namespace Sys2Proof.Machine

/-- a / b rounded up. -/
def ceilDiv (a b : Nat) : Nat := (a + b - 1) / b

/-- A signed object value. -/
def cfgSigned (s : State) (k : Nat) : Int := asSigned (widthOf k) (cfg s k)

/-- A signed value into a register, two's complement (00_scope.md R9). -/
def putSigned (s : State) (k : Nat) (v : Int) : State := regPut s k (v % (2 : Int) ^ widthOf k).toNat

/-! ## Periods -/

/-- Nominal TB1 period in 1/256 core cycles: den / num seconds (10_time.md R245). -/
def tb1Nominal (s : State) : Nat :=
  256 * cyclesPerSec * cfg s (key 0x2203 3) / max 1 (cfg s (key 0x2203 2))

/-- M and K of 0x2203:04 (R247). -/
def ratioM (s : State) : Nat := max 1 (fieldOf (cfg s (key 0x2203 4)) 31 16)
def ratioK (s : State) : Nat := max 1 (fieldOf (cfg s (key 0x2203 4)) 15 0)

/-- Numerator and denominator of the nominal TB2 picture period in core cycles: K × P1 / M (R247). -/
def pictureNum (s : State) : Nat := cyclesPerSec * cfg s (key 0x2203 3) * ratioK s
def pictureDen (s : State) : Nat := max 1 (cfg s (key 0x2203 2)) * ratioM s

/-- Nominal TB2 picture period in 1/256 core cycles. -/
def pictureNominal (s : State) : Nat := 256 * pictureNum s / pictureDen s

/-- TB2 is pulled to the sensor (07_sensor_lanes.md R182). -/
def pulled (s : State) : Bool := decide (cfg s (key 0x2300 4) = 1)

/-- The most a lap may differ from nominal: 500 ppm while TB2 is pulled, else 50 ppm (R35, R246). -/
def lapPpm (s : State) : Nat := if pulled s then 500 else 50

/-- Laps per picture as the time core counts them: at least 1. -/
def lapsOf (s : State) : Nat := max 1 (cfg s (key 0x2500 2))

/-- L_min: the shortest lap, rounded down to a whole cycle (R35). -/
def lapMin (s : State) : Nat :=
  pictureNum s * (1000000 - lapPpm s) / (pictureDen s * lapsOf s * 1000000)

/-- The longest lap, rounded up to a whole cycle (05_pacer.md R129). -/
def lapMax (s : State) : Nat :=
  ceilDiv (pictureNum s * (1000000 + lapPpm s)) (pictureDen s * lapsOf s * 1000000)

/-! ## Flows -/

/-- F0 to F15 are timed (09_flows.md Table 9-1). -/
def isTimed (f : FlowId) : Bool := decide (f.val < 16)

/-- F248 to F255: the endpoint and bridged flows of the ports. -/
def isFixed (f : FlowId) : Bool := decide (248 ≤ f.val)

/-- The endpoint flow and the bridged flow of a port (08_network.md R199). -/
def endpointFlow (p : PortId) : FlowId := finOf 256 (by decide) (248 + p.val)
def bridgedFlow (p : PortId) : FlowId := finOf 256 (by decide) (252 + p.val)

/-- A flow's primary port (0x4000:11). -/
def flowPrimary (s : State) (f : FlowId) : PortId :=
  if isFixed f then finOf 4 (by decide) f.val else finOf 4 (by decide) (fieldOf (cfg s (kFlow f 0x11)) 15 8)

/-- A flow's secondary port, none where 0xFF (R206). -/
def flowSecondary (s : State) (f : FlowId) : Option PortId :=
  let w := fieldOf (cfg s (kFlow f 0x11)) 7 0
  if isFixed f then none
  else if w < 4 ∧ w ≠ (flowPrimary s f).val then some (finOf 4 (by decide) w)
  else none

/-- The flow has a path on the port. -/
def usesPort (s : State) (f : FlowId) (p : PortId) : Bool :=
  decide (flowPrimary s f = p) || decide (flowSecondary s f = some p)

/-- The payload format, packet size limit and overhead of a flow. -/
def flowFormat (s : State) (f : FlowId) : Nat := cfg s (kFlow f 0x1C)
def flowLimit (s : State) (f : FlowId) : Nat := cfg s (kFlow f 0x1B)
def flowOverhead (s : State) (f : FlowId) : Nat := applied s (kFlow f 6)
def flowTagged (s : State) (f : FlowId) : Bool := (cfg s (kFlow f 0x1A)).testBit 16

/-- The RTP payload limit P (R202). -/
def flowPayload (s : State) (f : FlowId) : Nat := flowLimit s f - 40

/-- Frame bytes of a datagram of n bytes of RTP payload: 78 less preamble and gap, 4 more where tagged (R196). -/
def mediaFrame (s : State) (f : FlowId) (n : Nat) : Nat := n + 58 + if flowTagged s f then 4 else 0

/-- Class and weight of a flow (0x4000:03). -/
def flowClass (s : State) (f : FlowId) : Nat := fieldOf (applied s (kFlow f 3)) 11 8
def flowWeight (s : State) (f : FlowId) : Nat := max 1 (fieldOf (applied s (kFlow f 3)) 7 0)

/-- The written rate: R of the stream the flow carries, else 0x4000:04 (R226). -/
def flowRate (s : State) (f : FlowId) : Nat :=
  match s.flows[f].carries with
  | some n => s.streams[n].pacer.rate
  | none => applied s (kFlow f 4)

/-- The increment k per reference cycle (R223): bits/s for a timed flow, packets/s otherwise; at most 2³² - 1. -/
def flowIncrement (s : State) (f : FlowId) : Nat :=
  min (2 ^ 32 - 1) (if isTimed f then ceilDiv (flowRate s f * 2 ^ 24) (8 * 10 ^ 8) else ceilDiv (flowRate s f * 2 ^ 24) (10 ^ 8))

/-- The burst B: automatic where 0 or where the flow carries a stream (R224, R226). -/
def flowBurst (s : State) (f : FlowId) : Nat :=
  let b := applied s (kFlow f 5)
  if b = 0 ∨ s.flows[f].carries.isSome then (if isTimed f then 2 * flowLimit s f else 2) else b

/-- The cap of the 48-bit count. -/
def burstCount (s : State) (f : FlowId) : Nat := flowBurst s f * 2 ^ 24

/-- The shaper rate in use that k gives, in the written unit, 0x4000:09 (R223). -/
def rateInUse (s : State) (f : FlowId) : Nat :=
  flowIncrement s f * 10 ^ 8 * (if isTimed f then 8 else 1) / 2 ^ 24

/-- The count after n reference cycles; held at the burst while unshaped (R223). -/
def fillCount (s : State) (f : FlowId) (count n : Nat) : Nat :=
  if flowRate s f = 0 then burstCount s f else min (burstCount s f) (count + n * flowIncrement s f)

/-- The coded-output space of a stream: 0x3800:0D or the automatic figure (05_pacer.md R129). -/
def streamSpace (s : State) (n : StreamId) : Nat :=
  let c := cfg s (kPacer n 0x0D)
  let p := s.streams[n].pacer
  if c ≠ 0 then c else ceilDiv (2 * p.limit * cyclesPerSec + 2 * p.rate * lapMax s) (8 * cyclesPerSec)

/-- Size of a flow queue (R218). -/
def queueSize (s : State) (f : FlowId) : Nat :=
  match s.flows[f].carries with
  | some n => streamSpace s n
  | none =>
    if 252 ≤ f.val then 16384
    else
      let c := cfg s (kFlow f 8)
      if c = 0 then 131072 else c

/-- Bytes a packet holds of its queue: byte-stream bytes in a stream's flow, frame bytes in the others. -/
def heldBytes (fl : Flow) (p : Packet) : Nat := if fl.carries.isSome then p.charge else p.frame

/-- Bytes that a queue still has to transmit. -/
def queueBytes (fl : Flow) : Nat := (fl.queue.map (heldBytes fl)).sum

/-- A packet of a stripe. -/
def isPacketOf (n : StreamId) (k : Stripe) (p : Packet) : Bool :=
  match p.kind with
  | .media m due => decide (m = n ∧ due = k.due)
  | _ => false

/-- Byte-stream bytes of slices that a packet carries. -/
def sliceShare (p : Packet) : Nat :=
  match p.payload with
  | .single u => if u.ty < 32 then p.charge else 0
  | .aggregate l => ((l.filter fun u => decide (u.ty < 32)).map fun u => u.size + 4).sum
  | .fragment u _ _ => if u.ty < 32 then p.charge else 0
  | _ => 0

/-- Bytes of a released stripe's slices that have left the queue and that verification has not read yet (06_decoders.md R133); a withheld stripe
was never written to it (05_pacer.md R125). -/
def stripeRetained (fl : Flow) (n : StreamId) (k : Stripe) : Nat :=
  if k.released && !k.judged && !k.withheld then
    (k.slices.map fun l => l.bytes + 4).sum - ((fl.queue.filter (isPacketOf n k)).map sliceShare).sum
  else 0

def retainedBytes (s : State) (fl : Flow) : Nat :=
  match fl.carries with
  | some n => (s.streams[n].flight.map (stripeRetained fl n)).sum
  | none => 0

/-- Depth: the bytes held, to be transmitted or to be verified, reservations excluded (R219, R236). -/
def flowDepth (s : State) (fl : Flow) : Nat := queueBytes fl + retainedBytes s fl

/-- Free space: the size less the bytes held and the reservations (R219). -/
def freeSpace (s : State) (f : FlowId) : Nat := queueSize s f - flowDepth s s.flows[f] - s.flows[f].reserved

/-- The timed flow whose 0x4000:02 names the stream (R216). -/
def flowOf (s : State) (n : StreamId) : Option FlowId :=
  (allFlows.take 16).find? fun f => decide (cfg s (kFlow f 2) = n.val) && decide (applied s (kFlow f 1) = 1)

/-- The flow that carries the stream now. -/
def carrierOf (s : State) (n : StreamId) : Option FlowId :=
  (allFlows.take 16).find? fun f => decide (s.flows[f].carries = some n) && !s.flows[f].lapsed

/-- The integrity flow of a stream: 0x3030:02 of its lead channel's copy (06_decoders.md R159). -/
def kVerify (c : Chan) (n : StreamId) (sub : Nat) : Nat := key (0x3030 + n.val + 0x100 * c.val) sub

def integrityFlow (s : State) (n : StreamId) : Option FlowId :=
  let w := cfg s (kVerify (leadChan s n) n 2)
  if w < 256 then some (finOf 256 (by decide) w) else none

/-- Vouch-then-release (0x3030:01). -/
def vouchFirst (s : State) (n : StreamId) : Bool := decide (cfg s (kVerify (leadChan s n) n 1) = 1)

/-- Chroma format and bit depth of the input (07_sensor_lanes.md Table 7-9). -/
def inputChroma (s : State) : Nat := cfg s (key 0x2300 1)
def inputDepth (s : State) : Nat := cfg s (key 0x2300 2)

/-- A port can carry frames: link up and enabled (08_network.md R189, R207). -/
def portServes (s : State) (p : PortId) : Bool := s.ports[p].up && decide (cfg s (kPort p 1) = 1)

/-- Cycles a frame of n bytes takes at 100 Gb/s, preamble and gap included. -/
def lineCycles (n : Nat) : Nat := ceilDiv ((n + 20) * 3) 25

/-- The port rate: the lower of 100,000 Mb/s and C (R212). -/
def portRate (s : State) (p : PortId) : Nat := min 100000 (s.flash.limit.ceilRate.get p)

/-- The tick just taken opened a picture. -/
def atStart (s : State) : Bool := decide (0 < s.lap.period ∧ s.lap.inPicture = 0)

/-- The picture of the stripe whose window closes at the tick just taken. -/
def lineTickPicture (s : State) : Nat := if atStart s then s.lap.picture - 1 else s.lap.picture

end Sys2Proof.Machine
end

