-- ==== Sys2Proof/Machine/Wire.lean ====
section
/-! DEFINITION. The frames that the module originates, byte by byte up to their payload: destination addresses, Ethernet, IPv4, UDP, RTP and
payload headers (08_network.md R195, R196, R202, R203, R205; 06_decoders.md R144). -/

namespace Sys2Proof.Machine

/-! ## Destinations (R195) -/

/-- The MAC address of an IPv4 multicast group (RFC 1112). -/
def groupMac (ip : Nat) : Nat := 0x01005E000000 + ip % 2 ^ 23

def isMulticastIp (ip : Nat) : Bool := decide (0xE0000000 ≤ ip ∧ ip < 0xF0000000)

def destinationOf (s : State) (f : FlowId) (second : Bool) : Nat :=
  fieldOf (cfg s (kFlow f 0x15)) (if second then 63 else 31) (if second then 32 else 0)

/-- Whose MAC a destination needs: its own within the port's prefix, else the gateway's. -/
def arpTarget (s : State) (p : PortId) (ip : Nat) : Nat :=
  let len := cfg s (kPort p 7)
  if ip >>> (32 - len) = cfg s (kPort p 6) >>> (32 - len) then ip else cfg s (kPort p 8)

/-- The MAC that an IPv4 destination resolves to on a port, none while it is unresolved. -/
def resolveMac (s : State) (p : PortId) (ip : Nat) : Option Nat :=
  if isMulticastIp ip then some (groupMac ip)
  else ((s.bridge.get (viewUnit s)).arp.find? fun e => decide (e.port = p) && decide (e.ip = arpTarget s p ip)).bind fun e => e.mac

/-- The destination MAC of a path: the written one, or the one its destination resolves to. -/
def pathMac (s : State) (f : FlowId) (p : PortId) (second : Bool) : Option Nat :=
  let mac := fieldOf (cfg s (kFlow f 0x12)) (if second then 111 else 47) (if second then 64 else 0)
  if mac ≠ 0 then some mac else resolveMac s p (destinationOf s f second)

/-- The destination of a packet on a path is known: its own, or the flow's; a bridged frame carries its own. -/
def reachable (s : State) (f : FlowId) (p : PortId) (second : Bool) (pk : Packet) : Bool :=
  match pk.dest with
  | some d => d.mac.isSome || (resolveMac s p d.ip).isSome
  | none => isFixed f || (pathMac s f p second).isSome

/-- A path's destination is known. An endpoint's datagram without one waits with the task that sends it, outside the flow that carries the ARP
requests for it (log entry 75, DESIGN CHOICE); a bridged frame carries its own. -/
def resolved (s : State) (f : FlowId) (p : PortId) (second : Bool) : Bool :=
  if isFixed f then decide (252 ≤ f.val) || (s.ports[p].refused).all (reachable s f p second) else (pathMac s f p second).isSome

/-! ## Headers, in network byte order (Table 8-2) -/

def beBytes (n v : Nat) : List Byte := (leBytes n v).reverse

/-- Destination and source MAC, the 802.1Q tag where the flow has one, the EtherType. -/
def etherHeader (s : State) (f : FlowId) (dst src etherType : Nat) : List Byte :=
  beBytes 6 dst ++ beBytes 6 src ++ (if flowTagged s f then beBytes 2 0x8100 ++ beBytes 2 (cfg s (kFlow f 0x1A) % 0x10000) else []) ++
    beBytes 2 etherType

/-- The one's complement sum of 16-bit words, carries folded in. -/
def onesSum (l : List Nat) : Nat :=
  let a := l.sum % 65536 + l.sum / 65536
  a % 65536 + a / 65536

/-- The IPv4 header: no options, ECN 0, identification 0, DF 1, its checksum. -/
def ipv4Header (dscp len ttl protocol src dst : Nat) : List Byte :=
  let w := [0x4500 + dscp * 4, len, 0, 0x4000, ttl * 256 + protocol]
  let a := [src / 65536, src % 65536, dst / 65536, dst % 65536]
  (w ++ [65535 - onesSum (w ++ a)] ++ a).flatMap (beBytes 2)

/-- The UDP header, checksum 0. -/
def udpHeader (src dst bytes : Nat) : List Byte := beBytes 2 src ++ beBytes 2 dst ++ beBytes 2 (bytes + 8) ++ beBytes 2 0

/-- The RTP header (Table 8-4): V 2, P, X and CC 0, M, PT, sequence number, timestamp, SSRC. -/
def rtpHeader (s : State) (f : FlowId) (pk : Packet) : List Byte :=
  beBytes 1 0x80 ++ beBytes 1 ((if pk.marker then 128 else 0) + cfg s (kFlow f 0x17)) ++ beBytes 2 pk.seq ++ beBytes 4 pk.timestamp ++
    beBytes 4 (cfg s (kFlow f 0x14))

/-! ## Payload headers -/

/-- What precedes a payload's content: PayloadHdr of type 48 or 49 with F 0, LayerId 0 and TID 1, as every unit's header has them, and the FU header
with S, E and the unit's type (R202); VERSION 1 and TOKEN_COUNT (06_decoders.md R144); the extended sequence number and the row's length, F 0, number,
C 0 and offset (Table 8-5). -/
def payloadHeader (pk : Packet) : List Byte :=
  match pk.payload with
  | .none => []
  | .single _ => []
  | .aggregate _ => beBytes 2 (48 * 512 + 1)
  | .fragment u offset bytes =>
    beBytes 2 (49 * 512 + 1) ++ beBytes 1 ((if offset = 2 then 128 else 0) + (if offset + bytes = u.size then 64 else 0) + u.ty)
  | .tokens l => beBytes 1 1 ++ beBytes 1 l.length ++ beBytes 6 0
  | .line row offset data => beBytes 2 pk.high ++ beBytes 2 data.length ++ beBytes 2 row ++ beBytes 2 offset
  | .datagram _ => []
  | .report _ => []

/-- Bytes of the RTP payload or datagram in a frame of a flow: what 58 bytes of headers and FCS leave, 4 more where tagged, without RTP 12 less
(R196). -/
def ipBytes (s : State) (f : FlowId) (frame : Nat) : Nat := frame - 18 - if flowTagged s f then 4 else 0

/-- The header of a path's copy of a media, readout or token packet. -/
def mediaHeader (s : State) (f : FlowId) (p : PortId) (second : Bool) (mac : Nat) (pk : Packet) : List Byte :=
  let len := ipBytes s f pk.frame
  etherHeader s f mac pk.srcMac 0x0800 ++
    ipv4Header (cfg s (kFlow f 0x18)) len (cfg s (kFlow f 0x19)) 17 (cfg s (kPort p 6)) (destinationOf s f second) ++
    udpHeader (cfg s (kFlow f 0x16) / 65536) (cfg s (kFlow f 0x16) % 65536) (len - 28) ++ rtpHeader s f pk ++ payloadHeader pk

/-- Bytes of a payload that the endpoint sends. -/
def payloadLength : Payload → Nat
  | .datagram l => l.length
  | .report groups => 8 + 8 * groups.length
  | _ => 0

/-- The header of an endpoint's frame: UDP where it carries UDP, IPv4 where its EtherType says so. -/
def endpointHeader (s : State) (f : FlowId) (p : PortId) (d : PacketDest) (mac : Nat) (pk : Packet) : List Byte :=
  let n := payloadLength pk.payload
  etherHeader s f mac pk.srcMac d.etherType ++
    (if d.etherType = 0x0800 then
      ipv4Header (cfg s (kFlow f 0x18)) (20 + n + if d.protocol = 17 then 8 else 0) (cfg s (kFlow f 0x19)) d.protocol (cfg s (kPort p 6)) d.ip ++
        (if d.protocol = 17 then udpHeader d.srcPort d.dstPort n else [])
     else [])

/-! ## Payload bytes and the FCS (Table 8-2) -/

/-- The bytes of a NAL unit, where the model holds them. -/
def unitContent (u : NalUnit) : Option (List Byte) :=
  if u.data.length = u.size then some (u.data.map (BitVec.ofNat 8)) else none

/-- An IGMPv3 membership report: a record of mode 4, change to exclude with no source, for each group (R193; log entry 76, PRESUMED). -/
def reportBytes (groups : List Nat) : List Byte :=
  let body := [groups.length] ++ groups.flatMap fun g => [0x0400, 0, g / 65536, g % 65536]
  ([0x2200, 65535 - onesSum ([0x2200, 0, 0] ++ body), 0] ++ body).flatMap (beBytes 2)

/-- What follows the payload header, where the model holds the content. -/
def payloadBytes : Payload → Option (List Byte)
  | .none => some []
  | .single u => unitContent u
  | .aggregate l => l.foldr (fun u r => (unitContent u).bind fun b => r.map fun t => beBytes 2 u.size ++ b ++ t) (some [])
  | .fragment u offset bytes => (unitContent u).map fun b => (b.drop offset).take bytes
  | .tokens l => some (l.flatMap fun t => beBytes 32 t.toNat)
  | .line _ _ data => some data
  | .datagram l => some l
  | .report groups => some (reportBytes groups)

/-- The FCS of a frame of so many bytes: the CRC-32 of IEEE 802.3 over what precedes it, padded, or cut and then inverted; none where the model does not
hold the content (R196, R210). -/
def frameFcs (header : List Byte) (payload : Payload) (bytes : Nat) (cut : Bool) : Option (BitVec 32) :=
  (payloadBytes payload).map fun l =>
    let all := header ++ l
    let c := crc32 0xFFFFFFFF#32 ((all ++ List.replicate (bytes - 4 - all.length) 0).take (bytes - 4))
    if cut then ~~~c else c

/-- The header of a packet on a path, empty for a bridged frame and while the destination is not known. -/
def wireHeader (s : State) (f : FlowId) (p : PortId) (second : Bool) (pk : Packet) : List Byte :=
  match pk.dest with
  | some d => ((d.mac.orElse fun _ => resolveMac s p d.ip).map fun m => endpointHeader s f p d m pk).getD []
  | none => if isFixed f then [] else ((pathMac s f p second).map fun m => mediaHeader s f p second m pk).getD []

/-! ## Endpoint destinations -/

/-- An ARP frame to a MAC address. -/
def arpDest (mac : Nat) : PacketDest := ⟨some mac, 0x0806, 0, 0, 0, 0⟩

/-- An IPv4 datagram to an address. -/
def ipDest (mac : Option Nat) (ip protocol src dst : Nat) : PacketDest := ⟨mac, 0x0800, ip, protocol, src, dst⟩

/-- An ARP message for IPv4 over Ethernet: operation 1 request, 2 reply; sender and target (R193; log entry 76, PRESUMED). -/
def arpBytes (op mac ip targetMac targetIp : Nat) : List Byte :=
  beBytes 2 1 ++ beBytes 2 0x0800 ++ beBytes 1 6 ++ beBytes 1 4 ++ beBytes 2 op ++ beBytes 6 mac ++ beBytes 4 ip ++ beBytes 6 targetMac ++
    beBytes 4 targetIp

/-- An ICMP echo reply (R193; log entry 76, PRESUMED). -/
def echoBytes (ident seq : Nat) (data : List Byte) : List Byte :=
  let words := (data.zipIdx.map fun e => if e.2 % 2 = 0 then e.1.toNat * 256 else e.1.toNat)
  ([0, 65535 - onesSum ([ident, seq] ++ words), ident, seq].flatMap (beBytes 2)) ++ data

end Sys2Proof.Machine
end

