-- ==== Sys2Proof/Machine/Flows.lean ====
section
/-! DEFINITION. The traffic manager: flow queues and refusal, packets, shapers, port schedulers, enables, measurement and
validation (09_flows.md; packetisation of 08_network.md R202). -/

namespace Sys2Proof.Machine

def kTransport (f : FlowId) : Nat := kFlow f 0x1F

/-! ## Packets -/

/-- Payload bytes and byte-stream bytes of the packets of a release, in order (R202, R222). `open_` is the packet being
filled: aggregated or not, its payload, its charge. -/
def packGo (p : Nat) (agg : Bool) : Option (Bool × Nat × Nat) → List Nat → List (Nat × Nat)
  | none, [] => []
  | some c, [] => [(c.2.1, c.2.2)]
  | cur, u :: rest =>
    let frags := (List.range (ceilDiv (u - 2) (p - 3))).map fun i =>
      let b := min (p - 3) (u - 2 - i * (p - 3))
      (b + 3, if i = 0 then b + 6 else b)
    match cur with
    | none => if u ≤ p then packGo p agg (some (false, u, u + 4)) rest else frags ++ packGo p agg none rest
    | some c =>
      if c.1 ∧ c.2.1 + 2 + u ≤ p then packGo p agg (some (true, c.2.1 + 2 + u, c.2.2 + u + 4)) rest
      else if ¬ c.1 ∧ agg ∧ 2 + 2 + c.2.1 + 2 + u ≤ p then
        packGo p agg (some (true, 4 + c.2.1 + 2 + u, c.2.2 + u + 4)) rest
      else if u ≤ p then (c.2.1, c.2.2) :: packGo p agg (some (false, u, u + 4)) rest
      else (c.2.1, c.2.2) :: frags ++ packGo p agg none rest

/-- The packets of a release of NAL units of the given sizes. -/
def packUnits (p : Nat) (agg : Bool) (units : List Nat) : List (Nat × Nat) := packGo p agg none units

/-- Bytes offered to a queue. -/
def offerBytes (fl : Flow) (l : List Packet) : Nat := (l.map (heldBytes fl)).sum

/-- A producer is refused: counted in 0x4000:10, REFUSED_SEEN (R220). -/
def refuseFlow (s : State) (f : FlowId) : State :=
  let t := setFlag (countUnit s (kFlow f 0x10) (some false) 1) (kFlow f 0x0A) 22
  { t with flows := vmod t.flows f fun x => { x with refusing := true } }

/-- Producers that name a flow: its fixed one, streams by 0x4000:02, tokens by 0x3030:02, running readouts by the
0x2901:01 of their start (Table 9-1). -/
def producers (s : State) (f : FlowId) : Nat :=
  let stream := if isTimed f ∧ cfg s (kFlow f 2) < 16 ∧ streamEnabled s (finOf 16 (by decide) (cfg s (kFlow f 2))) then 1 else 0
  let tokens := if allStreams.any fun n => streamEnabled s n && decide (integrityFlow s n = some f) then 1 else 0
  let readouts := s.capture.readouts.toList.filter fun x => x.running && decide (x.flow = f)
  (if isFixed f then 1 else 0) + stream + tokens + readouts.length

/-- Whether the flow takes packets now: enabled, not draining, named by a producer, and they fit its free space (R217, R219, R221). -/
def flowTakes (s : State) (f : FlowId) (l : List Packet) : Bool :=
  s.flows[f].enabled && !s.flows[f].draining && decide (0 < producers s f) && decide (offerBytes s.flows[f] l ≤ freeSpace s f)

/-- Tokens are produced on the general flows only (Table 9-1); another flow that 0x3030:02 names admits none (log entry 60, DEDUCED). -/
def tokenFlow (f : FlowId) : Bool := !isTimed f && !isFixed f

/-- While watch lasts the high-water depth follows every change (R236). -/
def noteDepth (s : State) (f : FlowId) : State :=
  if s.watch.watch then
    { s with flows := vmod s.flows f fun x => { x with highDepth := max x.highDepth (flowDepth s x) } }
  else s

/-- Packets join the tail of a flow queue, numbered from the flow's 32-bit packet count (08_network.md R203); a raw packet's extended number is its
upper half (Table 8-5). -/
def enqueue (s : State) (f : FlowId) (l : List Packet) : State :=
  noteDepth { s with flows := vmod s.flows f fun x =>
    { x with
      queue := x.queue ++ l.mapIdx fun i p => { p with seq := (x.packets + i) % 2 ^ 16, high := (x.packets + i) / 2 ^ 16 % 2 ^ 16 }
      packets := (x.packets + l.length) % 2 ^ 32
      refusing := false } } f

/-- The engine task that sends a datagram keeps it. -/
def keepDatagram (s : State) (p : PortId) (pk : Packet) : State :=
  { s with ports := vmod s.ports p fun x => { x with refused := x.refused ++ [pk] } }

/-- The endpoint offers a datagram to its port's flow; the engine task that sends a refused one keeps it (Table 9-2), and one whose destination is not
resolved yet (R195). -/
def offerDatagram (s : State) (p : PortId) (pk : Packet) : State :=
  if ¬ reachable s (endpointFlow p) p false pk then keepDatagram s p pk
  else if flowTakes s (endpointFlow p) [pk] then enqueue s (endpointFlow p) [pk]
  else keepDatagram (refuseFlow s (endpointFlow p)) p pk

/-- A datagram that the endpoint sends on a port (R193, R199): where it goes, frame bytes with FCS, and its payload where the model holds it. -/
def endpointSend (s : State) (p : PortId) (kind : PacketKind) (dest : PacketDest) (frame : Nat) (payload : Payload) : State :=
  offerDatagram s p { kind := kind, frame := max 64 frame, charge := 1, seq := 0, timestamp := 0, marker := false, srcMac := s.flash.limit.macs.get p, entered := s.now,
                      payload := payload, dest := some dest }

/-- At its next run the sending task offers its port's refused datagrams again, in order (Table 9-2). -/
def retryDatagrams (s : State) : State :=
  forEach allPorts (fun x p =>
    forEach x.ports[p].refused (fun y pk => offerDatagram y p pk)
      { x with ports := vmod x.ports p fun z => { z with refused := [] } }) s

/-! ## Integrity tokens (06_decoders.md R143 to R145, 09_flows.md R220) -/

/-- Up to 40 tokens per packet, in order; `fuel` bounds the packets. -/
def tokenChunks : Nat → List (BitVec 256) → List (List (BitVec 256))
  | 0, _ => []
  | _, [] => []
  | n + 1, l => l.take 40 :: tokenChunks n (l.drop 40)

/-- The packets of one tick's tokens (R144). -/
def tokenPackets (s : State) (f : FlowId) (l : List (BitVec 256)) : List Packet :=
  (tokenChunks l.length l).map fun c =>
    { kind := .tokens c.length, frame := mediaFrame s f (8 + 32 * c.length), charge := 1, seq := 0, payload := .tokens c,
      timestamp := ((c.headD 0).extractLsb' 160 32).toNat, marker := c.any fun t => t.getLsbD 239,
      srcMac := s.flash.limit.macs.get (flowPrimary s f), entered := s.now }

/-- Streams whose tokens travel in flow f, in order of stream number. -/
def tokenStreams (s : State) (f : FlowId) : List StreamId :=
  allStreams.filter fun n => decide (integrityFlow s n = some f)

/-- A stream's tick of tokens joins its store of 64 ticks; beyond that the oldest tick is discarded (R220). -/
def storeTokens (s : State) (f : FlowId) (n : StreamId) (tick : Nat) (l : List (BitVec 256)) : State :=
  let full := decide (64 ≤ s.streams[n].tokenStore.length)
  let s1 := if full then
      raiseEmcy (setFlag (countUnit s (kFlow f 0x10) (some true) 1) (kFlow f 0x0A) 21) 0xFF06 (kFlow f 0x0A) f.val
    else s
  { s1 with streams := vmod s1.streams n fun x =>
      { x with tokenStore := (if full then x.tokenStore.drop 1 else x.tokenStore) ++ [(tick, l)] } }

/-- The tokens of one tick, by stream, are offered together; refused, each stream holds its own (R144, R220). -/
def offerTokens (s : State) (f : FlowId) (tick : Nat) (l : List (StreamId × List (BitVec 256))) : State :=
  let pk := tokenPackets s f (l.flatMap fun x => x.2)
  let waiting := l.any fun x => !(s.streams[x.1].tokenStore.isEmpty)
  if !waiting && tokenFlow f && flowTakes s f pk then enqueue s f pk
  else forEach l (fun y x => storeTokens y f x.1 tick x.2) (refuseFlow s f)

/-- The oldest tick held for the flow. -/
def oldestTick (s : State) (f : FlowId) : Option Nat :=
  ((tokenStreams s f).filterMap fun n => (s.streams[n].tokenStore.head?).map fun x => x.1).min?

/-- Held token ticks are offered again, in tick order (R220); their delay counts from the release, which names the tick
(R236). -/
def execTokenReoffer (f : FlowId) (s : State) : Out :=
  match oldestTick s f with
  | none => .next s
  | some t =>
    let at_ := fun (n : StreamId) => (s.streams[n].tokenStore.filter fun x => x.1 == t).flatMap fun x => x.2
    let pk := tokenPackets s f ((tokenStreams s f).flatMap at_)
    if tokenFlow f && flowTakes s f pk then
      .next { enqueue s f (pk.map fun p => { p with entered := t }) with
        streams := s.streams.mapFinIdx fun i x hi =>
          if (tokenStreams s f).contains ⟨i, hi⟩ then
            { x with tokenStore := x.tokenStore.filter fun y => y.1 != t }
          else x }
    else .next s

/-! ## Shaper (R223, R224) -/

/-- Both paths of the flow: port and whether it is the secondary one. -/
def flowPaths (s : State) (f : FlowId) : List (PortId × Bool) :=
  (flowPrimary s f, false) :: match flowSecondary s f with
    | some p => [(p, true)]
    | none => []

def pathOf (fl : Flow) (second : Bool) : PathState := if second then fl.secondary else fl.primary

def setPath (fl : Flow) (second : Bool) (x : PathState) : Flow :=
  if second then { fl with secondary := x } else { fl with primary := x }

/-- Scheduler length (Table 9-3). -/
def schedLength (s : State) (f : FlowId) (p : PortId) (pk : Packet) : Nat :=
  if isTimed f then pk.frame + flowOverhead s f else applied s (kSched p 1)

/-- A packet reaches the head of a path queue: its tags (R229). -/
def stampTags (s : State) (f : FlowId) (p : PortId) (pk : Packet) (x : PathState) : PathState :=
  let start := if x.idle then s.ports[p].vt.get (finOf 4 (by decide) (flowClass s f)) else x.finishTag
  { x with
    startTag := start
    finishTag := start + BitVec.ofNat 48 (ceilDiv (schedLength s f p pk * 256) (flowWeight s f))
    idle := false }

def isBridged (k : PacketKind) : Bool :=
  match k with
  | .bridged _ _ _ _ _ => true
  | _ => false

/-- The copy of a packet for a path on a port: its source MAC is the port's, but for a bridged frame (R196, R206). -/
def pathCopy (s : State) (p : PortId) (pk : Packet) : Packet :=
  if isBridged pk.kind then pk else { pk with srcMac := s.flash.limit.macs.get p }

/-- A packet enters a path queue. -/
def pathPush (s : State) (f : FlowId) (p : PortId) (second : Bool) (pk : Packet) : State :=
  let x := pathOf s.flows[f] second
  let y := if x.queue.isEmpty then stampTags s f p pk x else x
  { s with flows := vmod s.flows f fun fl => setPath fl second { y with queue := y.queue ++ [pathCopy s p pk] } }

/-- A copy is discarded under R207: counted in 0x4000:1F. -/
def dropCopy (s : State) (f : FlowId) : State :=
  let v := fieldOf (regGet s (kTransport f)) 29 0
  let t := if v < 2 ^ 30 - 1 then putField s (kTransport f) 29 0 (v + 1) else s
  if v + 1 = 2 ^ 30 - 1 then overflowEnter t (kTransport f) 0 else t

/-- ADDRESS_PENDING: a path's destination is unresolved (08_network.md R195). -/
def addressPending (s : State) (f : FlowId) : Bool :=
  s.flows[f].enabled && (flowPaths s f).any fun x => !resolved s f x.1 x.2

/-- SECOND_PATH_DOWN: the secondary port does not serve (08_network.md R207). -/
def secondPathDown (s : State) (f : FlowId) : Bool := (flowSecondary s f).any fun p => !portServes s p

/-- What the head packet of a flow is charged (Table 9-3): of a readout, with the overhead in use at its admission (R225). -/
def chargeOf (s : State) (f : FlowId) (pk : Packet) : Nat :=
  if ¬ isTimed f then 1
  else
    match pk.kind with
    | .readout _ => pk.frame + flowOverhead s f
    | _ => pk.charge

/-- The ports a packet is copied to: with one path of two down only the other; a single path, or both, must serve. -/
def servingPaths (s : State) (f : FlowId) : List (PortId × Bool) :=
  (flowPaths s f).filter fun x => portServes s x.1

/-- The head packet of a flow conforms and is admitted to all its path queues together; the charge is subtracted once
(R206, R207, R224); the count of an unshaped flow is held (R223). -/
def admitHead (s : State) (f : FlowId) : State :=
  let fl := s.flows[f]
  match fl.queue with
  | [] => s
  | pk :: rest =>
    let live := servingPaths s f
    let room := live.all fun x => decide ((pathOf fl x.2).queue.length < 4)
    let cost := chargeOf s f pk * 2 ^ 24
    if live.isEmpty ∨ ¬ room ∨ fl.tokens < cost then s
    else
      let left := fun (n : Nat) => if flowRate s f = 0 then n else n - cost
      let s1 : State := { s with flows := vmod s.flows f fun x => { x with queue := rest, tokens := left x.tokens } }
      let s2 := forEach live (fun y x => pathPush y f x.1 x.2 pk) s1
      noteDepth (if live.length < (flowPaths s f).length then dropCopy s2 f else s2) f

def execShaperAdmit (f : FlowId) (s : State) : Out := .next (admitHead s f)

/-! ## Port scheduler (R227 to R230) -/

/-- The path of a flow on a port. -/
def sideOn (s : State) (f : FlowId) (p : PortId) : Bool := decide (flowPrimary s f ≠ p)

def pathOn (s : State) (f : FlowId) (p : PortId) : PathState := pathOf s.flows[f] (sideOn s f p)

/-- The head packet a flow offers the scheduler of a port. -/
def headOn (s : State) (p : PortId) (f : FlowId) : Option Packet :=
  if usesPort s f p then ((pathOn s f p).queue.head?).filter (reachable s f p (sideOn s f p)) else none

/-- Flows of a class with a head packet on the port. -/
def readyFlows (s : State) (p : PortId) (c : Nat) : List FlowId :=
  allFlows.filter fun f => decide (flowClass s f = c) && (headOn s p f).isSome

/-- The highest class that holds a packet. -/
def topClass (s : State) (p : PortId) : Option Nat :=
  [3, 2, 1, 0].find? fun c => !(readyFlows s p c).isEmpty

/-- a before b: their difference modulo 2⁴⁸, taken as signed, is negative. -/
def tagBefore (a b : BitVec 48) : Bool := decide ((a - b).toInt < 0)

/-- The flow with the smallest start tag; on a tie the lower number. -/
def pickVirtual (s : State) (p : PortId) : List FlowId → Option FlowId
  | [] => none
  | f :: rest =>
    match pickVirtual s p rest with
    | none => some f
    | some g => if tagBefore (pathOn s g p).startTag (pathOn s f p).startTag then some g else some f

/-- The scheduler burst of a flow on a port (R230). -/
def schedBurst (s : State) (f : FlowId) (p : PortId) : Nat :=
  let u := applied s (kSched p 1)
  let largest := if isTimed f then flowLimit s f + 18 + (if flowTagged s f then 4 else 0) + flowOverhead s f else u
  max (if isTimed f then flowBurst s f else flowBurst s f * u) largest

/-- The credit after `rounds` new rounds, capped at the scheduler burst (R230). -/
def creditAfter (s : State) (f : FlowId) (p : PortId) (rounds : Nat) : Nat :=
  min ((pathOn s f p).credit + rounds * (flowWeight s f * applied s (kSched p 1))) (schedBurst s f p)

/-- The first flow, in flow-number order from the position, that can send after `rounds` new rounds; `fuel` bounds the
rounds. -/
def pickCredit (s : State) (p : PortId) (c pos : Nat) : Nat → Nat → Option (FlowId × Nat)
  | 0, _ => none
  | fuel + 1, rounds =>
    let from_ := if rounds = 0 then pos else 0
    let able := (readyFlows s p c).find? fun f => decide (from_ ≤ f.val) &&
      match headOn s p f with
      | some pk => decide (schedLength s f p pk ≤ creditAfter s f p rounds)
      | none => false
    match able with
    | some f => some (f, rounds)
    | none => pickCredit s p c pos fuel (rounds + 1)

/-- The flow chosen in a class by the port's mode, and the new rounds its credits gained. -/
def pickFlow (s : State) (p : PortId) (c : Nat) : Option (FlowId × Nat) :=
  if s.ports[p].creditMode then
    pickCredit s p c (s.ports[p].roundPos.get (finOf 4 (by decide) c)) 600 0
  else (pickVirtual s p (readyFlows s p c)).map fun f => (f, 0)

/-- The port's MAC: frame-length limit, source lock (R210). -/
def frameCut (s : State) (p : PortId) (pk : Packet) : Nat := min pk.frame (s.flash.limit.frameLimit.get p)

def sourceLocked (s : State) (p : PortId) (pk : Packet) : Bool :=
  !isBridged pk.kind && decide (pk.srcMac ≠ s.flash.limit.macs.get p)

/-- The residence time of a forwarded PTP event message is added to its correction (10_time.md R258, R200). Latencies in
2⁻¹⁶ ns. -/
def psToUnits (v : Nat) : Int := (v * 65536 / 1000 : Nat)

def fecOn (s : State) (p : PortId) : Bool := decide (cfg s (kPort p 2) = 1)

def rxLatency (s : State) (u : UnitId) (p : PortId) : Int := psToUnits (Config.rxLatency u p (fecOn s p)).toNat
def txLatency (s : State) (u : UnitId) (p : PortId) : Int := psToUnits (Config.txLatency u p (fecOn s p)).toNat

/-- A stamp of an event message received on a port, on unit u's replica, carried to the land: `skew` is the deskew delay of its lane; compensated it
is accurate to ±4 ns (10_time.md R255, R256). -/
def stampIn (s : State) (u : UnitId) (p : PortId) (error skew : Int) : Int :=
  replicaTb0 s u + bounded (4 * 65536) error - skew - rxLatency s u p

/-- A stamp of an event message that leaves on a port. -/
def stampOut (s : State) (u : UnitId) (p : PortId) (error : Int) : Int :=
  replicaTb0 s u + bounded (4 * 65536) error + txLatency s u p

/-- The residence is added to the correctionField of a forwarded event message, which saturates (10_time.md R258). -/
def residence (s : State) (out : PortId) (k : PacketKind) : PacketKind :=
  match k with
  | .bridged src ptp corr arrived inp =>
    if ptp && decide (cfg s (key 0x2201 6) = 1) then
      let v := corr + (stampOut s (viewUnit s) out 0 - arrived)
      .bridged src ptp (if v ≤ 0x7FFFFFFFFFFFFFFF then v else 0x7FFFFFFFFFFFFFFF) arrived inp
    else k
  | _ => k

/-- t3 is taken as the Delay_Req leaves (10_time.md R255). -/
def stampRequest (s : State) (p : PortId) (k : PacketKind) : State :=
  if k = .delayReq then
    { s with time := { s.time with request := s.time.request.map fun r =>
        if r.port = p then { r with t3 := some (stampOut s (viewUnit s) p r.stampError) } else r } }
  else s

/-- A forwarded PTP event message that the transparent clock corrects. -/
def isEvent (s : State) (k : PacketKind) : Bool :=
  match k with
  | .bridged _ ptp _ _ _ => ptp && decide (cfg s (key 0x2201 6) = 1)
  | _ => false

/-- The head packet leaves its path queue; the next one reaches the head, or the flow is idle (R229). -/
def pathPop (s : State) (f : FlowId) (p : PortId) (rounds : Nat) : State :=
  let x := pathOn s f p
  let credit := if s.ports[p].creditMode then
      creditAfter s f p rounds - (match x.queue.head? with
        | some pk => schedLength s f p pk
        | none => 0)
    else x.credit
  let y : PathState := match x.queue.drop 1 with
    | [] => { x with queue := [], idle := true, credit := credit }
    | pk :: l => { stampTags s f p pk { x with idle := false } with queue := pk :: l, credit := credit }
  { s with flows := vmod s.flows f fun fl => setPath fl (sideOn s f p) y }

/-- In a new round every flow of the class gains credit (R230). -/
def addRounds (s : State) (p : PortId) (c rounds : Nat) (chosen : FlowId) : State :=
  if rounds = 0 then s
  else
    { s with flows := s.flows.mapFinIdx fun i fl hi =>
        let g : FlowId := ⟨i, hi⟩
        if g ≠ chosen ∧ usesPort s g p ∧ flowClass s g = c ∧ (fl.enabled || fl.draining) then
          setPath fl (sideOn s g p) { pathOf fl (sideOn s g p) with credit := creditAfter s g p rounds }
        else fl }

/-- A packet's first copy counts it and gives its delay sample; the other copy carries the mark (0x4000:0F; source 3 of
14_integrity.md Table 14-8). -/
def countPacket (s : State) (f : FlowId) (pk : Packet) : State :=
  if pk.counted then s
  else
    let mark := fun (x : PathState) =>
      { x with queue := x.queue.map fun q => if q.seq = pk.seq then { q with counted := true } else q }
    let t := monitorSample (countUnit s (kFlow f 0x0F) none 1) (viewUnit s) 3 f.val (s.now - pk.entered)
    { t with flows := vmod t.flows f fun x => { x with primary := mark x.primary, secondary := mark x.secondary } }

/-- What is counted when a frame starts (Tables 8-9, 9-5, 9-7; R236). -/
def countSent (s : State) (p : PortId) (f : FlowId) (c bytes : Nat) (pk : Packet) : State :=
  let s1 := countPort (countPort s p 0x0C 1) p 0x0D bytes
  let s2 := countPacket (countUnit s1 (kSched p (7 + c)) none 1) f pk
  let d := s.now - pk.entered
  if s.watch.watch then
    { s2 with flows := vmod s2.flows f fun x => { x with highDelay := max x.highDelay d } }
  else s2

/-- Quiet before a planned switch: no frame starts that could straddle the boundary, as many laps ahead as the largest frame takes (R191). -/
def quiet (s : State) (p : PortId) : Bool :=
  match s.relay.mode, s.relay.switchTick with
  | .warming, some t =>
    decide (s.lap.nextTick + (t - (s.lap.count + 1)) * (s.lap.period / 256) < s.now + lineCycles (s.flash.limit.frameLimit.get p))
  | _, _ => false

/-- The MAC can start a frame: a unit is selected, the lanes are live, the port serves and the last frame has ended. -/
def canStart (s : State) (p : PortId) : Bool :=
  s.ports[p].selected.isSome && decide (s.ports[p].selected = s.relay.active) && !s.ports[p].txIdle && portServes s p && decide (s.ports[p].busyUntil ≤ s.now) &&
    !quiet s p

/-- The chosen packet meets the MAC (R210): held by the ceiling, suppressed by the source lock, cut at F, or sent. -/
def sendFrame (s : State) (p : PortId) (c : Nat) (f : FlowId) (rounds : Nat) (pk : Packet) : State :=
  let bytes := frameCut s p pk
  let need := (bytes + 20) * 2 ^ 24
  if sourceLocked s p pk then
    pathPop (setFlag (countPort s p 0x17 1) (kPort p 0x0B) 27) f p rounds
  else if s.ports[p].bucket < need then
    if s.ports[p].ceilHeld then s
    else
      let t := setFlag (countPort s p 0x15 1) (kPort p 0x0B) 27
      { t with ports := vmod t.ports p fun x => { x with ceilHeld := true } }
  else
    let header := wireHeader s f p (sideOn s f p) pk
    let s1 := if bytes < pk.frame then setFlag (countPort s p 0x16 1) (kPort p 0x0B) 27 else s
    let vt := if s.ports[p].creditMode then s.ports[p].vt
      else vmod s.ports[p].vt (finOf 4 (by decide) c) fun _ => (pathOn s f p).startTag
    let s2 := stampRequest (countSent (pathPop (addRounds s1 p c rounds f) f p rounds) p f c bytes pk) p pk.kind
    { s2 with ports := vmod s2.ports p fun x =>
        { x with
          bucket := x.bucket - need
          ceilHeld := false
          busyUntil := s.now + lineCycles bytes
          lastTx := some { pk with kind := residence s p pk.kind, frame := bytes }
          wire := some ⟨header, pk.payload, bytes, decide (bytes < pk.frame), isEvent s pk.kind,
            if isBridged pk.kind then none else frameFcs header pk.payload bytes (decide (bytes < pk.frame))⟩
          vt := vt
          roundPos := vmod x.roundPos (finOf 4 (by decide) c) fun _ => f.val } }

/-- The port scheduler chooses a packet of the highest class that holds one, and transmits it (R227 to R230). -/
def execFrameTxStart (p : PortId) (s : State) : Out :=
  if canStart s p then
    match topClass s p with
    | none => .next s
    | some c =>
      match pickFlow s p c with
      | none => .next s
      | some (f, rounds) =>
        match headOn s p f with
        | none => .next s
        | some pk => .next (sendFrame s p c f rounds pk)
  else .next s

/-! ## Enables and shaper writes at a tick (R221, R225, R226, R228) -/

/-- A draining flow's queue is empty: it leaves its ports' counts at the next tick (R221). -/
def execFlowDrained (f : FlowId) (s : State) : Out :=
  if s.flows[f].draining ∧ s.flows[f].queue = [] then
    .next { s with flows := vmod s.flows f fun x => { x with draining := false } }
  else .next s

/-- The count of a flow at the reset of its tokens: full or zero; a stream's flow starts at zero (R225, R226). -/
def resetCount (s : State) (f : FlowId) : Nat :=
  if s.flows[f].carries.isSome then 0
  else if applied s (kFlow f 7) = 1 then 0 else burstCount s f

/-- The enable of a flow is applied: a disable drains (R221); an enable takes its queue size (Table 9-5). -/
def applyEnable (s : State) (f : FlowId) : State :=
  let on := decide (applied s (kFlow f 1) = 1) || isFixed f
  let t := if on && !s.flows[f].enabled then takeWritten s (kFlow f 8) else s
  { t with flows := vmod t.flows f fun x =>
      { x with
        enabled := on
        draining := if on then false else x.draining || (x.enabled && !x.queue.isEmpty) } }

/-- Enabled flows that use a port, draining ones among them (R228). -/
def portCount (s : State) (p : PortId) : Nat :=
  (allFlows.filter fun f => usesPort s f p && (s.flows[f].enabled || s.flows[f].draining)).length

/-- The path of a flow at a change of mode: credit 0; or idle, so that its head wakes at the class's virtual time (R228). -/
def modePath (s : State) (f : FlowId) (p : PortId) (credit : Bool) (x : PathState) : PathState :=
  if credit then { x with credit := 0 }
  else
    match x.queue with
    | [] => { x with idle := true }
    | pk :: _ => stampTags s f p pk { x with idle := true }

/-- The count and the mode of a port at T + 5 (R228). -/
def applyMode (s : State) (p : PortId) : State :=
  let n := portCount s p
  let mode := decide (64 < n)
  let change := mode ≠ s.ports[p].creditMode
  let s1 := regPut (regPut s (kSched p 3) n) (kSched p 2) (if mode then 1 else 0)
  let s2 := if change then setFlag s1 (kSched p 6) 26 else s1
  let s3 : State := { s2 with ports := vmod s2.ports p fun x => { x with flows := n, creditMode := mode } }
  if change then
    { s3 with flows := s3.flows.mapFinIdx fun i fl hi =>
        let f : FlowId := ⟨i, hi⟩
        if usesPort s f p then setPath fl (sideOn s f p) (modePath s f p mode (pathOf fl (sideOn s f p))) else fl }
  else s3

/-- Flows whose rate, burst or overhead is applied at this tick have their counts set (R225); a flow that carries a stream
heeds only the overhead (R226). -/
def resetShapers (s : State) (keys : List Nat) : State :=
  forEach (allFlows.filter fun f => keys.any fun k => decide (k / 256 = 0x4000 + f.val) &&
      decide (k % 256 = 6 ∨ ((k % 256 = 4 ∨ k % 256 = 5) ∧ s.flows[f].carries.isNone)))
    (fun x f => { x with flows := vmod x.flows f fun y => { y with tokens := resetCount x f } }) s

/-- The carrying that a channel start ended is over: the written values apply and the count is reset (R226). -/
def endCarrying (s : State) : State :=
  let f1 := fun (x : State) (f : FlowId) =>
    let y : State := { x with flows := vmod x.flows f fun z => { z with carries := none, lapsed := false } }
    { y with flows := vmod y.flows f fun z => { z with tokens := resetCount y f } }
  forEach (allFlows.filter fun f => s.flows[f].lapsed) f1 s

/-- T + 5: enables, counts, modes and reported rates (R221, R223, R225, R228). -/
def applyFlows (s : State) (keys : List Nat) : State :=
  let s1 := endCarrying (forEach allFlows applyEnable s)
  let s2 := resetShapers s1 keys
  let s3 := forEach allFlows (fun x f => regPut x (kFlow f 9) (rateInUse x f)) s2
  forEach allPorts applyMode s3

/-- All counts gain n reference cycles, and the emission ceilings and meters fill (R210, R223, R234). -/
def fillFlows (s : State) (n : Nat) : State :=
  { s with
    flows := s.flows.mapFinIdx fun i x hi => { x with tokens := fillCount s ⟨i, hi⟩ x.tokens n }
    ports := s.ports.mapFinIdx fun i x hi =>
      let p : PortId := ⟨i, hi⟩
      let k := ceilDiv (s.flash.limit.ceilRate.get p * 125000 * 2 ^ 24) (10 ^ 8)
      { x with bucket := min (s.flash.limit.ceilDepth.get p * 2 ^ 24) (x.bucket + n * k) } }

/-! ## Watch and service (R236) -/

/-- A cause of watch arises; where watch begins with it the high-water marks return to 0. -/
def beginWatch (s : State) (cause : Fin 4) : State :=
  let first := decide (cause = 1)
  let w := s.watch
  let t : State := { s with
    watch := { w with
      firstPicture := first || w.firstPicture
      openedAt := if first then none else w.openedAt
      recovery := decide (cause = 3) || w.recovery }
    flows := if w.watch then s.flows else s.flows.map fun x => { x with highDepth := 0, highDelay := 0 } }
  showWatch t cause

/-- Delay: cycles since the oldest packet still held was released or entered; in a stream's flow the bytes that verification has not read are held
too (R219, R236). -/
def flowDelay (s : State) (f : FlowId) : Nat :=
  let fl := s.flows[f]
  let kept := match fl.carries with
    | some n => (s.streams[n].flight.filter fun k => decide (0 < stripeRetained fl n k)).map fun k => k.releasedAt
    | none => []
  ((((fl.queue.head?).map fun pk => pk.entered).toList ++ kept).min?.map fun t => s.now - t).getD 0

/-- The flows whose depth an enabled slot samples, source 2 (14_integrity.md Table 14-8). -/
def sampledDepths (s : State) : List FlowId :=
  allFlows.filter fun f =>
    ((allSlots.filter fun m => applied s (kSlot m 5) = 1).map fun m => applied s (kSlot m 1)).contains (2 * 2 ^ 24 + f.val)

/-- In service each enabled flow is sampled at T + 4 (R236); slots sample the depths of their flows at every T + 4. -/
def sampleFlows (s : State) : State :=
  let s1 := watchTick s
  let s2 := if s1.watch.watch then s1
    else forEach (allFlows.filter fun f => s1.flows[f].enabled) (fun x f =>
      regPut (regPut x (kFlow f 0x0B) (flowDepth x x.flows[f])) (kFlow f 0x0C) (flowDelay x f)) s1
  forEach (sampledDepths s2) (fun x f => monitorSample x (viewUnit x) 2 f.val (flowDepth x x.flows[f])) s2

/-! ## Validation at channel start (R232, R237) -/

/-- Samples and octets of a pgroup of one line: the smallest whole number of elements in whole bytes (08_network.md Table
8-5). -/
def pgroupElems (s : State) : Nat := if inputDepth s % 8 = 0 then 1 else if inputDepth s = 10 then 4 else 2

/-- Samples in an element (R304). -/
def elemSamples (chroma : Nat) : Nat :=
  match chroma with
  | 2 => 4
  | 3 => 3
  | _ => 1

/-- Elements per pgroup: where a column pair is whole bytes it is a pgroup itself; of 4:2:0 a pgroup takes 4 luma samples and their chroma, 8 at 10
bits (log entry 72, PRESUMED). -/
def groupElems (s : State) : Nat :=
  if inputChroma s = 1 then (if inputDepth s = 10 then 12 else 6)
  else if elemSamples (inputChroma s) * inputDepth s % 8 = 0 then 1 else pgroupElems s

def groupBytes (s : State) : Nat := groupElems s * elemSamples (inputChroma s) * inputDepth s / 8

/-- The size a flow's queue would have: a stream's own figure where a stream is named (R218). -/
def plannedSize (s : State) (f : FlowId) : Nat :=
  let n := cfg s (kFlow f 2)
  if isTimed f ∧ n < 16 ∧ streamEnabled s (finOf 16 (by decide) n) then streamSpace s (finOf 16 (by decide) n)
  else if 252 ≤ f.val then 16384
  else
    let c := cfg s (kFlow f 8)
    if c = 0 then 131072 else c

/-- Flow f is enabled by the last applied value. -/
def enabledFlow (s : State) (f : FlowId) : Bool := decide (applied s (kFlow f 1) = 1) || isFixed f

/-- The first failure of R237 on flow f; 0 none. `sumTo` is the sum of queue sizes up to f. -/
def flowReason (s : State) (f : FlowId) (sumTo : Nat) : Nat :=
  let src := cfg s (kFlow f 2)
  let b := applied s (kFlow f 5)
  let largest := flowLimit s f + 18 + (if flowTagged s f then 4 else 0) + flowOverhead s f
  let named := isTimed f && decide (src < 16) && streamEnabled s (finOf 16 (by decide) src)
  if enabledFlow s f ∧ 2 ^ 26 < sumTo then 1
  else if enabledFlow s f ∧ ¬ named ∧ b ≠ 0 ∧ isTimed f ∧ b < largest then 2
  else if enabledFlow s f ∧ ((named ∧ flowFormat s f ≠ 0) ∨ 1 < producers s f) then 3
  else if f.val < 16 ∧ streamEnabled s (finOf 16 (by decide) f.val) ∧
      (allFlows.filter fun g => isTimed g && enabledFlow s g && decide (cfg s (kFlow g 2) = f.val)).length ≠ 1 then 4
  else 0

/-- Reasons in flow order with the running sum of R237, failure 1. -/
def flowReasonsGo (s : State) : Nat → List FlowId → List (FlowId × Nat)
  | _, [] => []
  | sum, f :: rest =>
    let sum1 := if enabledFlow s f then sum + plannedSize s f else sum
    (f, flowReason s f sum1) :: flowReasonsGo s sum1 rest

/-- The first failing flow with its reason. -/
def flowFailure (s : State) : Option (FlowId × Nat) :=
  (flowReasonsGo s 0 allFlows).find? fun x => decide (x.2 ≠ 0)

/-- The REASON fields of every flow, only the first failure set (R237). -/
def reportFlows (s : State) (failure : Option (FlowId × Nat)) : State :=
  let s1 := forEach allFlows (fun x f => putField x (kFlow f 0x0A) 31 28 0) s
  match failure with
  | some (f, r) => putField s1 (kFlow f 0x0A) 31 28 r
  | none => s1

/-- A term of the class-3 bound in line bytes per second (R232). `slices` is the slices per stripe of the stream. -/
def class3Term (s : State) (slices : StreamId → Nat) (p : PortId) (f : FlowId) : Nat :=
  let tag := if flowTagged s f then 4 else 0
  let largest := flowLimit s f + 18 + tag
  let lapNum := pictureDen s * lapsOf s * cyclesPerSec
  match (if s.flows[f].lapsed then none else s.flows[f].carries) with
  | some n =>
    let r := s.streams[n].pacer.rate
    let count := slices n + 1 + ceilDiv (r * pictureNum s) (8 * lapNum * (flowPayload s f - 3))
    ceilDiv (r * pictureNum s + 8 * count * 82 * lapNum) (8 * pictureNum s)
  | none =>
    if isTimed f then
      let o := flowOverhead s f
      let smallest := max 64 (58 + tag + 8 + groupBytes s)
      let rho := if flowRate s f = 0 then portRate s p * 125000 else flowRate s f / 8
      ceilDiv (rho * (largest + o)) (smallest + o)
    else if flowRate s f = 0 then portRate s p * 125000
    else flowRate s f * (largest + 20)

/-- The class-3 load bound of a port in Mb/s, rounded up (R232). -/
def class3Bound (s : State) (slices : StreamId → Nat) (p : PortId) : Nat :=
  ceilDiv (8 * ((allFlows.filter fun f => usesPort s f p && enabledFlow s f && decide (flowClass s f = 3)).map
    (class3Term s slices p)).sum) 1000000

/-- Each port's bound is reported; beyond the port rate OVERCOMMITTED and an EMCY (R232). -/
def reportClass3 (s : State) (slices : StreamId → Nat) : State :=
  forEach allPorts (fun x p =>
    let b := class3Bound x slices p
    let y := regPut x (kSched p 4) b
    if portRate x p < b then
      raiseEmcy (setFlag (setFlag y (kSched p 6) 31) (kSched p 6) 30) 0xFF07 (kSched p 6) p.val
    else clearFlag y (kSched p 6) 31) s

end Sys2Proof.Machine
end

