-- ==== Sys2Proof/Machine/Streams.lean ====
section
/-! DEFINITION. The shape of a stream: coded picture, CTB rows and the laps that code them, the split among channels,
layout mode, slices, level and profile (03_streams.md R57 to R72). -/

namespace Sys2Proof.Machine

/-! ## Geometry (R31, R64, R70 to R72) -/

def inputWidth (s : State) : Nat := cfg s (key 0x2300 3)
def stripeHeight (s : State) : Nat := max 1 (cfg s (key 0x2500 1))
def activeStripes (s : State) : Nat := cfg s (key 0x2500 3)

/-- Laps and active stripes per picture are configured (R36): tests that need the lap are skipped until they are. -/
def lapsSet (s : State) : Bool := decide (cfg s (key 0x2500 2) ≠ 0 ∧ cfg s (key 0x2500 3) ≠ 0)

/-- Active lines: active stripes × stripe height. -/
def activeLines (s : State) : Nat := activeStripes s * stripeHeight s

def isProxy (s : State) (n : StreamId) : Bool := decide (cfg s (kStream n 2) = 1)
def isPanel (s : State) (n : StreamId) : Bool := decide (cfg s (kStream n 2) = 2)
def streamChroma (s : State) (n : StreamId) : Nat := cfg s (kStream n 8)
def streamDepth (s : State) (n : StreamId) : Nat := cfg s (kStream n 9)
def intraOnly (s : State) (n : StreamId) : Bool := decide (cfg s (kStream n 0x0A) = 1)
def refCount (s : State) (n : StreamId) : Nat := if intraOnly s n then 0 else cfg s (kStream n 0x0B)

/-- SubWidthC and SubHeightC of a chroma format. -/
def subWidth (c : Nat) : Nat := if c = 1 ∨ c = 2 then 2 else 1
def subHeight (c : Nat) : Nat := if c = 1 then 2 else 1

/-- Components per luma sample in halves: 4:0:0 2, 4:2:0 3, 4:2:2 4, 4:4:4 6. -/
def chromaHalves (c : Nat) : Nat :=
  match c with
  | 0 => 2
  | 1 => 3
  | 2 => 4
  | _ => 6

/-- CTB size: the stripe height, or the proxy CTB size. -/
def ctbSize (s : State) (n : StreamId) : Nat := if isProxy s n then max 1 (cfg s (kStream n 0x16)) else stripeHeight s

/-- The proxy divisor d, 1 at sensor resolution. -/
def scaleOf (s : State) (n : StreamId) : Nat := if isProxy s n then 2 ^ cfg s (kStream n 0x15) else 1

def roundUp (a m : Nat) : Nat := ceilDiv a m * m

/-- Displayed size, after the conformance window (R70, R71). -/
def displaySize (s : State) (n : StreamId) : Nat × Nat :=
  let w := cfg s (kStream n 6)
  let h := cfg s (kStream n 7)
  let c := streamChroma s n
  if isProxy s n then
    (roundUp (ceilDiv w (scaleOf s n)) (subWidth c), roundUp (ceilDiv h (scaleOf s n)) (subHeight c))
  else (w, h)

/-- Coded size: rounded up to multiples of 8 (R70). -/
def codedSize (s : State) (n : StreamId) : Nat × Nat := (roundUp (displaySize s n).1 8, roundUp (displaySize s n).2 8)

def ctbCols (s : State) (n : StreamId) : Nat := ceilDiv (codedSize s n).1 (ctbSize s n)
def ctbRows (s : State) (n : StreamId) : Nat := ceilDiv (codedSize s n).2 (ctbSize s n)

/-- Stripes that make a CTB row: m of R72, 1 at sensor resolution. -/
def rowStripes (s : State) (n : StreamId) : Nat :=
  if isProxy s n then max 1 (ctbSize s n * scaleOf s n / stripeHeight s) else 1

def firstStripe (s : State) (n : StreamId) : Nat := cfg s (kStream n 5) / stripeHeight s
def lastStripe (s : State) (n : StreamId) : Nat := (cfg s (kStream n 5) + cfg s (kStream n 7) - 1) / stripeHeight s

/-- The last stripe a CTB row is built from; the row is coded in the lap after it arrives. -/
def stripeOfRow (s : State) (n : StreamId) (r : Nat) : Nat :=
  min (firstStripe s n + (r + 1) * rowStripes s n - 1) (lastStripe s n)

/-- The CTB row that is complete with stripe k. -/
def rowAt (s : State) (n : StreamId) (k : Nat) : Option Nat :=
  if k < firstStripe s n ∨ lastStripe s n < k then none
  else
    let r := (k - firstStripe s n) / rowStripes s n
    if stripeOfRow s n r = k ∧ r < ctbRows s n then some r else none

/-- Laps from the release of row r to that of the stream's next row: across the picture boundary after the last (R115). -/
def gapAfter (s : State) (n : StreamId) (r : Nat) : Nat :=
  if r + 1 < ctbRows s n then stripeOfRow s n (r + 1) - stripeOfRow s n r
  else lapsOf s + stripeOfRow s n 0 - stripeOfRow s n r

/-- Laps from the release before row r to that of row r. -/
def gapBefore (s : State) (n : StreamId) (r : Nat) : Nat :=
  if r = 0 then gapAfter s n (ctbRows s n - 1) else gapAfter s n (r - 1)

/-! ## Channels of a stream (R64, R65) -/

def maskChans (mask : Nat) : List Chan := allChans.filter fun c => mask.testBit c.val
def streamChans (s : State) (n : StreamId) : List Chan := maskChans (streamMask s n)
def gangSize (s : State) (n : StreamId) : Nat := (streamChans s n).length

/-- The place of a channel in its gang. -/
def gangIndex (s : State) (n : StreamId) (c : Chan) : Nat :=
  ((streamChans s n).filter fun d => decide (d.val < c.val)).length

/-- Part i of N columns among g. -/
def splitCols (n g i : Nat) : Nat := n / max 1 g + if i < n % max 1 g then 1 else 0
def splitStart (n g i : Nat) : Nat := ((List.range i).map (splitCols n g)).sum

/-- CTB columns of a channel's part, and where they begin. -/
def partCols (s : State) (n : StreamId) (c : Chan) : Nat := splitCols (ctbCols s n) (gangSize s n) (gangIndex s n c)
def partStart (s : State) (n : StreamId) (c : Chan) : Nat := splitStart (ctbCols s n) (gangSize s n) (gangIndex s n c)

/-- First luma column of a channel's part and the number of its columns inside the coded picture. -/
def partX (s : State) (n : StreamId) (c : Chan) : Nat := partStart s n c * ctbSize s n
def partWidth (s : State) (n : StreamId) (c : Chan) : Nat :=
  min (partCols s n c * ctbSize s n) ((codedSize s n).1 - partX s n c)

/-- Luma lines of CTB row r inside the coded picture. -/
def rowLines (s : State) (n : StreamId) (r : Nat) : Nat := min (ctbSize s n) ((codedSize s n).2 - r * ctbSize s n)

/-- Samples of w × h luma with their chroma. -/
def withChroma (c w h : Nat) : Nat := w * h * chromaHalves c / 2

/-! ## Signalled rate and buffers (05_pacer.md R110) -/

/-- The smallest scale 0 to 15 with x at most (2³² - 1) × 2^(base + scale). -/
def scaleFor (base x : Nat) : Nat :=
  ((List.range 16).find? fun i => decide (x ≤ (2 ^ 32 - 1) * 2 ^ (base + i))).getD 15

def roundDown (x m : Nat) : Nat := x / m * m

def rateScale (s : State) (n : StreamId) : Nat := scaleFor 6 (cfg s (kPacer n 2))
def signalledRate (s : State) (n : StreamId) : Nat := roundDown (cfg s (kPacer n 2)) (2 ^ (6 + rateScale s n))
def duScale (s : State) (n : StreamId) : Nat := scaleFor 4 (cfg s (kPacer n 3))
def signalledCpb (s : State) (n : StreamId) : Nat := roundDown (cfg s (kPacer n 3)) (2 ^ (4 + duScale s n))

/-- Laps from the release of a picture's first decoding unit to that of its last (R112). -/
def spanLaps (s : State) (n : StreamId) : Nat := stripeOfRow s n (ctbRows s n - 1) - stripeOfRow s n 0

/-- Numerator and denominator of the nominal lap in core cycles. -/
def lapNum (s : State) : Nat := pictureNum s
def lapDen (s : State) : Nat := pictureDen s * lapsOf s

/-- B + ceil(R × t_span) before its rounding. -/
def rawAuCpb (s : State) (n : StreamId) : Nat :=
  signalledCpb s n + ceilDiv (signalledRate s n * spanLaps s n * lapNum s) (lapDen s * cyclesPerSec)

/-- The scale of B_AU; none where no scale expresses it (R129 reason 5). -/
def auScale (s : State) (n : StreamId) : Option Nat :=
  (List.range 16).find? fun i => decide (ceilDiv (rawAuCpb s n) (2 ^ (4 + i)) ≤ 2 ^ 32 - 1)

def signalledAuCpb (s : State) (n : StreamId) : Nat := roundUp (rawAuCpb s n) (2 ^ (4 + (auScale s n).getD 15))

/-! ## Profiles (R57, R58, Table 3-1) -/

/-- Whether a profile permits format, depth and intra-only setting. -/
def profilePermits (p chroma depth : Nat) (intra : Bool) : Bool :=
  match p with
  | 1 => decide (chroma = 1 ∧ depth = 8)
  | 2 => decide (chroma = 1 ∧ depth ≤ 10)
  | 3 => decide (chroma ≤ 1 ∧ depth ≤ 12)
  | 4 => decide (chroma ≤ 2 ∧ depth ≤ 10)
  | 5 => decide (chroma ≤ 2 ∧ depth ≤ 12)
  | 6 => decide (depth = 8)
  | 7 => decide (depth ≤ 10)
  | 8 => decide (depth ≤ 12)
  | 9 => decide (chroma = 0 ∧ depth ≤ 12)
  | 10 => decide (chroma = 0 ∧ depth = 16) && intra
  | 11 => decide (chroma = 3 ∧ depth = 16) && intra
  | _ => false

/-- The automatic profile of a format and depth; 0 where Table 3-1 has none. -/
def automaticProfile (chroma depth : Nat) : Nat :=
  match chroma with
  | 0 => if depth = 16 then 10 else 9
  | 1 => if depth = 8 then 1 else if depth = 10 then 2 else if depth = 12 then 3 else 0
  | 2 => if depth ≤ 10 then 4 else if depth = 12 then 5 else 0
  | _ => if depth = 8 then 6 else if depth = 10 then 7 else if depth = 12 then 8 else 11

/-- The profile in use. -/
def profileOf (s : State) (n : StreamId) : Nat :=
  let p := cfg s (kStream n 0x0D)
  if p = 0 then automaticProfile (streamChroma s n) (streamDepth s n) else p

/-- general_profile_idc of a profile code. -/
def profileIdc (p : Nat) : Nat := if p = 1 then 1 else if p = 2 then 2 else 4

/-! ## Layout, slices and levels (R62, R66, R68) -/

/-- A row of Table 3-4, with the bit rate and buffer limits of H.265 Annex A in units of the profile's factor. -/
structure LevelRow where
  idc : Nat
  lumaPs : Nat
  maxDim : Nat
  lumaSr : Nat
  slices : Nat
  tileRows : Nat
  tileCols : Nat
  mainRate : Nat
  highRate : Nat
  deriving DecidableEq, Repr

def levels : List LevelRow :=
  [⟨120, 2228224, 4222, 66846720, 75, 5, 5, 12000, 30000⟩, ⟨123, 2228224, 4222, 133693440, 75, 5, 5, 20000, 50000⟩,
   ⟨150, 8912896, 8444, 267386880, 200, 11, 10, 25000, 100000⟩,
   ⟨153, 8912896, 8444, 534773760, 200, 11, 10, 40000, 160000⟩,
   ⟨156, 8912896, 8444, 1069547520, 200, 11, 10, 60000, 240000⟩,
   ⟨180, 35651584, 16888, 1069547520, 600, 22, 20, 60000, 240000⟩,
   ⟨183, 35651584, 16888, 2139095040, 600, 22, 20, 120000, 480000⟩,
   ⟨186, 35651584, 16888, 4278190080, 600, 22, 20, 240000, 800000⟩]

/-- CpbNalFactor = BrNalFactor of a profile (H.265 Annex A). -/
def nalFactor (p : Nat) : Nat :=
  match p with
  | 1 => 1100
  | 2 => 1100
  | 3 => 1650
  | 4 => 1833
  | 5 => 2200
  | 6 => 2200
  | 7 => 2750
  | 8 => 3300
  | 9 => 1100
  | 10 => 1467
  | _ => 4400

def tilesPerChannel (s : State) (n : StreamId) : Nat := max 1 (cfg s (kStream n 0x12))

/-- Segments of a channel's part in a stripe. -/
def segmentsOf (s : State) (n : StreamId) (tiled : Bool) : Nat := if tiled then tilesPerChannel s n else 1

/-- CTBs of each segment of a channel's part. -/
def segmentSizes (s : State) (n : StreamId) (tiled : Bool) (c : Chan) : List Nat :=
  (List.range (segmentsOf s n tiled)).map (splitCols (partCols s n c) (segmentsOf s n tiled))

/-- Slice length of a segment of k CTBs, and its slices. -/
def sliceLength (k q : Nat) : Nat := max 1 (ceilDiv k (max 1 q))
def slicesOf (k q : Nat) : Nat := ceilDiv k (sliceLength k q)

/-- Slices of a channel's part in a stripe. -/
def partSlices (s : State) (n : StreamId) (tiled : Bool) (q : Nat) (c : Chan) : Nat :=
  ((segmentSizes s n tiled c).map fun k => slicesOf k q).sum

def stripeSlices (s : State) (n : StreamId) (tiled : Bool) (q : Nat) : Nat :=
  ((streamChans s n).map (partSlices s n tiled q)).sum

/-- The q that a limit of slices per picture accepts, none where the level test fails (R68). -/
def acceptQ (s : State) (n : StreamId) (tiled : Bool) (limit : Option Nat) : Option Nat :=
  let asked := cfg s (kStream n 0x13)
  let fits := fun (q : Nat) => match limit with
    | none => true
    | some m => decide (ctbRows s n * stripeSlices s n tiled q ≤ m)
  if 0 < asked then (if fits asked then some asked else none)
  else ((List.range (16 / segmentsOf s n tiled)).map fun i => 16 / segmentsOf s n tiled - i).find? fits

/-- The tests of R62 but the slice limit. -/
def levelFits (s : State) (n : StreamId) (tiled : Bool) (l : LevelRow) : Bool :=
  let z := codedSize s n
  let num := cfg s (kStream n 0x10)
  let den := max 1 (cfg s (kStream n 0x11))
  let rate := (if cfg s (kStream n 0x0E) = 1 then l.highRate else l.mainRate) * nalFactor (profileOf s n)
  decide (z.1 * z.2 ≤ l.lumaPs) && decide (z.1 ≤ l.maxDim ∧ z.2 ≤ l.maxDim) &&
  decide (z.1 * z.2 * num ≤ l.lumaSr * den) && decide (l.idc < 150 ∨ 32 ≤ ctbSize s n) &&
  decide (signalledRate s n ≤ rate) && (!lapsSet s || decide (signalledAuCpb s n ≤ rate)) &&
  (!tiled || decide (ctbRows s n ≤ l.tileRows ∧ gangSize s n * tilesPerChannel s n ≤ l.tileCols))

/-- Whether a level qualifies, with its q. -/
def levelQ (s : State) (n : StreamId) (tiled : Bool) (l : LevelRow) : Option Nat :=
  if levelFits s n tiled l then acceptQ s n tiled (some l.slices) else none

/-- The automatic level with its q: the lowest that qualifies, else 8.5. -/
def automaticLevel (s : State) (n : StreamId) (tiled : Bool) : Nat × Nat :=
  match levels.findSome? fun l => (levelQ s n tiled l).map fun q => (l.idc, q) with
  | some r => r
  | none => (255, (acceptQ s n tiled none).getD 1)

/-- Stripe-tile mode (R66). -/
def isTiled (s : State) (n : StreamId) : Bool :=
  decide (1 < gangSize s n ∨ 1 < tilesPerChannel s n) && decide (ctbSize s n = 64) && decide ((codedSize s n).2 % 64 = 0) &&
    decide ((automaticLevel s n false).1 = 255)

/-- The level in use with its q; none where the requested level does not qualify. -/
def levelOf (s : State) (n : StreamId) : Option (Nat × Nat) :=
  let t := isTiled s n
  let r := cfg s (kStream n 0x0F)
  if r = 0 then some (automaticLevel s n t)
  else if r = 255 then (acceptQ s n t none).map fun q => (255, q)
  else (levels.find? fun l => decide (l.idc = r)).bind fun l => (levelQ s n t l).map fun q => (r, q)

/-- Layout mode of a stream. -/
def layoutOf (s : State) (n : StreamId) : LayoutMode :=
  if isTiled s n then .stripeTile else if 1 < gangSize s n then .slice else .single

/-! ## The layout in use, latched at the channel start (R84) -/

def tiledNow (s : State) (n : StreamId) : Bool := decide (s.streams[n].mode = .stripeTile)

/-- The CTB lengths of the slices of a channel's part, with the segment each lies in, in order. -/
def sliceList (s : State) (n : StreamId) (c : Chan) : List (Nat × Nat) :=
  (segmentSizes s n (tiledNow s n) c).zipIdx.flatMap fun g =>
    let len := sliceLength g.1 s.streams[n].q
    (List.range (slicesOf g.1 s.streams[n].q)).map fun i => (min len (g.1 - i * len), g.2)

def slicesNow (s : State) (n : StreamId) (c : Chan) : Nat := (sliceList s n c).length

/-- Whether CTU i of a part opens a slice. -/
def opensSlice : List (Nat × Nat) → Nat → Bool
  | [], _ => false
  | x :: t, i => decide (i = 0) || (decide (x.1 ≤ i) && opensSlice t (i - x.1))

/-- Luma samples of a channel's part of CTB row r, chroma included. -/
def partSamples (s : State) (n : StreamId) (c : Chan) (r : Nat) : Nat :=
  withChroma (streamChroma s n) (partWidth s n c) (rowLines s n r)

def rowSamples (s : State) (n : StreamId) (r : Nat) : Nat := ((streamChans s n).map fun c => partSamples s n c r).sum

/-- Slices of a stripe of a stream in use. -/
def slicesPerStripe (s : State) (n : StreamId) : Nat := ((streamChans s n).map (slicesNow s n)).sum

/-- Streams enabled on a channel. -/
def streamsOn (s : State) (c : Chan) : List StreamId := allStreams.filter (carries s c)

/-- Enabled streams. -/
def enabledStreams (s : State) : List StreamId := allStreams.filter (streamEnabled s)

end Sys2Proof.Machine
end

