-- ==== Sys2Proof/Machine/Headers.lean ====
section
/-! DEFINITION. The non-VCL NAL units of a stream, bit by bit, for the exact bytes that the Pacer counts: AUD, VPS, SPS, PPS
and SEI with the field values of 03_streams.md R74 to R79 and 05_pacer.md R111, R112; the syntax is that of H.265 (log
entry 7). -/

namespace Sys2Proof.Machine

/-! ## Bits -/

abbrev Bits := List Bool

/-- u(n). -/
def un : Nat → Nat → Bits
  | 0, _ => []
  | n + 1, v => v.testBit n :: un n v

/-- ue(v). -/
def ue (v : Nat) : Bits :=
  let n := Nat.log2 (v + 1)
  List.replicate n false ++ un (n + 1) (v + 1)

/-- se(v). -/
def se (v : Int) : Bits := if 0 < v then ue (2 * v.toNat - 1) else ue (2 * (-v).toNat)

def flagBit (b : Bool) : Bits := [b]

/-- Zero bits up to a whole byte. -/
def alignBits (b : Bits) : Bits := b ++ List.replicate ((8 - b.length % 8) % 8) false

/-- RBSP trailing bits. -/
def trailing (b : Bits) : Bits := alignBits (b ++ [true])

def bitsNat (b : Bits) : Nat := b.foldl (fun a x => 2 * a + if x then 1 else 0) 0

/-- Whole bytes of a bit string; `n` bounds them. -/
def toBytes : Nat → Bits → List Nat
  | 0, _ => []
  | n + 1, b => if b.isEmpty then [] else bitsNat (b.take 8) :: toBytes n (b.drop 8)

/-- Emulation prevention: 3 before a byte of at most 3 that follows two zero bytes. -/
def escape : Nat → List Nat → List Nat
  | _, [] => []
  | z, b :: t =>
    if 2 ≤ z ∧ b ≤ 3 then 3 :: b :: escape (if b = 0 then 1 else 0) t
    else b :: escape (if b = 0 then z + 1 else 0) t

/-- A NAL unit of a type: its bytes without start code (R75). -/
def nalUnit (ty : Nat) (rbsp : Bits) : List Nat := escape 0 (2 * ty :: 1 :: toBytes (rbsp.length + 8) rbsp)

/-- Bits a NAL unit counts in the model, its start code included (R108). -/
def nalBits (b : List Nat) : Nat := 8 * (b.length + 4)

/-! ## Parameter sets -/

/-- The constraint flags of a range-extension profile, H.265 Table A.2: 12, 10 and 8 bit, 4:2:2, 4:2:0, monochrome,
intra. -/
def constraintBits (p : Nat) : Nat :=
  match p with
  | 3 => 0b1001100
  | 4 => 0b1101000
  | 5 => 0b1001000
  | 6 => 0b1110000
  | 7 => 0b1100000
  | 8 => 0b1000000
  | 9 => 0b1001110
  | 10 => 0b0001110
  | _ => 0b0000001

/-- profile_tier_level( 1, 0 ). -/
def profileTierLevel (s : State) (n : StreamId) : Bits :=
  let p := profileOf s n
  let idc := profileIdc p
  let compat := if idc = 1 then 0x60000000 else if idc = 2 then 0x20000000 else 0x08000000
  un 2 0 ++ un 1 (cfg s (kStream n 0x0E)) ++ un 5 idc ++ un 32 compat ++ [true, false, true, true] ++
    (if idc = 4 then un 7 (constraintBits p) ++ [false, true] ++ un 34 0 else un 43 0) ++ [false] ++
    un 8 s.streams[n].level

def timingBits (s : State) (n : StreamId) : Bits :=
  [true] ++ un 32 (cfg s (kStream n 0x11)) ++ un 32 (cfg s (kStream n 0x10)) ++ [true] ++ ue 0

/-- sub-layer ordering info: one sub-layer (Table 3-8). -/
def orderingBits (s : State) (n : StreamId) : Bits := [true] ++ ue (refCount s n) ++ ue 0 ++ ue 0

def vpsBits (s : State) (n : StreamId) : Bits :=
  trailing (un 4 0 ++ [true, true] ++ un 6 0 ++ un 3 0 ++ [true] ++ un 16 0xFFFF ++ profileTierLevel s n ++
    orderingBits s n ++ un 6 0 ++ ue 0 ++ timingBits s n ++ ue 0 ++ [false])

/-- The sub-tick divisor D (R111). -/
def tickDivisor (s : State) : Nat :=
  let l := lapsOf s
  if l = 1 then 2 else if l ≤ 257 then l else 256

/-- hrd_parameters( 1, 0 ) with the values of Table 5-2. -/
def hrdBits (s : State) (n : StreamId) : Bits :=
  let au := (auScale s n).getD 15
  [true, false, true] ++ un 8 (tickDivisor s - 2) ++ un 5 8 ++ [false] ++ un 5 8 ++ un 4 (rateScale s n) ++ un 4 au ++
    un 4 (duScale s n) ++ un 5 23 ++ un 5 23 ++ un 5 23 ++ [true] ++ ue 0 ++ ue 0 ++
    ue (signalledRate s n / 2 ^ (6 + rateScale s n) - 1) ++ ue (signalledAuCpb s n / 2 ^ (4 + au) - 1) ++
    ue (signalledCpb s n / 2 ^ (4 + duScale s n) - 1) ++ ue (signalledRate s n / 2 ^ (6 + rateScale s n) - 1) ++
    [decide (cfg s (kPacer n 1) = 0)]

/-- log2_max_mv_length_horizontal and _vertical (04_prediction.md R87). -/
def mvLengths (s : State) (n : StreamId) : Nat × Nat :=
  let x := s.streams[n].search
  if intraOnly s n then (15, 15)
  else (min 15 (Nat.log2 (4 * x.reachH) + 1), min 15 (Nat.log2 (4 * (x.reachV + 1) * ctbSize s n) + 1))

def vuiBits (s : State) (n : StreamId) : Bits :=
  let c := cfg s (kStream n 0x17)
  let mv := mvLengths s n
  [true] ++ un 8 255 ++ un 32 (cfg s (kStream n 0x18)) ++ [false, true] ++ un 3 5 ++ [c.testBit 24, true] ++ un 24 c ++
    [false, false, false, false, false] ++ timingBits s n ++ [true] ++ hrdBits s n ++
    [true, true, true, true] ++ ue 0 ++ ue 0 ++ ue 0 ++ ue mv.1 ++ ue mv.2

/-- The conformance window where rounding added samples. -/
def windowBits (s : State) (n : StreamId) : Bits :=
  let z := codedSize s n
  let d := displaySize s n
  let c := streamChroma s n
  if z = d then [false]
  else [true] ++ ue 0 ++ ue ((z.1 - d.1) / subWidth c) ++ ue 0 ++ ue ((z.2 - d.2) / subHeight c)

def rangeExt (s : State) (n : StreamId) : Bool := decide (profileIdc (profileOf s n) = 4)

def refSetBits (s : State) (n : StreamId) : Bits :=
  if intraOnly s n then ue 0
  else ue 1 ++ ue (refCount s n) ++ ue 0 ++ (List.replicate (refCount s n) (ue 0 ++ [true])).flatten

def spsBits (s : State) (n : StreamId) : Bits :=
  let c := streamChroma s n
  let z := codedSize s n
  let deep := decide (streamDepth s n = 16)
  let inter := !intraOnly s n
  trailing (un 4 0 ++ un 3 0 ++ [true] ++ profileTierLevel s n ++ ue 0 ++ ue c ++ (if c = 3 then [false] else []) ++
    ue z.1 ++ ue z.2 ++ windowBits s n ++ ue (streamDepth s n - 8) ++ ue (streamDepth s n - 8) ++ ue 12 ++
    orderingBits s n ++ ue 0 ++ ue (Nat.log2 (ctbSize s n) - 3) ++ ue 0 ++ ue 3 ++ ue 1 ++ ue 1 ++
    [false, false, true, false] ++ refSetBits s n ++ [false, inter, true, true] ++ vuiBits s n ++
    (if rangeExt s n then [true, true] ++ un 7 0 ++ [false, false, false, false, deep, false, false, deep, false]
     else [false]))

/-- A signed byte field of an object. -/
def byteAt (w lo : Nat) : Int := asSigned 8 (fieldOf w (lo + 7) lo)

/-- Widths of the tile columns in order. -/
def tileColumns (s : State) (n : StreamId) : List Nat := (streamChans s n).flatMap (segmentSizes s n true)

def ppsBits (s : State) (n : StreamId) : Bits :=
  let off := applied s (kStream n 0x1B)
  let dbk := applied s (kStream n 0x1A)
  let cols := tileColumns s n
  let rows := ctbRows s n
  let tiles := if tiledNow s n then
      ue (cols.length - 1) ++ ue (rows - 1) ++ [false] ++ (cols.dropLast.flatMap fun k => ue (k - 1)) ++
        (List.replicate (rows - 1) (ue 0)).flatten ++ [true]
    else []
  let scale := streamDepth s n - 10
  trailing (ue 0 ++ ue 0 ++ [false, false] ++ un 3 0 ++ [true, false] ++ ue (refCount s n - 1) ++ ue 0 ++ se 0 ++
    [false, false, true] ++ ue 0 ++ se (byteAt off 8) ++ se (byteAt off 0) ++ [false, false, false, false] ++
    [tiledNow s n, false] ++ tiles ++ [true, true, false, false] ++ se (byteAt dbk 8) ++ se (byteAt dbk 0) ++
    [false, false] ++ ue 0 ++ [false] ++
    (if rangeExt s n then [true, true] ++ un 7 0 ++ [false, false] ++ ue scale ++ ue scale else [false]))

/-- VPS, SPS and PPS. -/
def parameterUnits (s : State) (n : StreamId) : List (List Nat) :=
  [nalUnit 32 (vpsBits s n), nalUnit 33 (spsBits s n), nalUnit 34 (ppsBits s n)]

/-! ## Slices (R60, R78) -/

/-- The NAL unit type of a picture's slices (Table 3-3). -/
def sliceNalType (s : State) (n : StreamId) (irap : Bool) : Nat := if irap then 20 else if intraOnly s n then 0 else 1

/-- Bits of slice_segment_address: ceil(log2 of the CTBs of the picture). -/
def addressBits (s : State) (n : StreamId) : Nat :=
  let k := ctbCols s n * ctbRows s n
  if k ≤ 1 then 0 else Nat.log2 (k - 1) + 1

/-- The reference set of a slice outside an IRAP picture, and the TMVP flag of an inter stream. -/
def sliceReferenceBits (s : State) (n : StreamId) (tmvp : Bool) : Bits :=
  if intraOnly s n then [false] ++ ue 0 ++ ue 0 else [true, tmvp]

/-- The fields that only P slices have; cabac_init_flag is absent, since cabac_init_present_flag is 0 (Table 3-9). -/
def sliceInterBits (s : State) (n : StreamId) (tmvp : Bool) : Bits :=
  [false] ++ (if tmvp && decide (1 < refCount s n) then ue 0 else []) ++ ue 0

/-- The slice segment header of Table 3-10, byte alignment included: of a picture's slice at a CTB address with its slice QP, `p` for a P slice. -/
def sliceHeader (s : State) (n : StreamId) (irap : Bool) (poc : Nat) (tmvp sao : Bool) (addr qp : Nat) (p : Bool) : Bits :=
  let first := decide (addr = 0)
  trailing ([first] ++ (if irap then [false] else []) ++ ue 0 ++ (if first then [] else un (addressBits s n) addr) ++
    ue (if p then 1 else 2) ++
    (if irap then [] else un 16 (poc % 65536) ++ sliceReferenceBits s n tmvp) ++
    [sao] ++ (if streamChroma s n = 0 then [] else [sao]) ++
    (if p then sliceInterBits s n tmvp else []) ++ se ((qp : Int) - 26) ++ [true] ++
    if tiledNow s n then ue 0 else [])

/-- Bits of a slice besides its CTUs as they are spent when it begins: start code, NAL unit header, slice segment header. -/
def sliceHeadBits (h : Bits) : Nat := 48 + h.length

/-! ## SEI (R79, R112) -/

/-- An SEI message: type, size, payload brought to whole bytes. -/
def seiMessage (ty : Nat) (payload : Bits) : Bits :=
  let p := if payload.length % 8 = 0 then payload else alignBits (payload ++ [true])
  un 8 ty ++ un 8 (p.length / 8) ++ p

def seiUnit (prefix_ : Bool) (ty : Nat) (payload : Bits) : List Nat :=
  nalUnit (if prefix_ then 39 else 40) (trailing (seiMessage ty payload))

/-- Numerator and denominator of d in seconds: B / R - s_x - 1 / 90,000 (Table 5-1), the numerator signed. -/
def delayDen (s : State) (n : StreamId) : Nat := signalledRate s n * (pictureDen s * 256 * cyclesPerSec) * 90000

def delayNum (s : State) (n : StreamId) : Int :=
  let r := signalledRate s n
  let d1 := pictureDen s * 256 * cyclesPerSec
  let sub := if lapsOf s ≤ 257 then 0 else r * pictureNum s * 90000
  (signalledCpb s n * d1 * 90000 : Nat) - (sub : Nat) - (r * d1 : Nat)

/-- U = floor(R × d). -/
def modelLimit (s : State) (n : StreamId) : Nat :=
  (delayNum s n * signalledRate s n / max 1 (delayDen s n)).toNat

/-- t_span in 90 kHz units as numerator and denominator. -/
def spanNum (s : State) (n : StreamId) : Nat := spanLaps s n * lapNum s * 90000
def spanDen (s : State) : Nat := lapDen s * cyclesPerSec

/-- The alt initial delay and the initial delay: rounded up at the first IRAP after a start, else down from the occupancy
e_0 in bits, at least 1 (Table 5-3). -/
def initialDelays (s : State) (n : StreamId) (e0 : Option Nat) : Nat × Nat :=
  let den : Int := max 1 (delayDen s n)
  let sd : Int := max 1 (spanDen s)
  let up := fun (a b : Int) => (-((-a) / b)).toNat
  match e0 with
  | none =>
    let a := delayNum s n * 90000
    (up a den, up (a * sd + spanNum s n * den) (den * sd))
  | some e =>
    let a := delayNum s n * 90000 - (e * 90000 * (pictureDen s * 256 * cyclesPerSec) * 90000 : Nat)
    (max 1 (a / den).toNat, max 1 ((a * sd + spanNum s n * den) / (den * sd)).toNat)

def bufferingBits (d : Nat × Nat) : Bits :=
  seiMessage 0 (ue 0 ++ [false] ++ un 24 0 ++ un 24 d.2 ++ un 24 0 ++ un 24 d.1 ++ un 24 0)

/-- Pictures since the previous buffering period - 1, 0 in the first picture after a start. -/
def timingMessage (sinceBp : Nat) : Bits := seiMessage 1 (un 24 ((sinceBp - 1) % 2 ^ 24) ++ un 24 0 ++ un 9 0)

/-- Buffering period and picture timing in one prefix SEI unit (row 3 of Table 3-7; log entry 7). -/
def timingUnit (bp : Option (Nat × Nat)) (sinceBp : Nat) : List Nat :=
  nalUnit 39 (trailing ((match bp with
    | some d => bufferingBits d
    | none => []) ++ timingMessage sinceBp))

/-- Laps from the release of row r to that of the last row × D / L. -/
def duIncrement (s : State) (n : StreamId) (r : Nat) : Nat :=
  (stripeOfRow s n (ctbRows s n - 1) - stripeOfRow s n r) * tickDivisor s / lapsOf s

def duInfoUnit (s : State) (n : StreamId) (r : Nat) : List Nat :=
  seiUnit true 130 (ue r ++ un 9 (duIncrement s n r) ++ [false])

/-- The panels of a stream's group in panel-index order: source y, then x (R74). -/
def panelGroup (s : State) (n : StreamId) : List StreamId :=
  let at_ := fun (m : StreamId) => (cfg s (kStream m 5), cfg s (kStream m 4))
  ((enabledStreams s).filter fun m => isPanel s m && decide (cfg s (kStream m 0x1D) = cfg s (kStream n 0x1D))).mergeSort
    fun a b => decide ((at_ a).1 < (at_ b).1 ∨ ((at_ a).1 = (at_ b).1 ∧ (at_ a).2 ≤ (at_ b).2))

/-- The composition record of Tables 3-5 and 3-6. -/
def compositionBits (s : State) (n : StreamId) : Bits :=
  let g := panelGroup s n
  let x0 := (g.map fun m => cfg s (kStream m 4)).min?.getD 0
  let y0 := (g.map fun m => cfg s (kStream m 5)).min?.getD 0
  let x1 := (g.map fun m => cfg s (kStream m 4) + cfg s (kStream m 6)).foldl max 0
  let y1 := (g.map fun m => cfg s (kStream m 5) + cfg s (kStream m 7)).foldl max 0
  let uuid := "RyusisMBScompos1".toList.flatMap fun c => un 8 c.toNat
  uuid ++ un 8 1 ++ un 8 g.length ++ un 8 (g.idxOf n) ++ un 8 0 ++ un 32 (cfg s (kStream n 0x1D)) ++ un 16 (x1 - x0) ++
    un 16 (y1 - y0) ++ g.flatMap fun m =>
      un 16 (cfg s (kStream m 4) - x0) ++ un 16 (cfg s (kStream m 5) - y0) ++ un 16 (displaySize s m).1 ++
        un 16 (displaySize s m).2

/-- A time code of a TB1 time of day in seconds and the picture within the second (Table 3-11). -/
def timeCodeUnit (tod frames : Nat) : List Nat :=
  seiUnit true 136 (un 2 1 ++ [true, false] ++ un 5 0 ++ [true, false, false] ++ un 9 frames ++ un 6 (tod % 60) ++
    un 6 (tod / 60 % 60) ++ un 5 (tod / 3600 % 24) ++ un 5 0)

/-- The CRC picture hash: payload type 132, hash_type 1, a value of each component (R79). -/
def hashUnit (l : List (BitVec 16)) : List Nat := seiUnit false 132 (un 8 1 ++ l.flatMap fun v => un 16 v.toNat)

/-- Its size before the values are known: emulation prevention, which the values may call for, is not in it (log entry 7). -/
def hashBytes (s : State) (n : StreamId) : Nat := 2 + 2 + 1 + (if streamChroma s n = 0 then 2 else 6) + 1

/-- RTP timestamp of a TB0 time in 2⁻³² ns: floor(t × 90,000) mod 2³² (08_network.md R204). -/
def rtpStamp (t : Nat) : Nat := t * 90000 / (2 ^ 32 * 1000000000) % 2 ^ 32

/-- Pictures within the TB1 second of a TB0 time. -/
def frameInSecond (s : State) (t : Nat) : Nat :=
  t / 2 ^ 32 % 1000000000 * cfg s (key 0x2203 2) / (max 1 (cfg s (key 0x2203 3)) * 1000000000)

/-! ## The non-VCL units of a decoding unit (Table 3-7, R108) -/

/-- What the units ahead of a picture's first decoding unit depend on. -/
structure PictureHead where
  irap : Bool
  intra : Bool
  hash : Bool
  sinceBp : Nat
  e0 : Option Nat
  newPps : Bool
  tod : Nat
  frames : Nat
  deriving DecidableEq, Repr

def streamOptions (s : State) (n : StreamId) : Nat := applied s (kStream n 0x1C)

/-- The units ahead of a picture's first decoding unit; the delimiter's pic_type says whether every slice of the picture is an I slice (R75). They are made
of the values applied when its first row begins coding, also where that is lap 0 of the next picture, of which R80 says nothing (DESIGN CHOICE, log entry
86). -/
def headUnits (s : State) (n : StreamId) (h : PictureHead) : List (List Nat) :=
  let o := streamOptions s n
  (if o.testBit 1 then [nalUnit 35 (trailing (un 3 (if h.intra then 0 else 1)))] else []) ++
  (if h.irap || o.testBit 2 then parameterUnits s n
   else if h.newPps then [nalUnit 34 (ppsBits s n)] else []) ++
  [timingUnit (if h.irap then some (initialDelays s n h.e0) else none) h.sinceBp] ++
  (if h.irap && isPanel s n && o.testBit 0 then [seiUnit true 5 (compositionBits s n)] else []) ++
  (if o.testBit 5 then [timeCodeUnit (h.tod / (2 ^ 32 * 1000000000)) h.frames] else [])

/-- The units before the slices of row r. -/
def leadUnits (s : State) (n : StreamId) (r : Nat) (h : PictureHead) : List (List Nat) :=
  (if r = 0 then headUnits s n h else []) ++ [duInfoUnit s n r]

/-- Those after the slices: the hash, of a picture that opened with 0x3400:1C bit 3 set (R80; log entry 57, DESIGN CHOICE). -/
def tailUnits (s : State) (n : StreamId) (r : Nat) (hash : Bool) : List Nat :=
  if r + 1 = ctbRows s n ∧ hash then [hashBytes s n] else []

/-- Sizes in bytes, without start codes. -/
def unitSizes (l : List (List Nat)) : List Nat := l.map List.length

def unitBits (l : List Nat) : Nat := (l.map fun b => 8 * (b + 4)).sum

def nonVclBits (s : State) (n : StreamId) (r : Nat) (h : PictureHead) : Nat :=
  unitBits (unitSizes (leadUnits s n r h)) + unitBits (tailUnits s n r h.hash)

/-! ## Floor costs (R117) -/

/-- The floor cost of a channel's part: 120 per CTU, 192 per slice. -/
def partFloor (s : State) (n : StreamId) (c : Chan) : Nat := 120 * partCols s n c + 192 * slicesNow s n c

/-- The floor cost of a decoding unit. -/
def floorCost (s : State) (n : StreamId) (r : Nat) (h : PictureHead) : Nat :=
  ((streamChans s n).map (partFloor s n)).sum + nonVclBits s n r h

end Sys2Proof.Machine
end

