-- ==== Sys2Proof/Machine/Decoders.lean ====
section
/-! DEFINITION. The return decoder (06_decoders.md R146 to R153, R160). -/

namespace Sys2Proof.Machine

def kReturn (sub : Nat) : Nat := key 0x4800 sub

/-- TB0 now in ns since the PTP epoch. -/
def tb0NsNow (s : State) : Nat := s.time.tb0 / 2 ^ 32

/-! ## Errors (R147, Table 6-5) -/

/-- An error of a class is counted and LAST_CLASS set (Tables 6-10, 6-12). -/
def returnError (s : State) (c : ErrClass) : State :=
  let row : Nat × Nat := match c with
    | .e1 => (0x0D, 1)
    | .e2 => (0x0E, 2)
    | .e3 => (0x0F, 3)
    | .e4 => (0x10, 4)
    | .e5 => (0x11, 5)
    | .e6 => (0x12, 6)
  let t := if row.2 = 6 then bumpHalf s (kReturn 0x12) true else bump s (kReturn row.1)
  { t with ret := { t.ret with lastClass := row.2 } }

/-- A write suppressed in a verifying decoder: WRITE_SUPPRESSED, an EMCY, a unit fault (R146, Table 6-8). -/
def suppressedWrite (s : State) (c : Chan) : State :=
  let t := setFlag s (kChan c 0x3002 0x0A) 28
  reportUnitFault (raiseEmcy t 0x5012 (kChan c 0x3002 0x0A) c.val) (viewUnit s) 11

/-- Writes suppressed in the return decoder, each counted: WRITE_SUPPRESSED, an EMCY, a unit fault (R146). -/
def returnSuppressed (s : State) (count : Nat) : State :=
  if count = 0 then s
  else
    let t := setFlag (forEach (List.range count) (fun x _ => bumpHalf x (kReturn 0x12) false) s) (kReturn 0x0A) 27
    reportUnitFault (raiseEmcy t 0x5012 (kReturn 0x0A) 0) (viewUnit s) 11

/-! ## The decoded picture buffer (R152: H.265 Annex C) -/

/-- Output order: coded video sequences one after another, within one by POC. -/
def precedes (p q : RetPicture) : Bool := decide (p.sequence < q.sequence ∨ (p.sequence = q.sequence ∧ p.poc < q.poc))

/-- The first in output order. -/
def firstInOrder (l : List RetPicture) : Option RetPicture :=
  l.foldl (fun a p => match a with
    | none => some p
    | some q => if precedes p q then some p else some q) none

/-- The picture that bumping outputs next. -/
def nextBump (r : RetState) : Option RetPicture := firstInOrder (r.decoded.filter fun p => p.waiting)

/-- A picture leaves the buffer once it is neither awaited nor referred to. -/
def keptPicture (p : RetPicture) : Bool := p.waiting || p.reference

/-- One picture is output; it waits for its presentation time. -/
def bumpOne (r : RetState) : RetState :=
  match nextBump r with
  | none => r
  | some p => { r with
      bumped := r.bumped ++ [{ p with waiting := false }]
      decoded := (r.decoded.map fun q => if q = p then { q with waiting := false } else q).filter keptPicture }

/-- The reorder and latency conditions of Annex C. -/
def overReorder (f : ReturnFormat) (r : RetState) : Bool :=
  let w := r.decoded.filter fun p => p.waiting
  decide (f.reorder < w.length) || f.latency.any fun n => w.any fun p => decide (n ≤ p.passed)

/-- Pictures are output while a condition holds; `fuel` bounds them. -/
def bumpWhile (c : RetState → Bool) : Nat → RetState → RetState
  | 0, r => r
  | fuel + 1, r => if c r then bumpWhile c fuel (bumpOne r) else r

def bumpAll (r : RetState) : RetState := bumpWhile (fun x => (nextBump x).isSome) r.decoded.length r

/-- Room for the picture that opens: the reorder, latency and fullness conditions. -/
def makeRoom (f : ReturnFormat) (r : RetState) : RetState :=
  bumpWhile (fun x => (overReorder f x || decide (f.pictures ≤ x.decoded.length)) && (nextBump x).isSome) r.decoded.length r

/-- A decoded picture enters the buffer: the pictures that follow it in output order have waited for one more, then the reorder and latency
conditions output what they must. -/
def enterBuffer (r : RetState) (p : RetPicture) : RetState :=
  let older := r.decoded.map fun q => if p.waiting ∧ q.waiting ∧ precedes p q then { q with passed := q.passed + 1 } else q
  bumpWhile (overReorder p.form) (r.decoded.length + 1) { r with decoded := p :: older }

/-! ## Pictures (R147 to R149, R152) -/

/-- The value of a sample that was never received (R148, R149). -/
def greyValue (depth : Nat) : Nat := 2 ^ (depth - 1)

/-- A picture closes: its missing CTUs are grey, left out by deblocking and SAO, and make it concealed; it is counted and enters the picture buffer
(R149). -/
def closePicture (s : State) : State :=
  match s.ret.current with
  | none => s
  | some p =>
    let gaps := !p.missing.isEmpty
    let q : RetPicture := { p with concealed := p.concealed || gaps, reference := true }
    let s1 := if gaps then returnError s .e5 else s
    let s2 := bump s1 (kReturn 0x0B)
    let s3 := if q.concealed || q.derived then bump s2 (kReturn 0x0C) else s2
    { s3 with ret := enterBuffer { s3.ret with current := none, closedTs := some p.timestamp } q }

/-- The picture in progress whose presentation time has come. -/
def pictureDue (s : State) : Bool := s.ret.current.any fun p => decide (p.presentAt ≤ tb0NsNow s)

/-- The picture closes at its presentation time; the next access unit closes it as its first slice arrives (R149). -/
def execPictureClose (s : State) : Out := .next (if pictureDue s then closePicture s else s)

/-- The presentation time of an RTP timestamp on TB0 plus the playout delay, ns (R152). -/
def presentNs (s : State) (ts : Nat) : Nat :=
  let now := tb0NsNow s
  let clock := now * 9 / 100000
  let diff := asSigned 32 ((ts + 2 ^ 32 - clock % 2 ^ 32) % 2 ^ 32)
  ((now : Int) + diff * 100000 / 9).toNat + s.ret.setting.get 6 * 1000

/-- The next picture in output order that bumping has output, once its presentation time has come (R152). -/
def nextOutput (s : State) : Option RetPicture := s.ret.bumped.head?.filter fun p => decide (p.presentAt ≤ tb0NsNow s)

/-- A presentation time arrives: the picture in progress closes if it is its time (R149), and the next picture that bumping has output is eligible if
its time has come (R152). -/
def execPresentationTime (s : State) : Out :=
  let t := if pictureDue s then closePicture s else s
  match nextOutput t with
  | none => .next t
  | some p =>
    .next { t with ret := { t.ret with
      output := some { p with waiting := false, shown := true }
      outputs := t.ret.outputs + 1
      bumped := t.ret.bumped.drop 1 } }

/-- The time limit of a picture: 2 × the nominal period, at most 100 ms (Table 6-4). -/
def returnLimit (p : RetPicture) : Nat := min (100 * cyclesPerMs) (p.form.periodNs * 3)

/-- The limit is reached: class E6, and what is not decoded is missing. -/
def execReturnTimeLimit (s : State) : Out :=
  match s.ret.current with
  | some p => if p.openedAt + returnLimit p ≤ s.now then .next (closePicture (returnError s .e6)) else .next s
  | none => .next s

/-! ## NAL units (R150, R151) -/

/-- The constraint flags of the listed profiles with general_profile_idc 4 (H.265 A.3.5), from max_12bit to intra: Main 12, Main 4:2:2 10,
Main 4:2:2 12, Main 4:4:4, Main 4:4:4 10, Main 4:4:4 12, Monochrome 12. -/
def extensionProfiles : List Nat := [0b1001100, 0b1101000, 0b1001000, 0b1110000, 0b1100000, 0b1000000, 0b1001110]

/-- The profiles of Table 6-6. -/
def listedProfile (p : ReturnFormat) : Bool :=
  decide (p.profile = 1 ∨ p.profile = 2) ||
    (decide (p.profile = 4 ∧ p.constraints % 4 = 1) && extensionProfiles.contains (p.constraints / 4))

/-- The limits of Table 6-6 that parameter sets show. -/
def withinLimits (p : ReturnFormat) : Bool :=
  listedProfile p && decide (p.level ≤ 186 ∨ p.level = 255) &&
  decide (p.width ≤ 8192 ∧ p.height ≤ 8192 ∧ p.width * p.height ≤ 35651584) &&
  decide (p.samplesPerSecond ≤ 3000000000 ∧ p.slices ≤ 600 ∧ p.bitDepth ≤ 12 ∧ p.pictures ≤ 17)

/-- Class E3: the picture in progress closes, and none is decoded until an IRAP picture with valid parameter sets. -/
def waitIrap (s : State) : State :=
  let t := returnError (closePicture s) .e3
  { t with ret := { t.ret with waitIrap := true, begun := false } }

/-- A stream that carries PACI packets is class E3: the parameter sets it has sent no longer count (R151). -/
def dropParams (s : State) : State :=
  let t := waitIrap s
  { t with ret := { t.ret with sets := [] } }

/-- The stream is outside Table 6-6. -/
def outOfLimits (s : State) : State :=
  setFlag (waitIrap s) (kReturn 0x0A) 28

/-! ### Parameter sets (R147, R150) -/

def sameSet (x y : ParamSet) : Bool :=
  match x, y with
  | .vps i _, .vps j _ => decide (i = j)
  | .sps i _ _ _, .sps j _ _ _ => decide (i = j)
  | .pps i _ _ _, .pps j _ _ _ => decide (i = j)
  | _, _ => false

/-- A parameter set received replaces the one of its identifier; nothing is decided on it before a picture refers to it. -/
def takeSet (r : RetState) (x : ParamSet) : RetState := { r with sets := x :: r.sets.filter fun y => !sameSet x y }

def validVps (l : List ParamSet) (id : Nat) : Bool :=
  l.any fun x => match x with
    | .vps i v => v && decide (i = id)
    | _ => false

/-- The format of an SPS that is present and valid, as is the VPS it refers to. -/
def validSps (l : List ParamSet) (id : Nat) : Option ReturnFormat :=
  l.findSome? fun x => match x with
    | .sps i p v f => if v ∧ i = id ∧ validVps l p then some f else none
    | _ => none

/-- What the parameter sets say that a PPS names: it, its SPS and its VPS are all present and valid. -/
def validPps (l : List ParamSet) (id : Nat) : Option (ReturnFormat × TileGrid) :=
  l.findSome? fun x => match x with
    | .pps i p v g => if v ∧ i = id then (validSps l p).map fun f => (f, g) else none
    | _ => none

def isIrap (ty : Nat) : Bool := decide (16 ≤ ty ∧ ty < 24)

/-- The CTU of a slice at which its decoding meets an error of class E2: a syntax element or a list out of its range, the end of the first 8 MiB of
its NAL unit, or a CTU with too many bins (Table 6-4). -/
def sliceError (f : ReturnFormat) (x : ReturnSlice) : Option Nat :=
  ((if 16 < x.refs.length then [0] else []) ++ x.errorAt.toList ++ (if 8 * 2 ^ 20 < x.bytes then [x.held] else []) ++
    (x.bins.findIdx? fun b => decide (8 * f.ctuSamples + 4096 < b)).toList).min?

/-- CTUs lo to hi - 1 are covered. -/
def coverCtus (lo hi : Nat) (l : List (Nat × Nat)) : List (Nat × Nat) :=
  l.flatMap fun r =>
    (if r.1 < min r.2 lo then [(r.1, min r.2 lo)] else []) ++ (if max r.1 hi < r.2 then [(max r.1 hi, r.2)] else [])

/-- The tile, as its first CTU and its size, that a column or row of CTUs lies in; `first` is where the list begins. -/
def tileSpan : List Nat → Nat → Nat → Nat × Nat
  | [], first, _ => (first, 0)
  | n :: rest, first, k => if k < first + n then (first, n) else tileSpan rest (first + n) k

/-- The place in coding order of the CTU in column x and row y of a picture of so many CTUs each way: tile by tile, each in raster order (H.265
6.5.1). -/
def ctuOrder (g : TileGrid) (wide high x y : Nat) : Nat :=
  let c := if g.columns.isEmpty then (0, wide) else tileSpan g.columns 0 x
  let r := if g.rows.isEmpty then (0, high) else tileSpan g.rows 0 y
  r.1 * wide + c.1 * r.2 + (y - r.1) * c.2 + (x - c.1)

/-- Whether the CTU that holds a luma sample is missing, so that its samples have the value of R148 and neither deblocking nor SAO acts on them
(R149). -/
def missingAt (form : ReturnFormat) (g : TileGrid) (missing : List (Nat × Nat)) (x y : Nat) : Bool :=
  let k := ctuOrder g (ceilDiv form.width form.ctb) (ceilDiv form.height form.ctb) (x / form.ctb) (y / form.ctb)
  missing.any fun r => decide (r.1 ≤ k ∧ k < r.2)

/-- Whether deblocking and SAO of the CTU at a luma sample reach across to that at another: neither is missing (R149). -/
def filtersAcross (p : RetPicture) (a b : Nat × Nat) : Bool :=
  !missingAt p.form p.tiles p.missing a.1 a.2 && !missingAt p.form p.tiles p.missing b.1 b.2

/-- Whether a picture's block at a luma sample counts as intra for temporal motion vector prediction: a substitute holds no motion field (R148). -/
def temporalIntra (p : RetPicture) (x y : Nat) : Bool := !p.motion || missingAt p.form p.tiles p.missing x y

/-- A picture of the buffer that the POC of the present sequence names. -/
def namedPicture (r : RetState) (poc : Int) (p : RetPicture) : Bool := decide (p.poc = poc ∧ p.sequence = r.sequence)

/-- Whether a slice predicts from a concealed or derived picture. -/
def tainted (r : RetState) (uses : List Int) : Bool :=
  uses.any fun v => r.decoded.any fun p => namedPicture r v p && (p.concealed || p.derived)

/-- A slice of the picture in progress: the CTUs decoded before an error are kept (Table 6-5, E2); a slice beyond 600 is outside Table 6-6. -/
def addSlice (s : State) (x : ReturnSlice) : State :=
  match s.ret.current with
  | none => s
  | some p =>
    if 600 ≤ p.slices then outOfLimits { s with ret := { s.ret with current := none } }
    else
      let e := sliceError p.form x
      let t := returnSuppressed (if e.isSome then returnError s .e2 else s) x.suppressed
      { t with ret := { t.ret with current := some { p with
          missing := coverCtus x.firstCtu (x.firstCtu + min x.ctus (e.getD x.ctus)) p.missing
          slices := p.slices + 1
          derived := p.derived || tainted t.ret x.uses
          concealed := p.concealed || e.isSome } } }

/-- A picture that the reference picture set names and the buffer does not hold is substituted: every CTU of it missing, so every sample grey,
concealed, without a motion field, so that temporal prediction treats it as intra (R148). -/
def substitute (f : ReturnFormat) (g : TileGrid) (ts : Nat) (s : State) (poc : Int) : State :=
  if s.ret.decoded.any (namedPicture s.ret poc) then s
  else
    let t := returnError s .e4
    let p : RetPicture :=
      { poc := poc, sequence := t.ret.sequence, timestamp := ts, irap := false, form := f, tiles := g, missing := [(0, f.ctus)], slices := 0,
        concealed := true, derived := false, motion := false, openedAt := s.now, presentAt := 0, shown := false, waiting := false,
        reference := true, passed := 0 }
    { t with ret := { t.ret with decoded := p :: t.ret.decoded } }

/-- The reference picture set marks the pictures it names; the others stay only while they wait for output (Annex C). -/
def markReferences (r : RetState) (refs : List Int) : RetState :=
  { r with decoded := (r.decoded.map fun p => { p with reference := refs.any fun v => namedPicture r v p }).filter keptPicture }

/-- A coded video sequence begins: IDR, BLA, and CRA where none is in progress (NoRaslOutputFlag of H.265). -/
def beginsSequence (r : RetState) (ty : Nat) : Bool := isIrap ty && (decide (ty ≤ 20) || !r.begun)

/-- Its pictures follow those before it; the earlier ones are output, or dropped where the stream says so or a CRA begins it (Annex C). -/
def startSequence (r : RetState) (x : ReturnSlice) : RetState :=
  let done := if x.discardPrior ∨ x.nalType = 21 then r else bumpAll r
  { done with decoded := [], sequence := r.sequence + 1, raslOff := true }

/-- The first slice of an access unit opens its picture. -/
def openPicture (s : State) (f : ReturnFormat) (g : TileGrid) (ts : Nat) (x : ReturnSlice) : State :=
  let s1 := closePicture s
  let fresh := beginsSequence s1.ret x.nalType
  let r1 := if fresh then startSequence s1.ret x else { s1.ret with raslOff := s1.ret.raslOff && !isIrap x.nalType }
  let s2 := forEach (x.refs.take 16) (substitute f g ts) { s1 with ret := markReferences r1 x.refs }
  let r := makeRoom f s2.ret
  let rasl := decide (x.nalType = 8 ∨ x.nalType = 9)
  let p : RetPicture :=
    { poc := x.poc, sequence := r.sequence, timestamp := ts, irap := isIrap x.nalType, form := f, tiles := g, missing := [(0, f.ctus)],
      slices := 0, concealed := false, derived := false, motion := true, openedAt := s.now, presentAt := presentNs s ts, shown := false,
      waiting := x.shown && !(rasl && r.raslOff), reference := true, passed := 0 }
  { s2 with ret := { r with current := some p, begun := true, waitIrap := r.waitIrap && !isIrap x.nalType } }

/-- 0x4800:13 and 14 at an IRAP picture (Table 6-10). -/
def noteFormat (s : State) (f : ReturnFormat) (ty : Nat) : State :=
  if isIrap ty then
    regPut (regPut s (kReturn 0x13) (f.width * 65536 + f.height)) (kReturn 0x14) (f.profile * 256 + f.level % 256)
  else s

/-- A slice whose parameter sets are absent or invalid, or signal sprop-max-don-diff above 0, or are outside Table 6-6: class E3 once a picture, and
nothing is decoded before an IRAP picture (R150, R151). -/
def refuseSlice (s : State) (x : ReturnSlice) (outside : Bool) : State :=
  if x.first ∨ ¬ s.ret.waitIrap then (if outside then outOfLimits s else waitIrap s) else s

/-- A slice of valid parameter sets; the rest of a picture that its presentation time has closed is too late. -/
def takeGoodSlice (s : State) (f : ReturnFormat) (g : TileGrid) (ts : Nat) (x : ReturnSlice) : State :=
  if s.ret.waitIrap ∧ ¬ isIrap x.nalType then s
  else if x.first ∨ s.ret.current.all fun p => decide (p.timestamp ≠ ts) then
    (if ¬ x.first ∧ s.ret.closedTs = some ts then s else addSlice (noteFormat (openPicture s f g ts x) f x.nalType) x)
  else addSlice s x

/-- A slice, by the parameter sets that it refers to (R147, Table 6-5). -/
def takeSlice (s : State) (ts : Nat) (x : ReturnSlice) : State :=
  match validPps s.ret.sets x.pps with
  | none => refuseSlice s x false
  | some (f, g) =>
    if ¬ withinLimits f then refuseSlice s x true
    else if f.donDiff ≠ 0 then refuseSlice s x false
    else takeGoodSlice s f g ts x

/-- One NAL unit. A picture in progress keeps the format it opened with. -/
def takeNal (s : State) (ts : Nat) (n : NalInfo) : State :=
  match n with
  | .other => s
  | .endOfSequence => let t := closePicture s; { t with ret := { t.ret with begun := false } }
  | .params x => { s with ret := takeSet s.ret x }
  | .slice x => takeSlice s ts x

/-! ## Packets (R151) -/

/-- The NAL units that a packet holds or completes. -/
def takeNals (s : State) (r : RtpPacket) : State := forEach r.nals (fun x n => takeNal x r.ts n) s

/-- A fragmentation unit that lacks its start or end is one error of class E1 (Table 6-5). -/
def cutFragment (s : State) : State :=
  let t := if s.ret.fuOpen then returnError s .e1 else s
  { t with ret := { t.ret with fuOpen := false, fuLost := false } }

def lostStart (s : State) : State :=
  let t := if s.ret.fuLost then s else returnError s .e1
  { t with ret := { t.ret with fuLost := true } }

/-- One packet in sequence: single, aggregation and fragmentation units (R151). -/
def takePacket (s : State) (r : RtpPacket) : State :=
  match r.carry with
  | .paci => dropParams (cutFragment s)
  | .single => takeNals (cutFragment s) r
  | .aggregated => takeNals (cutFragment s) r
  | .fuStart => let t := cutFragment s; { t with ret := { t.ret with fuOpen := true } }
  | .fuMiddle => if s.ret.fuOpen then s else lostStart s
  | .fuEnd =>
    if s.ret.fuOpen then takeNals { s with ret := { s.ret with fuOpen := false } } r
    else let t := lostStart s; { t with ret := { t.ret with fuLost := false } }

/-! ## Paths and order (R151) -/

/-- The arrival of the first packet behind the present gap; none where no packet is held. -/
def heldSince (r : RetState) : Option Nat := (r.reorder.map Prod.fst).min?

/-- Packets held that follow in sequence; where others are held behind a further gap, its wait counts from the first of them; `fuel` bounds them. -/
def drainHeld : Nat → State → State
  | 0, s => { s with ret := { s.ret with gapAt := heldSince s.ret } }
  | fuel + 1, s =>
    match s.ret.nextSeq.bind fun n => s.ret.reorder.find? fun r => r.2.seq == n with
    | none => { s with ret := { s.ret with gapAt := heldSince s.ret } }
    | some r =>
      drainHeld fuel (takePacket { s with ret := { s.ret with
        nextSeq := some ((r.2.seq + 1) % 65536)
        reorder := s.ret.reorder.filter fun x => x.2.seq != r.2.seq } } r.2)

/-- Distance of a sequence number ahead of the expected one. -/
def seqAhead (n seq : Nat) : Nat := (seq + 65536 - n) % 65536

/-- A packet that matches the filter: in order it is decoded, ahead it is held, behind it is a duplicate. -/
def takeRtp (s : State) (r : RtpPacket) : State :=
  match s.ret.nextSeq with
  | none => takePacket { s with ret := { s.ret with nextSeq := some ((r.seq + 1) % 65536) } } r
  | some n =>
    if seqAhead n r.seq = 0 then
      drainHeld s.ret.reorder.length (takePacket { s with ret := { s.ret with nextSeq := some ((n + 1) % 65536) } } r)
    else if seqAhead n r.seq < 32768 then
      if s.ret.reorder.any fun x => x.2.seq == r.seq then s
      else { s with ret := { s.ret with reorder := (s.now, r) :: s.ret.reorder, gapAt := s.ret.gapAt <|> some s.now } }
    else s

/-- The lowest port of the mask: the first path. -/
def firstPath (mask : Nat) : Nat := if mask.testBit 0 then 0 else if mask.testBit 1 then 1 else if mask.testBit 2 then 2 else 3

/-- The filter of R151: the path's destination, UDP port, payload type and, when not 0, SSRC. -/
def returnMatches (s : State) (p : PortId) (dstIp dstPort : Nat) (r : RtpPacket) : Bool :=
  let g := s.ret.setting
  s.ret.enabled && (g.get 0).testBit p.val && decide (dstIp = if firstPath (g.get 0) = p.val then g.get 1 else g.get 2) &&
    decide (dstPort = g.get 3 ∧ r.pt = g.get 5) && decide (g.get 4 = 0 ∨ g.get 4 = r.ssrc)

/-- Bytes that 2 Gb/s bring in a second. -/
def rateLimit : Nat := 2 * 10 ^ 9 / 8

/-- Bytes of a path in the present second (log entry 61, DESIGN CHOICE: R150 names no interval). -/
def pathRate (now len : Nat) (x : PathRate) : PathRate :=
  if x.since + cyclesPerSec ≤ now then ⟨now, len⟩ else { x with bytes := x.bytes + len }

/-- A packet of the feed on port p, in a frame of `len` bytes; a path above 2 Gb/s makes the stream one outside Table 6-6. -/
def returnPacket (s : State) (p : PortId) (len : Nat) (r : RtpPacket) : State :=
  let second := decide (firstPath (s.ret.setting.get 0) ≠ p.val)
  let i : Fin 2 := if second then 1 else 0
  let old := s.ret.rates.get i
  let new := pathRate s.now len old
  let t : State := { s with ret := { s.ret with secondPath := s.ret.secondPath || second, rates := vmod s.ret.rates i fun _ => new } }
  takeRtp (if rateLimit < new.bytes ∧ new.bytes - len ≤ rateLimit then outOfLimits t else t) r

/-- The next packet held after a gap. -/
def nextHeld (s : State) (n : Nat) : Option Nat :=
  (s.ret.reorder.map fun r => seqAhead n r.2.seq).min?.map fun d => (n + d) % 65536

/-- A gap is given up after 0x4800:09, and no later than the presentation time of a packet behind it: packets are reordered within the playout delay
(R151; log entry 61, DEDUCED). -/
def gapOver (s : State) (since : Nat) : Bool :=
  decide (since + s.ret.setting.get 7 * cyclesPerUs ≤ s.now) || s.ret.reorder.any fun r => decide (presentNs s r.2.ts ≤ tb0NsNow s)

/-- A gap not filled in time is a class E1 error, and decoding goes on after it (R151, Table 6-5). -/
def execPathSkewExpiry (s : State) : Out :=
  match s.ret.gapAt, s.ret.nextSeq with
  | some t, some n =>
    if gapOver s t then
      let s1 := returnError s .e1
      .next (drainHeld s1.ret.reorder.length { s1 with ret := { s1.ret with
        nextSeq := (nextHeld s n) <|> some n
        fuOpen := false
        fuLost := true } })
    else .next s
  | _, _ => .next s

/-! ## Enable (R153, R160) -/

/-- The settings 0x4800:02 to 09 in effect at an enable. -/
def returnSettings (s : State) : Vector Nat 8 :=
  #v[cfg s (kReturn 2), cfg s (kReturn 3), cfg s (kReturn 4), cfg s (kReturn 5), cfg s (kReturn 6), cfg s (kReturn 7),
    cfg s (kReturn 8), cfg s (kReturn 9)]

end Sys2Proof.Machine
end

