-- ==== Sys2Proof/Machine/Lanes.lean ====
section
/-! DEFINITION. Sensor lanes and links: the lane state machine, deskew, line packets and their faults, arrival windows, the
comparison of the units, picture phase and the pull (07_sensor_lanes.md). -/

namespace Sys2Proof.Machine

def kInput (sub : Nat) : Nat := key 0x2300 sub

/-! ## Links and lanes by configuration (R169) -/

def linkOn (s : State) (l : LinkId) : Bool := decide (cfg s (kLink l 1) = 1)
def linkFirst (s : State) (l : LinkId) : Nat := cfg s (kLink l 2)
def linkCount (s : State) (l : LinkId) : Nat := cfg s (kLink l 3)

/-- The lanes of a link. -/
def linkLanes (s : State) (l : LinkId) : List LaneId :=
  allLanes.filter fun n => decide (linkFirst s l ≤ n.val ∧ n.val < linkFirst s l + linkCount s l)

/-- The enabled link that uses a lane; a lane of no link is DISABLED (R165). -/
def laneLink (s : State) (n : LaneId) : Option LinkId := allLinks.find? fun l => linkOn s l && (linkLanes s l).contains n

def laneUsed (s : State) (n : LaneId) : Bool := (laneLink s n).isSome

def laneAt (s : State) (u : UnitId) (n : LaneId) : Lane := (s.lanes.get u).get n

def setLane (s : State) (u : UnitId) (n : LaneId) (x : Lane) : State :=
  { s with lanes := s.lanes.mod u fun v => vmod v n fun _ => x }

/-! ## Links up and down (R170) -/

/-- The lane on which block i of a link's stream travels (R164). -/
def streamLane (s : State) (l : LinkId) (i : Nat) : Option LaneId :=
  let lanes := linkLanes s l
  lanes[i % max 1 lanes.length]?

/-- Blocks of 66 UI in a time: 99/16 core cycles each. -/
def lanesBlocks (cycles : Nat) : Nat := cycles * 16 / 99

/-- When a lane received the marker m, of its last two. -/
def markerTime (m : BitVec 16) (x : Lane) : Option Nat :=
  if x.marker = some m then some x.markerAt else if x.prevMarker = some m then some x.prevAt else none

/-- Skew in blocks of the lanes' markers m; none where a lane has not received it. -/
def markerSkew (m : BitVec 16) (l : List Lane) : Option Nat :=
  if l.all fun x => (markerTime m x).isSome then
    let at_ := l.filterMap (markerTime m)
    let hi := at_.foldl max 0
    some (lanesBlocks (hi - at_.foldl min hi))
  else none

/-- A lane already at its next marker waits no longer than 8 blocks for the others. -/
def laneWaits (now : Nat) (m : BitVec 16) (x : Lane) : Bool := decide (x.marker = some m) || decide (lanesBlocks (now - x.markerAt) ≤ 8)

/-- The skew at the newest marker that aligns the lanes within 8 blocks (R170). -/
def alignedSkew (now : Nat) (l : List Lane) : Option Nat :=
  match l with
  | [] => none
  | x :: _ => (x.marker.toList ++ x.prevMarker.toList).findSome? fun m =>
      (markerSkew m l).filter fun k => decide (k ≤ 8) && l.all (laneWaits now m)

/-- Every lane LOCKED and the markers align within 8 blocks. -/
def linkAligned (now : Nat) (l : List Lane) : Bool := (l.all fun x => decide (x.mode = .locked)) && (alignedSkew now l).isSome

/-- The link's state after a lane of it changed; one that comes up expects any ALIVE first, and so does its
check-value unit (R170, R173; 14_integrity.md R344). -/
def settleLink (s : State) (u : UnitId) (l : LinkId) : State :=
  let lanes := (linkLanes s l).map (laneAt s u)
  let up := linkOn s l && linkAligned s.now lanes
  let fresh := up && !((s.links.get u).get l).up && decide (s.relay.active = some u)
  let cv := finOf 16 (by decide) (8 + l.val / 2)
  { s with
    cv := if fresh then vmod s.cv cv fun _ => { alive := none } else s.cv
    links := s.links.mod u fun v => vmod v l fun x =>
      { x with
        up := up
        skew := if up then (alignedSkew s.now lanes).getD 0 else x.skew
        expAlive := if up && x.up then x.expAlive else none } }

/-- A lane takes a new value and its link settles. -/
def laneStep (s : State) (u : UnitId) (n : LaneId) (f : Lane → Lane) : State :=
  match laneLink s n with
  | none => s
  | some l => settleLink (setLane s u n (f (laneAt s u n))) u l

/-! ## The lane state machine (R165, R166, Table 7-3) -/

/-- To HUNT with the valid-header count at 0. -/
def toHunt (x : Lane) : Lane := { x with mode := .hunt, valid := 0, window := 0, wakeSeen := false, marker := none, prevMarker := none }

def loseLock (x : Lane) : Lane := { toHunt x with lockLosses := min 255 (x.lockLosses + 1) }

/-- LOS: DOWN from any state but IDLE, where it is masked. -/
def losLane (x : Lane) : Lane :=
  if x.mode = .idle ∨ x.mode = .disabled then { x with los := true }
  else { x with los := true, mode := .down, marker := none, prevMarker := none }

def execLosAssert (u : UnitId) (l : LaneId) (s : State) : Out := .next (laneStep s u l losLane)

/-- DOWN with LOS released and LOL clear: HUNT. -/
def leaveDown (x : Lane) : Lane := if x.mode = .down ∧ ¬ x.los ∧ ¬ x.lol then toHunt x else x

/-- A lane that its link comes to use leaves DISABLED; one that no link uses any more enters it (R165). -/
def enableLane (used : Bool) (x : Lane) : Lane :=
  if used then leaveDown (if x.mode = .disabled then { x with mode := .down } else x)
  else { x with mode := .disabled, marker := none, prevMarker := none }

/-- Lanes and links follow a new configuration in both units. -/
def settleLanes (s : State) : State :=
  let use := fun (v : Vector Lane 64) => (Vector.ofFn fun n => enableLane (laneUsed s n) (v.get n) : Vector Lane 64)
  forEach allLinks (fun x l => settleLink (settleLink x .a l) .b l) { s with lanes := ⟨use s.lanes.a, use s.lanes.b⟩ }

def execLosRelease (u : UnitId) (l : LaneId) (s : State) : Out :=
  .next (laneStep s u l fun x => leaveDown { x with los := false })

def execLolRelease (u : UnitId) (l : LaneId) (s : State) : Out :=
  .next (laneStep s u l fun x => leaveDown { x with lol := false })

def lolLane (x : Lane) : Lane := if x.mode = .locked then loseLock { x with lol := true } else { x with lol := true }

def execLolAssert (u : UnitId) (l : LaneId) (s : State) : Out := .next (laneStep s u l lolLane)

/-- An idle lane sees signal: WAKE, its detectors no longer masked. -/
def wakeLane (now : Nat) (x : Lane) : Lane :=
  if x.mode = .idle then { x with mode := .wake, valid := 0, wakeSeen := false, wakeAt := now, los := false, lol := false }
  else x

def execSignalDetect (u : UnitId) (l : LaneId) (s : State) : Out := .next (laneStep s u l (wakeLane s.now))

/-- 100 ns in core cycles. -/
def wakeLimit : Nat := 150

def slowExit (x : Lane) : Lane := { toHunt x with slowExits := min 255 (x.slowExits + 1) }

def lateWake (now : Nat) (x : Lane) : Lane := if x.mode = .wake ∧ x.wakeAt + wakeLimit ≤ now then slowExit x else x

def execWakeTimeout (u : UnitId) (l : LaneId) (s : State) : Out := .next (laneStep s u l (lateWake s.now))

/-- The self-synchronous descrambler 1 + x³⁹ + x⁵⁸ over one payload: the plain payload and the next state (R163). -/
def descramble (prev : BitVec 58) (p : BitVec 64) : BitVec 64 × BitVec 58 :=
  let x := prev.toNat + p.toNat * 2 ^ 58
  (p ^^^ BitVec.ofNat 64 (x >>> 19) ^^^ BitVec.ofNat 64 x, BitVec.ofNat 58 (x >>> 64))

def validHeader (b : Block66) : Bool := decide (b.sync = 1 ∨ b.sync = 2)

/-- Sync header 10: bit 1 set. -/
def isControl (b : Block66) : Bool := decide (b.sync = 2)

/-- Invalid headers among the last 64 blocks. -/
def popCount (w : BitVec 64) : Nat := ((List.range 64).filter fun i => w.getLsbD i).length

/-- The wake block: type 0x5A with its fixed pattern (Table 7-2). -/
def wakeBlock (p : BitVec 64) : Bool := decide (p = 0xA596F00FCC33C35A#64)

/-- One block at a lane (Table 7-3); markers are noted for the deskew (R164, R170). -/
def blockLane (now : Nat) (b : Block66) (x0 : Lane) : Lane :=
  let d := descramble x0.scrambler b.payload
  let x := { x0 with scrambler := d.2 }
  let ty := d.1.toNat % 256
  let ok := validHeader b
  match x.mode with
  | .hunt =>
    if ok then
      (if 128 ≤ x.valid + 1 then { x with mode := .locked, valid := 0, window := 0 } else { x with valid := x.valid + 1 })
    else { x with valid := 0, slips := (x.slips + 1) % 66 }
  | .locked =>
    let w := (x.window <<< 1) ||| (if ok then 0#64 else 1#64)
    let y := { x with window := w }
    if 16 ≤ popCount w then loseLock y
    else if isControl b && decide (ty = 0x69) then { y with mode := .idle, marker := none, prevMarker := none }
    else if isControl b && decide (ty = 0xA5) then
      { y with marker := some (BitVec.ofNat 16 (d.1.toNat >>> 8)), markerAt := now, prevMarker := y.marker, prevAt := y.markerAt }
    else y
  | .wake =>
    if !ok then slowExit x
    else if isControl b && wakeBlock d.1 then
      (if 16 ≤ x.valid + 1 then { x with mode := .locked, valid := 0, window := 0, wakeSeen := false }
       else { x with valid := x.valid + 1, wakeSeen := true })
    else if x.wakeSeen then slowExit x
    else x
  | _ => x

/-- Whether a lane's polarity is inverted: bit i of 0x2310:06 for lane first + i of its link (R169). -/
def laneInverted (s : State) (n : LaneId) : Bool :=
  (laneLink s n).any fun l => (cfg s (kLink l 6)).testBit (n.val - linkFirst s l)

/-- A block of a lane with inverted polarity. -/
def flipBlock (inverted : Bool) (b : Block66) : Block66 := if inverted then ⟨~~~b.sync, ~~~b.payload⟩ else b

def execBlockRx (u : UnitId) (l : LaneId) (b : Block66) (s : State) : Out :=
  .next (laneStep s u l (blockLane s.now (flipBlock (laneInverted s l) b)))

/-! ## Line packets (R171 to R176) -/

/-- Samples of a line of w luma columns by chroma format; odd lines of 4:2:0 carry luma only (R172). -/
def lineSamples (chroma w line : Nat) : Nat :=
  match chroma with
  | 0 => w
  | 1 => if line % 2 = 0 then w + 2 * (w / 2) else w
  | 2 => 2 * w
  | _ => 3 * w

def bandWidth (s : State) (l : LinkId) : Nat := cfg s (kLink l 5)

/-- BLOCKS of a line of the band. -/
def bandBlocks (s : State) (l : LinkId) (line : Nat) : Nat :=
  ceilDiv (lineSamples (inputChroma s) (bandWidth s l) line * inputDepth s) 64

/-- The header block's 64 payload bits (Table 7-5). -/
def headerWord (p : LinePacket) : Nat := p.blocks * 2 ^ 48 + p.flags * 2 ^ 32 + p.line * 2 ^ 16 + p.alive * 2 ^ 8 + 0x3C

/-- The CRC-32C of a line packet (R173). -/
def lineCrc (p : LinePacket) : BitVec 32 :=
  crc32c (leBytes 8 (headerWord p) ++ p.payload.flatMap fun w => leBytes 8 w.toNat)

/-- The samples of a payload: sample i at bits [i × b + b - 1 : i × b] (R172). -/
def unpackLine (depth n : Nat) (payload : List (BitVec 64)) : List Nat :=
  let bits := payload.reverse.foldl (fun a w => a * 2 ^ 64 + w.toNat) 0
  (List.range n).map fun i => (bits >>> (i * depth)) % 2 ^ depth

/-- Where the window of a line's stripe stands: before it, open, or closed (R174). The last tick taken is lap j of the
picture: stripe k is open from tick k - 1 to tick k + 1. -/
inductive WindowPlace where
  | early
  | here
  | late
  deriving DecidableEq, Repr

/-- A packet that opens a picture on a link: line 0 with PICTURE_START. -/
def opensPicture (p : LinePacket) : Bool := decide (p.line = 0) && p.flags.testBit 0

/-- The lap after which no lap of the picture in progress comes: its last one, or none where no picture is in progress. -/
def inLastLap (s : State) : Bool := decide (s.lap.period = 0 ∨ s.lap.inPicture + 1 = lapsOf s)

/-- The picture a link is in: from tick -1 on of the next picture it has begun that one where a line of it was accepted (R174, R175). -/
def linkOpened (s : State) (x : Link) : Bool := decide ((if inLastLap s then s.lap.picture + 1 else s.lap.picture) ≤ x.picture)

/-- The number of the picture that a line packet belongs to. With one lap per picture the windows of two pictures are open together: a link that has
begun the picture in progress begins the next one with its line 0; on one that has not, a line 0 up to a quarter of a lap after tick 0, or another line
up to half a lap after it, is one of the picture in progress (log entry 67, DESIGN CHOICE). -/
def packetPicture (s : State) (x : Link) (line : Nat) (opens : Bool) : Nat :=
  let p := s.lap.picture
  if ¬ inLastLap s then p
  else if x.picture = p + 1 ∨ s.lap.period = 0 then p + 1
  else if 1 < lapsOf s then (if line / stripeHeight s = 0 then p + 1 else p)
  else if x.picture = p then (if opens then p + 1 else p)
  else if (s.now - s.lap.lastTick) * 512 * (if opens then 2 else 1) < s.lap.period then p
  else p + 1

/-- Where the window of a line of picture `q` stands; a line of a stripe still to come, on a link that has begun no picture since the last one, is one
of that picture. -/
def windowOf (s : State) (opened : Bool) (q line : Nat) : WindowPlace :=
  let k := line / stripeHeight s
  let j := s.lap.inPicture
  if q = s.lap.picture + 1 then (if inLastLap s ∧ k = 0 then .here else if ¬ opened ∧ 0 < s.lap.period then .late else .early)
  else if j = k ∨ j + 1 = k then .here
  else if k < j ∨ (¬ opened ∧ 0 < s.lap.period) then .late
  else .early

/-- The classes of Table 7-8 that a packet itself decides. -/
inductive LineClass where
  | late
  | early
  | bad
  | repeated
  | stale
  | accepted (aliveGap : Bool)
  deriving DecidableEq, Repr

/-- Table 7-8, row by row; a line number outside the picture has no window. A line before its window is not accepted (R174). The expected LINE of a
picture that begins is 0. -/
def classifyLine (s : State) (l : LinkId) (x : Link) (p : LinePacket) : LineClass :=
  let q := packetPicture s x p.line (opensPicture p)
  let place := windowOf s (linkOpened s x) q p.line
  if p.line < activeLines s ∧ place = .late then .late
  else if lineCrc p ≠ p.crc then .bad
  else if p.blocks ≠ bandBlocks s l p.line ∨ ¬ p.whole then .bad
  else if x.lastLine = some (p.line, p.alive) then .repeated
  else if p.line < x.expLine ∧ ¬ (opensPicture p ∧ x.picture < q) then .stale
  else if activeLines s ≤ p.line then .stale
  else if place = .early then .early
  else .accepted (decide (x.expAlive ≠ none ∧ x.expAlive ≠ some (BitVec.ofNat 8 p.alive)))

/-- The link after a packet of picture `q`: the next expected LINE and ALIVE. A corrupt or late packet counts as one in the ALIVE
sequence. -/
def linkAfter (c : LineClass) (q : Nat) (p : LinePacket) (x : Link) : Link :=
  let from_ := if x.picture < q ∧ opensPicture p then 0 else x.expLine
  match c with
  | .accepted _ => { x with
      picture := q
      skipped := (List.range (p.line - from_)).map fun i => from_ + i
      expLine := p.line + 1
      expAlive := some (BitVec.ofNat 8 (p.alive + 1))
      lastLine := some (p.line, p.alive) }
  | .stale => { x with expAlive := some (BitVec.ofNat 8 (p.alive + 1)) }
  | .repeated => x
  | _ => { x with expAlive := x.expAlive.map fun a => a + 1 }

/-- Counters of the active unit's links (Table 7-8). -/
def countLine (s : State) (l : LinkId) (c : LineClass) : State :=
  match c with
  | .late => bump s (kLink l 0x0A)
  | .repeated => bump s (kLink l 0x0B)
  | .stale => bump s (kLink l 0x0B)
  | .accepted gap => if gap then bump (bump s (kLink l 8)) (kLink l 0x0C) else bump s (kLink l 8)
  | _ => s

/-- Markers that a lane received in the last `span` cycles: one each 2,049 blocks. -/
def markersIn (x : Lane) (now span : Nat) : Nat :=
  if x.marker.isNone ∨ span < now - x.markerAt then 0 else 1 + (span - (now - x.markerAt)) * 16 / (2049 * 99)

/-- When the line-0 header's last bit came: BLOCKS + 1 blocks of the link stream before the trailer, 99/16 cycles each
on every lane, and the markers that lie within the packet. -/
def headerArrival (s : State) (u : UnitId) (l : LinkId) (p : LinePacket) : Int :=
  let span := (p.blocks + 1) * 99 / (16 * max 1 (linkCount s l))
  let marks := (streamLane s l 0).elim 0 fun n => markersIn (laneAt s u n) s.now span
  (s.now : Int) - (span + marks * 99 / 16 : Nat)

/-- A valid line-0 header counts a sensor picture and gives the phase to the active unit: of the lowest-numbered link that delivered one, whether or not
its line is accepted (R181). It is that of the picture whose tick 1 comes next, or, with one lap per picture, of the one after it. -/
def noteHeader (s : State) (u : UnitId) (l : LinkId) (p : LinePacket) : State :=
  if s.relay.active = some u ∧ opensPicture p ∧ lineCrc p = p.crc ∧ p.whole then
    let a := headerArrival s u l p
    let one := decide (0 < s.lap.period ∧ lapsOf s = 1)
    if one ∧ packetPicture s ((s.links.get u).get l) p.line true = s.lap.picture + 1 then
      (if s.phase.ahead.all fun x => decide (l.val ≤ x.1.val) then
        let t := if s.phase.ahead.isNone then bump s (kInput 0x0A) else s
        { t with phase := { t.phase with ahead := some (l, a) } }
      else s)
    else if s.phase.arrival.isNone || s.phase.linkOf.any fun m => decide (l.val ≤ m.val) then
      let t := if s.phase.arrival.isNone then bump s (kInput 0x0A) else s
      { t with phase := { t.phase with arrival := some a, linkOf := some l } }
    else s
  else s

/-- An accepted line of picture `q` as the buffer holds it. -/
def bufferLine (s : State) (l : LinkId) (q : Nat) (p : LinePacket) : BufLine :=
  ⟨q, l, p.line, unpackLine (inputDepth s) (lineSamples (inputChroma s) (bandWidth s l) p.line) p.payload, false, s.now⟩

/-- It enters the unit's buffer, in its place in the slot of its stripe (R174). -/
def storeLine (s : State) (u : UnitId) (b : BufLine) : State :=
  { s with input := s.input.mod u fun i =>
      { i with lines := (i.lines.filter fun x => decide (x.picture ≠ b.picture ∨ x.link ≠ b.link ∨ x.line ≠ b.line)) ++ [b] } }

/-- The check-value unit of the link ends the packet as a record: its CRC, and the alive check of an accepted one (14_integrity.md R343, R344). -/
def checkLine (s : State) (l : LinkId) (c : LineClass) (p : LinePacket) : State :=
  let i : CvId := finOf 16 (by decide) (8 + l.val / 2)
  let t := cvEnd s i (lineCrc p).toNat (decide (lineCrc p = p.crc))
  match c with
  | .accepted true => cvGap t i
  | _ => t

/-- A picture descriptor whose fields differ from the configuration sets DESCRIPTOR_MISMATCH; nothing else changes
(R173). -/
def execPictureDescriptorRx (u : UnitId) (l : LinkId) (d : PictureDescriptor) (s : State) : Out :=
  let same := decide (d.width = bandWidth s l ∧ d.height = activeLines s ∧ d.chroma = inputChroma s ∧ d.depth = inputDepth s)
  let t : State := { s with links := s.links.mod u fun v => vmod v l fun x => { x with descriptorOk := same } }
  if same ∨ s.relay.active ≠ some u then .next t else .next (setFlag t (kInput 8) 28)

/-! ## Windows that close at a tick (R174 to R176) -/

/-- The samples a replaced line takes: the nearest earlier accepted line of the band in picture `q`, the nearest later
one of the stripe, or half scale. -/
def replacement (s : State) (lines : List BufLine) (l : LinkId) (q line : Nat) : List Nat :=
  let h := stripeHeight s
  let mine := lines.filter fun b => decide (b.link = l ∧ b.picture = q) && !b.replaced
  let before := (mine.filter fun b => decide (b.line < line)).foldl (fun a b =>
    match a with
    | none => some b
    | some c => if c.line < b.line then some b else some c) none
  let after := (mine.filter fun b => decide (line < b.line ∧ b.line / h = line / h)).foldl (fun a b =>
    match a with
    | none => some b
    | some c => if b.line < c.line then some b else some c) none
  match before <|> after with
  | some b => b.samples
  | none => List.replicate (lineSamples (inputChroma s) (bandWidth s l) line) (2 ^ (inputDepth s - 1))

/-- Lines of stripe k of picture `q` on a link that were not accepted. -/
def missingLines (s : State) (lines : List BufLine) (l : LinkId) (q k : Nat) : List Nat :=
  ((List.range (stripeHeight s)).map fun i => k * stripeHeight s + i).filter fun n =>
    !(lines.any fun b => decide (b.link = l ∧ b.picture = q ∧ b.line = n))

/-- One line is replaced: counted, LINE_FAULT, one EMCY for each picture, a repeat a note in the log (R176; 14_integrity.md R354). -/
def replaceLine (s : State) (u : UnitId) (l : LinkId) (q line : Nat) : State :=
  let b : BufLine := ⟨q, l, line, replacement s (s.input.get u).lines l q line, true, s.now⟩
  let s1 : State := { s with input := s.input.mod u fun i => { i with lines := i.lines ++ [b] } }
  if s.relay.active = some u then
    let s2 := setFlag (bump s1 (kLink l 9)) (kInput 8) 27
    if (s.input.get u).lineFault then logNoteLimited s2 20 (kInput 8) l.val
    else
      let s3 := raiseEmcy s2 0x9001 (kInput 8) l.val
      { s3 with input := s3.input.mod u fun i => { i with lineFault := true } }
  else s1

/-- An accepted line of picture `q` with none of its band between it and the end of stripe k: what a later stripe's replacement may take (R176). -/
def lastOfBand (lines : List BufLine) (q stop : Nat) (b : BufLine) : Bool :=
  !b.replaced && decide (b.picture = q ∧ b.line < stop) &&
    lines.all fun c => decide (c.picture ≠ q ∨ c.link ≠ b.link ∨ c.line ≤ b.line ∨ stop ≤ c.line) || c.replaced

/-- The stripe after one, in picture order. -/
def nextStripe (s : State) (x : Nat × Nat) : Nat × Nat := if x.2 + 1 < lapsOf s then (x.1, x.2 + 1) else (x.1 + 1, 0)

/-- The stripes whose windows are open after a tick: of stripe j and j + 1 in lap j (R174). -/
def openStripes (s : State) : List (Nat × Nat) :=
  let j := (s.lap.picture, s.lap.inPicture)
  (if s.lap.period = 0 then [(s.lap.picture + 1, 0)] else [j, nextStripe s j]).filter fun x => decide (x.2 < activeStripes s)

/-- The unit that codes from its line store: the active one, in WARMING the incoming one too (13_relay.md R327). -/
def mayCode (s : State) (u : UnitId) : Bool :=
  decide (s.relay.active = some u) || decide (s.relay.mode = .warming ∧ s.relay.active = some u.other)

/-- The stripes that unit u holds after a tick at which the window of `closed` closed (R174; 13_relay.md R312). -/
def heldByUnit (s : State) (u : UnitId) (closed : Option (Nat × Nat)) : List (Nat × Nat) :=
  openStripes s ++ if mayCode s u then closed.toList.filter fun x => decide (x.2 < activeStripes s) else []

/-- A line whose place is still needed: of a stripe that the unit holds, or one that a later replacement takes (R176). -/
def lineNeeded (s : State) (held : List (Nat × Nat)) (lines : List BufLine) (b : BufLine) : Bool :=
  held.contains (b.picture, b.line / stripeHeight s) || lastOfBand lines s.lap.picture (s.lap.inPicture * stripeHeight s) b

/-- The banks rotate: banks of stripes no longer held are free, and a stripe whose window opens takes a free one (R174, 13_relay.md R312). -/
def turnBanks (held : List (Nat × Nat)) (v : Vector (Option (Nat × Nat)) 3) : Vector (Option (Nat × Nat)) 3 :=
  held.foldl (fun w x =>
    if w.toList.contains (some x) then w
    else match w.toList.findIdx? fun b => b.isNone with
      | some i => vmod w (finOf 3 (by decide) i) fun _ => some x
      | none => w) (v.map fun b => b.filter fun x => held.contains x)

/-- Unit u's line store at a tick. -/
def turnInput (s : State) (u : UnitId) (closed : Option (Nat × Nat)) : State :=
  let held := heldByUnit s u closed
  { s with input := s.input.mod u fun i =>
      { i with lines := i.lines.filter (lineNeeded s held i.lines), banks := turnBanks held i.banks } }

/-- The window of stripe k of picture `q` closes in unit u: missing lines are replaced, the next expected LINE of a link that has not begun the
next picture lies beyond it, the input margin is noted (R174 to R176). -/
def closeWindowOf (s : State) (u : UnitId) (q k tick : Nat) : State :=
  let h := stripeHeight s
  let got := (s.input.get u).lines.filter fun b => decide (b.picture = q ∧ b.line / h = k) && !b.replaced
  let last := (got.map fun b => b.heldAt).foldl max 0
  let s1 := if s.relay.active = some u ∧ got ≠ [] then
      regPut s (kInput 0x10) (min (regGet s (kInput 0x10)) (tick - last))
    else s
  let s2 := forEach (allLinks.filter fun l => linkOn s l) (fun x l =>
    forEach (missingLines x (x.input.get u).lines l q k) (fun y n => replaceLine y u l q n) x) s1
  { s2 with links := s2.links.mod u fun v => v.map fun x =>
      { x with expLine := if x.picture ≤ q then max x.expLine ((k + 1) * h) else x.expLine } }

/-- A new picture begins at tick 0: expected LINEs restart on the links that have not begun it. -/
def openPictureInput (s : State) (u : UnitId) : State :=
  { s with
    links := s.links.mod u fun v => v.map fun x => { x with expLine := if s.lap.picture ≤ x.picture then x.expLine else 0 }
    input := s.input.mod u fun i => { i with lineFault := false } }

/-! ## Comparison of the units at a tick (R167) -/

/-- Whether a lane counts as LOCKED: IDLE does, WAKE does for less than 100 ns. -/
def countsLocked (now : Nat) (x : Lane) : Bool :=
  match x.mode with
  | .locked => true
  | .idle => true
  | .wake => decide (now < x.wakeAt + wakeLimit)
  | _ => false

/-- The count of consecutive ticks at which a lane counted as LOCKED; a lane of a booted unit whose LOS and LOL are clear without an edge, as
they are after a reset, has left DOWN by then (Table 7-3). -/
def tickLanes (s : State) (u : UnitId) : State :=
  { s with lanes := s.lanes.mod u fun v => Vector.ofFn fun n =>
      let x := v.get n
      let y := if laneUsed s n && unitPresent s u then leaveDown x else x
      { y with lockedTicks := if countsLocked s.now y then min 3 (y.lockedTicks + 1) else 0 } }

/-- One lane is compared: every tick at which the fault holds raises its EMCY, which R354 limits. -/
def compareLane (s : State) (u : UnitId) (n : LaneId) : State :=
  let mine := countsLocked s.now (laneAt s u n)
  let other := laneAt s u.other n
  if mine then s
  else if ¬ countsLocked s.now other then
    raiseEmcy (setFlag s (kInput 8) 26) 0x9000 (kInput 8) n.val
  else if 2 ≤ other.lockedTicks ∧ unitPresent s u.other then
    reportUnitFault (raiseEmcyOf (setFlag s (kInput 8) 25) u 0x5014 (kInput 8) n.val) u 14
  else s

/-- Every enabled lane is compared in both units. -/
def compareLanes (s : State) : State :=
  let t := tickLanes (tickLanes s .a) .b
  match t.relay.active with
  | none => t
  | some u => forEach (allLanes.filter (laneUsed s)) (fun x n => compareLane x u n) t

/-- Every lane of every enabled link has counted as LOCKED at this tick and the last (13_relay.md R309). -/
def standbyLanesOk (s : State) (u : UnitId) : Bool :=
  allLanes.all fun n => !laneUsed s n || decide (2 ≤ (laneAt s u n).lockedTicks)

/-! ## Phase, pull, dropped pictures (R181 to R183) -/

/-- φ is measured at tick 1 of a picture from the line-0 header (R181). -/
def measurePhase (s : State) (tick0 lap : Nat) : State :=
  let phase := { s.phase with arrival := s.phase.ahead.map Prod.snd, linkOf := s.phase.ahead.map Prod.fst, ahead := none }
  match s.phase.arrival with
  | some a =>
    let phi := a - ((tick0 : Int) - (lap / 512 : Nat))
    monitorSample (putSigned { s with phase := { phase with
      phi := phi
      measured := true
      settled := if 4 * phi.natAbs * 256 ≤ lap then s.phase.settled + 1 else 0 } } (kInput 6) phi)
      (viewUnit s) 10 0 (signedSample phi)
  | none => { s with phase := { phase with measured := false } }

/-- While TB2 follows TB1 no pull is applied (R182): the servo stands at 0, and the next first step is still to come. -/
def restPull (s : State) : State :=
  if pulled s then s
  else putFlag (putSigned { s with phase := { s.phase with integral := 0, pull := 0, firstStep := false } } (kInput 7) 0) (kInput 8) 29 false

/-- The pull of R182, in 0.001 ppm; PULL_CLAMPED while at ±500 ppm. -/
def updatePull (s : State) : State :=
  if pulled s ∧ s.phase.measured then
    let cycles : Int := max 1 (pictureNominal s / 256 : Nat)
    let clamp := fun (v : Int) => max (-500000) (min 500000 v)
    let i := clamp (s.phase.integral + s.phase.phi * 1000000000 / (64 * cycles))
    let p := clamp (i + s.phase.phi * 1000000000 / (4 * cycles))
    putFlag (putSigned { s with phase := { s.phase with integral := i, pull := p } } (kInput 7) p) (kInput 8) 29
      (decide (p.natAbs = 500000))
  else s

/-- A picture is dropped: counted, PHASE_FAULT, an EMCY at the first drop since PHASE_FAULT was last clear (R183). -/
def countDrop (s : State) : State :=
  let s1 := setFlag (setFlag (bump s (kInput 9)) (kInput 8) 31) (kInput 8) 30
  let s2 := if s.phase.fault then s1 else raiseEmcy s1 0x9002 (kInput 8) 0
  { s2 with phase := { s2.phase with fault := true, cleanPictures := 0 } }

/-- PHASE_FAULT clears after 64 consecutive pictures coded without a drop. -/
def execPhaseFaultClear (s : State) : Out :=
  if s.phase.fault ∧ 64 ≤ s.phase.cleanPictures then
    .next (clearFlag { s with phase := { s.phase with fault := false } } (kInput 8) 31)
  else .next s

/-- 0x2300:08 [15:0]: enabled links that are down in the active unit (Table 7-12). -/
def linksDown (s : State) : Nat :=
  (allLinks.filter fun l => linkOn s l && !((s.links.get (viewUnit s)).get l).up).foldl (fun a l => a + 2 ^ l.val) 0

/-! ## The input check (R177 to R180) -/

/-- A band that is no multiple of 8, passes the active width or overlaps the band of another link. -/
def bandBad (s : State) (ls : List LinkId) (l : LinkId) : Bool :=
  let x := fun (m : LinkId) => cfg s (kLink m 4)
  let w := fun (m : LinkId) => cfg s (kLink m 5)
  decide (x l % 8 ≠ 0 ∨ w l % 8 ≠ 0 ∨ cfg s (kInput 3) < x l + w l) ||
    ls.any fun m => decide (m ≠ l ∧ x l < x m + w m ∧ x m < x l + w l)

/-- The link named where the bands do not cover the active width exactly: the first bad one, else the first enabled one. -/
def bandFault (s : State) (ls : List LinkId) : Option LinkId :=
  match ls.find? (bandBad s ls) with
  | some l => some l
  | none => if (ls.map fun l => cfg s (kLink l 5)).sum = cfg s (kInput 3) then none else some (ls.headD 0)

def lanesOk (s : State) (ls : List LinkId) (l : LinkId) : Bool :=
  decide (linkFirst s l + linkCount s l ≤ 64) &&
  ls.all fun m => decide (m = l) ||
    decide (linkFirst s l + linkCount s l ≤ linkFirst s m ∨ linkFirst s m + linkCount s m ≤ linkFirst s l)

/-- Needed and available blocks of a link (R180). -/
def linkNeeded (s : State) (l : LinkId) : Nat := 3 + ceilDiv (lineSamples (inputChroma s) (bandWidth s l) 0 * inputDepth s) 64

def linkAvailable (s : State) (l : LinkId) : Nat :=
  linkCount s l * (lapMin s * 32 / (3 * 66 * stripeHeight s)) * 2047 / 2048

/-- REASON × 16 + INDEX of the first failure; 0 passed (Table 7-13). `short` gives, for channel c, whether its window
lacks columns that its streams require (R70), `bad` whether a stream breaks R178. -/
def inputCheck (s : State) (short : Chan → Bool) (bad : StreamId → Bool) : Nat :=
  let ls := allLinks.filter (linkOn s)
  let w := cfg s (kInput 3)
  let lapsSet := decide (cfg s (key 0x2500 2) ≠ 0 ∧ cfg s (key 0x2500 3) ≠ 0)
  let window := fun (c : Chan) => cfg s (kInput (0x0C + c.val))
  let badWindow := fun (c : Chan) =>
    let o := window c / 65536
    let n := window c % 65536
    decide (o % 8 ≠ 0 ∨ n % 8 ≠ 0 ∨ 8208 < n ∨ w < o + n)
  match ls.find? fun l => !lanesOk s ls l with
  | some l => 1 * 16 + l.val
  | none =>
    match bandFault s ls with
    | some l => 2 * 16 + l.val
    | none =>
      match ls.find? fun l => lapsSet && decide (linkAvailable s l < linkNeeded s l) with
      | some l => 3 * 16 + l.val
      | none =>
        match allChans.find? badWindow with
        | some c => 4 * 16 + c.val
        | none =>
          match allChans.find? short with
          | some c => 5 * 16 + c.val
          | none =>
            match allStreams.find? bad with
            | some n => 6 * 16 + n.val
            | none => if 32768 < w then 7 * 16 else 0

/-- The check's result and each link's figures are reported (R179, R180); a figure beyond its half of 0x2310:0E reads 65,535 (log entry 62). -/
def reportInput (s : State) (r : Nat) : State :=
  forEach (allLinks.filter (linkOn s)) (fun x l => regPut x (kLink l 0x0E) (min 0xFFFF (linkNeeded x l) * 65536 + min 0xFFFF (linkAvailable x l)))
    (regPut s (kInput 0x0B) (r * 2 ^ 24))

end Sys2Proof.Machine
end

