-- ==== Sys2Proof/Machine/Monitor.lean ====
section
/-! DEFINITION. The monitor output and its lanes (06_decoders.md R154 to R157; 07_sensor_lanes.md R185). -/

namespace Sys2Proof.Machine

def kMonitor (sub : Nat) : Nat := key 0x4801 sub

/-! ## Sources (R154, R156) -/

/-- The local stream of 0x4801:02. -/
def monitorStream (s : State) : StreamId := finOf 16 (by decide) (cfg s (kMonitor 2))

/-- Samples of a picture × bit depth of a source: of the return decoder's output picture, of a local stream's, of the test pattern; none where the
source has no picture yet (R156). -/
def sourceBits (s : State) (src : Nat) : Option Nat :=
  if src = 1 then s.ret.output.map fun p => p.form.samples * p.form.bitDepth
  else if src = 2 then
    let n := monitorStream s
    let z := displaySize s n
    some (z.1 * z.2 * chromaHalves (cfg s (kStream n 8)) / 2 * cfg s (kStream n 9))
  else if src = 3 then
    let size := cfg s (kMonitor 3)
    some (size / 65536 * (size % 65536) * chromaHalves Config.patternForm.1 / 2 * Config.patternForm.2)
  else none

/-- samples × depth × picture rate within 90 % of the bonded lanes' payload (R156). -/
def monitorFits (s : State) (bits : Nat) : Bool :=
  decide (bits * cfg s (key 0x2203 2) * 66 * 10 ≤
    cfg s (kMonitor 4) * 16000000000 * 64 * 9 * cfg s (key 0x2203 3))

/-- The last picture of a stream that the unit the selectors take has completed: none that only the former unit completed (R157). -/
def shownPicture (s : State) (n : StreamId) : Option RefPicture :=
  (s.streams[n].shown.filter fun x => decide (s.mon.selected = some x.1)).map Prod.snd

/-- What the source offers now: the picture and its number; of a local stream the last picture that is complete, by the count 0x3400:1F. -/
def monitorSource (s : State) (src : Nat) : Option (MonPicture × Int) :=
  if src = 1 then s.ret.output.map fun p => (.feed p.poc p.concealed p.derived, (s.ret.outputs : Int))
  else if src = 2 then (shownPicture s (monitorStream s)).map fun p => (.stream (monitorStream s) p.number, (p.number : Int))
  else none

/-- The source and stream that 0x4801:01 and 02 choose. -/
def monitorChoice (s : State) : Nat × Nat := (cfg s (kMonitor 1), if cfg s (kMonitor 1) = 2 then cfg s (kMonitor 2) else 0)

/-! ## Line packets (R155; 07_sensor_lanes.md R171 to R173, R185) -/

def monitorFlags (m : MonPicture) : Nat :=
  match m with
  | .feed _ c d => (if c then 2 else 0) + (if d then 4 else 0)
  | .grey => 2
  | _ => 0

/-- Lines of a local picture that the present unit has not coded: those above its first row of that picture (R157). -/
def uncodedLines (s : State) (n : StreamId) : List (Nat × Nat) :=
  let lo := min (displaySize s n).2 (s.streams[n].shownFrom * ctbSize s n)
  if lo = 0 then [] else [(0, lo)]

/-- A frame that begins now, in the form of the last one sent: what a grey picture has, and a repeated one. -/
def sameForm (s : State) : MonFrame :=
  { width := s.mon.frame.elim 0 fun f => f.width
    height := s.mon.frame.elim 0 fun f => f.height
    chroma := s.mon.frame.elim 0 fun f => f.chroma
    depth := s.mon.frame.elim 0 fun f => f.depth
    flags := s.mon.frame.elim 0 fun f => f.flags
    alive := s.mon.alive
    lanes := cfg s (kMonitor 4)
    start := s.time.tb1Start
    period := s.time.tb1Period
    grey := s.mon.frame.elim [] fun f => f.grey
    samples := s.mon.frame.elim .none fun f => f.samples }

/-- The frame of a picture: its lines are spread evenly over the TB1 period that begins. Grey pictures keep the form of the last picture sent. -/
def monitorFrame (s : State) (m : MonPicture) : MonFrame :=
  let f : MonFrame := { sameForm s with flags := monitorFlags m, grey := [], samples := .none }
  match m with
  | .pattern w h => { f with width := w, height := h, chroma := Config.patternForm.1, depth := Config.patternForm.2, samples := .bars }
  | .stream n _ =>
    let z := displaySize s n
    { f with width := z.1, height := z.2, chroma := cfg s (kStream n 8), depth := cfg s (kStream n 9), grey := uncodedLines s n,
             samples := .rebuilt ((shownPicture s n).elim [] fun p => p.lines) }
  | .feed _ _ _ =>
    match s.ret.output with
    | some p => { f with width := p.form.width, height := p.form.height, chroma := p.form.chroma, depth := p.form.bitDepth,
                         samples := .decoded s.ret.outputs p.form p.tiles p.missing }
    | none => f
  | .grey => { f with grey := [(0, f.height)] }
  | .off => f

/-- The picture descriptor, sent before line 0. -/
def frameDescriptor (f : MonFrame) : PictureDescriptor := ⟨f.width, f.height, f.chroma, f.depth⟩

/-- When a line leaves, in 1/256 cycle. -/
def lineLeaves (f : MonFrame) (line : Nat) : Nat := f.start + f.period * line / max 1 f.height

def greyLine (f : MonFrame) (line : Nat) : Bool := f.grey.any fun r => decide (r.1 ≤ line ∧ line < r.2)

/-- The component and the luma column of sample i of a line (07_sensor_lanes.md R172). -/
def samplePlace (chroma width line i : Nat) : Nat × Nat :=
  match chroma with
  | 0 => (0, i)
  | 1 => if i < width ∨ line % 2 = 1 then (0, i) else (1 + (i - width) % 2, (i - width) / 2 * 2)
  | 2 => if i % 2 = 1 then (0, i / 2) else (1 + i / 2 % 2, i / 4 * 2)
  | _ => (i % 3, i / 3)

/-- A sample of the test pattern: one of eight vertical bars of equal width (R154). -/
def barSample (f : MonFrame) (line i : Nat) : Nat :=
  let x := samplePlace f.chroma f.width line i
  if Config.barFull (min 7 (x.2 * 8 / max 1 f.width)) x.1 then 2 ^ f.depth - 1 else 0

/-- A sample of a reconstruction: the stream's component and column; grey where no line of it is held. -/
def rebuiltSample (f : MonFrame) (lines : List ReconLine) (line i : Nat) : Nat :=
  let x := samplePlace f.chroma f.width line i
  let wide := if x.1 = 0 then 1 else subWidth f.chroma
  let high := if x.1 = 0 then 1 else subHeight f.chroma
  ((lines.find? fun l => decide (l.component.val = x.1 ∧ l.line = line / high)).bind fun l => l.samples[x.2 / wide]?).getD (greyValue f.depth)

/-- A sample as it is sent: grey in a grey line and in a missing CTU (R148, R149, R157); what a decoder makes of the other CTUs of a stream from the
network is a free value (log entry 61). -/
def sentSample (f : MonFrame) (line i : Nat) : Nat :=
  if greyLine f line then greyValue f.depth
  else
    match f.samples with
    | .none => greyValue f.depth
    | .bars => barSample f line i
    | .rebuilt l => rebuiltSample f l line i % 2 ^ f.depth
    | .decoded k form tiles missing =>
      if missingAt form tiles missing (samplePlace f.chroma f.width line i).2 line then greyValue f.depth
      else Config.monitorSample k line i % 2 ^ f.depth

/-- The payload blocks of samples of b bits each: sample i at bits [i × b + b - 1 : i × b], unused bits 0 (07_sensor_lanes.md R172). -/
def packLine (depth : Nat) (l : List Nat) : List (BitVec 64) :=
  let bits := l.reverse.foldl (fun a v => a * 2 ^ depth + v % 2 ^ depth) 0
  (List.range (ceilDiv (l.length * depth) 64)).map fun i => BitVec.ofNat 64 (bits >>> (64 * i))

/-- A line packet that the module sends: header, payload and CRC; a grey line carries CONCEALED (R155, R157; 07_sensor_lanes.md R173). -/
def monitorLine (f : MonFrame) (line : Nat) : LinePacket :=
  let n := lineSamples f.chroma f.width line
  let payload := packLine f.depth ((List.range n).map (sentSample f line))
  let flags := (if line = 0 then 1 else 0) + (if greyLine f line then 2 else f.flags)
  let p : LinePacket := ⟨payload.length, flags, line, (f.alive + line) % 256, payload, 0, true⟩
  { p with crc := lineCrc p }

/-! ## Blocks on the lanes (07_sensor_lanes.md R164, R185) -/

/-- 66-bit blocks of a monitor lane since the common block counter began: 16 Gb/s at 1.5 GHz cycles. -/
def laneBlocks (s : State) : Nat := (s.now - s.time.tb3Start) * 32 / 3 / 66

/-- A 64-bit payload before scrambling, as a control or a data block. -/
structure PlainBlock where
  control : Bool
  payload : BitVec 64
  deriving DecidableEq, Repr

def controlBlock (v : Nat) : PlainBlock := ⟨true, BitVec.ofNat 64 v⟩

/-- Tables 7-2, 7-6 and 7-7. -/
def idleBlock : PlainBlock := controlBlock 0x55
def markerBlock (seq : Nat) : PlainBlock := controlBlock (seq % 65536 * 2 ^ 8 + 0xA5)
def trailerBlock (crc : BitVec 32) : PlainBlock := controlBlock (crc.toNat * 2 ^ 8 + 0xC3)
def descriptorBlock (d : PictureDescriptor) : PlainBlock :=
  controlBlock (d.width * 2 ^ 48 + d.height * 2 ^ 32 + d.chroma * 2 ^ 30 + d.depth * 2 ^ 25 + 0x96)

/-- The blocks of a line: header, payload and trailer; a picture descriptor comes directly before line 0 (07_sensor_lanes.md R171, R185). -/
def lineBlocks (f : MonFrame) (line : Nat) : List PlainBlock :=
  let p := monitorLine f line
  (if line = 0 then [descriptorBlock (frameDescriptor f)] else []) ++
    controlBlock (headerWord p) :: p.payload.map (fun w => ⟨false, w⟩) ++ [trailerBlock p.crc]

/-- How many they are. -/
def lineLength (f : MonFrame) (line : Nat) : Nat :=
  (if line = 0 then 3 else 2) + ceilDiv (lineSamples f.chroma f.width line * f.depth) 64

/-- Blocks of a lane before its block b that belong to the link stream: all but the markers, one after every 2,048. -/
def streamBlocks (b : Nat) : Nat := b - b / 2049

/-- The first block of the link stream that leaves at or after a time in 1/256 cycle, counted from the common block counter's start. -/
def blockAt (s : State) (lanes t : Nat) : Nat :=
  lanes * streamBlocks (ceilDiv ((t - 256 * s.time.tb3Start) * 32) (3 * 66 * 256))

/-- Where each line of a frame begins in the link stream: at its time, or after the line before it where that has not ended. -/
def linePlaces (s : State) (f : MonFrame) : List (Nat × Nat) :=
  ((List.range f.height).foldl (fun (a : Nat × List (Nat × Nat)) line =>
    let first := max a.1 (blockAt s f.lanes (lineLeaves f line))
    (first + lineLength f line, (line, first) :: a.2)) (0, [])).2

/-- Block i of the link stream: of a line's packet, else idle (07_sensor_lanes.md R164). -/
def linkBlock (s : State) (f : MonFrame) (i : Nat) : PlainBlock :=
  match (linePlaces s f).find? fun x => decide (x.2 ≤ i ∧ i < x.2 + lineLength f x.1) with
  | some x => ((lineBlocks f x.1)[i - x.2]?).getD idleBlock
  | none => idleBlock

/-- MARKER_SEQ of the deskew marker at a lane's block b: one after every 2,048 link-stream blocks, on every lane at once, in both units by the common
block counter (log entry 61, DEDUCED). -/
def markerSeq (b : Nat) : Nat := b / 2049 % 65536

/-- Whether a lane's block b is a marker. -/
def markerAt (b : Nat) : Bool := decide (b % 2049 = 2048)

/-- Block b of lane j: a marker, or the block of the link stream whose turn it is; a lane that the link does not use sends idle blocks between its
markers (07_sensor_lanes.md R164). -/
def laneBlock (s : State) (f : Option MonFrame) (j b : Nat) : PlainBlock :=
  if markerAt b then markerBlock (markerSeq b)
  else
    match f with
    | some x => if j < x.lanes then linkBlock s x (x.lanes * streamBlocks b + j) else idleBlock
    | none => idleBlock

/-- One bit of the self-synchronous scrambler 1 + x³⁹ + x⁵⁸: it goes out combined with the 39th and the 58th bit before it. -/
def scrambleBit (p : BitVec 64) (a : BitVec 64 × BitVec 58) (i : Nat) : BitVec 64 × BitVec 58 :=
  let b := p.getLsbD i ^^ a.2.getLsbD 19 ^^ a.2.getLsbD 0
  (if b then a.1 ||| (1#64 <<< i) else a.1, (a.2 >>> 1) ||| (if b then 1#58 <<< 57 else 0#58))

/-- A payload scrambled, bit 0 first, and the 58 bits sent last (07_sensor_lanes.md R163). -/
def scramble (prev : BitVec 58) (p : BitVec 64) : BitVec 64 × BitVec 58 := (List.range 64).foldl (scrambleBit p) (0, prev)

/-- A block as a lane sends it, with sync header 01 for data and 10 for control, and its scrambler's next state. -/
def sendBlock (prev : BitVec 58) (b : PlainBlock) : Block66 × BitVec 58 :=
  let r := scramble prev b.payload
  (⟨if b.control then 2 else 1, r.1⟩, r.2)

/-- The blocks of lane j from block b on, so many of them, and its scrambler's state after them. -/
def sendBlocks (s : State) (j b count : Nat) (prev : BitVec 58) : List Block66 × BitVec 58 :=
  (List.range count).foldl (fun a i =>
    let r := sendBlock a.2 (laneBlock s s.mon.frame j (b + i))
    (a.1 ++ [r.1], r.2)) ([], prev)

/-- The scramblers of the lanes brought up to the block that leaves now; while nothing is shown the lanes rest and the states stay (log entry 61). -/
def bringUp (s : State) : MonState :=
  { s.mon with
    sent := laneBlocks s
    scrambler := if s.mon.last = .off then s.mon.scrambler
      else s.mon.scrambler.mapFinIdx fun j x _ => (sendBlocks s j s.mon.sent (laneBlocks s - s.mon.sent) x).2 }

/-! ## A picture start (R154, R156, R157) -/

/-- A frame of a picture is sent: counted; a flagged one, or one with grey lines, sets CONCEALED_SENT. -/
def monitorSend (s : State) (m : MonPicture) (id : Option Int) (f : MonFrame) : State :=
  let t := bump s (kMonitor 6)
  let t1 := if 0 < f.flags ∨ ¬ f.grey.isEmpty then setFlag t (kMonitor 5) 30 else t
  { t1 with mon := { t1.mon with
      last := m
      lastId := id
      lastSource := monitorChoice s
      frame := some f
      alive := (t1.mon.alive + f.height) % 256 } }

/-- The previous picture once more (0x4801:07); without one nothing is sent (log entry 61, DESIGN CHOICE). -/
def monitorRepeat (s : State) (id : Option Int) : State :=
  if s.mon.last = .off then s else bump (monitorSend s s.mon.last id (sameForm s)) (kMonitor 7)

/-- The number of the last picture sent of the source now chosen; none after a change of source or stream. -/
def monitorSeen (s : State) : Option Int := if s.mon.lastSource = monitorChoice s then s.mon.lastId else none

/-- The picture of a source that fits: a newer one, with those passed over counted (0x4801:08), else the previous one again; grey pictures after a
switch until the new unit has one (R157). -/
def monitorShow (s : State) (src : Nat) : State :=
  let seen := monitorSeen s
  match (monitorSource s src).filter fun x => seen.all fun i => decide (i < x.2) with
  | none => if s.mon.grey then monitorSend s .grey seen (monitorFrame s .grey) else monitorRepeat s seen
  | some (m, id) =>
    let t := monitorSend { s with mon := { s.mon with grey := false } } m (some id) (monitorFrame s m)
    bumpBy t (kMonitor 8) (seen.elim 0 fun i => (id - i - 1).toNat)

/-- The test pattern, with REFUSED as given. -/
def monitorPattern (s : State) (refused : Bool) : State :=
  let size := cfg s (kMonitor 3)
  let m : MonPicture := .pattern (size / 65536) (size % 65536)
  monitorSend (putFlag s (kMonitor 5) 31 refused) m none (monitorFrame s m)

/-- The picture of one TB1 picture start; the lanes have sent their blocks up to it. -/
def monitorPicture (s0 : State) : State :=
  let s : State := { s0 with mon := bringUp s0 }
  let src := cfg s (kMonitor 1)
  let refused := (sourceBits s src).any fun b => !monitorFits s b
  if src = 0 then
    { clearFlag s (kMonitor 5) 31 with mon :=
        { s.mon with last := .off, lastId := none, lastSource := (0, 0), grey := false, frame := none } }
  else if src = 3 ∨ refused then monitorPattern s refused
  else monitorShow (clearFlag s (kMonitor 5) 31) src

/-! ## The selectors (R157) -/

/-- Lines of a frame whose time has not come at the switch. -/
def unsentLines (s : State) (f : MonFrame) : Nat := ceilDiv ((s.now * 256 - f.start) * f.height) (max 1 f.period)

/-- The selectors pass to unit u: the picture in progress is completed with grey lines, flagged CONCEALED, and grey pictures follow until the unit has
a picture of the source. At the first activation there is none to complete. -/
def monitorSwitch (s : State) (u : UnitId) : MonState :=
  let m := s.mon
  match m.selected with
  | none => { m with selected := some u }
  | some old =>
    if old = u then m
    else { m with
      selected := some u
      grey := true
      frame := m.frame.map fun f =>
        if unsentLines s f < f.height then { f with grey := f.grey ++ [(unsentLines s f, f.height)] } else f }

end Sys2Proof.Machine
end

