-- ==== Sys2Proof/Machine/Ports.lean ====
section
/-! DEFINITION. Ports, endpoint, bridge, ingress meters, session description and the selectors (08_network.md,
09_flows.md R233 to R235, 13_relay.md R320). -/

namespace Sys2Proof.Machine

/-- Whether the active unit can act on a port: it answers, originates and forwards (R192). -/
def activeUnit (s : State) : Bool := s.relay.active.isSome

/-! ## Groups and addresses (R193, R194) -/

/-- Groups the endpoint has joined on a port: PTP and the return feed's (R194, 10_time.md Table 10-3). -/
def joinedGroups (s : State) (p : PortId) : List Nat :=
  (if (cfg s (key 0x2201 1)).testBit p.val then [0xE0000181] else []) ++
  (if s.ret.enabled && (s.ret.setting.get 0).testBit p.val then
    [s.ret.setting.get 1, s.ret.setting.get 2].filter isMulticastIp else [])

def portMac (s : State) (p : PortId) : Nat := s.flash.limit.macs.get p
def portIp (s : State) (p : PortId) : Nat := cfg s (kPort p 6)
def broadcastMac : Nat := 0xFFFFFFFFFFFF

/-- Addressed to the endpoint: the port's MAC, broadcast, a joined group, or all systems, 224.0.0.1, where general queries come. -/
def forEndpoint (s : State) (p : PortId) (dst : Nat) : Bool :=
  decide (dst = portMac s p) || decide (dst = broadcastMac) || decide (dst = groupMac 0xE0000001) ||
    (joinedGroups s p).any fun g => decide (dst = groupMac g)

/-- An IGMPv3 membership report of groups, to 224.0.0.22, from the active unit (R193). -/
def sendReport (s : State) (p : PortId) (groups : List Nat) : State :=
  if groups.isEmpty ∨ ¬ activeUnit s ∨ ¬ portServes s p then s
  else endpointSend s p .igmp (ipDest none 0xE0000016 2 0 0) (46 + 8 * groups.length) (.report groups)

/-- Groups that the endpoint has newly joined are reported on their ports. -/
def announceJoins (old t : State) : State :=
  forEach allPorts (fun x p => sendReport x p ((joinedGroups t p).filter fun g => !(joinedGroups old p).contains g)) t

/-! ## The return decoder's enable (06_decoders.md R153, R160) -/

/-- The setting of 0x4800:01; groups of the feed that a port newly receives are reported there (R193). -/
def doReturnEnable (v : Nat) (s : State) : Except Abort State :=
  if 1 < v then .error .outOfRange
  else
    let t := commitValue s (kReturn 1) v (unitPresent s .a) (unitPresent s .b)
    if v = 0 then .ok { t with ret := { retReset with lastClass := t.ret.lastClass } }
    else if t.ret.enabled then .ok t
    else .ok (announceJoins s { t with ret := { retReset with enabled := true, setting := returnSettings t, waitIrap := false } })

/-- Writing 1 starts decoding with the new settings; writing 0 stops it and empties the picture buffer. -/
def execReturnDecoderEnable (k : Client) (v : Nat) (s : State) : Out := .next (serveWrite s k 0x4800 (doReturnEnable v))

/-! ## The endpoint (R193 to R195) -/

/-- An address-resolution entry learns a MAC; an entry not listed is not created by what others send. -/
def arpLearn (b : BridgeState) (p : PortId) (ip mac : Nat) : BridgeState :=
  { b with arp := b.arp.map fun e => if e.port = p ∧ e.ip = ip then { e with mac := some mac } else e }

/-- Both units keep their caches current from the received frames (R192). -/
def arpLearnBoth (s : State) (p : PortId) (ip mac : Nat) : State :=
  { s with bridge := ⟨arpLearn s.bridge.a p ip mac, arpLearn s.bridge.b p ip mac⟩ }

/-- A frame the endpoint cannot use is counted and discarded (R193, R194). -/
def endpointDiscard (s : State) (p : PortId) : State := countPort s p 0x12 1

/-- A frame delivered to the endpoint. PTP messages and dictionary datagrams take effect by their own commands
(log entry 3). -/
def endpointTake (s : State) (p : PortId) (f : Frame) : State :=
  if f.ipOdd ∨ ¬ f.udpSumOk then endpointDiscard s p
  else
    match f.body with
    | .arpRequest mac ip target =>
      let t := arpLearnBoth s p ip mac
      if target = portIp s p ∧ target ≠ 0 ∧ activeUnit s then endpointSend t p .arp (arpDest mac) 64 (.datagram (arpBytes 2 (portMac s p) (portIp s p) mac ip)) else t
    | .arpReply mac ip _ => arpLearnBoth s p ip mac
    | .icmpEcho ident seq data =>
      if f.dstIp = portIp s p ∧ activeUnit s then
        endpointSend s p .icmp (ipDest (some f.src) f.srcIp 1 0 0) (data.length + 46) (.datagram (echoBytes ident seq data))
      else s
    | .igmpQuery g => sendReport s p ((joinedGroups s p).filter fun x => decide (g = 0 ∨ g = x))
    | .ptp _ _ => s
    | .ptpMetadata v => if s.time.selected = some p then { s with time := { s.time with metadata := some v, utcOffset := v } } else s
    | .datagram _ => s
    | .rtp r =>
      if returnMatches s p f.dstIp f.dstPort r then (if activeUnit s then returnPacket s p f.len r else s)
      else endpointDiscard s p
    | .flowControl => endpointDiscard s p
    | .other => endpointDiscard s p

/-- Delivered where addressed to the endpoint and of a kind it takes; every other frame is counted (R194). -/
def toEndpoint (s : State) (p : PortId) (f : Frame) : State :=
  if forEndpoint s p f.dst then endpointTake s p f else endpointDiscard s p

/-- A datagram that the endpoint keeps for want of the MAC of ip. -/
def keptFor (s : State) (p : PortId) (ip : Nat) (pk : Packet) : Bool :=
  !reachable s (endpointFlow p) p false pk && pk.dest.any fun d => decide (arpTarget s p d.ip = ip)

/-- Whether a flow of the module, or a datagram of its endpoint, needs the MAC of ip on port p (R195). -/
def needsAddress (s : State) (p : PortId) (ip : Nat) : Bool :=
  (s.ports[p].refused).any (keptFor s p ip) ||
  allFlows.any fun f => !isFixed f && enabledFlow s f && (flowPaths s f).any fun x =>
    decide (x.1 = p) && !resolved s f p x.2 && decide (arpTarget s p (destinationOf s f x.2) = ip)

def arpAsk (b : BridgeState) (p : PortId) (ip now : Nat) : BridgeState :=
  if b.arp.any fun e => decide (e.port = p ∧ e.ip = ip) then
    { b with arp := b.arp.map fun e => if e.port = p ∧ e.ip = ip then { e with askedAt := now } else e }
  else { b with arp := b.arp ++ [⟨p, ip, none, now⟩] }

/-- A request is sent by the active unit; both caches note it. -/
def arpSend (s : State) (p : PortId) (ip : Nat) : State :=
  endpointSend { s with bridge := ⟨arpAsk s.bridge.a p ip s.now, arpAsk s.bridge.b p ip s.now⟩ } p .arp (arpDest broadcastMac) 64
    (.datagram (arpBytes 1 (portMac s p) (portIp s p) 0 ip))

/-- The entry of an address in the active unit's cache. -/
def arpEntry (s : State) (p : PortId) (ip : Nat) : Option ArpEntry :=
  (s.bridge.get (viewUnit s)).arp.find? fun e => decide (e.port = p ∧ e.ip = ip)

/-- An unresolved destination is asked for, and again every second (R195). -/
def execArpRetry (p : PortId) (ip : Nat) (s : State) : Out :=
  if activeUnit s ∧ needsAddress s p ip then
    match arpEntry s p ip with
    | none => .next (arpSend s p ip)
    | some e => if e.mac.isNone ∧ e.askedAt + cyclesPerSec ≤ s.now then .next (arpSend s p ip) else .next s
  else .next s

/-- A resolved entry is refreshed every 60 s and stays in use meanwhile (R195). -/
def execArpRefresh (p : PortId) (ip : Nat) (s : State) : Out :=
  match arpEntry s p ip with
  | some e =>
    if activeUnit s ∧ e.mac.isSome ∧ e.askedAt + 60 * cyclesPerSec ≤ s.now then .next (arpSend s p ip) else .next s
  | none => .next s

/-! ## Ingress meters (09_flows.md R233 to R235) -/

/-- The frame matches a meter (Table 9-4). -/
def meterMatches (s : State) (m : MeterId) (p : PortId) (f : Frame) : Bool :=
  let w := cfg s (kMeter m 3)
  let v := cfg s (kMeter m 4)
  decide (cfg s (kMeter m 1) = 1) && w.testBit (8 + p.val) &&
    match w % 256 with
    | 0 => true
    | 1 => decide (f.etherType = v % 65536)
    | 2 => decide (f.etherType = 0x0800 ∧ f.dstIp = fieldOf v 63 32)
    | 3 => decide (f.etherType = 0x0800 ∧ f.dstIp = fieldOf v 63 32 ∧ f.dstPort = fieldOf v 15 0)
    | 4 => decide (f.src = v % 2 ^ 48)
    | _ => false

def allMeters : List MeterId := (List.range 64).map (finOf 64 (by decide))

/-- The first matching meter in number order meters the frame (R233). -/
def meterOf (s : State) (p : PortId) (f : Frame) : Option MeterId := allMeters.find? fun m => meterMatches s m p f

/-- Colours of a frame. -/
inductive Colour where
  | green
  | yellow
  | red
  deriving DecidableEq, Repr

/-- The markers of RFC 2697 (two = false) and RFC 2698 on a bucket pair, colour-blind (R234). -/
def markFrame (two : Bool) (len : Nat) (b : Meter) : Meter × Colour :=
  let need := len * 2 ^ 24
  if two then
    if b.bucketE < need then (b, .red)
    else if b.bucketC < need then ({ b with bucketE := b.bucketE - need }, .yellow)
    else ({ bucketC := b.bucketC - need, bucketE := b.bucketE - need }, .green)
  else if need ≤ b.bucketC then ({ b with bucketC := b.bucketC - need }, .green)
  else if need ≤ b.bucketE then ({ b with bucketE := b.bucketE - need }, .yellow)
  else (b, .red)

/-- Buckets after n reference cycles: RFC 2697 fills the committed bucket first and the rest spills into the excess
bucket; RFC 2698 fills each at its rate (R234). -/
def meterFill (s : State) (m : MeterId) (n : Nat) (b : Meter) : Meter :=
  let full := meterFull s m
  let c := n * ceilDiv (cfg s (kMeter m 5) * 2 ^ 24) (8 * 10 ^ 8)
  if cfg s (kMeter m 2) = 1 then
    { bucketC := min full.bucketC (b.bucketC + c)
      bucketE := min full.bucketE (b.bucketE + n * ceilDiv (cfg s (kMeter m 8) * 2 ^ 24) (8 * 10 ^ 8)) }
  else
    { bucketC := min full.bucketC (b.bucketC + c)
      bucketE := min full.bucketE (b.bucketE + (b.bucketC + c - full.bucketC)) }

def fillMeters (s : State) (n : Nat) : State :=
  { s with meters :=
      ⟨s.meters.a.mapFinIdx fun i b hi => meterFill s ⟨i, hi⟩ n b,
       s.meters.b.mapFinIdx fun i b hi => meterFill s ⟨i, hi⟩ n b⟩ }

def setMeter (s : State) (m : MeterId) (b : Meter) : State :=
  { s with meters := ⟨vmod s.meters.a m fun _ => b, vmod s.meters.b m fun _ => b⟩ }

/-- Bytes in a port's receive buffer of 512 KiB (R199). -/
def receiveBytes (s : State) (p : PortId) : Nat := (s.ports[p].receive.map fun w => w.packet.frame).sum

def receiveSize : Nat := 524288

/-- The frame is metered: the state, and whether it goes on (R235). Both units' buckets stay identical. -/
def meterFrame (s : State) (p : PortId) (f : Frame) : State × Bool :=
  match meterOf s p f with
  | none => (s, true)
  | some m =>
    let r := markFrame (decide (cfg s (kMeter m 2) = 1)) f.len (s.meters.get (viewUnit s))[m]
    let t := setMeter s m r.1
    match r.2 with
    | .green => (bump t (kMeter m 0x0A), true)
    | .red => (bump t (kMeter m 0x0C), false)
    | .yellow =>
      let t1 := bump t (kMeter m 0x0B)
      let act := cfg s (kMeter m 9)
      if act = 2 ∨ (act = 1 ∧ receiveSize ≤ 2 * receiveBytes s p) then (bump t1 (kMeter m 0x0D), false) else (t1, true)

/-! ## The bridge (R197 to R199) -/

def isMember (s : State) (p : PortId) : Bool := decide (cfg s (kPort p 9) = 1)

/-- One unit's table takes a source: refreshed, moved, added, or not learned where 4,096 entries are in use (R198). -/
def learnIn (b : BridgeState) (mac now : Nat) (p : PortId) : BridgeState :=
  if b.learned.any fun e => e.mac == mac then
    { b with learned := b.learned.map fun e => if e.mac = mac then { e with port := p, seenAt := now } else e }
  else if b.learned.length < 4096 then { b with learned := b.learned ++ [⟨mac, p, now⟩] }
  else b

def learnSource (s : State) (p : PortId) (mac : Nat) : State :=
  if isMember s p ∧ cfg s (key 0x2400 1) = 1 then
    let b := s.bridge.get (viewUnit s)
    let full := decide (4096 ≤ b.learned.length) && !(b.learned.any fun e => e.mac == mac)
    let t := if full then bump s (key 0x2400 4) else s
    { t with bridge := ⟨learnIn t.bridge.a mac t.now p, learnIn t.bridge.b mac t.now p⟩ }
  else s

/-- An entry not refreshed within the ageing time is removed (R198). -/
def ageIn (b : BridgeState) (mac now limit : Nat) : BridgeState :=
  { b with learned := b.learned.filter fun e => !(e.mac == mac && decide (e.seenAt + limit ≤ now)) }

def execAddressAgeing (mac : Nat) (s : State) : Out :=
  let limit := cfg s (key 0x2400 2) * cyclesPerSec
  .next { s with bridge := ⟨ageIn s.bridge.a mac s.now limit, ageIn s.bridge.b mac s.now limit⟩ }

/-- The static entry of an address (Table 8-8). -/
def staticEntry (s : State) (dst : Nat) : Option Nat :=
  ((List.range 128).map fun i => cfg s (key 0x2401 (i + 1))).find? fun e =>
    e.testBit 63 && decide (e % 2 ^ 48 = dst)

/-- The learned port of an address. -/
def learnedPort (s : State) (dst : Nat) : Option PortId :=
  ((s.bridge.get (viewUnit s)).learned.find? fun e => e.mac == dst).map fun e => e.port

/-- Where a frame goes: the endpoint, the ports, and whether it is counted as discarded (Table 8-3, rules 2 to 11). -/
structure Route where
  endpoint : Bool
  ports : List PortId
  counted : Bool
  deriving DecidableEq, Repr

def members (s : State) (p : PortId) : List PortId := allPorts.filter fun q => decide (q ≠ p) && isMember s q

/-- The first row of Table 8-3 that applies. A unicast address learned on a port that is no bridge member any more, which no row covers, is flooded as one
not learned (DESIGN CHOICE, log entry 83). -/
def routeOf (s : State) (p : PortId) (f : Frame) : Route :=
  if f.dst / 16 = 0x0180C200000 then ⟨false, [], true⟩
  else if s.flash.limit.macs.toList.contains f.src then ⟨false, [], true⟩
  else if f.dst = portMac s p then ⟨true, [], false⟩
  else
    match staticEntry s f.dst with
    | some e => ⟨e.testBit 52, allPorts.filter fun q => decide (q ≠ p) && e.testBit (48 + q.val), false⟩
    | none =>
      if ¬ isMember s p then (if forEndpoint s p f.dst then ⟨true, [], false⟩ else ⟨false, [], true⟩)
      else if f.dst = broadcastMac then ⟨true, members s p, false⟩
      else if (f.dst >>> 40) % 2 = 1 then
        ⟨forEndpoint s p f.dst, (members s p).filter fun q => decide (cfg s (kPort q 0x0A) = 1), false⟩
      else
        match learnedPort s f.dst with
        | some q => if q = p then ⟨false, [], false⟩ else if isMember s q then ⟨false, [q], false⟩ else ⟨false, members s p, false⟩
        | none => ⟨false, members s p, false⟩

/-- The packet a forwarded frame becomes (R199, R200). -/
def bridgedPacket (s : State) (p : PortId) (f : Frame) : Packet :=
  let ptp := match f.body with
    | .ptp e c => (e, c)
    | _ => (false, 0)
  { kind := .bridged f.src ptp.1 ptp.2 (stampIn s (viewUnit s) p f.stampError f.skew) p, frame := f.len, charge := 1, seq := 0, timestamp := 0, marker := false, srcMac := f.src,
    entered := s.now }

/-- One waiting frame enters the bridged flows that take it; those that refuse stay on its list. -/
def drainOne (s : State) (w : Waiting) : State × List PortId :=
  w.ports.foldl (fun x q =>
    if flowTakes x.1 (bridgedFlow q) [w.packet] then (enqueue x.1 (bridgedFlow q) [w.packet], x.2)
    else (x.1, x.2 ++ [q])) (s, [])

/-- Waiting frames in order; a port that refused one holds back the later ones for it. -/
def drainList (s : State) : List Waiting → List PortId → State × List Waiting
  | [], _ => (s, [])
  | w :: rest, held =>
    let now := { w with ports := w.ports.filter fun q => !held.contains q }
    let r := drainOne s now
    let left := r.2 ++ w.ports.filter fun q => held.contains q
    let t := drainList r.1 rest (held ++ r.2)
    (t.1, if left.isEmpty then t.2 else { w with ports := left } :: t.2)

/-- Frames waiting in a port's receive buffer enter their bridged flows as these have room (R199). -/
def drainReceive (s : State) (p : PortId) : State :=
  let r := drainList s s.ports[p].receive []
  { r.1 with ports := vmod r.1.ports p fun x => { x with receive := r.2 } }

def execReceiveBufferEnqueue (p : PortId) (s : State) : Out := .next (drainReceive s p)

/-- A frame to be forwarded waits in the receive buffer, or is discarded where that is full (R199); only the active unit
forwards (R197). -/
def forward (s : State) (p : PortId) (f : Frame) (out : List PortId) : State :=
  if out.isEmpty ∨ ¬ activeUnit s then s
  else if receiveSize < receiveBytes s p + f.len then countPort s p 0x13 1
  else
    let t := drainReceive { s with ports := vmod s.ports p fun x =>
      { x with receive := x.receive ++ [⟨bridgedPacket s p f, out⟩] } } p
    match t.ports[p].receive.getLast? with
    | some w => if w.packet = bridgedPacket s p f then forEach w.ports (fun x q => refuseFlow x (bridgedFlow q)) t else t
    | none => t

/-- The frame after the meters: rules 2 to 11. A PAUSE or PFC frame is counted and discarded, wherever it is addressed (R187). -/
def routeFrame (s : State) (p : PortId) (f : Frame) : State :=
  if f.body = .flowControl then countPort (countPort s p 0x14 1) p 0x12 1 else
  let r := routeOf s p f
  let ours := s.flash.limit.macs.toList.contains f.src
  let s1 := if f.dst / 16 = 0x0180C200000 ∨ ours then s
    else learnSource s p f.src
  let s2 := if r.counted then countPort s1 p 0x12 1 else s1
  let s3 := if r.endpoint then toEndpoint s2 p f else s2
  forward s3 p f r.ports

/-- A port receives a frame: counted, rule 1, meters, rules 2 to 11 (Table 8-3). A port that does not serve delivers
nothing (R189). -/
def execFrameRx (p : PortId) (f : Frame) (s : State) : Out :=
  if portServes s p then
    let s1 := countPort (countPort s p 0x0E 1) p 0x0F f.len
    if ¬ f.fcsOk ∨ f.len < 64 ∨ s.flash.limit.frameLimit.get p < f.len then .next (countPort s1 p 0x11 1)
    else
      let r := meterFrame s1 p f
      if r.2 then .next (routeFrame r.1 p f) else .next r.1
  else .next s

/-! ## Links (R189, R193, R207) -/

/-- The gratuitous ARP and the membership reports of a port, from the active unit (R193). -/
def announcePort (s : State) (p : PortId) : State :=
  if activeUnit s ∧ portServes s p then
    sendReport (endpointSend s p .arp (arpDest broadcastMac) 64 (.datagram (arpBytes 1 (portMac s p) (portIp s p) 0 (portIp s p)))) p
      (joinedGroups s p)
  else s

/-- The receive PCS of each unit that has booted locks on what the fan-outs pass to both (01_module.md R13, R16). -/
def pcsLock (s : State) (up : Bool) (x : Pair PortPcs) : Pair PortPcs :=
  let on := fun (u : UnitId) => up && decide ((s.boot.get u).mode = .booted)
  ⟨{ x.a with locked := on .a }, { x.b with locked := on .b }⟩

/-- All 20 PCS lanes are locked and aligned, and the FEC decoder where RS-FEC is enabled. -/
def execPortLinkUp (p : PortId) (s : State) : Out :=
  .next (announcePort { s with ports := vmod s.ports p fun x =>
    { x with up := true, fecLocked := fecOn s p, lanes := 0xFFFFF, pcs := pcsLock s true x.pcs } } p)

/-- The link goes down: counted, LINK_LOST. Copies admitted before stay in its path queues (R207). -/
def linkDown (s : State) (p : PortId) : State :=
  let t := setFlag (countPort s p 0x18 1) (kPort p 0x0B) 29
  { t with ports := vmod t.ports p fun x => { x with
    up := false
    fecLocked := false
    lanes := 0
    pcs := pcsLock s false x.pcs } }

def execPortLinkDown (p : PortId) (s : State) : Out := .next (linkDown s p)

/-! ## Selectors (R190, R191, R157, R259) -/

/-- Cycles of n 66-bit blocks, rounded up: a block lasts 2.56 ns, 96/25 cycles (R190). -/
def blockCycles (n : Nat) : Nat := (96 * n + 24) / 25

/-- The common block counter: 66-bit blocks since the time core started (01_module.md Table 1-5, R190). -/
def blockCount (s : State) : Nat := (s.now - s.time.tb3Start) * 25 / 96

/-- Blocks from one switch boundary of a port to the next: one, or the 20 of an RS-FEC codeword, 51.2 ns (R190). -/
def boundaryBlocks (s : State) (p : PortId) : Nat := if fecOn s p then 20 else 1

/-- The port's first switch boundary at or after the hand-over tick, in cycles (R190; 01_module.md R16). -/
def switchBoundary (s : State) (p : PortId) : Nat :=
  let n := boundaryBlocks s p
  let since := s.relay.handoverAt - s.time.tb3Start
  s.time.tb3Start + blockCycles (n * ((25 * since + 96 * n - 1) / (96 * n)))

/-- At the first switch boundary at or after the hand-over tick the port's transmit selector and the monitor selectors
pass to the active unit; a frame in transmission is cut, a cut Delay_Req with its exchange; the new unit announces the
port (R191, R193, R157, R259). Selectors that hold do not switch (01_module.md R20). -/
def execSelectorSwitch (p : PortId) (s : State) : Out :=
  match s.relay.active with
  | none => .next s
  | some u =>
    if s.ports[p].selected = some u ∨ s.lap.voterHold = true ∨ s.now < switchBoundary s p then .next s
    else
      let cut := decide (s.now < s.ports[p].busyUntil)
      let delay := cut && (s.ports[p].lastTx.any fun x => decide (x.kind = .delayReq))
      .next (announcePort { s with
        ports := vmod s.ports p fun x => { x with
          selected := some u
          busyUntil := if cut then s.now else x.busyUntil
          lastTx := if cut then none else x.lastTx
          wire := if cut then none else x.wire }
        mon := monitorSwitch s u
        time := if delay then { s.time with request := none } else s.time } p)

/-! ## Session description (R209, R254) -/

def ascii (t : String) : List Byte := t.toList.map fun c => BitVec.ofNat 8 c.toNat

def number (n : Nat) : List Byte := ascii (toString n)

/-- A hexadecimal digit pair, and a MAC or clock identity with dashes. -/
def hexDigit (n : Nat) : Byte := if n < 10 then BitVec.ofNat 8 (48 + n) else BitVec.ofNat 8 (55 + n)

def dashed (bytes n : Nat) : List Byte :=
  (List.range bytes).flatMap fun i =>
    let b := (n >>> (8 * (bytes - 1 - i))) % 256
    (if i = 0 then [] else ascii "-") ++ [hexDigit (b / 16), hexDigit (b % 16)]

def dotted (ip : Nat) : List Byte :=
  number (ip >>> 24 % 256) ++ ascii "." ++ number (ip >>> 16 % 256) ++ ascii "." ++ number (ip >>> 8 % 256) ++
    ascii "." ++ number (ip % 256)

def sdpLine (l : List Byte) : List Byte := l ++ [0x0D, 0x0A]

/-- The reference clock line: the grandmaster, or localmac with the primary port's MAC (R254). -/
def refClock (s : State) (f : FlowId) : List Byte :=
  if s.time.grandmaster = 0 then sdpLine (ascii "a=ts-refclk:localmac=" ++ dashed 6 (portMac s (flowPrimary s f)))
  else sdpLine (ascii "a=ts-refclk:ptp=IEEE1588-2008:" ++ dashed 8 s.time.grandmaster ++ ascii ":" ++ number (cfg s (key 0x2201 2)))

/-- A base64 character of RFC 4648. -/
def base64Char (n : Nat) : Byte :=
  BitVec.ofNat 8 (if n < 26 then 65 + n else if n < 52 then 71 + n else if n < 62 then n - 4 else if n = 62 then 43 else 47)

/-- Base64 of bytes; `fuel` bounds the groups. -/
def base64 : Nat → List Nat → List Byte
  | 0, _ => []
  | fuel + 1, l =>
    let c := fun (v i : Nat) => base64Char (v / 64 ^ (3 - i) % 64)
    match l with
    | [] => []
    | [a] => [c (a * 65536) 0, c (a * 65536) 1, 61, 61]
    | [a, b] => let v := a * 65536 + b * 256; [c v 0, c v 1, c v 2, 61]
    | a :: b :: d :: t => let v := a * 65536 + b * 256 + d; [c v 0, c v 1, c v 2, c v 3] ++ base64 fuel t

/-- The parameter sets of a stream as RFC 7798 carries them in an SDP. -/
def spropLine (s : State) (n : StreamId) : List Byte :=
  ((["vps", "sps", "pps"].zip (parameterUnits s n)).map fun x =>
    ascii ";sprop-" ++ ascii x.1 ++ ascii "=" ++ base64 x.2.length x.2).flatten

/-- The media lines by payload format (R209). -/
def formatLines (s : State) (f : FlowId) : List Byte :=
  let pt := number (cfg s (kFlow f 0x17))
  match flowFormat s f with
  | 0 =>
    let n : StreamId := finOf 16 (by decide) (cfg s (kFlow f 2))
    let st := s.streams[n]
    sdpLine (ascii "a=rtpmap:" ++ pt ++ ascii " H265/90000") ++
    sdpLine (ascii "a=fmtp:" ++ pt ++ ascii " profile-id=" ++ number (profileIdc st.profile) ++ ascii ";tier-flag=" ++
      number (cfg s (kStream n 0x0E)) ++ ascii ";level-id=" ++ number st.level ++ ascii ";sprop-max-don-diff=0" ++ spropLine s n)
  | 1 =>
    let sampling := match cfg s (key 0x2300 1) with
      | 0 => "KEY"
      | 1 => "YCbCr-4:2:0"
      | 2 => "YCbCr-4:2:2"
      | _ => "YCbCr-4:4:4"
    sdpLine (ascii "a=rtpmap:" ++ pt ++ ascii " raw/90000") ++
    sdpLine (ascii "a=fmtp:" ++ pt ++ ascii " sampling=" ++ ascii sampling ++ ascii "; depth=" ++
      number (cfg s (key 0x2300 2)) ++ ascii "; PM=2110GPM; TP=2110TPW")
  | _ => sdpLine (ascii "a=rtpmap:" ++ pt ++ ascii " rmbs-token/90000")

/-- The flow's session description, generated from its current objects (R209); origin, name and time as RFC 8866 has them where nothing is said
(log entry 63, PRESUMED). -/
def sessionDescription (s : State) (f : FlowId) : List Byte :=
  let dual := (flowSecondary s f).isSome
  let media := fun (second : Bool) =>
    sdpLine (ascii "m=video " ++ number (cfg s (kFlow f 0x16) % 65536) ++ ascii " RTP/AVP " ++ number (cfg s (kFlow f 0x17))) ++
    sdpLine (ascii "c=IN IP4 " ++ dotted (destinationOf s f second) ++
      (if isMulticastIp (destinationOf s f second) then ascii "/" ++ number (cfg s (kFlow f 0x19)) else [])) ++ refClock s f ++
    sdpLine (ascii "a=mediaclk:direct=0") ++ formatLines s f ++
    (if dual then sdpLine (ascii "a=mid:" ++ ascii (if second then "secondary" else "primary")) else [])
  let origin := Config.sdpOrigin f.val
  sdpLine (ascii "v=0") ++
    sdpLine (ascii "o=- " ++ number origin.1 ++ ascii " " ++ number origin.2 ++ ascii " IN IP4 " ++ dotted (portIp s (flowPrimary s f))) ++
    sdpLine (ascii "s=-") ++ sdpLine (ascii "t=0 0") ++ (if dual then sdpLine (ascii "a=group:DUP primary secondary") else []) ++
    media false ++ (if dual then media true else [])

/-- A read of 0x4000:13 returns the flow's SDP. -/
def execSessionDescriptionRead (k : Client) (f : FlowId) (s : State) : Out :=
  if serves s k (0x4000 + f.val) then
    .next (answer (touchRead s k) k (.value (sessionDescription s f)))
  else .next s

end Sys2Proof.Machine
end

