-- ==== Sys2Proof/Machine/Relay.lean ====
section
/-! DEFINITION. The relay's commands (13_relay.md): the command object 0x2010:02, faults, the arbiter's decision, baton
and report, self-test, repair, reversion. What the arbiter does at a tick is in RelayTick. -/

namespace Sys2Proof.Machine

/-! ## Commands of 0x2010:02 -/

/-- Every command but 4 and 5 is refused while LOCKED_OUT (R329). -/
def doPlanned (s : State) : Except Abort State :=
  if s.relay.mode = .lockedOut then .error .presentState
  else .ok { s with relay := { s.relay with planned := true } }

/-- Command 1: the planned switch begins in DRAINING at the first tick after its acknowledgement (R325, R326). -/
def execPlannedSwitch (k : Client) (s : State) : Out := .next (serveWrite s k 0x2010 doPlanned)

def doForced (s : State) : Except Abort State :=
  if s.relay.mode = .lockedOut then .error .presentState
  else .ok { s with relay := { s.relay with forced := true } }

/-- Command 2: hand over at the next tick (R328). -/
def execForcedSwitch (k : Client) (s : State) : Out := .next (serveWrite s k 0x2010 doForced)

def doLockout (s : State) : Except Abort State :=
  if s.relay.mode = .lockedOut then .error .presentState
  else
    let t := dropSwitch s
    .ok { t with relay := { t.relay with mode := .lockedOut, forced := false, holdOffAt := none } }

/-- Command 3: LOCKED_OUT; a pending planned switch is abandoned (R329). -/
def execLockout (k : Client) (s : State) : Out := .next (serveWrite s k 0x2010 doLockout)

/-- The state that readiness gives (R329, Table 13-1). -/
def modeByReadiness (s : State) : RelayMode :=
  if s.relay.active.isNone then .starting
  else if s.relay.dead then .failed
  else if s.relay.repair ≠ .none then .repairing
  else if standbyIsReady s then .standbyReady
  else .exposed

/-- The home unit (0x2010:03). -/
def homeUnit (s : State) : UnitId := if cfg s (key 0x2010 3) = 1 then .b else .a

def reversionLocked (s : State) : Bool := decide (cfg s (key 0x2010 4) = 1)

/-- The hold-off of 0x2010:05 seconds starts where the standby is the home unit returned from repair. -/
def startHoldOff (s : State) : State :=
  if s.relay.repairDone ∧ standbyOf s = some (homeUnit s) ∧ ¬ reversionLocked s ∧ s.relay.mode = .standbyReady then
    { s with relay := { s.relay with
        mode := .revertPending
        holdOffAt := some (s.now + cfg s (key 0x2010 5) * cyclesPerSec) } }
  else s

def doEndLockout (s : State) : Except Abort State :=
  .ok (if s.relay.mode = .lockedOut then startHoldOff { s with relay := { s.relay with mode := modeByReadiness s } } else s)

/-- Command 4: leave LOCKED_OUT (R329); a home unit back from repair starts its hold-off (R331, Table 13-1). -/
def execEndLockout (k : Client) (s : State) : Out := .next (serveWrite s k 0x2010 doEndLockout)

def doAbandon (s : State) : Except Abort State := .ok (dropSwitch s)

/-- Command 5: the planned switch is abandoned and the goals restored (R326); it is taken in LOCKED_OUT too (R329). -/
def execAbandonPlannedSwitch (k : Client) (s : State) : Out := .next (serveWrite s k 0x2010 doAbandon)

/-- Phases in service. -/
def phaseCount (p : BitVec 7) : Nat := ((List.range 7).filter fun i => p.getLsbD i).length

/-- Fewer than six phases serve (16_power_ageing.md R381). -/
def phasesShort (s : State) : Bool := decide (phaseCount s.stage.phases < 6)

def doRetry (s : State) : Except Abort State :=
  if s.relay.mode = .lockedOut then .error .presentState
  else if phasesShort s then .error .presentState
  else if s.relay.mode = .failed then
    let u := s.relay.active.elim s.relay.repairUnit UnitId.other
    let t := regPut (clearFlag s kIntegrity 26) (key 0x2010 0x0E) 0
    .ok (startRepair { t with relay := { t.relay with mode := .repairing, dead := false } } u)
  else .ok s

/-- Command 6: a new series of repair attempts, refused while fewer than six phases serve (R330, R381). -/
def execRetryRepair (k : Client) (s : State) : Out := .next (serveWrite s k 0x2010 doRetry)

/-! ## Reversion (R331) -/

def doReversionLock (v : Nat) (s : State) : Except Abort State :=
  if 1 < v then .error .outOfRange
  else
    let t := commitValue s (key 0x2010 4) v (unitPresent s .a) (unitPresent s .b)
    if v = 1 then
      .ok { t with relay := { t.relay with
        holdOffAt := none
        mode := if t.relay.mode = .revertPending then .standbyReady else t.relay.mode } }
    else .ok (startHoldOff t)

/-- A write of 0x2010:04: setting the lock cancels a pending reversion, clearing it starts the hold-off again (R331). -/
def execReversionLockWrite (k : Client) (v : Nat) (s : State) : Out := .next (serveWrite s k 0x2010 (doReversionLock v))

/-- The hold-off has run: a planned switch back to the home unit starts (R331). -/
def execHoldOffExpiry (s : State) : Out :=
  match s.relay.holdOffAt with
  | some t =>
    if t ≤ s.now ∧ s.relay.mode = .revertPending ∧ ¬ reversionLocked s then
      .next { s with relay := { s.relay with planned := true, holdOffAt := none } }
    else .next s
  | none => .next s

/-! ## Faults and the arbiter's decision (R318, R319) -/

/-- The status bit a fault source sets, with its EMCY code and its source (Table 13-6, 17_dictionary.md Table 17-4). -/
def faultRow : UnitFaultSource → Nat × Nat × Nat × Nat
  | .verdict c => (key (0x3002 + 0x100 * c.val) 0x0A, 30, 0x5010, 9)
  | .egress c => (key (0x3002 + 0x100 * c.val) 0x0A, 30, 0x5010, 9)
  | .hurdle => (key 0x2500 9, 20, 0x5011, 10)
  | .lane => (key 0x2300 8, 25, 0x5014, 14)
  | .memory => (key 0x2800 0x10, 29, 0x5012, 11)
  | .watchdog => (kIntegrity, 25, 0x6100, 13)
  | .clockOrRail => (key 0x2010 0x0B, 0, 0x5013, 12)
  | .thermal => (kIntegrity, 24, 0x4202, 8)

/-- A unit fault with its status bit and EMCY; a clock or rail fault has no status bit (R318, 14_integrity.md R354). -/
def unitFaultOf (s : State) (u : UnitId) (src : UnitFaultSource) : State :=
  let r := faultRow src
  let s1 := if src = .clockOrRail then s else setFlag s r.1 r.2.1
  reportUnitFault (raiseEmcyOf s1 u r.2.2.1 r.1 0) u r.2.2.2

/-- A unit fault is reported to the arbiter. -/
def execUnitFault (u : UnitId) (src : UnitFaultSource) (s : State) : Out := .next (unitFaultOf s u src)

/-- No hand-over is made for a fault: FAULT_N and an EMCY, once for the fault (R319). -/
def refuseHandover (s : State) : State :=
  if s.relay.refusedNow then s
  else
    let t := raiseEmcy (setFlag (setFlag s kRelayStatus 28) kIntegrity 29) 0xFF01 kRelayStatus 0
    { t with relay := { t.relay with refusedNow := true } }

/-- The standby's stand-ins for the next tick are built and have passed their checks (R309, condition 7). -/
def standInsReady (s : State) : Bool :=
  match standbyOf s with
  | some u => decide ((s.standIns.get u).tick = s.lap.count + 1) && !(s.standIns.get u).failed
  | none => false

/-- At T-64 the arbiter latches its decision for the next tick with the standby's readiness (R319, R327, R328); after a
double disagreement of the voter the selectors hold (01_module.md R20). -/
def execArbiterLatch (s : State) : Out :=
  let ready := standbyIsReady s && standInsReady s && !s.lap.voterHold
  match s.relay.fault with
  | some src =>
    if ready ∧ s.relay.mode ≠ .lockedOut then
      .next { s with relay := { s.relay with latched := some { planned := false, source := src } } }
    else .next (refuseHandover s)
  | none =>
    if s.relay.forced then
      .next { s with relay := { s.relay with
        forced := false
        latched := if ready then some { planned := false, source := 0 } else none } }
    else if s.relay.mode = .warming ∧ s.relay.switchTick = some (s.lap.count + 1) then
      .next { s with relay := { s.relay with
        latched := if ready then some { planned := true, source := 0 } else none } }
    else .next s

/-! ## Baton and release report (R315 to R317) -/

/-- A stream entry (Table 13-5). -/
def parseStream (n : Nat) : BatonStream :=
  let count := fieldOf n 679 672
  let held := [fieldOf n 863 832, fieldOf n 895 864, fieldOf n 927 896]
  { e := fieldOf n 1023 960, releaseIndex := fieldOf n 959 928, held := held.take (min 3 count),
    cplxI := fieldOf n 831 800, cplxP := fieldOf n 799 768, credit := asSigned 64 (fieldOf n 767 704),
    lastQp := fieldOf n 703 696, rebuild := fieldOf n 695 688, flags := fieldOf n 687 680,
    picsSinceBp := fieldOf n 671 640, poc := fieldOf n 639 608, picsSinceIrap := fieldOf n 607 576,
    picturesCoded := fieldOf n 575 512, tokenSeq := fieldOf n 511 480, prevBudget := fieldOf n 479 448 }

/-- The baton from its 8,192 bytes (Tables 13-3, 13-4). -/
def parseBaton (l : List Byte) : Baton :=
  let h := recordAt l 0 64
  let cap := recordAt l 192 64
  { alive := fieldOf h 503 488, unit := if h.testBit 487 then .b else .a, lapCount := fieldOf h 479 416,
    stateCycle := fieldOf h 415 352, generation := fieldOf h 351 320, lapInPicture := fieldOf h 319 288,
    streamsOn := fieldOf h 287 272,
    counters := (List.range 4).map fun c =>
      let r := recordAt l (64 + 32 * c) 32
      (fieldOf r 191 128, fieldOf r 127 64, fieldOf r 63 0),
    capture := (fieldOf cap 511 504, fieldOf cap 503 502, fieldOf cap 495 432, fieldOf cap 431 320, fieldOf cap 319 288,
      fieldOf cap 287 256, fieldOf cap 255 224),
    streams := (List.range 16).map fun n => parseStream (recordAt l (256 + 128 * n) 128),
    flows := (List.range 256).map fun f =>
      let r := recordAt l (2304 + 16 * f) 16
      (fieldOf r 127 80, fieldOf r 79 48) }

/-- A record from its fields: high bit, low bit, value. -/
def recordOf (l : List (Nat × Nat × Nat)) : Nat := (l.map fun f => f.2.2 % 2 ^ (f.1 - f.2.1 + 1) * 2 ^ f.2.1).sum

/-- A stream entry's 128 bytes (Table 13-5). -/
def streamBytes (b : BatonStream) : List Byte :=
  leBytes 128 (recordOf [(1023, 960, b.e), (959, 928, b.releaseIndex), (863, 832, b.held.getD 0 0), (895, 864, b.held.getD 1 0), (927, 896, b.held.getD 2 0),
    (831, 800, b.cplxI), (799, 768, b.cplxP), (767, 704, (b.credit % 2 ^ 64).toNat), (703, 696, b.lastQp), (695, 688, b.rebuild), (687, 680, b.flags),
    (679, 672, b.held.length), (671, 640, b.picsSinceBp), (639, 608, b.poc), (607, 576, b.picsSinceIrap), (575, 512, b.picturesCoded),
    (511, 480, b.tokenSeq), (479, 448, b.prevBudget)])

/-- The first 8,188 bytes of a baton: header with VERSION 1, channel counters, capture, streams, flows (Tables 13-3, 13-4). -/
def batonBody (b : Baton) : List Byte :=
  let (state, cut, trig, tb0, p, q, due) := b.capture
  leBytes 64 (recordOf [(511, 504, 1), (503, 488, b.alive), (487, 487, b.unit.bit), (479, 416, b.lapCount), (415, 352, b.stateCycle),
    (351, 320, b.generation), (319, 288, b.lapInPicture), (287, 272, b.streamsOn)]) ++
  (b.counters.flatMap fun c => leBytes 32 (recordOf [(191, 128, c.1), (127, 64, c.2.1), (63, 0, c.2.2)])) ++
  leBytes 64 (recordOf [(511, 504, state), (503, 502, cut), (495, 432, trig), (431, 320, tb0), (319, 288, p), (287, 256, q), (255, 224, due)]) ++
  b.streams.flatMap streamBytes ++ (b.flows.flatMap fun f => leBytes 16 (recordOf [(127, 80, f.1), (79, 48, f.2)])) ++ List.replicate 1788 0

/-- The 8,192 bytes of a baton, its CRC-32C behind them (R315; 00_scope.md R7). -/
def batonBytes (b : Baton) : List Byte := batonBody b ++ leBytes 4 (crc32c (batonBody b)).toNat

/-- Bytes as they are read: some differ from those written. -/
def damagedBytes (l : List Byte) (damage : List (Nat × Byte)) : List Byte := damage.foldl (fun a e => a.set e.1 e.2) l

/-- The CRC-32C of bytes 0 to 8,187 equals bytes 8,188 to 8,191 (R315). -/
def batonCrcOk (l : List Byte) : Bool := decide ((crc32c (l.take 8188)).toNat = recordAt l 8188 4)

/-- The slot that does not hold the last complete baton (R315). -/
def freeSlot (b : BatonState) : Fin 2 :=
  match b.last with
  | some i => 1 - i
  | none => 0

/-- A complete baton takes the free slot, and where it is mirrored now the mirror of segment 0 keeps the last 128 (R315, 11_dram.md Table 11-5). -/
def batonAccept (mirrored : Option Nat) (b : BatonState) (r : Baton) : BatonState :=
  let i := freeSlot b
  { b with
    slots := vmod b.slots i fun _ => some r
    last := some i
    lastTick := r.lapCount
    expected := some ((r.alive + 1) % 65536)
    written := false
    misses := 0
    mirror := if mirrored.isSome then (r :: b.mirror).take 128 else b.mirror
    mirrorAt := mirrored.getD b.mirrorAt }

/-- When a unit mirrors a baton that it accepts now: the active one each, the standby at most once per 64 ms while its DRAM is awake
(11_dram.md R281). -/
def mirrorNow (s : State) (u : UnitId) : Option Nat :=
  if s.relay.active = some u ∨ ((s.dram.get u).refresh = .active ∧ (s.baton.get u).mirrorAt + 64 * cyclesPerMs ≤ s.now) then some s.now else none

/-- A baton fault is counted; two in a row make the baton stale (R316). -/
def batonFault (s : State) (u : UnitId) : State :=
  let s1 := bump s (key 0x2010 0x0F)
  let n := (s1.baton.get u).misses + 1
  let s2 : State := { s1 with baton := s1.baton.mod u fun b => { b with misses := n } }
  if n = 2 then
    let s3 := raiseEmcy (setFlag s2 kRelayStatus 30) 0xFF02 kRelayStatus 0
    if s.relay.active = some u then s3 else loseReady s3
  else s2

/-- The baton written into a unit's free slot, as the unit reads it. -/
def writtenBytes (s : State) (u : UnitId) (damage : List (Nat × Byte)) : Option (List Byte) :=
  let b := s.baton.get u
  if b.written then (b.slots.get (freeSlot b)).map fun r => damagedBytes (batonBytes r) damage else none

/-- A slot whose bytes fail their check is restored from the mirror (11_dram.md R281). -/
def restoreSlot (b : BatonState) : BatonState := { b with slots := vmod b.slots (freeSlot b) fun _ => b.mirror.head?, written := false }

/-- Unit u checks the baton last written with its CV4: CRC and ALIVE (R315; 14_integrity.md R344); `damage` are the bytes that it reads otherwise than
they were written. -/
def execBatonCheck (u : UnitId) (damage : List (Nat × Byte)) (s : State) : Out :=
  match writtenBytes s u damage with
  | none => .next s
  | some bytes =>
    let r := parseBaton bytes
    let s1 := cvEnd s 4 (crc32c (bytes.take 8188)).toNat (batonCrcOk bytes)
    if batonCrcOk bytes then
      if (s1.baton.get u).expected = none ∨ (s1.baton.get u).expected = some r.alive then
        .next { s1 with baton := s1.baton.mod u fun b => batonAccept (mirrorNow s u) b r }
      else
        .next (batonFault { cvGap s1 4 with
          baton := s1.baton.mod u fun b => { b with written := false, expected := some ((r.alive + 1) % 65536) } } u)
    else .next (batonFault { s1 with baton := s1.baton.mod u restoreSlot } u)

/-- The pairs of a release report: flow number in 2 bytes and packet count in 4, little-endian (R317; 00_scope.md R7). The split of the 6
bytes is the model's (log entry 55, DEDUCED). -/
def reportPairs (pairs : List Byte) : List (Nat × Nat) :=
  (List.range (pairs.length / 6)).map fun i => (recordAt pairs (6 * i) 2, recordAt pairs (6 * i + 2) 4)

/-- A release report is complete: whole pairs, at most 248, and the CRC-32C over them behind them (R317). -/
def reportGood (pairs crc : List Byte) : Bool :=
  decide (pairs.length ≤ 1488 ∧ pairs.length % 6 = 0 ∧ crc.length = 4) && decide ((crc32c pairs).toNat = recordAt crc 0 4)

/-- The release report of the tick reaches the standby, whose CV4 checks it; one that is not complete is none (R317, R321; 14_integrity.md R343). -/
def execReleaseReport (pairs crc : List Byte) (s : State) : Out :=
  match standbyOf s with
  | some u =>
    let good := reportGood pairs crc
    .next { cvEnd s 4 (crc32c pairs).toNat good with
      baton := s.baton.mod u fun b => { b with report := if good then some (reportPairs pairs) else none } }
  | none => .next s

/-! ## Self-test and repair (R310, R330) -/

/-- A repair attempt fails: after the third the relay enters FAILED, else it is tried again 60 s later (R330). -/
def repairFailed (s : State) : State :=
  let s1 := setFlag s kRelayStatus 27
  if 3 ≤ regGet s (key 0x2010 0x0E) then
    let s2 := raiseEmcy (setFlag s1 kIntegrity 26) 0xFF04 kRelayStatus 0
    { s2 with
      relay := { s2.relay with
        repair := .none
        dead := true
        mode := if s2.relay.mode = .lockedOut then .lockedOut else .failed }
      boot := s2.boot.mod s2.relay.repairUnit fun b => { b with mode := .inReset } }
  else
    { s1 with
      relay := { s1.relay with repair := .waiting s1.now }
      boot := s1.boot.mod s1.relay.repairUnit fun b => { b with mode := .inReset } }

/-- The 10 ms of unit reset end and the unit boots (R330, 15_reset.md Table 15-1 code 6). -/
def releaseRepair (s : State) : State :=
  match s.relay.repair with
  | .inReset t =>
    if t + 10 * cyclesPerMs ≤ s.now then
      { s with
        rst := { s.rst with asserted := s.rst.asserted &&& 0xBF }
        relay := { s.relay with repair := .booting }
        boot := s.boot.mod s.relay.repairUnit fun b => { b with mode := .booting } }
    else s
  | _ => s

def execRepairResetRelease (s : State) : Out := .next (releaseRepair s)

/-- A failed repair is tried again after 60 s (R330). -/
def execRepairRetry (s : State) : Out :=
  match s.relay.repair with
  | .waiting t => if t + 60 * cyclesPerSec ≤ s.now then .next (startRepair s s.relay.repairUnit) else .next s
  | _ => .next s

/-! ## Start (R308) -/

/-- A unit is made active: its lanes leave electrical idle, RELAY_A or RELAY_B is asserted, 0x2100:04 takes the time from
the last release in ms (R308, R21; 15_reset.md Tables 15-4, 15-7); it announces the ports whose links are up (08_network.md R193). -/
def activate (s : State) (u : UnitId) : State :=
  let s0 := if (s.dram.get u).chan.toList.all fun c => c.trained then s else setFlag s (key 0x2800 0x10) 26
  let s1 := regPut s0 (key 0x2100 4) ((s.now - s.rst.releasedAt) / cyclesPerMs)
  forEach allPorts announcePort { s1 with
    relay := { s1.relay with active := some u, mode := if s1.relay.mode = .lockedOut then .lockedOut else .exposed }
    ports := s1.ports.map fun p => { p with selected := some u, txIdle := flag s1 kIntegrity 30 }
    mon := { s1.mon with selected := some u } }

/-- The home unit has not booted within 2 s of the other unit, or reports a boot fault: the other is made active (R308), unless the
selectors hold (01_module.md R20). -/
def homeLateAct (s : State) : State :=
  let o := (homeUnit s).other
  if s.relay.active.isNone ∧ s.lap.voterHold = false ∧ (s.boot.get o).mode = .booted ∧ (s.boot.get (homeUnit s)).mode ≠ .booted ∧
      ((s.boot.get o).bootedAt + 2 * cyclesPerSec ≤ s.now ∨ (s.boot.get (homeUnit s)).mode = .bootFault) then
    activate s o
  else s

def execHomeBootTimeout (s : State) : Out := .next (homeLateAct s)

end Sys2Proof.Machine
end

