-- ==== Sys2Proof/Machine/Tasks.lean ====
section
/-! DEFINITION. The task dispatcher: event flags, class queues, timers, engines (02_lap.md R45 to R50), and the matching
store's operands (R39, R40, R46). -/

namespace Sys2Proof.Machine

/-- The channel that owns an engine (01_module.md R10). -/
def engineChan (e : EngineId) : Chan := finOf 4 (by decide) (e.val / 16)

/-- The queue of a channel's class: 3 × channel + class (R48). -/
def queueOf (t : Task) : Fin 12 := finOf 12 (by decide) (3 * (engineChan t.engine).val + t.cls.val)

/-- All masked flags set in mode "all", any of them in mode "any" (R45). -/
def satisfied (t : Task) : Bool :=
  if t.all then decide (t.flags &&& t.mask = t.mask) else decide (t.flags &&& t.mask ≠ 0)

def findTask (d : DispState) (ident : Nat) : Option Task := d.tasks.find? fun t => t.ident == ident

def modTask (d : DispState) (ident : Nat) (f : Task → Task) : DispState :=
  { d with tasks := d.tasks.map fun t => if t.ident = ident then f t else t }

/-- Whether a flag write would make a waiting task ready while its class queue is full (R48). -/
def flagRefused (d : DispState) (ident : Nat) (flag : Fin 32) : Bool :=
  match findTask d ident with
  | some t =>
    let t1 := { t with flags := t.flags ||| BitVec.ofNat 32 (1 <<< flag.val) }
    decide (t.status = .waiting) && satisfied t1 && decide (64 ≤ (d.queues.get (queueOf t)).length)
  | none => false

/-- A flag write that is taken: the flag is set, and a waiting task whose mask is satisfied joins its class queue. -/
def flagTaken (d : DispState) (lap ident : Nat) (flag : Fin 32) : DispState :=
  match findTask d ident with
  | some t =>
    let t1 := { t with flags := t.flags ||| BitVec.ofNat 32 (1 <<< flag.val) }
    if t.status = .waiting ∧ satisfied t1 then
      let d1 := modTask d ident fun _ => { t1 with status := .ready, readyLap := lap }
      { d1 with queues := vmod d1.queues (queueOf t) fun q => q ++ [ident] }
    else modTask d ident fun _ => t1
  | none => d

/-- A hardware source sets a flag: refused, it holds its write and offers it again; a refusal in the lap-deadline class
sets READY_REFUSED (R45, R48). -/
def setTaskFlag (s : State) (u : UnitId) (ident : Nat) (flag : Fin 32) : State :=
  let d := s.disp.get u
  if flagRefused d ident flag then
    let s1 : State := { s with disp := s.disp.set u { d with heldFlags := d.heldFlags ++ [(ident, flag)] } }
    match findTask d ident with
    | some t => if t.cls.val = 0 then setFlag s1 (key 0x2500 9) 10 else s1
    | none => s1
  else { s with disp := s.disp.set u (flagTaken d s.lap.count ident flag) }

/-- The status of an engine task's memory access: an error status where it failed (12_translation_dma.md R287; 11_dram.md R277). -/
def accessStatus (s : State) (u : UnitId) (ident : Nat) (failed : Bool) : State :=
  { s with disp := s.disp.mod u fun d => modTask d ident fun t => { t with failed := failed } }

/-- Event flag 0 is set in every task that has flag 0 in its wait mask (Table 2-2, T + 6). -/
def setTickFlags (s : State) (u : UnitId) : State :=
  forEach ((s.disp.get u).tasks.filter fun t => t.mask.getLsbD 0) (fun x t => setTaskFlag x u t.ident 0) s

/-- Matching-store fires set event flag 1 in the tasks of the channel that wait for it (R45). The manual names no flag: 1 is the
model's (log entry 54, DESIGN CHOICE). -/
def setFireFlags (s : State) (u : UnitId) (c : Chan) : State :=
  forEach ((s.disp.get u).tasks.filter fun t => t.mask.getLsbD 1 && decide (engineChan t.engine = c))
    (fun x t => setTaskFlag x u t.ident 1) s

/-- One held flag write is offered again: taken, or kept by its source. -/
def offerFlag (lap : Nat) (d : DispState) (w : Nat × Fin 32) : DispState :=
  if flagRefused d w.1 w.2 then { d with heldFlags := d.heldFlags ++ [w] } else flagTaken d lap w.1 w.2

/-- Every source of a refused flag write offers it again, in the order of the refusals (R48). -/
def execFlagWriteRetry (u : UnitId) (s : State) : Out :=
  let d := s.disp.get u
  .next { s with disp := s.disp.set u (d.heldFlags.foldl (offerFlag s.lap.count) { d with heldFlags := [] }) }

/-- The running task writes a flag of another task: refused, it receives a refusal status and must retry; a refusal in the
lap-deadline class sets READY_REFUSED (R45, R48). -/
def taskFlag (s : State) (u : UnitId) (writer : Nat) (w : Nat × Fin 32) : State :=
  let d := s.disp.get u
  let mark := fun (x : DispState) (b : Bool) => modTask x writer fun t => { t with refused := b }
  if flagRefused d w.1 w.2 then
    let s1 : State := { s with disp := s.disp.set u (mark d true) }
    match findTask d w.1 with
    | some t => if t.cls.val = 0 then setFlag s1 (key 0x2500 9) 10 else s1
    | none => s1
  else { s with disp := s.disp.set u (mark (flagTaken d s.lap.count w.1 w.2) false) }

/-! ## The tasks of a unit (R45) -/

/-- Tasks on an engine. -/
def tasksOn (d : DispState) (e : EngineId) : Nat := (d.tasks.filter fun t => decide (t.engine = e)).length

/-- A task of the firmware is created: a unit holds up to 1,024, at most 16 on any one engine, each with its own number; one beyond that is
not created. -/
def addTask (d : DispState) (x : TaskDecl) : DispState :=
  if 1024 ≤ d.tasks.length ∨ 16 ≤ tasksOn d x.engine ∨ (findTask d x.ident).isSome then d
  else { d with tasks := d.tasks ++ [⟨x.ident, x.engine, x.cls, 0, x.mask, x.all, .waiting, 0, false, false⟩] }

/-- The budget-step task of a channel's Pacer, on the channel's first engine in the lap-deadline class, waits for flag 2 (Table 2-2, T + 8).
Its number, engine and flag are the model's (log entry 54, DESIGN CHOICE). -/
def pacerTask (c : Chan) : TaskDecl :=
  { ident := c.val, engine := finOf 64 (by decide) (16 * c.val), cls := 0, mask := 4, all := true }

/-- The tasks of a unit that has booted: the four budget-step tasks and those of its firmware. -/
def bootTasks (l : List TaskDecl) : DispState := (allChans.map pacerTask ++ l).foldl addTask dispReset

/-! ## Timers (R47) -/

/-- Sorted by the laps left; equal counts in the order of insertion. -/
def timerAdd (t : Timer) : List Timer → List Timer
  | [] => [t]
  | x :: l => if t.laps < x.laps then t :: x :: l else x :: timerAdd t l

/-- A task inserts a timer; 0 laps counts as 1, and an insertion into a full list is refused (R47). The rule gives an entry 1 to 16,777,215
laps and says nothing of a request for more: the model refuses it as it refuses one into a full list (log entry 54, DESIGN CHOICE). -/
def execTimerInsert (u : UnitId) (task laps : Nat) (flag : Fin 32) (s : State) : Out :=
  let d := s.disp.get u
  if 1024 ≤ d.timers.length ∨ 16777215 < laps then
    .next { s with disp := s.disp.set u (modTask d task fun t => { t with refused := true }) }
  else
    let d1 := modTask d task fun t => { t with refused := false }
    .next { s with disp := s.disp.set u { d1 with timers := timerAdd ⟨max 1 laps, task, flag⟩ d.timers } }

/-- The delay lists are stepped (Table 2-2, T + 6). -/
def stepTimers (d : DispState) : DispState :=
  { d with timers := d.timers.map fun t => { t with laps := t.laps - 1 } }

/-- Expired timers set their flags in the order of insertion; `k` bounds them (R47). -/
def expireTimers (u : UnitId) : Nat → State → State
  | 0, s => s
  | k + 1, s =>
    let d := s.disp.get u
    match d.timers with
    | t :: rest =>
      if t.laps = 0 then expireTimers u k (setTaskFlag { s with disp := s.disp.set u { d with timers := rest } } u t.task t.flag) else s
    | [] => s

/-- The first expired timer sets its flag; timers of one tick in the order of insertion (R47). -/
def execTimerExpiry (u : UnitId) (s : State) : Out := .next (expireTimers u 1 s)

/-! ## Engines (R48 to R50) -/

/-- The first ready task of a class for an engine, in the order tasks became ready. -/
def firstReady (d : DispState) (e : EngineId) (cls : Nat) : Option Nat :=
  (d.queues.get (finOf 12 (by decide) (3 * (engineChan e).val + cls))).find? fun i =>
    match findTask d i with
    | some t => decide (t.engine = e)
    | none => false

/-- A ready task leaves its queue and runs; the flags its mask waited for are consumed. -/
def startTask (d : DispState) (e : EngineId) (cls ident : Nat) : DispState :=
  let d1 := modTask d ident fun t => { t with status := .running, flags := t.flags &&& ~~~ t.mask }
  { d1 with
    queues := vmod d1.queues (finOf 12 (by decide) (3 * (engineChan e).val + cls)) fun q => q.erase ident
    running := vmod d1.running e fun _ => some ident }

/-- The flags a task waits for that are set. -/
def raisedFlags (t : Task) : List (Fin 32) :=
  ((List.range 32).map (finOf 32 (by decide))).filter fun i => (t.flags &&& t.mask).getLsbD i.val

/-- The running task gives the engine up and waits again; where its mask has been satisfied meanwhile it becomes ready at once, as a flag write
would make it (R45, R48). -/
def endTask (d : DispState) (lap : Nat) (e : EngineId) : DispState :=
  match d.running.get e with
  | some i =>
    let d1 := { modTask d i (fun t => { t with status := .waiting }) with running := vmod d.running e fun _ => none }
    match (findTask d1 i).bind fun t => (raisedFlags t).head? with
    | some f => offerFlag lap d1 (i, f)
    | none => d1
  | none => d

/-- A lap-deadline task pre-empts a service or background task and its context is saved (R49). -/
def saveTask (d : DispState) (e : EngineId) : DispState :=
  match d.running.get e with
  | some i =>
    { modTask d i (fun t => { t with status := .preempted }) with
      running := vmod d.running e fun _ => none
      saved := vmod d.saved e fun l => i :: l }
  | none => d

/-- A saved context is restored (R49). -/
def resumeTask (d : DispState) (e : EngineId) (i : Nat) : DispState :=
  { modTask d i (fun t => { t with status := .running }) with
    running := vmod d.running e fun _ => some i
    saved := vmod d.saved e fun l => l.erase i }

/-- The class of the task on an engine. -/
def runningClass (d : DispState) (e : EngineId) : Option Nat :=
  (d.running.get e).bind fun i => (findTask d i).map fun t => t.cls.val

/-- What an engine runs next: a lap-deadline task at once, pre-empting a task of another class; on a free engine a saved
context, then service, then background (R48, R49). -/
def dispatchEngine (d : DispState) (e : EngineId) : DispState :=
  match firstReady d e 0 with
  | some i =>
    match runningClass d e with
    | some 0 => d
    | some _ => startTask (saveTask d e) e 0 i
    | none => startTask d e 0 i
  | none =>
    if (d.running.get e).isSome then d
    else
      match d.saved.get e with
      | i :: _ => resumeTask d e i
      | [] =>
        match firstReady d e 1 with
        | some i => startTask d e 1 i
        | none =>
          match firstReady d e 2 with
          | some i => startTask d e 2 i
          | none => d

/-- The task on engine e sets the flags it sets; then a ready task is dispatched on it, where the task on it has given it up or a class above it waits
(R45, R48, R49). The datagrams that the endpoint's flows refused are offered again: the manual does not say which task of the active unit sends them
(09_flows.md Table 9-2; log entry 60, DESIGN CHOICE). -/
def execTaskRun (u : UnitId) (e : EngineId) (x : TaskTurn) (s : State) : Out :=
  let t := match (s.disp.get u).running.get e with
    | some i => forEach x.sets (fun y w => taskFlag y u i w) s
    | none => s
  let t := if s.relay.active = some u then retryDatagrams t else t
  let d := t.disp.get u
  .next { t with disp := t.disp.set u (dispatchEngine (if x.yielded then endTask d t.lap.count e else d) e) }

/-- The task of a channel's budget step is finished, whether it had begun on its engine or not. -/
def finishTask (d : DispState) (ident : Nat) : DispState :=
  match findTask d ident with
  | none => d
  | some t =>
    let d1 := modTask d ident fun x => { x with status := .waiting, flags := x.flags &&& ~~~ x.mask }
    { d1 with
      queues := vmod d1.queues (queueOf t) fun q => q.erase ident
      running := vmod d1.running t.engine fun r => if r = some ident then none else r }

/-! ## The matching store (R39, R40, R46) -/

/-- The operands of a stripe job: budget and buffer space come together (R40). -/
inductive Operand where
  | pixels
  | window
  | budget
  deriving DecidableEq, Repr

def markOperand (o : Operand) (j : Job) : Job :=
  match o with
  | .pixels => { j with pixels := true }
  | .window => { j with window := true }
  | .budget => { j with budget := true, space := true }

def emptyJob (n : StreamId) (stripe : Nat) : Job :=
  { stream := n, stripe := stripe, pixels := false, window := false, budget := false, space := false, fired := false }

/-- A producer posts an operand; with no free entry among the 8 it keeps the operand (R46). -/
def postOperand (d : DispState) (c : Chan) (n : StreamId) (stripe : Nat) (o : Operand) : DispState :=
  let l := d.jobs.get c
  if l.any fun j => decide (j.stream = n ∧ j.stripe = stripe) then
    { d with jobs := vmod d.jobs c fun q => q.map fun j => if j.stream = n ∧ j.stripe = stripe then markOperand o j else j }
  else if l.length < 8 then
    { d with jobs := vmod d.jobs c fun q => q ++ [markOperand o (emptyJob n stripe)] }
  else { d with heldJobs := d.heldJobs ++ [(c, markOperand o (emptyJob n stripe))] }

/-- The unit that codes a stream's stripe: in WARMING the incoming one codes beside the outgoing (13_relay.md R327). -/
def jobUnit (s : State) (n : StreamId) : UnitId := (s.streams[n].coding.map fun k => k.unit).getD (viewUnit s)

/-- Post in the matching store of the unit that codes the stripe. -/
def postJob (s : State) (c : Chan) (n : StreamId) (stripe : Nat) (o : Operand) : State :=
  { s with disp := s.disp.mod (jobUnit s n) fun d => postOperand d c n stripe o }

/-- The four operands are present (R39). -/
def jobReady (j : Job) : Bool := j.pixels && j.window && j.budget && j.space

/-- Operands kept by their producers are offered again when an entry frees (R46). -/
def reofferJobs (d : DispState) : DispState :=
  let held := d.heldJobs
  held.foldl (fun x p =>
    let put := fun (y : DispState) (b : Bool) (o : Operand) => if b then postOperand y p.1 p.2.stream p.2.stripe o else y
    put (put (put x p.2.pixels .pixels) p.2.window .window) p.2.budget .budget) { d with heldJobs := [] }

end Sys2Proof.Machine
end

