-- ==== Sys2Proof/Machine/Dram.lean ====
section
/-! DEFINITION. The LPDDR5X controller: address map, page and class order, refresh, row-hammer, ECC, scrub, self-refresh,
training (11_dram.md); address translation (12_translation_dma.md R284 to R287). -/

namespace Sys2Proof.Machine

def kDram (sub : Nat) : Nat := key 0x2800 sub
def kAtu (sub : Nat) : Nat := key 0x2880 sub

/-- Usable bytes of a unit (Table 11-1), and of one segment. -/
def usableBytes : Nat := 60129542144
def segmentBytes : Nat := 0x1C0000000

/-! ## Bytes (R265; log entries 4 and 5) -/

/-- What an unlisted byte reads as. -/
def unlistedByte (_ : Nat) : BitVec 8 := 0

/-- The tag of the undefined range that holds an address. -/
def undefTag (d : DramState) (a : Nat) : Option Nat :=
  (d.undef.find? fun r => decide (r.1 ≤ a ∧ a < r.2.1)).map fun r => r.2.2

/-- A byte of a unit's DRAM. -/
def dramByte (d : DramState) (a : Nat) : BitVec 8 :=
  match undefTag d a with
  | some t => Config.freeByte t a
  | none => assocGet unlistedByte d.mem a

/-- The undefined ranges without [lo, hi). -/
def defineRange (l : List (Nat × Nat × Nat)) (lo hi : Nat) : List (Nat × Nat × Nat) :=
  l.flatMap fun r =>
    (if r.1 < min r.2.1 lo then [(r.1, min r.2.1 lo, r.2.2)] else []) ++
    (if max r.1 hi < r.2.1 then [(max r.1 hi, r.2.1, r.2.2)] else [])

/-- A byte is written: its address is defined from then on. -/
def putByte (d : DramState) (a : Nat) (b : BitVec 8) : DramState :=
  { d with mem := assocPut unlistedByte d.mem a b, undef := defineRange d.undef a (a + 1) }

def putBytes (d : DramState) (a : Nat) : List (BitVec 8) → DramState
  | [] => d
  | b :: t => putBytes (putByte d a b) (a + 1) t

def readBytes (d : DramState) (a n : Nat) : List (BitVec 8) := (List.range n).map fun i => dramByte d (a + i)

/-- Segments 1 to 7 become undefined (R281). -/
def loseSegments (d : DramState) (tag : Nat) : DramState :=
  { d with
    mem := d.mem.filter fun c => decide (c.1 < segmentBytes)
    undef := defineRange d.undef segmentBytes usableBytes ++ [(segmentBytes, usableBytes, tag)] }

/-- The location of a usable address (R265): channel, bank, row, column block. -/
def dramChannel (a : Nat) : Nat := a / 64 % 32
def dramBank (a : Nat) : Nat := a / 64 / 32 / 28 % 16
def dramRow (a : Nat) : Nat := a / 64 / 32 / 28 / 16
def dramColumn (a : Nat) : Nat := a / 64 / 32 % 28
def channelOf (a : Nat) : DramChan := finOf 32 (by decide) (dramChannel a)
def bankOf (a : Nat) : Fin 16 := finOf 16 (by decide) (dramBank a)

/-! ## Translation (R284, R287) -/

/-! ## ECC (R266) -/

/-- The ECC byte of 8 bytes of data: over the 64 data bits and the usable address of their block. The code is not stated (log entry 69). -/
def eccByte (d : DramState) (a : Nat) : BitVec 8 :=
  Config.eccCode (BitVec.ofNat 64 (recordAt (readBytes d (a / 8 * 8) 8) 0 8)) (a / 64 * 64)

/-- Where that ECC byte lies: ECC block 28 + j div 8 of the row of data block j, byte (j mod 8) × 8 and the group's number. -/
def eccPlace (a : Nat) : Nat × Nat := (28 + dramColumn a / 8, dramColumn a % 8 * 8 + a % 64 / 8)

/-- A byte of an ECC block of a page: that of the group of the data block that it protects, 0 where no data block has one. -/
def eccBlockByte (d : DramState) (ch : DramChan) (bank : Fin 16) (row block i : Nat) : BitVec 8 :=
  let j := (block - 28) * 8 + i / 8
  if j < 28 then eccByte d ((((row * 16 + bank.val) * 28 + j) * 32 + ch.val) * 64 + i % 8 * 8) else 0

/-- The entry of a context that covers an address. -/
def coverEntry (c : AtuContext) (v : Nat) : Option AtuEntry :=
  c.entries.find? fun e => decide (e.vbase ≤ v ∧ v < e.vbase + e.page)

/-- The usable address, or the fault kind of Table 12-2. -/
def translate (s : State) (u : UnitId) (ctx : Fin 64) (v : Nat) (write : Bool) : Except Nat Nat :=
  let c := (s.atu.get u).get ctx
  if !c.enabled then .error 3
  else
    match coverEntry c v with
    | some e =>
      if e.eccBad then .error 4
      else if (write && !e.writable) || (!write && !e.readable) then .error 2
      else .ok (e.ubase + (v - e.vbase))
    | none => .error 1

/-- A fault is counted and recorded (R287, Table 12-8); an entry error sets ENTRY_ERROR_SEEN. -/
def noteFault (s : State) (u : UnitId) (ctx : Fin 64) (v kind : Nat) (write : Bool) : State :=
  if u = viewUnit s then
    let w := kind * 2 ^ 124 + ctx.val * 2 ^ 118 + (if write then 2 ^ 117 else 0) + v % 2 ^ 48 * 2 ^ 64 + replicaTb3 s u % 2 ^ 64
    let t := regPut (bump s (kAtu 2)) (kAtu 3) w
    if kind = 4 then setFlag t (kAtu 4) 31 else t
  else s

/-- Contexts 0 to 9 and 14: a unit fault (R287). -/
def faultUnit (ctx : Fin 64) : Bool := decide (ctx.val ≤ 9 ∨ ctx.val = 14)

/-- Contexts of the verifying decoders and of the return decoder (Table 12-1). -/
def decoderContext (ctx : Fin 64) : Bool := decide (4 ≤ ctx.val ∧ ctx.val ≤ 8)

/-- A decoder's suppressed write, with its EMCY and unit fault (R287; 06_decoders.md R146). -/
def suppressedAt (s : State) (ctx : Fin 64) : State :=
  if ctx.val = 8 then returnSuppressed s 1 else suppressedWrite s (finOf 4 (by decide) (ctx.val - 4))

def memoryFault (s : State) (u : UnitId) : State :=
  reportUnitFault (raiseEmcyOf s u 0x5012 (kDram 0x10) 0) u 11

/-! ## Activates and row-hammer (R268, R272, R273) -/

/-- The smallest count, lowest entry on a tie. -/
def smallestHammer (l : List Hammer) : Nat := (l.map fun h => h.count).min?.getD 0

/-- The first entry of the given count is replaced. -/
def replaceFirst (row count : Nat) : List Hammer → List Hammer
  | [] => []
  | h :: t => if h.count = count then ⟨row, count + 1⟩ :: t else h :: replaceFirst row count t

/-- A bank's table after an activate of a row. -/
def hammerActivate (l : List Hammer) (row : Nat) : List Hammer :=
  if l.any fun h => h.row == row then l.map fun h => if h.row = row then ⟨row, h.count + 1⟩ else h
  else if l.length < 32 then l ++ [⟨row, 1⟩]
  else replaceFirst row (smallestHammer l) l

def hammerCount (l : List Hammer) (row : Nat) : Nat := ((l.find? fun h => h.row == row).map fun h => h.count).getD 0


def modChannel (d : DramState) (ch : DramChan) (f : DramChannel → DramChannel) : DramState :=
  { d with chan := vmod d.chan ch f }

/-- The row's logical neighbours, clipped. -/
def rowNeighbours (row : Nat) : List Nat := [row - 2, row - 1, min 65535 (row + 1), min 65535 (row + 2)]

/-- A bank's table after an activate and the row-hammer actions it causes, with their number: a row whose count reaches the threshold has its
neighbours activated, which their own counts follow, and then its count returns to 0 (R272, R273). Actions nest no deeper than the 32 rows of the table:
a row in an action stands above the threshold; `fuel` bounds them. -/
def hammerRun (threshold : Nat) : Nat → List Hammer × Nat → Nat → List Hammer × Nat
  | 0, a, row => (hammerActivate a.1 row, a.2)
  | fuel + 1, a, row =>
    let l := hammerActivate a.1 row
    if hammerCount l row ≠ threshold then (l, a.2)
    else
      let b := (rowNeighbours row).foldl (hammerRun threshold fuel) (l, a.2 + 1)
      (b.1.map fun h => if h.row = row then ⟨row, 0⟩ else h, b.2)

/-- A bank opens a row: its table counts the activate; an action closes the rows of the bank's pair (R268) and is counted. -/
def activate1 (s : State) (u : UnitId) (ch : DramChan) (bank : Fin 16) (row : Nat) : State :=
  let c := (s.dram.get u).chan.get ch
  let r := hammerRun (s.dram.get u).threshold 40 (c.hammer.get bank, 0) row
  let act := decide (0 < r.2)
  let t := setDram s u fun d => modChannel d ch fun x =>
    { x with
      openRow := if act then vmod (vmod x.openRow bank fun _ => none) (bank + 8) fun _ => none
        else vmod x.openRow bank fun _ => some row
      hammer := vmod x.hammer bank fun _ => r.1 }
  if act ∧ u = viewUnit s then setFlag (countUnit t (kDram 8) none r.2) (kDram 0x10) 27 else t

/-- Whether the row of a usable address is open. -/
def rowOpen (s : State) (u : UnitId) (a : Nat) : Bool :=
  decide (((s.dram.get u).chan.get (channelOf a)).openRow.get (bankOf a) = some (dramRow a))

/-- The cache of a channel after an access to a block: 64 ECC blocks, the one used longest ago leaves (R266; log entry 69, DESIGN CHOICE). -/
def cacheEcc (l : List (Nat × Nat × Nat)) (a : Nat) : List (Nat × Nat × Nat) :=
  let k := (dramBank a, dramRow a, (eccPlace a).1)
  (k :: l.filter fun x => decide (x ≠ k)).take 64

/-- One 64-byte access at a usable address: its row opens where it is not open, its ECC block is in the channel's cache, and the idle time of R279 starts
again (R264, R266, R268, R272). -/
def touchBlock (s : State) (u : UnitId) (a : Nat) : State :=
  let s1 := if rowOpen s u a then s else activate1 s u (channelOf a) (bankOf a) (dramRow a)
  setDram s1 u fun d => modChannel { d with lastRequest := s.now } (channelOf a) fun c => { c with eccCache := cacheEcc c.eccCache a }

/-- The 64-byte blocks of n bytes at a usable address, by their addresses. -/
def blocksAt (a n : Nat) : List Nat := (List.range ((a % 64 + n + 63) / 64)).map fun i => (a / 64 + i) * 64

/-- The accesses that n bytes at a usable address take, one of 64 bytes at a time (R264). -/
def touchBytes (s : State) (u : UnitId) (a n : Nat) : State := forEach (blocksAt a n) (fun x b => touchBlock x u b) s

/-! ## Requests (R267, R276, R277, R279, R280) -/

/-- The usable address of a request, 0 where its translation faults. -/
def requestAddr (s : State) (u : UnitId) (r : DramRequest) : Nat :=
  match translate s u r.ctx r.vaddr r.write with
  | .ok a => a
  | .error _ => 0

def requestOpen (s : State) (u : UnitId) (r : DramRequest) : Bool := rowOpen s u (requestAddr s u r)

/-- A request waits at the channel of its address (R265); one whose translation faults waits at any. -/
def requestHere (s : State) (u : UnitId) (ch : DramChan) (r : DramRequest) : Bool :=
  match translate s u r.ctx r.vaddr r.write with
  | .ok a => decide (channelOf a = ch)
  | .error _ => true

/-- The class of a request is its user's: window fetches, the decoders' reads and the other real-time masters; the scrub while it is raised (R267,
R278). -/
def realTime (s : State) (u : UnitId) (r : DramRequest) : Bool :=
  match r.user with
  | .windowFetch _ => true
  | .verifyRead _ => true
  | .otherRealTime => true
  | .scrub => (s.dram.get u).scrubRaised
  | _ => false

/-- The oldest of a list. -/
def oldest : List DramRequest → Option DramRequest
  | [] => none
  | r :: t =>
    match oldest t with
    | none => some r
    | some x => if r.age < x.age then some x else some r

/-- Within a class: first a request to an open row, otherwise the oldest (R267). -/
def pickClass (s : State) (u : UnitId) (l : List DramRequest) : Option DramRequest :=
  oldest (l.filter (requestOpen s u)) <|> oldest l

/-- 4 µs. -/
def ageLimit : Nat := 4 * cyclesPerUs

/-- The request issued: real-time first, but for an aged non-real-time request to another row of the same bank. -/
def pickRequest (s : State) (u : UnitId) (ch : DramChan) (waiting : List DramRequest) : Option DramRequest :=
  let l := waiting.filter (requestHere s u ch)
  let rest := l.filter fun r => !realTime s u r
  match pickClass s u (l.filter (realTime s u)) with
  | none => pickClass s u rest
  | some r =>
    let a := requestAddr s u r
    let aged := rest.filter fun x => decide (ageLimit ≤ x.age ∧ r.age < x.age ∧
      dramBank (requestAddr s u x) = dramBank a ∧ dramRow (requestAddr s u x) ≠ dramRow a)
    oldest aged <|> some r

/-- A poisoned window row counts as not arrived in this lap (R277). -/
def spoilRows (s : State) (c : Chan) : State :=
  { s with streams := s.streams.map fun x =>
      if x.search.due.get c || x.search.late.get c then
        { x with search := { x.search with spoiled := vmod x.search.spoiled c fun _ => true } }
      else x }

/-- Single-bit errors of a block are corrected: each is counted, a note in the log (14_integrity.md R354), and the block is written back, unless a newer
write to it is queued (R276). -/
def correctBlock (s : State) (u : UnitId) (a groups : Nat) (newer : Bool) : State :=
  let t := logNoteLimited (if u = viewUnit s then countUnit s (kDram 0x0B) none groups
      else if a < segmentBytes then forEach (List.range groups) (fun x _ => bumpHalf x (key 0x2011 7) false) s else s)
    11 (kDram 0x0B) (dramChannel a)
  if newer then t else setDram t u fun d => putBytes d (a / 64 * 64) (readBytes d (a / 64 * 64) 64)

/-- An uncorrectable error of the active unit is counted, with its address and channel (R277). -/
def noteUncorrectable (s : State) (u : UnitId) (a : Nat) : State :=
  if u = viewUnit s then
    putField (setFlag (regPut (countUnit s (kDram 0x0C) none 1) (kDram 0x0D) a) (kDram 0x10) 29) (kDram 0x10) 4 0 (dramChannel a)
  else s

/-- The baton mirror and the QP maps in segment 0 (Table 11-5). -/
def mirrorBase : Nat := 0x10000000
def mapBase : Nat := 0x10100000

/-- The record of the standby's segment 0 that an uncorrectable error spoils: the Auvos working copy is restored from the flash and the baton mirror from
the baton SRAM; a QP map stands in neither, and the error not restored is a standby fault (R277, 13_relay.md Table 13-6). -/
def restoreRecord (s : State) (u : UnitId) (a : Nat) : State :=
  let t := bumpHalf s (key 0x2011 7) true
  let b := a / 64 * 64
  if a < mirrorBase then setDram t u fun d => putBytes d b ((List.range 64).map fun i => Config.auvosByte (b + i))
  else if a < mapBase then
    { t with baton := t.baton.mod u fun m =>
        { m with mirror := (lastBaton m).elim m.mirror fun b => m.mirror.set ((a - mirrorBase) / 8192) b } }
  else if s.relay.active = some u.other then enterRepair t u
  else t

/-- What the ECC of a read finds at its block (R276, R277). -/
def eccEffect (s : State) (u : UnitId) (a : Nat) (newer : Bool) (r : DramRequest) : State :=
  let mine := decide (u = viewUnit s)
  match r.ecc with
  | .clean => s
  | .corrected groups => correctBlock s u a groups newer
  | .uncorrectable =>
    let t := noteUncorrectable s u a
    match r.user with
    | .windowFetch c => memoryFault (if mine then spoilRows t c else t) u
    | .verifyRead c => if mine then { t with chans := vmod t.chans c fun x => { x with spoiled := true } } else t
    | .otherRealTime => memoryFault t u
    | .nonRealTime => t
    | .engineTask i => accessStatus t u i true
    | .segmentZero => restoreRecord t u a
    | .scrub => if a < segmentBytes ∧ s.relay.active = some u.other then restoreRecord t u a else t

/-- Cycles from acceptance to first data: its age, and 63 cycles after the read, 27 more for each of precharge and
activate (Tables 11-2, 11-4). -/
def readLatency (s : State) (u : UnitId) (a : Nat) (r : DramRequest) : Nat :=
  let row := ((s.dram.get u).chan.get (channelOf a)).openRow.get (bankOf a)
  r.age + 63 + (if row = some (dramRow a) then 0 else if row.isNone then 27 else 54)

/-- A write that leaves part of an 8-byte group reads the block first (R266). -/
def partialWrite (a n : Nat) : Bool := decide (a % 8 ≠ 0 ∨ (a + n) % 8 ≠ 0)

/-- A request's translation faults: it is suppressed, and its master acts as Table 12-2 states: an engine task receives event flag 31 and an error
status (R287). -/
def suppressRequest (s : State) (u : UnitId) (r : DramRequest) (k : Nat) : State :=
  let t0 := noteFault s u r.ctx r.vaddr k r.write
  let t := match r.user with
    | .engineTask i => setTaskFlag (accessStatus t0 u i true) u i 31
    | _ => t0
  if r.write ∧ u = viewUnit s ∧ decoderContext r.ctx then suppressedAt t r.ctx
  else if faultUnit r.ctx then memoryFault t u else t

/-- One request is served, a 64-byte access at a time: its rows open, a read, or the read of a partial write, meets the ECC, a write stores its
bytes. `newer` says that a newer write to its block is queued. -/
def serveRequest (s : State) (u : UnitId) (newer : Bool) (r : DramRequest) : State :=
  match translate s u r.ctx r.vaddr r.write with
  | .error k => suppressRequest s u r k
  | .ok a =>
    let s1 := touchBytes s u a r.size
    let s2 := match r.user with
      | .engineTask i => accessStatus s1 u i false
      | _ => s1
    if r.write then setDram (if partialWrite a r.data.length then eccEffect s2 u a true r else s2) u fun d => putBytes d a r.data
    else
      let s3 := eccEffect s2 u a newer r
      if realTime s u r then monitorSample s3 u 5 (dramChannel a) (readLatency s u a r) else s3

/-- Whether a newer write to the request's block waits (R276). -/
def newerWrite (s : State) (u : UnitId) (l : List DramRequest) (r : DramRequest) : Bool :=
  l.any fun x => x.write && decide (x.age < r.age ∧ requestAddr s u x / 64 = requestAddr s u r / 64)

/-! ## Refresh of one bank pair (R270) -/

/-- Pair p is refreshed: the debt falls, its rows close, a full round starts afresh. -/
def refreshPair (c : DramChannel) (p : BankPair) : DramChannel :=
  let bits := c.refreshed ||| BitVec.ofNat 8 (1 <<< p.val)
  let b2 : Fin 16 := finOf 16 (by decide) (p.val + 8)
  let b1 : Fin 16 := finOf 16 (by decide) p.val
  { c with
    debt := max (-8) (c.debt - 1)
    refreshed := if bits = 0xFF then 0 else bits
    openRow := vmod (vmod c.openRow b1 fun _ => none) b2 fun _ => none }

def allPairs : List BankPair := [0, 1, 2, 3, 4, 5, 6, 7]

/-- n refreshes of pairs with no request queued, lowest remaining pair first, down to a debt of `floor`. -/
def refreshAhead (floor : Int) : Nat → DramChannel → DramChannel
  | 0, c => c
  | n + 1, c =>
    if floor < c.debt then
      match (allPairs.filter fun p => !c.refreshed.getLsbD p.val).head? with
      | some p => refreshAhead floor n (refreshPair c p)
      | none => c
    else c

/-- The debt that an entry into self-refresh has paid by now: from E + 600 on a refresh each tPBR2PBR, at most 8 on each channel (Table 11-3). -/
def payDebt (now : Nat) (d : DramState) : DramState :=
  { d with chan := d.chan.map (refreshAhead 0 (min 8 ((now - (d.refreshAt + 600)) / 135))) }

/-! ## A request at a channel (R267, R280) -/

/-- The requests held for the exit are served once it has ended, in the order of their arrival (R280). -/
def serveHeld (s : State) (u : UnitId) : State :=
  let d := s.dram.get u
  if d.refresh = .exiting ∧ d.refreshAt ≤ s.now then
    forEach d.held (fun x h => serveRequest x u false { h.request with age := h.request.age + (s.now - h.arrived) })
      (setDram s u fun x => { x with refresh := .active, held := [] })
  else s

/-- A request waits for the exit; it is counted (R280). -/
def holdRequest (s : State) (u : UnitId) (ch : DramChan) (r : DramRequest) : State :=
  let t := setDram s u fun x => { x with held := x.held ++ [⟨ch, r, s.now⟩] }
  if u = viewUnit s then countUnit t (kDram 0x13) none 1 else t

/-- A request while the DRAM enters self-refresh aborts the entry, whose refresh stays paid; one in self-refresh, or before the exit has ended, is held
until then (R280). -/
def execDramRequest (u : UnitId) (ch : DramChan) (waiting : List DramRequest) (s0 : State) : Out :=
  let s := serveHeld s0 u
  match pickRequest s u ch waiting with
  | none => .next s
  | some r =>
    match (s.dram.get u).refresh with
    | .inside => .next (holdRequest s u ch r)
    | .exiting => .next (holdRequest s u ch r)
    | .entering =>
      let t := if u = viewUnit s then countUnit s (kDram 0x12) none 1 else s
      .next (serveRequest (setDram t u fun x => { payDebt s.now x with refresh := .active, lastRequest := s.now }) u (newerWrite s u waiting r) r)
    | .active => .next (serveRequest s u (newerWrite s u waiting r) r)

/-! ## Refresh (R269 to R271) -/

/-- The multiplier of a channel: the larger of its MR4 rate and the planner's floor for the unit (R269). -/
def channelMultiplier (s : State) (u : UnitId) (ch : DramChan) : Nat :=
  max ((s.dram.get u).chan.get ch).rate (s.planner.dies.get (dieOf u)).floor

/-- The multiplier that 0x2800:04 shows: the largest of the channels' (log entry 70, DESIGN CHOICE). -/
def refreshMultiplier (s : State) (u : UnitId) : Nat := max (deviceRate (s.dram.get u)) (s.planner.dies.get (dieOf u)).floor

/-- tREFIpb in 1/32 cycle: an eighth of tREFI over the multiplier (R269, Table 11-2). -/
def refreshSpan (multiplier : Nat) : Nat := 23436 / max 1 multiplier

/-- The pair a due command takes (R270). -/
inductive RefreshChoice where
  | take (p : BankPair) (split : Bool)
  | postpone
  deriving DecidableEq, Repr

/-- The remaining pair with the fewest queued requests, the lowest first. -/
def fewest (queued : Vector Nat 8) : List BankPair → Option BankPair
  | [] => none
  | p :: t =>
    match fewest queued t with
    | none => some p
    | some q => if queued.get q < queued.get p then some q else some p

def chooseRefresh (c : DramChannel) (debt : Int) (queued : Vector Nat 8) : RefreshChoice :=
  let left := allPairs.filter fun p => !c.refreshed.getLsbD p.val
  match left.find? fun p => decide (queued.get p = 0) with
  | some p => .take p false
  | none =>
    if debt < 8 then .postpone
    else
      match fewest queued left with
      | some p => .take p true
      | none => .postpone

/-- The lap in progress is a blank one: one in which no stripe arrives (02_lap.md R37), one of a dropped picture (07_sensor_lanes.md R184), or one that
an idle tick opened (15_reset.md R374). -/
def blankLap (s : State) : Bool := decide (s.lap.period = 0 ∨ activeStripes s ≤ s.lap.inPicture) || s.lap.dropped

/-- A refresh interval has ended on a channel (R269). -/
def intervalDue (s : State) (u : UnitId) (ch : DramChan) : Bool :=
  let c := (s.dram.get u).chan.get ch
  decide (c.intervalAt + refreshSpan c.multiplier ≤ s.now * 32)

/-- The refreshes that tPBR2PBR allowed a channel since its last one and the tick of this lap, the due one among them (R271). -/
def refreshesFit (s : State) (c : DramChannel) : Nat := (s.now - max c.refreshedAt s.lap.lastTick) / 135

/-- The channel after the end of an interval: the debt has risen, and the next interval runs at the multiplier polled since (R269, R270). -/
def nextInterval (s : State) (u : UnitId) (ch : DramChan) (c : DramChannel) : DramChannel :=
  { c with
    debt := min 8 (c.debt + 1)
    intervalAt := c.intervalAt + refreshSpan c.multiplier
    multiplier := channelMultiplier s u ch }

/-- The largest refresh debt since the object was read (Table 11-6). -/
def noteDebt (s : State) (u : UnitId) (debt : Int) : State :=
  if u = viewUnit s ∧ asSigned 8 (regGet s (kDram 6)) < debt then putSigned s (kDram 6) debt else s

/-- A refresh interval ends on a channel: the debt rises, a pair is chosen or the command postponed (R270); in a blank lap a
channel with no request queued runs ahead (R271). One that has not ended has no effect (R269). -/
def execRefreshInterval (u : UnitId) (ch : DramChan) (queued : RefreshQueue) (s0 : State) : Out :=
  let s := serveHeld s0 u
  let d := s.dram.get u
  if d.refresh = .inside ∨ ¬ intervalDue s u ch then .next s
  else
    let c := nextInterval s u ch (d.chan.get ch)
    match chooseRefresh c c.debt queued.realTime with
    | .postpone => .next (noteDebt (setDram s u fun d => modChannel d ch fun _ => c) u c.debt)
    | .take p split =>
      let c1 := refreshPair c p
      let idle := blankLap s && decide (queued.others = 0) && queued.realTime.toList.all fun q => q == 0
      let c2 := if idle then refreshAhead (-8) (refreshesFit s c - 1) c1 else c1
      let t := noteDebt (setDram s u fun d => modChannel d ch fun _ => { c2 with refreshedAt := s.now }) u c.debt
      .next (if split ∧ u = viewUnit s then setFlag (countUnit t (kDram 7) none 1) (kDram 0x10) 30 else t)

/-- The rate that MR4 requests: 1, 2 or 4; a device above the ×4 range is refreshed at 4. -/
def mr4Rate (rate : Nat) : Nat := if rate ≤ 1 then 1 else if rate = 2 then 2 else 4

/-- The thermal steps of a unit's DRAM (16_power_ageing.md Table 16-4, R394): a multiplier newly above 1 is a warning, a temperature newly above
the ×4 range a unit thermal fault. -/
def dramThermal (s : State) (u : UnitId) (hot beyond : Bool) : State :=
  let t := putFlag s kStage 22 (thermalWarning s)
  let t1 := if hot then raiseEmcyOf (setFlag t kIntegrity 24) u 0x4201 kStage u.bit else t
  if beyond then unitFaultOf t1 u .thermal else t1

/-- MR4 is polled on every channel, 1 ms after the last poll: the multipliers, HOT, and what the temperature means (R269; 16_power_ageing.md R394). A
rate above 4 stands for a temperature above the ×4 range. -/
def execMr4Poll (u : UnitId) (rates : Vector Nat 32) (tempChanged : Bool) (s : State) : Out :=
  let d := s.dram.get u
  if s.now < d.polledAt + cyclesPerMs then .next s
  else
    let beyond := rates.toList.any fun r => decide (4 < r)
    let t := setDram s u fun d => { d with
      chan := d.chan.mapFinIdx fun i c hi => { c with rate := mr4Rate rates[i] }
      polledAt := s.now
      overRange := beyond
      tempChanged := d.tempChanged || tempChanged }
    let t1 := if u = viewUnit s then regPut t (kDram 4) (refreshMultiplier t u) else t
    .next (dramThermal t1 u (decide (deviceRate d ≤ 1 ∧ 1 < deviceRate (t.dram.get u))) (beyond && !d.overRange))

/-- The 32 ms window that runs, counted on TB3 (R272). -/
def tb3Window (s : State) : Nat := (s.now - s.time.tb3Start) / (32 * cyclesPerMs)

/-- Every table is cleared at the start of a 32 ms window, and a new threshold applies (R272, Table 11-6). -/
def execHammerWindowClear (u : UnitId) (s : State) : Out :=
  if (s.dram.get u).hammerWindow = tb3Window s then .next s
  else
    .next (setDram s u fun d => { d with
      chan := d.chan.map fun c => { c with hammer := .replicate 16 [] }
      hammerWindow := tb3Window s
      threshold := cfg s (kDram 2) })

/-! ## Leaving self-refresh (R280, R281) -/

/-- Every channel wakes with debt 0 and a fresh round; a masked unit has lost segments 1 to 7 (R281). -/
def wakeDram (s : State) (u : UnitId) (wait : Nat) : State :=
  let t := setDram s u fun x =>
    let y : DramState := { x with
      refresh := .exiting
      refreshAt := s.now + wait
      lastRequest := s.now
      maskZero := false
      chan := x.chan.map fun c => { c with debt := 0, refreshed := 0, intervalAt := (s.now + wait) * 32 } }
    if x.maskZero then loseSegments y s.free else y
  drawFree t

/-- Whether an exit runs the re-centre of R282: after more than 100 ms, or a change of the temperature (R280). -/
def longRefresh (now : Nat) (d : DramState) : Bool := decide (d.committedAt + 100 * cyclesPerMs < now) || d.tempChanged

/-- The DRAM leaves self-refresh: 432 cycles to the first command, with the re-centre where it is due (R280). -/
def leaveRefresh (s : State) (u : UnitId) : State :=
  let long := longRefresh s.now (s.dram.get u)
  let w := wakeDram s u (432 + if long then 1800 else 0)
  if long then setDram w u fun x => { x with recentredAt := s.now, chan := x.chan.map fun c => { c with recentre := 0 } } else w

/-! ## Scrub (R278) -/

/-- How long a pass takes: all usable memory of the active unit, segment 0 of the standby, at its rate. -/
def scrubCycles (s : State) (u : UnitId) : Nat :=
  (if s.relay.active = some u.other then segmentBytes else usableBytes) * 1500 / max 1 (s.dram.get u).scrubRate

/-- A pass that has read everything ends: its duration and the count of passes. -/
def finishScrub (s : State) (u : UnitId) : State :=
  let d := s.dram.get u
  if d.scrubbing ∧ d.scrubStart + scrubCycles s u ≤ s.now then
    let t := setDram s u fun x => { x with scrubbing := false, scrubRaised := false }
    if u = viewUnit s then countUnit (regPut t (kDram 0x0E) (scrubCycles s u / cyclesPerMs)) (kDram 0x0F) none 1 else t
  else s

/-- A pass begins 60 s after the last one began; one still unfinished is raised into the real-time class. The pass is a visit: a DRAM in self-refresh
leaves it (R278, R279). -/
def execScrubPassStart (u : UnitId) (s : State) : Out :=
  let t := finishScrub s u
  let d := t.dram.get u
  if d.scrubStart + 60 * cyclesPerSec ≤ s.now ∨ d.scrubRate = 0 then
    if d.scrubbing then
      let t1 := setDram t u fun x => { x with scrubRaised := true }
      .next (if u = viewUnit s then setFlag t1 (kDram 0x10) 28 else t1)
    else
      let t1 := if d.refresh = .inside then leaveRefresh t u else t
      .next (setDram t1 u fun x => { x with
        scrubbing := true
        scrubStart := s.now
        scrubRate := cfg s (kDram 3) })
  else .next t

/-! ## Self-refresh (R279 to R281) -/

def dmaActive (d : Dma) : Bool := decide (d.mode = .running ∨ d.mode = .stalled)

/-- The region that a DRAM pattern step of a unit's self-test is at. -/
def patternOf (x : SelfTestState) : Option (Fin 784) :=
  match x.step with
  | some (.pattern r) => some r
  | _ => none

/-- Whether a unit may enter: the active unit with nothing running, the standby after every visit of its self-test or scrub (R279). -/
def mayRest (s : State) (u : UnitId) : Bool :=
  if s.relay.active = some u then
    !anyChannelRunning s && !((s.dma.get u).toList.any dmaActive) && decide (s.capture.mode ≠ .armed ∧ s.capture.mode ≠ .collecting)
  else !(s.dram.get u).scrubbing && (patternOf (s.selfTest.get u)).isNone

/-- The idle time has elapsed and entry begins. -/
def execSelfRefreshEntry (u : UnitId) (s0 : State) : Out :=
  let s := serveHeld s0 u
  let d := s.dram.get u
  let awake := decide (d.refresh = .active) || (decide (d.refresh = .exiting) && decide (d.refreshAt ≤ s.now))
  if awake ∧ mayRest s u ∧ d.lastRequest + cfg s (kDram 1) * cyclesPerUs ≤ s.now then
    .next (setDram s u fun x => { x with refresh := .entering, refreshAt := s.now })
  else .next s

/-- The entry command is issued: what is left of the debt has been paid, at most 8 refreshes on each channel, the banks are precharged and the standby's
mask is written (Table 11-3). -/
def execSelfRefreshCommit (u : UnitId) (s : State) : Out :=
  if (s.dram.get u).refresh = .entering then
    .next (setDram s u fun x => { x with
      refresh := .inside
      committedAt := s.now
      tempChanged := false
      maskZero := decide (s.relay.active ≠ some u)
      chan := x.chan.map fun c => { refreshAhead 0 8 c with openRow := .replicate 16 none } })
  else .next s

/-- A held request, or one of another master that arrived at `heldSince`, makes the DRAM leave self-refresh after 23 cycles of residency; the longest
hold runs to the first data, 90 cycles after the first command (R280). -/
def execSelfRefreshExit (u : UnitId) (heldSince : Nat) (s : State) : Out :=
  let d := s.dram.get u
  if d.refresh = .inside ∧ d.committedAt + 23 ≤ s.now then
    let since := (d.held.map fun h => h.arrived).foldl min heldSince
    let t := leaveRefresh s u
    if u = viewUnit s then .next (regMax t (kDram 0x14) ((t.dram.get u).refreshAt + 90 - since)) else .next t
  else .next s

/-! ## The standby's self-test (13_relay.md R310, Table 13-2) -/

/-- A step's block may be tested: the bank of the line store holds no open window, the baton slot neither the last complete baton nor one being
written. -/
def testable (s : State) (u : UnitId) : SelfTestBlock → Bool
  | .lineStore b => ((s.input.get u).banks.get b).isNone
  | .batonSlot i => decide ((s.baton.get u).last ≠ some i) && !((s.baton.get u).written && decide (freeSlot (s.baton.get u) = i))
  | _ => true

/-- A step begins; the first of a cycle, and the first after a cycle has run for 90 s, begins a cycle. -/
def beginStep (now : Nat) (b : SelfTestBlock) (x : SelfTestState) : SelfTestState :=
  let fresh := (x.covered.isEmpty && x.again.isEmpty) || decide (x.cycleAt + 90 * cyclesPerSec < now)
  { x with
    step := some b
    cycleAt := if fresh then now else x.cycleAt
    covered := if fresh then [] else x.covered
    again := if fresh then [] else x.again }

/-- A DRAM pattern step takes the DRAM out of self-refresh or out of its entry and overwrites its region of segments 1 to 7: what it leaves there is
undefined (R310, R311; the pattern is stated nowhere, log entry 4). A march test does not keep the contents of a baton slot. -/
def visitBlock (s : State) (u : UnitId) (b : SelfTestBlock) : State :=
  match b with
  | .pattern r =>
    let lo := segmentBytes + r.val * 0x4000000
    let t := match (s.dram.get u).refresh with
      | .inside => leaveRefresh s u
      | .entering => setDram s u fun x => { payDebt s.now x with refresh := .active, lastRequest := s.now }
      | _ => s
    drawFree (setDram t u fun d => { d with
      mem := d.mem.filter fun c => decide (c.1 < lo ∨ lo + 0x4000000 ≤ c.1)
      undef := defineRange d.undef lo (lo + 0x4000000) ++ [(lo, lo + 0x4000000, s.free)]
      lastRequest := s.now })
  | .batonSlot i => { s with baton := s.baton.mod u fun x => { x with slots := vmod x.slots i fun _ => none } }
  | _ => s

/-- The step in progress ends without a fault; one that did not finish is repeated in the next cycle. -/
def endStep (finished : Bool) (x : SelfTestState) : SelfTestState :=
  { x with
    step := none
    covered := if finished then x.covered ++ x.step.toList else x.covered
    again := if finished then x.again else x.again ++ x.step.toList }

/-- The blocks of Table 13-2 that a cycle covers; segment 0 is the scrub's. -/
def testBlocks : List SelfTestBlock :=
  (List.range Config.testPartitions).map .logic ++ (List.range Config.testArrays).map .sram ++
    (List.range 784).map (fun i => .pattern (finOf 784 (by decide) i)) ++ [.lineStore 0, .lineStore 1, .lineStore 2, .batonSlot 0, .batonSlot 1]

/-- Every block has had its step in this cycle, within 90 s. -/
def passWhole (now : Nat) (x : SelfTestState) : Bool :=
  decide (now ≤ x.cycleAt + 90 * cyclesPerSec) && x.step.isNone && testBlocks.all fun b => x.covered.contains b || x.again.contains b

/-- A complete pass: a new cycle follows, and a unit under repair has passed its self-test (R330). -/
def passDone (now : Nat) (x : SelfTestState) : SelfTestState :=
  { x with passGood := !x.stepFailed, stepFailed := false, lastPass := now, covered := [], again := [] }

/-- A step of the standby's self-test begins or reports its result (R310). A step begins where none is in progress and its block may be tested; a DRAM
pattern step may span several laps. -/
def execSelfTestStep (r : SelfTestResult) (s : State) : Out :=
  match standbyOf s with
  | none => .next s
  | some u =>
    let x := s.selfTest.get u
    let note := fun (f : SelfTestState → SelfTestState) => ({ s with selfTest := s.selfTest.mod u f } : State)
    match r with
    | .begun b => .next (if x.step.isNone && testable s u b then visitBlock (note (beginStep s.now b)) u b else s)
    | .passed => .next (note (endStep true))
    | .unfinished => .next (note (endStep false))
    | .failed block =>
      let s1 := regPut (note fun y => { endStep true y with stepFailed := true }) (key 0x2011 4) block
      if s1.relay.repair = .testing then .next (repairFailed s1) else .next (reportUnitFault (loseReady s1) u 0)
    | .passComplete =>
      if passWhole s.now x then
        let s1 := bump s (key 0x2011 2)
        .next { s1 with
          selfTest := s1.selfTest.mod u (passDone s.now)
          relay := if s1.relay.repair = .testing then { s1.relay with repair := .none, repairDone := true } else s1.relay }
      else .next s

/-! ## Training (R282) -/

/-- ZQ is latched on every channel. -/
def execZqLatch (u : UnitId) (s : State) : Out :=
  if (s.dram.get u).latchedAt + 32 * cyclesPerMs ≤ s.now then
    .next (setDram s u fun d => { d with latchedAt := s.now })
  else .next s

/-- Channels whose drift exceeds 1/8 UI are to be re-centred, 1,800 cycles each; the drift is measured every 16 ms. -/
def execDriftMeasure (u : UnitId) (drifted : BitVec 32) (s : State) : Out :=
  if s.now < (s.dram.get u).driftAt + 16 * cyclesPerMs then .next s
  else
    .next (setDram s u fun d => { d with
      driftAt := s.now
      chan := d.chan.mapFinIdx fun i c _ => { c with recentre := if drifted.getLsbD i then 1800 else c.recentre } })

/-- The standby leaves self-refresh to re-centre after a change of temperature or 50 ms (R281). -/
def execStandbyRecentre (s : State) : Out :=
  match standbyOf s with
  | none => .next s
  | some u =>
    let d := s.dram.get u
    if d.refresh = .inside ∧ (d.tempChanged ∨ d.recentredAt + 50 * cyclesPerMs ≤ s.now) then
      let t := wakeDram s u (432 + 1800)
      .next (setDram t u fun x => { x with
        recentredAt := s.now
        tempChanged := false
        chan := x.chan.map fun c => { c with recentre := 0 } })
    else .next s

/-- One step of a pending re-centre at a tick: one channel at a time, at most half the DRAM reserve, whole in a lap that neither codes nor verifies a
stripe; the cycles it blocks are charged to the DRAM reserve of every coding channel (R282, R275). -/
def recentreStep (s : State) (u : UnitId) (limit : Option Nat) : State :=
  match (List.range 32).find? fun i => decide (((s.dram.get u).chan.get (finOf 32 (by decide) i)).recentre ≠ 0) with
  | none => s
  | some i =>
    let left := ((s.dram.get u).chan.get (finOf 32 (by decide) i)).recentre
    let step := limit.elim left fun m => min m left
    let t := setDram s u fun d => modChannel d (finOf 32 (by decide) i) fun c => { c with recentre := c.recentre - step }
    forEach (allChans.filter fun c => chanRunning (s.chans.get c)) (fun x c => modStall x u c fun v => v + step) t

/-! ## Loading contexts at a channel start (R285, R286) -/

/-- Whether an entry may be loaded beside those already in its context. -/
def entryFits (l : List AtuEntry) (e : AtuEntry) : Bool :=
  decide (e.page = 65536 ∨ e.page = 2097152 ∨ e.page = 1073741824) && decide (e.vbase % e.page = 0 ∧ e.ubase % e.page = 0) &&
  decide (e.ubase + e.page ≤ usableBytes) &&
  l.all fun x => decide (e.vbase + e.page ≤ x.vbase ∨ x.vbase + x.page ≤ e.vbase)

/-- Entries in use in a unit. -/
def entriesUsed (s : State) (u : UnitId) : Nat := (((s.atu.get u).toList.map fun c => c.entries.length).sum)

/-- The source context of a channel: 10 + d for the readouts, else its descriptor's (Table 12-1). -/
def sourceContext (d : DmaId) (x : Descriptor) : Fin 64 := if d.val < 4 then finOf 64 (by decide) (10 + d.val) else x.srcCtx

/-- The context a channel's descriptors stand in: 10 + d for the readouts (Table 12-1). -/
def chanContext (d : DmaId) (x : Dma) : Fin 64 := if d.val < 4 then finOf 64 (by decide) (10 + d.val) else x.ctx

/-- A DMA channel uses a context: for its descriptors, as the source, or as the destination in memory. -/
def dmaUses (d : DmaId) (x : Dma) (c : Fin 64) : Bool :=
  dmaActive x && (decide (chanContext d x = c) || x.desc.any fun y => decide (sourceContext d y = c ∨ (y.dstKind = 0 ∧ y.dstCtx = c)))

def allDma : List DmaId := (List.range 16).map (finOf 16 (by decide))

/-- Whether a master uses a context: a running channel's 0 to 7, the return decoder's, the ring's, the scrub's or self-test's, an engine task's, an active
DMA channel's (R285, Table 12-1). -/
def contextBusy (s : State) (u : UnitId) (c : Fin 64) : Bool :=
  (decide (c.val < 8) && chanRunning (s.chans.get (finOf 4 (by decide) c.val))) ||
  (decide (c.val = 8) && s.ret.enabled) ||
  (decide (c.val = 9) && decide (s.capture.mode = .armed ∨ s.capture.mode = .collecting)) ||
  (decide (c.val = 14) && ((s.dram.get u).scrubbing || (patternOf (s.selfTest.get u)).isSome)) ||
  (decide (c.val = 15) && (s.disp.get u).running.toList.any Option.isSome) ||
  allDma.any fun d => dmaUses d ((s.dma.get u).get d) c

/-- What Table 12-1 lets a context's master do: the ring is written only, the readouts read only, the coding pipelines do both (R286). -/
def assignedEntry (c : Fin 64) (e : AtuEntry) : AtuEntry :=
  if c.val ≤ 3 ∨ c.val = 14 then { e with readable := true, writable := true }
  else if c.val = 9 then { e with readable := false, writable := true }
  else if 10 ≤ c.val ∧ c.val ≤ 13 then { e with readable := true, writable := false }
  else e

/-- The entries of a load that the ATU takes, in order (R285). -/
def fittingEntries (l : List AtuEntry) : List AtuEntry :=
  l.foldl (fun a e => if entryFits a e then a ++ [e] else a) []

/-- The lowest contiguous range of n entries that no other context owns (R284, R285). -/
def freeRange (v : Vector AtuContext 64) (n : Nat) : Option Nat :=
  let held := (v.toList.filter fun c => !c.entries.isEmpty).map fun c => (c.first, c.first + c.entries.length)
  let fits := fun (i : Nat) => decide (i + n ≤ 8192) && held.all fun r => decide (i + n ≤ r.1 ∨ r.2 ≤ i)
  ((0 :: held.map Prod.snd).filter fits).min?

/-- A context is loaded in one unit; a busy one is left. LOAD_REFUSED where an entry, or the range, is refused (R285). -/
def loadContext (s : State) (u : UnitId) (l : AtuLoad) : State :=
  if contextBusy s u l.ctx then setFlag s (kAtu 4) 30
  else
    let rest := vmod (s.atu.get u) l.ctx fun _ => contextReset
    let took := fittingEntries (l.entries.map (assignedEntry l.ctx))
    let put := fun (x : AtuContext) => ({ s with atu := s.atu.set u (vmod rest l.ctx fun _ => x) } : State)
    match freeRange rest took.length with
    | none => setFlag (put contextReset) (kAtu 4) 30
    | some i =>
      let t := put { enabled := true, first := i, entries := took }
      if took.length < l.entries.length then setFlag t (kAtu 4) 30 else t

/-- Auvos loads the contexts of a channel start in both units (R286); 0x2880:01 counts the entries of the active unit. -/
def loadContexts (s : State) (l : List AtuLoad) : State :=
  let t := forEach l (fun x c => loadContext (loadContext x .a c) .b c) s
  regPut t (kAtu 1) (entriesUsed t (viewUnit t))

end Sys2Proof.Machine
end

