-- ==== Sys2Proof/Machine/Dma.lean ====
section
/-! DEFINITION. The DMA channels: descriptors, bursts, completion, faults, aborts (12_translation_dma.md R288 to R297). -/

namespace Sys2Proof.Machine

def dmaAt (s : State) (u : UnitId) (d : DmaId) : Dma := (s.dma.get u).get d

def modDma (s : State) (u : UnitId) (d : DmaId) (f : Dma → Dma) : State :=
  { s with dma := s.dma.mod u fun v => vmod v d f }

/-- STATE codes of the status record (Table 12-5). -/
def dmaCode : DmaMode → Nat
  | .idle => 0
  | .running => 1
  | .stalled => 2
  | .stopped => 3
  | .done => 4

/-- The status record of a channel (Table 12-5). -/
def statusRecord (x : Dma) (state : Nat) : BitVec 256 :=
  BitVec.ofNat 256 (x.descAddr * 2 ^ 208 + x.faultAddr % 2 ^ 48 * 2 ^ 160 + x.pos.get 2 % 65536 * 2 ^ 144 +
    x.pos.get 1 % 65536 * 2 ^ 128 + x.pos.get 0 % 65536 * 2 ^ 112 + x.bytePos * 2 ^ 104 + x.bytesWritten % 2 ^ 48 * 2 ^ 56 +
    x.faultCtx * 2 ^ 34 + x.faultSide * 2 ^ 32 + x.cause * 2 ^ 28 + state * 2 ^ 24 + x.doneCount)

/-- An event flag to the owning task; one for a task that is gone is discarded and counted (Table 12-4). -/
def dmaEvent (s : State) (u : UnitId) (d : DmaId) (flag : Fin 32) : State :=
  match (dmaAt s u d).owner with
  | none => s
  | some t =>
    match findTask (s.disp.get u) t with
    | some x => if x.status = .killed then (if u = viewUnit s then bump s (kDma d 5) else s) else setTaskFlag s u t flag
    | none => if u = viewUnit s then bump s (kDma d 5) else s

/-- Readouts whose channel has stopped or ended are idle; with every readout idle the ring reads HELD again (Table 12-6). -/
def settleReading (s : State) : State :=
  let c := s.capture
  let rd := c.readouts.mapFinIdx fun i x _ =>
    { x with running := x.running && dmaActive (dmaAt s (viewUnit s) (finOf 16 (by decide) i)) }
  { s with capture := { c with
    readouts := rd
    mode := if c.mode = .reading ∧ rd.toList.all (fun x => !x.running) then .held else c.mode } }

/-- A channel stops: its status record, the count of faults or aborts, event flag 31 (R295, R297). -/
def stopDma (s : State) (u : UnitId) (d : DmaId) (cause side addr ctx : Nat) : State :=
  let t := modDma s u d fun x =>
    let y : Dma := { x with mode := .stopped, cause := cause, faultSide := side, faultAddr := addr, faultCtx := ctx,
                            stalledAt := none, packetElems := 0, packetData := [] }
    { y with status := statusRecord y 3 }
  let t1 := if u = viewUnit s then bumpHalf t (kDma d 4) (decide (2 < cause)) else t
  settleReading (dmaEvent t1 u d 31)

/-! ## Descriptors (R288, R296) -/

def zeroPos : Vector Nat 3 := .replicate 3 0

/-- ELEM_BYTES 0 or above 64, a reserved DST_KIND, or a flow destination with PKT_ELEMS 0. -/
def descriptorInvalid (x : Descriptor) : Bool :=
  decide (x.elemBytes = 0 ∨ 64 < x.elemBytes ∨ 2 ≤ x.dstKind ∨ (x.dstKind = 1 ∧ x.pktElems = 0))

/-- The descriptor that 64 bytes hold, little-endian (Table 12-3; 00_scope.md R7). -/
def parseDescriptor (l : List Byte) : Descriptor :=
  let w := recordAt l 0 64
  { nextAddr := recordField w 511 464
    srcAddr := recordField w 463 416
    dstAddr := recordField w 415 368
    srcStep := #v[recordSigned w 303 272, recordSigned w 335 304, recordSigned w 367 336]
    dstStep := #v[recordSigned w 207 176, recordSigned w 239 208, recordSigned w 271 240]
    count := #v[recordField w 143 128, recordField w 159 144, recordField w 175 160]
    timestamp := recordField w 127 96
    rowBase := recordField w 95 80
    pktElems := recordField w 79 64
    srcCtx := finOf 64 (by decide) (recordField w 63 58)
    dstCtx := finOf 64 (by decide) (recordField w 57 52)
    flow := recordField w 51 44
    elemBytes := recordField w 43 37
    dstKind := recordField w 36 35
    markLast := w.testBit 29
    fence := w.testBit 28
    eventDone := w.testBit 27 }

/-- The byte of a unit's DRAM that a master reads: of the baton mirror, the newest baton first, and of the QP maps, the front map before the back map,
from where the model keeps them (11_dram.md Table 11-5, R281; 04_prediction.md R101; the order within either is the model's, log entry 68). -/
def homeByte (s : State) (u : UnitId) (a : Nat) : BitVec 8 :=
  if mirrorBase ≤ a ∧ a < 0x10100000 then
    ((s.baton.get u).mirror[(a - mirrorBase) / 8192]?.elim [] batonBytes).getD (a % 8192) 0
  else if 0x10100000 ≤ a ∧ a < 0x14100000 then
    let m := s.streams[finOf 16 (by decide) ((a - 0x10100000) / 0x400000)].map
    (if (a - 0x10100000) % 0x400000 < 0x200000 then m.front.getD [] else m.back).getD ((a - 0x10100000) % 0x200000) 0
  else dramByte (s.dram.get u) a

/-- What a fetch finds: the 64 bytes at the channel's descriptor address, or the fault of that address (R288). An address that is not a multiple of 64 is
taken down to one (log entry 71, DESIGN CHOICE). -/
def fetchedDescriptor (s : State) (u : UnitId) (d : DmaId) : Except Nat Descriptor :=
  let x := dmaAt s u d
  match translate s u (chanContext d x) (x.descAddr / 64 * 64) false with
  | .ok a => .ok (parseDescriptor ((List.range 64).map fun i => homeByte s u (a + i)))
  | .error k => .error k

/-- The channel takes a descriptor from its first element; an invalid one stops it with CAUSE 8. -/
def takeDescriptor (s : State) (u : UnitId) (d : DmaId) (desc : Descriptor) : State :=
  let t := modDma s u d fun y => { y with
    mode := .running
    desc := some desc
    pos := zeroPos
    bytePos := 0
    bytesWritten := 0
    packetElems := 0
    packetData := []
    cause := 0
    faultSide := 0
    faultAddr := 0
    faultCtx := 0
    ctx := desc.srcCtx }
  if descriptorInvalid desc then stopDma (modDma t u d fun y => { y with desc := none }) u d 8 0 0 0 else t

/-- A fetch that faults stops the channel at (0, 0, 0) with side 3 (R296). -/
def failFetch (s : State) (u : UnitId) (d : DmaId) (k : Nat) : State :=
  let x := dmaAt s u d
  let ctx := chanContext d x
  let t := noteFault (modDma s u d fun y => { y with pos := zeroPos, bytePos := 0 }) u ctx x.descAddr k false
  stopDma t u d (2 + k) 3 x.descAddr ctx.val

/-- The channel fetches its next descriptor. -/
def fetchNext (s : State) (u : UnitId) (d : DmaId) : State :=
  match fetchedDescriptor s u d with
  | .ok desc => takeDescriptor s u d desc
  | .error k => failFetch s u d k

/-- A stopped channel restarts from its recorded position (R296). -/
def resumeDma (s : State) (u : UnitId) (d : DmaId) : State :=
  if (dmaAt s u d).mode = .stopped then
    modDma s u d fun z => { z with mode := .running, cause := 0, faultSide := 0, faultAddr := 0, faultCtx := 0 }
  else s

/-- A channel between descriptors fetches the next one of its chain; an idle one is started by the engine task that owns it from then on,
at the address of its first descriptor, and a stopped one resumed by the task that owns it (R288, R296). -/
def execDescriptorFetch (u : UnitId) (d : DmaId) (start : Option DmaStart) (s : State) : Out :=
  let x := dmaAt s u d
  if x.mode = .stopped then
    match start with
    | some st => .next (if st.resume ∧ x.owner = some st.task then resumeDma s u d else s)
    | none => .next s
  else if x.desc.isSome ∨ x.awaitLanded = true then .next s
  else if x.mode = .running then .next (fetchNext s u d)
  else if x.mode = .idle ∨ x.mode = .done then
    match start with
    | some st => .next (fetchNext (modDma s u d fun y => { y with descAddr := st.addr, ctx := st.ctx, owner := some st.task }) u d)
    | none => .next s
  else .next s

/-- The element after (a, b, c); the loop-2 index runs past its count at the end (R289). -/
def stepPos (x : Descriptor) (p : Vector Nat 3) : Vector Nat 3 :=
  if p.get 0 < x.count.get 0 then #v[p.get 0 + 1, p.get 1, p.get 2]
  else if p.get 1 < x.count.get 1 then #v[0, p.get 1 + 1, p.get 2]
  else #v[0, 0, p.get 2 + 1]

def finishedPos (x : Descriptor) (p : Vector Nat 3) : Bool := decide (x.count.get 2 < p.get 2)

def elemAddr (base : Nat) (step : Vector Int 3) (p : Vector Nat 3) : Int :=
  (base : Int) + step.get 2 * p.get 2 + step.get 1 * p.get 1 + step.get 0 * p.get 0

/-- Translate a byte's signed address; one outside the 48-bit space is a MISS (R289). -/
def translateInt (s : State) (u : UnitId) (ctx : Fin 64) (a : Int) (write : Bool) : Except Nat Nat :=
  if a < 0 ∨ 2 ^ 48 ≤ a then .error 1 else translate s u ctx a.toNat write

/-- A fault within an element: side, cause, address, context. -/
structure ElemFault where
  side : Nat
  cause : Nat
  addr : Nat
  ctx : Nat
  deriving DecidableEq, Repr

/-- The bytes of an element from byte i on, up to the first at a faulting page or poisoned block (R295). -/
def readElem (s : State) (u : UnitId) (ctx : Fin 64) (base : Int) (found : List (Nat × EccResult)) (n : Nat) :
    Nat → Nat → List (BitVec 8) × Option ElemFault
  | 0, _ => ([], none)
  | fuel + 1, i =>
    if n ≤ i then ([], none)
    else
      match translateInt s u ctx (base + i) false with
      | .error k => ([], some ⟨1, 2 + k, (base + i).toNat, ctx.val⟩)
      | .ok a =>
        if found.contains (a / 64 * 64, .uncorrectable) then ([], some ⟨1, 7, (base + i).toNat, ctx.val⟩)
        else
          let r := readElem s u ctx base found n fuel (i + 1)
          (homeByte s u a :: r.1, r.2)

/-- Bytes written from byte i on, up to the first destination fault. -/
def writeElem (u : UnitId) (ctx : Fin 64) (base : Int) : State → List (BitVec 8) → Nat → State × Nat × Option ElemFault
  | s, [], i => (s, i, none)
  | s, b :: t, i =>
    match translateInt s u ctx (base + i) true with
    | .error k => (s, i, some ⟨2, 2 + k, (base + i).toNat, ctx.val⟩)
    | .ok a => writeElem u ctx base (setDram s u fun d => putByte d a b) t (i + 1)

/-- 64-byte blocks an element's reads touch. -/
def elemBlocks (base : Int) (n : Nat) : List Int :=
  (List.range n).map (fun (i : Nat) => (base + i) / 64) |>.eraseDups

/-- Columns of an element: a column pair in 4:2:2, else one (R304). -/
def columnsOf (s : State) : Nat := if inputChroma s = 2 then 2 else 1

/-- The frame of a packet of n elements: 8 bytes of payload header and its samples, stored as 2 bytes each (R205, R292,
R298). -/
def readoutFrame (s : State) (f : FlowId) (x : Descriptor) (n : Nat) : Nat :=
  mediaFrame s f (8 + ceilDiv (n * (x.elemBytes / 2) * cfg s (key 0x2300 2)) 8)

/-- The samples of a packet's elements, stored as 2 bytes each, little-endian (R298), in the order of an ST 2110-20 pgroup: Cb, Y, Cr for each 4:4:4
column, and the order in which they are stored otherwise (08_network.md Table 8-5; log entry 72, PRESUMED). -/
def groupSamples (chroma : Nat) (l : List Byte) : List Nat :=
  let v := (List.range (l.length / 2)).map fun i => recordAt l (2 * i) 2
  if chroma = 3 then (List.range (v.length / 3)).flatMap fun i => [v.getD (3 * i + 1) 0, v.getD (3 * i) 0, v.getD (3 * i + 2) 0] else v

/-- Samples of `depth` bits as pgroups, big-endian, the last byte filled with zeros (08_network.md Table 8-5). -/
def packGroups (depth : Nat) (l : List Nat) : List Byte :=
  let n := ceilDiv (l.length * depth) 8
  let w := l.foldl (fun a v => a * 2 ^ depth + v % 2 ^ depth) 0 * 2 ^ (n * 8 - l.length * depth)
  (leBytes n w).reverse

/-- The packet in progress with the row number ROW_BASE + b, the offset of its first element in samples of the run, and its samples as pgroups (R205,
R292). -/
def readoutPacket (s : State) (u : UnitId) (d : DmaId) (x : Descriptor) (first : Vector Nat 3) (last : Bool) : Packet :=
  let f : FlowId := finOf 256 (by decide) x.flow
  let n := (dmaAt s u d).packetElems
  let b := readoutFrame s f x n
  { kind := .readout d.val, frame := b, charge := if isTimed f then b + flowOverhead s f else 1, seq := 0, timestamp := x.timestamp,
    marker := last && x.markLast, srcMac := s.flash.limit.macs.get (flowPrimary s f), entered := s.now,
    payload := .line (x.rowBase + first.get 1) (first.get 0 * columnsOf s)
      (packGroups (inputDepth s) (groupSamples (inputChroma s) (dmaAt s u d).packetData)) }

/-- The packet in progress is offered whole; refused, the channel stalls on the write (R220, R292). -/
def writePacket (s : State) (u : UnitId) (d : DmaId) (x : Descriptor) (first : Vector Nat 3) (last : Bool) : State :=
  let f : FlowId := finOf 256 (by decide) x.flow
  let pk := readoutPacket s u d x first last
  if flowTakes s f [pk] then modDma (enqueue s f [pk]) u d fun y =>
    { y with bytesWritten := y.bytesWritten + y.packetElems * x.elemBytes, packetElems := 0, packetData := [], stalledAt := none }
  else modDma (refuseFlow s f) u d fun y => { y with mode := .stalled, stalledAt := some first }

/-- The first element of the packet in progress: packetElems elements back in the same loop-0 run. -/
def packetFirst (p : Vector Nat 3) (n : Nat) : Vector Nat 3 := #v[p.get 0 + 1 - n, p.get 1, p.get 2]

/-- The accesses to n bytes from a virtual address on, as far as its pages are translated (R290, R291). -/
def touchVirtual (s : State) (u : UnitId) (ctx : Fin 64) (base : Int) (n : Nat) (write : Bool) : State :=
  forEach (elemBlocks base n) (fun x b => match translateInt x u ctx (max base (b * 64)) write with
    | .ok a => touchBlock x u a
    | .error _ => x) s

/-- A fault stops the channel; a poisoned read is an uncorrectable error of the DRAM, counted with its address (R295; 11_dram.md R277). -/
def faultElem (s : State) (u : UnitId) (d : DmaId) (f : ElemFault) : State :=
  let ctx : Fin 64 := finOf 64 (by decide) f.ctx
  let t := if f.cause = 7 then noteUncorrectable s u ((translate s u ctx f.addr false).toOption.getD 0 / 64 * 64)
    else noteFault s u ctx f.addr (f.cause - 2) (decide (f.side = 2))
  stopDma t u d f.cause f.side f.addr f.ctx

/-- One element: its bytes move, or the channel stops at the first unwritten byte (R289, R292, R295). -/
def moveElem (s : State) (u : UnitId) (d : DmaId) (x : Descriptor) (found : List (Nat × EccResult)) : State :=
  let y := dmaAt s u d
  let ctx := sourceContext d x
  let src := elemAddr x.srcAddr x.srcStep y.pos
  let got := readElem s u ctx src found x.elemBytes x.elemBytes y.bytePos
  let next := stepPos x y.pos
  if x.dstKind = 0 then
    let dst := elemAddr x.dstAddr x.dstStep y.pos
    let w := writeElem u x.dstCtx dst (touchVirtual s u x.dstCtx (dst + y.bytePos) got.1.length true) got.1 y.bytePos
    let t := modDma w.1 u d fun z => { z with bytesWritten := z.bytesWritten + (w.2.1 - y.bytePos), bytePos := w.2.1 }
    match w.2.2 <|> got.2 with
    | some f => faultElem t u d f
    | none => modDma t u d fun z => { z with pos := next, bytePos := 0 }
  else
    match got.2 with
    | some f =>
      faultElem (modDma s u d fun z => { z with pos := packetFirst y.pos (y.packetElems + 1), bytePos := 0 }) u d f
    | none =>
      let n := y.packetElems + 1
      let first := packetFirst y.pos n
      let t := modDma s u d fun z => { z with pos := next, packetElems := n, packetData := z.packetData ++ got.1 }
      if n = x.pktElems ∨ y.pos.get 0 = x.count.get 0 then writePacket t u d x first (finishedPos x next) else t

/-- The reads of blocks that the burst has not read yet: their accesses, and the errors that the ECC corrects in them (R290, R291; 11_dram.md R276). -/
def readBlocks (s : State) (u : UnitId) (ctx : Fin 64) (found : List (Nat × EccResult)) (l : List Int) : State :=
  forEach l (fun x b => match translateInt x u ctx (b * 64) false with
    | .ok a =>
      let t := touchBlock x u a
      match (found.find? fun e => decide (e.1 = a)).map Prod.snd with
      | some (.corrected groups) => correctBlock t u a groups false
      | _ => t
    | .error _ => x) s

/-- The elements of a burst: reads of at most 16 blocks and 1 KiB of element bytes (R291). -/
def burstGo (u : UnitId) (d : DmaId) (found : List (Nat × EccResult)) : Nat → List Int → Nat → State → State
  | 0, _, _, s => s
  | fuel + 1, blocks, bytes, s =>
    let y := dmaAt s u d
    match y.desc with
    | none => s
    | some x =>
      if y.mode ≠ .running ∨ finishedPos x y.pos then s
      else
        let b := (blocks ++ elemBlocks (elemAddr x.srcAddr x.srcStep y.pos) x.elemBytes).eraseDups
        if 16 < b.length ∨ 1024 < bytes + x.elemBytes then s
        else burstGo u d found fuel b (bytes + x.elemBytes)
          (moveElem (readBlocks s u (sourceContext d x) found (b.filter fun i => !blocks.contains i)) u d x found)

/-- A channel has elements to move. -/
def burstReady (x : Dma) : Bool := decide (x.mode = .running) && x.desc.any fun y => !finishedPos y x.pos

/-- The channels of a unit take turns, a burst at a time, from the one after the channel served last (R291). -/
def burstTurn (s : State) (u : UnitId) : Option DmaId :=
  let last := (s.dram.get u).dmaLast
  (((List.range 16).map fun i => finOf 16 (by decide) (last + 1 + i)).find? fun d => burstReady (dmaAt s u d))

/-- A channel moves one burst when its turn has come; `found` is what the ECC finds in the blocks that it reads, by usable address. -/
def execDmaBurst (u : UnitId) (d : DmaId) (found : List (Nat × EccResult)) (s : State) : Out :=
  if burstTurn s u = some d then
    .next (burstGo u d found 1024 [] 0 (setDram s u fun x => { x with dmaLast := d.val }))
  else .next s

/-! ## Completion (R293, R294) -/

/-- A readout has sent a picture: 0x2901 + r:08 (Table 12-10). -/
def pictureSent (s : State) (d : DmaId) : State :=
  let t := bump s (key (0x2901 + d.val) 8)
  { t with capture := { t.capture with
    readouts := vmod t.capture.readouts (finOf 4 (by decide) d.val) fun x => { x with todo := x.todo.drop 1 } } }

/-- The last write of a descriptor has left the channel: counted, its status record, its event; with FENCE the channel
waits for LANDED. -/
def execDescriptorComplete (u : UnitId) (d : DmaId) (s : State) : Out :=
  let y := dmaAt s u d
  match y.desc with
  | none => .next s
  | some x =>
    if y.mode = .running ∧ finishedPos x y.pos ∧ y.packetElems = 0 then
      let last := decide (x.nextAddr = 0)
      let t := modDma s u d fun z =>
        let w : Dma := { z with
          doneCount := (z.doneCount + 1) % 65536
          mode := if last then .done else .running
          awaitLanded := x.fence }
        { w with status := statusRecord w (if last then 4 else 1), desc := none, descAddr := x.nextAddr }
      let t1 := if u = viewUnit s then bump t (kDma d 3) else t
      let t2 := if u = viewUnit s ∧ d.val < 4 then
          (if x.markLast then pictureSent t1 d else t1) else t1
      .next (settleReading (if x.eventDone then dmaEvent t2 u d 30 else t2))
    else .next s

/-- Every write of a fenced descriptor has reached the devices: the next descriptor may start (R293). -/
def execLanded (u : UnitId) (d : DmaId) (s : State) : Out :=
  .next (modDma s u d fun x => { x with awaitLanded := false })

/-- Space has freed and a stalled packet write enters its queue (R220). -/
def execDmaStallResume (u : UnitId) (d : DmaId) (s : State) : Out :=
  let y := dmaAt s u d
  match y.desc with
  | none => .next s
  | some x =>
    if y.mode = .stalled then
      let f : FlowId := finOf 256 (by decide) x.flow
      let pk := readoutPacket s u d x (y.stalledAt.getD zeroPos) (finishedPos x y.pos)
      if flowTakes s f [pk] then
        .next (modDma (enqueue s f [pk]) u d fun z => { z with
          mode := .running, bytesWritten := z.bytesWritten + z.packetElems * x.elemBytes, packetElems := 0, packetData := [], stalledAt := none })
      else .next s
    else .next s

/-! ## Abort and resume (R296, R297) -/

/-- An abort: the burst in progress has finished; a stalled packet is discarded whole and the position is its first
element (Table 12-4). -/
def abortDma (s : State) (u : UnitId) (d : DmaId) (cause : Nat) : State :=
  let y := dmaAt s u d
  if dmaActive y then
    let t := modDma s u d fun z => { z with pos := z.stalledAt.getD (packetFirstOr z), bytePos := z.bytePos }
    stopDma t u d cause 0 0 0
  else s
where
  /-- The position an abort records: the first element of a packet not yet written. -/
  packetFirstOr (z : Dma) : Vector Nat 3 :=
    if z.packetElems = 0 then z.pos else #v[z.pos.get 0 - z.packetElems, z.pos.get 1, z.pos.get 2]

/-- A fault while a task's context is saved kills the task; its channels are aborted with CAUSE 2, and an event is raised: the abort
events of its channels, and a note of the event log with the dispatcher's source 10 and the engine as its instance, which the manual does
not name (02_lap.md R50, Table 12-4; log entry 54, DESIGN CHOICE). The lap-deadline task that caused the pre-emption runs on. -/
def execContextSaveFault (u : UnitId) (e : EngineId) (s : State) : Out :=
  match (s.disp.get u).saved.get e with
  | [] => .next s
  | i :: rest =>
    let t : State := { s with disp := s.disp.mod u fun d =>
      { modTask d i (fun x => { x with status := .killed }) with saved := vmod d.saved e fun _ => rest } }
    .next (logNote (forEach (allDma.filter fun d => decide ((dmaAt s u d).owner = some i)) (fun x d => abortDma x u d 2) t)
      10 (key 0x2500 9) e.val)

end Sys2Proof.Machine
end

