-- ==== Sys2Proof/Machine/Capture.lean ====
section
/-! DEFINITION. Trigger capture: the ring, triggers, capture states, hand-over and readouts (12_translation_dma.md R298 to
R306). -/

namespace Sys2Proof.Machine

def kCapture (sub : Nat) : Nat := key 0x2900 sub

/-! ## The ring (R298, R299) -/

/-- Bytes per line slot: the heaviest line of the picture (R298). -/
def ringStride (s : State) : Nat := ceilDiv (lineSamples (inputChroma s) (cfg s (kInput 3)) 0 * 2) 64 * 64

/-- Bytes per picture slot (R298). -/
def ringSlotBytes (s : State) : Nat := ceilDiv (64 + activeLines s * ringStride s) 65536 * 65536

/-- Pictures the ring holds (R298). -/
def ringCapacity (s : State) : Nat := cfg s (kCapture 1) * 1048576 / max 1 (ringSlotBytes s)

/-- Ring bytes written per second in MB/s, rounded up (R299). -/
def ringRate (s : State) : Nat :=
  let lines := (List.range (activeLines s)).map fun n => lineSamples (inputChroma s) (cfg s (kInput 3)) n * 2
  if ringCapacity s = 0 then 0
  else ceilDiv ((64 + lines.sum) * cyclesPerSec * pictureDen s) (max 1 (pictureNum s) * 1000000)

/-- Bytes go to virtual addresses of context 9, up to the first fault (Table 12-1; R287). -/
def ringWrite (u : UnitId) : State → Nat → List (BitVec 8) → State
  | s, _, [] => s
  | s, v, b :: t =>
    match translate s u 9 v true with
    | .error k => memoryFault (noteFault s u 9 v k true) u
    | .ok a => ringWrite u (setDram s u fun d => putByte d a b) (v + 1) t

/-- Bytes for the ring: the accesses that they take, and the bytes (R298; 11_dram.md R264). -/
def ringStore (s : State) (u : UnitId) (v : Nat) (l : List (BitVec 8)) : State :=
  ringWrite u ((translate s u 9 v true).toOption.elim s fun a => touchBytes s u a l.length) v l

/-- Whether the ring is written: a channel runs and capture is armed or collecting (R299). -/
def ringActive (s : State) : Bool :=
  decide (s.capture.mode = .armed ∨ s.capture.mode = .collecting) && anyChannelRunning s && decide (0 < s.capture.capacity)

/-- Pictures held before the trigger and from it, 0x2900:0D. -/
def reportHeld (s : State) : State :=
  let c := s.capture
  let before := if c.mode = .armed then c.slots else c.slots.filter fun r => decide (r.picture < c.trigPicture)
  regPut s (kCapture 0x0D) (before.length * 2 ^ 32 + (c.slots.length - before.length))

/-- A whole line of picture `q` across the bands, in the sample order of 07_sensor_lanes.md R172. -/
def wholeLine (s : State) (lines : List BufLine) (q n : Nat) : List Nat :=
  let parts := (allLinks.filter fun l => linkOn s l).filterMap fun l =>
    (lines.find? fun b => decide (b.link = l ∧ b.picture = q ∧ b.line = n)).map fun b => (cfg s (kLink l 4), bandWidth s l, b.samples)
  let sorted := parts.mergeSort fun a b => decide (a.1 ≤ b.1)
  if inputChroma s = 1 then
    sorted.flatMap (fun x => x.2.2.take x.2.1) ++ sorted.flatMap fun x => x.2.2.drop x.2.1
  else sorted.flatMap fun x => x.2.2

/-- Where the samples of a band stand in the whole line: for 4:2:0 the luma samples of all bands come first (07_sensor_lanes.md R172). -/
def bandRuns (s : State) (b : BufLine) : List (Nat × List Nat) :=
  let x := cfg s (kLink b.link 4)
  let w := bandWidth s b.link
  match inputChroma s with
  | 0 => [(x, b.samples)]
  | 1 => [(x, b.samples.take w), (cfg s (kInput 3) + x, b.samples.drop w)]
  | 2 => [(2 * x, b.samples)]
  | _ => [(3 * x, b.samples)]

/-- A line of a band goes to its place in the slot being written, where that slot is its picture's (R298). -/
def ringLine (s : State) (u : UnitId) (b : BufLine) : State :=
  match s.capture.writing with
  | some w =>
    if w.picture = b.picture ∧ s.relay.active = some u then
      forEach (bandRuns s b) (fun x r => ringStore x u (w.slot * x.capture.slotBytes + 64 + b.line * x.capture.stride + 2 * r.1)
        (r.2.flatMap fun v => leBytes 2 v)) s
    else s
  | none => s

/-- The lines of the slot's picture that the unit holds already go to the slot: those accepted before tick 0, or before the unit became active. -/
def ringPresent (s : State) (u : UnitId) : State :=
  forEach ((s.input.get u).lines.filter fun b => !b.replaced) (fun x b => ringLine x u b) s

/-- At the close of the window of stripe k of picture `q` its replaced lines go to the slot, and are counted (R298). -/
def ringStripe (s : State) (u : UnitId) (q k : Nat) : State :=
  match s.capture.writing with
  | none => s
  | some w =>
    let lines := (s.input.get u).lines.filter fun b => b.replaced && decide (b.picture = q ∧ b.line / stripeHeight s = k)
    if w.picture = q then
      let t := forEach lines (fun x b => ringLine x u b) s
      { t with capture := { t.capture with writing := some { w with replaced := min 65535 (w.replaced + lines.length) } } }
    else s

/-- The 64-byte slot header (Table 12-5). -/
def slotHeader (s : State) (w : RingSlot) : List (BitVec 8) :=
  let trig := if s.capture.mode = .collecting ∧ s.capture.trigPicture = w.picture then 2 ^ 264 else 0
  let v := w.picture * 2 ^ 448 + timeValue w.tb0 % 2 ^ 112 * 2 ^ 336 + w.timestamp % 2 ^ 32 * 2 ^ 304 +
    cfg s (kInput 3) * 2 ^ 288 + activeLines s * 2 ^ 272 + inputChroma s * 2 ^ 270 + inputDepth s * 2 ^ 265 + trig +
    w.replaced * 2 ^ 248
  let body := (leBytes 64 v).drop 4
  leBytes 4 (crc32c body).toNat ++ body

/-- Collection has ended: the ring is frozen; PARTIAL where a hand-over cut it (Table 12-6, R302). -/
def captureHeld (s : State) (cut : Bool) : State :=
  let t : State := { s with capture := { s.capture with mode := .held, writing := none, awaiting := false } }
  reportHeld (if cut || s.capture.partialHeld then setFlag t (kCapture 8) 31 else t)

/-- The picture being written is complete: its header is written with the CRC of CV6, it counts towards Q (R298, R301; 14_integrity.md R343). -/
def ringFinish (s : State) (u : UnitId) : State :=
  match s.capture.writing with
  | none => s
  | some w =>
    let h := slotHeader s w
    let t := cvEnd (ringStore s u (w.slot * s.capture.slotBytes) h) 6 (crc32c (h.drop 4)).toNat true
    let counts := decide (t.capture.mode = .collecting) && !t.capture.awaiting && decide (t.capture.trigPicture ≤ w.picture)
    let t1 : State := { t with capture := { t.capture with
      writing := none
      slots := t.capture.slots ++ [{ w with complete := true }]
      due := if counts then t.capture.due - 1 else t.capture.due } }
    if counts ∧ t1.capture.due = 0 then captureHeld t1 false else reportHeld t1

/-- Up to P pictures before the trigger picture are kept, PRE_SHORT where there are fewer (R301). -/
def keepBefore (s : State) : State :=
  let c := s.capture
  let before := c.slots.filter fun r => decide (r.picture < c.trigPicture)
  let from_ := c.slots.filter fun r => decide (c.trigPicture ≤ r.picture)
  let t : State := { s with capture := { c with slots := before.drop (before.length - c.p) ++ from_ } }
  if before.length < c.p then setFlag t (kCapture 8) 30 else t

/-- The header of the trigger picture, where it is complete already, is written again with TRIGGER (Table 12-5). -/
def markTrigger (s : State) (picture : Nat) : State :=
  match s.capture.slots.find? fun r => decide (r.picture = picture) with
  | some r => ringStore s (viewUnit s) (r.slot * s.capture.slotBytes) (slotHeader s r)
  | none => s

/-- The trigger picture is known: its number and its time in the objects, the pictures due (R301). -/
def setTriggerPicture (s : State) (picture done : Nat) : State :=
  let t : State := { s with capture := { s.capture with
    trigPicture := picture
    awaiting := false
    due := s.capture.q - done } }
  let t1 := keepBefore (regPut (markTrigger t picture) (kCapture 0x0B) picture)
  if s.capture.q ≤ done then captureHeld t1 false else reportHeld t1

/-- A picture opens a ring slot at its tick 0; a dropped one is not stored (R299). -/
def ringOpen (s : State) : State :=
  if ringActive s ∧ ¬ s.lap.dropped then
    let c := s.capture
    let w : RingSlot := { picture := s.lap.picture, slot := c.nextSlot, tb0 := s.lap.captureTb0,
                          timestamp := rtpStamp s.lap.captureTb0, replaced := 0, complete := false }
    let t : State := { s with capture := { c with
      writing := some w
      nextSlot := (c.nextSlot + 1) % c.capacity
      slots := if c.capacity ≤ c.slots.length then c.slots.drop 1 else c.slots } }
    ringPresent (if c.awaiting ∧ c.mode = .collecting then setTriggerPicture t s.lap.picture 0 else t) (viewUnit s)
  else s

/-- The picture in progress is dropped: its slot is free again, and a trigger that it took waits for the next stored picture (R299, R301). -/
def ringDrop (s : State) : State :=
  match s.capture.writing with
  | none => s
  | some w =>
    let c := s.capture
    { s with capture := { c with
      writing := none
      nextSlot := w.slot
      awaiting := c.awaiting || decide (c.mode = .collecting ∧ c.trigPicture = w.picture) } }

/-- At a channel start the ring takes its geometry; P and Q are clipped to the capacity (R298, R301). -/
def ringConfigure (s : State) : State :=
  let n := ringCapacity s
  let t := regPut (regPut (regPut s (kCapture 9) n) (kCapture 0x0A) (ringSlotBytes s)) (kCapture 0x0F) (ringRate s)
  let t1 : State := { t with capture := { t.capture with
    capacity := n
    slotBytes := ringSlotBytes s
    stride := ringStride s } }
  let p := applied s (kCapture 2)
  let q := applied s (kCapture 3)
  if 0 < n ∧ n < p + q then
    let q1 := min q n
    let both := fun (x : State) (k v : Nat) => applyValue (commitValue x k v (unitPresent x .a) (unitPresent x .b)) k v
    setFlag (both (both t1 (kCapture 2) (n - q1)) (kCapture 3) q1) (kCapture 8) 27
  else t1

/-! ## Triggers (R300, R301) -/

/-- A trigger at a TB0 time (in 2⁻³² ns): taken while ARMED, otherwise ignored and counted. -/
def takeTrigger (s : State) (stamp : Nat) : State :=
  if s.capture.mode = .armed then
    let c := s.capture
    let t : State := { regPut s (kCapture 0x0C) (timeValue stamp) with capture := { c with
      mode := .collecting
      p := applied s (kCapture 2)
      q := applied s (kCapture 3)
      due := applied s (kCapture 3)
      trigTb0 := stamp
      partialHeld := false
      awaiting := true } }
    let stored := (c.slots ++ c.writing.toList).filter fun r => decide (r.tb0 ≤ stamp)
    if s.lap.dropped then t
    else
      match stored.getLast? with
      | some r => setTriggerPicture t r.picture (if r.complete then 1 else 0)
      | none => t
  else bump s (kCapture 0x0E)

def doTrigger (s : State) : Except Abort State := .ok (takeTrigger s s.time.tb0)

/-- Writing 2 to 0x2900:06 triggers at the TB0 time of its stamp (R300, 10_time.md R257). -/
def execTrigger (k : Client) (s : State) : Out := .next (serveWrite s k 0x2900 doTrigger)

/-- The selected edge of an enabled TRIG pin (0x2900:04), stamped on TB0. -/
def execTrigPinEdge (n : Fin 4) (falling : Bool) (s : State) : Out :=
  let w := applied s (kCapture 4)
  let t : State := { s with pins := { s.pins with trigStamp := vmod s.pins.trigStamp n fun _ => s.time.tb0 } }
  if w.testBit n.val ∧ w.testBit (4 + n.val) = falling then .next (takeTrigger t s.time.tb0) else .next s

/-- TB0 has reached a non-zero 0x2900:05. -/
def execTriggerTimeReached (s : State) : Out :=
  if s.capture.timePending ∧ cfg s (kCapture 5) ≤ tb0Value s then
    .next (takeTrigger { s with capture := { s.capture with timePending := false } } s.time.tb0)
  else .next s

/-- A write of 0x2900:05; a time already past triggers at the write and sets TIME_PAST. -/
def doTriggerTime (v : Nat) (s : State) : Except Abort State :=
  let t := commitValue s (kCapture 5) v (unitPresent s .a) (unitPresent s .b)
  let t1 : State := { t with capture := { t.capture with timePending := decide (tb0Value s < v) } }
  if v ≠ 0 ∧ v ≤ tb0Value s then .ok (setFlag (takeTrigger t1 s.time.tb0) (kCapture 8) 29) else .ok t1

def execTriggerTimeWrite (k : Client) (v : BitVec 128) (s : State) : Out :=
  .next (serveWrite s k 0x2900 (doTriggerTime v.toNat))

/-! ## Capture states (Table 12-6, R302) -/

def doArm (s : State) : Except Abort State :=
  if s.capture.mode = .idle ∧ anyChannelRunning s ∧ 0 < s.capture.capacity then
    .ok (reportHeld { s with capture := { s.capture with
      mode := .armed, slots := [], writing := none, nextSlot := 0, awaiting := false, partialHeld := false } })
  else .error .presentState

/-- Command 1, arm: from IDLE with a channel running and a capacity (R301). The ring starts empty. -/
def execArm (k : Client) (s : State) : Out := .next (serveWrite s k 0x2900 doArm)

/-- Back to IDLE with the ring's contents discarded. -/
def captureIdle (s : State) : State :=
  reportHeld (clearFlag (clearFlag { s with capture := { s.capture with
    mode := .idle, slots := [], writing := none, awaiting := false, partialHeld := false, due := 0 } }
    (kCapture 8) 31) (kCapture 8) 30)

/-- Every running readout is aborted by command. -/
def abortReadouts (s : State) (u : UnitId) : State :=
  forEach [0, 1, 2, 3] (fun x d => abortDma x u d 1) s

def doRelease (s : State) : Except Abort State :=
  match s.capture.mode with
  | .held => .ok (captureIdle (abortReadouts s (viewUnit s)))
  | .reading => .ok (captureIdle (abortReadouts s (viewUnit s)))
  | .lost => .ok (captureIdle s)
  | _ => .error .presentState

/-- Command 3, release: running readouts are aborted. -/
def execRelease (k : Client) (s : State) : Out := .next (serveWrite s k 0x2900 doRelease)

def doDisarm (s : State) : Except Abort State :=
  if s.capture.mode = .armed then .ok (captureIdle s) else .error .presentState

/-- Command 4, disarm. -/
def execDisarm (k : Client) (s : State) : Out := .next (serveWrite s k 0x2900 doDisarm)

/-- The last channel stops: ARMED returns to IDLE, COLLECTING is held with PARTIAL. -/
def captureLastStop (s : State) : State :=
  match s.capture.mode with
  | .armed => captureIdle s
  | .collecting => captureHeld s true
  | _ => s

/-- The slot that the new unit writes of the picture in progress, from the hand-over lap on (01_module.md Table 1-5): none where
the picture ended with the lap before. -/
def handoverSlot (s : State) : Option RingSlot :=
  if atStart s then none else s.capture.writing.map fun w => { w with slot := 0, replaced := 0 }

/-- The capture states by their codes (Table 12-6). -/
def captureOfCode : Nat → CaptureMode
  | 0 => .idle
  | 1 => .armed
  | 2 => .collecting
  | 3 => .held
  | 4 => .reading
  | _ => .lost

/-- The capture state as the new unit's last complete baton gives it: state, trigger picture and time, P, Q and the pictures due (R302). -/
def captureTaken (s : State) (new : UnitId) : CaptureState :=
  let c := s.capture
  match lastBaton (s.baton.get new) with
  | none => c
  | some b =>
    let (state, _, trig, tb0, p, q, due) := b.capture
    { c with mode := captureOfCode state, trigPicture := trig, trigTb0 := tb0, p := p, q := q, due := due }

/-- A hand-over to another unit: the ring's contents are lost, and the new unit has a ring of its own (R302). -/
def captureHandover (s : State) (old : UnitId) : State :=
  let w := handoverSlot s
  let t : State := { s with capture := { captureTaken s old.other with
    slots := []
    writing := w
    nextSlot := if w.isSome then 1 % max 1 s.capture.capacity else 0 } }
  match t.capture.mode with
  | .armed => reportHeld t
  | .collecting => reportHeld { t with capture := { t.capture with partialHeld := true } }
  | .idle => t
  | .lost => t
  | _ =>
    let t1 := abortReadouts t old
    reportHeld (raiseEmcy (setFlag { t1 with capture := { t1.capture with
      mode := .lost
      readouts := .replicate 4 { running := false, todo := [] } } } (kCapture 8) 28) 0xFF09 (kCapture 8) 0)

/-! ## Readouts (R303, R304) -/

/-- The index in the ring of the first picture a readout asks for, relative to the trigger picture. -/
def firstPicture (s : State) (r : ReadoutId) : Int :=
  ((s.capture.slots.takeWhile fun x => decide (x.picture < s.capture.trigPicture)).length : Int) + cfgSigned s (kReadout r 5)

/-- The crop in use: x, y, width, height (0x2901 + r:02, 03). -/
def cropOf (s : State) (r : ReadoutId) : Nat × Nat × Nat × Nat :=
  let o := cfg s (kReadout r 2)
  let n := cfg s (kReadout r 3)
  if n = 0 then (0, 0, cfg s (kInput 3), activeLines s) else (o / 65536, o % 65536, n / 65536, n % 65536)

/-- Elements of the heaviest line of a readout. -/
def lineElems (s : State) (w : Nat) : Nat :=
  match inputChroma s with
  | 1 => lineSamples 1 w 0
  | 2 => w / 2
  | _ => w

def readoutFlow (s : State) (r : ReadoutId) : FlowId := finOf 256 (by decide) (cfg s (kReadout r 1))

/-- PKT_ELEMS: the whole pgroups that fit in P - 8 bytes, and no more than a line has. -/
def packetElemsOf (s : State) (r : ReadoutId) : Nat :=
  let fit := (flowPayload s (readoutFlow s r) - 8) / max 1 (groupBytes s) * groupElems s
  min (lineElems s (cropOf s r).2.2.1) fit

/-- The descriptor of a picture, or of one of its lines for 4:2:0 input: the crop, read backwards along the axes that are
flipped, to the readout's flow (R303). -/
def buildDescriptor (s : State) (r : ReadoutId) (w : RingSlot) (line : Option Nat) : Descriptor :=
  let c := cropOf s r
  let flip := cfg s (kReadout r 4)
  let bytes := 2 * elemSamples (inputChroma s)
  let n := match line with
    | some l => lineSamples 1 c.2.2.1 l
    | none => lineElems s c.2.2.1
  let first := c.1 / (if inputChroma s = 2 then 2 else 1)
  let col := if flip.testBit 0 then first + n - 1 else first
  let row := match line with
    | some l => l
    | none => if flip.testBit 1 then c.2.1 + c.2.2.2 - 1 else c.2.1
  { nextAddr := 0
    srcAddr := w.slot * s.capture.slotBytes + 64 + row * s.capture.stride + col * bytes
    dstAddr := 0
    srcStep := #v[if flip.testBit 0 then -(bytes : Int) else bytes,
      if flip.testBit 1 then -(s.capture.stride : Int) else s.capture.stride, 0]
    dstStep := #v[0, 0, 0]
    count := #v[n - 1, if line.isSome then 0 else c.2.2.2 - 1, 0]
    timestamp := w.timestamp
    rowBase := line.getD 0
    pktElems := packetElemsOf s r
    srcCtx := finOf 64 (by decide) (10 + r.val)
    dstCtx := 0
    flow := cfg s (kReadout r 1)
    elemBytes := bytes
    dstKind := 1
    markLast := match line with
      | some l => decide (l + 1 = activeLines s)
      | none => true
    fence := false
    eventDone := true }

/-- Where the descriptor area of context 10 + r begins in its virtual space; the manual gives it no address (log entry 55, DESIGN
CHOICE). -/
def descriptorArea : Nat := 2 ^ 47

/-- The chain of a readout: pictures in the order of their numbers; its last descriptor ends it (R303). -/
def buildChain (s : State) (r : ReadoutId) (slots : List RingSlot) : List Descriptor :=
  let l := slots.flatMap fun w =>
    if inputChroma s = 1 then (List.range (activeLines s)).map fun n => buildDescriptor s r w (some n)
    else [buildDescriptor s r w none]
  l.mapIdx fun i x => if i + 1 = l.length then x else { x with nextAddr := descriptorArea + 64 * (i + 1) }

/-- The 64 bytes of a descriptor, little-endian (Table 12-3; 00_scope.md R7). -/
def descriptorBytes (x : Descriptor) : List Byte :=
  let step := fun (v : Int) => (v % 2 ^ 32).toNat
  let bit := fun (b : Bool) (i : Nat) => if b then 2 ^ i else 0
  leBytes 64 (x.nextAddr * 2 ^ 464 + x.srcAddr * 2 ^ 416 + x.dstAddr * 2 ^ 368 + step (x.srcStep.get 2) * 2 ^ 336 +
    step (x.srcStep.get 1) * 2 ^ 304 + step (x.srcStep.get 0) * 2 ^ 272 + step (x.dstStep.get 2) * 2 ^ 240 +
    step (x.dstStep.get 1) * 2 ^ 208 + step (x.dstStep.get 0) * 2 ^ 176 + x.count.get 2 * 2 ^ 160 + x.count.get 1 * 2 ^ 144 +
    x.count.get 0 * 2 ^ 128 + x.timestamp % 2 ^ 32 * 2 ^ 96 + x.rowBase * 2 ^ 80 + x.pktElems * 2 ^ 64 + x.srcCtx.val * 2 ^ 58 +
    x.dstCtx.val * 2 ^ 52 + x.flow * 2 ^ 44 + x.elemBytes * 2 ^ 37 + x.dstKind * 2 ^ 35 + bit x.markLast 29 + bit x.fence 28 +
    bit x.eventDone 27)

/-- A chain is written into the descriptor area of context 10 + r, from which the channel fetches it; where the context maps none of the area nothing
is written, and the fetch faults (R303, R296). -/
def placeChain (s : State) (r : ReadoutId) (l : List Descriptor) : State :=
  let u := viewUnit s
  forEach l.zipIdx (fun x e => match translate x u (finOf 64 (by decide) (10 + r.val)) (descriptorArea + 64 * e.2) false with
    | .ok a => setDram (touchBytes x u a 64) u fun d => putBytes d a (descriptorBytes e.1)
    | .error _ => x) s

/-- The first failure of R304; 0 valid. -/
def readoutReason (s : State) (r : ReadoutId) : Nat :=
  let f := readoutFlow s r
  let c := cropOf s r
  let cropSet := decide (cfg s (kReadout r 3) ≠ 0)
  let flip := cfg s (kReadout r 4)
  let i := firstPicture s r
  if s.capture.mode ≠ .held ∧ s.capture.mode ≠ .reading then 1
  else if ¬ s.flows[f].enabled ∨ flowFormat s f ≠ 1 ∨ s.flows[f].carries.isSome then 2
  else if cfg s (kInput 3) < c.1 + c.2.2.1 ∨ activeLines s < c.2.1 + c.2.2.2 ∨ c.2.2.1 = 0 ∨ c.2.2.2 = 0 ∨
      c.1 % 8 ≠ 0 ∨ c.2.2.1 % 8 ≠ 0 then 3
  else if (inputChroma s = 1 ∧ (cropSet ∨ flip ≠ 0)) ∨ (inputChroma s = 2 ∧ flip.testBit 0) then 4
  else if i < 0 ∨ (s.capture.slots.length : Int) < i + cfg s (kReadout r 6) then 5
  else if packetElemsOf s r = 0 then 6
  else 0

/-- The DMA channel of a readout. -/
def readoutDma (r : ReadoutId) : DmaId := finOf 16 (by decide) r.val

def doReadoutStart (r : ReadoutId) (s : State) : State × Option Abort :=
  let reason := readoutReason s r
  let t := putField s (kReadout r 0x0A) 31 28 reason
  if reason ≠ 0 ∨ s.capture.readouts[r].running then (t, some .presentState)
  else
    let n := packetElemsOf s r
    let t1 := regPut (regPut t (kReadout r 8) 0) (kReadout r 9) (ceilDiv (lineElems s (cropOf s r).2.2.1) n)
    let slots := (s.capture.slots.drop (firstPicture s r).toNat).take (cfg s (kReadout r 6))
    let todo := slots.map fun x => x.picture
    let t2 := modDma t1 (viewUnit s) (readoutDma r) fun x =>
      { x with mode := .running, desc := none, descAddr := descriptorArea, pos := zeroPos, bytePos := 0, packetElems := 0, packetData := [], cause := 0 }
    let t3 := placeChain t2 r (buildChain s r slots)
    (if todo.isEmpty then t1
     else { t3 with capture := { t3.capture with
       mode := .reading
       readouts := vmod t3.capture.readouts r fun _ => { running := true, todo := todo, flow := readoutFlow s r } } }, none)

/-- Command 1 of 0x2901 + r:07: validated by R304, then sent (R303). -/
def execReadoutStart (k : Client) (r : ReadoutId) (s : State) : Out := .next (serveTrace s k (0x2901 + r.val) (doReadoutStart r))

def doReadoutAbort (r : ReadoutId) (s : State) : Except Abort State := .ok (abortDma s (viewUnit s) (readoutDma r) 1)

/-- Command 2: the readout's channel is aborted with CAUSE 1 (R297). -/
def execReadoutAbort (k : Client) (r : ReadoutId) (s : State) : Out :=
  .next (serveWrite s k (0x2901 + r.val) (doReadoutAbort r))

def doReadoutResume (r : ReadoutId) (s : State) : Except Abort State :=
  let d := readoutDma r
  let able := decide (s.capture.mode = .held ∨ s.capture.mode = .reading) &&
    decide ((dmaAt s (viewUnit s) d).mode = .stopped) && !s.capture.readouts[r].todo.isEmpty
  if able then
    let t := resumeDma s (viewUnit s) d
    .ok { t with capture := { t.capture with
      mode := .reading
      readouts := vmod t.capture.readouts r fun x => { x with running := true } } }
  else .error .presentState

/-- Command 3: a stopped readout goes on from its recorded position (R296). -/
def execReadoutResume (k : Client) (r : ReadoutId) (s : State) : Out :=
  .next (serveWrite s k (0x2901 + r.val) (doReadoutResume r))

/-! ## Line packets (07_sensor_lanes.md R174, R175) -/

/-- A line packet reaches a link: handled as the first applicable row of Table 7-8 states; lines not accepted are missing
when their window closes. The active unit writes an accepted one into the ring (12_translation_dma.md R298). -/
def execLinePacketRx (u : UnitId) (l : LinkId) (p : LinePacket) (s : State) : Out :=
  let x := (s.links.get u).get l
  if x.up then
    let c := classifyLine s l x p
    let q := packetPicture s x p.line (opensPicture p)
    let s0 := noteHeader s u l p
    let s1 : State := { s0 with links := s0.links.mod u fun v => vmod v l (linkAfter c q p) }
    let s2 := if s.relay.active = some u then checkLine (countLine s1 l c) l c p else s1
    match c with
    | .accepted _ =>
      let b := bufferLine s l q p
      .next (ringLine (storeLine s2 u b) u b)
    | _ => .next s2
  else .next s

end Sys2Proof.Machine
end

