-- ==== Sys2Proof/Machine/Groups.lean ====
section
/-! DEFINITION. Shadowed writes and commit groups (02_lap.md R51 to R54). -/

namespace Sys2Proof.Machine

/-- A write is committed to the master copy and to the shadows of the units present (17_dictionary.md R405). -/
def storeValue (s : State) (k v : Nat) : State := commitValue s k v (unitPresent s .a) (unitPresent s .b)

/-- A committed RWS or RWP write counts from now (R51). -/
def countWrite (s : State) (k v : Nat) (perPicture : Bool) : State :=
  let t := storeValue s k v
  { t with dict := { t.dict with counted := t.dict.counted ++ [⟨k, v, s.now, perPicture⟩] } }

/-- Whether a key is an RWP object. -/
def isPerPicture (k : Nat) : Bool :=
  match rowOf (k / 256) (k % 256) with
  | some r => decide (r.acc = .rwp)
  | none => false

/-- Laps per picture, 0x2500:02. -/
def lapsPerPicture (s : State) : Nat := cfg s (key 0x2500 2)

/-- How many ticks ahead a counted write is applied: 1 where it counts at or before the boundary of the next tick, else
2; an RWP write waits from there for tick 0 of a picture (R52). -/
def ticksAhead (s : State) (c : Counted) : Nat :=
  let base := if c.cycle + 64 ≤ s.lap.nextTick then 1 else 2
  if c.perPicture then
    let l := max 1 (lapsPerPicture s)
    base + (l - (s.lap.inPicture + base) % l) % l
  else base

/-- 0x2500:0D: the number 0x2500:0C will read once every counted write has been applied (R54). Where an RWP write waits for a later picture and a later
RWS write is the last counted, R54's two sentences disagree: the model counts the tick of every waiting write (DESIGN CHOICE, log entry 82). -/
def countedGeneration (s : State) : Nat :=
  (s.lap.generation + ((s.dict.counted.map (ticksAhead s)).eraseDups).length) % 2 ^ 32

def doGroupOpen (k : Client) (s : State) : Except Abort State :=
  match s.dict.group with
  | some _ => .error .presentState
  | none => .ok { s with dict := { s.dict with group := some { owner := k, openedAt := s.now, writes := [] } } }

/-- Writing 1 to 0x2500:0F opens a group for the client; an open group refuses it (R53, R54). -/
def execGroupOpen (k : Client) (s : State) : Out := .next (serveWrite s k 0x2500 (doGroupOpen k))

/-- The group of client k. -/
def groupOf (s : State) (k : Client) : Option Group := s.dict.group.bind fun g => if g.owner = k then some g else none

def doGroupCommit (k : Client) (s : State) : Except Abort State :=
  match groupOf s k with
  | some g =>
    let t : State := { s with dict := { s.dict with group := none } }
    .ok (forEach g.writes (fun x w => countWrite x w.1 w.2 (isPerPicture w.1)) t)
  | none => .error .presentState

/-- Writing 2 commits the group: all its writes count from this cycle (R53). -/
def execGroupCommit (k : Client) (s : State) : Out := .next (serveWrite s k 0x2500 (doGroupCommit k))

def doGroupAbandon (k : Client) (s : State) : Except Abort State :=
  match groupOf s k with
  | some _ => .ok { s with dict := { s.dict with group := none } }
  | none => .error .presentState

/-- Writing 3 abandons the group and discards its writes (R53). -/
def execGroupAbandon (k : Client) (s : State) : Out := .next (serveWrite s k 0x2500 (doGroupAbandon k))

/-- A group not committed within 10 s of being opened is abandoned with an EMCY (R54). -/
def execGroupTimeout (s : State) : Out :=
  match s.dict.group with
  | some g =>
    if g.openedAt + 10 * cyclesPerSec ≤ s.now then
      .next (raiseEmcy (setFlag { s with dict := { s.dict with group := none } } (key 0x2500 0x0E) 29) 0x6200
        (key 0x2500 0x0E) 0)
    else .next s
  | none => .next s

/-- An RWS or RWP write of client k: held in its open group, at most 256, else counted now (R51, R53, R54). -/
def shadowWrite (s : State) (k : Client) (ky v : Nat) (perPicture : Bool) : Except Abort State :=
  match groupOf s k with
  | some g =>
    if 256 ≤ g.writes.length then .error .presentState
    else .ok { s with dict := { s.dict with group := some { g with writes := g.writes ++ [(ky, v)] } } }
  | none => .ok (countWrite s ky v perPicture)

/-- At tick T every write that counts from T - 64 or before is applied as one generation, an RWP write only at tick 0 of a
picture; a later one waits and is recorded as straddling (R52, R54). -/
def shadowApply (s : State) (tick : Nat) (pictureStart : Bool) : State :=
  let due := s.dict.counted.filter fun c => decide (c.cycle + 64 ≤ tick) && (!c.perPicture || pictureStart)
  let wait := s.dict.counted.filter fun c => !(decide (c.cycle + 64 ≤ tick) && (!c.perPicture || pictureStart))
  let late := s.dict.counted.filter fun c => decide (tick < c.cycle + 64 ∧ c.cycle < tick) && (!c.perPicture || pictureStart)
  let t := forEach due (fun x c => applyValue x c.key c.val) s
  let t1 : State := { t with
    dict := { t.dict with counted := wait }
    lap := { t.lap with generation := if due.isEmpty then t.lap.generation else (t.lap.generation + 1) % 2 ^ 32 } }
  match late.getLast? with
  | some c => putField (setFlag t1 (key 0x2500 0x0E) 31) (key 0x2500 0x0E) 23 0 c.key
  | none => t1

end Sys2Proof.Machine
end

