-- ==== Sys2Proof/Machine/Starts.lean ====
section
/-! DEFINITION. The checks of a channel start: stream validation (03_streams.md R81), reference windows and DRAM traffic
(04_prediction.md R86 to R92), Pacer validation (05_pacer.md R129), admission (02_lap.md R32 to R36). -/

namespace Sys2Proof.Machine

/-! ## Stream validation (03_streams.md R57 to R73, R81) -/

/-- Channel masks of R64. -/
def goodMask (m : Nat) : Bool := [1, 2, 4, 8, 3, 0xC, 0xF].contains m

def maskBad (s : State) (n : StreamId) : Bool :=
  !goodMask (streamMask s n) || (isProxy s n && decide (gangSize s n ≠ 1))

def crowded (s : State) (n : StreamId) : Bool := (streamChans s n).any fun c => decide (4 < (streamsOn s c).length)

/-- Width in luma samples of each tile column. -/
def tileWidths (s : State) (n : StreamId) : List Nat :=
  (streamChans s n).flatMap fun c =>
    let t := tilesPerChannel s n
    (List.range t).map fun i =>
      let x := (partStart s n c + splitStart (partCols s n c) t i) * ctbSize s n
      min (splitCols (partCols s n c) t i * ctbSize s n) ((codedSize s n).1 - x)

def rowsBad (s : State) (n : StreamId) : Bool :=
  let tiled := isTiled s n
  (!isProxy s n && (streamChans s n).any fun c => decide (8192 < partWidth s n c)) ||
  (tiled && (tileWidths s n).any fun w => decide (w < 256)) ||
  decide (16 < cfg s (kStream n 0x13) * segmentsOf s n tiled)

/-- Format, depth, profile and intra-only setting, and the bound of 04_prediction.md R89 below 0. -/
def formatBad (s : State) (n : StreamId) : Bool :=
  !profilePermits (profileOf s n) (streamChroma s n) (streamDepth s n) (intraOnly s n) ||
  (!intraOnly s n && lapsSet s && decide (lapsOf s < rowStripes s n + 1))

/-- The source region (R70); the vertical extent is not tested while the lap is not configured. R70 states no smallest region: one of width or height 0
breaks it (log entry 57, DESIGN CHOICE). -/
def regionBad (s : State) (n : StreamId) : Bool :=
  let x := cfg s (kStream n 4)
  let y := cfg s (kStream n 5)
  let w := cfg s (kStream n 6)
  let h := cfg s (kStream n 7)
  let c := streamChroma s n
  decide (w = 0 ∨ h = 0 ∨ x % 8 ≠ 0 ∨ y % stripeHeight s ≠ 0 ∨ w % subWidth c ≠ 0 ∨ h % subHeight c ≠ 0 ∨
    inputWidth s < x + w) || (lapsSet s && decide (activeLines s < y + h))

/-- A channel's input window: origin and width (07_sensor_lanes.md R177). -/
def inputWindow (s : State) (c : Chan) : Nat × Nat :=
  (cfg s (kInput (0x0C + c.val)) / 65536, cfg s (kInput (0x0C + c.val)) % 65536)

def holdsColumns (s : State) (c : Chan) (lo hi : Nat) : Bool :=
  decide ((inputWindow s c).1 ≤ lo ∧ hi ≤ (inputWindow s c).1 + (inputWindow s c).2)

/-- The channel that scales block column b: the lowest whose window holds it (R71). -/
def scalerOf (s : State) (n : StreamId) (b : Nat) : Option Chan :=
  let d := scaleOf s n
  let x := cfg s (kStream n 4)
  allChans.find? fun c => holdsColumns s c (x + b * d) (min (x + (b + 1) * d) (x + cfg s (kStream n 6)))

def blockColumns (s : State) (n : StreamId) : Nat := ceilDiv (cfg s (kStream n 6)) (scaleOf s n)

/-- Scaled columns of a channel. -/
def scaledColumns (s : State) (n : StreamId) (c : Chan) : Nat :=
  ((List.range (blockColumns s n)).filter fun b => decide (scalerOf s n b = some c)).length

def proxyBad (s : State) (n : StreamId) : Bool :=
  isProxy s n &&
    (decide (ctbSize s n * scaleOf s n < stripeHeight s ∨ 8192 < (displaySize s n).1 ∨ inputDepth s < streamDepth s n ∨
      (streamChroma s n ≠ inputChroma s ∧ streamChroma s n ≠ 1)) ||
     (List.range (blockColumns s n)).any fun b => (scalerOf s n b).isNone)

/-- What the panels of a group must share (R73). -/
def panelFacts (s : State) (n : StreamId) : List Nat :=
  [streamChroma s n, streamDepth s n, cfg s (kStream n 0x0A), cfg s (kStream n 0x0B), applied s (kStream n 0x0C)]

def sameRate (s : State) (m n : StreamId) : Bool :=
  decide (cfg s (kStream m 0x10) * cfg s (kStream n 0x11) = cfg s (kStream n 0x10) * cfg s (kStream m 0x11))

def regionsMeet (s : State) (m n : StreamId) : Bool :=
  let x := fun (k : StreamId) => cfg s (kStream k 4)
  let y := fun (k : StreamId) => cfg s (kStream k 5)
  decide (x m < x n + cfg s (kStream n 6) ∧ x n < x m + cfg s (kStream m 6) ∧ y m < y n + cfg s (kStream n 7) ∧
    y n < y m + cfg s (kStream m 7))

def panelBad (s : State) (n : StreamId) : Bool :=
  isPanel s n && (decide (cfg s (kStream n 0x1D) = 0) ||
    (panelGroup s n).any fun m => (panelGroup s n).any fun k =>
      decide (m ≠ k) && (regionsMeet s m k || !sameRate s m k || decide (panelFacts s m ≠ panelFacts s k)))

/-- The picture rate differs from TB2's by more than 1,000 ppm; so does a numerator of 0, and with a denominator of 0 as well, where no rate is
stated, the test fails too (log entry 57, DESIGN CHOICE). -/
def rateBad (s : State) (n : StreamId) : Bool :=
  let a := cfg s (kStream n 0x10) * pictureNum s
  let b := cyclesPerSec * pictureDen s * cfg s (kStream n 0x11)
  decide (b < 1000 * (max a b - min a b)) || decide (a = 0)

/-- REASON of 0x3400:1E: the lowest-numbered test a stream fails (R81). -/
def streamReason (s : State) (n : StreamId) : Nat :=
  if maskBad s n then 1
  else if crowded s n then 2
  else if rowsBad s n then 3
  else if formatBad s n then 4
  else if (levelOf s n).isNone then 5
  else if regionBad s n then 6
  else if proxyBad s n then 7
  else if panelBad s n then 8
  else if rateBad s n then 9
  else 0

/-- MODE of Table 3-13. -/
def layoutCode : LayoutMode → Nat
  | .single => 0
  | .slice => 1
  | .stripeTile => 2

/-- The status of a validated stream (R84). -/
def streamStatus (s : State) (n : StreamId) : Nat :=
  let l := (levelOf s n).getD (cfg s (kStream n 0x0F), 0)
  streamReason s n * 2 ^ 28 + profileOf s n % 16 * 2 ^ 24 + l.1 * 2 ^ 16 + l.2 % 32 * 2 ^ 8 + layoutCode (layoutOf s n) * 2 ^ 6

/-- Whether channel c's window lacks columns of its streams: their columns and 8 on either side of each boundary inside
the gang (R70, R177). -/
def windowShort (s : State) (c : Chan) : Bool :=
  (streamsOn s c).any fun n =>
    !isProxy s n &&
      (let x := cfg s (kStream n 4)
       let w := cfg s (kStream n 6)
       let i := gangIndex s n c
       let lo := min w (partX s n c)
       let hi := min w (partX s n c + partWidth s n c)
       decide (lo < hi) && !holdsColumns s c (x + lo - (if 0 < i then 8 else 0))
         (x + hi + if i + 1 < gangSize s n then 8 else 0))

/-- A stream at sensor resolution that breaks 07_sensor_lanes.md R178. -/
def inputMismatch (s : State) (n : StreamId) : Bool :=
  streamEnabled s n && !isProxy s n && decide (streamChroma s n ≠ inputChroma s ∨ inputDepth s < streamDepth s n)

/-! ## Reference windows (04_prediction.md R86 to R90) -/

/-- Effective reaches of a stream, and whether it has a window. -/
structure Reach where
  h : Nat
  v : Nat
  has : Bool
  deriving DecidableEq, Repr

/-- Objects of motion search in a channel's copy (04_prediction.md R106). -/
def kSearch (c : Chan) (n : StreamId) (sub : Nat) : Nat := key (0x3010 + n.val + 0x100 * c.val) sub
def kMap (c : Chan) (n : StreamId) (sub : Nat) : Nat := key (0x3020 + n.val + 0x100 * c.val) sub

/-- The bound of R89, skipped while the lap is not configured. -/
def reachLimit (s : State) (n : StreamId) (v : Nat) : Nat :=
  if lapsSet s then min v ((lapsOf s - rowStripes s n - 1) / rowStripes s n) else v

def reachAsked (s : State) (n : StreamId) : Reach :=
  let c := leadChan s n
  { h := cfg s (kSearch c n 1), v := reachLimit s n (cfg s (kSearch c n 2)), has := !intraOnly s n }

abbrev Plan := Vector Reach 16

def planAsked (s : State) : Plan := Vector.ofFn fun n => reachAsked s n

/-- Columns of a channel's window (R86). -/
def windowWidth (s : State) (n : StreamId) (c : Chan) (h : Nat) : Nat :=
  let x := partX s n c
  min (codedSize s n).1 (x + partWidth s n c + h) - (x - h)

/-- Bytes of one window row of one reference. -/
def windowRow (s : State) (n : StreamId) (c : Chan) (h : Nat) : Nat :=
  ctbSize s n * windowWidth s n c h * chromaHalves (streamChroma s n)

/-- Inter streams of a channel that have a window. -/
def windowed (s : State) (p : Plan) (c : Chan) : List StreamId := (streamsOn s c).filter fun n => p[n].has

def footprint (s : State) (p : Plan) (c : Chan) : Nat :=
  ((windowed s p c).map fun n => refCount s n * (2 * p[n].v + 2) * windowRow s n c p[n].h).sum

/-- Candidates of R90: the inter streams of a channel whose footprint exceeds 16 MiB. -/
def candidates (s : State) (p : Plan) : List StreamId :=
  allStreams.filter fun n => allChans.any fun c => decide (16777216 < footprint s p c) && (windowed s p c).contains n

/-- The element with the largest value, the first on a tie. -/
def largest (f : StreamId → Nat) : List StreamId → Option StreamId
  | [] => none
  | n :: t =>
    match largest f t with
    | some m => if f n < f m then some m else some n
    | none => some n

/-- One step of the reduction; none where every channel fits. -/
def reduceStep (s : State) (p : Plan) : Option Plan :=
  let cs := candidates s p
  match largest (fun n => p[n].h) (cs.filter fun n => decide (16 < p[n].h)) with
  | some n => some (vmod p n fun r => { r with h := max 16 (r.h - 8) })
  | none =>
    match largest (fun n => p[n].v) (cs.filter fun n => decide (0 < p[n].v)) with
    | some n => some (vmod p n fun r => { r with v := r.v - 1 })
    | none =>
      match cs.getLast? with
      | some n => some (vmod p n fun r => { r with has := false })
      | none => none

/-- Steps until every channel fits; each stream takes at most 126 + 4 + 1 of them. -/
def reduceGo (s : State) : Nat → Plan → Plan
  | 0, p => p
  | k + 1, p =>
    match reduceStep s p with
    | some q => reduceGo s k q
    | none => p

def windowPlan (s : State) : Plan := reduceGo s 2200 (planAsked s)

/-- 0x3010:09 of a stream (Table 4-9). -/
def searchStatus (s : State) (n : StreamId) (r : Reach) : Nat :=
  let a := reachAsked s n
  if intraOnly s n then 0
  else (if r.h < a.h ∨ r.v < a.v then 2 ^ 31 else 0) + (if r.has then 0 else 2 ^ 30) +
    if a.v < cfg s (kSearch (leadChan s n) n 2) then 2 ^ 29 else 0

/-! ## DRAM traffic (04_prediction.md R88, R92) -/

/-- Laps, taken modulo the picture, with their bytes. -/
abbrev Traffic := List (Nat × Nat)

def motionBytes (s : State) (n : StreamId) (c : Chan) : Nat :=
  if intraOnly s n then 0 else ceilDiv (partWidth s n c) 16 * ceilDiv (ctbSize s n) 16 * 8

/-- The laps that fetch the window row r of a stream: lap stripe - v, or the m laps before the coding lap of proxy row
r - v; the rows ahead of the picture are fetched at the end of the picture before (R88). -/
def fetchLaps (s : State) (n : StreamId) (v r : Nat) : List Nat :=
  let l := lapsOf s
  let m := rowStripes s n
  if isProxy s n then
    let first := if v ≤ r then l + stripeOfRow s n (r - v) + 1 - m else l - m * (v - r)
    (List.range m).map fun i => first + i
  else [l + firstStripe s n + r - v]

/-- Every item of Table 4-1 for a stream on a channel. -/
def streamTraffic (s : State) (p : Plan) (n : StreamId) (c : Chan) : Traffic :=
  let rows := List.range (ctbRows s n)
  let r := p[n]
  let row := if r.has then ceilDiv (refCount s n * windowRow s n c r.h) (rowStripes s n) else 0
  let recon := partWidth s n c * ctbSize s n * chromaHalves (streamChroma s n)
  let code := fun (k : Nat) => stripeOfRow s n k + 1
  (if 0 < row then rows.flatMap fun k => (fetchLaps s n r.v k).flatMap fun j => [(j, row), (j + 1, row)] else []) ++
  rows.flatMap (fun k => [(code k, recon + 2 * motionBytes s n c), (code k + 1, motionBytes s n c)]) ++
  (if isProxy s n then rows.map fun k => (code k, (codedSize s n).1 * ctbSize s n * chromaHalves (streamChroma s n)) else [])

/-- The scaler's writes of a proxy in each arrival lap. -/
def scalerTraffic (s : State) (n : StreamId) (c : Chan) : Traffic :=
  let bytes := stripeHeight s / scaleOf s n * scaledColumns s n c * chromaHalves (streamChroma s n)
  (List.range (lastStripe s n + 1 - firstStripe s n)).map fun i => (firstStripe s n + i, bytes)

def channelTraffic (s : State) (p : Plan) (c : Chan) : Traffic :=
  (streamsOn s c).flatMap (fun n => streamTraffic s p n c) ++
  ((enabledStreams s).filter (isProxy s)).flatMap fun n => scalerTraffic s n c

/-- Bytes of the largest lap. -/
def trafficPeak (s : State) (p : Plan) (c : Chan) : Nat :=
  let t := (channelTraffic s p c).map fun x => (x.1 % lapsOf s, x.2)
  ((List.range (lapsOf s)).map fun j => ((t.filter fun x => decide (x.1 = j)).map Prod.snd).sum).foldl max 0

/-- 0x3001 of every channel (R90, R92). -/
def reportTraffic (s : State) (p : Plan) : State :=
  forEach allChans (fun x c =>
    let b := trafficPeak x p c
    regPut (regPut (regPut x (kChan c 0x3001 1) (footprint x p c)) (kChan c 0x3001 2) b) (kChan c 0x3001 3)
      (ceilDiv (b * 1500) (max 1 (lapMin x)))) s

/-! ## Latching a stream's layout and reach (03_streams.md R84) -/

def latchStream (s : State) (p : Plan) (n : StreamId) : State :=
  let l := (levelOf s n).getD (0, 1)
  let r := p[n]
  let mode := layoutOf s n
  let prof := profileOf s n
  { s with streams := vmod s.streams n fun x => { x with
      mode := mode
      level := l.1
      profile := prof
      q := l.2
      search := { x.search with reachH := r.h, reachV := r.v, hasWindow := r.has } } }

/-! ## Pacer validation (05_pacer.md R110, R129) -/

/-- The head of the first IRAP picture after a start. -/
def firstHead (e0 : Option Nat) (hash : Bool) : PictureHead :=
  { irap := true, intra := true, hash := hash, sinceBp := 0, e0 := e0, newPps := false, tod := 0, frames := 0 }

/-- Whether R × the shortest gap of some decoding unit of the largest floor cost lies below that cost. Of the gaps before and after the unit's release
the shorter one counts (log entry 58, DESIGN CHOICE). -/
def floorShort (s : State) (n : StreamId) : Bool :=
  let costs := (List.range (ctbRows s n)).map fun r => (r, floorCost s n r (firstHead none ((streamOptions s n).testBit 3)))
  let top := (costs.map Prod.snd).foldl max 0
  costs.any fun x => decide (x.2 = top) &&
    decide (signalledRate s n * min (gapBefore s n x.1) (gapAfter s n x.1) * lapMin s < top * cyclesPerSec)

/-- The space of reason 4. -/
def automaticSpace (s : State) (n : StreamId) : Nat :=
  ceilDiv (2 * modelLimit s n * cyclesPerSec + 2 * signalledRate s n * lapMax s) (8 * cyclesPerSec)

/-- REASON of 0x3800:12. -/
def pacerReason (s : State) (n : StreamId) : Nat :=
  let r := signalledRate s n
  let space := cfg s (kPacer n 0x0D)
  let avg := decide (cfg s (kPacer n 1) = 1) && decide (r < applied s (kPacer n 4))
  if r = 0 ∨ signalledCpb s n = 0 ∨ delayNum s n ≤ 0 then 1
  else if lapsSet s && floorShort s n then 2
  else if lapsSet s ∧ modelLimit s n * cyclesPerSec < 4 * r * lapMax s then 3
  else if lapsSet s ∧ space ≠ 0 ∧ space < automaticSpace s n then 4
  else if lapsSet s ∧ (auScale s n).isNone then 5
  else if avg then 6
  else 0

/-- The Pacer takes its signalled values (R110) and starts afresh (Table 5-4). -/
def latchPacer (s : State) (n : StreamId) : State :=
  let r := signalledRate s n
  let b := signalledCpb s n
  let u := modelLimit s n
  let au := signalledAuCpb s n
  let t : State := { s with streams := vmod s.streams n fun x => { x with
      pacer := { pacerReset with rate := r, cpb := b, cpbAu := au, limit := u } } }
  let t1 := regPut (regPut (regPut (regPut t (kPacer n 0x0E) r) (kPacer n 0x0F) b) (kPacer n 0x10) u) (kPacer n 0x16) au
  regPut (clearFlag (clearFlag t1 (kPacer n 0x12) 27) (kPacer n 0x12) 24) (kPacer n 0x11) 0

/-! ## Admission (02_lap.md R32, R35, R36) -/

/-- Words of a stream's part of row r. -/
def partWords (s : State) (n : StreamId) (c : Chan) (r : Nat) : Nat := ceilDiv (partSamples s n c r) 8

/-- What a channel codes in lap j: words, tiles, streams (R35, R67, R72). -/
def lapWork (s : State) (c : Chan) (j : Nat) : Nat × Nat × Nat :=
  ((streamsOn s c).filterMap fun n => (rowAt s n ((j + lapsOf s - 1) % lapsOf s)).map fun r =>
    (partWords s n c r, segmentsOf s n (isTiled s n))).foldl (fun a x => (a.1 + x.1, a.2.1 + x.2, a.2.2 + 1)) (0, 0, 0)

/-- D of lap j; nothing is demanded of a lap without work. -/
def lapDemand (s : State) (c : Chan) (j : Nat) : Nat :=
  let w := lapWork s c j
  if w.2.2 = 0 then 0 else w.1 + 96 + 24 * w.2.1 + 40 * w.2.2

def demand (s : State) (c : Chan) : Nat := ((List.range (lapsOf s)).map (lapDemand s c)).foldl max 0

/-- The DRAM reserve and the planned capacity C. -/
def dramReserve (s : State) : Nat := ceilDiv (lapMin s) 16
def capacity (s : State) : Nat := lapMin s - 64 - dramReserve s

/-- The configuration's DRAM in bytes: a slot for each reference and the reconstruction at 2 bytes per sample with its
motion field, two proxy rows, the ring, and the areas of 11_dram.md Table 11-5 (log entry 36). -/
def streamDram (s : State) (n : StreamId) : Nat :=
  let z := codedSize s n
  let c := chromaHalves (streamChroma s n)
  let motion := if intraOnly s n then 0 else ceilDiv z.1 16 * ceilDiv z.2 16 * 8
  (refCount s n + 1) * (z.1 * z.2 * c + motion) + if isProxy s n then 2 * z.1 * ctbSize s n * c else 0

def dramNeed (s : State) : Nat := ((enabledStreams s).map (streamDram s)).sum + (cfg s (kCapture 1) + 321) * 1048576

/-- Both ends of the lap's range against R32, with the nominal lap as lapNum / lapDen cycles. -/
def lapTooShort (s : State) : Bool := decide (lapNum s * (1000000 - lapPpm s) < 1024 * lapDen s * 1000000)
def lapTooLong (s : State) : Bool := decide (16777215 * lapDen s * 1000000 < lapNum s * (1000000 + lapPpm s))

/-- 0x2203:05 is not below the TB2 period (10_time.md R247). -/
def phaseTooLarge (s : State) : Bool :=
  !pulled s && decide (pictureNum s * 1000000000 ≤ cfg s (key 0x2203 5) * pictureDen s * cyclesPerSec)

/-- 0x2500:10 (Table 2-10). -/
def admission (s : State) : Nat :=
  if ¬ lapsSet s then 5 * 2 ^ 28
  else if lapTooShort s then 1 * 2 ^ 28
  else if lapTooLong s then 2 * 2 ^ 28
  else if lapsOf s < activeStripes s then 4 * 2 ^ 28
  else if phaseTooLarge s then 7 * 2 ^ 28
  else
    match allChans.find? fun c => decide (capacity s < demand s c) with
    | some c => 3 * 2 ^ 28 + unitBit s * 2 ^ 27 + c.val * 2 ^ 24 + min 0xFFFFFF (demand s c - capacity s)
    | none =>
      if usableBytes < dramNeed s then 6 * 2 ^ 28 + min 0xFFFFFF (ceilDiv (dramNeed s - usableBytes) 1048576) else 0

end Sys2Proof.Machine
end

