-- ==== Sys2Proof/Machine/Pictures.lean ====
section
/-! DEFINITION. What happens at the first lap of a picture: the IRAP decision and the picture's numbers (03_streams.md R60, R61,
R80, R184), QP maps (04_prediction.md R101), global vectors and rectangles (R94, R102, R105), the rebuild (13_relay.md
R324). -/

namespace Sys2Proof.Machine

def modStream (s : State) (n : StreamId) (f : Stream → Stream) : State := { s with streams := vmod s.streams n f }

def modPacer (s : State) (n : StreamId) (f : PacerState → PacerState) : State :=
  modStream s n fun x => { x with pacer := f x.pacer }

def modMap (s : State) (n : StreamId) (f : MapState → MapState) : State := modStream s n fun x => { x with map := f x.map }

def modChan (s : State) (c : Chan) (f : Channel → Channel) : State := { s with chans := vmod s.chans c f }

def modFlow (s : State) (f : FlowId) (g : Flow → Flow) : State := { s with flows := vmod s.flows f g }

def activeStreams (s : State) : List StreamId := allStreams.filter fun n => s.streams[n].active

/-! ## QP maps (04_prediction.md R100, R101) -/

/-- The map size follows the written geometry: it is recomputed at each acknowledged write (R101). -/
def mapSize (s : State) (n : StreamId) : Nat := ctbCols (asWritten s) n * ctbRows (asWritten s) n

/-- The lead channel of the mask that a client wrote. -/
def writtenLead (s : State) (n : StreamId) : Chan := leadChan (asWritten s) n

/-- 0x3020:06. -/
def mapCode : MapMode → Nat
  | .none => 0
  | .loading => 1
  | .commitPending => 2
  | .inUse => 3

/-- The map objects of the lead channel's copy follow the map; the other copies read 0 (R106; their map size, for which R106 gives no value, too: log
entry 57, DESIGN CHOICE). -/
def reportMap (s : State) (n : StreamId) : State :=
  let m := s.streams[n].map
  let lead := writtenLead s n
  forEach allChans (fun x c =>
    let on := decide (c = lead)
    let y := regPut x (kMap c n 3) (if on then m.size else 0)
    let z := regPut y (kMap c n 5) (if on then m.back.length else 0)
    regPut z (kMap c n 6) (if on then mapCode m.mode else 0)) s

/-- The map size is recomputed; a change after a commit discards the committed map and the back map (R101). -/
def settleMapSize (s : State) (n : StreamId) : State :=
  let size := mapSize s n
  let m := s.streams[n].map
  let lost := decide (m.size ≠ size) && (decide (m.mode = .commitPending) || m.front.isSome)
  reportMap (modMap s n fun m =>
    if lost then { mapReset with size := size } else { m with size := size }) n

/-- Front and back map change places (R101). -/
def exchangeMap (m : MapState) : MapState :=
  if m.mode = .commitPending then
    { m with mode := .inUse, front := some m.back, back := if m.dropBack then [] else m.front.getD [], dropBack := false }
  else m

/-! ## The picture's numbers -/

/-- A picture of the stream is to be an IRAP picture: the first after a start or a drop, the one whose count since the last IRAP equals the IRAP
period, or a PicOrderCntVal beyond 0x3FFF_FFFF (R61, R184). -/
def wantsIrap (s : State) (n : StreamId) : Bool :=
  let x := s.streams[n]
  let period := applied s (kStream n 0x0C)
  x.firstPicture || x.forceIrap || decide (period = x.sinceIrap + 1) ||
    decide (0x3FFFFFFF < x.pic.poc + 1)

/-- The panels of a group have the same IRAP pictures (R61). -/
def irapDecision (s : State) (n : StreamId) : Bool :=
  wantsIrap s n || (isPanel s n && (panelGroup s n).any fun m => s.streams[m].active && wantsIrap s m)

/-- The rebuild moves on at tick 0: hand-over picture, intra picture, none (13_relay.md R324). -/
def rebuildNext (r : Fin 3) : Fin 3 := if r = 1 then 2 else 0

/-- The picture of tick 0 opens for a stream. -/
def beginPicture (s : State) (n : StreamId) (irap : Bool) : State :=
  let live := !s.lap.dropped
  let options := applied s (kStream n 0x1C)
  let onlyI := intraOnly s n
  let t := modStream s n fun x =>
    let rebuild := rebuildNext x.pacer.rebuild
    let since := if x.pic.live then (if x.pic.irap then 1 else x.pic.sinceBp + 1) else x.pic.sinceBp
    { x with
      pacer := { x.pacer with rebuild := rebuild }
      pic := { number := s.lap.picture
               poc := if irap then 0 else x.pic.poc + 1
               irap := irap
               timestamp := rtpStamp s.lap.captureTb0
               tod := s.lap.captureTod
               frames := frameInSecond s s.lap.captureTb0
               live := live
               newPps := x.ppsPending && !irap
               sinceBp := since
               e0 := none
               tmvp := !onlyI && !irap && decide (rebuild = 0)
               intra := irap || onlyI || decide (rebuild ≠ 0)
               opened := false
               hash := options.testBit 3
               starved := false
               sao := decide (applied s (kStream n 0x19) = 1)
               refs := if irap || onlyI then 0
                 else if x.pic.irap || decide (x.pacer.rebuild ≠ 0) then 1 else refCount s n }
      sinceIrap := if irap then 0 else x.sinceIrap + 1
      firstPicture := x.firstPicture && !live
      forceIrap := !live
      ppsPending := x.ppsPending && !live }
  putFlag t (kPacer n 0x12) 27 (decide (t.streams[n].pacer.rebuild ≠ 0))

/-- A picture already opened becomes an IRAP picture before any stripe of it is coded. -/
def makeIrap (s : State) (n : StreamId) : State :=
  modStream s n fun x => { x with
    sinceIrap := 0
    pic := { x.pic with poc := 0, irap := true, intra := true, tmvp := false, newPps := false, refs := 0 } }

/-! ## Global vectors and rectangles -/

def mvWord (m : Mv) : Nat := ((m.x % 65536).toNat) * 65536 + (m.y % 65536).toNat

/-- 0x3010:07: the first global vector in use, or the preset in effect (Table 4-8). -/
def reportGlobal (s : State) (n : StreamId) : State :=
  let c := writtenLead s n
  let x := s.streams[n].search
  let preset := applied s (kSearch c n 5)
  let v := match x.globalA with
    | some m => if applied s (kSearch c n 6) = 1 ∧ s.streams[n].active then mvWord m else preset
    | none => preset
  regPut s (kSearch c n 7) v

/-- Estimates come into use with the picture they are for (R94). -/
def useGlobals (picture : Nat) (x : SearchState) : SearchState :=
  match (x.pending.filter fun p => decide (p.1 ≤ picture)).getLast? with
  | some p => { x with globalA := p.2.1, globalB := p.2.2, pending := x.pending.filter fun q => decide (picture < q.1) }
  | none => x

def kRect (c : Chan) (r : RectId) (sub : Nat) : Nat := key (0x3040 + r.val + 0x100 * c.val) sub

def allRects : List RectId := (List.range 16).map (finOf 16 (by decide))

/-- The stream of a rectangle, where this channel leads it (R102). -/
def rectStream (s : State) (c : Chan) (r : RectId) : Option StreamId :=
  let n : StreamId := finOf 16 (by decide) (applied s (kRect c r 2))
  if streamEnabled s n ∧ leadChan s n = c then some n else none

def writtenPos (s : State) (c : Chan) (r : RectId) : Mv :=
  let w := applied s (kRect c r 3)
  ⟨(w / 65536 : Nat), (w % 65536 : Nat)⟩

/-- A whole number of samples, clipped to the picture. -/
def clipPos (lim : Nat) (v : Int) : Int := max 0 (min ((lim : Int) - 1) v)

/-- A quarter-sample value rounded to whole samples, half away from zero (00_scope.md R6). -/
def wholeSamples (v : Int) : Int := if 0 ≤ v then (v + 2) / 4 else -((-v + 2) / 4)

/-- A rectangle at the first lap of a picture: returned to its written position by a write of the position or by its
enabling, else moved by minus a due displacement (R105). -/
def openRect (s : State) (c : Chan) (r : RectId) (reset : Bool) : State :=
  let pic := (rectStream s c r).map fun n => codedSize s n
  let size := applied s (kRect c r 4)
  let shift := fun (x : Rect) (d : Mv) => match pic with
    | some z => { x with pos := ⟨clipPos z.1 (x.pos.x - wholeSamples d.x), clipPos z.2 (x.pos.y - wholeSamples d.y)⟩ }
    | none => x
  let move := fun (x : Rect) =>
    if reset then { pos := writtenPos s c r, displacement := ⟨0, 0⟩, moves := [] }
    else
      ((x.moves.filter fun m => decide (m.1 ≤ s.lap.picture)).map Prod.snd).foldl shift
        { x with moves := x.moves.filter fun m => decide (s.lap.picture < m.1) }
  let t : State := { s with rois := vmod s.rois c fun v => vmod v r move }
  let pos := ((t.rois.get c).get r).pos
  let clipped := match pic with
    | some z => decide ((z.1 : Int) < pos.x + (size / 65536 : Nat) ∨ (z.2 : Int) < pos.y + (size % 65536 : Nat))
    | none => false
  regPut (regPut t (kRect c r 8) (mvWord pos)) (kRect c r 9) ((if pic.isNone then 2 else 0) + if clipped then 1 else 0)

/-- Rectangles at tick 0; `keys` are the objects applied there with the values before. -/
def openRects (s : State) (keys : List (Nat × Nat)) : State :=
  forEach allChans (fun x c => forEach allRects (fun y r =>
    let reset := keys.any fun k => decide (k.1 = kRect c r 3) ||
      (decide (k.1 = kRect c r 1 ∧ k.2 = 0) && decide (applied y (kRect c r 1) = 1))
    openRect y c r reset) x) s

/-- A channel of the stream stops with the picture that has ended (R82). -/
def streamStops (s : State) (n : StreamId) : Bool :=
  (streamChans s n).any fun c => decide ((s.chans.get c).mode ≠ .running)

/-- No picture is in progress any more. -/
def endPicture (s : State) (n : StreamId) : State := modStream s n fun x => { x with pic := { x.pic with live := false } }

/-- Tick 0 of a picture for every stream that runs: the IRAP decision, maps, global vectors; the maps of a stream whose channels are starting change
places too (R101). -/
def openPictures (s : State) : State :=
  let ns := (activeStreams s).filter fun n => !streamStops s n
  let want := ns.map fun n => (n, irapDecision s n)
  let t0 := forEach ((activeStreams s).filter (streamStops s)) endPicture s
  let t := forEach want (fun x w => beginPicture x w.1 w.2) t0
  let ready := fun (n : StreamId) => decide (s.streams[n].map.commitAt + 64 ≤ s.lap.lastTick)
  let begun := allStreams.filter fun n => (streamChans s n).any fun c => decide ((s.chans.get c).mode = .starting)
  let t1 := forEach ((ns ++ begun.filter fun n => !ns.contains n).filter ready) (fun x n => reportMap (modMap x n exchangeMap) n) t
  forEach allStreams (fun x n =>
    reportGlobal (modStream x n fun y => { y with search := useGlobals s.lap.picture y.search }) n) t1

/-- The picture a stream was to code is dropped at tick 1: no access unit, and the next one is an IRAP picture (R183, R184). -/
def dropPicture (x : Stream) : Stream := { x with forceIrap := true, pic := { x.pic with live := false } }

end Sys2Proof.Machine
end

