-- ==== Sys2Proof/Machine/Runs.lean ====
section
/-! DEFINITION. Run control of the channels (03_streams.md R81 to R85), QP map loading (04_prediction.md R101), the
verification enable (06_decoders.md R138). -/

namespace Sys2Proof.Machine

/-! ## Channel state (Table 3-14) -/

def chanCode : ChanMode → Nat
  | .stopped => 0
  | .starting => 1
  | .running => 2
  | .stopping => 3
  | .refused => 4

def setMode (s : State) (c : Chan) (m : ChanMode) : State :=
  regPut (modChan s c fun x => { x with mode := m }) (kChan c 0x3000 2) (chanCode m)

/-! ## Values that take effect at a channel start (R80, R83) -/

/-- The stream of an index that waits for its channels, where it is one. -/
def waitStream (i : Nat) : StreamId := finOf 16 (by decide) (i % 16)

/-- Whether the start of channel c takes a key: the objects of the streams that include or included it, of every flow, and of the module
where no channel is busy. -/
def takesKey (s : State) (c : Chan) (k : Nat) : Bool :=
  let i := k / 256
  if streamWaits i then (written s (kStream (waitStream i) 3)).testBit c.val || (streamMask s (waitStream i)).testBit c.val
  else flowWaits i (k % 256) || !anyChannelBusy s

/-- The written values that a start of channel c takes. -/
def takenValues (s : State) (c : Chan) : Store :=
  (s.dict.master.filter fun e => takesKey s c e.1 && waitsForStart (e.1 / 256) (e.1 % 256)).foldl
    (fun st e => assocPut defaultOf st e.1 e.2) (s.dict.inUse.filter fun e => !takesKey s c e.1)

/-- A start of channel c takes the written values; a stream that has left the channel for others rests until these start. -/
def takeValues (s : State) (c : Chan) : State :=
  let t : State := { s with dict := { s.dict with inUse := takenValues s c } }
  forEach (allStreams.filter fun n => (streamMask s n).testBit c.val && !(written s (kStream n 3)).testBit c.val) (fun x n =>
    { x with dict := { x.dict with inUse := assocPut defaultOf x.dict.inUse (kStream n 1) 0 } }) t

/-- Whether two states differ in the module-wide values in effect. -/
def newConfiguration (s t : State) : Bool :=
  decide ((s.dict.inUse.filter fun e => moduleWaits (e.1 / 256) (e.1 % 256)) ≠ t.dict.inUse.filter fun e => moduleWaits (e.1 / 256) (e.1 % 256))

/-- A new module-wide configuration ends the pictures of the old one: those of the new one begin at the next TB2 picture start
after the next tick, and the phase is measured afresh; lanes of links newly enabled leave DISABLED, those no longer used enter it (07_sensor_lanes.md
R165; log entry 56, DESIGN CHOICE). With TB0 as TB1's source nothing is locked to GENLOCK_IN (10_time.md R245). -/
def settleConfiguration (s : State) : State :=
  let genlock := decide (cfg s (key 0x2203 1) = 1)
  settleLanes { s with
    lap := { s.lap with
      period := 0, inPicture := 0, pictureLen := 0, dropped := false, dropNext := false, droppedLast := false, stretch := 0, shift := false }
    phase := { s.phase with settled := 0, firstStep := false, measured := false, arrival := none, linkOf := none, ahead := none, carry := 0 }
    time := { s.time with
      genLocked := s.time.genLocked && genlock
      genEdges := if genlock then s.time.genEdges else 0
      genMisses := if genlock then s.time.genMisses else 0
      genExpected := if genlock then s.time.genExpected else none } }

/-! ## Start (R81, R82) -/

/-- The Pacers as the start leaves them, whose figures size the streams' queues (09_flows.md R218). -/
def plannedPacers (s : State) (ns : List StreamId) : State :=
  forEach (allStreams.filter fun n => ns.contains n || (streamEnabled s n && !s.streams[n].active)) latchPacer s

/-- The checks in the order of 02_lap.md R36, with what each reports; whether all passed. -/
def startChecks (s : State) (c : Chan) : State × Bool :=
  let r := inputCheck s (windowShort s) (inputMismatch s)
  let s1 := reportInput s r
  let ns := streamsOn s c
  let s2 := forEach ns (fun x n => regPut x (kStream n 0x1E) (streamStatus s n)) s1
  let plan := windowPlan s
  let latched := forEach ns (fun x n => latchStream x plan n) s2
  let s3 := forEach ns (fun x n => putField x (kPacer n 0x12) 31 28 (pacerReason latched n)) s2
  let failure := flowFailure (plannedPacers latched ns)
  let s4 := reportFlows s3 failure
  let a := admission s
  if r ≠ 0 then (s1, false)
  else if ns.any fun n => decide (streamReason s n ≠ 0) then (s2, false)
  else if ns.any fun n => decide (pacerReason latched n ≠ 0) then (s3, false)
  else if failure.isSome then (s4, false)
  else (regPut s4 (key 0x2500 0x10) a, decide (a = 0))

/-- A stream's coding state at a start (Tables 4-5 and 5-4). -/
def freshStream (x : Stream) : Stream :=
  { x with
    active := false
    pic := pictureReset
    sinceIrap := 0
    firstPicture := true
    forceIrap := false
    ppsPending := false
    coding := none
    flight := []
    recent := []
    supersede := []
    voidHash := []
    scaled := []
    ownFrom := none
    shownFrom := 0
    map := exchangeMap x.map
    search := { searchReset with reachH := x.search.reachH, reachV := x.search.reachV, hasWindow := x.search.hasWindow } }

def startStream (s : State) (p : Plan) (n : StreamId) : State :=
  let c := leadChan s n
  let status := searchStatus s n p[n]
  let s1 := modStream (latchPacer s n) n freshStream
  let mv := mvLengths s1 n
  let s2 := regPut (regPut s1 (kSearch c n 3) p[n].h) (kSearch c n 4) p[n].v
  let s3 := regPut (regPut s2 (kSearch c n 8) (mv.1 * 256 + mv.2)) (kSearch c n 9) status
  settleMapSize (reportGlobal s3 n) n

/-- Which stream a flow carries from this start on (09_flows.md R226): a new carrying begins with a count of zero. -/
def carryFlow (s : State) (c : Chan) (f : FlowId) : State :=
  let w := cfg s (kFlow f 2)
  let n : StreamId := finOf 16 (by decide) w
  let named := isTimed f && decide (w < 16) && streamEnabled s n && decide (applied s (kFlow f 1) = 1)
  if named then
    modFlow s f fun x => { x with
      carries := some n
      lapsed := false
      tokens := if x.carries = some n ∧ ¬ carries s c n then x.tokens else 0 }
  else modFlow s f fun x => { x with lapsed := x.carries.isSome }

/-- The packet counts begin at 0x4000:1E at the first start after module reset (08_network.md R203). -/
def startCount (s : State) (f : FlowId) : State :=
  modFlow s f fun x => if x.started then x else { x with started := true, packets := cfg s (kFlow f 0x1E) }

/-- 0x3000:03 and 0x3000:04 of a channel. -/
def reportCarried (s : State) (c : Chan) : State :=
  let ns := streamsOn s c
  let gangs := ns.filter fun n => decide (1 < gangSize s n)
  let lead := gangs.any fun n => decide (leadChan s n = c)
  let member := gangs.any fun n => decide (leadChan s n ≠ c)
  let role := (if lead then 1 else 0) + if member then 2 else 0
  regPut (regPut s (kChan c 0x3000 3) ((ns.map fun n => 2 ^ n.val).sum)) (kChan c 0x3000 4) role

/-- A channel's ladder at a start: L0 and factory estimates (Table 4-5). -/
def freshLadder (x : Channel) : Channel := { x with level := 0, costs := .replicate 5 (.replicate 5 0), slack := 0 }

/-- The rectangles of a channel return to their written positions (Table 4-5). -/
def freshRects (s : State) (c : Chan) : State := forEach allRects (fun x r => openRect x c r true) s

/-- An admitted channel waits for its first picture: state "starting". -/
def beginStart (s : State) (c : Chan) (loads : List AtuLoad) : State :=
  let ns := streamsOn s c
  let p := windowPlan s
  let s1 := reportTraffic (forEach ns (fun x n => latchStream x p n) s) p
  let s2 := forEach ns (fun x n => startStream x p n) s1
  let s3 := forEach allFlows startCount (forEach (allFlows.take 16) (fun x f => carryFlow x c f) s2)
  let s4 := forEach allChans reportCarried s3
  let s5 := freshRects (modChan s4 c freshLadder) c
  let s6 := beginWatch (ringConfigure (reportClass3 s5 (slicesPerStripe s5))) 1
  setMode (modChan (loadContexts s6 loads) c fun x => { x with startedAt := s.now }) c .starting

/-- Writing 1 to run control: the values that wait for a channel start are checked, and take effect where the start is admitted. A channel that starts or runs is left as it is; one that is stopping, or a module without an
active unit, cannot start (log entry 35). -/
def doChannelStart (c : Chan) (loads : List AtuLoad) (s : State) : State × Option Abort :=
  match (s.chans.get c).mode, s.relay.active with
  | .starting, _ => (s, none)
  | .running, _ => (s, none)
  | .stopping, _ => (s, some .presentState)
  | _, none => (s, some .presentState)
  | _, some _ =>
    let t := takeValues (storeValue s (kChan c 0x3000 1) 1) c
    let r := startChecks t c
    if r.2 then (beginStart (if newConfiguration s t then settleConfiguration r.1 else r.1) c loads, none)
    else (setMode { r.1 with dict := { r.1.dict with inUse := s.dict.inUse } } c .refused, none)

def execChannelStart (k : Client) (c : Chan) (loads : List AtuLoad) (s : State) : Out :=
  .next (serveTrace s k (0x3000 + 0x100 * c.val) (doChannelStart c loads))

/-! ## Begin and stop (R82) -/

/-- The TB2 phase has settled, where TB2 is pulled (07_sensor_lanes.md R182). -/
def phaseSettled (s : State) : Bool := !pulled s || decide (4 ≤ s.phase.settled)

/-- Lap 0 of a picture is in progress. -/
def inFirstLap (s : State) : Bool := decide (s.lap.inPicture = 0 ∧ 0 < s.lap.period)

/-- Every channel of the stream runs. -/
def gangRuns (s : State) (n : StreamId) : Bool :=
  (streamChans s n).all fun c => decide ((s.chans.get c).mode = .running)

/-- A stream begins with the picture that has just started; the panels of its group take the same IRAP picture (R61). -/
def beginStream (s : State) (n : StreamId) : State :=
  let t := beginPicture (modStream s n fun x => { x with active := true }) n true
  forEach ((panelGroup t n).filter fun m => isPanel t n && decide (m ≠ n) && t.streams[m].active) makeIrap t

/-- The first TB2 picture start after the admission: starting channels run, and streams whose whole gang runs begin. -/
def execChannelBegin (s : State) : Out :=
  if inFirstLap s ∧ ¬ s.lap.dropped ∧ phaseSettled s ∧ s.relay.active.isSome then
    let cs := allChans.filter fun c => decide ((s.chans.get c).mode = .starting ∧ (s.chans.get c).startedAt < s.lap.lastTick)
    let t := forEach cs (fun x c => setMode x c .running) s
    .next (forEach ((enabledStreams t).filter fun n => !t.streams[n].active && gangRuns t n) beginStream t)
  else .next s

/-- The channels that share a gang with a channel, directly or through another gang. -/
def gangOf (s : State) (c : Chan) : List Chan :=
  let grow := fun (l : List Chan) => allChans.filter fun d => l.contains d ||
    (enabledStreams s).any fun n => carries s d n && l.any fun e => carries s e n
  grow (grow (grow [c]))

/-- Writing 0 stops a channel's gang at the end of the picture in progress; a channel that has not begun stops at once, and a refused one reads
stopped. The run control objects of the gang's other channels keep what was written to them (log entry 56, DESIGN CHOICE). -/
def stopChannel (s : State) (c : Chan) : State :=
  match (s.chans.get c).mode with
  | .running => setMode s c .stopping
  | .starting => setMode s c .stopped
  | .refused => setMode s c .stopped
  | _ => s

def doChannelStop (c : Chan) (s : State) : Except Abort State :=
  .ok (forEach (gangOf s c) stopChannel (storeValue s (kChan c 0x3000 1) 0))

def execChannelStop (k : Client) (c : Chan) (s : State) : Out :=
  .next (serveWrite s k (0x3000 + 0x100 * c.val) (doChannelStop c))

/-- Every stripe of the last picture of the channel's streams is coded, verified and released. -/
def channelDone (s : State) (c : Chan) : Bool :=
  (streamsOn s c).all fun n =>
    !s.streams[n].active || (!s.streams[n].pic.live && s.streams[n].coding.isNone && s.streams[n].flight.isEmpty)

/-- After the last verdict the state reads stopped; the last channel to stop ends capture (12_translation_dma.md Table 12-6). -/
def execChannelStopped (c : Chan) (s : State) : Out :=
  if (s.chans.get c).mode = .stopping ∧ channelDone s c then
    let t := forEach (streamsOn s c) (fun x n => reportGlobal (modStream x n fun y => { y with active := false }) n)
      (setMode s c .stopped)
    .next (if anyChannelRunning t then t else captureLastStop t)
  else .next s

/-! ## QP maps (04_prediction.md R101) -/

/-- Only the lead channel's copy takes map commands and data (R106). -/
def mapCopyOk (s : State) (c : Chan) (n : StreamId) : Bool := decide (writtenLead s n = c)

def mapWrite (s : State) (c : Chan) (n : StreamId) (ok : MapState → Option Abort) (f : MapState → MapState) : Except Abort State :=
  if mapCopyOk s c n then
    match ok s.streams[n].map with
    | some a => .error a
    | none => .ok (reportMap (modMap s n f) n)
  else .error .presentState

def doMapBegin (c : Chan) (n : StreamId) (s : State) : Except Abort State :=
  mapWrite s c n (fun m => if m.mode = .commitPending then some .presentState else none)
    fun m => { m with mode := .loading, back := [] }

def mapIndex (c : Chan) (n : StreamId) : Nat := 0x3020 + n.val + 0x100 * c.val

def execMapLoadBegin (k : Client) (c : Chan) (n : StreamId) (s : State) : Out :=
  .next (serveWrite s k (mapIndex c n) (doMapBegin c n))

/-- Data for a map being loaded: entries as Table 4-6 allows, at most 2,097,152 bytes. -/
def mapDataOk (m : MapState) (data : List Byte) : Option Abort :=
  if m.mode ≠ .loading then some .presentState
  else if 2097152 < m.back.length + data.length then some .tooLong
  else if data.all fun b => decide (b.toNat ≤ 115) then none
  else some .outOfRange

def doMapData (c : Chan) (n : StreamId) (data : List Byte) (s : State) : Except Abort State :=
  mapWrite s c n (fun m => mapDataOk m data) fun m => { m with back := m.back ++ data }

def execMapData (k : Client) (c : Chan) (n : StreamId) (data : List Byte) (s : State) : Out :=
  .next (serveWrite s k (mapIndex c n) (doMapData c n data))

/-- A commit needs a load in progress of exactly the map size. -/
def doMapCommit (c : Chan) (n : StreamId) (s : State) : Except Abort State :=
  mapWrite s c n (fun m => if m.mode = .loading ∧ m.back.length = m.size then none else some .presentState)
    fun m => { m with mode := .commitPending, commitAt := s.now, dropBack := false }

def execMapCommit (k : Client) (c : Chan) (n : StreamId) (s : State) : Out :=
  .next (serveWrite s k (mapIndex c n) (doMapCommit c n))

/-- The next tick exchanges a stream's maps, and its generation boundary has passed: it opens a picture of a stream that goes on, and the commit
counts for it. -/
def exchangeImminent (s : State) (n : StreamId) : Bool :=
  decide (lapsOf s ≤ s.lap.inPicture + 1 ∧ s.lap.nextTick < s.now + 64 ∧ 0 < s.lap.period ∧
    s.streams[n].map.commitAt + 64 ≤ s.lap.nextTick) && s.streams[n].active && !streamStops s n

/-- A discard empties the back map; a pending exchange is cancelled unless its boundary has passed. -/
def discardMap (late : Bool) (m : MapState) : MapState :=
  if m.mode = .commitPending ∧ late then { m with dropBack := true }
  else { m with mode := if m.front.isSome then .inUse else .none, back := [] }

def doMapDiscard (c : Chan) (n : StreamId) (s : State) : Except Abort State :=
  mapWrite s c n (fun _ => none) (discardMap (exchangeImminent s n))

def execMapDiscard (k : Client) (c : Chan) (n : StreamId) (s : State) : Out :=
  .next (serveWrite s k (mapIndex c n) (doMapDiscard c n))

/-! ## Verification enable (06_decoders.md R138) -/

def doVerifyEnable (k : Client) (c : Chan) (v : Nat) (s : State) : Except Abort State :=
  if ¬ unlocked s k then .error .localControl
  else if 1 < v then .error .outOfRange
  else .ok (modChan (storeValue s (kChan c 0x3002 8) v) c fun x => { x with verifyOn := decide (v = 1) })

def execVerifyEnableWrite (k : Client) (c : Chan) (v : Nat) (s : State) : Out :=
  .next (serveWrite s k (0x3002 + 0x100 * c.val) (doVerifyEnable k c v))

end Sys2Proof.Machine
end

