-- ==== Sys2Proof/Machine/Budget.lean ====
section
/-! DEFINITION. The Pacer's arithmetic (05_pacer.md R113 to R122, R125): projection, complexity estimates, the stripe's budget and
QP, its split among a gang, the planned switch's limit (13_relay.md R325). Occupancies are in 2⁻⁸ bits, quantiser step sizes in
2⁻¹⁶. -/

namespace Sys2Proof.Machine

/-! ## Quantiser steps and logarithms -/

/-- 2^((r - 4) / 6) in 2⁻¹⁶, rounded. -/
def stepTable (r : Nat) : Nat :=
  match r with
  | 0 => 41285
  | 1 => 46341
  | 2 => 52016
  | 3 => 58386
  | 4 => 65536
  | _ => 73562

/-- Qstep of a QP. -/
def qstepOf (qp : Nat) : Nat := stepTable (qp % 6) * 2 ^ (qp / 6)

/-- The largest number below 2^k more than `a` whose e-th power is at most v. -/
def rootBelow (e v : Nat) : Nat → Nat → Nat
  | 0, a => a
  | k + 1, a => rootBelow e v k (if (a + 2 ^ k) ^ e ≤ v then a + 2 ^ k else a)

/-- Qstep of the mean QP sum / count: 2^((mean - 4) / 6), rounded to nearest (R115, R116). -/
def qstepMean (sum count : Nat) : Nat :=
  let c := max 1 count
  (rootBelow (6 * c) (2 ^ (98 * c + sum)) 26 0 + 1) / 2

/-- round(4 + 6 × log2(x / b)) between 0 and 51. -/
def qpFor (x b : Nat) : Nat :=
  ((List.range 51).filter fun i => decide (2 ^ (2 * (i + 1)) * b ^ 12 ≤ x ^ 12 * 2 ^ 9)).length

/-- min(max(round(6 × log2(a / b)), -2), 6). -/
def ratioAdjust (a b : Nat) : Int :=
  (((List.range 8).filter fun i => decide (b ^ 12 * 2 ^ (2 * i + 1) ≤ a ^ 12 * 2 ^ 4)).length : Int) - 2

/-! ## QP limits -/

def qpMin (s : State) (n : StreamId) : Nat := fieldOf (applied s (kPacer n 5)) 7 0
def qpMax (s : State) (n : StreamId) : Nat := fieldOf (applied s (kPacer n 5)) 15 8
def clampQp (s : State) (n : StreamId) (q : Int) : Nat := (min (max q (qpMin s n : Int)) (qpMax s n : Int)).toNat

/-! ## Drain and projection (R109, R115) -/

/-- r: the drain of one lap of the picture in progress. -/
def lapDrain (s : State) (n : StreamId) : Nat := s.streams[n].pacer.rate * s.lap.period / cyclesPerSec

/-- The signalled rate over `laps` nominal laps less `m` cycles, rounded down and up. -/
def nominalDrain (s : State) (n : StreamId) (laps m : Nat) : Nat :=
  s.streams[n].pacer.rate * 256 * (laps * lapNum s - m * lapDen s) / (lapDen s * cyclesPerSec)

def nominalDrainUp (s : State) (n : StreamId) (laps m : Nat) : Nat :=
  ceilDiv (s.streams[n].pacer.rate * 256 * (laps * lapNum s - m * lapDen s)) (lapDen s * cyclesPerSec)

/-- Ticks from a stripe's coding lap to its release (02_lap.md Table 2-1). -/
def releaseLaps (s : State) (n : StreamId) : Nat :=
  (if fastTiming s then 1 else 2) + if vouchFirst s n then 1 else 0

/-- The model's occupancy at the last tick: drained at R since the last release (R109). -/
def modelNow (s : State) (n : StreamId) : Nat :=
  let p := s.streams[n].pacer
  p.e - p.rate * 256 * (s.lap.lastTick - p.releasedAt) / cyclesPerSec

/-- Unsent bits of the released slices in the queue (R124). -/
def unsentBits (s : State) (n : StreamId) : Nat :=
  match carrierOf s n with
  | some f => 8 * queueBytes s.flows[f]
  | none => 0

/-- e_rel: the model, or the unsent bits of the queue where they are more (R124). -/
def occupancyNow (s : State) (n : StreamId) : Nat := max (modelNow s n) (256 * unsentBits s n)

/-- A stripe still held: not yet released. -/
def heldStripes (x : Stream) : List Stripe := x.flight.filter fun k => !k.released

/-- The bits a held stripe will bring: none where it is withheld (R125). -/
def stripeBits (k : Stripe) : Nat := if k.withheld then 0 else k.bits

/-- Projection over held stripes; the pair holds the occupancy and the tick it stands at. -/
def projectHeld (r : Nat) (start : Nat × Nat) (l : List Stripe) : Nat × Nat :=
  l.foldl (fun a k => (a.1 - r * (k.due - a.2) + 256 * stripeBits k, k.due)) start

/-- e_k of a stripe coded in the lap of tick `count`. -/
def projected (s : State) (n : StreamId) : Nat :=
  let r := lapDrain s n
  let p := projectHeld r (occupancyNow s n, s.lap.count) (heldStripes s.streams[n])
  p.1 - r * (s.lap.count + releaseLaps s n - p.2)

/-! ## Complexity (R116) -/

/-- A picture's stripes count as kind I: IRAP, intra-only or rebuild. -/
def complexityOf (x : Stream) (intra : Bool) : Complexity := if intra then x.pacer.cplxI else x.pacer.cplxP

def primeOf (s : State) (n : StreamId) (intra : Bool) : Nat := cfg s (kPacer n (if intra then 0x0A else 0x0B))

/-- The key of a measurement. -/
def measureKey (r : Nat) (c : Chan) : Nat := 4 * r + c.val

/-- The first available estimate of a channel's part of row r. -/
def partEstimate (s : State) (n : StreamId) (intra : Bool) (r : Nat) (c : Chan) : Nat :=
  let k := complexityOf s.streams[n] intra
  let samples := partSamples s n c r
  let v := assocGet (fun _ => 0) k.measured (measureKey r c)
  max 1 (if 0 < v then v
    else if 0 < k.lastSamples then k.lastSum * samples / k.lastSamples
    else if 0 < k.baton then k.baton * samples / 1024
    else primeOf s n intra * samples / 1024)

def rowEstimate (s : State) (n : StreamId) (intra : Bool) (r : Nat) : Nat :=
  max 1 ((streamChans s n).map (partEstimate s n intra r)).sum

/-! ## The next N decoding units (R115) -/

def headOf (p : PictureState) : PictureHead :=
  { irap := p.irap, intra := p.intra, hash := p.hash, sinceBp := p.sinceBp, e0 := p.e0, newPps := p.newPps, tod := p.tod, frames := p.frames }

/-- The picture after the one a stripe belongs to: the one in progress where the stripe ends the picture before it, else what
the rules give for the next one. -/
def nextPicture (s : State) (n : StreamId) (k : Coding) : PictureState :=
  let x := s.streams[n]
  if k.pic.number ≠ x.pic.number then x.pic
  else
    let irap := irapDecision s n
    { x.pic with
      irap := irap
      sinceBp := if x.pic.irap then 1 else x.pic.sinceBp + 1
      e0 := some (k.ek / 256)
      newPps := x.ppsPending && !irap
      intra := irap || intraOnly s n || decide (rebuildNext x.pacer.rebuild ≠ 0)
      hash := (streamOptions s n).testBit 3 }

/-- The next N decoding units from a stripe: rows with their pictures. -/
def upcoming (s : State) (n : StreamId) (k : Coding) : List (Nat × PictureState) :=
  let rows := ctbRows s n
  let next := nextPicture s n k
  ((List.range (rows - k.row)).map fun i => (k.row + i, k.pic)) ++ (List.range k.row).map fun i => (i, next)

def xSum (s : State) (n : StreamId) (k : Coding) : Nat :=
  ((upcoming s n k).map fun u => rowEstimate s n u.2.intra u.1).sum

def floorNext (s : State) (n : StreamId) (k : Coding) : Nat :=
  ((upcoming s n k).map fun u => floorCost s n u.1 (headOf u.2)).sum

/-! ## Floors, cap, plan (R113, R114, R117) -/

/-- The floor cost of a channel's part; the lead adds the unit's non-VCL bytes. -/
def shareFloor (s : State) (n : StreamId) (k : Coding) (c : Chan) : Nat :=
  partFloor s n c + if leadChan s n = c then unitBits (unitSizes k.lead) + unitBits k.tail else 0

def stripeFloor (s : State) (n : StreamId) (k : Coding) : Nat := ((streamChans s n).map (shareFloor s n k)).sum

/-- U - e_k, whole bits. -/
def capOf (s : State) (n : StreamId) (k : Coding) : Nat := (256 * s.streams[n].pacer.limit - k.ek) / 256

/-- The plan limit, with the relay reserve released in a rebuild. -/
def planLimit (s : State) (n : StreamId) : Nat :=
  let reserve := if s.streams[n].pacer.rebuild ≠ 0 then 0 else applied s (kPacer n 7)
  s.streams[n].pacer.limit * (1000 - applied s (kPacer n 6) - reserve) / 1000

/-- The relay drains the streams for a planned switch (13_relay.md R325). -/
def isDraining (s : State) : Bool := decide (s.relay.mode = .draining)

/-- The fullness goal, 0 while DRAINING. -/
def goalOf (s : State) (n : StreamId) : Nat :=
  if isDraining s then 0 else planLimit s n * applied s (kPacer n 8) / 1000

/-- The lowest port rate among the ports that carry stream flows, Mb/s. -/
def lowestRate (s : State) : Nat :=
  ((allPorts.filter fun p => (allFlows.take 16).any fun f => s.flows[f].carries.isSome && usesPort s f p).map
    (portRate s)).min?.getD 100000

/-- m of R325: twice the time of a frame of the largest limit F at the lowest port rate, cycles. -/
def drainMargin (s : State) : Nat :=
  ceilDiv (2 * ((s.flash.limit.frameLimit.toList.foldl max 0 + 20) * 8 * 1500)) (max 1 (lowestRate s))

/-- R × (g - m), in 2⁻⁸ bits. -/
def drainLimit (s : State) (n : StreamId) (r : Nat) : Nat := nominalDrain s n (gapAfter s n r) (drainMargin s)

/-! ## The budget (R115) -/

/-- A, or R where 0 (R128). -/
def averageRate (s : State) (n : StreamId) : Nat :=
  let a := applied s (kPacer n 4)
  if a = 0 then s.streams[n].pacer.rate else a

def isVbr (s : State) (n : StreamId) : Bool := decide (cfg s (kPacer n 1) = 1)

/-- A × picture seconds, in 2⁻⁸ bits, from the picture in progress. -/
def pictureCredit (s : State) (n : StreamId) : Int := ((averageRate s n * s.lap.pictureLen / cyclesPerSec : Nat) : Int)

/-- The pool, at least the floor costs of the next N decoding units; 2⁻⁸ bits. -/
def poolOf (s : State) (n : StreamId) (k : Coding) : Nat :=
  let p : Int := ((lapDrain s n * lapsOf s + 256 * goalOf s n : Nat) : Int) - (k.ek : Int)
  let q := if isVbr s n then min p (pictureCredit s n + 256 * s.streams[n].pacer.credit) else p
  (max q ((256 * floorNext s n k : Nat) : Int)).toNat

/-- What a budget step grants. -/
structure Grant where
  qp : Nat
  budget : Nat
  shares : Vector Nat 4
  withheld : Bool
  limited : Bool
  deriving DecidableEq, Repr

/-- Free space of the stream's coded-output queue, bits (R124). -/
def spaceBits (s : State) (n : StreamId) : Nat :=
  match carrierOf s n with
  | some f => 8 * freeSpace s f
  | none => 0

/-- floor(x / qstep) with the stripe's one qstep: x_sum / pool, that of the cold-start QP at the first stripe (Table 5-4). -/
def atStep (s : State) (n : StreamId) (k : Coding) (x : Nat) : Nat :=
  if s.streams[n].pacer.cold then x * 65536 / qstepOf (cfg s (kPacer n 9)) else x * poolOf s n k / (256 * xSum s n k)

/-- The budget before the queue's space limits it. -/
def wantedBudget (s : State) (n : StreamId) (k : Coding) : Nat :=
  let floorK := stripeFloor s n k
  let b0 := atStep s n k (rowEstimate s n k.pic.intra k.row)
  let b1 := min b0 (max floorK (planLimit s n - ceilDiv k.ek 256))
  let b2 := if isDraining s then min b1 ((drainLimit s n k.row - k.ek) / 256) else b1
  min b2 (capOf s n k)

/-- The stripe's QP: the cold-start QP, the last QP of the baton, or that of the budget (Table 5-4). -/
def stripeQp (s : State) (n : StreamId) (k : Coding) (budget : Nat) : Nat :=
  let p := s.streams[n].pacer
  if p.cold then cfg s (kPacer n 9)
  else if p.handed then p.lastQp
  else clampQp s n (qpFor (rowEstimate s n k.pic.intra k.row) (max 1 budget))

/-- Shares of a budget: each channel its part of the one qstep, at least its floor; where they exceed the budget, reduced in
proportion to their excess over the floors (R121). -/
def splitShares (s : State) (n : StreamId) (k : Coding) (budget : Nat) : Vector Nat 4 :=
  let fl := fun (c : Chan) => shareFloor s n k c
  let want := fun (c : Chan) => max (fl c) (atStep s n k (partEstimate s n k.pic.intra k.row c))
  let cs := streamChans s n
  let excess := (cs.map fun c => want c - fl c).sum
  let room := budget - (cs.map fl).sum
  Vector.ofFn fun c =>
    if ¬ cs.contains c then 0
    else if excess ≤ room then want c
    else fl c + (want c - fl c) * room / max 1 excess

/-- The grant of the budget step; the stripe's budget is what its channels' budgets add up to (Table 5-8). SPACE_LIMITED, which R131 leaves open for a
stripe that is withheld or late, is left clear there (DESIGN CHOICE, log entry 84). -/
def grantOf (s : State) (n : StreamId) (k : Coding) : Grant :=
  let floorK := stripeFloor s n k
  let space := spaceBits s n
  if space < floorK then
    { qp := stripeQp s n k floorK, budget := floorK, shares := splitShares s n k floorK, withheld := true, limited := false }
  else
    let w := wantedBudget s n k
    let shares := splitShares s n k (max floorK (min w space))
    let b := shares.toList.sum
    { qp := stripeQp s n k b, budget := b, shares := shares, withheld := false, limited := decide (space < max floorK w) }

/-- A late stripe: the previous lap's shares, at least the floor and at most the posted cap; the previous QP (R122). At the first stripe after a start
there is no previous budget or QP, and R122 names none: the floors and QP 0 stand for them, and the cold start ends (log entry 58, DESIGN
CHOICE). R125 dates the withhold test at T + 8, by when a late stripe has no budget: it is made on the free space at the deadline (DESIGN CHOICE, log
entry 84). -/
def lateGrant (s : State) (n : StreamId) (k : Coding) : Grant :=
  let p := s.streams[n].pacer
  let total := max 1 p.prevShare.toList.sum
  let floorK := stripeFloor s n k
  let shares : Vector Nat 4 := Vector.ofFn fun c =>
    if (streamChans s n).contains c then
      let cap := max (shareFloor s n k c) (capOf s n k * p.prevShare[c] / total)
      max (shareFloor s n k c) (min p.prevShare[c] cap)
    else 0
  { qp := p.lastQp, budget := shares.toList.sum, shares := shares, withheld := decide (spaceBits s n < floorK), limited := false }

/-! ## Reservation (R120, R123, R125) -/

/-- Bits to reserve: the budget, and in CBR the filler that brings the model to the next release. -/
def reserveBits (s : State) (n : StreamId) (k : Coding) (budget : Nat) : Nat :=
  if isVbr s n then budget
  else max budget (ceilDiv (nominalDrainUp s n (gapAfter s n k.row) 0 - k.ek) 256 + 64)

/-- The traffic manager's answer to a reservation: what it reserves, or, where it refuses one larger than the free space, the free space it reports
(R124). -/
def askReserve (s : State) (f : FlowId) (bytes : Nat) : Except Nat Nat :=
  if freeSpace s f < bytes then .error (freeSpace s f) else .ok bytes

/-- Bytes the Pacer reserves: what it asks for, or after a refusal the free space that was reported (log entry 58, DEDUCED). -/
def reserveBytes (s : State) (n : StreamId) (k : Coding) (budget : Nat) : Nat :=
  match carrierOf s n with
  | some f => match askReserve s f (ceilDiv (reserveBits s n k budget) 8) with
    | .ok b => b
    | .error free => free
  | none => 0

/-- The traffic manager refuses what the Pacer asks for. -/
def reserveRefused (s : State) (n : StreamId) (k : Coding) (budget : Nat) : Bool :=
  match carrierOf s n with
  | some f => match askReserve s f (ceilDiv (reserveBits s n k budget) 8) with
    | .ok _ => false
    | .error _ => true
  | none => false

/-- A refused reservation is counted at the stream's flow (09_flows.md R220). -/
def refuseStream (s : State) (n : StreamId) : State :=
  match carrierOf s n with
  | some f => refuseFlow s f
  | none => s

/-- A change of the bytes reserved in the stream's queue. -/
def reserveIn (s : State) (n : StreamId) (add sub : Nat) : State :=
  match carrierOf s n with
  | some f => modFlow s f fun x => { x with reserved := x.reserved + add - sub }
  | none => s

end Sys2Proof.Machine
end

