-- ==== Sys2Proof/Machine/Scaler.lean ====
section
/-! DEFINITION. Samples on their way to a coder: the columns that each channel receives (07_sensor_lanes.md R177), the source lines of a stripe with
their padding and depth shift (03_streams.md R70, R71 step 3; 07_sensor_lanes.md R178), and the proxy scaler (R71). -/

namespace Sys2Proof.Machine

/-! ## Lines of samples (07_sensor_lanes.md R172) -/

/-- Every k-th sample of a list from the i-th on. -/
def everyNth (k i : Nat) (l : List Nat) : List Nat :=
  l.zipIdx.filterMap fun e => if e.2 % k = i then some e.1 else none

/-- The components of a whole line in the input format's sample order. -/
def splitLine (chroma width line : Nat) (l : List Nat) : SampleLine :=
  match chroma with
  | 0 => ⟨line, l, [], []⟩
  | 1 => ⟨line, l.take width, everyNth 2 0 (l.drop width), everyNth 2 1 (l.drop width)⟩
  | 2 => ⟨line, everyNth 2 1 l, everyNth 4 0 l, everyNth 4 2 l⟩
  | _ => ⟨line, everyNth 3 0 l, everyNth 3 1 l, everyNth 3 2 l⟩

/-- Columns lo to hi - 1 of a line whose first luma column is `at_`. -/
def cutLine (sub at_ lo hi : Nat) (l : SampleLine) : SampleLine :=
  let cut := fun (k : Nat) (v : List Nat) => (v.drop ((lo - at_) / k)).take ((hi - lo) / k)
  { l with y := cut 1 l.y, cb := cut sub l.cb, cr := cut sub l.cr }

/-- A line of the sensor picture whose stripe has just arrived, as a channel receives it: the columns of its input window (07_sensor_lanes.md R177). -/
def routedLine (s : State) (u : UnitId) (c : Chan) (line : Nat) : SampleLine :=
  let w := inputWindow s c
  cutLine (subWidth (inputChroma s)) 0 w.1 (w.1 + w.2)
    (splitLine (inputChroma s) (inputWidth s) line (wholeLine s (s.input.get u).lines (lineTickPicture s) line))

/-- Columns of the sensor picture out of a channel's buffer. -/
def channelColumns (s : State) (u : UnitId) (c : Chan) (line lo hi : Nat) : SampleLine :=
  cutLine (subWidth (inputChroma s)) (inputWindow s c).1 lo hi (routedLine s u c line)

/-! ## Steps on samples (R70, R71) -/

/-- The shift to a lower depth, with rounding. -/
def shiftSample (diff v : Nat) : Nat := if diff = 0 then v else (v + 2 ^ (diff - 1)) / 2 ^ diff

/-- The last sample, or the last row, is repeated up to n of them. -/
def padTo {α : Type} (n : Nat) (l : List α) : List α :=
  l ++ match l.getLast? with
    | some x => List.replicate (n - l.length) x
    | none => []

/-- Groups of d, the last one as long as what is left; `k` bounds them. -/
def chunksOf {α : Type} (d : Nat) : Nat → List α → List (List α)
  | 0, _ => []
  | k + 1, l => if l.isEmpty then [] else l.take d :: chunksOf d k (l.drop d)

/-- The mean, rounded to nearest with halves away from zero (00_scope.md R6). -/
def meanRound (l : List Nat) : Nat := (2 * l.sum + l.length) / (2 * max 1 l.length)

/-- Each block of d × d samples becomes its mean over the samples present. -/
def averageBlocks (d : Nat) (rows : List (List Nat)) : List (List Nat) :=
  (chunksOf d rows.length rows).map fun g =>
    let cols := g.map fun r => chunksOf d r.length r
    (List.range (ceilDiv ((g.map List.length).foldl max 0) d)).map fun b => meanRound (cols.flatMap fun c => c.getD b [])

/-- [1 2 1] / 4 on every second sample, co-sited; a sample beyond an end repeats the end (log entry 57, DESIGN CHOICE). -/
def halveAcross (r : List Nat) : List Nat :=
  let at_ := fun (i : Nat) => r.getD (min i (r.length - 1)) 0
  (List.range (ceilDiv r.length 2)).map fun i => (at_ (2 * i - 1) + 2 * at_ (2 * i) + at_ (2 * i + 1) + 2) / 4

/-- [1 1] / 2 on pairs of rows; the last of an odd number of rows pairs with itself (log entry 57, DESIGN CHOICE). -/
def halveDown (rows : List (List Nat)) : List (List Nat) :=
  (chunksOf 2 rows.length rows).map fun g =>
    let a := g.headD []
    let b := g.getD 1 a
    a.zipWith (fun x y => (x + y + 1) / 2) b

/-- Chroma of the scaled copy: the input's, or converted to 4:2:0. -/
def convertChroma (from_ goal : Nat) (rows : List (List Nat)) : List (List Nat) :=
  if goal = 1 ∧ from_ = 3 then halveDown (rows.map halveAcross)
  else if goal = 1 ∧ from_ = 2 then halveDown rows
  else rows

/-- Lines from rows of components; chroma rows stand on every `sub`-th line. -/
def assembleLines (base sub : Nat) (ys cbs crs : List (List Nat)) : List SampleLine :=
  ys.zipIdx.map fun e =>
    let on := decide (e.2 % sub = 0)
    { line := base + e.2, y := e.1, cb := if on then cbs.getD (e.2 / sub) [] else [], cr := if on then crs.getD (e.2 / sub) [] else [] }

def chromaRows (f : SampleLine → List Nat) (l : List SampleLine) : List (List Nat) := (l.map f).filter fun r => !r.isEmpty

/-! ## The proxy scaler (R71) -/

/-- A line of a proxy's source region, put together from the block columns that the channels scale. -/
def regionLine (s : State) (u : UnitId) (n : StreamId) (line : Nat) : SampleLine :=
  let d := scaleOf s n
  let x := cfg s (kStream n 4)
  let parts := (List.range (blockColumns s n)).filterMap fun b =>
    (scalerOf s n b).map fun c => channelColumns s u c line (x + b * d) (min (x + (b + 1) * d) (x + cfg s (kStream n 6)))
  { line := line, y := parts.flatMap SampleLine.y, cb := parts.flatMap SampleLine.cb, cr := parts.flatMap SampleLine.cr }

/-- The lines of a stripe that lie in a stream's source region. -/
def regionLines (s : State) (n : StreamId) (k : Nat) : List Nat :=
  ((List.range (stripeHeight s)).map fun i => k * stripeHeight s + i).filter fun y =>
    decide (cfg s (kStream n 5) ≤ y ∧ y < cfg s (kStream n 5) + cfg s (kStream n 7))

/-- The scaled lines of one stripe of a proxy: average, chroma, depth. -/
def scaledStripe (s : State) (u : UnitId) (n : StreamId) (k : Nat) : List SampleLine :=
  let d := scaleOf s n
  let l := (regionLines s n k).map (regionLine s u n)
  let goal := streamChroma s n
  let diff := inputDepth s - streamDepth s n
  let shift := fun (rows : List (List Nat)) => rows.map fun r => r.map (shiftSample diff)
  let ys := shift (averageBlocks d (l.map SampleLine.y))
  let grey := (List.range (ceilDiv ys.length 2)).map fun _ => List.replicate (ceilDiv (blockColumns s n) 2) (2 ^ (streamDepth s n - 1))
  let chroma := fun (f : SampleLine → List Nat) =>
    if goal = 1 ∧ inputChroma s = 0 then grey
    else shift (convertChroma (inputChroma s) goal (averageBlocks d (chromaRows f l)))
  assembleLines ((k - firstStripe s n) * (stripeHeight s / d)) (subHeight goal) ys (chroma SampleLine.cb) (chroma SampleLine.cr)

/-- In the arrival lap of a stripe the scaled copy of every proxy that it belongs to grows in DRAM. -/
def scaleStripe (s : State) (u : UnitId) (k : Nat) : State :=
  forEach ((enabledStreams s).filter fun n => isProxy s n && decide (firstStripe s n ≤ k ∧ k ≤ lastStripe s n)) (fun x n =>
    modStream x n fun y => { y with
      scaled := (if k = firstStripe s n then [] else y.scaled) ++ scaledStripe s u n k }) s

/-! ## The pixel operand of a stripe (R70) -/

/-- Lines of a source, filled to the coded width and to the coded lines of a row by repeating the last column and the last row. -/
def padLines (width lines chroma : Nat) (l : List SampleLine) : List SampleLine :=
  let sh := subHeight chroma
  let wide := fun (k : Nat) (rows : List (List Nat)) => rows.map fun r => padTo (width / k) r
  let c := fun (f : SampleLine → List Nat) => padTo (lines / sh) (wide (subWidth chroma) (chromaRows f l))
  assembleLines 0 sh (padTo lines (wide 1 (l.map SampleLine.y))) (c SampleLine.cb) (c SampleLine.cr)

/-- The lines of CTB row r that a channel codes, before padding: its columns out of its own buffer, shifted to the stream's depth, or those of the
scaled copy. -/
def partLines (s : State) (u : UnitId) (n : StreamId) (c : Chan) (r : Nat) : List SampleLine :=
  let lo := partX s n c
  let hi := lo + partWidth s n c
  if isProxy s n then
    (s.streams[n].scaled.filter fun l => decide (r * ctbSize s n ≤ l.line ∧ l.line < (r + 1) * ctbSize s n)).map
      (cutLine (subWidth (streamChroma s n)) 0 lo hi)
  else
    let x := cfg s (kStream n 4)
    let diff := inputDepth s - streamDepth s n
    let shift := fun (v : List Nat) => v.map (shiftSample diff)
    (regionLines s n (stripeOfRow s n r)).map fun y =>
      let l := channelColumns s u c y (x + lo) (min (x + hi) (x + cfg s (kStream n 6)))
      { l with y := shift l.y, cb := shift l.cb, cr := shift l.cr }

/-- The source samples of a channel's part of CTB row r. -/
def partSource (s : State) (u : UnitId) (n : StreamId) (c : Chan) (r : Nat) : List SampleLine :=
  if (streamChans s n).contains c then padLines (partWidth s n c) (rowLines s n r) (streamChroma s n) (partLines s u n c r) else []

end Sys2Proof.Machine
end

