-- ==== Sys2Proof/Machine/Search.lean ====
section
/-! DEFINITION. Motion search and mode decision of a CTU (04_prediction.md R86, R87, R93, R95 to R98): the limits of a vector, the candidate list
of Table 4-3, the samples of the window and of the stripe, SAD and SATD, the refinement order, and the choice of CUs under Table 4-4. SSE and bit
estimates of what a CU may be are operands of CTU_CODE. Vectors are in quarter samples. -/

namespace Sys2Proof.Machine

/-! ## Where a CTU lies -/

/-- A CTU of a stream as a channel codes it: the stream, the channel, its CTB row and column, and the QP of R104. -/
structure CtuPlace where
  stream : StreamId
  chan : Chan
  row : Nat
  col : Nat
  qp : Nat
  deriving DecidableEq, Repr

/-- A block of a CTU: luma position in the picture, width and height. -/
structure LumaBlock where
  x : Nat
  y : Nat
  w : Nat
  h : Nat
  deriving DecidableEq, Repr

/-- The search works on 16 × 16 blocks; with a CTB size of 16 the block is the CTB. -/
def blocksAcross (s : State) (g : CtuPlace) : Nat := max 1 (ctbSize s g.stream / 16)

/-- Block b of a CTU, in raster order. -/
def searchBlock (s : State) (g : CtuPlace) (b : Nat) : LumaBlock :=
  let k := blocksAcross s g
  let d := ctbSize s g.stream
  { x := g.col * d + b % k * 16, y := g.row * d + b / k * 16, w := 16, h := 16 }

/-! ## The limits of a vector (R86, R87) -/

/-- Largest magnitudes of the components: H and (v + 1) × P. -/
def mvLimit (s : State) (n : StreamId) : Int × Int :=
  let x := s.streams[n].search
  ((4 * x.reachH : Nat), (4 * ((x.reachV + 1) * ctbSize s n) : Nat))

/-- First and last luma column and line of the window (R86). -/
def windowColumns (s : State) (g : CtuPlace) : Int × Int :=
  let x := partX s g.stream g.chan
  let h := s.streams[g.stream].search.reachH
  ((x - h : Nat), (min (codedSize s g.stream).1 (x + partWidth s g.stream g.chan + h) : Nat) - 1)

def windowLines (s : State) (g : CtuPlace) : Int × Int :=
  let v := s.streams[g.stream].search.reachV
  let d := ctbSize s g.stream
  (((g.row - v) * d : Nat), (min (codedSize s g.stream).2 ((g.row + v + 1) * d) : Nat) - 1)

/-- First and last sample that an interpolation reads along one axis: `size` samples from `at_`, moved by `mv` in units of 1 / `unit`, with `before`
and `after` taps where the move is not whole. -/
def readSpan (at_ size : Nat) (mv unit before after : Int) : Int × Int :=
  let i := (at_ : Int) + mv / unit
  if mv % unit = 0 then (i, i + size - 1) else (i - before, i + size - 1 + after)

/-- The part of a span inside the picture lies inside the window; none of it may lie inside the picture. -/
def spanInside (span window : Int × Int) (limit : Nat) : Bool :=
  decide (window.1 ≤ max 0 span.1 ∧ min ((limit : Int) - 1) span.2 ≤ window.2)

def spanOutside (span : Int × Int) (limit : Nat) : Bool := decide (span.2 < 0 ∨ (limit : Int) ≤ span.1)

/-- Every sample of a rectangle lies inside the window or outside the picture. -/
def readsInside (xs ys cols lines : Int × Int) (w h : Nat) : Bool :=
  spanOutside xs w || spanOutside ys h || (spanInside xs cols w && spanInside ys lines h)

/-- R87 of a vector of a block: both magnitudes, and every sample read, 8 luma taps and 4 chroma taps included. -/
def vectorOk (s : State) (g : CtuPlace) (b : LumaBlock) (m : Mv) : Bool :=
  let z := codedSize s g.stream
  let c := streamChroma s g.stream
  let cols := windowColumns s g
  let lines := windowLines s g
  let lim := mvLimit s g.stream
  let sw := subWidth c
  let sh := subHeight c
  decide (-lim.1 ≤ m.x ∧ m.x ≤ lim.1 ∧ -lim.2 ≤ m.y ∧ m.y ≤ lim.2) &&
    readsInside (readSpan b.x b.w m.x 4 3 4) (readSpan b.y b.h m.y 4 3 4) cols lines z.1 z.2 &&
    (decide (c = 0) ||
      readsInside (readSpan (b.x / sw) (b.w / sw) m.x (4 * sw) 1 2) (readSpan (b.y / sh) (b.h / sh) m.y (4 * sh) 1 2)
        (cols.1 / sw, (cols.2 + 1) / sw - 1) (lines.1 / sh, (lines.2 + 1) / sh - 1) (z.1 / sw) (z.2 / sh))

def clipTo (lo hi v : Int) : Int := max lo (min hi v)

/-- Whole samples that a block may move along one axis: within the magnitude, and within the window except across an edge of the picture. -/
def moveLimits (at_ size : Nat) (window : Int × Int) (limit : Nat) (most : Int) : Int × Int :=
  (if window.1 ≤ 0 then -most else max (-most) (4 * (window.1 - at_)),
   if (limit : Int) - 1 ≤ window.2 then most else min most (4 * (window.2 + 1 - at_ - size)))

/-- A candidate is clipped to R87. -/
def clipVector (s : State) (g : CtuPlace) (b : LumaBlock) (m : Mv) : Mv :=
  let z := codedSize s g.stream
  let lim := mvLimit s g.stream
  let xs := moveLimits b.x b.w (windowColumns s g) z.1 lim.1
  let ys := moveLimits b.y b.h (windowLines s g) z.2 lim.2
  ⟨clipTo xs.1 xs.2 m.x, clipTo ys.1 ys.2 m.y⟩

/-! ## Rectangles over a CTU (R102, R103) -/

/-- A rectangle clipped to its picture: left, top, right and bottom. -/
def rectArea (s : State) (c : Chan) (r : RectId) (n : StreamId) : Int × Int × Int × Int :=
  let p := (s.rois[c].get r).pos
  let z := applied s (kRect c r 4)
  let d := codedSize s n
  (max 0 p.x, max 0 p.y, min (d.1 : Int) (p.x + (z / 65536 : Nat)), min (d.2 : Int) (p.y + (z % 65536 : Nat)))

/-- A sample lies in a rectangle of a stream. -/
def inRect (s : State) (c : Chan) (r : RectId) (n : StreamId) (x y : Int) : Bool :=
  let a := rectArea s c r n
  decide (a.1 ≤ x ∧ x < a.2.2.1 ∧ a.2.1 ≤ y ∧ y < a.2.2.2)

/-- The enabled rectangles that hold a sample of a stream's picture. -/
def rectsAt (s : State) (n : StreamId) (x y : Int) : List RectId :=
  let c := leadChan s n
  allRects.filter fun r => decide (applied s (kRect c r 1) = 1) && decide (rectStream s c r = some n) && inRect s c r n x y

/-- The rectangle that wins: highest priority, then lowest number (R103). -/
def winnerOf (s : State) (c : Chan) (l : List RectId) : Option RectId :=
  l.foldl (fun a r =>
    match a with
    | none => some r
    | some b => if applied s (kRect c b 6) < applied s (kRect c r 6) then some r else some b) none

def winningRect (s : State) (n : StreamId) (x y : Int) : Option RectId := winnerOf s (leadChan s n) (rectsAt s n x y)

/-- Displacements of the tracking rectangles that hold a sample: highest priority first, at most 2 (Table 4-3). -/
def trackedAt (s : State) (n : StreamId) (x y : Int) : List Mv :=
  let c := leadChan s n
  let l := (rectsAt s n x y).filter fun r => decide (applied s (kRect c r 7) = 1)
  match winnerOf s c l with
  | none => []
  | some a =>
    let more := match winnerOf s c (l.filter fun r => decide (r ≠ a)) with
      | some b => [(s.rois[c].get b).displacement]
      | none => []
    (s.rois[c].get a).displacement :: more

/-! ## The candidate list (R93, Table 4-3) -/

/-- Rounded to nearest, halves away from zero (00_scope.md R6). -/
def roundedQuotient (a : Int) (d : Nat) : Int :=
  if 0 ≤ a then (2 * a + d) / (2 * d : Nat) else -((2 * (-a) + d) / (2 * d : Nat))

/-- A vector of another picture, on its reference `own`, scaled to reference `ref` by the ratio of POC distances, own + 1 and ref + 1, and rounded to
quarter samples (R93; halves away from zero, log entry 57). -/
def scaleFrom (own ref : Nat) (m : Mv) : Mv :=
  ⟨roundedQuotient (m.x * ((ref : Int) + 1)) (own + 1), roundedQuotient (m.y * ((ref : Int) + 1)) (own + 1)⟩

/-- A vector of another picture's reference 0 on reference `ref`. -/
def scaleVector (ref : Nat) (m : Mv) : Mv := ⟨m.x * ((ref : Int) + 1), m.y * ((ref : Int) + 1)⟩

/-- The history vector of a block on a reference: the chosen vector of the block at the same place of a CTU of the previous picture. -/
def historyAt (s : State) (g : CtuPlace) (b ref : Nat) (right down : Nat) : Option Mv :=
  let d := ctbSize s g.stream
  let q := searchBlock s { g with col := g.col + right, row := g.row + down } b
  ((s.streams[g.stream].search.finished.find? fun e => decide (e.cx = q.x + min 8 (d / 2) ∧ e.cy = q.y + min 8 (d / 2))).map fun e =>
    scaleFrom e.ref ref e.mv)

/-- The global vectors in use: estimates, each replaced by the preset where it is absent; both the preset while estimation is off (R94). -/
def globalVectors (s : State) (n : StreamId) (ref : Nat) : List Mv :=
  let c := leadChan s n
  let w := applied s (kSearch c n 5)
  let preset : Mv := ⟨asSigned 16 (w / 65536), asSigned 16 (w % 65536)⟩
  let x := s.streams[n].search
  let pick := fun (o : Option Mv) => match o with
    | some m => if applied s (kSearch c n 6) = 1 then scaleVector ref m else preset
    | none => preset
  [pick x.globalA, pick x.globalB]

/-- Rounded to whole samples. -/
def wholeVector (m : Mv) : Mv := ⟨4 * wholeSamples m.x, 4 * wholeSamples m.y⟩

/-- H.265's predictors of a block and reference, as the operand gives them. -/
def predictorsOf (x : CtuContent) (b ref : Nat) : BlockPredictors :=
  (x.predictors.find? fun p => decide (p.block = b ∧ p.ref = ref)).getD ⟨b, ref, [], []⟩

/-- The list in the order of Table 4-3, before rounding. -/
def rawCandidates (s : State) (g : CtuPlace) (x : CtuContent) (b ref : Nat) : List Mv :=
  let n := g.stream
  let d := ctbSize s n
  let p := predictorsOf x b ref
  [⟨0, 0⟩] ++ p.amvp.take 2 ++ p.merge.take 5 ++
    [historyAt s g b ref 0 0, historyAt s g b ref 1 0, historyAt s g b ref 0 1, historyAt s g b ref 1 1].filterMap id ++
    globalVectors s n ref ++
    (trackedAt s n ((g.col * d + d / 2 : Nat) : Int) ((g.row * d + d / 2 : Nat) : Int)).map (scaleVector ref)

/-- The candidates of a block: rounded (at L2 at their exact positions, Table 4-4), clipped to R87, each once. -/
def blockCandidates (s : State) (g : CtuPlace) (x : CtuContent) (level b ref : Nat) : List Mv :=
  let k := searchBlock s g b
  ((rawCandidates s g x b ref).map fun m => clipVector s g k (if level = 2 then m else wholeVector m)).foldl
    (fun a m => if a.contains m then a else a ++ [m]) []

/-! ## Costs (R95) -/

/-- The luma sample of a reference that a channel's window holds, in the rows that serve the picture being coded; outside the picture the nearest one
inside, as H.265 pads it (R86, R87). -/
def windowSample (s : State) (g : CtuPlace) (ref : Nat) (x y : Int) : Nat :=
  let v := s.streams[g.stream]
  let z := codedSize s g.stream
  let cx := (clipTo 0 ((z.1 : Int) - 1) x).toNat
  let cy := (clipTo 0 ((z.2 : Int) - 1) y).toNat
  let picture := (v.coding.map fun k => k.pic.number).getD v.pic.number
  let row := (v.search.ring.get g.chan).find? fun w => decide (w.picture = picture ∧ w.ref = ref ∧ w.row = cy / ctbSize s g.stream)
  ((row.bind fun w => w.lines.find? fun l => decide (l.component = 0 ∧ l.line = cy)).elim [] ReconLine.samples).getD
    (cx - (windowColumns s g).1.toNat) 0

/-- The luma sample that the channel codes at a place of the picture (R70, R71). -/
def sourceSample (s : State) (g : CtuPlace) (x y : Nat) : Nat :=
  let lines := (s.streams[g.stream].coding.map fun k => k.source.get g.chan).getD []
  ((lines.find? fun l => decide (l.line = y - g.row * ctbSize s g.stream)).elim [] SampleLine.y).getD (x - partX s g.stream g.chan) 0

/-- H.265's luma interpolation filter at a quarter-sample position. -/
def lumaTaps (frac : Nat) : List Int :=
  match frac with
  | 1 => [-1, 4, -10, 58, 17, -5, 1, 0]
  | 2 => [-1, 4, -11, 40, 40, -11, 4, -1]
  | 3 => [0, 1, -5, 17, 58, -10, 4, -1]
  | _ => [0, 0, 0, 64, 0, 0, 0, 0]

/-- Eight samples around position i, from i - 3 to i + 4, under a filter. -/
def filterAt (frac : Nat) (i : Int) (f : Int → Int) : Int :=
  ((lumaTaps frac).zipIdx.map fun (t : Int × Nat) => if t.1 = 0 then 0 else t.1 * f (i + t.2 - 3)).sum

/-- The prediction of a luma sample moved by a vector: H.265's interpolation and rounding, clipped to the bit depth. -/
def predictedSample (s : State) (g : CtuPlace) (ref : Nat) (x y : Nat) (m : Mv) : Nat :=
  let depth := streamDepth s g.stream
  let first : Nat := 2 ^ min 4 (depth - 8)
  let last : Nat := 2 ^ max 2 (14 - depth)
  let ix := (x : Int) + m.x / 4
  let iy := (y : Int) + m.y / 4
  let fx := (m.x % 4).toNat
  let fy := (m.y % 4).toNat
  let at_ := fun (a b : Int) => (windowSample s g ref a b : Int)
  let across := fun (b : Int) => filterAt fx ix (fun a => at_ a b) / (first : Int)
  let v : Int :=
    if fx = 0 ∧ fy = 0 then at_ ix iy * last
    else if fy = 0 then across iy
    else if fx = 0 then filterAt fy iy (fun b => at_ ix b) / (first : Int)
    else filterAt fy iy across / 64
  (clipTo 0 ((2 : Int) ^ depth - 1) ((v + (last : Int) / 2) / last)).toNat

/-- Source less prediction over the part of a block inside the picture, row by row. -/
def blockDiff (s : State) (g : CtuPlace) (b : LumaBlock) (ref : Nat) (m : Mv) : List (List Int) :=
  let z := codedSize s g.stream
  (List.range (min b.h (z.2 - b.y))).map fun dy => (List.range (min b.w (z.1 - b.x))).map fun dx =>
    (sourceSample s g (b.x + dx) (b.y + dy) : Int) - predictedSample s g ref (b.x + dx) (b.y + dy) m

def absSum (l : List (List Int)) : Nat := (l.map fun r => (r.map Int.natAbs).sum).sum

/-- SAD of a block's luma at a vector. -/
def sadAt (s : State) (g : CtuPlace) (b : LumaBlock) (ref : Nat) (m : Mv) : Nat := absSum (blockDiff s g b ref m)

/-- The Hadamard transform of 2 ^ k values. -/
def hadamard : Nat → List Int → List Int
  | 0, l => l
  | k + 1, l =>
    let a := l.take (l.length / 2)
    let b := l.drop (l.length / 2)
    hadamard k (List.zipWith (· + ·) a b) ++ hadamard k (List.zipWith (· - ·) a b)

def turned (l : List (List Int)) : List (List Int) := (List.range 8).map fun i => l.map fun r => r.getD i 0

/-- SATD of an 8 × 8 difference: half of the root-mean scale, a quarter of the absolute sum, rounded (R95 names the transform and no scale: PRESUMED,
log entry 77). -/
def satd8 (l : List (List Int)) : Nat := (absSum (turned ((turned (l.map (hadamard 3))).map (hadamard 3))) + 2) / 4

/-- SATD of a block's luma at a vector: its 8 × 8 squares. -/
def satdAt (s : State) (g : CtuPlace) (b : LumaBlock) (ref : Nat) (m : Mv) : Nat :=
  let d := blockDiff s g b ref m
  ((List.range (d.length / 8)).map fun i => ((List.range ((d.headD []).length / 8)).map fun j =>
    satd8 (((d.drop (8 * i)).take 8).map fun r => (r.drop (8 * j)).take 8)).sum).sum

/-- λ = 0.57 × 2^((QP - 12) / 3) in units of 2⁻²⁴ (log entry 58, DESIGN CHOICE). -/
def lambdaOf (qp : Nat) : Nat :=
  (if qp % 3 = 0 then 597688 else if qp % 3 = 1 then 753040 else 948771) * 2 ^ (qp / 3)

/-- λ_m = sqrt(λ) in units of 2⁻¹². -/
def lambdaM (qp : Nat) : Nat := Nat.sqrt (lambdaOf qp)

def diffBits (m p : Mv) : Nat := Config.vectorBits (m.x - p.x) + Config.vectorBits (m.y - p.y)

/-- The better of two: the first on a tie. -/
def better {α : Type} (a : Option (Nat × α)) (b : Nat × α) : Option (Nat × α) :=
  match a with
  | none => some b
  | some c => if b.1 < c.1 then some b else some c

def best {α : Type} (l : List (Nat × α)) : Option (Nat × α) := l.foldl better none

/-- mvp of a vector: the AMVP predictor with fewer bits; the zero vector where there is none. -/
def mvpBits (p : BlockPredictors) (m : Mv) : Nat :=
  match best (p.amvp.map fun q => (diffBits m q, q)) with
  | some r => r.1
  | none => diffBits m ⟨0, 0⟩

/-- J of a point in units of 2⁻¹², `fine` at the sub-sample stages; none where R87 forbids it. -/
def pointCost (s : State) (g : CtuPlace) (x : CtuContent) (b ref : Nat) (fine : Bool) (m : Mv) : Option (Nat × Mv) :=
  let k := searchBlock s g b
  if vectorOk s g k m then
    some ((if fine then satdAt s g k ref m else sadAt s g k ref m) * 4096 + lambdaM g.qp * mvpBits (predictorsOf x b ref) m, m)
  else none

def scorePoints (s : State) (g : CtuPlace) (x : CtuContent) (b ref : Nat) (fine : Bool) (l : List Mv) : List (Nat × Mv) :=
  l.filterMap (pointCost s g x b ref fine)

/-! ## Refinement (R95, Table 4-4) -/

/-- Offsets -r to r. -/
def offsets (r : Nat) : List Int := (List.range (2 * r + 1)).map fun (i : Nat) => (i : Int) - r

/-- A full square of ±r steps around a point. -/
def squareAround (r : Nat) (step : Int) (m : Mv) : List Mv :=
  (offsets r).flatMap fun dy => (offsets r).map fun dx => ⟨m.x + step * dx, m.y + step * dy⟩

/-- The 4 points of a cross. -/
def crossAround (step : Int) (m : Mv) : List Mv :=
  [⟨m.x, m.y - step⟩, ⟨m.x - step, m.y⟩, ⟨m.x + step, m.y⟩, ⟨m.x, m.y + step⟩]

/-- The points of a sub-sample stage: 8 at L0, a cross at L1. -/
def finePoints (level : Nat) (step : Int) (m : Mv) : List Mv :=
  if level = 0 then (squareAround 1 step m).filter fun p => decide (p ≠ m) else crossAround step m

/-- A sub-sample stage around a point; the point itself stays where none is better. -/
def fineStage (s : State) (g : CtuPlace) (x : CtuContent) (level b ref : Nat) (step : Int) (m : Mv) : Mv :=
  match best (scorePoints s g x b ref true (m :: finePoints level step m)) with
  | some r => r.2
  | none => m

/-- The two best of a scored list. -/
def bestTwo (l : List (Nat × Mv)) : List Mv :=
  match best l with
  | none => []
  | some a => match best (l.filter fun e => decide (e.2 ≠ a.2)) with
    | some b => [a.2, b.2]
    | none => [a.2]

/-- The best integer point: of every candidate, and of the squares around the best ones. -/
def bestInteger (s : State) (g : CtuPlace) (x : CtuContent) (level b ref : Nat) : Option Mv :=
  let scored := scorePoints s g x b ref false (blockCandidates s g x level b ref)
  let around := if level = 0 then (bestTwo scored).flatMap (squareAround 4 4)
    else if ref = 0 then ((bestTwo scored).take 1).flatMap (squareAround 2 4) else []
  (best (scored ++ scorePoints s g x b ref false around)).map Prod.snd

/-- The refined vector of a block for a reference at levels 0 to 2 (R95, Table 4-4). -/
def refinedVector (s : State) (g : CtuPlace) (x : CtuContent) (level b ref : Nat) : Option Mv :=
  if level = 2 then (best (scorePoints s g x b ref true (blockCandidates s g x level b ref))).map Prod.snd
  else
    let fine := decide (level = 0 ∨ ref = 0)
    (bestInteger s g x level b ref).map fun m =>
      if fine then fineStage s g x level b ref 1 (fineStage s g x level b ref 2 m) else m

/-! ## What a CU may be (R96, Table 4-4) -/

/-- The search blocks that a part of a CTU covers. -/
def blocksUnder (s : State) (g : CtuPlace) (x y w h : Nat) : List Nat :=
  let k := blocksAcross s g
  (List.range (k * k)).filter fun b =>
    decide (b % k * 16 < x + w ∧ x < b % k * 16 + 16 ∧ b / k * 16 < y + h ∧ y < b / k * 16 + 16)

/-- The partitions of a CU: place in the CTU and size. -/
def cuParts (t : CuTrial) : List (Nat × Nat × Nat × Nat) :=
  match t.part with
  | .square => [(t.x, t.y, t.size, t.size)]
  | .horizontal => [(t.x, t.y, t.size, t.size / 2), (t.x, t.y + t.size / 2, t.size, t.size / 2)]
  | .vertical => [(t.x, t.y, t.size / 2, t.size), (t.x + t.size / 2, t.y, t.size / 2, t.size)]

/-- Every partition has a vector that keeps R87. -/
def vectorsOk (s : State) (g : CtuPlace) (t : CuTrial) : Bool :=
  let d := ctbSize s g.stream
  decide (t.vectors.length = (cuParts t).length) &&
    ((cuParts t).zip t.vectors).all fun e =>
      vectorOk s g { x := g.col * d + e.1.1, y := g.row * d + e.1.2.1, w := e.1.2.2.1, h := e.1.2.2.2 } e.2.2

/-- A sub-sample refinement of a smaller CU stays within 3 quarter samples of its block's vector. -/
def nearVector (a b : Mv) : Bool := decide ((a.x - b.x).natAbs ≤ 3 ∧ (a.y - b.y).natAbs ≤ 3)

/-- Each partition of an inter CU takes the refined vector of a block it covers; a CU of 8 × 8 refines it at sub-sample positions. -/
def vectorsRefined (s : State) (g : CtuPlace) (x : CtuContent) (level : Nat) (t : CuTrial) : Bool :=
  ((cuParts t).zip t.vectors).all fun e =>
    (blocksUnder s g e.1.1 e.1.2.1 e.1.2.2.1 e.1.2.2.2).any fun b =>
      match refinedVector s g x level b e.2.1 with
      | some m => decide (m = e.2.2) || (decide (t.size = 8 ∧ (level = 0 ∨ (level = 1 ∧ e.2.1 = 0))) && nearVector m e.2.2)
      | none => false

/-- The sizes that a level tries (Table 4-4). -/
def sizeTried (ctb level size : Nat) : Bool :=
  if level = 0 then decide (8 ≤ size ∧ size ≤ ctb) else decide (size = ctb ∨ (size = ctb / 2 ∧ 8 ≤ size))

/-- A CU of a CTU lies inside the picture. -/
def cuInside (s : State) (g : CtuPlace) (x y size : Nat) : Bool :=
  let d := ctbSize s g.stream
  let z := codedSize s g.stream
  decide (g.col * d + x + size ≤ z.1 ∧ g.row * d + y + size ≤ z.2)

/-- At the picture's edge H.265 splits what crosses it, so smaller sizes are tried there. -/
def sizeForced (s : State) (g : CtuPlace) (level size x y : Nat) : Bool :=
  let d := ctbSize s g.stream
  decide (8 ≤ size ∧ 2 * size ≤ d) && !cuInside s g (x / (2 * size) * (2 * size)) (y / (2 * size) * (2 * size)) (2 * size) &&
    decide (0 < level)

/-- The intra modes of a level: the best 3 by SATD at L0, planar, DC, horizontal and vertical at L1 and L2, each with the most probable modes;
planar, DC and the mode of the gradients at L3. -/
def modeTried (level : Nat) (l : List CuTrial) (t : CuTrial) : Bool :=
  if level = 0 then
    t.mostProbable || decide ((l.filter fun u => decide (u.kind = .intra ∧ u.x = t.x ∧ u.y = t.y ∧ u.size = t.size ∧ u.depth = t.depth ∧ u.satd < t.satd)).length < 3)
  else if level ≤ 2 then t.mostProbable || decide (t.mode = 0 ∨ t.mode = 1 ∨ t.mode = 10 ∨ t.mode = 26)
  else decide (t.mode ≤ 1) || t.gradient

/-- A trial that a level admits. -/
def trialAdmitted (s : State) (g : CtuPlace) (x : CtuContent) (level refs : Nat) (t : CuTrial) : Bool :=
  let d := ctbSize s g.stream
  decide (t.x + t.size ≤ d ∧ t.y + t.size ≤ d ∧ t.depth ≤ (if level = 0 then 1 else 0)) && cuInside s g t.x t.y t.size &&
    (sizeTried d level t.size || sizeForced s g level t.size t.x t.y) &&
    match t.kind with
    | .intra => decide (t.part = .square) && modeTried level x.trials t
    | .skip => decide (0 < refs ∧ level ≤ 2 ∧ t.mode < 5 ∧ t.part = .square) && vectorsOk s g t
    | .merge => decide (0 < refs ∧ level ≤ 2 ∧ t.mode < 5 ∧ t.part = .square) && vectorsOk s g t
    | .inter => decide (0 < refs ∧ level ≤ 2 ∧ (t.part = .square ∨ (level = 0 ∧ 16 ≤ t.size))) &&
        (t.vectors.all fun v => decide (v.1 < refs)) && vectorsOk s g t && vectorsRefined s g x level t

/-! ## The decision (R96) -/

/-- J = SSE + λ × bits in units of 2⁻²⁴. -/
def trialCost (qp : Nat) (t : CuTrial) : Nat := t.sse * 2 ^ 24 + lambdaOf qp * t.bits

/-- The four quarters of a square, without those that lie outside the picture. -/
def quarters (s : State) (g : CtuPlace) (x y size : Nat) : List (Nat × Nat) :=
  let d := ctbSize s g.stream
  let z := codedSize s g.stream
  [(x, y), (x + size / 2, y), (x, y + size / 2), (x + size / 2, y + size / 2)].filter fun q =>
    decide (g.col * d + q.1 < z.1 ∧ g.row * d + q.2 < z.2)

/-- Costs and CUs of the parts of a split; none where a part has none. -/
def joinParts (l : List (Option (Nat × List CuTrial))) : Option (Nat × List CuTrial) :=
  l.foldl (fun a e =>
    match a, e with
    | some p, some q => some (p.1 + q.1, p.2 ++ q.2)
    | _, _ => none) (some (0, []))

/-- The cheapest way to code a square, bottom-up: the split is kept where its sum is lower. `fuel` bounds the splits. -/
def decideSquare (s : State) (g : CtuPlace) (l : List CuTrial) : Nat → Nat → Nat → Nat → Option (Nat × List CuTrial)
  | 0, _, _, _ => none
  | fuel + 1, x, y, size =>
    let own := (best ((l.filter fun t => decide (t.x = x ∧ t.y = y ∧ t.size = size)).map fun t => (trialCost g.qp t, t))).map fun r => (r.1, [r.2])
    if size ≤ 8 then own
    else
      match joinParts ((quarters s g x y size).map fun q => decideSquare s g l fuel q.1 q.2 (size / 2)), own with
      | some p, some o => if p.1 < o.1 then some p else some o
      | some p, none => some p
      | none, o => o

/-- The CUs of a CTU at an effective level; `refs` is the number of references of its picture. -/
def decideCtu (s : State) (g : CtuPlace) (x : CtuContent) (level refs : Nat) : List CuTrial :=
  match decideSquare s g (x.trials.filter (trialAdmitted s g x level refs)) 5 0 0 (ctbSize s g.stream) with
  | some r => r.2
  | none => []

/-- The fixed form of a floor-coded CTU: one CU of the CTB size, 2N × 2N, intra DC, every coded block flag 0 (R98). -/
def floorCu (s : State) (n : StreamId) : CuTrial :=
  { x := 0, y := 0, size := ctbSize s n, kind := .intra, part := .square, mode := 1, depth := 0, sse := 0, bits := 0, satd := 0,
    mostProbable := false, gradient := false, vectors := [] }

/-- Whether a partition holds a block's centre. -/
def holdsCentre (e : Nat × Nat × Nat × Nat) (cx cy : Nat) : Bool :=
  decide (e.1 ≤ cx ∧ cx < e.1 + e.2.2.1 ∧ e.2.1 ≤ cy ∧ cy < e.2.1 + e.2.2.2)

/-- The chosen vector of the partition that holds a block's centre, with its reference. -/
def chosenAt (l : List CuTrial) (cx cy : Nat) : Option (Nat × Mv) :=
  l.findSome? fun t => (((cuParts t).zip t.vectors).find? fun e => holdsCentre e.1 cx cy).map Prod.snd

/-- The inter-coded 16 × 16 blocks of a decided CTU with their chosen vectors (R93, R94, R105). -/
def interBlocks (s : State) (g : CtuPlace) (l : List CuTrial) : List InterBlock :=
  let k := blocksAcross s g
  let d := ctbSize s g.stream
  (List.range (k * k)).filterMap fun b =>
    let q := searchBlock s g b
    let cx := q.x + min 8 (d / 2)
    let cy := q.y + min 8 (d / 2)
    match chosenAt l (cx - g.col * d) (cy - g.row * d) with
    | some v => some { cx := cx, cy := cy, ref := v.1, mv := v.2 }
    | none => none

end Sys2Proof.Machine
end

