-- ==== Sys2Proof/Machine/Coding.lean ====
section
/-! DEFINITION. Coding of a stripe: operands (02_lap.md R39 to R44), a grant taken (05_pacer.md R115, R125),
CTUs (R118, R119; 04_prediction.md R96, R98, R104), the coded stripe (R116, R120; 03_streams.md R69, R78, R79), window fetch, global vectors and
rectangles (04_prediction.md R88, R94, R105), verification and the egress check (06_decoders.md R134 to R138). -/

namespace Sys2Proof.Machine

def modCoding (s : State) (n : StreamId) (f : Coding → Coding) : State :=
  modStream s n fun x => { x with coding := x.coding.map f }

/-! ## Pixels and windows arrive (R39, R40; 04_prediction.md R88) -/

/-- The window rows that coding CTB row r of a picture with so many references needs on a channel: rows r - v to r + v, clipped, of each reference
(R86). -/
def refRows (s : State) (n : StreamId) (picture refs r : Nat) : List WinRow :=
  let v := s.streams[n].search.reachV
  (List.range refs).flatMap fun f =>
    ((List.range (ctbRows s n)).filter fun k => decide (r ≤ k + v ∧ k ≤ r + v)).map fun k => { picture := picture, ref := f, row := k }

def rowsNeeded (s : State) (n : StreamId) (pic : PictureState) (r : Nat) : List WinRow := refRows s n pic.number pic.refs r

/-- Two entries name the same row of the same reference for the same picture. -/
def sameRow (a b : WinRow) : Bool := decide (a.picture = b.picture ∧ a.ref = b.ref ∧ a.row = b.row)

/-- A channel waits for no reference row of a stripe: an intra picture and a stream without a window need none. -/
def windowReady (s : State) (n : StreamId) (pic : PictureState) (r : Nat) (c : Chan) : Bool :=
  let x := s.streams[n].search
  pic.intra || !x.hasWindow || (rowsNeeded s n pic r).all fun w => (x.ring.get c).any (sameRow w)

/-- The ring of a reference holds its 2v + 2 newest rows (R88). -/
def ringKeep (size : Nat) (l : List WinRow) : List WinRow :=
  (List.range 2).flatMap fun f =>
    let q := l.filter fun w => decide (w.ref = f)
    q.drop (q.length - size)

/-- Rows that have arrived enter a channel's ring. -/
def ringAdd (x : SearchState) (l new : List WinRow) : List WinRow := ringKeep (2 * x.reachV + 2) (l ++ new)

/-- First line and line after the last of a region of a component: luma lines a to b, chroma lines a / SubHeightC to b / SubHeightC. -/
def linesOf (s : State) (n : StreamId) (component : Fin 3) (a b : Nat) : Nat × Nat :=
  if component.val = 0 then (a, b) else (a / subHeight (streamChroma s n), b / subHeight (streamChroma s n))

/-- A row as a channel's window takes it: the lines of the reference in the row, cut to the window's columns, chroma with the luma it belongs to
(R86). Reference f of a picture is the f-th of the pictures before it, the newest first. -/
def fetchedRow (s : State) (n : StreamId) (c : Chan) (w : WinRow) : WinRow :=
  let v := s.streams[n].search
  let x := partX s n c
  let lo := x - v.reachH
  let hi := min (codedSize s n).1 (x + partWidth s n c + v.reachH)
  let top := w.row * ctbSize s n
  match (v.refs.filter fun p => decide (p.number < w.picture))[w.ref]? with
  | some p => { w with lines := (p.lines.filter fun l =>
      let r := linesOf s n l.component top (top + rowLines s n w.row)
      decide (r.1 ≤ l.line ∧ l.line < r.2)).map fun l =>
        let k := if l.component.val = 0 then 1 else subWidth (streamChroma s n)
        { l with samples := (l.samples.take (hi / k)).drop (lo / k) } }
  | none => w

/-- The rows that arrive, with their samples. -/
def fetchedRows (s : State) (n : StreamId) (c : Chan) (l : List WinRow) : List WinRow := l.map (fetchedRow s n c)

/-- The boundaries between the channels of a gang, from left to right (03_streams.md R69). -/
def gangEdges (s : State) (n : StreamId) : List Edge :=
  let l := streamChans s n
  (l.zip l.tail).map fun p => { left := p.1, right := p.2, x := partX s n p.2, fromLeft := [], fromRight := [], returned := [] }

/-- A stripe begins its coding lap: its non-VCL units and the occupancy before it are fixed, and the pixel operand is posted on
every channel of the gang, with the window operand where nothing is outstanding. -/
def newCoding (s : State) (n : StreamId) (pic : PictureState) (row stripe : Nat) (u : UnitId) : Coding :=
  let ek := projected s n
  let pic1 := if row = 0 ∧ pic.irap ∧ 0 < pic.sinceBp then { pic with e0 := some (ek / 256) } else pic
  { pic := pic1, row := row, stripe := stripe, codedAt := s.lap.count, kind := if pic.intra then .intra else .inter,
    qp := s.streams[n].pacer.lastQp, budget := 0, ek := ek, withheld := false, budgetHere := false, shares := .replicate 4 0,
    reserved := 0, lead := leadUnits s n row (headOf pic1), tail := tailUnits s n row pic.hash,
    parts := .replicate 4 none, unit := u, edges := gangEdges s n, source := Vector.ofFn fun c => partSource s u n c row }

def postPixels (s : State) (n : StreamId) (pic : PictureState) (row stripe : Nat) (u : UnitId) : State :=
  let k := newCoding s n pic row stripe u
  let t := modStream s n fun x => { x with coding := some k, pic := if x.pic.number = pic.number then k.pic else x.pic }
  forEach (streamChans s n) (fun y c =>
    let z := postJob y c n stripe .pixels
    if windowReady y n pic row c then postJob z c n stripe .window else z) t

/-- Rows of earlier laps that were still outstanding on a channel enter its ring. -/
def takeOwed (s : State) (n : StreamId) (x : SearchState) (c : Chan) : SearchState :=
  { x with
    late := vmod x.late c fun _ => false
    ring := vmod x.ring c fun l => ringAdd x l (fetchedRows s n c (x.owed.get c))
    owed := vmod x.owed c fun _ => [] }

/-- The row requested in this lap enters a channel's ring. -/
def takeAsked (s : State) (n : StreamId) (x : SearchState) (c : Chan) : SearchState :=
  { x with
    due := vmod x.due c fun _ => false
    ring := vmod x.ring c fun l => ringAdd x l (fetchedRows s n c (x.asked.get c))
    asked := vmod x.asked c fun _ => [] }

/-- Outstanding rows have arrived on a channel, those of earlier laps first; the window operand of a stripe that waited for them is posted
(R88). -/
def execWindowFetchDone (c : Chan) (n : StreamId) (s : State) : Out :=
  let x := s.streams[n]
  if x.search.spoiled[c] then .next s
  else if x.search.late[c] then
    let t := modStream s n fun y => { y with search := takeOwed s n y.search c }
    match x.coding with
    | some k => .next (if k.kind = .inter ∧ carries s c n ∧ windowReady t n k.pic k.row c then postJob t c n k.stripe .window else t)
    | none => .next t
  else .next (modStream s n fun y => { y with search := takeAsked s n y.search c })

/-! ## The budget step (R115, R124, R125) -/

/-- A withheld stripe is counted; an EMCY at the first of its picture. -/
def noteWithheld (s : State) (n : StreamId) (k : Coding) : State :=
  let t := setFlag (bump s (kPacer n 0x15)) (kPacer n 0x12) 26
  let t1 := if k.pic.starved then t else raiseEmcy t 0xFF05 (kPacer n 0x12) n.val
  modStream t1 n fun x => { x with
    pic := if x.pic.number = k.pic.number then { x.pic with starved := true } else x.pic
    coding := x.coding.map fun y => { y with pic := { y.pic with starved := true } } }

/-- A stream that the channel leads has a stripe whose budget has not come. -/
def awaitsBudget (s : State) (c : Chan) : Bool :=
  allStreams.any fun n => decide (leadChan s n = c) && (s.streams[n].coding.any fun k => !k.budgetHere)

/-- The budget-step task of the stream's lead channel ends with the last budget it owes (02_lap.md Table 2-2, Table 2-4). -/
def endBudgetTask (s : State) (n : StreamId) : State :=
  let c := leadChan s n
  if awaitsBudget s c then s else { s with disp := s.disp.mod (jobUnit s n) fun d => finishTask d c.val }

/-- A grant is taken: the reservation is made, and budget and buffer space are posted together (R40). -/
def takeGrant (s : State) (n : StreamId) (k : Coding) (g : Grant) : State :=
  let bytes := if g.withheld then 0 else reserveBytes s n k g.budget
  let t := reserveIn (modCoding (if g.withheld ∨ reserveRefused s n k g.budget then refuseStream s n else s) n fun y => { y with
    qp := g.qp
    budget := g.budget
    shares := g.shares
    withheld := g.withheld
    budgetHere := true
    reserved := bytes }) n bytes 0
  let t1 := modPacer t n fun p => { p with
    lastQp := g.qp
    prevBudget := g.budget
    prevShare := g.shares
    cold := false
    handed := false }
  let t2 := putField t1 (kPacer n 0x12) 5 0 g.qp
  let t3 := if g.limited then setFlag t2 (kPacer n 0x12) 25 else t2
  let t4 := if g.withheld then noteWithheld t3 n k else t3
  forEach (streamChans s n) (fun y c => postJob y c n k.stripe .budget) t4

/-! ## Jobs fire (R39, R41, R46) -/

/-- A channel's part of the stripe begins: the lead has spent the units ahead of the slices and has those after them left. -/
def newPart (s : State) (n : StreamId) (k : Coding) (c : Chan) (window : Bool) : Part :=
  let lead := decide (leadChan s n = c)
  { ctus := partCols s n c, done := 0, slicesBegun := 0, budget := k.shares[c], spent := if lead then unitBits (unitSizes k.lead) else 0,
    fixedLeft := if lead then unitBits k.tail else 0, lastQp := k.qp, codedBits := 0, codedCtus := 0, qpSum := 0, window := window,
    sliceQp := k.qp, prevQp := k.qp, heads := [], cus := [] }

/-- A channel's part begins. -/
def beginPart (y : Coding) (c : Chan) (p : Part) : Coding := { y with parts := vmod y.parts c fun _ => some p }

/-- A job leaves the matching store, its event flag is set, and its part begins; a job fired without its window codes its CTUs at L3 (R41). -/
def fireJob (s : State) (c : Chan) (j : Job) : State :=
  let leave := fun (d : DispState) => reofferJobs
    { d with jobs := vmod d.jobs c fun l => l.filter fun i => decide (i.stream ≠ j.stream ∨ i.stripe ≠ j.stripe) }
  let t := setFireFlags { s with disp := ⟨leave s.disp.a, leave s.disp.b⟩ } (jobUnit s j.stream) c
  match s.streams[j.stream].coding with
  | some k =>
    if k.stripe = j.stripe then
      modCoding t j.stream fun y => beginPart y c (newPart s j.stream k c j.window)
    else t
  | none => t

/-- The jobs in a channel's matching store, of the active unit and of one that is WARMING. -/
def jobsOf (s : State) (c : Chan) : List Job :=
  (s.disp.get (viewUnit s)).jobs.get c ++ (s.disp.get (viewUnit s).other).jobs.get c

/-- The first job of a channel with its four operands fires. -/
def execStripeJobFire (c : Chan) (s : State) : Out :=
  match (jobsOf s c).find? jobReady with
  | some j => .next (fireJob s c j)
  | none => .next s

/-! ## Effort levels (R42, R44) -/

/-- CTUs a channel has still to code of its part of the stripe. -/
def ctusLeft (p : Part) : Nat := p.ctus - p.done

/-- The cycles the DRAM reserve has not spent on stalls of this lap (R42, R35). -/
def reserveUnspent (s : State) (c : Chan) : Nat := dramReserve s - (s.dram.get (viewUnit s)).stall[c]

/-- Cycles left to the hurdle check of the next tick, T + 4, less the unspent DRAM reserve. -/
def cyclesLeft (s : State) (c : Chan) : Nat := s.lap.nextTick + 4 - s.now - reserveUnspent s c

/-- Words of a CTU in the pixel pipelines: eight samples a word (01_module.md R10). -/
def ctuWords (s : State) (n : StreamId) : Nat :=
  let b := ctbSize s n
  ceilDiv (b * b + 2 * (b / (if streamChroma s n = 3 then 1 else 2)) * (b / (if streamChroma s n = 1 then 2 else 1)) *
    (if streamChroma s n = 0 then 0 else 1)) 8

/-- The cost of a level: the largest measured in the previous 4 laps, else the factory estimate. -/
def levelCost (s : State) (c : Chan) (n : StreamId) (l : Fin 5) : Nat :=
  let v := ((s.chans[c].costs.toList.drop 1).map fun e => e.get l).foldl max 0
  if 0 < v then v else (Config.factoryCost l.val (ctbSize s n) (streamChroma s n) (streamDepth s n))

/-- The level for the next CTU; it never falls within a lap. `fuel` bounds the steps. -/
def chooseLevel (cost : Fin 5 → Nat) (left cycles : Nat) : Nat → Fin 5 → Fin 5
  | 0, l => l
  | fuel + 1, l =>
    if l.val < 4 ∧ cycles * 15 < left * cost l * 16 then chooseLevel cost left cycles fuel (finOf 5 (by decide) (l.val + 1)) else l

/-! ## QP of a CTU (R119, 04_prediction.md R102 to R104) -/

/-- An entry of a QP map or rectangle on a QP: KIND 0 adds, KIND 1 replaces (Table 4-6). -/
def applyEntry (q : Int) (e : Nat) : Int :=
  if e / 64 % 4 = 0 then q + asSigned 6 (e % 64) else ((e % 64 : Nat) : Int)

/-- The Pacer's QP of a CTU (R119). -/
def ctuQp (s : State) (n : StreamId) (k : Coding) (p : Part) (spent : Nat) : Nat :=
  let adj := ratioAdjust ((16 * spent + p.budget) * p.ctus) (16 * p.budget * p.done + p.budget * p.ctus)
  let q := clampQp s n ((k.qp : Int) + adj)
  if 0 < p.done then min (max q (p.lastQp - 2)) (p.lastQp + 2) else q

/-- The CTU's QP after map, rectangle and limits (R104). -/
def formQp (s : State) (n : StreamId) (row col pacerQp : Nat) : Nat :=
  let b := ctbSize s n
  let m := s.streams[n].map
  let entry := match m.front with
    | some l => (l.getD (row * ctbCols s n + col) 0).toNat
    | none => 0
  let q1 := if applied s (kMap (leadChan s n) n 1) = 1 then applyEntry pacerQp entry else (pacerQp : Int)
  let q2 := match winningRect s n ((col * b + b / 2 : Nat) : Int) ((row * b + b / 2 : Nat) : Int) with
    | some r => applyEntry q1 (applied s (kRect (leadChan s n) r 5) % 256)
    | none => q1
  clampQp s n q2

/-! ## A CTU is coded (R118) -/

/-- The slice a CTU opens: its slice QP and its slice segment header (03_streams.md R78). -/
abbrev SliceHead := Nat × List Bool

/-- How a CTU leaves the coder: `qpY` is the QpY the CTU leaves for the next one to be predicted from (04_prediction.md R104). -/
structure CtuPlan where
  level : Fin 5
  effective : Fin 5
  noWindow : Bool
  spent : Nat
  slicesBegun : Nat
  allow : Int
  pacerQp : Nat
  qp : Nat
  qpY : Nat
  floor : Bool
  replaced : Bool
  bits : Nat
  head : Option SliceHead
  deriving DecidableEq, Repr

/-- The QP of every floor CTU whose slice header is written when that is known (R119). -/
def floorQp : Nat := 51

/-- The head of a slice at its first CTU. -/
def sliceHeadOf (s : State) (c : Chan) (n : StreamId) (k : Coding) (done qp : Nat) : SliceHead :=
  (qp, sliceHeader s n k.pic.irap k.pic.poc k.pic.tmvp k.pic.sao (k.row * ctbCols s n + partStart s n c + done) qp (decide (k.kind = .inter)))

/-- Bits a slice head spends: at most 192 (R117). -/
def headBits (h : SliceHead) : Nat := min 192 (sliceHeadBits h.2)

/-- What is held back behind a CTU: the floor of the CTUs and slices after it, and the units still to be emitted (R118). -/
def ctuReserve (s : State) (c : Chan) (n : StreamId) (p : Part) (begun : Nat) : Nat :=
  120 * (p.ctus - p.done - 1) + 192 * (slicesNow s n c - begun) + p.fixedLeft

/-- One CTU's plan. The Pacer's QP of a slice's first CTU is taken before that slice's header is spent, since the header carries it (log entry
57, DEDUCED). -/
def ctuPlan (s : State) (c : Chan) (n : StreamId) (k : Coding) (p : Part) (x : CtuContent) : CtuPlan :=
  let level := chooseLevel (levelCost s c n) (ctusLeft p) (cyclesLeft s c) 4 s.chans[c].level
  let opens := opensSlice (sliceList s n c) p.done
  let begun := p.slicesBegun + if opens then 1 else 0
  let pq := ctuQp s n k p p.spent
  let reserve := ctuReserve s c n p begun
  let allowed := fun (sp : Nat) => (p.budget : Int) - sp - reserve
  let first := sliceHeadOf s c n k p.done pq
  let spent0 := p.spent + if opens then headBits first else 0
  let floor := decide (allowed spent0 < 120) || decide (level = 4) || k.withheld
  let head := if opens then some (if floor then sliceHeadOf s c n k p.done floorQp else first) else none
  let spent := p.spent + head.elim 0 headBits
  let noWindow := decide (k.kind = .inter) && (!s.streams[n].search.hasWindow || !p.window)
  let replaced := !floor && decide (allowed spent < x.bits)
  let predicted := head.elim p.prevQp Prod.fst
  let own := formQp s n k.row (partStart s n c + p.done) pq
  { level := level, effective := if floor then 4 else if noWindow then max level 3 else level, noWindow := noWindow, spent := spent,
    slicesBegun := begun, allow := allowed spent0, pacerQp := pq,
    qp := if floor || replaced then predicted else own,
    qpY := if floor || replaced || !x.residual then predicted else own,
    floor := floor, replaced := replaced, bits := if floor || replaced then min 120 x.floorBits else x.bits, head := head }

/-- The part after the CTU, which left these CUs. -/
def partAfter (p : Part) (g : CtuPlan) (cus : List CuTrial) : Part :=
  let coded := !(g.floor || g.replaced)
  { p with
    done := p.done + 1
    slicesBegun := g.slicesBegun
    spent := g.spent + g.bits
    lastQp := g.pacerQp
    codedBits := p.codedBits + if coded then g.bits else 0
    codedCtus := p.codedCtus + if coded then 1 else 0
    qpSum := p.qpSum + if coded then g.qp else 0
    sliceQp := g.head.elim p.sliceQp Prod.fst
    prevQp := g.qpY
    heads := p.heads ++ g.head.toList
    cus := cus }

/-- Counters and objects a CTU changes. 0x2500:0B counts a CTU coded above L0 by its effective level, which is 4 for one that is floor-coded under the
Pacer's reserve and stays that of its lap for one that is replaced; R43 names neither case (DESIGN CHOICE, log entry 80). -/
def countCtu (s : State) (c : Chan) (n : StreamId) (g : CtuPlan) : State :=
  let s1 := putField s (key 0x2500 0x0A) (4 * c.val + 3) (4 * c.val) g.level.val
  let s2 := if 0 < g.effective.val then bump s1 (key 0x2500 0x0B) else s1
  let s3 := if g.noWindow then bump s2 (kChan c 0x3001 4) else s2
  if g.replaced || decide (g.allow < 120) then bump s3 (kPacer n 0x13) else s3

/-- A CTU's measured cost counts at the level it was coded at; a floor CTU costs no more than its pixel words (R42). -/
def noteCost (x : Channel) (g : CtuPlan) (cycles words : Nat) : Channel :=
  { x with
    level := g.level
    costs := vmod x.costs 0 fun e => vmod e g.effective fun v => max v (if g.effective.val = 4 then min cycles words else cycles) }

/-- The stalls of the lap that a channel has met so far (11_dram.md R275). -/
def noteLapStall (s : State) (c : Chan) (v : Nat) : State :=
  modStall s (viewUnit s) c fun w => max w v

/-- Where the next CTU of a part lies, with its QP. -/
def ctuPlace (s : State) (c : Chan) (n : StreamId) (k : Coding) (p : Part) (qp : Nat) : CtuPlace :=
  { stream := n, chan := c, row := k.row, col := partStart s n c + p.done, qp := qp }

/-- The CUs of a CTU: the fixed form of R98 where it is floor-coded or replaced, else those that R96 decides; an I slice has no references. -/
def ctuCus (s : State) (c : Chan) (n : StreamId) (k : Coding) (p : Part) (x : CtuContent) (g : CtuPlan) : List CuTrial :=
  if g.floor || g.replaced then [floorCu s n]
  else decideCtu s (ctuPlace s c n k p g.qp) x g.effective.val (if k.kind = .inter then k.pic.refs else 0)

/-- Channel c codes the next CTU of stream n's stripe. -/
def execCtuCode (c : Chan) (n : StreamId) (x : CtuContent) (s : State) : Out :=
  match s.streams[n].coding with
  | none => .next s
  | some k =>
    match k.parts[c] with
    | none => .next s
    | some p =>
      if p.ctus ≤ p.done then .next s
      else
        let s0 := noteLapStall s c x.stall
        let g := ctuPlan s0 c n k p x
        let cus := ctuCus s0 c n k p x g
        let new := interBlocks s0 (ctuPlace s0 c n k p g.qp) cus
        let t := modCoding (countCtu s0 c n g) n fun y => { y with parts := vmod y.parts c fun _ => some (partAfter p g cus) }
        let t1 := modChan t c fun y => noteCost y g x.cycles (ctuWords s n)
        .next (modStream t1 n fun y => { y with search := { y.search with blocks := y.search.blocks ++ new } })

/-! ## The coded stripe (R116, R120) -/

/-- The slices' NAL units, by channel in slice order. -/
def unitsOf (s : State) (n : StreamId) (l : List (List Byte)) : List (Chan × List (List Byte)) :=
  ((streamChans s n).foldl (fun a c => (a.1 ++ [(c, a.2.take (slicesNow s n c))], a.2.drop (slicesNow s n c)))
    (([] : List (Chan × List (List Byte))), l)).1

/-- Their sizes. -/
def sizesOf (s : State) (n : StreamId) (l : List (List Byte)) : List (Chan × List Nat) :=
  (unitsOf s n l).map fun q => (q.1, q.2.map List.length)

/-- Every part is finished, each slice has its NAL unit, and each channel kept within its budget (R118). -/
def stripeWhole (s : State) (n : StreamId) (k : Coding) (x : CodedStripe) : Bool :=
  decide (x.slices.length = slicesPerStripe s n) &&
  ((streamChans s n).all fun c => match k.parts[c] with
    | some p => decide (p.done = p.ctus)
    | none => false) &&
  (sizesOf s n x.slices).all fun q =>
    decide (unitBits q.2 + (if leadChan s n = q.1 then unitBits (unitSizes k.lead) + unitBits k.tail else 0) ≤ k.shares.get q.1)

/-- The slices of a channel's part with their addresses, without heads. -/
def slicesFrom (s : State) (n : StreamId) (row : Nat) (q : Chan × List Nat) : List Slice :=
  let l := (sliceList s n q.1).zip q.2
  (l.foldl (fun a e =>
    (a.1 ++ [{ addr := row * ctbCols s n + partStart s n q.1 + a.2, ctus := e.1.1, bytes := e.2, chan := q.1, tile := e.1.2,
               segment := e.1.2, verdict := none, firstSeq := 0, packets := 0, withheld := false, qp := 0, header := [], data := [] }], a.2 + e.1.1))
    (([] : List Slice), 0)).1

/-- The slices of a channel's part with the heads they were begun with and their bytes. -/
def headedSlices (s : State) (n : StreamId) (k : Coding) (q : Chan × List (List Byte)) : List Slice :=
  let heads := ((k.parts.get q.1).map fun p => p.heads).getD []
  (slicesFrom s n k.row (q.1, q.2.map List.length)).zipIdx.map fun e =>
    let h := heads.getD e.2 (0, [])
    { e.1 with qp := h.1, header := h.2, data := q.2.getD e.2 [] }

/-- The stripe's filler keeps to g - m (13_relay.md R325): while DRAINING, and in WARMING for the stripes of the outgoing unit that
the drain's test has counted (DEDUCED, log entry 20). -/
def fillsDrained (s : State) (k : Coding) : Bool :=
  isDraining s || (decide (s.relay.mode = .warming) && decide (s.relay.active = some k.unit))

/-- Bytes of the filler data NAL unit, its start code included; 0 where none is needed (R120). -/
def fillerBytes (s : State) (n : StreamId) (k : Coding) (bits : Nat) : Nat :=
  if isVbr s n || k.withheld then 0
  else
    let need := nominalDrainUp s n (gapAfter s n k.row) (if fillsDrained s k then drainMargin s else 0) - (k.ek + 256 * bits)
    if need = 0 then 0 else max 7 (ceilDiv need 2048)

/-- A part's complexity: its coded bits at the Qstep of their mean QP, scaled to all its CTUs (R116). -/
def partComplexity (p : Part) : Option Nat :=
  if p.codedCtus = 0 then none
  else some (max 1 (p.codedBits * qstepMean p.qpSum p.codedCtus * p.ctus / (65536 * p.codedCtus)))

/-- The measurements of a coded stripe join those of its kind. -/
def noteComplexity (s : State) (n : StreamId) (k : Coding) (v : Complexity) : Complexity :=
  (streamChans s n).foldl (fun a c =>
    match k.parts[c] with
    | some p =>
      let old := assocGet (fun _ => 0) a.measured (measureKey k.row c)
      let m := (partComplexity p).getD old
      { a with
        measured := assocPut (fun _ => 0) a.measured (measureKey k.row c) m
        sum := a.sum + m
        samples := a.samples + if 0 < m then partSamples s n c k.row else 0 }
    | none => a) v

/-- A picture's last stripe: its means replace those of the last picture coded with the kind. -/
def rollComplexity (v : Complexity) : Complexity :=
  if v.samples = 0 then v else { v with lastSum := v.sum, lastSamples := v.samples, sum := 0, samples := 0 }

def pacerAfter (s : State) (n : StreamId) (k : Coding) (last : Bool) (p : PacerState) : PacerState :=
  let q := if k.pic.intra then { p with cplxI := noteComplexity s n k p.cplxI } else { p with cplxP := noteComplexity s n k p.cplxP }
  if last then { q with cplxI := rollComplexity q.cplxI, cplxP := rollComplexity q.cplxP } else q

/-- After a picture's last stripe its inter blocks are there for R94 and R105. -/
def finishBlocks (picture : Nat) (x : SearchState) : SearchState :=
  { x with finished := x.blocks, finishedPicture := picture, blocks := [], history := x.history || !x.blocks.isEmpty }

/-! ## The decoded picture hash (03_streams.md R79) -/

/-- A CRC-16 after `len` bytes of zeros. -/
def crcShift : Nat → BitVec 16 → BitVec 16
  | 0, r => r
  | n + 1, r => crcShift n (eightTimes (crcBitL 0x1021#16) r)

/-- Bytes of one decoded line of a component in a channel's columns. -/
def lineBytes (s : State) (n : StreamId) (c : Chan) (component : Nat) : Nat :=
  partWidth s n c / (if component = 0 then 1 else subWidth (streamChroma s n)) * (if streamDepth s n = 8 then 1 else 2)

/-- The lead channel combines one component's partial CRCs in raster order: line by line, channel by channel. -/
def combineCrcs (s : State) (n : StreamId) (row : Nat) (l : List LineCrc) (component : Fin 3) (r : BitVec 16) : BitVec 16 :=
  let lines := rowLines s n row / (if component.val = 0 then 1 else subHeight (streamChroma s n))
  (List.range lines).foldl (fun a y =>
    (streamChans s n).foldl (fun b c =>
      let e := (l.find? fun e => decide (e.chan = c ∧ e.component = component ∧ e.line = y)).map fun e => e.crc
      crcShift (lineBytes s n c component.val) b ^^^ e.getD 0) a) r

/-- The picture's CRCs after a row; each component begins at the initial value of CRC-16/CCITT (14_integrity.md Table 14-5). -/
def hashAfter (s : State) (n : StreamId) (row : Nat) (l : List LineCrc) : Vector (BitVec 16) 3 :=
  Vector.ofFn fun i => combineCrcs s n row l i (if row = 0 then 0x1D0F#16 else s.streams[n].hashNow.get i)

/-- The values that the hash SEI carries: one a component. -/
def pictureHash (s : State) (n : StreamId) (v : Vector (BitVec 16) 3) : List (BitVec 16) :=
  v.toList.take (if streamChroma s n = 0 then 1 else 3)

/-! ## The reconstruction (03_streams.md R65, R69) -/

/-- What a channel reconstructed of a stripe. -/
def reconOf (x : CodedStripe) (c : Chan) : Reconstruction := ((x.recon.find? fun e => decide (e.1 = c)).map Prod.snd).getD ⟨[], []⟩

/-- Columns of a component that 8 luma columns are. -/
def edgeColumns (s : State) (n : StreamId) (component : Fin 3) : Nat := if component.val = 0 then 8 else 8 / subWidth (streamChroma s n)

def lastColumns (s : State) (n : StreamId) (l : List ReconLine) : List ReconLine :=
  l.map fun e => { e with samples := e.samples.drop (e.samples.length - edgeColumns s n e.component) }

def firstColumns (s : State) (n : StreamId) (l : List ReconLine) : List ReconLine :=
  l.map fun e => { e with samples := e.samples.take (edgeColumns s n e.component) }

/-- The exchange at a boundary: the 8 nearest columns of either side, unfiltered, and those of the left side as the channel on the right returns
them. -/
def exchangeEdge (s : State) (n : StreamId) (x : CodedStripe) (e : Edge) : Edge :=
  { e with
    fromLeft := lastColumns s n (reconOf x e.left).pre
    fromRight := firstColumns s n (reconOf x e.right).pre
    returned := lastColumns s n (reconOf x e.left).filtered }

/-- The lines that a stripe makes final, over all columns of the gang. -/
def joinedLines (s : State) (n : StreamId) (x : CodedStripe) : List ReconLine :=
  match streamChans s n with
  | [] => []
  | c :: rest => (reconOf x c).filtered.map fun l =>
      { l with samples := rest.foldl (fun a d =>
          a ++ (((reconOf x d).filtered.find? fun e => decide (e.component = l.component ∧ e.line = l.line)).elim [] ReconLine.samples)) l.samples }

/-- They join the picture in the unit's DRAM; the pictures that a later one may refer to are kept. -/
def addRecon (picture : Nat) (l : List ReconLine) (x : SearchState) : SearchState :=
  match x.refs with
  | p :: rest => if p.number = picture then { x with refs := { p with lines := p.lines ++ l } :: rest }
      else { x with refs := (⟨picture, l⟩ :: x.refs).take 4 }
  | [] => { x with refs := [⟨picture, l⟩] }

/-- The stripe that the gang has coded. -/
def stripeOf (s : State) (n : StreamId) (k : Coding) (x : CodedStripe) : Stripe :=
  let hash := if k.tail.isEmpty then [] else pictureHash s n (hashAfter s n k.row x.crcs)
  let tail := if k.tail.isEmpty then [] else unitSizes [hashUnit hash]
  let bits := unitBits (unitSizes k.lead) + unitBits (x.slices.map List.length) + unitBits tail
  let fill := fillerBytes s n k bits
  { picture := k.pic.number, row := k.row, poc := k.pic.poc, irap := k.pic.irap, timestamp := k.pic.timestamp,
    codedAt := k.codedAt, due := k.codedAt + releaseLaps s n, tokenDue := k.codedAt + 2, bits := bits + 8 * fill,
    lead := k.lead, tail := tail, filler := fill, slices := (unitsOf s n x.slices).flatMap (headedSlices s n k),
    last := decide (k.row + 1 = ctbRows s n), withheld := k.withheld, standIn := false, supersedes := false, judged := false, vouched := false, released := false,
    unit := k.unit, nalType := sliceNalType s n k.pic.irap, tmvp := k.pic.tmvp, sao := k.pic.sao,
    hash := hash, hashFiller := false,
    edges := k.edges.map (exchangeEdge s n x), releasedAt := 0, refs := if k.kind = .inter then k.pic.refs else 0 }

/-- The last row of a picture counts it on its stream and on every channel of the gang (03_streams.md R85); the monitor output may show the rows of it
that unit u has coded, as it has reconstructed them (06_decoders.md R154, R157). -/
def countPicture (s : State) (n : StreamId) (u : UnitId) (picture : Nat) : State :=
  let t := bump s (kStream n 0x1F)
  forEach (streamChans s n) (fun y c => bump y (kChan c 0x3000 8)) (modStream t n fun x => { x with
    ownFrom := none
    shownFrom := x.ownFrom.getD (ctbRows s n)
    shown := some (u, ⟨regGet t (kStream n 0x1F), (x.search.refs.find? fun p => decide (p.number = picture)).elim [] fun p => p.lines⟩) })

/-- The CABAC coders that a channel used for a stripe: one a slice, at most 16. Where a channel codes several streams in a lap, 0x3000:05 shows the most
that one of them used; R85 does not say whether they add up (DESIGN CHOICE, log entry 79). -/
def noteCoders (s : State) (n : StreamId) : State :=
  forEach (streamChans s n) (fun y c => modChan y c fun z => { z with coders := max z.coders (min 16 (slicesNow s n c)) }) s

/-- The check-value units of the channels end the lines of the decoded picture hash (03_streams.md R79; 14_integrity.md R343). -/
def noteHashes (s : State) (l : List LineCrc) : State := forEach l (fun x e => cvEnd x (finOf 16 (by decide) e.chan.val) e.crc.toNat true) s

/-- A channel completes its work of this lap: from here its slack counts (02_lap.md R36). -/
def noteDone (s : State) (c : Chan) : State := modChan s c fun x => { x with doneAt := some s.now }

/-- The last channel of the gang has completed its part: unused reservation is freed, CBR filler appended, complexity measured. -/
def completeStripe (s : State) (n : StreamId) (k : Coding) (x : CodedStripe) : State :=
  let st := stripeOf s n k x
  let t := reserveIn s n (if k.withheld then 0 else st.bits / 8) k.reserved
  let t1 := modStream (noteHashes (noteCoders (forEach (streamChans s n) noteDone t) n) x.crcs) n fun y => { y with
    coding := none
    flight := y.flight ++ [st]
    hashNow := hashAfter s n k.row x.crcs
    ownFrom := y.ownFrom <|> some k.row
    pacer := pacerAfter s n k st.last y.pacer
    search := addRecon k.pic.number (joinedLines s n x) (if st.last then finishBlocks k.pic.number y.search else y.search) }
  if st.last then countPicture t1 n k.unit k.pic.number else t1

def execStripeCoded (n : StreamId) (x : CodedStripe) (s : State) : Out :=
  match s.streams[n].coding with
  | some k => .next (if stripeWhole s n k x then completeStripe s n k x else s)
  | none => .next s

/-! ## Global vectors and rectangles (04_prediction.md R94, R105) -/

/-- The integer vector of a block: its chosen vector rounded to whole samples (log entry 57, DESIGN CHOICE), and its bin of 4 samples in each
component. -/
def intVector (b : InterBlock) : Mv := ⟨wholeSamples b.mv.x, wholeSamples b.mv.y⟩
def binOfVector (m : Mv) : Int × Int := (m.x / 4, m.y / 4)

/-- Bins with their vectors, in order of first appearance. -/
def vectorBins (l : List Mv) : List ((Int × Int) × List Mv) :=
  l.foldl (fun a m =>
    if a.any fun e => decide (e.1 = binOfVector m) then
      a.map fun e => if e.1 = binOfVector m then (e.1, e.2 ++ [m]) else e
    else a ++ [(binOfVector m, [m])]) []

/-- The mean of a component of integer vectors in quarter samples, rounded to nearest with halves away from zero. -/
def meanQuarter (l : List Int) : Int := roundedQuotient (4 * l.sum) (max 1 l.length)

def meanVector (l : List Mv) : Mv := ⟨meanQuarter (l.map Mv.x), meanQuarter (l.map Mv.y)⟩

/-- The fullest bin, the first on a tie. -/
def fullest (l : List ((Int × Int) × List Mv)) : Option ((Int × Int) × List Mv) :=
  l.foldl (fun a e =>
    match a with
    | none => some e
    | some b => if b.2.length < e.2.length then some e else some b) none

/-- Both estimates from the integer reference-0 vectors of a picture: the fullest bin with 1/8 of its `total` inter blocks, the next with 1/16. -/
def estimateVectors (total : Nat) (l : List Mv) : Option Mv × Option Mv :=
  match fullest (vectorBins l) with
  | none => (none, none)
  | some a =>
    let first := if total ≤ 8 * a.2.length then some (meanVector a.2) else none
    match fullest ((vectorBins l).filter fun e => decide (e.1 ≠ a.1)) with
    | none => (first, none)
    | some b => (first, if total ≤ 16 * b.2.length then some (meanVector b.2) else none)

/-- The blocks whose chosen vector is of reference 0. -/
def firstRefBlocks (l : List InterBlock) : List InterBlock := l.filter fun b => decide (b.ref = 0)

/-- After the last stripe of picture p of an inter stream the estimates for picture p + 2 and later are formed; a picture without inter blocks
gives none, so the preset replaces both. -/
def execGlobalVectorEstimate (n : StreamId) (s : State) : Out :=
  let x := s.streams[n].search
  if intraOnly s n ∨ x.finishedPicture = 0 ∨ x.pending.any fun p => decide (p.1 = x.finishedPicture + 2) then .next s
  else
    let e := estimateVectors x.finished.length ((firstRefBlocks x.finished).map intVector)
    .next (modStream s n fun y => { y with
      search := { y.search with pending := y.search.pending ++ [(x.finishedPicture + 2, e.1, e.2)] } })

/-- The median of a list: the middle value, of an even count the mean of the two middle ones rounded away from zero. -/
def medianOf (l : List Int) : Int :=
  let m := l.mergeSort fun a b => decide (a ≤ b)
  let h := m.length / 2
  if m.length % 2 = 1 then m.getD h 0
  else
    let v := m.getD (h - 1) 0 + m.getD h 0
    if 0 ≤ v then (v + 1) / 2 else -((-v + 1) / 2)

/-- The blocks of a picture with a reference-0 vector whose centres lie in a rectangle, at its position when ROI_TRACK_UPDATE comes; R105 does not say
which picture's position counts where a move falls due in between (DESIGN CHOICE, log entry 78). -/
def blocksIn (s : State) (n : StreamId) (c : Chan) (r : RectId) (l : List InterBlock) : List InterBlock :=
  (firstRefBlocks l).filter fun b => inRect s c r n b.cx b.cy

/-- A tracking rectangle takes the median vector of its blocks; it moves from picture p + 2. R105 dates the move only: the displacement is a candidate
from the update on (DESIGN CHOICE, log entry 78). -/
def trackRect (s : State) (n : StreamId) (c : Chan) (r : RectId) : State :=
  let x := s.streams[n].search
  let l := blocksIn s n c r x.finished
  let d : Mv := ⟨medianOf (l.map fun b => b.mv.x), medianOf (l.map fun b => b.mv.y)⟩
  { s with rois := vmod s.rois c fun v => vmod v r fun y =>
      if l.length < 4 then { y with displacement := ⟨0, 0⟩ }
      else { y with displacement := d, moves := y.moves.filter (fun m => decide (m.1 ≠ x.finishedPicture + 2)) ++ [(x.finishedPicture + 2, d)] } }

def execRoiTrackUpdate (n : StreamId) (s : State) : Out :=
  let c := leadChan s n
  if intraOnly s n ∨ s.streams[n].search.finishedPicture = 0 then .next s
  else
    .next (forEach (allRects.filter fun r => decide (applied s (kRect c r 1) = 1 ∧ applied s (kRect c r 7) = 1) &&
      decide (rectStream s c r = some n)) (fun x r => trackRect x n c r) s)

/-! ## Verification (06_decoders.md R134 to R138) -/

/-- The luma lines of a row's segments: top line y0 and y0 + h. -/
def segmentLines (s : State) (n : StreamId) (row : Nat) : Nat × Nat :=
  (row * ctbSize s n, row * ctbSize s n + rowLines s n row)

/-- Those that become final in its lap: 4 lines held back at the bottom, the 4 of the stripe above taken in; to the picture's last line in the last
stripe (R134). -/
def settledLines (s : State) (n : StreamId) (row : Nat) : Nat × Nat :=
  let z := segmentLines s n row
  (z.1 - 4, if row + 1 = ctbRows s n then z.2 else z.2 - 4)

/-- The samples of a region as the CRCs take them: component by component, in raster order, 2 bytes a sample, little-endian (R134). -/
def regionBytes (s : State) (n : StreamId) (z : Nat × Nat) (l : List ReconLine) : List Byte :=
  ([0, 1, 2] : List (Fin 3)).flatMap fun c =>
    let w := linesOf s n c z.1 z.2
    (List.range (w.2 - w.1)).flatMap fun y =>
      ((l.find? fun e => decide (e.component = c ∧ e.line = w.1 + y)).elim [] ReconLine.samples).flatMap (leBytes 2)

/-- The pre-filter and the settled CRC of one side's reconstruction of a segment of a row (R134). -/
def preCrc (s : State) (n : StreamId) (row : Nat) (r : Reconstruction) : BitVec 32 := crc32c (regionBytes s n (segmentLines s n row) r.pre)
def settledCrc (s : State) (n : StreamId) (row : Nat) (r : Reconstruction) : BitVec 32 := crc32c (regionBytes s n (settledLines s n row) r.filtered)

/-- The verdict of a segment from the rows of Table 6-1 that its result decides. -/
def segmentVerdict (s : State) (n : StreamId) (enabled : Bool) (x : SegmentResult) : Option Verdict :=
  if ¬ enabled then some (.unverified 6)
  else
    match x.error with
    | some .e6 => some (.unverified 4)
    | some _ => some (.bad 3)
    | none =>
      if preCrc s n x.stripe x.encoder ≠ preCrc s n x.stripe x.decoder then some (.bad 1)
      else if settledCrc s n x.stripe x.encoder ≠ settledCrc s n x.stripe x.decoder then some (.bad 2)
      else some .good

/-- A stripe of this row that is verified in this lap, the one after its coding lap (R132), and waits for its verdicts. -/
def awaits (lap row : Nat) (k : Stripe) : Bool := decide (k.row = row ∧ k.codedAt + 1 = lap) && !k.judged && !k.standIn

/-- The slices of a segment take its verdict. -/
def judgeSegment (lap : Nat) (c : Chan) (x : SegmentResult) (v : Option Verdict) (k : Stripe) : Stripe :=
  if awaits lap x.stripe k then
    { k with slices := k.slices.map fun l => if l.chan = c ∧ l.segment = x.segment ∧ l.verdict.isNone then { l with verdict := v } else l }
  else k

/-- A segment that met a poisoned read has met a decode error (11_dram.md R277). -/
def poisonResult (spoiled : Bool) (x : SegmentResult) : SegmentResult :=
  if spoiled ∧ x.error.isNone then { x with error := some .e5 } else x

/-- CABAC bins that a CTU of a stream may have: 8 × its samples + 4,096 (06_decoders.md Table 6-4). -/
def binLimit (s : State) (n : StreamId) : Nat := 8 * (ctbSize s n * ctbSize s n * chromaHalves (streamChroma s n) / 2) + 4096

/-- A segment with a CTU beyond it has met an error of class E2. -/
def boundResult (limit : Nat) (x : SegmentResult) : SegmentResult :=
  if limit < x.bins ∧ x.error.isNone then { x with error := some .e2 } else x

/-- Whether a stripe of this row waits for its verdicts. -/
def awaitsVerdict (s : State) (n : StreamId) (row : Nat) : Bool := s.streams[n].flight.any (awaits s.lap.count row)

/-- The verifying decoder of a channel has its own copy of every row that the slices of a stripe predict from; an I slice needs none (R91, R132). -/
def verifierReady (s : State) (n : StreamId) (row : Nat) (c : Chan) : Bool :=
  let x := s.streams[n].search
  (s.streams[n].flight.filter (awaits s.lap.count row)).all fun k =>
    !x.hasWindow || (refRows s n k.picture k.refs row).all fun w => (x.verRing.get c).any (sameRow w)

def execSegmentVerified (c : Chan) (n : StreamId) (x : SegmentResult) (s : State) : Out :=
  if awaitsVerdict s n x.stripe && verifierReady s n x.stripe c then
    let y := poisonResult s.chans[c].spoiled (boundResult (binLimit s n) x)
    let v := segmentVerdict s n s.chans[c].verifyOn y
    let t := modStream (noteDone s c) n fun z => { z with flight := z.flight.map (judgeSegment s.lap.count c x v) }
    let t1 := if y.error.isSome ∧ s.chans[c].verifyOn then bump t (kChan c 0x3002 5) else t
    let t2 := if s.chans[c].spoiled then modChan t1 c fun z => { z with spoiled := false } else t1
    .next (if x.suppressed then suppressedWrite t2 c else t2)
  else .next s

/-! ## Tokens (06_decoders.md R145) -/

def verdictCode : Verdict → Nat × Nat
  | .good => (0, 0)
  | .bad c => (1, c)
  | .unverified c => (2, c)

/-- Bytes 0 to 27 of a token as a number, then TOKEN_CRC over them, big-endian (Table 6-3). -/
def tokenWord (hi : Nat) : BitVec 256 :=
  let bytes : List Byte := (leBytes 28 hi).reverse
  BitVec.ofNat 256 (hi * 2 ^ 32 + (crc32c bytes).toNat)

/-- The token of a slice with sequence number `seq`. -/
def tokenOf (n : StreamId) (k : Stripe) (l : Slice) (v : Verdict) (lastSlice supersedes : Bool) (seq : Nat) : BitVec 256 :=
  let b := fun (x : Bool) => if x then 1 else 0
  let c := verdictCode v
  let top := 1 * 2 ^ 28 + n.val * 2 ^ 24 + c.1 * 2 ^ 22 + c.2 * 2 ^ 18 + b l.withheld * 2 ^ 17 + b supersedes * 2 ^ 16 +
    b lastSlice * 2 ^ 15 + b k.irap * 2 ^ 14 + k.unit.bit * 2 ^ 13
  let mid := (((top * 2 ^ 32 + seq % 2 ^ 32) * 2 ^ 32 + k.timestamp % 2 ^ 32) * 2 ^ 32 + k.poc % 2 ^ 32) * 2 ^ 16 + l.firstSeq % 2 ^ 16
  tokenWord (((((((mid * 2 ^ 16 + l.packets % 2 ^ 16) * 2 ^ 24 + l.addr % 2 ^ 24) * 2 ^ 16 + k.row % 2 ^ 16) * 2 ^ 4 + l.chan.val) *
    2 ^ 4 + l.tile % 2 ^ 4) * 2 ^ 16 + l.ctus % 2 ^ 16))

/-- Whether slice i is the last of its access unit. -/
def endsPicture (k : Stripe) (i : Nat) : Bool := k.last && decide (i + 1 = k.slices.length)

/-- A stream's next TOKEN_SEQ is used. -/
def nextToken (s : State) (n : StreamId) : State :=
  let t := modStream s n fun x => { x with tokenSeq := (x.tokenSeq + 1) % 2 ^ 32 }
  let c := leadChan s n
  bump (regPut t (kVerify c n 3) t.streams[n].tokenSeq) (kVerify c n 4)

/-! ## The egress byte check (06_decoders.md R137) -/

/-- The slice that has left: of the oldest stripe of this row whose packets may not all have left before. -/
def departed (x : Stream) (row slice : Nat) : Option (Stripe × Slice) :=
  (x.recent ++ x.flight.filter fun k => k.released).findSome? fun k =>
    if k.row = row then (k.slices[slice]?).map fun l => (k, l) else none

/-- A slice has left; the verifying decoder's CRC-32C of its NAL unit bytes and the one of the bytes packetised differ: a datapath fault, and at the
next tick a token with cause 7 that supersedes. R137 makes no exception while verification is disabled (log entry 59, DEDUCED). -/
def execEgressByteCheck (c : Chan) (n : StreamId) (stripe slice : Nat) (verifier egress : List Byte) (s : State) : Out :=
  match departed s.streams[n] stripe slice with
  | none => .next s
  | some (k, l) =>
    if crc32c verifier = crc32c egress ∨ l.chan ≠ c then .next s
    else
      let t := bump s (kChan c 0x3002 9)
      let t1 := modStream t n fun x => { x with supersede := x.supersede ++ [(k, slice)] }
      .next (unitFaultOf t1 (viewUnit s) (.egress c))

end Sys2Proof.Machine
end

