-- ==== Sys2Proof/Machine/Reset.lean ====
section
/-! DEFINITION. Reset and bring-up (15_reset.md): sources, reach, delayed application, release steps, images, the saved
dictionary, boot. -/

namespace Sys2Proof.Machine

def kReset : Nat := key 0x2100 2

/-! ## Applying a module reset (R357, R359, R365, Tables 15-1, 15-2, 15-5) -/

/-- The registers a module reset other than power-on keeps: the reset-cause objects 0x2100 (R359). -/
def keptRegs (r : Store) : Store := r.filter fun p => p.1 / 256 == 0x2100

/-- Both units in reset; one whose rails were removed stays without them (16_power_ageing.md R381). -/
def bootCold (s : State) : Pair UnitBoot :=
  match s.stage.railsRemoved with
  | some u => State.reset.boot.mod u fun b => { b with mode := .railsOff }
  | none => State.reset.boot

/-- No lane is disabled before a channel start configures the links (07_sensor_lanes.md Table 7-11). -/
def downLane (x : Lane) : Lane := { x with mode := .down }

/-- Every subsystem in its cold-start state; kept are the flash, the power stage, the planner's results, the model's
clock and queue. DRAM contents are undefined after a reset that is not a power-up (log entry 4). -/
def moduleCold (s : State) (powerOn : Bool) : State :=
  let lost : DramState := { dramReset with undef := [(0, 60129542144, s.free)] }
  { State.reset with
    now := s.now
    free := s.free + 1
    pending := s.pending
    regs := if powerOn then [] else keptRegs s.regs
    dram := if powerOn then ⟨dramReset, dramReset⟩ else ⟨lost, lost⟩
    log := { logReset with
      previous := (if powerOn then s.flash.flushLog ++ s.flash.logSaved else s.log.records).take 1024 }
    boot := bootCold s
    lanes := ⟨(freshLanes s .a).map downLane, (freshLanes s .b).map downLane⟩
    flash := { s.flash with
      pulse := false
      writing := .none
      erasing := none
      areaEraseAt := none
      saving := none
      flushLog := if powerOn then [] else s.log.records
      logSaved := [] }
    stage := s.stage
    planner := { s.planner with lastEnd := none }
    time := { timeReset with tb3Start := s.now, tb1Start := s.now * 256, groupStart := s.now * 256 }
    lap := { lapReset with lastTick := s.now, nextTick := s.now + 15000 } }

/-- A further source in a module reset leaves the log as the reset found it (R359). -/
def keepLog (s t : State) : State :=
  { t with log := s.log, flash := { t.flash with flushLog := s.flash.flushLog, logSaved := s.flash.logSaved } }

/-- The flash after power-on has cut a program pulse: the record being written fails its CRC-32C (R369). -/
def cutPulse (f : FlashState) : FlashState :=
  match f.writing with
  | .history => { f with history := match f.history with
      | r :: t => { r with crcOk := false } :: t
      | [] => [] }
  | .saved => { f with saved := vmod f.saved (1 - f.savedNewest) fun x => x.map fun i => { i with crcOk := false } }
  | .log => { f with logSaved := f.logSaved.drop 1 }
  | .none => f

/-- The newest record of a die in the ageing history whose CRC-32C holds; a record that fails it is rejected (14_integrity.md
Table 14-1). -/
def lastRecord (f : FlashState) (die : DieId) : Option AgeRecord := f.history.find? fun r => r.crcOk && decide (r.die = die)

/-- At power-on the planner's offsets and canary steps are those of the ageing history (16_power_ageing.md R398). -/
def recallDies (f : FlashState) (v : Vector DieState 3) : Vector DieState 3 :=
  v.mapFinIdx fun i d hi => match lastRecord f ⟨i, hi⟩ with
    | some r => { d with target := r.offset, steps := r.canarySteps }
    | none => d

/-- The module as power-on reset leaves it; an erase that it cuts is handled as suspended (R369), and a power-on reset within one
keeps the previous session's log. -/
def powerOn (s : State) : State :=
  let s0 : State := { s with flash := cutPulse s.flash }
  let t := if s.rst.asserted.getLsbD 0 then keepLog s0 (moduleCold s0 true) else moduleCold s0 true
  { t with
    planner := { t.planner with dies := recallDies s0.flash t.planner.dies }
    rst := { rstReset with assertedAt := .replicate 8 s.now }
    flash := { t.flash with suspended := (suspendErase s).flash.suspended } }

/-- A module reset from source c is applied: sources held inside its reach are withdrawn, that of the module controller too, causes
gather while no release has begun, 0x2100:03 counts, a stopped channel's gated clock means a reset on the bypass clock (R357, R361);
any other source breaks the succession of R363. -/
def applyReset (s : State) (c : Nat) : State :=
  let again := decide (s.rst.asserted &&& 0x0F ≠ 0)
  let t := if again then keepLog s (moduleCold s false) else moduleCold s false
  let causes := (if again then s.rst.causes else 0) ||| BitVec.ofNat 8 (1 <<< c)
  let bypass := s.chans.toList.any fun ch => decide (ch.mode = .stopped)
  let t1 : State := { t with rst := { s.rst with
    asserted := (s.rst.asserted &&& 0x0B) ||| BitVec.ofNat 8 (1 <<< c)
    assertedAt := s.rst.assertedAt.set (c % 8) s.now (Nat.mod_lt _ (by decide))
    causes := causes
    step := 0
    releasing := false
    blocks := 0
    pendingClock := 0
    bypass := bypass
    limitChecked := false
    clockRuns := if c = 3 then s.rst.clockRuns else 0
    waiting := none } }
  let t2 := if again then t1 else bump t1 (key 0x2100 3)
  let t3 := clearFlag (regPut t2 (key 0x2100 1) causes.toNat) kReset 31
  let t4 := if causes.getLsbD 3 then setFlag (setFlag t3 kIntegrity 27) (key 0x2200 6) 24 else t3
  if bypass then setFlag t4 kReset 30 else t4

/-- A module reset is asserted: a program pulse in progress delays it, an erase in progress is suspended first
(R367, R368). -/
def assertModuleReset (s : State) (c : Nat) : State :=
  if s.flash.pulse then
    setFlag { s with rst := { s.rst with waiting := some c } } kReset 29
  else if s.flash.erasing.isSome || s.flash.areaEraseAt.isSome then
    setFlag { suspendErase s with rst := { s.rst with waiting := some c } } kReset 28
  else applyReset s c

/-- Power-on reset is never delayed: a pulse or an erase in progress is cut, an erase as if suspended (R369). -/
def execPowerOnReset (s : State) : Out := .next (powerOn s)

/-- RST_N low for more than 100 ns asserts source 1 and less than 50 ns is ignored (Table 15-1, 18_electrical.md R432);
between them the manual leaves it open (log entry 4). A pulse ends the hold of R363. -/
def execRstNAssert (ns : Nat) (s : State) : Out :=
  let t : State := { s with rst := { s.rst with heldForever := false, clockRuns := 0 } }
  if 100 < ns then .next (assertModuleReset t 1)
  else if ns < 50 then .next s
  else if Config.shortPulseResets s.free then .next (assertModuleReset (drawFree t) 1)
  else .next (drawFree s)

/-- Three module resets from source 3 in succession, each followed by less than 1 s of stable operation, hold the module
in reset; a second monitor's fault while source 3 is asserted is the same reset (R363). -/
def assertClockReset (s : State) : State :=
  let runs := if s.rst.asserted.getLsbD 3 then s.rst.clockRuns
    else if s.now < s.rst.releasedAt + cyclesPerSec ∨ s.rst.releasing then s.rst.clockRuns + 1
    else 1
  let t := assertModuleReset s 3
  let t1 := { t with rst := { t.rst with clockRuns := runs, heldForever := t.rst.heldForever || decide (3 ≤ runs) } }
  setFlag t1 kIntegrity 27

/-! ## Release (R362 to R365, Table 15-3) -/

/-- A source is released; when no module source remains asserted the sequence of R375 begins (R364). -/
def releaseSource (s : State) (c : Nat) : State :=
  let left := s.rst.asserted &&& ~~~ (BitVec.ofNat 8 (1 <<< c))
  let begin_ := decide (c < 4) && decide (left &&& 0x0F = 0) && decide (s.rst.asserted &&& 0x0F ≠ 0) && !s.rst.heldForever
  { s with rst := { s.rst with
      asserted := left
      releasing := s.rst.releasing || begin_
      releasedAt := if begin_ then s.now else s.rst.releasedAt } }

def isAsserted (s : State) (c : Nat) : Bool := s.rst.asserted.getLsbD c

/-- RST_N returns high. -/
def execRstNRelease (s : State) : Out := .next (if isAsserted s 1 then releaseSource s 1 else s)

/-- How long a source is held after its assertion, in core cycles (Table 15-1). -/
def holdTime (c : Nat) : Nat :=
  match c with
  | 0 => cyclesPerMs
  | 1 => 0
  | 2 => cyclesPerMs
  | 3 => cyclesPerMs
  | 4 => 16 * cyclesPerRef
  | 5 => 16 * cyclesPerRef
  | 6 => 10 * cyclesPerMs
  | _ => 16

/-- The blocks of a software block reset that have their clocks leave reset (R362, R366). -/
def releaseBlocks (s : State) : State :=
  { s with rst := { s.rst with blocks := s.rst.blocks &&& s.rst.pendingClock } }

/-- A timed source is released (Table 15-1). At the release of power-on reset IOVSEL is sampled: its level is the
integrator's, so a free value (18_electrical.md R428, log entry 4). -/
def execResetSourceRelease (code : Fin 8) (s : State) : Out :=
  if isAsserted s code.val && decide (s.rst.assertedAt.get code + holdTime code.val ≤ s.now) then
    if code.val = 6 then .next (releaseRepair s)
    else if code.val = 7 then .next (releaseBlocks (releaseSource s 7))
    else if code.val = 0 then
      .next (releaseSource (drawFree { s with pins := { s.pins with iovHigh := decide (freeWord s 1 = 1) } }) 0)
    else .next (releaseSource s code.val)
  else .next s

/-- A block's clock becomes stable: it is switched back from bypass and its release proceeds (R361, R362). -/
def execClockStable (s : State) : Out :=
  .next (clearFlag { s with rst := { s.rst with
    pendingClock := 0
    bypass := false
    blocks := if isAsserted s 7 then s.rst.blocks else 0 } } kReset 31)

/-- A clock not stable within 1 ms: in a unit a unit clock fault, and the unit is treated as in repair; in the base die
source 3 (R363). -/
def execClockStableTimeout (where_ : Option UnitId) (s : State) : Out :=
  match where_ with
  | some u => .next (enterRepair (raiseEmcyOf s u 0x5013 kReset u.bit) u)
  | none => .next (assertClockReset s)

/-- The units' boots start with their engines' boot ROM (Table 15-3 step 4); a unit that entered repair meanwhile stays in reset
(R363), one without rails off (16_power_ageing.md R381). -/
def startBoots (s : State) : Pair UnitBoot :=
  let start := fun (u : UnitId) =>
    if (s.relay.repair ≠ .none ∧ s.relay.repairUnit = u) ∨ s.stage.railsRemoved = some u then s.boot.get u else { s.boot.get u with mode := .booting }
  ⟨start .a, start .b⟩

/-- The DRAM channels of a unit are trained from the last-good values of the flash; a channel whose value is absent, fails its CRC-32C or does
not pass training (`failed`) is trained from factory values (11_dram.md R282). -/
def trainChannels (s : State) (u : UnitId) (failed : BitVec 32) : DramState :=
  let d := s.dram.get u
  { d with chan := d.chan.mapFinIdx fun i c hi =>
      { c with trained := (goodWord ((s.flash.training.get u).get ⟨i, hi⟩)).isSome && !failed.getLsbD i } }

/-- Both units train; which stored values pass is a free value (log entry 4); a channel trained from factory values sets TRAINING_FALLBACK
(Table 11-6), which describes the unit whose view the objects give (R283). -/
def trainUnits (s : State) : State :=
  let t : State := drawFree (drawFree { s with
    dram := ⟨trainChannels s .a (Config.freeValue 32 s.free), trainChannels s .b (Config.freeValue 32 (s.free + 1))⟩ })
  if (t.dram.get (viewUnit t)).chan.toList.all fun c => c.trained then t else setFlag t (key 0x2800 0x10) 26

/-- Every block of a step is ready and the next begins; the module controller's and the units' boot ROMs run from step 4,
the time core starts TB3 and TB0 at 0 in step 5 (Table 15-3, 10_time.md R243). -/
def execReleaseStepDone (s : State) : Out :=
  if s.rst.pendingClock ≠ 0 ∨ s.rst.step.val = 0 then .next s
  else
    let n := s.rst.step.val
    let t := if n = 2 then trainUnits s else s
    .next { t with
      rst := { s.rst with
        step := if n = 6 then 0 else s.rst.step + 1
        releasing := s.rst.releasing && decide (n ≠ 6)
        stepAt := s.now }
      ctrl := if n = 4 then { s.ctrl with mode := .booting } else s.ctrl
      boot := if n = 4 then startBoots s else s.boot
      time := if n = 5 then { s.time with tb3Start := s.now, tb0 := 0, tb1Start := s.now * 256, groupStart := s.now * 256 } else s.time
      lap := if n = 5 then { s.lap with lastTick := s.now, nextTick := s.now + 15000 } else s.lap }

/-! ## Flash in progress (R367, R368) -/

def applyWaiting (s : State) : State :=
  match s.rst.waiting with
  | some c => applyReset s c
  | none => s

/-- A program pulse ends and a delayed reset is applied (R367). -/
def execProgramPulseEnd (s : State) : Out := .next (applyWaiting { s with flash := { s.flash with pulse := false, writing := .none } })

/-- A sector erase is suspended, never to resume; its intent entry stays (R368, R370). -/
def execEraseSuspendDone (s : State) : Out :=
  let t := suspendErase s
  .next (applyWaiting { t with flash := { t.flash with erasing := none, areaEraseAt := none } })

/-! ## Limit record and journal (R211, R339, R340, R370) -/

/-- The record's CRC holds and every value is in the range of R210 and R340. -/
def limitGood (l : LimitRecord) : Bool :=
  l.crcOk && l.ceilRate.toList.all (fun c => decide (1000 ≤ c ∧ c ≤ 100000)) &&
  l.ceilDepth.toList.all (fun d => decide (2048 ≤ d ∧ d ≤ 65536)) &&
  l.frameLimit.toList.all (fun f => decide (1522 ≤ f ∧ f ≤ 9022)) && decide (100 ≤ l.current ∧ l.current ≤ 270)

/-- The boot region a sector lies in: region r holds sectors 1,536 r to 1,536 r + 1,535. -/
def sectorIn (r sector : Nat) : Bool := decide (sector / 1536 = r)

/-- The limit record that 128 bytes hold, little-endian (Table 14-3): the CRC-32C over bytes 0 to 123, VERSION 1 and length 128. -/
def parseLimit (l : List Byte) : LimitRecord :=
  { crcOk := decide (l.length = 128 ∧ recordAt l 0 4 = 0x00010080 ∧ (crc32c (l.take 124)).toNat = recordAt l 124 4)
    macs := Vector.ofFn fun (i : Fin 4) => recordAt l (4 + 8 * i.val) 6
    ceilRate := Vector.ofFn fun (i : Fin 4) => recordAt l (36 + 4 * i.val) 4
    ceilDepth := Vector.ofFn fun (i : Fin 4) => recordAt l (52 + 4 * i.val) 4
    frameLimit := Vector.ofFn fun (i : Fin 4) => recordAt l (68 + 2 * i.val) 2
    current := recordAt l 76 2 }

/-- The record that the flash holds. One may have been written since the last check only where maintenance was unlocked meanwhile, for the flash
controller refuses the write otherwise (R211; 01_module.md R24). The manual gives the write no object: whether one was written, and its bytes, are
free values (log entry 55, DESIGN CHOICE). -/
def recordInForce (s : State) : LimitRecord :=
  if s.flash.limitOpen then
    match Config.limitWritten s.free with
    | some l => parseLimit l
    | none => s.flash.limit
  else s.flash.limit

/-- The limit record is checked, FAULT_N leaves high impedance, the journal's unfinished sectors are erased again and
counted in 0x2100:08, and the release steps begin (R211, R340, R355, R370, R375). -/
def execLimitRecordCheck (s : State) : Out :=
  if s.rst.releasing ∧ s.rst.step.val = 0 then
    let limit := recordInForce s
    let good := limitGood limit
    let t := regPut (regPut s (key 0x2100 8) s.flash.intents.length) (key 0x5C00 9)
      (if good then limit.current else 270)
    let t1 := if good then clearFlag t kIntegrity 30 else raiseEmcy (setFlag t kIntegrity 30) 0x6300 kIntegrity 0
    let t2 := forEach allPorts (fun x p => putFlag x (kPort p 0x0B) 26 (!good)) t1
    .next { t2 with
      free := if s.flash.limitOpen then s.free + 1 else s.free
      rst := { t2.rst with limitChecked := true, step := 1, stepAt := s.now }
      ports := t2.ports.mapFinIdx fun i p hi => { p with bucket := limit.ceilDepth.get ⟨i, hi⟩ * 2 ^ 24 }
      flash := { t2.flash with
        limit := limit
        limitOpen := false
        suspended := false
        intents := []
        regions := t2.flash.regions.mapFinIdx fun i r _ =>
          { r with reErased := s.flash.intents.any (sectorIn i) } } }
  else .next s

/-! ## Images (R371, R372) -/

/-- The stepping of every die of the module, B1, as 0x1018:03 spells it (00_scope.md R4, R5). -/
def ownStepping : Nat := 0x00420001

/-- The first failing test of R371, 1 to 5; 0 where the package is acceptable. The stepping field is compared with the
die's own stepping (00_scope.md R5). -/
def imageReason (h : PackageHeader) : Nat :=
  if !h.keyOk then 1 else if !h.signatureOk then 2 else if h.stepping ≠ ownStepping then 3
  else if h.rollback < Config.rollbackFloor then 4 else if !h.hashOk then 5 else 0

def imageGood (r : Region) : Bool :=
  match r.header with
  | some h => decide (imageReason h = 0) && !r.reErased
  | none => false

def regionVersion (r : Region) : Nat :=
  match r.header with
  | some h => h.version
  | none => 0

/-- The region tried first: the one with the higher version (R372). Where both hold the same version, of which R24 and R372 say nothing, region 0 is
tried first (DESIGN CHOICE, log entry 81). -/
def firstRegion (r : Vector Region 2) : Fin 2 := if regionVersion (r.get 0) < regionVersion (r.get 1) then 1 else 0

/-- The region booted from and whether it is the second one tried. -/
def bootRegion (r : Vector Region 2) : Option (Fin 2 × Bool) :=
  let i := firstRegion r
  if imageGood (r.get i) then some (i, false)
  else if imageGood (r.get (1 - i)) then some (1 - i, true)
  else none

/-- The header read from a boot region; an erased header reads as none (17_dictionary.md R418). -/
def readRegion (r : Region) (h : PackageHeader) : Region := if r.blank then { r with header := none } else { r with header := some h }

/-- The headers read from the two boot regions. -/
def readRegions (s : State) (hs : Vector PackageHeader 2) : State :=
  { s with flash := { s.flash with
      regions := #v[readRegion (s.flash.regions.get 0) (hs.get 0), readRegion (s.flash.regions.get 1) (hs.get 1)] } }

/-- An image object: [31] region, [30:0] version (Table 15-7). -/
def imageWord (r : Vector Region 2) (i : Fin 2) : Nat := i.val * 2 ^ 31 + regionVersion (r.get i) % 2 ^ 31

/-- The module controller's image is checked: booted, booted from the second region, or the recovery loader (R372). -/
def execControllerImageCheck (regions : Vector PackageHeader 2) (s : State) : Out :=
  if s.ctrl.mode = .booting then
    let t := readRegions s regions
    match bootRegion t.flash.regions with
    | some (i, second) =>
      let t1 := regPut t (key 0x2100 7) (imageWord t.flash.regions i)
      let t2 := if second then setFlag t1 kReset 27 else t1
      .next { t2 with ctrl := { t2.ctrl with mode := .imageOk }, firmware := { t2.firmware with region := 1 - i } }
    | none => .next { t with ctrl := { t.ctrl with mode := .recovery } }
  else .next s

/-- A unit image is checked by the unit's boot ROM, which loads the firmware with its tasks; with no acceptable region the unit stays in reset and reports a boot
fault, which fails a repair in progress (R5, R372, R330). -/
def execUnitImageCheck (u : UnitId) (x : UnitImage) (s : State) : Out :=
  if (s.boot.get u).mode = .booting then
    let t := readRegions s x.regions
    match bootRegion t.flash.regions with
    | some (i, second) =>
      let t1 := clearFlag (regPut t (key 0x2100 (5 + u.bit)) (imageWord t.flash.regions i)) kReset (26 - u.bit)
      let t2 := if second then raiseEmcyOf (setFlag t1 kReset 27) u 0x6000 kReset u.bit else t1
      .next { t2 with boot := t2.boot.mod u fun b => { b with mode := .imageChecked, tasks := x.tasks } }
    | none =>
      let t1 := setFlag t kReset (26 - u.bit)
      let t2 : State := { t1 with boot := t1.boot.mod u fun b => { b with mode := .bootFault } }
      if t2.relay.repair = .booting ∧ t2.relay.repairUnit = u then .next (repairFailed t2)
      else .next (homeLateAct t2)
  else .next s

/-! ## The dictionary at boot (R373; 17_dictionary.md R424) -/

/-- The newest readable copy of the saved dictionary. -/
def savedNewest (f : FlashState) : Option SavedImage :=
  if f.savedVoid then none
  else
    match f.saved.get f.savedNewest with
    | some i => if i.crcOk then some i else none
    | none => none

/-- Values in canonical form. -/
def storeOf (l : List (Nat × Nat)) : Store := l.foldl (fun st p => assocPut defaultOf st p.1 p.2) []

/-- Transmitter delay compensation is enabled above 1,000 kbit/s in the data phase (18_electrical.md R433). -/
def compensates (rate : Nat) : Bool := decide (1000 < rate)

/-- The delay that the node measures at a data phase which begins now, ns (R433). -/
def measuredDelay (s : State) : Option Nat := if s.can.delayComp then some (Config.loopDelay s.now) else none

/-- The CAN FD node takes its node-ID, bit rates and identifiers into effect (R407, R424). -/
def nodeStart (s : State) : CanState :=
  let id := cfg s (key 0x2002 1)
  let saved := match savedNewest s.flash with
    | some i => i.emcyCobWritten
    | none => false
  { s.can with
    nmt := .preOperational
    nodeId := id
    nominal := cfg s (key 0x2002 2)
    data := cfg s (key 0x2002 3)
    syncId := cfg s (key 0x1005 0)
    emcyId := if saved then assocGet defaultOf s.dict.master (key 0x1014 0) else 0x80 + id
    heartbeatAt := s.now
    bootUps := s.can.bootUps + 1
    cobWritten := saved
    delayComp := compensates (cfg s (key 0x2002 3)) }

/-- A boot of the controller from the second region raises its EMCY once the controller runs (R372). -/
def noteFallback (s : State) : State :=
  match bootRegion s.flash.regions with
  | some (_, true) => raiseEmcy s 0x6000 kReset 0
  | _ => s

/-- 16_power_ageing.md Table 16-8; 0 where the session had none. -/
def pfWord (r : Option PfRecord) : Nat :=
  match r with
  | some r => r.seconds * 2 ^ 80 + r.vin % 2 ^ 16 * 2 ^ 64 + r.hold % 2 ^ 16 * 2 ^ 48 + r.cause * 2 ^ 40 +
      (if r.flushed then 2 ^ 39 else 0) + (if r.skipped then 2 ^ 38 else 0) + (if r.returned then 2 ^ 37 else 0) +
      r.flushTime % 2 ^ 16 * 2 ^ 16 + r.logRecords % 2 ^ 16
  | none => 0

/-- 0x5C00:0C shows the power-fail record of the previous session. -/
def showPowerFail (s : State) : State :=
  regPut { s with flash := { s.flash with pfRecord := none } } (key 0x5C00 0x0C) (pfWord s.flash.pfRecord)

/-- The saved dictionary is loaded, or the defaults; the dictionary answers and the boot-up message is sent; a boot from
the second region raises its EMCY now that the controller runs; shaper counts and meters begin as the loaded values say (09_flows.md R225, R234); the power-fail record is the previous session's (Table 15-4, R372,
R421; 16_power_ageing.md R390). -/
def execDictionaryLoad (s : State) : Out :=
  if s.ctrl.mode = .imageOk then
    let values := match savedNewest s.flash with
      | some i => storeOf i.values
      | none => []
    let bad := !s.flash.savedVoid && (savedNewest s.flash).isNone
    let t : State := { s with
      dict := { s.dict with master := values, shadowA := values, shadowB := values, applied := values }
      ctrl := { s.ctrl with mode := .running } }
    let t1 : State := { t with
      can := nodeStart t
      meters := ⟨metersFull t, metersFull t⟩
      flows := t.flows.mapFinIdx fun i x hi => { x with tokens := resetCount t ⟨i, hi⟩ } }
    let t2 := if bad then raiseEmcy (setFlag t1 kReset 24) 0x6301 kReset 0 else t1
    .next (showPowerFail (noteFallback t2))
  else .next s

/-- A unit completes its boot: it takes the whole shadow image, its dispatcher the tasks of its image, the planner's power-up run begins, on the factory baseline where
no history is stored, and a unit in repair goes on to its self-test (R373, R330; 17_dictionary.md R405; 16_power_ageing.md R397). -/
def execBootComplete (u : UnitId) (s : State) : Out :=
  if (s.boot.get u).mode = .imageChecked then
    let t : State := { s with
      boot := s.boot.mod u fun b => { b with mode := .booted, bootedAt := s.now }
      disp := s.disp.set u (bootTasks (s.boot.get u).tasks)
      dict := match u with
        | .a => { s.dict with shadowA := s.dict.master }
        | .b => { s.dict with shadowB := s.dict.master }
      relay := if s.relay.repair = .booting ∧ s.relay.repairUnit = u then { s.relay with repair := .testing } else s.relay }
    .next (if s.planner.lastEnd.isNone then
      putFlag (setFlag t (key 0x5C10 5) 31) (key 0x5C10 5) 27 s.flash.history.isEmpty else t)
  else .next s

/-! ## Software block reset (R366, Table 15-10) -/

/-- Why a block reset is refused (R366). -/
def blockRefused (s : State) (k : Client) (mask : BitVec 32) : Option Abort :=
  if mask &&& 0x0CFFF000 ≠ 0 then some .outOfRange
  else if allChans.any fun c => (mask.getLsbD c.val || mask.getLsbD (4 + c.val)) && chanBusy s.chans[c] then
    some .presentState
  else if mask &&& 0xF0 ≠ 0 ∧ ¬ unlocked s k then some .localControl
  else if allChans.any fun d => mask.getLsbD (8 + d.val) && (s.capture.readouts.get d).running then some .presentState
  else none

/-- The named blocks of both units are reset (R366): a port PCS goes down, a link-down event, slots read empty, the return
decoder and monitor output, DMA channels, verifying decoders, channels with their Pacer state. -/
def resetBlocks (s : State) (mask : BitVec 32) : State :=
  let t := forEach allPorts (fun x p => if mask.getLsbD (28 + p.val) then linkDown x p else x) s
  { t with
    ports := t.ports.mapFinIdx fun i p _ => if mask.getLsbD (28 + i) then { p with pcs := ⟨pcsReset, pcsReset⟩ } else p
    slots := if mask.getLsbD 25 then ⟨.replicate 32 slotEmpty, .replicate 32 slotEmpty⟩ else t.slots
    ret := if mask.getLsbD 24 then { retReset with enabled := t.ret.enabled, setting := t.ret.setting, outputs := t.ret.outputs } else t.ret
    mon := if mask.getLsbD 24 then { monReset with selected := t.mon.selected } else t.mon
    dma := ⟨t.dma.a.mapFinIdx fun i d _ => if decide (i < 4) && mask.getLsbD (8 + i) then dmaReset else d,
            t.dma.b.mapFinIdx fun i d _ => if decide (i < 4) && mask.getLsbD (8 + i) then dmaReset else d⟩
    chans := t.chans.mapFinIdx fun i c _ => if mask.getLsbD i then { chanReset with verifyOn := c.verifyOn }
      else if mask.getLsbD (4 + i) then { c with spoiled := false } else c
    streams := t.streams.mapFinIdx fun i x hi =>
      if mask.getLsbD (leadChan s ⟨i, hi⟩).val then { x with pacer := pacerReset, coding := none } else x }

/-- A write of 0x2101:01 (R366): a stopped channel's clock is gated, so it is reset on the bypass clock and waits for its
own clock (R361, R362). -/
def doBlockReset (k : Client) (mask : BitVec 32) (s : State) : Except Abort State :=
  match blockRefused s k mask with
  | some a => .error a
  | none =>
    let t := assertSource (resetBlocks s mask) 7
    let gated := mask &&& 0x0F
    let t1 : State := { t with rst := { t.rst with
      blocks := t.rst.blocks ||| mask
      blocksAt := s.now
      pendingClock := t.rst.pendingClock ||| gated
      bypass := t.rst.bypass || decide (gated ≠ 0) } }
    .ok (if gated ≠ 0 then setFlag (setFlag t1 kReset 30) kReset 31 else t1)

def execBlockReset (k : Client) (mask : BitVec 32) (s : State) : Out :=
  .next (serveWrite s k 0x2101 (doBlockReset k mask))

end Sys2Proof.Machine
end

