-- ==== Sys2Proof/Machine/Time.lean ====
section
/-! DEFINITION. Time bases, genlock, the PTP servo, output pins, clock monitors (10_time.md). -/

namespace Sys2Proof.Machine

def kTime (sub : Nat) : Nat := key 0x2200 sub

/-! ## TB1 (R245, R246) -/

/-- The TB1 period in use, within ±50 ppm of nominal; nominal until the first picture start (R246). -/
def tb1PeriodNow (s : State) : Nat :=
  let n := tb1Nominal s
  let off := n * 50 / 1000000
  if s.time.tb1Period = 0 then n else max (n - off) (min (n + off) s.time.tb1Period)

/-- TB1's next picture start. -/
def tb1Due (s : State) : Nat := s.time.tb1Start + tb1PeriodNow s

/-- Core cycles × 256 from a TB1 picture start at t until TB0 reaches the source's next one: n × den / num seconds, the one nearest a nominal
period ahead (R245). -/
def tb0Ahead (s : State) (t : Nat) : Nat :=
  let num := max 1 (cfg s (key 0x2203 2))
  let unit := cfg s (key 0x2203 3) * 10 ^ 9 * 2 ^ 32
  let tb0 := tb0At s t
  let n := (tb0 * num + unit / 2) / max 1 unit + 1
  (n * unit / num - tb0) * 15 * 256 / (10 * 2 ^ 32 + s.time.adj).toNat

/-- What TB1's source asks of the period that starts at t: TB0, the locked genlock edge, else the last period (R245). -/
def tb1Target (s : State) (t : Nat) : Nat :=
  if cfg s (key 0x2203 1) = 0 then tb0Ahead s t
  else if s.time.genLocked then
    match s.time.genExpected with
    | some e =>
      let p := tb1PeriodNow s
      let d := e * 256 - t
      if 2 * d < p then d + p else d
    | none => tb1PeriodNow s
  else tb1PeriodNow s

/-- The change that R246 allows in a period, 1 ppm per second: what is due now, and what has not reached 1/256 cycle yet. -/
def tb1Step (nominal old rest : Nat) : Nat × Nat :=
  let unit := 256 * cyclesPerSec * 1000000
  ((nominal * old + rest) / unit, (nominal * old + rest) % unit)

/-- The two limits of R246: 1 ppm of change per second, and ±50 ppm of nominal. -/
def tb1Clamp (nominal old step target : Nat) : Nat :=
  let off := nominal * 50 / 1000000
  max (nominal - off) (min (nominal + off) (max (old - step) (min (old + step) target)))

/-- The number of the picture that starts at t: with TB0 as the source the one whose time n × den / num is nearest, counted
from the PTP epoch; with GENLOCK_IN the next from the first edge after lock (R245, R247). -/
def tb1Number (s : State) (t : Nat) : Nat :=
  if cfg s (key 0x2203 1) = 0 then
    let unit := cfg s (key 0x2203 3) * 10 ^ 9 * 2 ^ 32
    (tb0At s t * cfg s (key 0x2203 2) + unit / 2) / max 1 unit
  else s.time.tb1Index + 1

/-- TB1 reaches its next picture start: its index, its next period, TB1_LIMITED, the group of TB2 pictures it opens
(R245 to R247). -/
def tb1Advance (s : State) : State :=
  let at_ := tb1Due s
  let old := tb1PeriodNow s
  let target := tb1Target s at_
  let step := tb1Step (tb1Nominal s) old s.time.tb1Rest
  let p := tb1Clamp (tb1Nominal s) old step.1 target
  let n := tb1Number s at_
  putFlag { s with time := { s.time with
    tb1Start := at_
    tb1Period := p
    tb1Rest := step.2
    tb1Index := n
    tb1Limited := decide (p ≠ target)
    groupStart := if n % ratioK s = 0 then at_ else s.time.groupStart } } (kTime 6) 28 (decide (p ≠ target))

/-- TB1 reaches a picture start, once its time has come, as TB1 never steps (R241): the monitor output sends a picture where a unit is active
(06_decoders.md R154). -/
def execTb1PictureStart (s : State) : Out :=
  if tb1Due s ≤ s.now * 256 then
    let t := tb1Advance s
    .next (if t.relay.active.isSome then monitorPicture t else t)
  else .next s

/-! ## Genlock (R245) -/

/-- ±2 µs. -/
def genWindow : Nat := 2 * cyclesPerUs

/-- Cycles of a TB1 period. -/
def genPeriod (s : State) : Nat := tb1PeriodNow s / 256

/-- Lock is lost: GENLOCK_LOST and one EMCY; TB1 continues at its last frequency. -/
def loseGenlock (s : State) : State :=
  let t := raiseEmcy (setFlag (clearFlag s (kTime 6) 30) (kTime 6) 29) 0x9003 (kTime 6) 0
  { t with time := { t.time with genLocked := false, genEdges := 0, genMisses := 0 } }

/-- An edge missing, or outside its window. -/
def genlockMiss (s : State) : State :=
  if s.time.genLocked then
    (if 3 ≤ s.time.genMisses + 1 then loseGenlock s
     else { s with time := { s.time with genMisses := s.time.genMisses + 1 } })
  else { s with time := { s.time with genEdges := 0 } }

/-- An edge within its window: the eighth in a row locks TB1. Groups are counted from the first edge after lock: the TB1 picture start nearest to it
is the first of a group (R245, R247). -/
def genlockHit (s : State) : State :=
  if s.time.genLocked then { s with time := { s.time with genMisses := 0 } }
  else if 8 ≤ s.time.genEdges + 1 then
    let k := ratioK s
    let early := decide (2 * tb1Due s < (2 * s.now + genPeriod s) * 256)
    setFlag { s with time := { s.time with
      genLocked := true
      genEdges := 8
      genMisses := 0
      tb1Index := 2 * k - (if early then 2 else 1) } } (kTime 6) 30
  else { s with time := { s.time with genEdges := s.time.genEdges + 1 } }

/-- Whether an edge is the late one of a predicted time that has been counted as missing. -/
def lateEdge (s : State) (e : Nat) : Bool := s.time.genCounted && decide (2 * s.now + genPeriod s < 2 * e)

/-- A rising edge on GENLOCK_IN; the first edge has no predicted time and only sets one. -/
def execGenlockEdge (s : State) : Out :=
  if cfg s (key 0x2203 1) = 1 then
    let t := match s.time.genExpected with
      | none => s
      | some e =>
        if s.now ≤ e + genWindow ∧ e ≤ s.now + genWindow then genlockHit s
        else if lateEdge s e then s
        else genlockMiss s
    .next { t with time := { t.time with genExpected := some (s.now + genPeriod s), genCounted := false } }
  else .next s

/-- The expected edge has not come within its window. -/
def execGenlockEdgeMissing (s : State) : Out :=
  match s.time.genExpected with
  | some e =>
    if cfg s (key 0x2203 1) = 1 ∧ e + genWindow < s.now then
      let t := genlockMiss s
      .next { t with time := { t.time with genExpected := some (e + genPeriod s), genCounted := true } }
    else .next s
  | none => .next s

/-! ## Output pins (R261) -/

/-- The TB0 second that is nearest from below, with the 2 ns of R261 allowed for. -/
def tb0SecondNow (s : State) : Nat := (2 * 2 ^ 32 + tb0Now s) / (10 ^ 9 * 2 ^ 32)

/-- TB0 is within ±2 ns of that second, whose pulse has not begun (R261). -/
def secondDue (s : State) : Bool :=
  decide ((2 * 2 ^ 32 + tb0Now s) % (10 ^ 9 * 2 ^ 32) ≤ 4 * 2 ^ 32 ∧ s.time.second ≠ tb0SecondNow s)

/-- At a TB0 second PPS_OUT rises; the time in HOLDOVER counts a second (0x2200:0E). -/
def execTb0Second (s : State) : Out :=
  if secondDue s then
    let t : State := { s with
      pins := { s.pins with
        pps := true
        ppsFall := s.now + cfg s (key 0x2204 9) * cyclesPerUs }
      time := { s.time with second := tb0SecondNow s } }
    .next (if t.time.servo = .holdover then bump t (kTime 0x0E) else t)
  else .next s

/-- Pulses that end now: SYNC_OUT pins, each by the setting of its last event, and PPS_OUT fall. -/
def fallPins (s : State) : State :=
  { s with pins := { s.pins with
      syncOut := s.pins.syncOut.mapFinIdx fun i v hi =>
        if s.pins.syncFall.get ⟨i, hi⟩ ≤ s.now then
          (s.pins.syncWord.get ⟨i, hi⟩).testBit 31 && decide (fieldOf (s.pins.syncWord.get ⟨i, hi⟩) 26 24 ≠ 0) &&
            decide (s.pins.syncFall.get ⟨i, hi⟩ ≠ 0)
        else v
      pps := s.pins.pps && decide (s.now < s.pins.ppsFall) } }

/-! ## Best master and selected port (R250) -/

def ptpOn (s : State) (p : PortId) : Bool := (cfg s (key 0x2201 1)).testBit p.val

/-- The dataset comparison of IEEE 1588-2019 as a list of fields, smaller first: different grandmasters by priority1,
class, accuracy, variance, priority2, identity; the same one by steps removed, then sender. -/
def rankFields (a b : PtpAnnounce) : List (Nat × Nat) :=
  if a.gmId = b.gmId then [(a.stepsRemoved, b.stepsRemoved), (a.sourceId, b.sourceId)]
  else [(a.priority1, b.priority1), (a.clockClass, b.clockClass), (a.clockAccuracy, b.clockAccuracy),
    (a.variance, b.variance), (a.priority2, b.priority2), (a.gmId, b.gmId)]

def lexBefore : List (Nat × Nat) → Bool
  | [] => false
  | (a, b) :: t => decide (a < b) || (decide (a = b) && lexBefore t)

/-- a ranks strictly better than b. -/
def ranksBetter (a b : PtpAnnounce) : Bool := lexBefore (rankFields a b)

/-- The best of the masters heard (R250). -/
def bestOf (l : List Master) : Option Master :=
  l.foldl (fun best m => match best with
    | none => some m
    | some b => if ranksBetter m.announce b.announce then some m else some b) none

/-- A port's best master. -/
def portMaster (s : State) (p : PortId) : Option Master := bestOf (s.time.masters[p]).heard

/-- The enabled port, of those given, whose best master ranks first; the lower number wins a tie. -/
def bestPort (s : State) (ps : List PortId) : Option (PortId × Master) :=
  ps.foldl (fun best p =>
    match portMaster s p with
    | none => best
    | some m =>
      if !ptpOn s p then best
      else
        match best with
        | none => some (p, m)
        | some b => if ranksBetter m.announce b.2.announce then some (p, m) else best) none

/-- TRACEABLE: LOCKED and the grandmaster's timeTraceable (R254). -/
def settleTraceable (s : State) : State :=
  putFlag s (kTime 6) 31 (decide (s.time.servo = .locked) && s.time.traceable)

/-- What the selected port's Announce gives (Table 10-7). A grandmaster other than the one known returns the servo to
ACQUIRING and sets SOURCE_CHANGED (R250); the wait for its samples begins (R251). The UTC offset of the synchronization metadata TLV comes before the
Announce's (R248). -/
def takeMaster (s : State) (p : PortId) (a : PtpAnnounce) : State :=
  let first := decide (s.time.grandmaster = 0)
  let change := decide (s.time.grandmaster ≠ a.gmId)
  let s1 : State := { s with time := { s.time with
    selected := some p
    grandmaster := a.gmId
    traceable := a.timeTraceable
    metadata := if change then none else s.time.metadata
    respLog := if change then none else s.time.respLog
    utcOffset := if change then a.utcOffset else s.time.metadata.getD a.utcOffset
    servo := if change then .acquiring else s.time.servo
    bigSamples := if change then 0 else s.time.bigSamples
    smallSamples := if change then 0 else s.time.smallSamples
    lastSample := if change then s.now else s.time.lastSample } }
  let s2 := if change && !first then setFlag s1 (kTime 6) 25 else s1
  let s3 := regPut s2 (kTime 0x0C) (a.clockClass * 2 ^ 24 + a.clockAccuracy % 256 * 65536 + a.variance % 65536)
  settleTraceable s3

/-- HOLDOVER with no master left. -/
def dropMaster (s : State) : State :=
  let t : State := { s with time := { s.time with selected := none } }
  if t.time.servo = .acquiring ∨ t.time.servo = .locked then enterHoldover t else t

/-- The selected port after a change of masters: kept unless its master is lost or other ports' have ranked strictly
better for 4 consecutive Announce intervals, of which the first ranked is taken (R250). -/
def reselect (s : State) : State :=
  let best := match bestPort s allPorts with
    | some x => takeMaster s x.1 x.2.announce
    | none => dropMaster s
  match s.time.selected with
  | none => best
  | some q =>
    match (if ptpOn s q then portMaster s q else none) with
    | none => best
    | some n =>
      match bestPort s (allPorts.filter fun p => decide (p ≠ q ∧ 4 ≤ (s.time.masters[p]).better)) with
      | some x => takeMaster s x.1 x.2.announce
      | none => takeMaster s q n.announce

/-- How many intervals in a row the best master of port p has ranked strictly better than the selected one. -/
def betterCount (s : State) (p : PortId) (a : PtpAnnounce) (old : Nat) : Nat :=
  match s.time.selected with
  | some q =>
    if q = p then 0
    else
      match portMaster s q with
      | some n => if ranksBetter a n.announce then old + 1 else 0
      | none => 0
  | none => 0

/-- States of the slave-only port state machine of IEEE 1588-2019 (R250). -/
inductive PtpState where
  | initializing
  | faulty
  | disabled
  | listening
  | uncalibrated
  | slave
  deriving DecidableEq, Repr

/-- A port's state: the controller does not run, the link does not serve, PTP is off there, no master is heard, the port is not the selected one or the
servo has not locked to its master, or it follows its master. -/
def ptpState (s : State) (p : PortId) : PtpState :=
  if ¬ (dictAnswers s ∧ s.relay.active.isSome) then .initializing
  else if ¬ portServes s p then .faulty
  else if ¬ ptpOn s p then .disabled
  else if (portMaster s p).isNone then .listening
  else if s.time.selected = some p ∧ s.time.servo = .locked then .slave
  else .uncalibrated

/-- Whether PTP runs on a port: enabled there, the link serves, the controller runs (R249, R260). -/
def ptpRuns (s : State) (p : PortId) : Bool :=
  match ptpState s p with
  | .initializing => false
  | .faulty => false
  | .disabled => false
  | _ => true

/-- An Announce renews its sender among the masters heard. -/
def hearMaster (l : List Master) (m : Master) : List Master :=
  (l.filter fun x => decide (x.announce.sourceId ≠ m.announce.sourceId)) ++ [m]

/-- An Announce of the domain: the port's masters and the selected port are updated; the interval counts where it is the best master's. -/
def execPtpAnnounceRx (p : PortId) (m : PtpAnnounce) (s : State) : Out :=
  if ptpRuns s p ∧ m.domain = cfg s (key 0x2201 2) then
    let heard := hearMaster (s.time.masters[p]).heard ⟨m, s.now⟩
    let old := (s.time.masters[p]).better
    let count := if (bestOf heard).any fun b => b.announce.sourceId == m.sourceId then betterCount s p m old else old
    .next (reselect { s with time := { s.time with masters := vmod s.time.masters p fun _ => ⟨heard, count⟩ } })
  else .next s

/-- 2 to a signed power, in core cycles. -/
def intervalCycles (log : Int) : Nat :=
  match log with
  | .ofNat n => cyclesPerSec * 2 ^ n
  | .negSucc n => cyclesPerSec / 2 ^ (n + 1)

/-- The announce receipt timeout of a port (0x2201:05 intervals). -/
def announceTimeout (s : State) (a : PtpAnnounce) : Nat := cfg s (key 0x2201 5) * intervalCycles a.logInterval

/-- A message of the domain from the best master of the selected port (R249, R250). -/
def fromMaster (s : State) (p : PortId) (domain source : Nat) : Bool :=
  decide (s.time.selected = some p ∧ domain = cfg s (key 0x2201 2)) &&
    (portMaster s p).any fun m => decide (m.announce.sourceId = source)

/-- Masters whose announce receipt timeout has passed are forgotten. -/
def forgetOld (s : State) (x : PtpPort) : PtpPort :=
  { x with heard := x.heard.filter fun m => decide (s.now < m.heardAt + announceTimeout s m.announce) }

/-- No Announce, or no valid sample, within the announce receipt timeout: a master is lost, or the servo goes to
HOLDOVER (R250, R251). -/
def execAnnounceReceiptTimeout (p : PortId) (s : State) : Out :=
  match portMaster s p with
  | none => .next s
  | some m =>
    let kept := forgetOld s (s.time.masters[p])
    let s1 := if kept = s.time.masters[p] then s
      else reselect { s with time := { s.time with masters := vmod s.time.masters p fun _ => kept } }
    let quietFor := decide (s1.time.lastSample + announceTimeout s m.announce ≤ s1.now)
    if quietFor ∧ s.time.selected = some p ∧ (s1.time.servo = .locked ∨ s1.time.servo = .acquiring) then
      .next (enterHoldover s1)
    else .next s1

/-! ## Servo samples (R252, R253) -/

/-- Offsets and times in 2⁻¹⁶ ns. -/
def nsUnits (n : Nat) : Int := ((n * 65536 : Nat) : Int)

/-- The cable asymmetry of a port (0x2201:08 to 0B, ps). -/
def asymmetry (s : State) (p : PortId) : Int := cfgSigned s (key 0x2201 (8 + p.val)) * 65536 / 1000

/-- A delay sample into the mean of the last 16; once 16 exist one outside half to twice the mean is rejected (R252). -/
def addDelay (t : TimeState) (d : Int) : TimeState :=
  let reject := decide (16 ≤ t.delays.length) && !(decide (t.meanDelay ≤ 2 * d) && decide (d ≤ 2 * t.meanDelay))
  if reject then t
  else
    let l := (d :: t.delays).take 16
    { t with delays := l, meanDelay := l.sum / (l.length : Int) }

/-- adj in 2⁻³² ns per reference cycle from o and the integral (× 50), the Sync interval 2^log s, clamped at
±100,000 ppb (R252, R243). -/
def servoAdj (o integral : Int) (log : Int) : Int :=
  let scale : Int := (2 : Int) ^ (7 - log).toNat
  let v := -((15 * o + integral) * scale * 65536) / (5000000000 * 128)
  let top : Int := 100000 * 2 ^ 32 / 10 ^ 8
  max (-top) (min top v)

/-- TB0 is stepped by -o: STEPPED and an EMCY (R253). -/
def stepTb0 (s : State) (o : Int) : State :=
  let t : State := { s with time := { s.time with
    tb0 := ((s.time.tb0 : Int) - o * 65536).toNat
    integral := 0
    stepPending := false
    stepSamples := 0 } }
  raiseEmcy (setFlag (clearFlag t (kTime 6) 27) (kTime 6) 26) 0xFF08 (kTime 6) 0

/-- TB0 is steered; beyond 1 ms on 16 consecutive samples while a channel runs STEP_PENDING is set (R253). -/
def steerTb0 (s : State) (o : Int) (log : Int) : State :=
  let i := s.time.integral + o
  let a := servoAdj o i log
  let big := decide (nsUnits 1000000 < o.natAbs) && anyChannelRunning s
  let n := if big then s.time.stepSamples + 1 else 0
  let pending := s.time.stepPending || decide (16 ≤ n)
  putFlag { s with time := { s.time with
    integral := i
    adj := a
    recentAdj := (a :: s.time.recentAdj).take 64
    stepSamples := n
    stepPending := pending } } (kTime 6) 27 pending

/-- The servo state after a sample (Table 10-4). -/
def servoNext (s : State) (o : Int) : TimeState :=
  let small := decide ((o.natAbs : Int) < nsUnits 1000)
  let big := decide (nsUnits 10000 < (o.natAbs : Int))
  let t := { s.time with
    smallSamples := if small then s.time.smallSamples + 1 else 0
    bigSamples := if big then s.time.bigSamples + 1 else 0
    lastSample := s.now }
  match t.servo with
  | .freeRun => { t with servo := .acquiring }
  | .acquiring => if 16 ≤ t.smallSamples then { t with servo := .locked } else t
  | .locked => if 4 ≤ t.bigSamples then { t with servo := .acquiring, bigSamples := 0, smallSamples := 0 } else t
  | .holdover =>
    if small ∧ s.now < t.holdoverAt + 10 * cyclesPerSec then { t with servo := .locked }
    else { t with servo := .acquiring, smallSamples := 0, bigSamples := 0 }

/-- One sample of the servo (R252). -/
def takeSample (s : State) (p : PortId) (t1 t2 c log : Int) : State :=
  let n := s.time.samples + 1
  let ms := t2 - t1 - c
  let time1 := { s.time with samples := n }
  let time2 := if n % 16 = 0 then
      (match time1.exchangeReady with
       | some (t3, t4, cr) => addDelay time1 ((ms + (t4 - t3 - cr)) / 2)
       | none => time1)
    else time1
  let o := ms - time2.meanDelay - asymmetry s p
  let s1 : State := { s with time := { time2 with offset := o } }
  let s2 : State := { s1 with time := servoNext s1 o }
  let far := decide (nsUnits 100000 < (o.natAbs : Int))
  let idle := !anyChannelRunning s2
  let s3 := if (s2.time.servo = .acquiring ∧ far ∧ idle) ∨ (s2.time.stepPending ∧ idle) then stepTb0 s2 o else steerTb0 s2 o log
  let s4 := putSigned (putSigned s3 (kTime 8) o) (kTime 9) time2.meanDelay
  let s5 := putSigned s4 (kTime 7) (s3.time.adj * 10 ^ 8 / 2 ^ 32)
  let clamped := max (-(2 ^ 31 - 1)) (min (2 ^ 31 - 1) (o / 65536))
  settleTraceable (monitorSample s5 (viewUnit s5) 11 0 (signedSample clamped))

/-- A PTP timestamp in 2⁻¹⁶ ns, its seconds extended with zeros (R242). -/
def ptpUnits (t : PtpTime) : Int := ((t.seconds.toNat * 10 ^ 9 + t.nanoseconds.toNat) * 65536 : Nat)

/-- Sync intervals of 2⁻⁷ to 2 s are supported, no other (Table 10-3). -/
def syncInterval (log : Int) : Bool := decide (-7 ≤ log ∧ log ≤ 1)

/-- A Sync on the selected port, stamped in both units: one-step, a sample; two-step, it waits for its Follow_Up (R252, R255). -/
def execPtpSyncRx (p : PortId) (m : PtpSync) (s : State) : Out :=
  if ptpRuns s p ∧ fromMaster s p m.domain m.sourceId ∧ syncInterval m.logInterval then
    let t2 := fun (u : UnitId) => stampIn s u p m.stampError m.skew
    if m.twoStep then .next { s with time := { s.time with sync := some ⟨p, m, ⟨t2 .a, t2 .b⟩, viewUnit s⟩ } }
    else .next (takeSample s p (ptpUnits m.t1) (t2 (viewUnit s)) m.correction m.logInterval)
  else .next s

/-- A Follow_Up of the waiting Sync gives t1; t2 is the stamp of the unit that was active at the Sync (R259). -/
def execPtpFollowUpRx (p : PortId) (m : PtpFollowUp) (s : State) : Out :=
  match s.time.sync with
  | some y =>
    if ptpRuns s p ∧ y.port = p ∧ y.sync.seqId = m.seqId ∧ y.sync.sourceId = m.sourceId ∧ fromMaster s p m.domain m.sourceId then
      .next (takeSample { s with time := { s.time with sync := none } } p (ptpUnits m.t1) (y.stamps.get y.unit)
        (y.sync.correction + m.correction) y.sync.logInterval)
    else .next s
  | none => .next s

/-- log₂ of the Delay_Req interval in use: 0x2201:04, or the master's own where that is longer (Table 10-3). -/
def requestLog (s : State) : Int := max (cfgSigned s (key 0x2201 4)) (s.time.respLog.getD (-7))

/-- The interval since the last Delay_Req has passed. -/
def requestDue (s : State) : Bool := s.time.requestAt.all fun t => decide (t + intervalCycles (requestLog s) ≤ s.now)

/-- Where a Delay_Req goes: the PTP group, or the master (0x2201:03). -/
def requestDest (s : State) (p : PortId) : Nat :=
  if cfg s (key 0x2201 3) = 1 then ((portMaster s p).map fun m => m.announce.sourceIp).getD 0xE0000181 else 0xE0000181

/-- A Delay_Req message of IEEE 1588-2019: its header, with the clock identity from the port's MAC, and the low 48 bits of TB0's seconds with its
nanoseconds as the origin time (R242; log entry 74, PRESUMED). -/
def delayReqBytes (s : State) (p : PortId) (seq : Nat) : List Byte :=
  let mac := s.flash.limit.macs.get p
  let clock := mac / 2 ^ 24 * 2 ^ 40 + 0xFFFE * 2 ^ 24 + mac % 2 ^ 24
  let flags := if cfg s (key 0x2201 3) = 1 then 0x0400 else 0
  beBytes 1 1 ++ beBytes 1 0x12 ++ beBytes 2 44 ++ beBytes 1 (cfg s (key 0x2201 2)) ++ beBytes 1 0 ++ beBytes 2 flags ++ beBytes 8 0 ++
  beBytes 4 0 ++ beBytes 8 clock ++ beBytes 2 (p.val + 1) ++ beBytes 2 seq ++ beBytes 1 1 ++ beBytes 1 0x7F ++
  beBytes 6 (tb0Value s / 2 ^ 48 % 2 ^ 48) ++ beBytes 4 (tb0Value s / 2 ^ 16 % 2 ^ 32)

/-- At its interval the module sends a Delay_Req on the selected port; its stamp is taken as it leaves (R249, R255). -/
def execPtpDelayReqSend (p : PortId) (stampError : Int) (s : State) : Out :=
  if ptpRuns s p ∧ s.time.selected = some p ∧ requestDue s then
    .next (endpointSend { s with time := { s.time with
      request := some ⟨p, s.time.seqId, stampError, none⟩
      requestAt := some s.now
      seqId := (s.time.seqId + 1) % 65536 } } p .delayReq (ipDest none (requestDest s p) 17 319 319) 90
        (.datagram (delayReqBytes s p s.time.seqId)))
  else .next s

/-- A Delay_Resp of the master completes the exchange of a Delay_Req that has left (R252). -/
def execPtpDelayRespRx (p : PortId) (m : PtpDelayResp) (s : State) : Out :=
  match s.time.request with
  | some r =>
    match r.t3 with
    | some t3 =>
      if ptpRuns s p ∧ r.port = p ∧ r.seqId = m.seqId ∧ m.forUs = true ∧ fromMaster s p m.domain m.sourceId then
        .next { s with time := { s.time with
          request := none
          respLog := some m.logInterval
          exchangeReady := some (t3, ptpUnits m.t4, m.correction) } }
      else .next s
    | none => .next s
  | none => .next s

/-- PTP disabled on every port: FREE_RUN, adj = 0 (Table 10-4); on one, its masters are lost (R250). -/
def settlePtp (s : State) : State :=
  if cfg s (key 0x2201 1) % 16 = 0 then
    settleTraceable { s with time := { s.time with
      servo := .freeRun
      adj := 0
      recentAdj := []
      masters := .replicate 4 ⟨[], 0⟩
      selected := none
      grandmaster := 0
      metadata := none
      utcOffset := 37 } }
  else
    let t : State := { s with time := { s.time with
      masters := s.time.masters.mapFinIdx fun i m hi => if ptpOn s ⟨i, hi⟩ then m else ⟨[], 0⟩ } }
    if t.time.selected.any fun p => !ptpOn t p then reselect t else t

/-- Another domain: the masters of the old one are lost (R249, R250). -/
def settleDomain (s : State) : State :=
  reselect { s with time := { s.time with masters := .replicate 4 ⟨[], 0⟩, sync := none, request := none } }

/-! ## Clock monitors (R262) -/

/-- A base-die clock fault: CLOCK_FAULT_SEEN, EMCY, reset source 3 (Table 10-6, 15_reset.md Table 15-1). -/
def execClockFault (_m : ClockMonitor) (s : State) : Out :=
  .next (setFlag (assertClockReset (raiseEmcy (setFlag s (kTime 6) 24) 0x5001 (kTime 6) 0)) (kTime 6) 24)

end Sys2Proof.Machine
end

