-- ==== Sys2Proof/Machine/Release.lean ====
section
/-! DEFINITION. The release of slices and tokens at T + 6 (02_lap.md R33; 06_decoders.md R139 to R145), packetisation (08_network.md
R202, R203), the model update and the VBR credit (05_pacer.md R109, R128). -/

namespace Sys2Proof.Machine

/-! ## Where NAL units go (08_network.md R202, R203) -/

/-- First packet, counted from the start of the release, and number of packets of each NAL unit, as packGo fills them. -/
def packMap (p : Nat) (agg : Bool) : Option (Bool × Nat) → Nat → List Nat → List (Nat × Nat)
  | _, _, [] => []
  | cur, i, u :: rest =>
    let n := ceilDiv (u - 2) (p - 3)
    match cur with
    | none => if u ≤ p then (i, 1) :: packMap p agg (some (false, u)) i rest else (i, n) :: packMap p agg none (i + n) rest
    | some c =>
      if c.1 ∧ c.2 + 2 + u ≤ p then (i, 1) :: packMap p agg (some (true, c.2 + 2 + u)) i rest
      else if ¬ c.1 ∧ agg ∧ 2 + 2 + c.2 + 2 + u ≤ p then (i, 1) :: packMap p agg (some (true, 4 + c.2 + 2 + u)) i rest
      else if u ≤ p then (i + 1, 1) :: packMap p agg (some (false, u)) (i + 1) rest
      else (i + 1, n) :: packMap p agg none (i + 1 + n) rest

/-- A NAL unit whose bytes the module makes; its type stands in its first byte. -/
def builtUnit (b : List Nat) : NalUnit := ⟨b.headD 0 / 2, b.length, b⟩

/-- A filler data NAL unit: its header, bytes FFH, the trailing bits (05_pacer.md R120). -/
def fillerUnit (size : Nat) : NalUnit := ⟨38, size, [0x4C, 0x01] ++ List.replicate (size - 3) 0xFF ++ [0x80]⟩

/-- The slice's NAL unit, or the filler data NAL unit of the same length in its place (06_decoders.md R141). -/
def sliceUnit (k : Stripe) (l : Slice) : NalUnit :=
  if l.withheld then fillerUnit l.bytes else ⟨k.nalType, l.bytes, l.data.map BitVec.toNat⟩

/-- The hash SEI, or filler of its length (03_streams.md R79). -/
def tailUnit (k : Stripe) (n : Nat) : NalUnit := if k.hashFiller then fillerUnit n else ⟨40, n, hashUnit k.hash⟩

/-- The NAL units of a stripe in order: the filler follows the last slice (05_pacer.md R120). -/
def stripeNals (k : Stripe) : List NalUnit :=
  k.lead.map builtUnit ++ k.slices.map (sliceUnit k) ++ (if k.filler = 0 then [] else [fillerUnit (k.filler - 4)]) ++ k.tail.map (tailUnit k)

/-- Their sizes. -/
def stripeUnits (k : Stripe) : List Nat := (stripeNals k).map NalUnit.size

/-- A unit too large for a packet as fragmentation units of p - 3 bytes, its own header left out (08_network.md R202). -/
def fragments (p : Nat) (u : NalUnit) : List Payload :=
  (List.range (ceilDiv (u.size - 2) (p - 3))).map fun i => .fragment u (2 + i * (p - 3)) (min (p - 3) (u.size - 2 - i * (p - 3)))

/-- A packet that ends, or none where it is empty. -/
def packetOf : List NalUnit → List Payload
  | [] => []
  | [u] => [.single u]
  | l => [.aggregate l]

/-- Bytes of the packet being filled: one unit, or an aggregation packet with its header and a size before each unit. -/
def packetSize : List NalUnit → Nat
  | [] => 0
  | [u] => u.size
  | l => 2 + (l.map fun u => 2 + u.size).sum

/-- The packets of a release, packed as R202 packs them: the payloads whose sizes `packUnits` gives. -/
def packNals (p : Nat) (agg : Bool) : List NalUnit → List NalUnit → List Payload
  | cur, [] => packetOf cur
  | cur, u :: rest =>
    if ¬ cur.isEmpty ∧ (agg ∨ 2 ≤ cur.length) ∧ packetSize (cur ++ [u]) ≤ p then packNals p agg (cur ++ [u]) rest
    else if u.size ≤ p then packetOf cur ++ packNals p agg [u] rest
    else packetOf cur ++ fragments p u ++ packNals p agg [] rest

/-- Aggregation is enabled on a flow. -/
def aggregates (s : State) (f : FlowId) : Bool := decide (cfg s (kFlow f 0x1D) = 1)

/-- The packets of a stripe. -/
def stripePacking (s : State) (f : FlowId) (k : Stripe) : List (Nat × Nat) :=
  packUnits (flowPayload s f) (aggregates s f) (stripeUnits k)

/-- FIRST_RTP_SEQ and PACKETS of each slice of a stripe whose first packet is number `base` of the flow. -/
def numberSlices (s : State) (f : FlowId) (k : Stripe) (base : Nat) : Stripe :=
  let m := (packMap (flowPayload s f) (aggregates s f) none 0 (stripeUnits k)).drop k.lead.length
  { k with slices := (k.slices.zip m).map fun x => { x.1 with firstSeq := (base + x.2.1) % 2 ^ 16, packets := x.2.2 } }

/-- The number a stripe's first packet has: that of the flow, after the stripes released before it. -/
def stripeBase (s : State) (n : StreamId) (f : FlowId) (k : Stripe) : Nat :=
  s.flows[f].packets +
    (((heldStripes s.streams[n]).filter fun x => decide (x.due < k.due) && !x.withheld).map fun x => (stripePacking s f x).length).sum

/-- A stripe of a stream in flight is changed. -/
def modStripe (s : State) (n : StreamId) (k : Stripe) (f : Stripe → Stripe) : State :=
  modStream s n fun x => { x with flight := x.flight.map fun y => if y.due = k.due ∧ y.row = k.row then f y else y }

/-! ## A stripe is released (R139 to R141) -/

/-- The packets of a release: the marker is set on the last packet of an access unit. -/
def stripePackets (s : State) (n : StreamId) (f : FlowId) (k : Stripe) : List Packet :=
  let l := stripePacking s f k
  let c := packNals (flowPayload s f) (aggregates s f) [] (stripeNals k)
  l.mapIdx fun i x =>
    { kind := .media n k.due, frame := mediaFrame s f x.1, charge := x.2, seq := 0, timestamp := k.timestamp,
      marker := k.last && decide (i + 1 = l.length), srcMac := s.flash.limit.macs.get (flowPrimary s f), entered := s.now,
      payload := c.getD i .none }

/-- The slices join the flow's queue, where their space is reserved. -/
def sendStripe (s : State) (n : StreamId) (k : Stripe) : State :=
  match carrierOf s n with
  | none => s
  | some f =>
    let t := modStripe s n k fun x => numberSlices s f x s.flows[f].packets
    let t1 := modFlow t f fun x => { x with reserved := x.reserved - k.bits / 8 }
    if t1.flows[f].enabled then enqueue t1 f (stripePackets s n f k) else refuseFlow t1 f

/-- The model drains at R since the last release and takes the unit's bits; the credit of a VBR stream follows. The first release after a start has no
previous one: seconds_since_previous_release, which R128 leaves open there, is 0 (DESIGN CHOICE, log entry 85). -/
def pacerRelease (s : State) (n : StreamId) (bits : Nat) (p : PacerState) : PacerState :=
  let dt := if p.releasedAt = 0 then 0 else s.lap.lastTick - p.releasedAt
  let limit : Int := ((averageRate s n * applied s (kPacer n 0x0C) * s.lap.pictureLen / (4 * 256 * cyclesPerSec) : Nat) : Int)
  let credit := p.credit + ((averageRate s n * dt / cyclesPerSec : Nat) : Int) - (bits : Int)
  { p with
    e := p.e - p.rate * 256 * dt / cyclesPerSec + 256 * bits
    releaseIndex := (p.releaseIndex + 1) % 2 ^ 32
    releasedAt := s.lap.lastTick
    credit := if isVbr s n then min (max credit (-limit)) limit else p.credit }

def modelUpdate (s : State) (n : StreamId) (bits : Nat) : State :=
  let t := modPacer s n (pacerRelease s n bits)
  let p := t.streams[n].pacer
  monitorSample (regPut t (kPacer n 0x11) (p.e / 256)) (viewUnit t) 4 n.val (p.e * 256 / max 1 p.limit)

/-- Channel and stream counters of a release (03_streams.md R85, 06_decoders.md R141, 13_relay.md Table 13-9). -/
def countRelease (s : State) (n : StreamId) (k : Stripe) : State :=
  let t := forEach k.slices (fun x l => bump (bumpBy x (kChan l.chan 0x3000 6) l.bytes) (kChan l.chan 0x3000 7)) s
  let t1 := bumpBy t (kPacer n 0x14) k.filler
  let t2 := bumpBy t1 (kVerify (leadChan s n) n 5) (k.slices.filter fun l => l.withheld).length
  if k.standIn then bump t2 (key 0x2010 0x0D) else t2

/-- The last stripe of the first picture coded after a start ends that cause of watch (09_flows.md R236). -/
def noteFirstPicture (s : State) (k : Stripe) : State :=
  if k.last ∧ s.watch.openedAt.any fun t => decide (t < k.codedAt) then
    watchTick { s with watch := { s.watch with firstPicture := false, openedAt := none } }
  else s

/-- A picture whose stripe is a stand-in, or has a slice replaced by filler, has a hash that describes it no longer; its last stripe then sends
filler of the same length in the hash's place (03_streams.md R79). -/
def noteVoid (n : StreamId) (k : Stripe) (s : State) : State :=
  let void := k.standIn || k.slices.any fun l => l.withheld
  modStream s n fun x =>
    let l := if void then k.picture :: x.voidHash else x.voidHash
    { x with voidHash := if k.last then l.filter fun p => decide (k.picture < p) else l }

/-- The stripe as it leaves: its hash, where its picture's is void, is filler. -/
def leavingStripe (s : State) (n : StreamId) (k : Stripe) : Stripe :=
  let void := k.standIn || (k.slices.any fun l => l.withheld) || s.streams[n].voidHash.contains k.picture
  { k with hashFiller := !k.tail.isEmpty && void }

/-- A stripe is released at its tick; a withheld one releases nothing (05_pacer.md R125). -/
def releaseStripe (s : State) (n : StreamId) (k : Stripe) : State :=
  let j := leavingStripe s n k
  let t := if k.withheld then s else countRelease (modelUpdate (sendStripe s n j) n k.bits) n k
  modStripe (noteVoid n k (noteFirstPicture t k)) n k fun x => { x with released := true, releasedAt := s.now, hashFiller := j.hashFiller }

/-- The stripes of a stream that are due, in release order. -/
def dueStripes (s : State) (n : StreamId) : List Stripe :=
  s.streams[n].flight.filter fun k => decide (k.due ≤ s.lap.count ∧ s.relay.active = some k.unit) && !k.released

/-- T + 6: the slices due are released, of the streams in one verdict mode. -/
def releaseDue (s : State) (vouch : Bool) : State :=
  forEach (allStreams.filter fun n => vouchFirst s n == vouch) (fun x n => forEach (dueStripes x n) (fun y k => releaseStripe y n k) x) s

/-! ## Tokens (R139, R142 to R145) -/

/-- One slice's token; CV5 computes its TOKEN_CRC (14_integrity.md R343). -/
def sliceToken (n : StreamId) (k : Stripe) (v : Verdict) (supersedes : Bool) (a : State × List (BitVec 256)) (x : Slice × Nat) :
    State × List (BitVec 256) :=
  let w := tokenOf n k x.1 v (endsPicture k x.2) supersedes a.1.streams[n].tokenSeq
  (cvEnd (nextToken a.1 n) 5 (w.toNat % 2 ^ 32) true, a.2 ++ [w])

/-- The tokens of a stripe. -/
def stripeTokens (n : StreamId) (a : State × List (BitVec 256)) (k : Stripe) : State × List (BitVec 256) :=
  let j := match k.released, carrierOf a.1 n with
    | false, some f => numberSlices a.1 f k (stripeBase a.1 n f k)
    | _, _ => k
  j.slices.zipIdx.foldl (fun b x => sliceToken n j (x.1.verdict.getD (.unverified 4)) k.supersedes b x) a

/-- A superseding token after an egress byte mismatch: bad, cause 7 (R137). -/
def egressToken (n : StreamId) (a : State × List (BitVec 256)) (x : Stripe × Nat) : State × List (BitVec 256) :=
  match x.1.slices[x.2]? with
  | some l => sliceToken n x.1 (.bad 7) true a (l, x.2)
  | none => a

/-- Stripes whose tokens are due: of the active unit, and those that the former one released. -/
def vouchStripes (s : State) (n : StreamId) : List Stripe :=
  s.streams[n].flight.filter fun k => decide (k.tokenDue ≤ s.lap.count) && (k.released || decide (s.relay.active = some k.unit)) && k.judged && !k.vouched

/-- The tokens of a stream at a tick; a stream without integrity flow releases none (R143). -/
def vouchStream (a : State × List (StreamId × List (BitVec 256))) (n : StreamId) : State × List (StreamId × List (BitVec 256)) :=
  let due := vouchStripes a.1 n
  let late := a.1.streams[n].supersede
  let b : State × List (BitVec 256) :=
    if (integrityFlow a.1 n).isNone then (a.1, [])
    else (due.filter fun k => !k.withheld).foldl (stripeTokens n) (late.foldl (egressToken n) (a.1, []))
  let t := modStream b.1 n fun x => { x with
    supersede := []
    flight := x.flight.map fun y => if due.any fun k => decide (k.due = y.due ∧ k.row = y.row) then { y with vouched := true } else y }
  (t, a.2 ++ [(n, b.2)])

/-- T + 6: the tokens due are released, those of the streams that share a flow together (R144). -/
def vouchDue (s : State) : State :=
  let a := allStreams.foldl vouchStream (s, [])
  forEach allFlows (fun x f =>
    let l := a.2.filter fun y => decide (integrityFlow x y.1 = some f) && !y.2.isEmpty
    if l.isEmpty then x else offerTokens x f x.now l) a.1

/-! ## Stripes that are done -/

/-- Packets of a stripe that have not started to leave. -/
def stripeQueued (s : State) (n : StreamId) (k : Stripe) : Bool :=
  match carrierOf s n with
  | none => false
  | some f =>
    let fl := s.flows[f]
    (fl.queue ++ fl.primary.queue ++ fl.secondary.queue).any fun p => decide (p.kind = .media n k.due)

/-- Released and vouched stripes leave the flight; those whose packets have left are forgotten two ticks after their release. -/
def retireStripes (s : State) (n : StreamId) : State :=
  let x := s.streams[n]
  let done := fun (k : Stripe) => k.released && k.vouched
  let keep := fun (k : Stripe) => decide (s.lap.count < k.due + 2) || stripeQueued s n k
  modStream s n fun y => { y with
    flight := x.flight.filter fun k => !done k
    recent := (x.recent ++ x.flight.filter done).filter keep }

end Sys2Proof.Machine
end

