-- ==== Sys2Proof/Machine/Hurdle.lean ====
section
/-! DEFINITION. T + 4 of a lap tick: the hurdle check and the verdicts (02_lap.md R38; 06_decoders.md R135, R136, R141), the voter
(01_module.md R20), monitor samples (14_integrity.md Table 14-8), DRAM stalls (11_dram.md R275). -/

namespace Sys2Proof.Machine

def kLap (sub : Nat) : Nat := key 0x2500 sub

/-! ## Hurdle faults (R38) -/

/-- A hurdle fault with its bit in 0x2500:09; a failed self-test step has none. -/
def hurdleFault (s : State) (bit : Option Nat) : State :=
  let t := putField (bump s (kLap 8)) (kLap 9) 7 0 (s.lap.count % 256)
  match bit with
  | some b => setFlag t (kLap 9) b
  | none => t

/-- A hurdle fault that is a unit fault (Table 13-6). -/
def hurdleUnitFault (s : State) (u : UnitId) (bit : Nat) : State :=
  reportUnitFault (raiseEmcyOf (hurdleFault s (some bit)) u 0x5011 (kLap 9) 0) u 10

/-! ## Coding jobs -/

/-- The channels whose part of a stripe is unfinished; all of the gang where only the stripe's completion is missing. -/
def lateParts (s : State) (n : StreamId) (k : Coding) : List Chan :=
  let late := (streamChans s n).filter fun c => match k.parts.get c with
    | some p => decide (p.done < p.ctus)
    | none => true
  if late.isEmpty then streamChans s n else late

/-- A stripe not coded by its hurdle check is never released. -/
def codingHurdle (s : State) (n : StreamId) : State :=
  match s.streams[n].coding with
  | none => s
  | some k =>
    if k.codedAt < s.lap.count then
      let t := reserveIn s n 0 k.reserved
      let t1 := modStream t n fun x => { x with coding := none }
      forEach (lateParts s n k) (fun x c => hurdleUnitFault x k.unit (16 + c.val)) t1
    else s

/-- Channels with a coding hurdle fault at this tick. -/
def codingLate (s : State) (c : Chan) : Bool :=
  allStreams.any fun n => match s.streams[n].coding with
    | some k => decide (k.codedAt < s.lap.count) && (lateParts s n k).contains c
    | none => false

/-! ## Verdicts (R135, R136) -/

/-- The verdict a slice has once its verification is due. -/
def dueVerdict (s : State) (l : Slice) : Verdict :=
  if ¬ (s.chans.get l.chan).verifyOn then .unverified 6 else l.verdict.getD (.unverified 4)

/-- A slice with its verdict; in vouch-then-release a bad or incomplete one is withheld (R141). -/
def judgeSlice (s : State) (n : StreamId) (l : Slice) : Slice :=
  let v := dueVerdict s l
  { l with
    verdict := some v
    withheld := vouchFirst s n && (match v with
      | .bad _ => true
      | .unverified 4 => true
      | _ => false) }

/-- What a verdict counts and reports (Tables 6-7, 6-8). -/
def noteVerdict (s : State) (n : StreamId) (k : Stripe) (l : Slice) : State :=
  let c := l.chan
  let t := bump s (kChan c 0x3002 1)
  match l.verdict with
  | some .good => bump t (kChan c 0x3002 2)
  | some (.bad cause) =>
    let t1 := regPut (bump t (kChan c 0x3002 3)) (kChan c 0x3002 6) (cause % 16 * 2 ^ 28 + n.val * 2 ^ 24 + l.addr % 2 ^ 24)
    unitFaultOf (regPut t1 (kChan c 0x3002 7) k.poc) k.unit (.verdict c)
  | some (.unverified cause) =>
    let t1 := bump t (kChan c 0x3002 4)
    if cause = 4 then setFlag t1 (kChan c 0x3002 0x0A) 29 else t1
  | none => t

/-- Channels with a slice whose verification is not complete. -/
def lateVerifiers (k : Stripe) : List Chan :=
  allChans.filter fun c => k.slices.any fun l => decide (l.chan = c ∧ l.verdict = some (.unverified 4))

/-- The stripe whose verification is due takes its verdicts. -/
def judgeStripe (s : State) (n : StreamId) (k : Stripe) : State :=
  let j := { k with slices := k.slices.map (judgeSlice s n), judged := true }
  let t := modStripe s n k fun _ => j
  let t1 := forEach j.slices (fun x l => noteVerdict x n j l) t
  forEach (lateVerifiers j) (fun x c => hurdleFault x (some (12 + c.val))) t1

def verifyHurdle (s : State) (n : StreamId) : State :=
  forEach (s.streams[n].flight.filter fun k => decide (k.codedAt + 2 ≤ s.lap.count) && !k.judged) (fun x k => judgeStripe x n k) s

/-! ## Baton, engine tasks, self-test -/

/-- The baton write of the tick before is unfinished: a baton fault of the standby (13_relay.md R316). -/
def batonHurdle (s : State) (done : Bool) : State :=
  match standbyOf s with
  | none => s
  | some u =>
    if (s.baton.get u).written ∧ ¬ done then batonFault (hurdleFault s (some 11)) u else s

/-- Lap-deadline tasks readied in the lap that ended and not finished. -/
def lateTasks (s : State) (u : UnitId) : List Task :=
  (s.disp.get u).tasks.filter fun t => decide (t.cls.val = 0 ∧ t.readyLap + 1 = s.lap.count) &&
    (match t.status with
     | .ready => true
     | .running => true
     | .preempted => true
     | _ => false)

def taskHurdle (s : State) (u : UnitId) : State := forEach (lateTasks s u) (fun x _ => hurdleUnitFault x u 20) s

/-- A step of the standby's self-test, other than a DRAM pattern step, that is in progress at the tick after it began: counted, recorded in the
standby's health report, and no fault reported (Table 2-4); it is repeated in the next cycle (13_relay.md R310). No object of 0x2011 shows it: the
model keeps the record in SelfTestState (log entry 54, DESIGN CHOICE). -/
def selfTestHurdle (s : State) : State :=
  match standbyOf s with
  | none => s
  | some u =>
    let x := s.selfTest.get u
    if x.step.isNone || (patternOf x).isSome then s
    else hurdleFault { s with selfTest := s.selfTest.mod u fun y => { endStep false y with late := y.late + 1 } } none

/-- The hurdle check of the active unit, with the incoming unit's coding of a planned switch. -/
def hurdleCheck (s : State) (i : TickInput) : State :=
  let t := forEach allStreams verifyHurdle (forEach allStreams codingHurdle s)
  let t1 := batonHurdle t i.batonDone
  let t2 := match t1.relay.active with
    | some u => taskHurdle t1 u
    | none => t1
  selfTestHurdle t2

/-! ## The voter (01_module.md R20) -/

/-- One outvoted copy is logged; two that disagree raise FAULT_N and an EMCY, and the selectors hold their last voted state
(R20). The manual gives the hold no end: the model ends it at the next tick whose vote has a majority (log entry 53,
DESIGN CHOICE). -/
def voterCheck (s : State) (v : VoterReport) : State :=
  match v with
  | .agree => { s with lap := { s.lap with voterHold := false } }
  | .oneOutvoted c =>
    logNoteLimited { s with lap := { s.lap with voterHold := false } } 2 kIntegrity c.val
  | .twoDisagree =>
    let t := raiseEmcy (setFlag s kIntegrity 31) 0x5000 kIntegrity 0
    { t with lap := { t.lap with voterHold := true } }

/-! ## Stalls and samples (11_dram.md R275, 14_integrity.md Table 14-8) -/

/-- The largest stall of a channel is kept until it is read; a lap with one beyond the DRAM reserve is counted. -/
def noteStall (s : State) (v : Nat) : State :=
  let t := regMax s (kDram 9) v
  if lapsSet s ∧ dramReserve s < v then setFlag (countUnit t (kDram 0x0A) none 1) (kDram 0x10) 31 else t

/-- The lap slack of a channel: from its last completion in the lap to the hurdle check, 0 where it is late (R36). -/
def slackOf (s : State) (late : Chan → Bool) (c : Chan) : Nat :=
  if late c then 0 else (s.chans.get c).doneAt.elim 0 fun d => s.lap.lastTick + 4 - d

/-- Slack, stalls, queue depths and flows are sampled; in a lap without a completion the slack counts from the hurdle check before (log entry 73,
DESIGN CHOICE). -/
def tickSamples (s : State) (i : TickInput) (late : Chan → Bool) : State :=
  let u := viewUnit s
  let stalls := Vector.ofFn fun (c : Chan) => max (i.stall.get c) (s.dram.get u).stall[c]
  let one := fun (x : State) (c : Chan) =>
    let slack := slackOf x late c
    let y := monitorSample (modChan x c fun z => { z with slack := slack, doneAt := some (x.lap.lastTick + 4) }) u 1 c.val slack
    modStall (monitorSample y u 6 c.val (stalls.get c)) u c fun _ => 0
  let t := noteStall (forEach allChans one s) (stalls.toList.foldl max 0)
  let t1 := forEach (List.range 12) (fun x q =>
    monitorSample x u 12 q ((x.disp.get u).queues.get (finOf 12 (by decide) q)).length) t
  sampleFlows t1

end Sys2Proof.Machine
end

