-- ==== Sys2Proof/Machine/Handover.lean ====
section
/-! DEFINITION. The baton the active unit writes, stand-ins, and the hand-over (13_relay.md R313 to R324, R327, R328; 09_flows.md
R231; 06_decoders.md R142, R153). -/

namespace Sys2Proof.Machine

/-! ## The baton (R315, Tables 13-3 to 13-5) -/

def captureCode (m : CaptureMode) : Nat :=
  match m with
  | .idle => 0
  | .armed => 1
  | .collecting => 2
  | .held => 3
  | .reading => 4
  | .lost => 5

/-- A complexity average per 1,024 samples, rounded to nearest; 0 where none is known yet. -/
def complexityAverage (k : Complexity) : Nat :=
  if 0 < k.lastSamples then (2 * 1024 * k.lastSum + k.lastSamples) / (2 * k.lastSamples) else k.baton

/-- PICTURE_FLAGS. -/
def pictureFlags (x : Stream) : Nat :=
  (if x.pic.opened then 4 else 0) + (if x.pic.tmvp then 2 else 0) + if x.pic.irap then 1 else 0

def batonStream (s : State) (n : StreamId) : BatonStream :=
  let x := s.streams[n]
  { e := x.pacer.e / 256, releaseIndex := x.pacer.releaseIndex,
    held := ((heldStripes x).map fun k => stripeBits k).take 3,
    cplxI := complexityAverage x.pacer.cplxI, cplxP := complexityAverage x.pacer.cplxP, credit := x.pacer.credit,
    lastQp := x.pacer.lastQp, rebuild := x.pacer.rebuild.val, flags := pictureFlags x, picsSinceBp := x.pic.sinceBp,
    poc := x.pic.poc, picsSinceIrap := x.sinceIrap, picturesCoded := regGet s (kStream n 0x1F), tokenSeq := x.tokenSeq,
    prevBudget := x.pacer.prevBudget }

/-- The state at T + 5. -/
def buildBaton (s : State) (u : UnitId) : Baton :=
  let c := s.capture
  { alive := s.lap.count % 65536, unit := u, lapCount := s.lap.count, stateCycle := tb3Ref s, generation := s.lap.generation,
    lapInPicture := s.lap.inPicture, streamsOn := ((activeStreams s).map fun n => 2 ^ n.val).sum,
    counters := allChans.map fun n => (regGet s (kChan n 0x3000 8), regGet s (kChan n 0x3000 7), regGet s (kChan n 0x3000 6)),
    capture := (captureCode c.mode, fieldOf (regGet s (kCapture 8)) 31 30, c.trigPicture, timeValue c.trigTb0, c.p, c.q, c.due),
    streams := allStreams.map (batonStream s),
    flows := allFlows.map fun f => (s.flows[f].tokens, s.flows[f].packets) }

/-- The active unit writes the baton into the free slot of both units' baton SRAM. -/
def writeBaton (s : State) : State :=
  match s.relay.active with
  | none => s
  | some u =>
    let r := buildBaton s u
    let put := fun (b : BatonState) => { b with slots := vmod b.slots (freeSlot b) fun _ => some r, written := true }
    { s with baton := ⟨put s.baton.a, put s.baton.b⟩ }

/-! ## Stand-ins (R313) -/

/-- A slice of a stand-in: its CTUs are floor-coded, slice_qp_delta is 25, and its size within 05_pacer.md R117 is a free value (log
entry 4). -/
def standInSlice (n : StreamId) (k : Stripe) (a : State × List Slice) (l : Slice) : State × List Slice :=
  (drawFree a.1, a.2 ++ [{ l with
    bytes := 3 + freeWord a.1 32 % (15 * l.ctus + 17)
    verdict := some (.unverified 5)
    firstSeq := 0
    packets := 0
    withheld := false
    qp := floorQp
    header := sliceHeader a.1 n k.irap k.poc k.tmvp k.sao l.addr floorQp false }])

/-- The stand-in of a stripe, made by unit u, in I slices as every stripe rebuilt after a hand-over (03_streams.md Table 3-3); where its picture has a
hash, filler stands in its place (R79). -/
def standIn (s : State) (u : UnitId) (n : StreamId) (k : Stripe) : State × Stripe :=
  let r := k.slices.foldl (standInSlice n k) (s, [])
  (r.1, { k with
    slices := r.2
    bits := unitBits (unitSizes k.lead) + unitBits (r.2.map fun l => l.bytes) + unitBits k.tail
    filler := 0
    tokenDue := k.codedAt + 2
    withheld := false
    standIn := true
    supersedes := k.vouched
    judged := true
    vouched := false
    released := false
    unit := u
    hash := []
    hashFiller := !k.tail.isEmpty })

/-- The stripe that a coding in progress would have become, without its content. -/
def plainStripe (s : State) (n : StreamId) (k : Coding) : Stripe :=
  let sizes := (sizesOf s n (List.replicate (slicesPerStripe s n) [])).flatMap (slicesFrom s n k.row)
  { picture := k.pic.number, row := k.row, poc := k.pic.poc, irap := k.pic.irap, timestamp := k.pic.timestamp, codedAt := k.codedAt,
    due := k.codedAt + releaseLaps s n, tokenDue := k.codedAt + 2, bits := 0, lead := k.lead, tail := k.tail, filler := 0,
    slices := sizes, last := decide (k.row + 1 = ctbRows s n), withheld := false, standIn := true, supersedes := false,
    judged := true, vouched := false, released := false, unit := k.unit, nalType := sliceNalType s n k.pic.irap, tmvp := k.pic.tmvp,
    sao := k.pic.sao, hash := [], hashFiller := false, edges := [], releasedAt := 0, refs := 0 }

/-- The hash SEI is omitted from the hand-over picture (R323). -/
def omitHash (handed : Nat) (k : Stripe) : Stripe := if k.picture = handed then { k with tail := [] } else k

/-- A slice that the former unit released without its token: cause 5, or 6 where its channel's verification is disabled, whose row of Table 6-1
comes first (06_decoders.md R135, R142). -/
def handedSlice (s : State) (l : Slice) : Slice :=
  { l with verdict := some (if (s.chans.get l.chan).verifyOn then .unverified 5 else .unverified 6) }

/-- Its stripe's tokens are due at the hand-over tick. -/
def handedStripe (s : State) (k : Stripe) : Stripe :=
  { k with judged := true, tokenDue := s.lap.count, slices := k.slices.map (handedSlice s) }

/-- The verdicts set at a hand-over are counted (06_decoders.md R158). -/
def noteHanded (s : State) (n : StreamId) (k : Stripe) : State := forEach k.slices (fun x l => noteVerdict x n k l) s

/-- The stand-in that a unit has ready for a stripe. -/
def readyStandIn (s : State) (u : UnitId) (n : StreamId) (k : Stripe) : Option Stripe :=
  ((s.standIns.get u).built.find? fun b => decide (b.1 = n ∧ b.2.due = k.due ∧ b.2.row = k.row)).map fun b =>
    { b.2 with supersedes := k.vouched, tail := k.tail, bits := b.2.bits - unitBits b.2.tail + unitBits k.tail, hashFiller := !k.tail.isEmpty }

/-- A stripe cut short by a hand-over is replaced, by the stand-in that the new unit has ready where it has one; one that the former unit released
without its tokens gets its verdicts (R142, R313). -/
def replaceStripe (u : UnitId) (n : StreamId) (handed : Nat) (a : State × List Stripe) (k : Stripe) : State × List Stripe :=
  if k.unit = u then (a.1, a.2 ++ [k])
  else
    let j := omitHash handed k
    let r := if k.released then (a.1, handedStripe a.1 k)
      else match readyStandIn a.1 u n j with
        | some b => (a.1, b)
        | none => standIn a.1 u n j
    (noteHanded r.1 n r.2, a.2 ++ [r.2])

/-- The stripes of a stream after a fault-started or forced hand-over, an unfinished coding of the former unit among them. -/
def replaceFlight (s0 : State) (n : StreamId) (u : UnitId) : State :=
  let s := modStream s0 n fun y => { y with ownFrom := none }
  let x := s.streams[n]
  let open_ := match x.coding with
    | some k => if k.unit = u then [] else [plainStripe s n k]
    | none => []
  let r := (x.flight ++ open_).foldl (replaceStripe u n x.pic.number) (s, [])
  let t := if open_.any fun k => k.last then countPicture r.1 n u.other x.pic.number else r.1
  modStream t n fun y => { y with
    flight := r.2
    coding := y.coding.filter fun k => decide (k.unit = u) }

/-- Stand-ins made at a hand-over. -/
def standInCount (s : State) : Nat :=
  (allStreams.map fun n => ((heldStripes s.streams[n]).filter fun k => k.standIn).length).sum

/-! ## Pacer and prediction of the new unit (05_pacer.md R126, 04_prediction.md Table 4-5) -/

/-- Averages carried by the baton; the unit's own measurements are none. -/
def fromBaton (avg : Nat) : Complexity := { complexityReset with baton := avg }

/-- The rows released at the ticks from the baton's to this one, in release order. -/
def rowsReleasedSince (s : State) (n : StreamId) (lap : Nat) : List Nat :=
  let x := s.streams[n]
  ((x.recent ++ x.flight).filter fun k => k.released && decide (lap ≤ k.due ∧ k.due < s.lap.count)).map fun k => k.row

/-- A release since the baton: the model drains over the time since the release before and takes in the held stripe listed, HELD0 first; one not listed
is taken at its cap, which leaves U (R113, R321). -/
def addRelease (s : State) (n : StreamId) (a : Nat × List Nat) (row : Nat) : Nat × List Nat :=
  match a.2 with
  | bits :: rest => (a.1 - lapDrain s n * gapBefore s n row + 256 * bits, rest)
  | [] => (256 * s.streams[n].pacer.limit, [])

/-- The model occupancy the new unit starts from: the baton's E with the releases since (R321, Table 5-4). -/
def takenOccupancy (s : State) (n : StreamId) (lap : Nat) (b : BatonStream) : Nat :=
  ((rowsReleasedSince s n lap).foldl (addRelease s n) (256 * b.e, b.held)).1

/-- The previous budget among the channels, in proportion to their columns. -/
def spreadBudget (s : State) (n : StreamId) (total : Nat) : Vector Nat 4 :=
  Vector.ofFn fun c => if (streamChans s n).contains c then total * partCols s n c / max 1 (ctbCols s n) else 0

def pacerTaken (s : State) (n : StreamId) (b : BatonStream) (e : Nat) (p : PacerState) : PacerState :=
  { p with
    e := e
    credit := b.credit
    lastQp := b.lastQp
    prevBudget := b.prevBudget
    prevShare := spreadBudget s n b.prevBudget
    cplxI := fromBaton b.cplxI
    cplxP := fromBaton b.cplxP
    handed := true }

/-- Search without history, with the reach in use. -/
def freshSearch (x : SearchState) : SearchState :=
  { searchReset with reachH := x.reachH, reachV := x.reachV, hasWindow := x.hasWindow }

/-- The baton's entry of a stream; without a baton its present state. -/
def batonEntry (s : State) (u : UnitId) (n : StreamId) : BatonStream :=
  ((lastBaton (s.baton.get u)).bind fun b => b.streams[n.val]?).getD (batonStream s n)

/-- The tick of the baton that the incoming unit holds, and whether no picture has begun since (R321). -/
def batonLap (s : State) (u : UnitId) : Nat := ((lastBaton (s.baton.get u)).map fun b => b.lapCount).getD s.lap.count

def samePicture (s : State) (u : UnitId) : Bool :=
  (lastBaton (s.baton.get u)).all fun b => decide (b.lapInPicture + (s.lap.count - 1 - b.lapCount) < lapsOf s)

/-- The coding state that the incoming unit starts with: the baton's, its picture counts too while its picture is in progress (a later picture has
advanced them by the known numbers, R321); the scaled copy lies in the former unit's DRAM. -/
def takeStream (s : State) (u : UnitId) (n : StreamId) : State :=
  let b := batonEntry s u n
  let e := takenOccupancy s n (batonLap s u) b
  reportGlobal (modStream s n fun x => { x with
    pacer := pacerTaken s n b e x.pacer
    pic := if samePicture s u then { x.pic with sinceBp := b.picsSinceBp } else x.pic
    scaled := []
    search := freshSearch x.search }) n

/-- Ladder and level costs afresh, with 0x2500:0A. -/
def freshChannels (s : State) : State :=
  regPut (forEach allChans (fun x c => freshRects (modChan x c freshLadder) c) s) (kLap 0x0A) 0

/-- The rebuild of an inter stream (R324): the hand-over picture, or the intra picture where the new unit codes all of it. -/
def rebuildFrom (s : State) (n : StreamId) : Fin 3 :=
  if 0 < s.lap.inPicture ∧ s.lap.inPicture ≤ firstStripe s n + 1 then 2 else 1

/-- The picture in progress becomes the hand-over picture (R323). -/
def handoverPicture (s : State) (n : StreamId) : State :=
  let r := if intraOnly s n then 0 else rebuildFrom s n
  let t := modStream s n fun x => { x with
    pacer := { x.pacer with rebuild := r }
    pic := { x.pic with intra := true, hash := false } }
  putFlag t (kPacer n 0x12) 27 (decide (r ≠ 0))

/-! ## Flows and ports of the new unit (09_flows.md R231, 13_relay.md R321, R322) -/

/-- The largest packet count of a release of a flow (R321). -/
def largestRelease (s : State) (f : FlowId) : Nat :=
  match s.flows[f].carries with
  | some n => slicesPerStripe s n + 1 + ceilDiv (s.streams[n].pacer.limit / 8) (flowPayload s f - 3)
  | none => ceilDiv ((tokenStreams s f).map (slicesPerStripe s)).sum 40

/-- The packet count of a flow: of a complete release report, else the baton's advanced. -/
def takenPackets (s : State) (u : UnitId) (f : FlowId) : Nat :=
  let b := s.baton.get u
  let own := ((lastBaton b).bind fun r => r.flows[f.val]?).map Prod.snd
  match b.report with
  | some l => match l.find? fun x => decide (x.1 = f.val) with
    | some x => x.2
    | none => own.getD s.flows[f].packets
  | none => (own.map fun v => (v + largestRelease s f) % 2 ^ 32).getD s.flows[f].packets

/-- The shaper count: the baton's, filled since its state. -/
def takenTokens (s : State) (u : UnitId) (f : FlowId) : Nat :=
  match lastBaton (s.baton.get u) with
  | some r => match r.flows[f.val]? with
    | some x => fillCount s f x.1 (tb3Ref s - r.stateCycle)
    | none => s.flows[f].tokens
  | none => s.flows[f].tokens

/-- Bytes reserved for the stripes the new unit holds. -/
def heldReservation (s : State) (f : FlowId) : Nat :=
  match s.flows[f].carries with
  | some n => ((heldStripes s.streams[n]).map fun k => stripeBits k / 8).sum + (s.streams[n].coding.elim 0 fun k => k.reserved)
  | none => 0

/-- Queues start empty, tags and credits at 0. -/
def takeFlow (s : State) (u : UnitId) (f : FlowId) : State :=
  let t := takenTokens s u f
  let p := takenPackets s u f
  let r := heldReservation s f
  modFlow s f fun x => { x with
    queue := []
    reserved := r
    tokens := t
    packets := p
    primary := pathReset
    secondary := pathReset
    refusing := false }

/-- Packets in queues and paths, lost at the switch. -/
def queuedPackets (s : State) : Nat :=
  (allFlows.map fun f => s.flows[f].queue.length + s.flows[f].primary.queue.length + s.flows[f].secondary.queue.length).sum

def takePort (x : Port) : Port := { x with receive := [], vt := .replicate 4 0, roundPos := .replicate 4 0 }

/-! ## The hand-over (R320, R327, R328) -/

/-- The objects of a hand-over (Table 13-9). -/
def noteHandover (s : State) (h : HandOver) (old : UnitId) (standIns : Nat) : State :=
  let fault := decide (h.source ≠ 0)
  let t := regPut (bumpHalf s (key 0x2010 9) fault) (key 0x2010 0x0A) s.lap.count
  let t1 := regPut t (key 0x2010 0x0B)
    ((if h.planned then 2 ^ 31 else 0) + old.bit * 2 ^ 30 + h.source * 2 ^ 24 + min 0xFFFF standIns * 2 ^ 8)
  if fault then raiseEmcyOf t1 old 0xFF0B (key 0x2010 0x0B) 0 else t1

/-- DRAM leaves self-refresh at once, without a re-centre (11_dram.md R281). -/
def handoverDram (s : State) (u : UnitId) : State :=
  match (s.dram.get u).refresh with
  | .inside => wakeDram s u 432
  | .entering => wakeDram s u 432
  | _ => s

/-- The new unit stops its self-test step: a DRAM pattern step is abandoned, and its 64 MiB region of segments 1 to 7 holds undefined data; another
block returns to its reset state within 32 cycles (R311). The step is repeated in a later cycle (R310). -/
def stopSelfTest (s : State) (u : UnitId) : State :=
  let t : State := { s with selfTest := s.selfTest.mod u fun x => { endStep false x with resetBy := if x.step.isSome then s.now + 32 else x.resetBy } }
  match patternOf (s.selfTest.get u) with
  | none => t
  | some r =>
    let lo := segmentBytes + r.val * 0x4000000
    drawFree (setDram t u fun d => { d with
      mem := d.mem.filter fun c => decide (c.1 < lo ∨ lo + 0x4000000 ≤ c.1)
      undef := defineRange d.undef lo (lo + 0x4000000) ++ [(lo, lo + 0x4000000, s.free)] })

/-- The new unit's return decoder starts with the next packet and holds no picture; the parameter sets, which are no pictures, stay known
(06_decoders.md R153; log entry 61, DEDUCED). -/
def handoverReturn (x : RetState) : RetState :=
  { retReset with enabled := x.enabled, setting := x.setting, waitIrap := false, sets := x.sets, sequence := x.sequence, rates := x.rates,
                  outputs := x.outputs, lastClass := x.lastClass }

/-- A DMA channel of the former unit stops with it (12_translation_dma.md Table 12-4). -/
def stoppedDma (x : Dma) : Dma := if dmaActive x then { x with mode := .stopped } else x

/-- What every hand-over does besides coding: the new unit's ring begins with the lines that its line store holds, its DMA channels are idle (12_translation_dma.md
R302, Table 12-4), and 0x2800:04 shows its multiplier (11_dram.md R283). -/
def handoverCommon (s : State) (old new : UnitId) : State :=
  let t := captureHandover s old
  let t1 : State := { t with
    relay := { t.relay with
      active := some new
      fault := none
      latched := none
      refusedNow := false
      forced := false
      planned := false
      drainPictures := 0
      switchTick := none
      warmAt := none
      holdOffAt := none
      repairDone := false
      handoverAt := s.lap.lastTick
      mode := if t.relay.mode = .lockedOut then .lockedOut else .exposed }
    ports := t.ports.map takePort
    ret := handoverReturn t.ret
    time := { t.time with request := t.time.request.filter fun r => r.t3.isSome }
    disp := t.disp.mod new fun d => { d with jobs := .replicate 4 [], heldJobs := [] }
    baton := ⟨{ t.baton.a with expected := none }, { t.baton.b with expected := none }⟩
    standIns := ⟨standInsReset, standInsReset⟩
    dma := (t.dma.mod old (fun v => v.map stoppedDma)).set new (.replicate 16 dmaReset) }
  let t2 := regPut (ringPresent t1 new) (kDram 4) (refreshMultiplier t1 new)
  handoverDram (stopSelfTest (beginWatch t2 3) new) new

/-- The module runs on in the new unit: its streams' stripes, then queues and counts; the superseding tokens of slices that left damaged are the
module's to send (06_decoders.md R137). -/
def handoverFlows (s : State) (new : UnitId) : State :=
  forEach allFlows (fun x f => takeFlow x new f)
    { s with streams := s.streams.map fun x => { x with tokenStore := [], recent := [] } }

/-- A fault-started or forced hand-over: stand-ins, rebuild, repair of the former unit; in WARMING the incoming unit's own coding
goes on (R327). -/
def faultHandover (s : State) (h : HandOver) (old new : UnitId) : State :=
  let warm := decide (s.relay.mode = .warming)
  let t := forEach allStreams (fun x n => replaceFlight x n new) s
  let t1 := noteHandover t h old (standInCount t)
  let start := fun (x : State) (n : StreamId) => if warm then x else handoverPicture (takeStream x new n) n
  let t2 := freshChannels (forEach ((activeStreams t1)) start t1)
  enterRepair (handoverFlows (handoverCommon t2 old new) new) old

/-- The former unit's stripes of a stream at a planned switch: those released take their verdicts, the rest the incoming unit codes itself. -/
def handStripes (s : State) (n : StreamId) (new : UnitId) : State :=
  let theirs := s.streams[n].flight.filter fun k => decide (k.unit ≠ new) && k.released
  let t := modStream s n fun y => { y with
    flight := (y.flight.filter fun k => decide (k.unit = new) || k.released).map fun k => if k.unit = new then k else handedStripe s k }
  forEach (theirs.map (handedStripe s)) (fun x k => noteHanded x n k) t

/-- A planned switch at its tick: queued packets are lost and counted; the former unit becomes the standby. -/
def plannedHandover (s : State) (h : HandOver) (old new : UnitId) : State :=
  let t := noteHandover (bumpBy s (key 0x2010 0x0C) (queuedPackets s)) h old 0
  handoverFlows (handoverCommon (forEach allStreams (fun x n => handStripes x n new) t) old new) new

/-- The decision latched at T - 64 is carried out at the tick, or at the first one at which the selectors do not hold
(01_module.md R20); nothing is left of it otherwise. -/
def handOver (s : State) : State :=
  match s.relay.latched, s.relay.active with
  | some h, some old =>
    if s.lap.voterHold then s
    else if h.planned then plannedHandover s h old old.other else faultHandover s h old old.other
  | _, _ => { s with relay := { s.relay with latched := none } }

end Sys2Proof.Machine
end

