-- ==== Sys2Proof/Machine/Forecast.lean ====
section
/-! DEFINITION. What the margin planner computes of a die: its degradation and the fitted days to exhaustion (16_power_ageing.md R396,
R400). Logarithms are to base 2 in units of 2⁻³², cut (log entry 66, DESIGN CHOICE). -/

namespace Sys2Proof.Machine

/-- Bits of log2 below the point, from a mantissa in units of 2⁻⁴⁸, each squaring giving one. -/
def log2Bits : Nat → Nat → Nat → Nat
  | 0, _, a => a
  | k + 1, m, a =>
    let q := m * m / 2 ^ 48
    if 2 ^ 49 ≤ q then log2Bits k (q / 2) (2 * a + 1) else log2Bits k q (2 * a)

/-- log2 v of a positive number. -/
def log2Of (v : Nat) : Nat :=
  let k := Nat.log2 v
  k * 2 ^ 32 + log2Bits 32 (v * 2 ^ 48 / 2 ^ k) 0

/-- The largest number below 2^k more than `a` whose log2 is at most y. -/
def exp2Of (y : Nat) : Nat → Nat → Nat
  | 0, a => a
  | k + 1, a => exp2Of y k (if log2Of (a + 2 ^ k) ≤ y then a + 2 ^ k else a)

/-! ## Degradation (R396) -/

/-- 10⁶ × (1 − ratio / baseline ratio) of one oscillator pair, rounded to nearest. -/
def pairDegradation (die : DieId) (i : Nat) (counts : Nat × Nat) : Int :=
  let baseline := max 1 (Config.baselineRatio die i).toNat * max 1 counts.2
  (1000000 : Int) - ((2 * 1000000 * counts.1 * 2 ^ 32 + baseline) / (2 * baseline) : Nat)

/-- d of a die: the median over its pairs; 0 where the die runs faster than its baseline (log entry 66). -/
def degradationOf (die : DieId) (x : DieMeasure) : Nat :=
  (medianOf (x.counts.toList.mapIdx fun i c => pairDegradation die i c)).toNat

/-! ## The fit of the ageing history (R400) -/

/-- Powered hours and degradation of a die's records, and of the present measurement. -/
def agePoints (s : State) (die : DieId) (d : Nat) : List (Nat × Nat) :=
  (s.planner.hours, d) :: (s.flash.history.filter fun r => r.crcOk && decide (r.die = die)).map fun r => (r.hours, r.degradation)

/-- n by least squares of log d on log t, bounded to 0.1 to 0.5; 0.25 until 30 records exist. -/
def fitExponent (records : Nat) (l : List (Int × Int)) : Nat :=
  let n : Int := l.length
  let sx := (l.map Prod.fst).sum
  let sy := (l.map Prod.snd).sum
  let sxx := n * (l.map fun p => p.1 * p.1).sum - sx * sx
  let sxy := n * (l.map fun p => p.1 * p.2).sum - sx * sy
  if records < 30 ∨ sxx ≤ 0 then 2 ^ 30 else (max (2 ^ 32 / 10) (min (2 ^ 31) (sxy * 2 ^ 32 / sxx))).toNat

/-- log2 of the powered hours at which the fitted d reaches 60 × s; none where nothing has degraded yet. -/
def exhaustionLog (s : State) (die : DieId) (d : Nat) : Option Int :=
  let pts := agePoints s die d
  let l : List (Int × Int) := (pts.filter fun p => decide (0 < p.1 ∧ 0 < p.2)).map fun p => ((log2Of p.1 : Int), (log2Of p.2 : Int))
  if l.isEmpty then none
  else
    let n := fitExponent pts.length l
    let b := ((l.map Prod.snd).sum - (l.map Prod.fst).sum * n / 2 ^ 32) / l.length
    some (((log2Of (max 1 (60 * (Config.sensitivity die).toNat)) : Int) - b) * 2 ^ 32 / n)

/-- Days of powered operation from the present to exhaustion, saturating at 0xFFFF_FFFF. -/
def forecastOf (s : State) (die : DieId) (d : Nat) : Nat :=
  match exhaustionLog s die d with
  | none => 0xFFFFFFFF
  | some y =>
    if 40 * 2 ^ 32 ≤ y then 0xFFFFFFFF
    else if y < 0 then 0
    else min 0xFFFFFFFF ((exp2Of y.toNat 40 0 - s.planner.hours) / 24)

end Sys2Proof.Machine
end

