-- ==== Sys2Proof/Machine/Power.lean ====
section
/-! DEFINITION. Power stage, hold-up and flush, telemetry, and the margin planner (16_power_ageing.md). -/

namespace Sys2Proof.Machine

/-! ## Start, stop, warning (R378, R379, R388 to R391) -/

/-- The stage starts; after a stop the start conditions hold for 100 ms, and after a critical temperature HV_EN has been
deasserted and asserted again (R379). Every phase is in service again from a power-up (R380). -/
def execStageStart (s : State) : Out :=
  if s.stage.running ∨ (s.stage.stopped ∧ s.now < s.stage.stoppedAt + 100 * cyclesPerMs) ∨
      (s.stage.criticalStop ∧ ¬ s.stage.hvToggled) then .next s
  else
    let t : State := { s with stage := { stageReset with stoppedAt := s.stage.stoppedAt } }
    .next (if s.stage.criticalStop then setFlag t kStage 21 else t)

/-- The stage raises a warning; HV_EN deasserted (cause 2), while the stage runs or after its stop, is also what a restart after a
critical stop needs (R379). -/
def execPowerFailWarning (cause : Fin 8) (s : State) : Out :=
  let t := if s.stage.running ∧ cause.val ≠ 0 then powerFailWarning s cause else s
  .next { t with stage := { t.stage with hvToggled := t.stage.hvToggled || decide (cause.val = 2) } }

/-- The stage stops after a warning that stops it (every cause but 6): the 12 V bus falls and the module enters power-on
reset (R379, Table 16-3). -/
def execStageStop (s : State) : Out :=
  match s.stage.warn with
  | some c =>
    if c.val = 6 then .next s
    else
      .next { powerOn s with
        stage := { stageReset with
          running := false
          stopped := true
          stoppedAt := s.now
          criticalStop := s.stage.criticalStop
          hvToggled := s.stage.hvToggled && !s.stage.criticalStop } }
  | none => .next s

/-- The warning clears (R391, R387): dictionary writes are accepted again. -/
def clearWarning (s : State) : State :=
  let t := clearFlag (clearFlag s kStage 31) kStage 29
  { t with stage := { t.stage with warn := none } }

/-- VIN returned for 1 ms before the stop: the stage takes the load from VIN again and INPUT_RETURNED is set (R391). -/
def execInputReturn (s : State) : Out :=
  if s.stage.warn.isSome ∧ s.stage.running ∧ flag s kStage 29 ∧ s.stage.warnAt + cyclesPerMs ≤ s.now then
    let t := clearWarning s
    .next { t with
      stage := { t.stage with record := t.stage.record.map fun r => { r with returned := true } }
      flash := { t.flash with
        pfRecord := if t.stage.flush then t.flash.pfRecord
          else t.flash.pfRecord.map fun r => { r with returned := true } } }
  else .next s

/-- The flush is written into the area that does not hold the newest: the last complete baton, the unsaved log records
(at most 128) and the power-fail record (R390). -/
def execFlushComplete (s : State) : Out :=
  if s.stage.flush then
    let n := min 128 s.log.unsaved
    let r := s.stage.record.map fun x =>
      { x with flushed := true, flushTime := (s.now - s.stage.warnAt) / cyclesPerUs, logRecords := n }
    let area : Fin 2 := 1 - s.flash.areaNewest
    let b := s.baton.get (viewUnit s)
    .next { s with
      stage := { s.stage with flush := false, record := r }
      log := { s.log with unsaved := s.log.unsaved - n }
      flash := { s.flash with
        areaErased := vmod s.flash.areaErased area fun _ => false
        areaNewest := area
        flushLog := s.log.records.take n
        flushBaton := match b.last with
          | some i => b.slots.get i
          | none => none
        pfRecord := r } }
  else .next s

/-- The sector number that stands for a power-fail area in the journal. -/
def areaSector (a : Fin 2) : Nat := 3072 + a.val

/-- The area that does not hold the newest flush is erased while no warning is present, within 400 ms (R390); the erase
has its intent entry in the journal (15_reset.md R370). -/
def execPowerFailAreaErase (s : State) : Out :=
  let area : Fin 2 := 1 - s.flash.areaNewest
  if s.stage.warn.isSome ∨ s.flash.areaErased.get area ∨ s.flash.areaEraseAt.isSome then .next s
  else .next { s with flash := { s.flash with areaEraseAt := some s.now, intents := areaSector area :: s.flash.intents } }

/-- The erase of a power-fail area ends 400 ms after its start. -/
def finishAreaErase (f : FlashState) (now : Nat) : FlashState :=
  match f.areaEraseAt with
  | some t =>
    if t + 400 * cyclesPerMs ≤ now ∧ ¬ f.suspended then
      { f with
        areaEraseAt := none
        areaErased := vmod f.areaErased (1 - f.areaNewest) fun _ => true
        intents := f.intents.erase (areaSector (1 - f.areaNewest)) }
    else f
  | none => f

/-- Log records are saved in groups of 64 and at least every second (R390); the save is a program pulse (R367). -/
def execLogSave (s : State) : Out :=
  if s.log.unsaved ≠ 0 ∧ (64 ≤ s.log.unsaved ∨ s.log.savedAt + cyclesPerSec ≤ s.now) ∧ s.stage.warn.isNone then
    .next { s with
      log := { s.log with unsaved := 0, savedAt := s.now }
      flash := { s.flash with
        pulse := true
        writing := .log
        logSaved := (s.log.records.take s.log.unsaved ++ s.flash.logSaved).take 1024 } }
  else .next s

/-! ## Phases and current limit (R380 to R383) -/

/-- A phase fault: the first brings in the spare, the second is a power fault with the removal of the inactive unit's
rails at the next tick, the third raises a warning with cause 4 (R380 to R382). -/
def execPhaseFault (i : Fin 7) (s : State) : Out :=
  if s.stage.phases.getLsbD i.val then
    let left := s.stage.phases &&& ~~~ (BitVec.ofNat 7 (1 <<< i.val))
    let t := regPut (bump (setFlag { s with stage := { s.stage with phases := left } } kStage 26) (key 0x5C00 8))
      (key 0x5C00 7) left.toNat
    let level := if phaseCount left = 6 then 1 else 2
    let t1 := raiseEmcyWith t 0x3200 level (unitBit t) (kStage * 256 + i.val)
    if phaseCount left = 6 then .next (setFlag t1 kStage 27)
    else if phaseCount left = 5 then
      let t2 := dropSwitch (powerFault t1)
      .next { t2 with stage := { t2.stage with shortAt := some s.now } }
    else .next (powerFailWarning t1 4)
  else .next s

/-- The limit begins to act: CLAMP, CLAMP_SEEN and a power fault (R383). -/
def clampBegins (s : State) : State :=
  let t := bump (setFlag (setFlag s kStage 25) kStage 24) (key 0x5C00 0x0A)
  let t1 := raiseEmcy (powerFault t) 0x2100 kStage 0
  { t1 with stage := { t1.stage with clampAt := some s.now } }

/-- The input current limit acts; after 1 ms a warning with cause 3 (R383). -/
def execCurrentClamp (s : State) : Out :=
  match s.stage.clampAt with
  | some t => if t + cyclesPerMs ≤ s.now then .next (powerFailWarning s 3) else .next s
  | none => .next (clampBegins s)

/-! ## Telemetry (R386, R387) -/

/-- The ten bytes of a frame its CRC covers, bits [95:16], most significant first (Table 16-2). -/
def frameBytes (f : TelemetryFrame) : List Byte :=
  [f.alive, f.flags, f.phases, f.cause ++ f.slowId] ++ (leBytes 4 f.slowValue.toNat).reverse ++ [0, 0]

/-- Telemetry is lost: a power fault, and what a warning with cause 6 does, without a stop (R387). -/
def telemetryLost (s : State) : State :=
  if s.stage.lost then s
  else
    let t := raiseEmcyWith (setFlag (powerFault s) kStage 23) 0x3200 2 (unitBit s) (kStage * 256)
    let t1 := { t with stage := { t.stage with lost := true } }
    match t1.stage.warn with
    | some _ => t1
    | none => warnActions t1 6

/-- The object a slow value is shown in (Table 16-2, Table 16-6); 7 is reserved. -/
def slowKey (n : Nat) : Option Nat :=
  match n with
  | 0 => some (key 0x5C00 2)
  | 1 => some (key 0x5C00 3)
  | 2 => some (key 0x5C00 5)
  | 3 => some (key 0x5C00 6)
  | 4 => some (key 0x5C01 37)
  | 5 => some (key 0x5C01 38)
  | 6 => some (key 0x5C00 4)
  | _ => none

/-- The flags, phases and slow value of a good frame take effect (Table 16-2); PHASES_SHORT stays until the next power-up, the module's
resets notwithstanding (R380, R381). -/
def telemetryApply (s : State) (f : TelemetryFrame) : State :=
  let s0 := if f.flags.getLsbD 6 ∧ s.stage.clampAt = none then clampBegins s else s
  let s1 := if f.flags.getLsbD 5 then setFlag s0 kStage 26 else s0
  let s2 := if s.stage.railsRemoved.isSome then setFlag s1 kStage 20 else s1
  let t := putFlag (putFlag (putFlag (putFlag s2 kStage 25 (f.flags.getLsbD 6)) kStage 27 (f.flags.getLsbD 4)) kStage 29
    (f.flags.getLsbD 3)) kStage 28 (f.flags.getLsbD 1)
  let t1 := regPut t (key 0x5C00 7) (f.phases.toNat % 128)
  let t2 := match slowKey f.slowId.toNat with
    | some k => regPut t1 k f.slowValue.toNat
    | none => t1
  { t2 with stage := { t2.stage with
      alive := some f.alive
      badFrames := 0
      lost := false
      phases := f.phases.setWidth 7
      clampAt := if f.flags.getLsbD 6 then t2.stage.clampAt else none } }

/-- A telemetry frame: one that fails its CRC or breaks ALIVE is bad, the fourth bad one in a row loses telemetry; good
frames end the loss with the flags carried in them (R386, R387). -/
def execTelemetryFrameRx (f : TelemetryFrame) (s : State) : Out :=
  let crcGood := decide (crc16 0x1D0F#16 (frameBytes f) = f.crc)
  let inSequence := match s.stage.alive with
    | some a => decide (f.alive = a + 1)
    | none => true
  if crcGood && inSequence then
    let t := telemetryApply s f
    let cause : Fin 8 := finOf 8 (by decide) f.cause.toNat
    if f.flags.getLsbD 7 then
      .next (match t.stage.warn with
        | some c => if c.val = 6 ∧ cause.val ≠ 6 then warnActions t cause else t
        | none => warnActions t cause)
    else
      .next (match t.stage.warn with
        | some _ => clearWarning t
        | none => t)
  else
    let t : State := { s with stage := { s.stage with
      badFrames := s.stage.badFrames + 1
      alive := if crcGood then some f.alive else s.stage.alive.map (· + 1) } }
    if 4 ≤ t.stage.badFrames then .next (telemetryLost t) else .next t

/-- Four consecutive bad frames mean that telemetry is lost (R387). -/
def execTelemetryLost (s : State) : Out := .next (telemetryLost s)

/-! ## The margin planner (R397 to R401, Table 16-5) -/

def kPlanner : Nat := key 0x5C10 5

/-- The offset step 3 of Table 16-5 asks for, mV, before its bound of 60. -/
def requiredOffset (prev d steps : Nat) (die : DieId) : Nat :=
  let s := (Config.sensitivity die).toNat
  max prev (5 * ((d + 5 * s - 1) / (5 * s)) + 5 * steps)

/-- The refresh floor of step 6 from the corrected errors of 24 h over 56 GiB; it is lowered one step after 30 runs
below the lower threshold. -/
def refreshFloor (d : DieState) (errors : Nat) : DieState :=
  if 560 < errors then { d with floor := 4, lowRuns := 0 }
  else if 56 < errors then { d with floor := max d.floor 2, lowRuns := 0 }
  else if errors = 56 then { d with lowRuns := 0 }
  else if d.lowRuns + 1 = 30 then { d with floor := if d.floor = 4 then 2 else 1, lowRuns := 0 }
  else { d with lowRuns := d.lowRuns + 1 }

/-- The unit of a die; none for the base die. -/
def dieUnit (d : DieId) : Option UnitId := if d = 0 then some .a else if d = 1 then some .b else none

def inRepair (s : State) (u : UnitId) : Bool := decide (s.relay.repair ≠ .none) && decide (s.relay.repairUnit = u)

/-- One die's part of a run: measure, canary steps, offset, refresh floor, forecast and notices, history record. A unit in repair is
skipped (R397). -/
def planDie (s : State) (m : PlanMeasure) (die : DieId) : State :=
  if (dieUnit die).any (inRepair s) then
    { s with planner := { s.planner with dies := vmod s.planner.dies die fun x => { x with skipped := true } } }
  else
    let x := m.dies.get die
    let ds := s.planner.dies.get die
    let steps := min 255 (ds.steps + (if 0 < x.canaryEvents then 1 else 0))
    let d := degradationOf die x
    let need := requiredOffset ds.target d steps die
    let offset := min 60 need
    let worn := ds.worn || decide (60 < need)
    let forecast := forecastOf s die d
    let n365 := decide (forecast < 365) || worn
    let n180 := decide (forecast < 180)
    let fresh := (n365 && !ds.noticed365) || (n180 && !ds.noticed180)
    let ds1 : DieState := { (if die = 2 then ds else refreshFloor ds x.eccErrors) with
      target := offset
      steps := steps
      skipped := false
      worn := worn
      noticed365 := ds.noticed365 || n365
      noticed180 := ds.noticed180 || n180
      noticeAt := if n365 && ds.noticeAt.isNone then some s.planner.hours else ds.noticeAt }
    let left := match ds1.noticeAt with
      | some h => 180 - (s.planner.hours - h) / 24
      | none => 0xFFFF
    let t := regPut (regPut (regPut (regPut (bumpBy (regPut s (kDie die 1) d) (kDie die 4) x.canaryEvents)
      (kDie die 3) steps) (kDie die 5) (60 - offset)) (kDie die 6) forecast) (kDie die 8) left
    let t1 := if worn then setFlag t kPlanner 29 else t
    let t2 := if ds.floor < ds1.floor then setFlag t1 kPlanner 26 else t1
    let t3 := if fresh then raiseEmcy (setFlag t2 kPlanner 30) 0xFF0A kPlanner die.val else t2
    { t3 with
      planner := { t3.planner with dies := vmod t3.planner.dies die fun _ => ds1 }
      flash := { t3.flash with
        pulse := true
        writing := .history
        history := (⟨s.planner.hours, die, d, steps, offset, forecast, true⟩ :: t3.flash.history).take 8192 } }

/-- Rounded quotient, a half going up (00_scope.md R6). -/
def roundDiv (a b : Nat) : Nat := (2 * a + b) / (2 * b)

/-- The objects of the whole module after a run: the capacity margin is the smallest headroom in per mille of 60 mV (R400). -/
def planSummary (s : State) : State :=
  let room := min (regGet s (kDie 0 5)) (min (regGet s (kDie 1 5)) (regGet s (kDie 2 5)))
  let days := min (regGet s (kDie 0 6)) (min (regGet s (kDie 1 6)) (regGet s (kDie 2 6)))
  regPut (regPut (regPut s (key 0x5C10 3) (roundDiv (room * 1000) 60)) (key 0x5C10 4) days) (key 0x5C10 2) (tb0Value s)

/-- A unit's adapted lane values become its last-good ones: every sensor lane LOCKED with an eye of at least 24/128 UI, and every network
receive lane found so (step 4). What a receiver has adapted to is a free value (log entry 4). -/
def storeLanes (s : State) (u : UnitId) (net : BitVec 16) : State :=
  let good := fun (x : Lane) => decide (x.mode = .locked) && decide (24 ≤ x.eye)
  let value := fun (i : Nat) => (Config.freeValue 64 (s.free + i)).toNat
  let lanes := (s.lanes.get u).mapFinIdx fun i x _ => if good x then { x with equal := value i } else x
  { s with
    free := s.free + 80
    lanes := s.lanes.set u lanes
    flash := { s.flash with
      equal := s.flash.equal.set u ((s.flash.equal.get u).mapFinIdx fun i w hi =>
        if good lanes[i] then some ⟨lanes[i].equal, true⟩ else w)
      netEqual := s.flash.netEqual.set u ((s.flash.netEqual.get u).mapFinIdx fun i w _ =>
        if net.getLsbD i then some ⟨value (64 + i), true⟩ else w) } }

/-- The values of the last successful re-centre of each trained channel become its last-good ones (step 5): a free value (log entry 4). -/
def storeTraining (s : State) (u : UnitId) : State :=
  { s with
    free := s.free + 32
    flash := { s.flash with
      training := s.flash.training.set u ((s.flash.training.get u).mapFinIdx fun i w _ =>
        if 0 < (s.dram.get u).recentredAt then some ⟨(Config.freeValue 64 (s.free + i)).toNat, true⟩ else w) } }

/-- A sensor lane LOCKED with an eye below 16/128 UI (LANE_MARGIN_LOW). -/
def lowSensorLane (s : State) : Bool :=
  (s.lanes.a.toList ++ s.lanes.b.toList).any fun x => decide (x.mode = .locked) && decide (x.eye < 16)

/-- Steps 4 and 5 for a unit: its last-good lane and training values, and LANE_MARGIN_LOW. A unit in repair is skipped (R397). -/
def planUnit (s : State) (m : PlanMeasure) (u : UnitId) : State :=
  if inRepair s u then s
  else
    let t := storeTraining (storeLanes s u (if u = .a then m.goodNetA else m.goodNetB)) u
    if m.lowNet || lowSensorLane s then setFlag t kPlanner 25 else t

/-- A run over the three dies (R398). -/
def runPlan (s : State) (m : PlanMeasure) : State :=
  let t0 := planDie (planDie (planDie s m 0) m 1) m 2
  let t2 := clearFlag (clearFlag (planSummary (planUnit (planUnit t0 m .a) m .b)) kPlanner 31) kPlanner 27
  { t2 with planner := { t2.planner with lastEnd := some s.now } }

/-- Whether a run is due: the power-up run, or 24 h after the end of the previous one (R397). -/
def planDue (s : State) : Bool :=
  match s.planner.lastEnd with
  | none => true
  | some t => flag s kPlanner 31 || decide (t + 24 * 3600 * cyclesPerSec ≤ s.now)

/-- The die of a unit that a run skipped in repair and that is now the ready standby (R397). -/
def skippedReady (s : State) : Option DieId :=
  match standbyOf s with
  | some u => if standbyIsReady s ∧ (s.planner.dies.get (dieOf u)).skipped then some (dieOf u) else none
  | none => none

/-- The planner's run, or that of a die it skipped; none is made under a power-fail warning (R389, R397). -/
def execPlannerRun (m : PlanMeasure) (s : State) : Out :=
  if s.stage.warn.isSome then .next s
  else if planDue s then .next (runPlan s m)
  else
    match skippedReady s with
    | some die => .next (planSummary ((dieUnit die).elim (planDie s m die) fun u => planUnit (planDie s m die) m u))
    | none => .next s

/-- A write of 1 to 0x5C10:01 runs a plan now (R397). -/
def execPlanNow (k : Client) (m : PlanMeasure) (s : State) : Out :=
  .next (serveWrite s k 0x5C10 fun t => .ok (runPlan t m))

/-- A 5 mV step toward the offset asked for, at most one per millisecond (R399). -/
def execVoltageStep (die : DieId) (s : State) : Out :=
  let d := s.planner.dies.get die
  if d.inUse < d.target ∧ (d.stepAt = none ∨ d.stepAt.getD 0 + cyclesPerMs ≤ s.now) then
    .next { s with planner := { s.planner with
      dies := vmod s.planner.dies die fun x => { x with inUse := min x.target (x.inUse + 5), stepAt := some s.now } } }
  else .next s

/-- 180 days of powered operation after a worn unit's first notice its relay duty ends (R401): as the standby it is
not ready, as the active unit it is replaced by a planned switch. -/
def execWornDutyEnd (die : DieId) (s : State) : Out :=
  let d := s.planner.dies.get die
  match d.noticeAt, dieUnit die with
  | some h, some _ =>
    if d.worn ∧ h + 180 * 24 ≤ s.planner.hours then
      .next { s with planner := { s.planner with dies := vmod s.planner.dies die fun x => { x with dutyEnded := true } } }
    else .next s
  | _, _ => .next s

end Sys2Proof.Machine
end

