-- ==== Sys2Proof/Machine/Schedule.lean ====
section
/-! DEFINITION. When ticks fall (02_lap.md R29, R374; 10_time.md R247, R248; 07_sensor_lanes.md R182), SYNC_OUT (10_time.md R261), the picture phase and dropped
pictures at tick 1 (R181 to R184), arrival windows at a tick (R174 to R176, 12_translation_dma.md R298), DRAM re-centring steps
(11_dram.md R282). Times in 1/256 core cycles unless said otherwise. -/

namespace Sys2Proof.Machine

/-! ## TB2 picture starts -/

/-- The TB2 phase, taken modulo the TB2 period (R247). -/
def tb2Phase (s : State) : Nat := cfg s (key 0x2203 5) * 384 % max 1 (pictureNominal s)

/-- A group of TB1 pictures. -/
def groupLength (s : State) : Nat := max 1 (ratioK s * tb1PeriodNow s)

/-- Picture j of a group, from the group's first picture; a group holds M. -/
def groupOffset (s : State) (j : Nat) : Nat :=
  if ratioM s ≤ j then groupLength s else min (j * 256 * pictureNum s / pictureDen s) (groupLength s)

/-- The first TB2 picture start after time t. -/
def gridAfter (s : State) (t : Nat) : Nat :=
  let r := t + groupLength s - (s.time.groupStart + tb2Phase s)
  let j := ceilDiv ((r % groupLength s + 1) * pictureDen s) (max 1 (256 * pictureNum s))
  s.time.groupStart + tb2Phase s + r / groupLength s * groupLength s + groupOffset s j - groupLength s

/-- Length of a picture that starts at `start`: to the next TB2 start, or the pulled period (R182). -/
def nextLength (s : State) (start : Nat) : Nat :=
  let n := pictureNominal s
  if pulled s then ((n : Int) + (n : Int) * s.phase.pull / 1000000000).toNat else gridAfter s (start + n / 2) - start

/-- A step kept within laps of 1,024 to 16,777,215 cycles over `laps` laps of a length. -/
def clipStep (laps len : Nat) (want : Int) : Int :=
  max ((laps * 262144 : Nat) - (len : Int)) (min ((laps * 4294967040 : Nat) - (len : Int)) want)

/-! ## SYNC_OUT (10_time.md R261) -/

/-- The period of a SYNC_OUT source, in 1/256 core cycles. -/
def syncPeriod (s : State) (src : Nat) : Nat :=
  match src with
  | 1 => 10 ^ 9 * 2 ^ 32 * 3840 / (10 * 2 ^ 32 + s.time.adj).toNat
  | 2 => tb1PeriodNow s
  | 3 => if s.lap.period = 0 then pictureNominal s else (s.lap.pictureLen + s.lap.stretch).toNat
  | _ => if s.lap.period = 0 then (s.lap.nextTick - s.lap.lastTick) * 256 else s.lap.period

/-- The next event of a SYNC_OUT source. -/
def syncNext (s : State) (src : Nat) : Nat :=
  match src with
  | 1 => s.now * 256 + (10 ^ 9 * 2 ^ 32 - tb0Now s % (10 ^ 9 * 2 ^ 32)) * 3840 / (10 * 2 ^ 32 + s.time.adj).toNat
  | 2 => tb1Due s
  | 3 => if s.lap.period = 0 then gridAfter s (s.now * 256) else s.lap.pictureStart + (s.lap.pictureLen + s.lap.stretch).toNat
  | _ => s.lap.nextTick * 256

/-- Its last event. -/
def syncLast (s : State) (src : Nat) : Nat :=
  match src with
  | 1 => syncNext s 1 - syncPeriod s 1
  | 2 => s.time.tb1Start
  | 3 => if s.lap.period = 0 then gridAfter s (s.now * 256) - pictureNominal s else s.lap.pictureStart
  | _ => s.lap.lastTick * 256

/-- An edge is due now, within ±2 ns: an event of the source shifted by the pin's phase in ns, before the next event where it is negative. -/
def syncDue (s : State) (src : Nat) (phase : Int) : Bool :=
  let base : Int := (if phase < 0 then syncNext s src else syncLast s src : Nat)
  let p : Int := max 1 (syncPeriod s src : Nat)
  decide ((s.now * 256 - base - phase * 384 + 768) % p ≤ 1536)

/-- A SYNC_OUT pin pulses with the setting its source's event finds; source 0 and the reserved sources (DESIGN CHOICE, log entry 64) hold it low; a
width at or above the source period is cut to half of it. -/
def execSyncOutPulse (n : Fin 4) (s : State) : Out :=
  let w := cfg s (key 0x2204 (1 + n.val))
  let src := fieldOf w 26 24
  let width := fieldOf w 23 0 * 3 / 2
  let period := syncPeriod s src / 256
  if ¬ (1 ≤ src ∧ src ≤ 4) then
    .next { s with pins := { s.pins with
      syncOut := vmod s.pins.syncOut n fun _ => false
      syncWord := vmod s.pins.syncWord n fun _ => w } }
  else if syncDue s src (cfgSigned s (key 0x2204 (5 + n.val))) then
    .next { s with pins := { s.pins with
      syncOut := vmod s.pins.syncOut n fun _ => !w.testBit 31
      syncWord := vmod s.pins.syncWord n fun _ => w
      syncFall := vmod s.pins.syncFall n fun _ => s.now + (if period ≤ width then period / 2 else width) } }
  else .next s

/-! ## Ticks -/

/-- Tick j of a picture, in core cycles: the first core edge at or after it; a step in progress is spread from tick 1 on. -/
def tickTime (l : LapState) (laps j : Nat) : Nat :=
  let extra : Int := if j ≤ 1 ∨ laps ≤ 1 then 0 else l.stretch * ((j - 1) * laps : Nat) / ((laps - 1 : Nat) : Int)
  ceilDiv ((l.pictureStart * laps + j * l.pictureLen : Nat) + extra).toNat (256 * laps)

/-- The next tick is planned; no tick falls in the past. -/
def planTick (s : State) (j : Nat) : State :=
  { s with lap := { s.lap with nextTick := max (s.now + 1) (tickTime s.lap (lapsOf s) j) } }

/-- TB1 time of day in 2⁻³² ns (R248). -/
def timeOfDay (s : State) : Nat :=
  ((tb0Now s : Int) + (cfgSigned s (key 0x2201 7) - s.time.utcOffset) * (10 ^ 9 * 2 ^ 32 : Nat)).toNat

/-- Tick 0: the picture that starts takes its length and the captures of R248. The picture that ended counts towards R183's 64. -/
def openLap (s : State) (start : Nat) : State :=
  let laps := lapsOf s
  let len := nextLength s start
  let step := if s.lap.shift then clipStep laps len s.phase.carry else 0
  let left := if s.lap.shift then s.phase.carry - step else s.phase.carry
  let total := max 1 ((len : Int) + step).toNat
  let period := (2 * total + laps) / (2 * laps)
  let ended := anyChannelRunning s && decide (0 < s.lap.period)
  let t : State := { s with
    lap := { s.lap with
      inPicture := 0
      period := period
      pictureStart := start
      pictureLen := total
      picture := s.lap.picture + 1
      dropped := s.lap.dropNext
      dropNext := false
      droppedLast := s.lap.dropped
      stretch := 0
      shift := s.lap.shift && decide (left ≠ 0) && !anyChannelRunning s
      captureTb0 := tb0Now s
      captureTod := timeOfDay s }
    phase := { s.phase with
      carry := left
      cleanPictures := if s.lap.dropped then 0 else s.phase.cleanPictures + if s.phase.fault && ended then 1 else 0 } }
  planTick (regPut t (kLap 4) period) 1

/-- A tick outside any picture (R374); pictures wait for the next TB2 start. -/
def idleLap (s : State) (limit : Nat) : State :=
  { s with
    lap := { s.lap with
      inPicture := 0
      period := 0
      pictureLen := 0
      dropped := false
      dropNext := false
      droppedLast := s.lap.dropped
      stretch := 0
      shift := false
      nextTick := max (s.now + 1) (min (s.now + 15000) limit) }
    phase := { s.phase with firstStep := false, carry := 0, arrival := none, ahead := none } }

/-- The tick is taken: lap count, lap within the picture, the next tick. -/
def advanceLap (s : State) : State :=
  let t : State := { s with lap := { s.lap with count := s.lap.count + 1, lastTick := s.now } }
  if cfg t (kLap 2) = 0 then idleLap t (t.now + 15000)
  else if 0 < t.lap.period then
    (if t.lap.inPicture + 1 < lapsOf t then
      planTick { t with lap := { t.lap with inPicture := t.lap.inPicture + 1 } } (t.lap.inPicture + 2)
    else openLap t (t.lap.pictureStart + (t.lap.pictureLen + t.lap.stretch).toNat))
  else if pulled t then openLap t (t.now * 256)
  else
    let g := gridAfter t (t.now * 256 - 256)
    if ceilDiv g 256 ≤ t.now then openLap t g else idleLap t (ceilDiv g 256)

/-! ## Phase and dropped pictures (R181 to R184) -/

/-- The picture in progress, in its only lap, takes a step; what no lap of 1,024 to 16,777,215 cycles can take is left. -/
def lengthen (s : State) (want : Int) : State :=
  let step := clipStep 1 s.lap.pictureLen want
  let total := max 1 ((s.lap.pictureLen : Int) + step).toNat
  planTick (regPut { s with
    lap := { s.lap with pictureLen := total, period := (2 * total + 1) / 2 }
    phase := { s.phase with carry := want - step } } (kLap 4) ((2 * total + 1) / 2)) 1

/-- The first measured picture while no channel runs: TB2 steps, over the remaining laps of the picture in progress. -/
def stepPhase (s : State) : State :=
  let laps := lapsOf s - 1
  let want := s.phase.phi * 256
  if laps = 0 then
    let t := lengthen s want
    { t with lap := { t.lap with shift := decide (t.phase.carry ≠ 0) }, phase := { t.phase with firstStep := true } }
  else
    let step := clipStep laps (s.lap.pictureLen * laps / lapsOf s) want
    { s with
      lap := { s.lap with stretch := step, shift := decide (want ≠ step) }
      phase := { s.phase with firstStep := true, carry := want - step } }

/-- The picture of the phase just measured is dropped: no stream codes it, the ring does not store it. With one lap per picture that picture has
just ended. -/
def dropNow (s : State) : State :=
  let t := ringDrop (countDrop s)
  forEach (activeStreams t) (fun x n => modStream x n dropPicture)
    { t with lap := if lapsOf s = 1 then { t.lap with droppedLast := true } else { t.lap with dropped := true } }

/-- The picture after it is dropped; with one lap per picture that one is in progress. -/
def dropAfter (s : State) : State :=
  let t := countDrop s
  { t with lap := if lapsOf s = 1 then { t.lap with dropped := true } else { t.lap with dropNext := true } }

/-- TB2's picture n + 1 takes φ and what earlier drops left. -/
def shiftNext (s : State) : State :=
  let want := s.phase.carry + s.phase.phi * 256
  if lapsOf s = 1 then lengthen s want
  else { s with lap := { s.lap with shift := true }, phase := { s.phase with carry := want } }

/-- The drop rules of R183 on the picture n whose phase was measured in a lap of `lap`/256 cycles; a picture already dropped acts no more. -/
def dropRules (s : State) (lap : Nat) : State :=
  let size := s.phase.phi.natAbs * 256
  let half := decide (lap < 2 * size)
  let quarter := pulled s && flag s (kInput 8) 29 && decide (lap < 4 * size)
  if ¬ anyChannelRunning s ∨ (if lapsOf s = 1 then s.lap.droppedLast else s.lap.dropped) then s
  else
    let t := if pulled s ∧ (half ∨ quarter) then shiftNext s else s
    let t1 := if half then dropNow t else t
    if quarter then dropAfter t1 else t1

/-- Tick 1: phase, pull or step, drops; `tick0` is the tick before, `lap` the length of the lap that began there. -/
def phaseTick (s : State) (tick0 lap : Nat) : State :=
  if 0 < lap ∧ 0 < s.lap.period ∧ s.lap.inPicture = 1 % lapsOf s then
    let t := restPull (measurePhase s tick0 lap)
    if ¬ t.phase.measured then t
    else if pulled t ∧ ¬ anyChannelRunning t ∧ ¬ t.phase.firstStep then planTick (stepPhase t) (t.lap.inPicture + 1)
    else dropRules (updatePull t) lap
  else s

/-! ## Arrival windows and the ring (R174 to R176, R184) -/

/-- In a dropped picture `q` the lines of stripe k are discarded (R183). -/
def closeDropped (s : State) (u : UnitId) (q k : Nat) : State :=
  { s with input := s.input.mod u fun i => { i with lines := i.lines.filter fun b => decide (b.picture ≠ q ∨ b.line / stripeHeight s ≠ k) } }

/-- The window of stripe k of picture `q` closes in both units, and the active unit's lines go to the scaler and the ring. -/
def closeStripe (s : State) (q k : Nat) (dropped : Bool) : State :=
  if activeStripes s ≤ k then s
  else if dropped then closeDropped (closeDropped s .a q k) .b q k
  else
    let t := closeWindowOf (closeWindowOf s .a q k s.lap.lastTick) .b q k s.lap.lastTick
    match t.relay.active with
    | none => t
    | some u =>
      let t1 := ringStripe (scaleStripe t u k) u q k
      if k + 1 = activeStripes t1 then ringFinish t1 u else t1

/-- Windows at a tick: stripe j - 1 at tick j, the last lap's at tick 0, where the next picture begins. `lastLap` is the lap of its picture that
ended at the tick. -/
def windowTick (s : State) (lastLap : Option Nat) : State :=
  let q := lineTickPicture s
  let dropped := if atStart s ∨ s.lap.period = 0 then s.lap.droppedLast else s.lap.dropped
  let t := match lastLap with
    | some k => closeStripe s q k dropped
    | none => s
  let coded := if dropped then none else lastLap.map fun k => (q, k)
  let t1 := turnInput (turnInput t .a coded) .b coded
  if atStart s then ringOpen (openPictureInput (openPictureInput t1 .a) .b) else t1

/-! ## Re-centring (R282) -/

/-- Whether a lap neither codes nor verifies a stripe (R282). -/
def codesNothing (s : State) : Bool :=
  allStreams.all fun n => s.streams[n].coding.isNone && s.streams[n].flight.all fun k => k.judged || decide (k.codedAt + 1 ≠ s.lap.count)

/-- One step of a pending re-centre of the active unit. -/
def recentreTick (s : State) : State :=
  match s.relay.active with
  | none => s
  | some u => recentreStep s u (if codesNothing s then none else some (max 1 (dramReserve s / 2)))

end Sys2Proof.Machine
end

