-- ==== Sys2Proof/Machine/Drain.lean ====
section
/-! DEFINITION. The budget step and the operand deadline (05_pacer.md R115; 02_lap.md R41), and the test of a planned switch's drain
that follows the budget step of tick 0 (13_relay.md R326). -/

namespace Sys2Proof.Machine

/-! ## The drain of a planned switch (13_relay.md R326) -/

/-- The switch is abandoned: DRAIN_TIMEOUT and an EMCY (R326). -/
def drainTimeout (s : State) : State := raiseEmcy (setFlag (dropSwitch s) kRelayStatus 29) 0xFF03 kRelayStatus 0

/-- The releases to come: tick, row and bits; the stripe not yet coded counts with the budget just granted. -/
def releasesToCome (s : State) (n : StreamId) : List (Nat × Nat × Nat) :=
  ((heldStripes s.streams[n]).map fun k => (k.due, k.row, stripeBits k)) ++
    match s.streams[n].coding with
    | some k => [(k.codedAt + releaseLaps s n, k.row, if k.withheld then 0 else k.budget)]
    | none => []

/-- One release more: the occupancy just after it, its tick, and whether all so far lie within their limits. -/
def drainStep (s : State) (n : StreamId) (a : Nat × Nat × Bool) (k : Nat × Nat × Nat) : Nat × Nat × Bool :=
  let e := a.1 - lapDrain s n * (k.1 - a.2.1) + 256 * k.2.2
  (e, k.1, a.2.2 && decide (e ≤ drainLimit s n k.2.1))

/-- The occupancies just after the releases due before tick h lie within their limits. -/
def drained (s : State) (n : StreamId) (h : Nat) : Bool :=
  (((releasesToCome s n).filter fun k => decide (k.1 < h)).foldl (drainStep s n)
    (occupancyNow s n, s.lap.count, true)).2.2

/-- Tick H of the picture whose tick 0 this is: its stripe 0, coded in the next lap, is due then. -/
def switchTickOf (s : State) : Nat :=
  s.lap.count + 1 + (((activeStreams s).map (releaseLaps s)).min?.getD (if fastTiming s then 1 else 2))

/-- A stripe coded in this lap waits for its budget. -/
def budgetAwaited (s : State) : Bool :=
  allStreams.any fun n => match s.streams[n].coding with
    | some k => decide (k.codedAt = s.lap.count) && !k.budgetHere
    | none => false

/-- A complete drain: WARMING, and the incoming unit leaves self-refresh (R326, R327). -/
def enterWarming (s : State) (u : UnitId) : State :=
  handoverDram { s with relay := { s.relay with
    mode := .warming
    switchTick := some (switchTickOf s)
    warmAt := some (s.lap.count + 1) } } u

/-- The test at T + 8 of tick 0, after the tick's budget step; with no lap set every tick is a tick 0 (log entry 20). A picture
too many abandons the switch. -/
def drainCheck (s : State) : State :=
  match s.relay.mode, standbyOf s with
  | .draining, some u =>
    if (s.lap.period = 0 ∨ s.lap.inPicture = 0) ∧ budgetAwaited s = false then
      (if (activeStreams s).all fun n => drained s n (switchTickOf s) then enterWarming s u
       else if cfg s (key 0x2010 7) ≤ s.relay.drainPictures + 1 then drainTimeout s
       else { s with relay := { s.relay with drainPictures := s.relay.drainPictures + 1 } })
    else s
  | _, _ => s

/-! ## The budget step (R115, R124, R125) -/

/-- LAGGING: the queue's unsent bytes exceed the model, drained to this tick (R109, R124). -/
def noteLagging (s : State) (n : StreamId) : State :=
  putFlag s (kPacer n 0x12) 24 (s.streams[n].active && decide (modelNow s n < 256 * unsentBits s n))

/-- The lap-deadline task of the lead channel computes the QP and the budget of the stripe being coded; the
last budget of tick 0 is followed by the drain's test (13_relay.md R326). -/
def execBudgetStep (n : StreamId) (s : State) : Out :=
  match s.streams[n].coding with
  | some k =>
    if k.budgetHere then .next (endBudgetTask s n)
    else
      let t := noteLagging s n
      let t1 := takeGrant t n k (grantOf t n k)
      .next (endBudgetTask (if k.codedAt = s.lap.count then drainCheck t1 else t1) n)
  | none => .next s

/-! ## The operand deadline (02_lap.md R41) -/

/-- A budget that has not arrived at T + 64: the previous lap's (R41, R122). -/
def lateBudget (s : State) (n : StreamId) : State :=
  match s.streams[n].coding with
  | some k =>
    if k.budgetHere ∨ k.codedAt ≠ s.lap.count then s
    else takeGrant (setFlag s (key 0x2500 9) 8) n k (lateGrant s n k)
  | none => s

/-- Every job with its pixels fires; a window still missing is recorded (R41). -/
def fireAll (s : State) (c : Chan) : State :=
  forEach ((jobsOf s c).filter fun j => j.pixels) (fun x j =>
    fireJob (if j.window then x else setFlag x (key 0x2500 9) 9) c j) s

/-- The operand deadline T + 64 (R41): budgets of the previous lap stand in, and every stripe job of the lap fires. -/
def execOperandDeadline (s : State) : Out :=
  if s.lap.lastTick + 64 ≤ s.now ∧ 0 < s.lap.period then
    let t0 := forEach allStreams lateBudget s
    let t := if budgetAwaited s then drainCheck t0 else t0
    .next (forEach allChans fireAll (forEach allChans fireAll t))
  else .next s

end Sys2Proof.Machine
end

