-- ==== Sys2Proof/Machine/RelayTick.lean ====
section
/-! DEFINITION. The relay at a lap tick: a unit made active, readiness and its objects, stand-ins, planned switches, rails
removed (13_relay.md R308, R309, R313, R325 to R331; 16_power_ageing.md R381, R401). -/

namespace Sys2Proof.Machine

def kHealth (sub : Nat) : Nat := key 0x2011 sub

/-! ## A unit made active (R308) -/

/-- The home unit is made active at the first tick after its boot, unless the selectors hold (01_module.md R20); the other unit where the home unit has
reported a boot fault or is 2 s late. -/
def activateTick (s : State) : State :=
  match s.relay.active, (s.boot.get (homeUnit s)).mode with
  | none, .booted => if s.lap.voterHold = false ∧ (s.boot.get (homeUnit s)).bootedAt < s.lap.lastTick then activate s (homeUnit s) else s
  | none, _ => homeLateAct s
  | some _, _ => s

/-! ## Readiness (R309) -/

/-- A worn unit whose relay duty has ended (16_power_ageing.md R401). -/
def dutyEnded (s : State) (u : UnitId) : Bool := (s.planner.dies.get (dieOf u)).dutyEnded

/-- Ticks since the last complete baton. -/
def batonAge (s : State) (u : UnitId) : Nat :=
  match (s.baton.get u).last with
  | some _ => s.lap.count - (s.baton.get u).lastTick
  | none => 255

/-- At each tick the egress PCS of a unit that has booted is aligned to the common block counter, and its receive PCS follows the
lanes (01_module.md R13): the alignment of a unit is first complete at the tick after its boot (log entry 21, DESIGN CHOICE). -/
def alignPcs (s : State) : State :=
  let on := fun (u : UnitId) => decide ((s.boot.get u).mode = .booted)
  { s with ports := s.ports.map fun p => { p with
      pcs := ⟨{ locked := on .a && p.up, aligned := on .a }, { locked := on .b && p.up, aligned := on .b }⟩ } }

/-- On every enabled port the unit's transmit PCS is aligned (R309, condition 4). -/
def egressAligned (s : State) (u : UnitId) : Bool :=
  allPorts.all fun p => decide (cfg s (kPort p 1) ≠ 1) || ((s.ports.get p).pcs.get u).aligned

/-- Conditions 1 to 7 for the standby (R309). -/
def readiness (s : State) (u : UnitId) : List Bool :=
  let booted := decide ((s.boot.get u).mode = .booted)
  let test := s.selfTest.get u
  let built := s.standIns.get u
  [booted, test.passGood && !test.stepFailed, standbyLanesOk s u, egressAligned s u,
   decide ((s.baton.get u).last.isSome) && decide (1 ≤ batonAge s u ∧ batonAge s u ≤ 2), decide (s.dict.shadowA = s.dict.shadowB),
   decide (built.tick = s.lap.count) && !built.failed]

/-- A list of bits as a number, the first the lowest. -/
def bitsOf : List Bool → Nat
  | [] => 0
  | b :: t => (if b then 1 else 0) + 2 * bitsOf t

/-- Lanes not LOCKED in a unit (0x2011:05). -/
def unlockedLanes (s : State) (u : UnitId) : Nat :=
  ((allLanes.filter fun n => laneUsed s n && !countsLocked s.now (laneAt s u n)).map fun n => 2 ^ n.val).sum

/-- The relay's state follows readiness (Table 13-1); a home unit back from repair starts its hold-off (R331). -/
def settleRelay (s : State) (ready : Bool) : State :=
  let repairing := decide (s.relay.repair ≠ .none)
  let go := fun (m : RelayMode) => ({ s with relay := { s.relay with mode := m, holdOffAt := none } } : State)
  match s.relay.mode with
  | .exposed => if ready then startHoldOff (go .standbyReady) else if repairing then go .repairing else s
  | .repairing => if repairing then s else if ready then startHoldOff (go .standbyReady) else go .exposed
  | .standbyReady => if ready then s else go (if repairing then .repairing else .exposed)
  | .revertPending => if ready then s else go (if repairing then .repairing else .exposed)
  | _ => s

/-- The standby's readiness is evaluated and shown. -/
def readinessTick (s : State) : State :=
  match standbyOf s with
  | none => s
  | some u =>
    let r := readiness s u
    let ready := r.all id && unitPresent s u && !dutyEnded s u
    let t := regPut (regPut (regPut s (kHealth 1) (bitsOf r)) (kHealth 5) (unlockedLanes s u)) (kHealth 6) (min 255 (batonAge s u))
    settleRelay (putFlag t kRelayStatus 31 ready) ready

/-! ## Stand-ins (R313) -/

/-- Streams with a stripe due for release at the next tick. -/
def dueNext (s : State) : List StreamId :=
  allStreams.filter fun n => s.streams[n].flight.any fun k => !k.released && decide (k.due ≤ s.lap.count + 1)

/-- Lines as a stand-in reconstructs them: half scale in every sample. -/
def greyLines (s : State) (n : StreamId) (l : List ReconLine) : List ReconLine :=
  l.map fun e => { e with samples := e.samples.map fun _ => 2 ^ (streamDepth s n - 1) }

/-- Whether the unit has made the stripe above in the picture, as a stand-in or from pixels; the first stand-in has none (R323). -/
def upperOwn (s : State) (u : UnitId) (n : StreamId) (row : Nat) : Bool :=
  let x := s.streams[n]
  let mine := (x.recent ++ x.flight).filter fun k => decide (k.unit = u)
  mine.any fun k => decide (k.row = row) && mine.any fun j => decide (j.picture = k.picture ∧ j.row + 1 = row)

/-- The settled lines that the check of a stand-in covers: from the first stand-in's, lines y0 - 4 to y0 + 3 are left out (R323). -/
def standInLines (s : State) (c : StandInCheck) : Nat × Nat :=
  let z := settledLines s c.stream c.stripe
  if upperOwn s c.unit c.stream c.stripe then z else ((segmentLines s c.stream c.stripe).1 + 4, z.2)

/-- The check of a stand-in: the CRCs of what its verifying decoder reconstructed and of half scale agree (R313; 06_decoders.md R134). -/
def standInGood (s : State) (c : StandInCheck) : Bool :=
  let n := c.stream
  let crc := fun (z : Nat × Nat) (l : List ReconLine) => crc32c (regionBytes s n z l)
  let pre := segmentLines s n c.stripe
  decide (crc pre c.decoder.pre = crc pre (greyLines s n c.decoder.pre) ∧
    crc (standInLines s c) c.decoder.filtered = crc (standInLines s c) (greyLines s n c.decoder.filtered))

/-- A stand-in that fails its check counts; of the active unit it is a datapath fault (R309, R314). -/
def noteStandIn (s : State) (u : UnitId) : State :=
  let t := bump s (kHealth 8)
  if s.relay.active = some u then reportUnitFault t u 9 else t

/-- The checks of the stand-ins that stand for the next tick. -/
def checkStandIns (s : State) (l : List StandInCheck) : State :=
  forEach (l.filter fun c => !standInGood s c) (fun x c => noteStandIn x c.unit) s

/-- What the timing SEI of a stand-in takes from the baton: IRAP picture or not, pictures since the buffering period (Table 13-5). -/
def batonHead (b : BatonStream) (h : PictureHead) : PictureHead := { h with irap := b.flags % 2 = 1, sinceBp := b.picsSinceBp }

/-- The non-VCL units ahead of a stand-in's slices: those that the decoding unit would carry, with the baton's values where the stripe belongs to the
picture that was in progress when the baton was written (R313). -/
def standInLead (s : State) (u : UnitId) (n : StreamId) (k : Stripe) : List (List Nat) :=
  match (lastBaton (s.baton.get u)).bind fun b => b.streams[n.val]? with
  | some b => if b.poc = k.poc ∧ s.streams[n].pic.number = k.picture then leadUnits s n k.row (batonHead b (headOf s.streams[n].pic)) else k.lead
  | none => k.lead

/-- The stripe of a stream that is due at the next tick. -/
def nextDue (s : State) (n : StreamId) : Option Stripe :=
  s.streams[n].flight.find? fun k => !k.released && decide (k.due ≤ s.lap.count + 1)

/-- The standby's stand-in of a stream. -/
def buildOne (u : UnitId) (a : State × List (StreamId × Stripe)) (n : StreamId) : State × List (StreamId × Stripe) :=
  match nextDue a.1 n with
  | some k =>
    let r := standIn a.1 u n { k with lead := standInLead a.1 u n k }
    (r.1, a.2 ++ [(n, r.2)])
  | none => a

/-- A stand-in has passed its check. -/
def standInPassed (s : State) (u : UnitId) (l : List StandInCheck) (b : StreamId × Stripe) : Bool :=
  l.any fun c => decide (c.unit = u ∧ c.stream = b.1 ∧ c.stripe = b.2.row) && standInGood s c

/-- In every lap a running standby builds the stand-ins of the next tick, and its verifying decoder checks them (R313); the checks end before T - 64,
which the model does not time within the lap. -/
def buildStandIns (s : State) (l : List StandInCheck) : State :=
  let t := checkStandIns s l
  match standbyOf t with
  | none => t
  | some u =>
    if unitPresent t u then
      let r := (dueNext t).foldl (buildOne u) (t, [])
      { r.1 with standIns := r.1.standIns.set u { tick := t.lap.count + 1, built := r.2, failed := !r.2.all (standInPassed t u l) } }
    else t

/-! ## Planned switches (R325 to R327, R401) -/

/-- No decoding unit of a stream costs more at its floor than its drain limit (R326). -/
def canDrain (s : State) (n : StreamId) : Bool :=
  (List.range (ctbRows s n)).all fun r => decide (256 * floorCost s n r (headOf s.streams[n].pic) ≤ drainLimit s n r)

/-- A planned switch that waits begins, where the standby is ready. -/
def beginDrain (s : State) : State :=
  let t : State := { s with relay := { s.relay with planned := false } }
  match s.relay.mode with
  | .standbyReady =>
    if (activeStreams s).all (canDrain s) then { t with relay := { t.relay with mode := .draining, drainPictures := 0, holdOffAt := none } }
    else drainTimeout t
  | .revertPending =>
    if (activeStreams s).all (canDrain s) then { t with relay := { t.relay with mode := .draining, drainPictures := 0, holdOffAt := none } }
    else drainTimeout { t with relay := { t.relay with mode := .standbyReady, holdOffAt := none } }
  | _ => t

/-- A switch asked for, by command, by reversion or by a worn active unit whose standby is ready, begins at the tick. -/
def plannedTick (s : State) : State :=
  let worn := match s.relay.active with
    | some u => dutyEnded s u
    | none => false
  let idle := decide (s.relay.mode = .standbyReady ∨ s.relay.mode = .revertPending)
  if s.relay.planned || (worn && idle) then beginDrain s else s

/-- The picture in progress is the incoming unit's intra picture (R324, R327). -/
def warmPicture (s : State) (n : StreamId) : State :=
  if s.streams[n].pic.live then
    let r : Fin 3 := if intraOnly s n then 0 else 2
    putFlag (modStream s n fun x => { x with
      pacer := { x.pacer with rebuild := r }
      pic := { x.pic with intra := true, tmvp := false, hash := false } }) (kPacer n 0x12) 27 (decide (r ≠ 0))
  else s

/-- At tick 1 the incoming unit begins the picture in progress, on its own schedule and with its own Pacer (R327). -/
def beginWarming (s : State) (u : UnitId) : State :=
  let t : State := { s with
    relay := { s.relay with warmAt := none }
    disp := s.disp.mod u fun d => { d with jobs := .replicate 4 [], heldJobs := [] } }
  freshChannels (forEach (activeStreams t) (fun x n => warmPicture (takeStream x u n) n) t)

/-- The tick after the one whose drain was complete. -/
def warmTick (s : State) : State :=
  match s.relay.warmAt, standbyOf s with
  | some c, some u => if c = s.lap.count then beginWarming s u else s
  | _, _ => s

/-- A switch whose tick has passed without a hand-over is abandoned. -/
def missedSwitch (s : State) : State :=
  match s.relay.mode, s.relay.switchTick with
  | .warming, some t => if t ≤ s.lap.count then dropSwitch s else s
  | _, _ => s

/-- Outside WARMING every stripe not yet released is the active unit's. -/
def settleStripes (s : State) : State :=
  match s.relay.mode, s.relay.active with
  | .warming, _ => s
  | _, none => s
  | _, some u =>
    { s with streams := s.streams.map fun x => { x with
        coding := x.coding.map fun k => { k with unit := u }
        flight := x.flight.map fun k => if k.released then k else { k with unit := u } } }

/-! ## Rails (16_power_ageing.md R381) -/

/-- At the first tick after a second phase fault the rails of the unit that is not active are removed and the relay enters
FAILED. -/
def railTick (s : State) : State :=
  match s.stage.shortAt with
  | none => s
  | some t =>
    if t < s.lap.lastTick then
      let u := (viewUnit s).other
      let x := unitCold (dropSwitch s) u
      let y := raiseEmcy (setFlag (setFlag (clearFlag x kRelayStatus 31) kIntegrity 26) kStage 20) 0xFF04 kRelayStatus 0
      { y with
        relay := { y.relay with mode := .failed, dead := true, repair := .none, planned := false, holdOffAt := none, latched := none }
        boot := y.boot.mod u fun b => { b with mode := .railsOff }
        stage := { y.stage with shortAt := none, railsRemoved := some u } }
    else s

end Sys2Proof.Machine
end

