-- ==== Sys2Proof/Machine/Lap.lean ====
section
/-! DEFINITION. The lap tick: Table 2-2 in order (02_lap.md R33, R34, R43, R52; 03_streams.md R60; 04_prediction.md R88; 13_relay.md
R320). -/

namespace Sys2Proof.Machine

/-! ## Applied writes (T + 5) -/

/-- Objects that change at this tick, with their values before. -/
def changedKeys (s : State) : List (Nat × Nat) :=
  (s.dict.counted.filter fun c => decide (c.cycle + 64 ≤ s.lap.lastTick) && (!c.perPicture || atStart s)).map fun c =>
    (c.key, applied s c.key)

/-- A change of 0x3400:1A or 1B alters the stream's PPS. -/
def ppsChanged (s : State) (keys : List (Nat × Nat)) (n : StreamId) : Bool :=
  keys.any fun k => decide ((k.1 = kStream n 0x1A ∨ k.1 = kStream n 0x1B) ∧ k.2 ≠ applied s k.1)

def notePps (s : State) (keys : List (Nat × Nat)) : State :=
  forEach ((activeStreams s).filter (ppsChanged s keys)) (fun x n => modStream x n fun y => { y with ppsPending := true }) s

/-- A slot whose binding is applied is emptied in both units (14_integrity.md R351). -/
def emptyRebound (s : State) (keys : List Nat) : State :=
  let hit := fun (i : Nat) => keys.any fun k => decide (k / 256 = 0x5000 + i) && decide (1 ≤ k % 256 ∧ k % 256 ≤ 4)
  let clean := fun (v : Vector Slot 32) => v.mapFinIdx fun i r _ => if hit i then slotEmpty else r
  { s with slots := ⟨clean s.slots.a, clean s.slots.b⟩ }

/-- The shadow generation, flows and ports; at tick 0 the pictures, maps and rectangles. -/
def shadowTick (s : State) : State :=
  let keys := changedKeys s
  let t := notePps (shadowApply s s.lap.lastTick (atStart s)) keys
  let t1 := applyFlows (emptyRebound t (keys.map Prod.fst)) (keys.map Prod.fst)
  if atStart t1 then
    let t2 := openRects (openPictures t1) keys
    let coded := (activeStreams t2).any fun n => t2.streams[n].pic.live
    if t2.watch.firstPicture ∧ t2.watch.openedAt.isNone ∧ coded then
      { t2 with watch := { t2.watch with openedAt := some t2.lap.count } }
    else t2
  else t1

/-! ## Releases (T + 6) -/

/-- The picture in progress has its first decoding unit released. -/
def noteOpened (x : Stream) : Stream :=
  if x.flight.any fun k => k.released && decide (k.picture = x.pic.number) then { x with pic := { x.pic with opened := true } } else x

/-- Slices go before their tokens in release-then-vouch, tokens before their slices in vouch-then-release (06_decoders.md R139). -/
def releaseTick (s : State) : State :=
  let t := releaseDue s false
  let t0 := releaseDue (vouchDue t) true
  let t1 : State := { t0 with streams := t0.streams.map noteOpened }
  forEach allStreams (fun x n => noteLagging (retireStripes x n) n) t1

/-! ## The stripes of the lap -/

/-- The unit that codes: in WARMING the incoming one (13_relay.md R327). -/
def codingUnit (s : State) : Option UnitId := if s.relay.mode = .warming then standbyOf s else s.relay.active

/-- A row of a proxy whose first stripe the line store of the new unit did not hold (13_relay.md R320). -/
def rowMissing (s : State) (n : StreamId) (r k : Nat) : Bool :=
  let first := firstStripe s n + r * rowStripes s n
  let last := regGet s (key 0x2010 0x0B)
  isProxy s n && decide (regGet s (key 0x2010 9) ≠ 0) && !last.testBit 31 &&
    decide (s.lap.count < regGet s (key 0x2010 0x0A) + (k - first))

/-- Such a row is released as a stand-in. -/
def postStandIn (s : State) (n : StreamId) (pic : PictureState) (r k : Nat) (u : UnitId) : State :=
  let c := newCoding s n pic r k u
  let x := standIn s u n (plainStripe s n c)
  let t0 := modStream (noteHanded x.1 n x.2) n fun y => { y with flight := y.flight ++ [x.2] }
  let t := if x.2.last then countPicture t0 n u pic.number else t0
  let count := fieldOf (regGet t (key 0x2010 0x0B)) 23 8
  putField (reserveIn t n (x.2.bits / 8) 0) (key 0x2010 0x0B) 23 8 (min 0xFFFF (count + 1))

/-- Stripe k of a picture, complete at this tick, is coded in the lap that begins. -/
def postStripe (s : State) (k : Nat) (n : StreamId) (pic : PictureState) : State :=
  match rowAt s n k, codingUnit s with
  | some r, some u =>
    if s.streams[n].active ∧ pic.live then (if rowMissing s n r k then postStandIn s n pic r k u else postPixels s n pic r k u) else s
  | _, _ => s

/-- Every stream's stripe; `pics` are the pictures that the stripe belongs to. -/
def postStripes (s : State) (k : Nat) (pics : List (StreamId × PictureState)) : State :=
  forEach pics (fun x p => postStripe x k p.1 p.2) s

/-- Whether lap j fetches a row of a stream's window. -/
def fetchesIn (s : State) (n : StreamId) (j : Nat) : Bool :=
  s.streams[n].search.hasWindow && s.streams[n].active && s.streams[n].pic.live &&
    (List.range (ctbRows s n)).any fun r => (fetchLaps s n s.streams[n].search.reachV r).any fun x => decide (x % lapsOf s = j)

/-- The rows that lap j completes, with the picture they serve: of the current one, or in its last laps of the next (04_prediction.md R88); a proxy row
is complete with the last of its m laps. -/
def rowsIn (s : State) (n : StreamId) (j : Nat) : List WinRow :=
  let x := s.streams[n]
  (List.range (ctbRows s n)).flatMap fun r =>
    match (fetchLaps s n x.search.reachV r).getLast? with
    | some l => if l % lapsOf s = j then
        (List.range (refCount s n)).map fun f =>
          { picture := if l < lapsOf s then x.pic.number + 1 else x.pic.number, ref := f, row := r } else []
    | none => []

/-- Rows still outstanding at a tick are late; the verifying decoder's rows of the lap before have come, and it now fetches those of the lap that
ended (04_prediction.md R88, R91). -/
def closeRows (s : State) (n : StreamId) (x : SearchState) : SearchState :=
  { x with
    late := Vector.ofFn fun c => x.late.get c || x.due.get c
    owed := Vector.ofFn fun c => if x.due.get c then x.owed.get c ++ x.asked.get c else x.owed.get c
    verRing := Vector.ofFn fun c => ringAdd x (x.verRing.get c) (fetchedRows s n c (x.verAsked.get c)) }

/-- The lap's row of every reference is requested on the channels of the gang. -/
def requestRows (s : State) (n : StreamId) : State :=
  let want := decide (0 < s.lap.period) && fetchesIn s n s.lap.inPicture
  let rows := if want then rowsIn s n s.lap.inPicture else []
  let cs := streamChans s n
  modStream s n fun x =>
    let v := x.search
    { x with search := { v with
        due := Vector.ofFn fun c => want && cs.contains c
        asked := Vector.ofFn fun c => if cs.contains c then rows else []
        verAsked := v.wanted
        wanted := Vector.ofFn fun c => if cs.contains c then rows else []
        spoiled := .replicate 4 false } }

/-! ## Ladder and coders (R43, 03_streams.md R85) -/

/-- One step down after a lap with slack of C / 8; measured costs move on a lap. -/
def ladderStep (s : State) (c : Chan) : State :=
  let x := s.chans.get c
  let down := chanRunning x && lapsSet s && decide (capacity s ≤ 8 * x.slack)
  let t := modChan s c fun y => { y with
    level := if down then finOf 5 (by decide) (y.level.val - 1) else y.level
    costs := (Vector.ofFn fun (k : Fin 5) => if k.val = 0 then Vector.replicate 5 0 else y.costs.get (finOf 5 (by decide) (k.val - 1))) }
  putField t (kLap 0x0A) (4 * c.val + 3) (4 * c.val) (t.chans.get c).level.val

/-- 0x3000:05 shows the CABAC coders used in the lap that ended, or in the last one that coded. -/
def showCoders (s : State) (c : Chan) : State :=
  let v := (s.chans.get c).coders
  if v = 0 then s else modChan (regPut s (kChan c 0x3000 5) v) c fun x => { x with coders := 0 }

/-! ## The end of the tick -/

/-- A verification enable that an ended unlock left at 0 returns to 1 (06_decoders.md R138). -/
def restoreVerify (s : State) : State :=
  if s.ctrl.lockUnit then
    let t := forEach allChans (fun x c => modChan (commitValue x (kChan c 0x3002 8) 1 (unitPresent x .a) (unitPresent x .b)) c fun y =>
      { y with verifyOn := true }) s
    { t with ctrl := { t.ctrl with lockUnit := false } }
  else s

/-- Register bits held until the next tick are freed (17_dictionary.md R422), and the release report of the last tick is used up. -/
def endTick (s : State) : State :=
  let t := settleRegister { s with emcy := { s.emcy with untilTick := [] } }
  { t with baton := ⟨{ t.baton.a with report := none }, { t.baton.b with report := none }⟩ }

/-! ## The tick -/

/-- The time core runs and the tick is due. -/
def tickDue (s : State) : Bool :=
  decide (s.rst.asserted &&& 0x0F = 0 ∧ (s.rst.step.val = 0 ∨ s.rst.step.val = 6) ∧ s.lap.nextTick ≤ s.now) && s.rst.limitChecked

/-- The receivers' eye openings measured since the last tick, in 1/128 UI (07_sensor_lanes.md R162). -/
def noteEyes (s : State) (l : List (UnitId × LaneId × Nat)) : State :=
  forEach l (fun x e => setLane x e.1 e.2.1 { laneAt x e.1 e.2.1 with eye := min 128 e.2.2 }) s

/-- A half of an FEC count adds n and saturates (08_network.md Table 8-9). -/
def bumpFec (s : State) (p : PortId) (f : FecCount) : State :=
  let w := regGet s (kPort p 0x10)
  let high := w / 2 ^ 32
  let low := w % 2 ^ 32
  let t0 := regPut s (kPort p 0x10) (min 0xFFFFFFFF (high + f.corrected) * 2 ^ 32 + min 0xFFFFFFFF (low + f.uncorrected))
  let t1 := if high < 0xFFFFFFFF ∧ 0xFFFFFFFF ≤ high + f.corrected then overflowEnter t0 (kPort p 0x10) 2 else t0
  let t := if low < 0xFFFFFFFF ∧ 0xFFFFFFFF ≤ low + f.uncorrected then overflowEnter t1 (kPort p 0x10) 1 else t1
  if f.highSer then setFlag t (kPort p 0x0B) 28 else t

/-- The module controller adds the FEC counts of the ports with RS-FEC (08_network.md R201). -/
def addFec (s : State) (l : List (PortId × FecCount)) : State :=
  forEach (l.filter fun x => fecOn s x.1) (fun x e => bumpFec x e.1 e.2) s

/-- T to T + 4: the counters, the voter, a hand-over, the hurdle check, samples of the lap that ended in the unit that was active, lanes. -/
def tickBegin (s : State) (i : TickInput) : State :=
  let t := voterCheck (advanceLap (addUnitCounts (addFec (noteEyes s i.eyes) i.fec))) i.voter
  let switched := t.relay.latched.isSome && t.relay.active.isSome && !t.lap.voterHold
  let t1 := handOver (if switched then tickSamples t i (codingLate t) else t)
  let late := codingLate t1
  let t2 := hurdleCheck t1 i
  compareLanes (if switched then t2 else tickSamples t2 i late)

/-- At T + 6 the active unit's delay list is stepped, the flags of expired timers are set, then flag 0 (Table 2-2; the standby performs neither,
R34). -/
def flagTick (s : State) : State :=
  match s.relay.active with
  | some u =>
    let t : State := { s with disp := s.disp.mod u stepTimers }
    setTickFlags (expireTimers u (t.disp.get u).timers.length t) u
  | none => s

/-- At T + 8 the budget-step tasks of the channels that lead a stripe's stream become ready in the lap-deadline class (Table 2-2). -/
def readyPacers (s : State) : State :=
  match codingUnit s with
  | some u =>
    forEach (allChans.filter (awaitsBudget s)) (fun x c => setTaskFlag x u c.val 2) s
  | none => s

/-- T + 5 to T + 8: shadows, the baton, timers and flags, the relay's planned switch, releases. -/
def tickMiddle (s : State) : State :=
  releaseTick (settleStripes (missedSwitch (warmTick (plannedTick (flagTick (writeBaton (shadowTick s)))))))

/-- The rest of the tick: windows, the stripe of the lap, the drain's test where no budget is awaited, ladder, re-centring, the standby, rails. -/
def tickEnd (s : State) (checks : List StandInCheck) (stripe : Option Nat) (old : List (StreamId × PictureState)) : State :=
  let t := windowTick s stripe
  let pics := if atStart t then old else allStreams.map fun n => (n, t.streams[n].pic)
  let t0 := forEach allStreams (fun x n => modStream x n fun y => { y with search := closeRows x n y.search }) t
  let t1 := match stripe with
    | some k => postStripes t0 k pics
    | none => t0
  let t2 := forEach allChans ladderStep (forEach allStreams requestRows (drainCheck (readyPacers t1)))
  let t3 := forEach allChans showCoders t2
  endTick (restoreVerify (activateTick (railTick (buildStandIns (readinessTick (alignPcs (recentreTick t3))) checks))))

/-- The stripe whose window closes at the tick after this state's last one: the lap's number within its picture. -/
def closingStripe (s : State) : Option Nat := if 0 < s.lap.period then some s.lap.inPicture else none

/-- The whole tick; the phase of a picture is measured, and the drop rules act, before the next picture opens. -/
def lapTick (s : State) (i : TickInput) : State :=
  let t := phaseTick (tickBegin s i) s.lap.lastTick s.lap.period
  let old := allStreams.map fun n => (n, t.streams[n].pic)
  tickEnd (tickMiddle t) i.standIns (closingStripe s) old

/-- The time core issues a lap tick (R34); a tick that is not due is none. -/
def execLapTick (i : TickInput) (s : State) : Out := if tickDue s then .next (lapTick s i) else .next s

end Sys2Proof.Machine
end

