-- ==== Sys2Proof/Machine/Flags.lean ====
section
/-! DEFINITION. What an object reads that the machine keeps in another part of State: flags, state codes and figures computed at the
read (the object tables of every chapter). An object not named here reads its register or its written value. -/

namespace Sys2Proof.Machine

def boolBit (b : Bool) (n : Nat) : Nat := if b then 2 ^ n else 0

/-- A word with one bit replaced. -/
def withBit (w n : Nat) (b : Bool) : Nat := insertField w n n (if b then 1 else 0)

/-! ## State codes -/

/-- 13_relay.md Table 13-1. -/
def relayCode : RelayMode → Nat
  | .starting => 0
  | .standbyReady => 1
  | .exposed => 2
  | .repairing => 3
  | .revertPending => 4
  | .draining => 5
  | .warming => 6
  | .lockedOut => 7
  | .failed => 8

/-- 10_time.md Table 10-4. -/
def servoCode : Servo → Nat
  | .freeRun => 0
  | .acquiring => 1
  | .locked => 2
  | .holdover => 3

/-- 07_sensor_lanes.md Table 7-3. -/
def laneCode : LaneMode → Nat
  | .down => 0
  | .hunt => 1
  | .locked => 2
  | .idle => 3
  | .wake => 4
  | .disabled => 5

/-- 0x2800:11. -/
def refreshCode : SelfRefresh → Nat
  | .active => 0
  | .entering => 1
  | .inside => 2
  | .exiting => 3

/-- 0x2002:04. -/
def nmtCode : NmtMode → Nat
  | .initialisation => 0
  | .stopped => 4
  | .operational => 5
  | .preOperational => 127

/-- 0x5F01:07 [31:28]. -/
def winCode : WinMode → Nat
  | .closed => 0
  | .openWrite => 1
  | .openRead => 2
  | .committing => 3
  | .committed => 4
  | .failed => 5

/-- 0x5F00:04. -/
def updateCode : UpdateMode → Nat
  | .idle => 0
  | .erasing => 1
  | .ready => 2
  | .verifying => 3
  | .staged => 4
  | .failed => 5

/-! ## Words -/

/-- Table 7-11. -/
def laneWord (x : Lane) : Nat :=
  laneCode x.mode * 2 ^ 29 + boolBit x.los 28 + boolBit x.lol 27 + x.slowExits % 256 * 2 ^ 16 + x.lockLosses % 256 * 2 ^ 8 +
    x.eye % 256

/-- 0x2310:07: 0 disabled, 1 down, 2 up. -/
def linkState (s : State) (l : LinkId) : Nat :=
  if ¬ linkOn s l then 0 else if ((s.links.get (viewUnit s)).get l).up then 2 else 1

/-- PRODUCER of Table 9-6. -/
def producerOf (s : State) (f : FlowId) : Nat :=
  if 252 ≤ f.val then 5
  else if 248 ≤ f.val then 4
  else if s.flows[f].carries.isSome then 1
  else if allStreams.any fun n => s.streams[n].active && decide (integrityFlow s n = some f) then 2
  else if s.capture.readouts.toList.any fun x => x.running && decide (x.flow = f) then 3
  else 0

/-- A context as 0x2881 shows it. -/
def contextWord (c : AtuContext) : Nat := boolBit c.enabled 63 + c.first % 2 ^ 13 * 2 ^ 16 + c.entries.length % 2 ^ 14

/-- Table 14-9. -/
def recordWord (r : LogRecord) : Nat :=
  r.tb0 % 2 ^ 112 * 2 ^ 144 + r.tb3 % 2 ^ 64 * 2 ^ 80 + r.code % 2 ^ 16 * 2 ^ 64 + r.source % 2 ^ 8 * 2 ^ 56 + r.level % 4 * 2 ^ 54 +
    r.unit % 2 * 2 ^ 53 + boolBit r.stampFw 52 + r.rep % 2 ^ 16 * 2 ^ 36 + r.detail % 2 ^ 32

/-- The session that 0x5082:03 selects (14_integrity.md R353). -/
def logSession (s : State) : List LogRecord := if cfg s (key 0x5082 3) = 1 then s.log.previous else s.log.records

/-- Table 14-12. -/
def slotStatus (r : Slot) : Nat :=
  boolBit r.underSeen 31 + boolBit r.overSeen 30 + boolBit r.binOverflow 29 + boolBit r.absent 28

/-- The snapshot of a slot (R351). -/
def snapOf (s : State) (m : SlotId) : Slot := (s.snaps.get m).getD slotEmpty

/-- 0x5040 + s, sub j + 1: bins 4j to 4j + 3, bin 4j in [31:0]. -/
def binsWord (r : Slot) (j : Nat) : Nat :=
  let b := fun (k : Nat) => r.bins.get (finOf 64 (by decide) (4 * j + k))
  b 0 + b 1 * 2 ^ 32 + b 2 * 2 ^ 64 + b 3 * 2 ^ 96

/-- 0x5F00:01 and 02: a package that passes the tests of 15_reset.md R371 is VALID. -/
def regionWord (r : Region) : Nat := boolBit (imageGood r) 31 + regionVersion r % 2 ^ 31

/-- 0x5F01:07. -/
def windowWord (w : Window) : Nat := winCode w.mode * 2 ^ 28 + w.reason % 16 * 2 ^ 24

/-- 0x5F08:04: seconds left of the unlock (17_dictionary.md R420). -/
def unlockLeft (s : State) : Nat :=
  match s.maint.owner with
  | some _ => ceilDiv (s.maint.lastWrite + 600 * cyclesPerSec - s.now) cyclesPerSec
  | none => 0

/-- 0x2003:0B: slot 0 is always in use. -/
def slotsInUse (s : State) : Nat :=
  1 + ((List.range 8).map fun i => boolBit (s.clients.get (finOf 9 (by decide) (i + 1))).source.isSome (i + 1)).sum

/-- 0x2010:06: seconds left of the hold-off. -/
def holdOffLeft (s : State) : Nat :=
  match s.relay.holdOffAt with
  | some t => ceilDiv (t - s.now) cyclesPerSec
  | none => 0

/-- 0x2011:03. -/
def selfTestAge (s : State) : Nat :=
  match standbyOf s with
  | some u => min 0xFFFFFFFF ((s.now - (s.selfTest.get u).lastPass) / cyclesPerSec)
  | none => 0

/-- TB1's time of day as a time value: TB0 with its seconds less currentUtcOffset plus the local offset (10_time.md R248). -/
def tb1Time (s : State) : Nat :=
  let t := tb0Value s
  let secs := (t / 2 ^ 48 : Nat) - s.time.utcOffset + cfgSigned s (key 0x2201 7)
  (secs % 2 ^ 64).toNat * 2 ^ 48 + t % 2 ^ 48

/-- TB3 as a time value. -/
def tb3Time (s : State) : Nat :=
  let ns := tb3Ns s
  ns / 1000000000 * 2 ^ 48 + ns % 1000000000 * 2 ^ 16

/-- 0x2202: the latencies of the unit in view, by the port's FEC setting (10_time.md R255). -/
def latencyOf (s : State) (p : PortId) (tx : Bool) : Nat :=
  let fec := decide (cfg s (kPort p 2) = 1)
  if tx then (Config.txLatency (viewUnit s) p fec).toNat else (Config.rxLatency (viewUnit s) p fec).toNat

/-! ## Status words: the fields that follow the state, over the stored ones -/

def liveStatus (s : State) (i sub : Nat) (w : Nat) : Nat :=
  if i = 0x2100 ∧ sub = 2 then
    insertField (withBit w 31 (decide (s.rst.pendingClock ≠ 0 ∨ s.rst.heldForever))) 15 8 s.rst.asserted.toNat
  else if i = 0x2200 ∧ sub = 6 then
    withBit (withBit (withBit w 30 s.time.genLocked) 28 s.time.tb1Limited) 27 s.time.stepPending
  else if i = 0x2300 ∧ sub = 8 then insertField w 15 0 (linksDown s)
  else if i = 0x2500 ∧ sub = 14 then withBit w 30 s.dict.group.isSome
  else if i = 0x2800 ∧ sub = 16 then
    let d := s.dram.get (viewUnit s)
    withBit (withBit w 25 (decide (1 < refreshMultiplier s (viewUnit s)))) 24 (decide (d.refresh = .inside))
  else if i = 0x4800 ∧ sub = 10 then
    let r := s.ret
    insertField (withBit (withBit (withBit w 31 (r.enabled && !r.waitIrap && r.begun)) 30 (r.enabled && r.waitIrap))
      29 (r.enabled && r.secondPath)) 26 24 r.lastClass
  else if i = 0x5080 ∧ sub = 1 then withBit w 23 (!s.overflow.isEmpty)
  else if 0x2410 ≤ i ∧ i < 0x2414 ∧ sub = 11 then
    let p := s.ports.get (finOf 4 (by decide) (i - 0x2410))
    insertField (withBit (withBit w 31 p.up) 30 p.fecLocked) 19 0 p.lanes.toNat
  else if 0x4000 ≤ i ∧ i < 0x4100 ∧ sub = 10 then
    let f : FlowId := finOf 256 (by decide) (i - 0x4000)
    withBit (withBit (insertField w 27 25 (producerOf s f)) 24 s.flows[f].draining) 23 s.flows[f].refusing
  else if 0x3000 ≤ i ∧ i < 0x3400 ∧ i % 256 = 2 ∧ sub = 10 then
    withBit w 31 (!(s.chans.get (finOf 4 (by decide) ((i - 0x3000) / 256))).verifyOn)
  else w

/-! ## Read-only figures, by chapter -/

/-- Identity, CAN FD, clients, error list (17_dictionary.md Tables 17-6, 17-7). -/
def liveProfile (s : State) (i sub : Nat) : Option Nat :=
  match i, sub with
  | 0x1001, _ => some (errorRegister s)
  | 0x1003, 0 => some s.emcy.errors.length
  | 0x1003, j => some (s.emcy.errors.getD (j - 1) 0)
  | 0x1010, 1 => some 1
  | 0x1011, 1 => some 1
  | 0x1014, _ => some (if s.can.cobWritten then cfg s (key 0x1014 0) else 0x80 + s.can.nodeId)
  | 0x1018, 4 => some (Config.serialNumber.toNat % 2 ^ 32)
  | 0x2000, 3 => some Config.dateCode.toNat
  | 0x2000, 4 => some Config.serialNumber.toNat
  | 0x2000, 5 => some (Config.dieIdentity 0).toNat
  | 0x2000, 6 => some (Config.dieIdentity 1).toNat
  | 0x2000, 7 => some (Config.dieIdentity 2).toNat
  | 0x2002, 4 => some (nmtCode s.can.nmt)
  | 0x2003, 0x0B => some (slotsInUse s)
  | _, _ => none

/-- Relay, reset, time (Tables 13-9, 13-11, 15-8, 10-7, 10-9). -/
def liveBase (s : State) (i sub : Nat) : Option Nat :=
  match i, sub with
  | 0x2010, 1 => some (relayCode s.relay.mode)
  | 0x2010, 6 => some (holdOffLeft s)
  | 0x2011, 3 => some (selfTestAge s)
  | 0x2101, 1 => some s.rst.blocks.toNat
  | 0x2101, 2 => some s.rst.pendingClock.toNat
  | 0x2200, 1 => some (tb0Value s)
  | 0x2200, 2 => some (tb1Time s)
  | 0x2200, 3 => some (timeValue s.lap.captureTb0)
  | 0x2200, 4 => some (tb3Time s)
  | 0x2200, 5 => some (servoCode s.time.servo)
  | 0x2200, 0x0A => some (match s.time.selected with | some p => p.val | none => 0xFF)
  | 0x2200, 0x0B => some s.time.grandmaster
  | 0x2200, 0x0D => some (s.time.utcOffset % 65536).toNat
  | 0x2202, j => if 1 ≤ j ∧ j ≤ 4 then some (latencyOf s (finOf 4 (by decide) (j - 1)) false)
      else if 5 ≤ j ∧ j ≤ 8 then some (latencyOf s (finOf 4 (by decide) (j - 5)) true) else none
  | _, _ => none

/-- Input, bridge, ports, lap (Tables 7-10, 7-11, 8-7, 8-9, 2-7). -/
def liveUnit (s : State) (i sub : Nat) : Option Nat :=
  let u := viewUnit s
  if 0x2310 ≤ i ∧ i < 0x2320 ∧ sub = 7 then some (linkState s (finOf 16 (by decide) (i - 0x2310)))
  else if 0x2310 ≤ i ∧ i < 0x2320 ∧ sub = 13 then some (min 255 ((s.links.get u).get (finOf 16 (by decide) (i - 0x2310))).skew)
  else if i = 0x2330 ∧ 0 < sub then some (laneWord ((s.lanes.get u).get (finOf 64 (by decide) (sub - 1))))
  else if i = 0x2331 ∧ 0 < sub then some (laneWord ((s.lanes.get u.other).get (finOf 64 (by decide) (sub - 1))))
  else if i = 0x2400 ∧ sub = 3 then some (s.bridge.get u).learned.length
  else if 0x2410 ≤ i ∧ i < 0x2414 ∧ sub = 5 then some (s.flash.limit.macs.get (finOf 4 (by decide) (i - 0x2410)))
  else if 0x2410 ≤ i ∧ i < 0x2414 ∧ sub = 25 then some (s.flash.limit.ceilRate.get (finOf 4 (by decide) (i - 0x2410)))
  else if 0x2410 ≤ i ∧ i < 0x2414 ∧ sub = 26 then some (s.flash.limit.ceilDepth.get (finOf 4 (by decide) (i - 0x2410)))
  else if 0x2410 ≤ i ∧ i < 0x2414 ∧ sub = 27 then some (s.flash.limit.frameLimit.get (finOf 4 (by decide) (i - 0x2410)))
  else if i = 0x2500 ∧ sub = 6 then some s.lap.count
  else if i = 0x2500 ∧ sub = 7 then some s.lap.inPicture
  else if i = 0x2500 ∧ sub = 12 then some s.lap.generation
  else if i = 0x2500 ∧ sub = 13 then some (countedGeneration s)
  else none

/-- DRAM, ATU, capture, DMA, flows (Tables 11-6, 12-7, 12-9, 12-11, 9-5, 9-7). -/
def liveMemory (s : State) (i sub : Nat) : Option Nat :=
  let u := viewUnit s
  if i = 0x2800 ∧ sub = 5 then some (s.planner.dies.get (dieOf u)).floor
  else if i = 0x2800 ∧ sub = 17 then some (refreshCode (s.dram.get u).refresh)
  else if i = 0x2800 ∧ sub = 21 then some (bitsOf ((s.dram.get u).chan.toList.map fun c => c.trained))
  else if i = 0x2881 ∧ 0 < sub then some (contextWord ((s.atu.get u).get (finOf 64 (by decide) (sub - 1))))
  else if i = 0x2900 ∧ sub = 7 then some (captureCode s.capture.mode)
  else if 0x2910 ≤ i ∧ i < 0x2920 ∧ sub = 1 then some ((dmaAt s u (finOf 16 (by decide) (i - 0x2910))).status.toNat % 2 ^ 128)
  else if 0x2910 ≤ i ∧ i < 0x2920 ∧ sub = 2 then some ((dmaAt s u (finOf 16 (by decide) (i - 0x2910))).status.toNat / 2 ^ 128)
  else if 0x4000 ≤ i ∧ i < 0x4100 ∧ sub = 13 then some (s.flows.get (finOf 256 (by decide) (i - 0x4000))).highDepth
  else if 0x4000 ≤ i ∧ i < 0x4100 ∧ sub = 14 then some (s.flows.get (finOf 256 (by decide) (i - 0x4000))).highDelay
  else if 0x4000 ≤ i ∧ i < 0x4100 ∧ sub = 31 then
    let f : FlowId := finOf 256 (by decide) (i - 0x4000)
    some (withBit (withBit (regGet s (key i 31)) 31 (addressPending s f)) 30 (secondPathDown s f))
  else if 0x4200 ≤ i ∧ i < 0x4204 ∧ sub = 5 then some (portRate s (finOf 4 (by decide) (i - 0x4200)))
  else none

/-- Monitor slots, overflow list, event log, planner, maintenance (Tables 14-10, 14-11, 16-9, 17-8). -/
def liveService (s : State) (i sub : Nat) : Option Nat :=
  if 0x5000 ≤ i ∧ i < 0x5020 then
    let r := snapOf s (finOf 32 (by decide) (i - 0x5000))
    match sub with
    | 7 => some r.min
    | 8 => some r.max
    | 9 => some r.count
    | 10 => some (slotStatus r)
    | _ => none
  else if 0x5040 ≤ i ∧ i < 0x5060 ∧ 0 < sub then some (binsWord (snapOf s (finOf 32 (by decide) (i - 0x5040))) (sub - 1))
  else if i = 0x5081 then some (if sub = 0 then s.overflow.length else s.overflow.getD (sub - 1) 0)
  else if i = 0x5082 ∧ sub = 1 then some (logSession s).length
  else if i = 0x5082 ∧ sub = 5 then some (((logSession s)[cfg s (key 0x5082 4)]?.map recordWord).getD 0 % 2 ^ 128)
  else if i = 0x5082 ∧ sub = 6 then some (((logSession s)[cfg s (key 0x5082 4)]?.map recordWord).getD 0 / 2 ^ 128)
  else if i = 0x5C10 ∧ sub = 6 then some (min 0xFFFFFFFF s.planner.hours)
  else if 0x5C11 ≤ i ∧ i < 0x5C14 ∧ sub = 2 then some (s.planner.dies.get (finOf 3 (by decide) (i - 0x5C11))).inUse
  else if 0x5C11 ≤ i ∧ i < 0x5C14 ∧ sub = 7 then some (Config.sensitivity (finOf 3 (by decide) (i - 0x5C11))).toNat
  else if i = 0x5F00 then
    match sub with
    | 1 => some (regionWord (s.flash.regions.get 0))
    | 2 => some (regionWord (s.flash.regions.get 1))
    | 3 => some s.firmware.region.val
    | 4 => some (updateCode s.firmware.mode)
    | 5 => some s.firmware.reason
    | _ => none
  else if 0x5F01 ≤ i ∧ i < 0x5F05 then
    let w := s.windows.get (finOf 4 (by decide) (i - 0x5F01))
    match sub with
    | 5 => some w.pos
    | 7 => some (windowWord w)
    | 8 => some (match w.owner with | some k => k.val | none => 0xFF)
    | _ => none
  else if i = 0x5F08 ∧ sub = 3 then some (if s.maint.owner.isSome then 1 else 0)
  else if i = 0x5F08 ∧ sub = 4 then some (unlockLeft s)
  else none

/-- The figure an object takes from another part of State, if it is one of these. -/
def liveValue (s : State) (i sub : Nat) : Option Nat :=
  (liveProfile s i sub).orElse fun _ => (liveBase s i sub).orElse fun _ => (liveUnit s i sub).orElse fun _ =>
    (liveMemory s i sub).orElse fun _ => liveService s i sub

/-- The number an object reads: a live figure, a status word, a register, or the master copy of what was written (R404). -/
def readNumber (s : State) (i sub : Nat) (r : ObjRow) : Nat :=
  match liveValue s i sub with
  | some v => v
  | none =>
    if r.clear ≠ 0 then liveStatus s i sub (regGet s (key i sub))
    else match r.acc with
      | .ro => regGet s (key i sub)
      | _ => written s (key i sub)

/-- The characters a string object reads (Tables 17-6, 17-7): the software version is the controller's package version. -/
def readString (s : State) (i sub : Nat) : List Byte :=
  match i, sub with
  | 0x1008, _ => ascii "MBS2564"
  | 0x1009, _ => ascii "B1"
  | 0x100A, _ => number (regGet s (key 0x2100 7) % 2 ^ 31)
  | 0x2000, 1 => ascii (if Config.wideRange then "MBS2564-X" else "MBS2564-C")
  | _, _ => ascii "B1"

end Sys2Proof.Machine
end

