-- ==== Sys2Proof/Machine/Clients.lean ====
section
/-! DEFINITION. The datagram form of the dictionary's answers (17_dictionary.md R410 to R414, Table 17-3), and writes that are
acknowledged later than they arrive (R405). -/

namespace Sys2Proof.Machine

/-! ## Datagrams -/

/-- Bytes 0 to 31 + LENGTH of a datagram (Table 17-3). -/
def datagramBytes (d : Datagram) : List Byte :=
  leBytes 2 d.protocol ++ leBytes 1 d.version ++ leBytes 1 d.opcode ++ leBytes 4 d.sequence ++ leBytes 2 d.index ++
  leBytes 1 d.sub ++ leBytes 1 d.flags ++ leBytes 4 d.offset ++ leBytes 2 d.payload.length ++ leBytes 2 0 ++ leBytes 4 d.abort ++
  leBytes 8 d.stamp ++ d.payload

/-- The CRC-32C that ends a datagram. -/
def datagramCrc (d : Datagram) : BitVec 32 := crc32c (datagramBytes d)

/-- Frame bytes of a datagram with LENGTH bytes of payload: 36 of its own, 46 of UDP, IPv4 and Ethernet (08_network.md R196). -/
def datagramFrame (n : Nat) : Nat := n + 36 + 46

/-- STAMP: the low 32 bits of TB0's seconds and its nanoseconds. -/
def stampNow (s : State) : Nat := tb0Value s / 2 ^ 48 % 2 ^ 32 * 2 ^ 32 + tb0Value s / 2 ^ 16 % 2 ^ 32

/-- The firmware stamps a client's request at the entry to its interrupt; the reply carries the stamp (10_time.md R257, Table 17-3). -/
def stampClient (s : State) (k : Client) : State := { s with clients := vmod s.clients k fun c => { c with stamp := stampNow s } }

/-- A reply to request d: opcode, FINAL, payload, ABORT, with the request's stamp and its CRC. -/
def replyTo (s : State) (k : Client) (d : Datagram) (final : Bool) (payload : List Byte) (abort : Nat) : Datagram :=
  let r : Datagram := { d with
    opcode := 0x80 + d.opcode
    flags := if final then 1 else 0
    payload := payload
    abort := abort
    stamp := (s.clients.get k).stamp
    crc := 0 }
  { r with crc := datagramCrc r }

/-- A client's source address and port, from UDP port 0x2003:09 (R410). -/
def replyDest (s : State) (k : Client) : PacketDest :=
  let c := ((s.clients.get k).source).getD (0, 0)
  ipDest none c.1 17 (cfg s (key 0x2003 9)) c.2

/-- A reply leaves on the endpoint flow of the port that took the request (R410). -/
def sendReply (s : State) (k : Client) (r : Datagram) : State :=
  endpointSend { s with clients := vmod s.clients k fun c => { c with lastReply := some r, busy := false, request := none } }
    (s.clients.get k).port (.reply k) (replyDest s k) (datagramFrame r.payload.length) (.datagram (datagramBytes r ++ leBytes 4 r.crc.toNat))

/-- The reply an answer to request d makes; a value is one chunk, `final` says that it ends the object. -/
def replyAnswer (s : State) (k : Client) (d : Datagram) (final : Bool) (a : Answer) : State :=
  match a with
  | .value data => sendReply s k (replyTo s k d final data 0)
  | .ack => sendReply s k (replyTo s k d true [] 0)
  | .abort x => sendReply s k (replyTo s k d true [] x.code)

/-! ## Writes acknowledged later -/

/-- How serving a write ends: acknowledged, refused, or held until it completes. -/
inductive WriteEnd where
  | ack
  | abort (a : Abort)
  | held
  deriving DecidableEq, Repr

/-- The client's request is in service until it is answered (R412). -/
def holdClient (s : State) (k : Client) : State := { s with clients := vmod s.clients k fun c => { c with busy := true } }

/-- A held request is answered now, on the route that brought it. -/
def completeClient (s : State) (k : Client) (a : Answer) : State :=
  let t := answer s k a
  match (s.clients.get k).request with
  | some d => replyAnswer t k d true a
  | none => { t with clients := vmod t.clients k fun c => { c with busy := false } }

/-- Client k's write ends. -/
def endWrite (s : State) (k : Client) (e : WriteEnd) : State :=
  match e with
  | .ack => answer s k .ack
  | .abort a => answer s k (.abort a)
  | .held => holdClient s k

/-- Serve a write that may be held (R403, R405). -/
def serveEnd (s : State) (k : Client) (i : Nat) (f : State → State × WriteEnd) : State :=
  if serves s k i then
    match writeGate s k i with
    | some a => answer s k (.abort a)
    | none =>
      let r := f (touchClient s k)
      endWrite r.1 k r.2
  else s

/-- A plain write as one that may be held. -/
def liftWrite (f : State → Except Abort State) (s : State) : State × WriteEnd :=
  match f s with
  | .ok t => (t, .ack)
  | .error a => (s, .abort a)

/-- A write with a trace as one that may be held. -/
def liftTrace (f : State → State × Option Abort) (s : State) : State × WriteEnd :=
  let r := f s
  (r.1, match r.2 with | none => .ack | some a => .abort a)

end Sys2Proof.Machine
end

