-- ==== Sys2Proof/Machine/Integrity.lean ====
section
/-! DEFINITION. Watchdogs, rail and clock monitors, sensors, check-value units, monitor slots, overflow list, controller restart
(14_integrity.md; 16_power_ageing.md R393 to R395; 01_module.md R19; 17_dictionary.md R405). -/

namespace Sys2Proof.Machine

/-! ## Watchdogs and unit monitors (R335, R336) -/

/-- An engine's watchdog expires: WATCHDOG_SEEN, a unit fault in the active unit, a standby fault in the standby. -/
def execEngineWatchdogExpiry (u : UnitId) (_e : EngineId) (s : State) : Out := .next (unitFaultOf s u .watchdog)

/-- The controller restarts where it runs or restarts already (R19). -/
def restartRunning (s : State) : State :=
  match s.ctrl.mode with
  | .running => restartController s
  | .restarting => { s with ctrl := { s.ctrl with restartAt := s.now } }
  | _ => s

/-- The controller's watchdog expires: WATCHDOG_SEEN, an EMCY, the restart of R19. -/
def execControllerWatchdogExpiry (s : State) : Out :=
  .next (restartRunning (raiseEmcy (setFlag s kIntegrity 25) 0x6100 kIntegrity 0))

/-- A rail outside ±5 % for 2 µs is a unit rail fault, a unit fault of its unit. -/
def execUnitRailFault (u : UnitId) (_rail : Fin 7) (s : State) : Out :=
  .next (unitFaultOf { s with boot := s.boot.mod u fun b => { b with railFault := true } } u .clockOrRail)

/-- A PLL out of lock or more than 1,000 ppm off is a unit clock fault. -/
def execUnitClockFault (u : UnitId) (s : State) : Out :=
  .next (unitFaultOf { s with boot := s.boot.mod u fun b => { b with clockFault := true } } u .clockOrRail)

/-! ## A mirrored write that a unit does not commit (17_dictionary.md R405) -/

/-- The unit is absent for the write, which stands in the master copy and the other unit: the event is logged and faults the unit,
whose repair ends with the whole shadow image. -/
def execMirrorTimeout (u : UnitId) (s : State) : Out :=
  let t := logNote s 0 (key 0x2011 1) u.bit
  .next (reportUnitFault t u 0)

/-! ## Sensors (R337; 16_power_ageing.md R393, R394, Table 16-4) -/

/-- Warning, fault and critical limit of a sensor in 0.01 K. -/
def sensorLimits (n : Nat) : Nat × Nat × Nat :=
  if n < 36 then (37315, 38315, 39815) else (38815, 39815, 41315)

/-- A limit is crossed above it and left 5 K below it. -/
def crossed (was : Bool) (limit v : Nat) : Bool := if was then decide (limit < v + 500) else decide (limit < v)

/-- The sensors above a limit, from those above it before. -/
def crossings (old : BitVec 38) (values : Vector Nat 38) (limit : Nat → Nat) : BitVec 38 :=
  BitVec.ofNat 38 ((List.range 38).foldl (fun a n =>
    if crossed (old.getLsbD n) (limit n) (values.get (finOf 38 (by decide) n)) then a + 2 ^ n else a) 0)

/-- A sensor newly above its fault limit: a unit thermal fault, the base die's condition, or a power fault. -/
def thermalFault (s : State) (n : Nat) : State :=
  if n < 16 then unitFaultOf s .a .thermal
  else if n < 32 then unitFaultOf s .b .thermal
  else
    let t := if n < 36 then s else powerFault s
    raiseEmcy (setFlag t kIntegrity 24) 0x4202 kIntegrity n

/-- The values shown in 0x5C01. -/
def showSensors (s : State) (values : Vector Nat 38) : State :=
  forEach (List.range 38) (fun x n => regPut x (key 0x5C01 (n + 1)) (values.get (finOf 38 (by decide) n))) s

/-- Rails that the part measures but does not state: they take free values; VIN, HOLD and the 12 V bus are telemetry
(R395). -/
def railMeasure (s : State) (n : Nat) : State :=
  if n = 0 then regPut s (key 0x5C02 1) (regGet s (key 0x5C00 2))
  else if n = 1 then regPut s (key 0x5C02 2) (regGet s (key 0x5C00 5))
  else if n = 2 then regPut s (key 0x5C02 3) (regGet s (key 0x5C00 6))
  else drawFree (regPut s (key 0x5C02 (n + 1)) (freeWord s 32))

/-- Rails that exist: 0 to 5, 8 to 14 of Unit A, 16 to 22 of Unit B. -/
def railNumbers : List Nat := [0, 1, 2, 3, 4, 5, 8, 9, 10, 11, 12, 13, 14, 16, 17, 18, 19, 20, 21, 22]

/-- Every millisecond sources 7, 8 and 9 are sampled in both units; the port lanes' eye margins are free values
(Table 14-8, R352). -/
def sampleMonitors (s : State) : State :=
  let t1 := forEach (List.range 38) (fun x n => monitorBoth x 7 n (regGet x (key 0x5C01 (n + 1)))) s
  let t2 := forEach railNumbers (fun x n =>
    let y := railMeasure x n
    monitorBoth y 8 n (regGet y (key 0x5C02 (n + 1)))) t1
  let t3 := forEach allLanes (fun x n =>
    let y := monitorSample x .a 9 n.val ((x.lanes.get .a).get n).eye
    monitorSample y .b 9 n.val ((y.lanes.get .b).get n).eye) t2
  let t4 := forEach (List.range 16) (fun x n => drawFree (monitorBoth x 9 (64 + n) (freeWord x 7))) t3
  { t4 with sensors := { t4.sensors with sampledMs := s.now } }

/-- Every 250 µs each sensor is compared with its limits; a critical one raises the warning of cause 5. -/
def execSensorRead (values : Vector Nat 38) (s : State) : Out :=
  let warn := crossings s.sensors.warn values fun n => (sensorLimits n).1
  let fault := crossings s.sensors.fault values fun n => (sensorLimits n).2.1
  let crit := crossings s.sensors.critical values fun n => (sensorLimits n).2.2
  let newFault := (List.range 38).filter fun n => fault.getLsbD n && !s.sensors.fault.getLsbD n
  let t := showSensors { s with sensors := { s.sensors with warn := warn, fault := fault, critical := crit } } values
  let t1 := putFlag t kStage 22 (thermalWarning t)
  let t2 := if warn &&& ~~~s.sensors.warn ≠ 0 then raiseEmcy (setFlag t1 kIntegrity 24) 0x4201 kStage 0 else t1
  let t3 := forEach newFault thermalFault t2
  let t4 := putFlag t3 kIntegrity 21 ((List.range 4).any fun n => fault.getLsbD (32 + n))
  let t5 := if crit &&& ~~~s.sensors.critical ≠ 0 then powerFailWarning t4 5 else t4
  .next (if s.sensors.sampledMs + cyclesPerMs ≤ s.now then sampleMonitors t5 else t5)

/-! ## Check-value units (R342 to R345) -/

/-- The code in use: CV7's is written, the others' is assigned (Table 14-6). -/
def cvCodeNow (s : State) (i : CvId) : Nat := if i.val = 7 then cfg s (kCv 7 2) else cvCode i.val

def cvResult (s : State) (i : CvId) (bytes : List Byte) : BitVec 64 :=
  crcOf (cvCodeNow s i) (if i.val = 7 then cfg s (kCv 7 3) else 0) bytes

/-- The value a record is compared with; none for the units that only compute (Table 14-6). -/
def cvExpected (s : State) (i : CvId) (r : CvRecord) : Option (BitVec 64) :=
  if i.val < 4 ∨ i.val = 5 then none
  else if i.val = 7 then some (BitVec.ofNat 64 (cfg s (kCv 7 4)))
  else some r.expected

/-- Width of the alive field; none where no alive check applies. -/
def cvAliveBits (i : CvId) : Option Nat := if i.val = 4 then some 16 else if 8 ≤ i.val then some 8 else none

/-- After a mismatch flag 29 is set in the task that owns the record (R344). -/
def cvMismatch (s : State) (owner : Option Nat) : State :=
  match owner with
  | some k => setTaskFlag s (viewUnit s) k 29
  | none => s

/-- The alive check of an accepted record; the first one sets the expected value (R344). -/
def cvAlive (s : State) (i : CvId) (r : CvRecord) : State :=
  match cvAliveBits i, r.alive with
  | some w, some a =>
    let next := (a + 1) % 2 ^ w
    let t := match (s.cv.get i).alive with
      | some e => if e = a % 2 ^ w then s else cvGap s i
      | none => s
    { t with cv := vmod t.cv i fun _ => { alive := some next } }
  | _, _ => s

/-- A unit ends a record: result, count, comparison, alive check (R344). -/
def endRecord (s : State) (i : CvId) (r : CvRecord) : State :=
  let v := cvResult s i r.bytes
  match cvExpected s i r with
  | some e => if e = v then cvAlive (cvEnd s i v.toNat true) i r else cvMismatch (cvEnd s i v.toNat false) r.owner
  | none => cvEnd s i v.toNat true

/-- The records of a check-value unit that no other command brings to it: those of batons, release reports, tokens, ring headers, hashes and line
packets are ended by the commands that form or receive them (log entry 65, DESIGN CHOICE). -/
def execCheckValueRecord (i : CvId) (r : CvRecord) (s : State) : Out := .next (endRecord s i r)

/-! ## Monitor slots and the overflow list (R348, R351) -/

def doMonitorClear (m : SlotId) (v : Nat) (s : State) : Except Abort State :=
  if v ≠ 1 then .error .outOfRange
  else .ok { s with slots := ⟨vmod s.slots.a m fun _ => slotEmpty, vmod s.slots.b m fun _ => slotEmpty⟩ }

/-- A write of 1 to 0x5000+m:06 empties the slot in both units. -/
def execMonitorClear (k : Client) (m : SlotId) (v : Nat) (s : State) : Out :=
  .next (serveWrite s k (0x5000 + m.val) (doMonitorClear m v))

/-- The snapshot of a slot of the unit in view. -/
def takeSnapshot (s : State) (m : SlotId) : State := { s with snaps := vmod s.snaps m fun _ => some ((s.slots.get (viewUnit s)).get m) }

/-- A read of 0x5000+m:07 takes the snapshot and answers its minimum. -/
def execMonitorSnapshot (k : Client) (m : SlotId) (s : State) : Out :=
  if serves s k (0x5000 + m.val) then
    let t := takeSnapshot (touchRead s k) m
    .next (answer t k (.value (leBytes 4 (snapOf t m).min)))
  else .next s

def doOverflowEmpty (s : State) : Except Abort State := .ok (clearFlag { s with overflow := [] } kIntegrity 22)

/-- Writing 0 to 0x5081:00 empties the list and clears LIST_FULL; the counters stay (R348). -/
def execOverflowListEmpty (k : Client) (s : State) : Out := .next (serveWrite s k 0x5081 doOverflowEmpty)

/-! ## Controller restart (01_module.md R19) -/

/-- The lockstep comparison fails and the controller restarts alone. -/
def execControllerRestart (s : State) : Out := .next (restartRunning s)

/-- The restart completes: the dictionary image of the active unit's shadow, an EMCY, and the dictionary answers again (R19).
While no unit is active the manual names no shadow; the model takes Unit A's, `viewUnit` (log entry 22, DESIGN CHOICE). The servo leaves HOLDOVER as
10_time.md R251 states: with PTP disabled on every port it is in FREE_RUN. -/
def execControllerRestartDone (s : State) : Out :=
  match s.ctrl.mode with
  | .restarting =>
    let image := match viewUnit s with
      | .a => s.dict.shadowA
      | .b => s.dict.shadowB
    let t : State := { s with
      ctrl := { s.ctrl with mode := .running }
      dict := { s.dict with master := image }
      time := if assocGet defaultOf image (key 0x2201 1) % 16 = 0 then { s.time with servo := .freeRun, adj := 0, recentAdj := [] } else s.time }
    .next (raiseEmcy t 0x1000 (key 0x1001 0) 0)
  | _ => .next s

end Sys2Proof.Machine
end

