-- ==== Sys2Proof/Machine/Windows.lean ====
section
/-! DEFINITION. Bulk windows, firmware loading, maintenance unlock, saving and restoring (17_dictionary.md R415 to R421). -/

namespace Sys2Proof.Machine

def winAt (s : State) (w : WinId) : Window := s.windows.get w

def modWin (s : State) (w : WinId) (f : Window → Window) : State := { s with windows := vmod s.windows w f }

/-! ## Opening a window (R415 to R418) -/

/-- The target's index and sub-index (0x5F01+w:01). -/
def winTarget (s : State) (w : WinId) : Nat × Nat :=
  let t := cfg s (kWin w 1)
  (t / 65536, t / 256 % 256)

def winLength (s : State) (w : WinId) : Nat := cfg s (kWin w 2)
def winCheck (s : State) (w : WinId) : Bool := decide (cfg s (kWin w 6) = 1)

/-- A window that takes no new open: it is open or committing. -/
def winBusy (x : Window) : Bool :=
  match x.mode with
  | .openWrite => true
  | .openRead => true
  | .committing => true
  | _ => false

/-- The package target 0x5F00:10. -/
def isPackage (t : Nat × Nat) : Bool := decide (t = (0x5F00, 0x10))

/-- Another open window holds CV7 (R417). -/
def cv7Held (s : State) : Bool := s.windows.toList.any fun x => winBusy x && x.check

/-- The channel and stream of a map data object 0x3020 + s + 0x100 × n : 04. -/
def mapTarget (t : Nat × Nat) : Option (Chan × StreamId) :=
  if 0x3000 ≤ t.1 ∧ t.1 < 0x3400 ∧ 0x20 ≤ t.1 % 256 ∧ t.1 % 256 < 0x30 ∧ t.2 = 4 then
    some (finOf 4 (by decide) ((t.1 - 0x3000) / 256), finOf 16 (by decide) (t.1 % 16))
  else none

/-- The flow of a session description 0x4000 + f : 13. -/
def flowTarget (t : Nat × Nat) : Option FlowId :=
  if 0x4000 ≤ t.1 ∧ t.1 < 0x4100 ∧ t.2 = 0x13 then some (finOf 256 (by decide) (t.1 - 0x4000)) else none

/-- Why an open write is refused: REASON 1 stands for the target, none for the window itself. -/
def openWriteRefused (s : State) (k : Client) (w : WinId) : Option (Bool × Abort) :=
  let t := winTarget s w
  if winBusy (winAt s w) then some (false, .presentState)
  else if isPackage t then
    if ¬ unlocked s k then some (true, .localControl)
    else if s.firmware.window.isSome then some (true, .presentState)
    else if winCheck s w && cv7Held s then some (false, .presentState)
    else if 100663296 < winLength s w then some (false, .tooLong)
    else none
  else
    match mapTarget t with
    | none => some (true, .presentState)
    | some _ =>
      if winCheck s w && cv7Held s then some (false, .presentState)
      else if 2097152 < winLength s w then some (false, .tooLong)
      else none

/-- The window is open for its owner. -/
def openedWindow (s : State) (k : Client) (w : WinId) (mode : WinMode) (length : Nat) (content : List Byte) : State :=
  modWin s w fun _ => { mode := mode, reason := 0, owner := some k, target := cfg s (kWin w 1), length := length, pos := 0,
                        content := content, lastAt := s.now, check := winCheck s w }

/-- A refusal of the target shows as failed with REASON 1. -/
def refuseOpen (s : State) (w : WinId) (r : Bool × Abort) : State × WriteEnd :=
  (if r.1 then modWin s w fun x => { x with mode := .failed, reason := 1, owner := none } else s, .abort r.2)

/-- The region that does not hold the controller's image is erased, its header first (R418). -/
def beginErase (s : State) (w : WinId) : State :=
  let r := s.firmware.region
  { s with
    firmware := { s.firmware with mode := .erasing, reason := 0, window := some w, eraseAt := s.now, room := 65536, roomAt := s.now,
                                  held := none, badWord := false }
    flash := { s.flash with
      erasing := some (r.val * 1536)
      intents := (r.val * 1536) :: s.flash.intents
      regions := vmod s.flash.regions r fun x => { x with header := none, blank := true } } }

def doOpenWrite (k : Client) (w : WinId) (s : State) : State × WriteEnd :=
  match openWriteRefused s k w with
  | some r => refuseOpen s w r
  | none =>
    let t := openedWindow s k w .openWrite (winLength s w) []
    (if isPackage (winTarget s w) then beginErase t w else t, .ack)

/-- Writing 1 to 0x5F01+w:03. -/
def execWindowOpenWrite (k : Client) (w : WinId) (s : State) : Out := .next (serveEnd s k (0x5F01 + w.val) (doOpenWrite k w))

/-- An open read takes a snapshot of the target and sets the length (R416, Table 17-8). -/
def doOpenRead (k : Client) (w : WinId) (s : State) : State × WriteEnd :=
  if winBusy (winAt s w) then (s, .abort .presentState)
  else
    match flowTarget (winTarget s w) with
    | none => refuseOpen s w (true, .presentState)
    | some f =>
      if winCheck s w && cv7Held s then (s, .abort .presentState)
      else
        let content := sessionDescription s f
        (openedWindow (storeValue s (kWin w 2) content.length) k w .openRead content.length content, .ack)

/-- Writing 2 to 0x5F01+w:03. -/
def execWindowOpenRead (k : Client) (w : WinId) (s : State) : Out := .next (serveEnd s k (0x5F01 + w.val) (doOpenRead k w))

/-! ## Data (R415, R418) -/

/-- A length in whole words. -/
def wordsUp (n : Nat) : Nat := ceilDiv n 16 * 16

/-- Words enter the window at the position. -/
def putWords (s : State) (w : WinId) (data : List Byte) : State :=
  modWin s w fun x => { x with content := x.content ++ data, pos := x.pos + data.length, lastAt := s.now }

/-- The program buffer drains at 8 MB/s (R418). -/
def bufferDrain (s : State) : State :=
  { s with firmware := { s.firmware with
      room := min 65536 (s.firmware.room + (s.now - s.firmware.roomAt) * 8 / 1500)
      roomAt := s.now } }

/-- Words of a package enter the program buffer, or are held until it has room. -/
def programWords (s : State) (k : Client) (w : WinId) (data : List Byte) : State × WriteEnd :=
  let t := bufferDrain s
  if t.firmware.room < data.length then
    (modWin { t with firmware := { t.firmware with held := some (k, w, data) } } w fun x => { x with lastAt := s.now }, .held)
  else (putWords { t with firmware := { t.firmware with room := t.firmware.room - data.length } } w data, .ack)

def doDataWrite (k : Client) (w : WinId) (data : List Byte) (s : State) : State × WriteEnd :=
  let x := winAt s w
  if x.mode ≠ .openWrite ∨ x.owner ≠ some k then (s, .abort .presentState)
  else if data.length = 0 ∨ data.length % 16 ≠ 0 then (s, .abort .lengthMismatch)
  else if wordsUp x.length < x.pos + data.length then (s, .abort .tooLong)
  else if s.firmware.window = some w then
    (if s.firmware.mode ≠ .ready ∨ s.firmware.held.isSome then (s, .abort .presentState) else programWords s k w data)
  else (putWords s w data, .ack)

/-- The word at the position; bytes beyond the length read as 0. -/
def dataWord (x : Window) : List Byte :=
  let l := (x.content.drop x.pos).take (min 16 (x.length - x.pos))
  l ++ List.replicate (16 - l.length) 0

/-- A read of 0x5F01+w:04: the word, or why not. -/
def doDataRead (k : Client) (w : WinId) (s : State) : Except Abort (State × List Byte) :=
  let x := winAt s w
  if x.mode ≠ .openRead ∨ x.owner ≠ some k then .error .presentState
  else if x.length ≤ x.pos then .error .tooLong
  else .ok (modWin s w (fun y => { y with pos := y.pos + 16, lastAt := s.now }), dataWord x)

/-- Data moves through 0x5F01+w:04: n words of a write, or one word of a read. -/
def execWindowData (k : Client) (w : WinId) (write : Bool) (data : List Byte) (s : State) : Out :=
  if write then .next (serveEnd s k (0x5F01 + w.val) (doDataWrite k w data))
  else if serves s k (0x5F01 + w.val) then
    match doDataRead k w (touchRead s k) with
    | .ok r => .next (answer r.1 k (.value r.2))
    | .error a => .next (answer s k (.abort a))
  else .next s

/-- The erase ends after up to 1,536 sectors of 30 ms (R418). -/
def execFirmwareEraseDone (s : State) : Out :=
  match s.firmware.mode with
  | .erasing =>
    .next { s with
      firmware := { s.firmware with mode := .ready }
      flash := { s.flash with erasing := none, intents := s.flash.intents.erase (s.firmware.region.val * 1536) } }
  | _ => .next s

/-- Room frees in the program buffer and a held write enters it, acknowledged; a word may have failed to program. -/
def execProgramBufferRoom (failed : Bool) (s : State) : Out :=
  let t := bufferDrain { s with firmware := { s.firmware with badWord := s.firmware.badWord || (failed && s.firmware.window.isSome) } }
  match t.firmware.held with
  | some (k, w, data) =>
    if data.length ≤ t.firmware.room then
      .next (completeClient (putWords { t with firmware := { t.firmware with
        room := t.firmware.room - data.length
        held := none } } w data) k .ack)
    else .next t
  | none => .next t

/-! ## Commit (R416 to R418) -/

/-- CV7 runs over the bytes up to the length; whether the result is the expected value. -/
def checkWindow (s : State) (x : Window) : State × Bool :=
  if x.check then
    let t := endRecord s 7 ⟨x.content.take x.length, 0, none, none⟩
    (t, decide (regGet t (kCv 7 5) = cfg s (kCv 7 4)))
  else (s, true)

/-- The content is delivered as one write of the target. -/
def deliverMap (s : State) (w : WinId) (c : Chan) (n : StreamId) : State :=
  let x := winAt s w
  let r := checkWindow s x
  if r.2 then
    match doMapData c n (x.content.take x.length) r.1 with
    | .ok t => closeWindow t w .committed 0
    | .error _ => closeWindow r.1 w .failed 4
  else closeWindow r.1 w .failed 2

/-- Writing 3: a package is verified, map data is delivered; a commit before the whole length was written is refused. -/
def doWinCommit (k : Client) (w : WinId) (s : State) : State × WriteEnd :=
  let x := winAt s w
  if x.mode ≠ .openWrite ∨ x.owner ≠ some k ∨ x.pos < x.length then (s, .abort .presentState)
  else if s.firmware.window = some w then
    (if s.firmware.mode ≠ .ready then (s, .abort .presentState)
     else (modWin { s with firmware := { s.firmware with mode := .verifying } } w fun y => { y with mode := .committing, lastAt := s.now },
       .ack))
  else
    match mapTarget (x.target / 65536, x.target / 256 % 256) with
    | some (c, n) => (deliverMap s w c n, .ack)
    | none => (closeWindow s w .failed 4, .ack)

def execWindowCommit (k : Client) (w : WinId) (s : State) : Out := .next (serveEnd s k (0x5F01 + w.val) (doWinCommit k w))

/-- The update reason: 8 flash error, 7 CV7 mismatch, 6 length, 1 to 5 the tests of 15_reset.md R371; 0 passed (Table 17-8). -/
def updateReason (bad checkOk : Bool) (h : PackageHeader) : Nat :=
  if bad then 8 else if !checkOk then 7 else if !h.lengthOk then 6 else imageReason h

/-- The package is staged, or failed with its reason and the region's header erased. -/
def verifyPackage (s : State) (w : WinId) (h : PackageHeader) : State :=
  let r := checkWindow s (winAt s w)
  let reason := updateReason s.firmware.badWord r.2 h
  let good := decide (reason = 0)
  let t := closeWindow r.1 w (if good then .committed else .failed) (if good then 0 else if reason = 7 then 2 else 4)
  { t with
    firmware := { t.firmware with
      mode := if good then .staged else .failed
      reason := reason
      window := none
      badWord := false }
    flash := { t.flash with
      regions := vmod t.flash.regions t.firmware.region fun _ =>
        { header := if good then some h else none, reErased := false, blank := !good } } }

/-- The controller has tested the committed package. -/
def execFirmwareVerifyDone (h : PackageHeader) (s : State) : Out :=
  match s.firmware.mode, s.firmware.window with
  | .verifying, some w => .next (verifyPackage s w h)
  | _, _ => .next s

/-! ## Abandoning (R415, R418) -/

/-- The window closes and a package load in it is given up. -/
def dropWindow (s : State) (w : WinId) (reason : Nat) : State :=
  let t := if s.firmware.window = some w then abandonFirmware s else s
  closeWindow t w .closed reason

def doWinAbandon (k : Client) (w : WinId) (s : State) : State × WriteEnd :=
  let x := winAt s w
  if winBusy x ∧ x.owner = some k then (dropWindow s w 0, .ack)
  else if winBusy x then (s, .abort .presentState)
  else (closeWindow s w .closed 0, .ack)

/-- Writing 4: the window is abandoned at any time. -/
def execWindowAbandon (k : Client) (w : WinId) (s : State) : Out := .next (serveEnd s k (0x5F01 + w.val) (doWinAbandon k w))

/-- A window without access for 60 s is abandoned, REASON 3. -/
def execWindowTimeout (w : WinId) (s : State) : Out :=
  let x := winAt s w
  match x.mode with
  | .openWrite => if x.lastAt + 60 * cyclesPerSec ≤ s.now then .next (dropWindow s w 3) else .next s
  | .openRead => if x.lastAt + 60 * cyclesPerSec ≤ s.now then .next (dropWindow s w 3) else .next s
  | _ => .next s

/-- A write of the control object 0x5F01+w:03. -/
def doWinControl (k : Client) (w : WinId) (v : Nat) (s : State) : State × WriteEnd :=
  if v = 1 then doOpenWrite k w s
  else if v = 2 then doOpenRead k w s
  else if v = 3 then doWinCommit k w s
  else doWinAbandon k w s

/-! ## Maintenance unlock (R419, R420) -/

/-- A new challenge for the client. -/
def drawChallenge (s : State) (k : Client) : State :=
  drawFree { s with maint := { s.maint with challenges := vmod s.maint.challenges k fun _ => some (Config.challenge s.free) } }

/-- A read of 0x5F08:01. -/
def execChallengeRead (k : Client) (s : State) : Out :=
  if serves s k 0x5F08 then
    .next (answer (drawChallenge (touchRead s k) k) k (.value (leBytes 8 (Config.challenge s.free).toNat)))
  else .next s

/-- A response is neither compared nor counted (R419). -/
def responseBarred (s : State) (k : Client) : Bool :=
  s.maint.blockUntil.any (fun t => decide (s.now < t)) || s.maint.owner.any (fun o => decide (o ≠ k)) ||
    (s.maint.challenges.get k).isNone

/-- A matching response unlocks for its client; the third mismatch in a row bars attempts for 60 s. -/
def doResponse (k : Client) (v : BitVec 128) (s : State) : State × Option Abort :=
  if responseBarred s k then (s, some .presentState)
  else
    let c := (s.maint.challenges.get k).getD 0
    let used : State := { s with maint := { s.maint with challenges := vmod s.maint.challenges k fun _ => none } }
    if Config.hmac c Config.serialNumber = v then
      (beginWatch { used with
        maint := { used.maint with owner := some k, lastWrite := s.now, failures := 0 }
        flash := { used.flash with limitOpen := true } } 2, none)
    else
      let n := s.maint.failures + 1
      let t := bump used (key 0x5F08 5)
      ({ t with maint := { t.maint with
          failures := if n = 3 then 0 else n
          blockUntil := if n = 3 then some (s.now + 60 * cyclesPerSec) else t.maint.blockUntil } }, some .presentState)

/-- A write of 0x5F08:02. -/
def execResponseWrite (k : Client) (v : BitVec 128) (s : State) : Out := .next (serveTrace s k 0x5F08 (doResponse k v))

def doLock (s : State) : Except Abort State := .ok (endUnlock s)

/-- A write of 0 to 0x5F08:03 locks. -/
def execMaintenanceLock (k : Client) (s : State) : Out := .next (serveWrite s k 0x5F08 doLock)

/-- The 60 s after three failed attempts have passed. -/
def execUnlockAttemptBlockExpiry (s : State) : Out :=
  match s.maint.blockUntil with
  | some t => if t ≤ s.now then .next { s with maint := { s.maint with blockUntil := none } } else .next s
  | none => .next s

/-- 600 s without a write by the unlocking client end the unlock. -/
def execUnlockExpiry (s : State) : Out :=
  if s.maint.owner.isSome ∧ s.maint.lastWrite + 600 * cyclesPerSec ≤ s.now then .next (endUnlock s) else .next s

/-! ## Saving and restoring (R421) -/

/-- Objects whose written value a save leaves out. -/
def neverSaved (i sub : Nat) : Bool :=
  decide ((0x3000 ≤ i ∧ i < 0x3400 ∧ i % 256 = 0 ∧ sub = 1) ∨ i = 0x2101 ∨ i = 0x1003 ∨ i = 0x5081 ∨ (i = 0x5082 ∧ (sub = 3 ∨ sub = 4)) ∨
    i = 0x1010 ∨ i = 0x1011 ∨ (i = 0x2900 ∧ sub = 5) ∨ (0x5F01 ≤ i ∧ i < 0x5F05) ∨ i = 0x5F08 ∨
    (0x3000 ≤ i ∧ i < 0x3400 ∧ i % 256 = 2 ∧ sub = 8))

/-- The saved configuration: RW, RWS, RWP and RWL objects that are no status words. -/
def savable (i sub : Nat) : Bool :=
  match rowOf i sub with
  | some r => (match r.acc with | .ro => false | .wo => false | _ => true) && decide (r.clear = 0) && !neverSaved i sub
  | none => false

/-- What a save writes. -/
def savedImage (s : State) : SavedImage :=
  { crcOk := true, values := s.dict.master.filter fun p => savable (p.1 / 256) (p.1 % 256), emcyCobWritten := s.can.cobWritten }

/-- "save": held until its flash write completes; refused while another save runs. -/
def doSave (k : Client) (s : State) : State × WriteEnd :=
  match s.flash.saving with
  | some _ => (s, .abort .presentState)
  | none => ({ s with flash := { s.flash with saving := some (k, s.now, savedImage s), pulse := true, writing := .saved } }, .held)

def execSave (k : Client) (s : State) : Out := .next (serveEnd s k 0x1010 (doSave k))

/-- The save's flash write completes: the copy goes into the area that does not hold the newest one, and the client is
acknowledged (R405). -/
def execSaveComplete (s : State) : Out :=
  match s.flash.saving with
  | some (k, _, image) =>
    let a : Fin 2 := 1 - s.flash.savedNewest
    .next (completeClient { s with flash := { s.flash with
      saving := none
      pulse := false
      writing := .none
      saved := vmod s.flash.saved a fun _ => some image
      savedNewest := a
      savedVoid := false } } k .ack)
  | none => .next s

def doLoad (s : State) : Except Abort State :=
  .ok { s with flash := { s.flash with saved := .replicate 2 none, savedVoid := true } }

/-- "load": both areas are void, and the defaults apply at the next module reset. -/
def execLoad (k : Client) (s : State) : Out := .next (serveWrite s k 0x1011 doLoad)

def doErrorListEmpty (s : State) : Except Abort State := .ok { s with emcy := { s.emcy with errors := [] } }

/-- Writing 0 to 0x1003:00. -/
def execErrorListEmpty (k : Client) (s : State) : Out := .next (serveWrite s k 0x1003 doErrorListEmpty)

end Sys2Proof.Machine
end

