-- ==== Sys2Proof/Machine/Dictionary.lean ====
section
/-! DEFINITION. Reading and writing any object of the dictionary (17_dictionary.md R403 to R406, R425): existence, access type,
length, range, the refusals of each chapter, and where the value goes. -/

namespace Sys2Proof.Machine

/-! ## Reading (R403, R425) -/

/-- Why a read is refused. -/
def readRefused (s : State) (i sub : Nat) : Option Abort :=
  if (rowsOf i).isEmpty then some .noObject
  else match rowOf i sub with
    | none => some .noSub
    | some r =>
      match r.acc with
      | .wo => some .writeOnly
      | _ =>
        if i = 0x5082 ∧ (sub = 5 ∨ sub = 6) ∧ (logSession s).length ≤ cfg s (key 0x5082 4) then some .presentState else none

/-- The bytes an object reads. -/
def objectBytes (s : State) (i sub : Nat) (r : ObjRow) : List Byte :=
  match r.ty with
  | .str => readString s i sub
  | .domain => sessionDescription (asWritten s) (finOf 256 (by decide) (i - 0x4000))
  | t => leBytes t.bytes (readNumber s i sub r)

/-- The largest refresh debt of any channel of the active unit (11_dram.md Table 11-6). -/
def largestDebt (s : State) : Int := ((s.dram.get (viewUnit s)).chan.toList.map fun c => c.debt).foldl max (-8)

/-- A peak restarts at its read (14_integrity.md Table 14-7): at 0, the largest refresh debt at the debt that stands, which may be negative. -/
def restartPeak (s : State) (i sub : Nat) (r : ObjRow) : State :=
  match r.cls with
  | .peak => if key i sub = kDram 6 then putSigned s (kDram 6) (largestDebt s) else regPut s (key i sub) 0
  | _ => s

/-- Client k reads an object: the window word, a new challenge, a slot's snapshot, or the value (R415, R419; 14_integrity.md
R351). -/
def readObject (k : Client) (i sub : Nat) (s : State) : Except Abort (State × List Byte) :=
  match readRefused s i sub, rowOf i sub with
  | some a, _ => .error a
  | none, none => .error .noSub
  | none, some r =>
    if 0x5F01 ≤ i ∧ i < 0x5F05 ∧ sub = 4 then doDataRead k (finOf 4 (by decide) (i - 0x5F01)) s
    else if i = 0x5F08 ∧ sub = 1 then .ok (drawChallenge s k, leBytes 8 (Config.challenge s.free).toNat)
    else if 0x5000 ≤ i ∧ i < 0x5020 ∧ sub = 7 then
      let t := takeSnapshot s (finOf 32 (by decide) (i - 0x5000))
      .ok (t, objectBytes t i sub r)
    else .ok (restartPeak s i sub r, objectBytes s i sub r)

/-! ## Which channels own an RWL object (R9, R83, R131, R159, R186, R213, R263) -/

/-- The channel mask a client wrote. -/
def writtenMask (s : State) (n : StreamId) : Nat := written s (kStream n 3)

def maskBusy (s : State) (mask : Nat) : Bool := allChans.any fun c => mask.testBit c.val && chanBusy (s.chans.get c)

/-- The source stream of a flow, where it has one. -/
def sourceOf (s : State) (f : FlowId) : Option StreamId :=
  let n := written s (kFlow f 2)
  if isTimed f ∧ n < 16 then some (finOf 16 (by decide) n) else none

/-- A flow's transport object is open while its source stream's channels are stopped, or, without one, while the flow is
disabled (R213); its source and queue size wait only for the stream. -/
def flowBusy (s : State) (f : FlowId) (sub : Nat) : Bool :=
  match sourceOf s f with
  | some n => maskBusy s (writtenMask s n)
  | none => decide (0x11 ≤ sub) && enabledFlow s f

def rwlBusy (s : State) (i sub : Nat) : Bool :=
  if 0x3400 ≤ i ∧ i < 0x3410 then maskBusy s (writtenMask s (finOf 16 (by decide) (i - 0x3400)))
  else if 0x3800 ≤ i ∧ i < 0x3810 then maskBusy s (writtenMask s (finOf 16 (by decide) (i - 0x3800)))
  else if 0x3000 ≤ i ∧ i < 0x3400 then maskBusy s (writtenMask s (finOf 16 (by decide) (i % 16)))
  else if 0x4000 ≤ i ∧ i < 0x4100 then flowBusy s (finOf 256 (by decide) (i - 0x4000)) sub
  else anyChannelBusy s

/-! ## Refusals that a chapter states for a value -/

/-- The packet size limit against the frame-length limit of the flow's ports (08_network.md Table 8-11). -/
def packetLimitBad (s0 : State) (f : FlowId) (v : Nat) : Bool :=
  let s := asWritten s0
  let room := fun (p : PortId) => s.flash.limit.frameLimit.get p - (if flowTagged s f then 22 else 18)
  allPorts.any fun p => usesPort s f p && decide (room p < v)

/-- A flow's enable may not be cleared: fixed flows, a source stream with a running channel, a readout in progress (R221). -/
def disableBad (s : State) (f : FlowId) : Bool :=
  let runs := fun (mask : Nat) => allChans.any fun c => mask.testBit c.val && decide ((s.chans.get c).mode = .running)
  isFixed f || (match sourceOf s f with | some n => runs (writtenMask s n) | none => false) ||
    s.capture.readouts.toList.any fun x => x.running && decide (x.flow = f)

/-- A two-rate meter needs PIR ≥ CIR and PBS ≥ CBS after the write (R234). -/
def meterBad (s : State) (m : MeterId) (sub v : Nat) : Bool :=
  let at_ := fun (j : Nat) => if sub = j then v else written s (kMeter m j)
  decide (at_ 2 = 1 ∧ (at_ 8 < at_ 5 ∨ at_ 7 < at_ 6))

/-- The value beside which a client's write counts: the last one held in the open commit group, where it is the client's own; of another client's group
and the written value the larger (log entry 58, DEDUCED). -/
def besideValue (s : State) (k : Client) (ky : Nat) : Nat :=
  match s.dict.group with
  | some g => match (g.writes.filter fun w => decide (w.1 = ky)).getLast? with
    | some w => if g.owner = k then w.2 else max w.2 (written s ky)
    | none => written s ky
  | none => written s ky

/-- Pacer values (05_pacer.md R128, R130). -/
def pacerBad (s : State) (k : Client) (n : StreamId) (sub v : Nat) : Bool :=
  if sub = 4 then decide (written s (kPacer n 2) ≠ 0 ∧ written s (kPacer n 2) < v)
  else if sub = 5 then decide (v / 256 < v % 256 ∨ 51 < v / 256)
  else if sub = 6 then decide (500 < v + besideValue s k (kPacer n 7))
  else if sub = 7 then decide (500 < v + besideValue s k (kPacer n 6))
  else if sub = 8 then decide (1000 < v)
  else false

/-- P + Q against the ring's capacity (12_translation_dma.md R301), the other one as it was last written. -/
def ringBad (s : State) (k : Client) (sub v : Nat) : Bool :=
  let cap := regGet s (key 0x2900 9)
  if sub = 2 then decide (cap ≠ 0 ∧ cap < v + besideValue s k (key 0x2900 3))
  else if sub = 3 then decide (cap ≠ 0 ∧ cap < v + besideValue s k (key 0x2900 2))
  else false

/-- A window's objects belong to its owner while it is open (R415). -/
def windowBad (s : State) (k : Client) (w : WinId) : Bool := winBusy (winAt s w) && decide ((winAt s w).owner ≠ some k)

def valueRefused (s : State) (k : Client) (i sub v : Nat) : Option Abort :=
  if i = 0x2003 ∧ 1 ≤ sub ∧ sub ≤ 8 ∧ v.testBit 61 ∧ v / 2 ^ 48 % 256 ≠ 32 then some .unsupportedAccess
  else if i = 0x2800 ∧ sub = 2 ∧ 2048 < v ∧ ¬ unlocked s k then some .localControl
  else if i = 0x2900 ∧ ringBad s k sub v then some .outOfRange
  else if 0x3800 ≤ i ∧ i < 0x3810 ∧ pacerBad s k (finOf 16 (by decide) (i - 0x3800)) sub v then some .presentState
  else if 0x4000 ≤ i ∧ i < 0x4100 ∧ sub = 1 ∧ v = 0 ∧ disableBad s (finOf 256 (by decide) (i - 0x4000)) then some .presentState
  else if 0x4010 ≤ i ∧ i < 0x4100 ∧ sub = 2 then some .presentState
  else if 0x4000 ≤ i ∧ i < 0x4100 ∧ sub = 0x1B ∧ packetLimitBad s (finOf 256 (by decide) (i - 0x4000)) v then some .presentState
  else if 0x4100 ≤ i ∧ i < 0x4140 ∧ meterBad s (finOf 64 (by decide) (i - 0x4100)) sub v then some .presentState
  else if 0x5F01 ≤ i ∧ i < 0x5F05 ∧ windowBad s k (finOf 4 (by decide) (i - 0x5F01)) then some .presentState
  else none

/-! ## Writes that command something -/

/-- The relay's command object (13_relay.md Table 13-9). -/
def relayCommand (v : Nat) (s : State) : Except Abort State :=
  match v with
  | 1 => doPlanned s
  | 2 => doForced s
  | 3 => doLockout s
  | 4 => doEndLockout s
  | 5 => doAbandon s
  | _ => doRetry s

/-- The capture command (12_translation_dma.md Table 12-9). -/
def captureCommand (v : Nat) (s : State) : Except Abort State :=
  match v with
  | 1 => doArm s
  | 2 => doTrigger s
  | 3 => doRelease s
  | _ => doDisarm s

/-- A readout's command (Table 12-10). -/
def readoutCommand (r : ReadoutId) (v : Nat) (s : State) : State × WriteEnd :=
  match v with
  | 1 => liftTrace (doReadoutStart r) s
  | 2 => liftWrite (doReadoutAbort r) s
  | _ => liftWrite (doReadoutResume r) s

/-- The commit-group control (02_lap.md Table 2-7). -/
def groupCommand (k : Client) (v : Nat) (s : State) : Except Abort State :=
  match v with
  | 1 => doGroupOpen k s
  | 2 => doGroupCommit k s
  | _ => doGroupAbandon k s

/-- A map load command (04_prediction.md Table 4-10). -/
def mapCommand (c : Chan) (n : StreamId) (v : Nat) (s : State) : Except Abort State :=
  match v with
  | 1 => doMapBegin c n s
  | 2 => doMapCommit c n s
  | _ => doMapDiscard c n s

/-- A plan asked for through the object runs when its measurements are there (16_power_ageing.md R397): RUNNING. -/
def askPlan (s : State) : State := setFlag s (key 0x5C10 5) 31

/-- The channel of a per-channel index. -/
def chanOf (i : Nat) : Chan := finOf 4 (by decide) ((i - 0x3000) / 256)

/-- The loads that the firmware has for a start by an object write (12_translation_dma.md R286): the allocation is its own, a free value (log entry 4). -/
def allocatedLoads (n : Nat) : List AtuLoad :=
  (Config.allocation n).map fun c => { ctx := c.1, entries := c.2.map fun e =>
    { vbase := e.1, page := e.2.1, ubase := e.2.2, readable := true, writable := true, eccBad := false } }

/-- Per-channel control objects. -/
def channelWrite (k : Client) (i sub v : Nat) (data : List Byte) (s : State) : Option (State × WriteEnd) :=
  let c := chanOf i
  let n : StreamId := finOf 16 (by decide) (i % 16)
  let j := i % 256
  if j = 0 ∧ sub = 1 then some (if v = 1 then liftTrace (doChannelStart c (allocatedLoads s.free)) (drawFree s) else liftWrite (doChannelStop c) s)
  else if j = 2 ∧ sub = 8 then some (liftWrite (doVerifyEnable k c v) s)
  else if 0x20 ≤ j ∧ j < 0x30 ∧ sub = 2 then some (liftWrite (mapCommand c n v) s)
  else if 0x20 ≤ j ∧ j < 0x30 ∧ sub = 4 then some (liftWrite (doMapData c n data) s)
  else none

/-- Base-die and module-wide control objects. -/
def baseWrite (k : Client) (i sub v : Nat) (s : State) : Option (State × WriteEnd) :=
  match i, sub with
  | 0x1003, 0 => some (liftWrite doErrorListEmpty s)
  | 0x1010, 1 => some (doSave k s)
  | 0x1011, 1 => some (liftWrite doLoad s)
  | 0x2010, 2 => some (liftWrite (relayCommand v) s)
  | 0x2010, 4 => some (liftWrite (doReversionLock v) s)
  | 0x2101, 1 => some (liftWrite (doBlockReset k (BitVec.ofNat 32 v)) s)
  | 0x2500, 0x0F => some (liftWrite (groupCommand k v) s)
  | 0x2900, 5 => some (liftWrite (doTriggerTime v) s)
  | 0x2900, 6 => some (liftWrite (captureCommand v) s)
  | 0x4800, 1 => some (liftWrite (doReturnEnable v) s)
  | 0x5081, 0 => some (liftWrite doOverflowEmpty s)
  | 0x5C10, 1 => some (askPlan s, .ack)
  | 0x5F08, 2 => some (liftTrace (doResponse k (BitVec.ofNat 128 v)) s)
  | 0x5F08, 3 => some (liftWrite doLock s)
  | _, _ => none

/-- Every control object. -/
def commandWrite (k : Client) (i sub v : Nat) (data : List Byte) (s : State) : Option (State × WriteEnd) :=
  if 0x3000 ≤ i ∧ i < 0x3400 then channelWrite k i sub v data s
  else if 0x2901 ≤ i ∧ i < 0x2905 ∧ sub = 7 then some (readoutCommand (finOf 4 (by decide) (i - 0x2901)) v s)
  else if 0x5000 ≤ i ∧ i < 0x5020 ∧ sub = 6 then some (liftWrite (doMonitorClear (finOf 32 (by decide) (i - 0x5000)) v) s)
  else if 0x5F01 ≤ i ∧ i < 0x5F05 ∧ sub = 3 then some (doWinControl k (finOf 4 (by decide) (i - 0x5F01)) v s)
  else baseWrite k i sub v s

/-! ## Plain values -/

/-- What a stored value changes at its acknowledgement: PTP ports, meter buckets, a retraining link, a map size, the COB-ID
EMCY that now holds a written value. -/
def settleWrite (s : State) (i sub : Nat) : State :=
  if i = 0x2201 ∧ sub = 1 then settlePtp s
  else if i = 0x2201 ∧ sub = 2 then settleDomain s
  else if 0x4100 ≤ i ∧ i < 0x4140 then
    let m : MeterId := finOf 64 (by decide) (i - 0x4100)
    { s with meters := ⟨vmod s.meters.a m fun _ => meterFull s m, vmod s.meters.b m fun _ => meterFull s m⟩ }
  else if 0x2410 ≤ i ∧ i < 0x2414 ∧ sub = 1 then announcePort s (finOf 4 (by decide) (i - 0x2410))
  else if 0x2410 ≤ i ∧ i < 0x2414 ∧ 2 ≤ sub ∧ sub ≤ 4 then
    let p : PortId := finOf 4 (by decide) (i - 0x2410)
    if (s.ports.get p).up then linkDown s p else s
  else if 0x3400 ≤ i ∧ i < 0x3410 then settleMapSize s (finOf 16 (by decide) (i - 0x3400))
  else if i = 0x2500 ∧ sub = 1 then forEach allStreams settleMapSize s
  else if i = 0x1014 then { s with can := { s.can with cobWritten := true } }
  else s

/-- A plain value is stored and settled; PTP's group on the ports that it newly runs on is reported (08_network.md R193). -/
def storeSettled (s : State) (i sub v : Nat) : State :=
  let t := settleWrite (storeValue s (key i sub) v) i sub
  if i = 0x2201 ∧ sub = 1 then announceJoins s t else t

/-- Sticky bits written as 1 are cleared, and the error register follows (R422). -/
def clearStatus (s : State) (i sub v : Nat) (r : ObjRow) : State :=
  settleRegister (regPut s (key i sub) (maskOff (regGet s (key i sub)) (v &&& r.clear)))

/-- A value goes where its access type says (R9, R51). -/
def storePlain (k : Client) (i sub v : Nat) (r : ObjRow) (s : State) : State × WriteEnd :=
  if r.clear ≠ 0 then (clearStatus s i sub v r, .ack)
  else match r.acc with
    | .rws => liftWrite (fun t => shadowWrite t k (key i sub) v false) s
    | .rwp => liftWrite (fun t => shadowWrite t k (key i sub) v true) s
    | .rwl => if rwlBusy s i sub then (s, .abort .presentState) else (storeSettled s i sub v, .ack)
    | _ => (storeSettled s i sub v, .ack)

/-! ## Writing -/

/-- Objects whose data is no value of their type: map data and window data. -/
def isBulk (i sub : Nat) (r : ObjRow) : Bool := decide (r.ty = .domain) || decide (0x5F01 ≤ i ∧ i < 0x5F05 ∧ sub = 4)

/-- Read-only objects; the configuration of a check-value unit that the module assigns is refused as an access error
(14_integrity.md R345). -/
def writeAccess (i sub : Nat) (r : ObjRow) : Option Abort :=
  match r.acc with
  | .ro => some (if 0x5800 ≤ i ∧ i < 0x5810 ∧ i ≠ 0x5807 ∧ 2 ≤ sub ∧ sub ≤ 4 then .presentState else .readOnly)
  | _ => none

/-- A value of the right length and range, refused by no rule of its chapter, commands something or is stored. -/
def writeValue (k : Client) (i sub : Nat) (r : ObjRow) (data : List Byte) (s : State) : State × WriteEnd :=
  let v := leNat data
  if data.length ≠ r.ty.bytes then (s, .abort .lengthMismatch)
  else if 2 ^ r.ty.bits ≤ v then (s, .abort .outOfRange)
  else if ¬ r.rng.holds r.ty.bits v then (s, .abort .outOfRange)
  else
    match valueRefused s k i sub v with
    | some a => (s, .abort a)
    | none =>
      match commandWrite k i sub v data s with
      | some x => x
      | none => storePlain k i sub v r s

/-- Client k writes bytes to index:sub. -/
def writeObject (k : Client) (i sub : Nat) (data : List Byte) (s : State) : State × WriteEnd :=
  if (rowsOf i).isEmpty then (s, .abort .noObject)
  else match rowOf i sub with
    | none => (s, .abort .noSub)
    | some r =>
      match writeAccess i sub r with
      | some a => (s, .abort a)
      | none =>
        if isBulk i sub r then
          (if 0x5F01 ≤ i ∧ i < 0x5F05 then doDataWrite k (finOf 4 (by decide) (i - 0x5F01)) data s
           else (commandWrite k i sub 0 data s).getD (s, .abort .presentState))
        else writeValue k i sub r data s

/-- A client writes an object. -/
def execObjectWrite (k : Client) (i sub : Nat) (data : List Byte) (s : State) : Out :=
  .next (serveEnd s k i (writeObject k i sub data))

end Sys2Proof.Machine
end

