-- ==== Sys2Proof/Machine/Routes.lean ====
section
/-! DEFINITION. The two routes to the dictionary: CAN FD with its NMT, SYNC, heartbeat and EMCY services, and dictionary
datagrams (17_dictionary.md R407 to R414, R422, R423). -/

namespace Sys2Proof.Machine

/-! ## Segmented writes (R406, R413) -/

def setTransfer (s : State) (k : Client) (t : Option Transfer) : State :=
  { s with clients := vmod s.clients k fun c => { c with transfer := t } }

/-- Whether a segment goes on with the transfer in progress. -/
def segmentFits (t : Option Transfer) (i sub offset : Nat) : Bool :=
  match t with
  | some t => decide (t.index = i ∧ t.sub = sub ∧ offset = t.data.length)
  | none => false

/-- A segment that begins a transfer: none is in progress, or one of the same object. -/
def segmentBegins (t : Option Transfer) (i sub offset : Nat) : Bool :=
  decide (offset = 0) && (match t with
    | some t => decide (t.index = i ∧ t.sub = sub)
    | none => true)

/-- Bytes received so far with this segment. -/
def segmentData (t : Option Transfer) (offset : Nat) (data : List Byte) : List Byte :=
  match t with
  | some t => if offset = 0 then data else t.data ++ data
  | none => data

/-- A segment is kept; the final one makes the write; a gap abandons the transfer (R413). -/
def takeSegment (k : Client) (i sub offset : Nat) (data : List Byte) (final : Bool) (s : State) : State × WriteEnd :=
  let t := (s.clients.get k).transfer
  if segmentBegins t i sub offset || segmentFits t i sub offset then
    let all := segmentData t offset data
    if 2097152 < all.length then (setTransfer s k none, .abort .tooLong)
    else if final then writeObject k i sub all (setTransfer s k none)
    else (setTransfer s k (some ⟨i, sub, all, s.now⟩), .ack)
  else (setTransfer s k none, .abort .lengthMismatch)

/-- A transfer without a segment for 1 s ends with a protocol timeout (Table 17-1). -/
def execTransferTimeout (k : Client) (s : State) : Out :=
  match (s.clients.get k).transfer with
  | some t =>
    if t.lastAt + cyclesPerSec ≤ s.now then .next (completeClient (setTransfer s k none) k (.abort .protocolTimeout)) else .next s
  | none => .next s

/-! ## CAN FD USDO (R407, R411) -/

/-- A read of client k is answered with the value, or why not. -/
def answerRead (s : State) (k : Client) (i sub : Nat) : State :=
  match readObject k i sub (touchRead s k) with
  | .ok r => answer r.1 k (.value r.2)
  | .error a => answer s k (.abort a)

/-- A USDO request of slot 0, one session at a time: a request while one is in service is not taken. Its frame is stamped (10_time.md R257). -/
def execUsdoTransfer (r : DictRequest) (s : State) : Out :=
  if (s.clients.get 0).busy then .next s
  else
    let t := stampClient s 0
    match r with
    | .read i sub => if serves t 0 i then .next (answerRead t 0 i sub) else .next t
    | .write i sub data => .next (serveEnd t 0 i (writeObject 0 i sub data))
    | .segment i sub offset data final => .next (serveEnd t 0 i (takeSegment 0 i sub offset data final))

/-! ## NMT (R408, R409) -/

/-- The node hears the bus: the controller or its recovery loader runs, and the node is not bus-off. -/
def nodeHears (s : State) : Bool :=
  (match s.ctrl.mode with | .running => true | .recovery => true | _ => false) && !s.can.busOff &&
    decide (s.can.nmt ≠ .initialisation)

def setNmt (s : State) (m : NmtMode) : State := { s with can := { s.can with nmt := m } }

/-- Reset Node: reset source 2, while a channel runs only if 0x2002:05 is 1; else it is ignored, counted and noted. -/
def resetNode (s : State) : State :=
  if anyChannelRunning s ∧ cfg s (key 0x2002 5) ≠ 1 then logNote (bump s (key 0x2002 6)) 0 (key 0x2002 6) 0
  else assertModuleReset s 2

/-- The communication profile objects 0x1000 to 0x1FFF return to their saved values (15_reset.md R358). -/
def reloadProfile (s : State) : State :=
  let saved := match savedNewest s.flash with
    | some i => storeOf i.values
    | none => []
  let mix := fun (d : Store) => d.foldl (fun st p => if p.1 / 256 < 0x2000 then assocPut defaultOf st p.1 (defaultOf p.1) else st) d
  let load := fun (d : Store) => saved.foldl (fun st p => if p.1 / 256 < 0x2000 then assocPut defaultOf st p.1 p.2 else st) (mix d)
  { s with dict := { s.dict with
      master := load s.dict.master
      shadowA := if unitPresent s .a then load s.dict.shadowA else s.dict.shadowA
      shadowB := if unitPresent s .b then load s.dict.shadowB else s.dict.shadowB } }

/-- Reset Communication: reset source 5, the profile objects reloaded, the node restarted with its boot-up message; a USDO
session of slot 0 ends (R407, R424). -/
def resetCommunication (s : State) : State :=
  let t := reloadProfile (assertSource s 5)
  { t with
    can := { nodeStart t with busOff := false }
    clients := vmod t.clients 0 fun c => { c with transfer := none, snapshot := none } }

def execNmtStart (s : State) : Out := .next (if nodeHears s then setNmt s .operational else s)
def execNmtStop (s : State) : Out := .next (if nodeHears s then setNmt s .stopped else s)
def execNmtEnterPreOperational (s : State) : Out := .next (if nodeHears s then setNmt s .preOperational else s)

/-- The NMT command Reset Node (R409). -/
def execResetNode (s : State) : Out := .next (if nodeHears s then resetNode s else s)

/-- The NMT command Reset Communication, accepted in every state (R409). -/
def execResetCommunication (s : State) : Out := .next (if nodeHears s then resetCommunication s else s)

/-- An NMT command specifier of CiA 1301: 1 start, 2 stop, 128 pre-operational, 129 reset node, 130 reset communication. -/
def nmtCommand (s : State) (c : Nat) : State :=
  if c = 1 then setNmt s .operational
  else if c = 2 then setNmt s .stopped
  else if c = 128 then setNmt s .preOperational
  else if c = 129 then resetNode s
  else if c = 130 then resetCommunication s
  else s

/-! ## Bus-off, SYNC (R409, Table 17-2) -/

/-- The node goes bus-off: its USDO session is lost. -/
def execCanBusOff (s : State) : Out :=
  .next { s with
    can := { s.can with busOff := true }
    clients := vmod s.clients 0 fun c => { c with transfer := none, snapshot := none } }

/-- After 128 occurrences of 11 recessive bits the node sends again: BUS_OFF_SEEN and an EMCY. -/
def execBusOffRecovery (s : State) : Out :=
  if s.can.busOff then
    .next (raiseEmcy (setFlag { s with can := { s.can with busOff := false } } (key 0x2002 8) 31) 0x8140 (key 0x2002 8) 0)
  else .next s

/-- A SYNC is stamped on TB0 into 0x2002:07 (R257). -/
def execCanSyncRx (s : State) : Out := .next (if nodeHears s then regPut s (key 0x2002 7) (tb0Value s) else s)

/-! ## Module-sent messages (R414, R423) -/

/-- Access entries that take module-sent datagrams: VALID, SUBSCRIBE, prefix 32 (R414). -/
def subscribers (s : State) : List Nat :=
  ((List.range 8).map fun i => cfg s (key 0x2003 (i + 1))).filter fun e =>
    e.testBit 63 && e.testBit 61 && decide (e / 2 ^ 48 % 256 = 32)

/-- P0, or the lowest-numbered port whose link is up. -/
def moduleSentPort (s : State) : Option PortId := allPorts.find? fun p => portServes s p

/-- A module-sent datagram, with its CRC (Table 17-3). -/
def moduleDatagram (s : State) (opcode : Nat) (payload : List Byte) : Datagram :=
  let d : Datagram := { protocol := 0xD1C7, version := 1, opcode := opcode, sequence := 0, index := 0, sub := 0, flags := 1, offset := 0,
                        abort := 0, stamp := stampNow s, payload := payload, crc := 0 }
  { d with crc := datagramCrc d }

/-- A module-sent datagram goes to every subscriber, at its entry's address and UDP port (R414). -/
def sendToSubscribers (s : State) (opcode : Nat) (payload : List Byte) : State :=
  let d := moduleDatagram s opcode payload
  match moduleSentPort s with
  | some p =>
    forEach (subscribers s) (fun x e =>
      endpointSend x p .moduleSent (ipDest none (e % 2 ^ 32) 17 (cfg s (key 0x2003 9)) (e / 2 ^ 32 % 2 ^ 16)) (datagramFrame payload.length)
        (.datagram (datagramBytes d ++ leBytes 4 d.crc.toNat))) s
  | none => s

/-- The 12 bytes of a heartbeat datagram: NMT state, 0x2010:01, two reserved bytes, 0x5080:01 and 0x5C00:01 (R414). -/
def heartbeatBytes (s : State) : List Byte :=
  let v := fun (i sub : Nat) => (liveValue s i sub).getD (liveStatus s i sub (regGet s (key i sub)))
  leBytes 1 (v 0x2002 4) ++ leBytes 1 (v 0x2010 1) ++ leBytes 2 0 ++ leBytes 4 (v 0x5080 1) ++ leBytes 4 (v 0x5C00 1)

/-- The heartbeat of 0x1017 ms, on CAN FD where the node is not bus-off and to the subscribers, 12 bytes (R408, R414). -/
def execHeartbeat (s : State) : Out :=
  let period := cfg s (key 0x1017 0)
  if dictAnswers s ∧ period ≠ 0 ∧ s.can.heartbeatAt + period * cyclesPerMs ≤ s.now then
    .next (sendToSubscribers { s with can := { s.can with heartbeatAt := s.now } } 0x11 (heartbeatBytes s))
  else .next s

/-- Whether the inhibit time of 0x1015 × 100 µs has passed since the last EMCY (Table 17-2). -/
def emcyFree (s : State) : Bool :=
  match s.emcy.sentAt with
  | some t => decide (t + cfg s (key 0x1015 0) * 100 * cyclesPerUs ≤ s.now)
  | none => true

/-- The manufacturer-specific field of an EMCY (Table 17-5). -/
def emcyField (e : Emcy) : Nat := e.source % 256 * 2 ^ 56 + e.unit % 2 * 2 ^ 55 + e.level % 4 * 2 ^ 53 + e.detail % 2 ^ 32

/-- The 11 bytes of an EMCY: error code, error register, field, little-endian (R423; 00_scope.md R7). -/
def emcyBytes (e : Emcy) (register : Nat) : List Byte := leBytes 2 e.code ++ leBytes 1 register ++ leBytes 8 (emcyField e)

/-- The head of the EMCY queue is sent: on CAN FD unless the node is stopped, and to the subscribers, 11 bytes; it waits while
the node is bus-off (R408, R409, R423). -/
def execEmcySend (s : State) : Out :=
  match s.emcy.queue with
  | e :: rest =>
    if dictAnswers s ∧ ¬ s.can.busOff ∧ emcyFree s then
      let bytes := emcyBytes e (errorRegister s)
      .next (sendToSubscribers { s with emcy := { s.emcy with queue := rest, sentAt := some s.now, lastSent := bytes } } 0x10 bytes)
    else .next s
  | [] => .next s

/-! ## Dictionary datagrams (R410 to R413) -/

/-- The first VALID access entry that the source address matches. -/
def accessEntry (s : State) (ip : Nat) : Option Nat :=
  ((List.range 8).map fun i => cfg s (key 0x2003 (i + 1))).find? fun e =>
    let n := min 32 (e / 2 ^ 48 % 256)
    e.testBit 63 && decide (ip / 2 ^ (32 - n) = e % 2 ^ 32 / 2 ^ (32 - n))

/-- PROTOCOL, VERSION, OPCODE and CRC of a request hold. -/
def datagramGood (d : Datagram) : Bool :=
  decide (d.protocol = 0xD1C7 ∧ d.version = 1 ∧ d.crc = datagramCrc d) && (decide (d.opcode = 1) || decide (d.opcode = 2) ||
    decide (d.opcode = 0x20))

def discardKey : Nat := key 0x2003 0x0A

def allClients : List Client := (List.range 9).map (finOf 9 (by decide))

/-- The slot of a source, or a free one (R411, R412). -/
def slotFor (s : State) (src : Nat × Nat) : Option Client :=
  let l := allClients.drop 1
  (l.find? fun k => decide ((s.clients.get k).source = some src)).orElse fun _ =>
    l.find? fun k => (s.clients.get k).source.isNone

/-- The slot serves the source: a new one starts empty; the request's port and the entry's HOST are taken. -/
def enterSlot (s : State) (k : Client) (src : Nat × Nat) (p : PortId) (host : Bool) : State :=
  { s with clients := vmod s.clients k fun c =>
      { (if c.source = some src then c else clientReset) with source := some src, port := p, host := host, lastAt := s.now } }

/-- The bytes a read at an offset returns, at most 1,024, and whether they end the object. -/
def readChunk (data : List Byte) (offset : Nat) : List Byte × Bool :=
  ((data.drop offset).take 1024, decide (data.length ≤ offset + 1024))

/-- A read: at offset 0 it takes the snapshot, later it is served from it (R413). -/
def datagramRead (s : State) (k : Client) (d : Datagram) : State :=
  if d.offset = 0 then
    match readObject k d.index d.sub (touchRead s k) with
    | .ok r =>
      let t : State := { r.1 with clients := vmod r.1.clients k fun c => { c with snapshot := some (key d.index d.sub, r.2) } }
      let x := readChunk r.2 0
      replyAnswer (answer t k (.value x.1)) k d x.2 (.value x.1)
    | .error a => replyAnswer (answer s k (.abort a)) k d true (.abort a)
  else
    match (s.clients.get k).snapshot with
    | some (ky, data) =>
      if ky = key d.index d.sub ∧ d.offset < data.length then
        let x := readChunk data d.offset
        replyAnswer (answer s k (.value x.1)) k d x.2 (.value x.1)
      else replyAnswer (answer s k (.abort .lengthMismatch)) k d true (.abort .lengthMismatch)
    | none => replyAnswer (answer s k (.abort .lengthMismatch)) k d true (.abort .lengthMismatch)

/-- A write, whole or a segment; a held one is answered when it completes (R405, R413). -/
def datagramWrite (s : State) (k : Client) (d : Datagram) : State :=
  let t := serveEnd s k d.index (takeSegment k d.index d.sub d.offset d.payload (d.flags % 2 = 1))
  if (t.clients.get k).busy then { t with clients := vmod t.clients k fun c => { c with request := some d } }
  else
    match (t.clients.get k).answer with
    | some a => replyAnswer t k d true a
    | none => t

/-- An NMT datagram needs host rights; none has a reply (R411). -/
def datagramNmt (s : State) (k : Client) (d : Datagram) : State :=
  if hostRights s k then nmtCommand s ((d.payload.map BitVec.toNat).headD 0) else answer s k (.abort .unsupportedAccess)

/-- The client's request is served: a repeated SEQUENCE is answered again, one while another is in service is discarded
(R412). -/
def serveDatagram (s0 : State) (k : Client) (d : Datagram) : State :=
  if (s0.clients.get k).busy then bumpHalf s0 discardKey false
  else
    let s := stampClient s0 k
    let c := s.clients.get k
    let fresh := if d.opcode = 1 then datagramRead s k d else if d.opcode = 2 then datagramWrite s k d else datagramNmt s k d
    match c.lastReply with
    | some r =>
      if r.sequence = d.sequence then
        let again : Datagram := { r with flags := r.flags ||| 2, crc := 0 }
        endpointSend s c.port (.reply k) (replyDest s k) (datagramFrame again.payload.length)
          (.datagram (datagramBytes again ++ leBytes 4 (datagramCrc again).toNat))
      else fresh
    | none => fresh

/-- A datagram to the address of an enabled port at 0x2003:09: discarded and counted where no entry matches its source, where
it is malformed, or where no slot is free (R410, R412). -/
def execDictionaryDatagram (p : PortId) (srcIp srcPort : Nat) (d : Datagram) (s : State) : Out :=
  if dictAnswers s ∧ portServes s p ∧ s.relay.active.isSome then
    match accessEntry s srcIp with
    | none => .next (bumpHalf s discardKey true)
    | some e =>
      if ¬ datagramGood d then .next (bumpHalf s discardKey true)
      else
        match slotFor s (srcIp, srcPort) with
        | none => .next (bumpHalf s discardKey false)
        | some k => .next (serveDatagram (enterSlot s k (srcIp, srcPort) p (e.testBit 62)) k d)
  else .next s

/-- A datagram slot without a request for 10 s is freed; an unlock of its client ends (R411, R420). -/
def execClientSlotTimeout (k : Client) (s : State) : Out :=
  let c := s.clients.get k
  if k ≠ 0 ∧ c.source.isSome ∧ c.lastAt + 10 * cyclesPerSec ≤ s.now then
    let t := if s.maint.owner = some k then endUnlock s else s
    .next { t with
      clients := vmod t.clients k fun _ => clientReset
      maint := { t.maint with challenges := vmod t.maint.challenges k fun _ => none } }
  else .next s

end Sys2Proof.Machine
end

