-- ==== Sys2Proof/Machine/Dispatch.lean ====
section
/-! DEFINITION. The dispatch: one arm per command, each one direct call of that command's meaning. -/

namespace Sys2Proof.Machine

def exec (i : Instr) (s : State) : Host.Outcome State Fault Refusal :=
  match i with
  | .lapTick j => Sys2Proof.Machine.execLapTick j s
  | .timerExpiry u => Sys2Proof.Machine.execTimerExpiry u s
  | .timerInsert u task laps flag => Sys2Proof.Machine.execTimerInsert u task laps flag s
  | .taskRun u e x => Sys2Proof.Machine.execTaskRun u e x s
  | .flagWriteRetry u => Sys2Proof.Machine.execFlagWriteRetry u s
  | .contextSaveFault u e => Sys2Proof.Machine.execContextSaveFault u e s
  | .stripeJobFire c => Sys2Proof.Machine.execStripeJobFire c s
  | .operandDeadline => Sys2Proof.Machine.execOperandDeadline s
  | .ctuCode c n x => Sys2Proof.Machine.execCtuCode c n x s
  | .budgetStep n => Sys2Proof.Machine.execBudgetStep n s
  | .stripeCoded n x => Sys2Proof.Machine.execStripeCoded n x s
  | .windowFetchDone c n => Sys2Proof.Machine.execWindowFetchDone c n s
  | .segmentVerified c n x => Sys2Proof.Machine.execSegmentVerified c n x s
  | .egressByteCheck c n stripe slice verifier egress => Sys2Proof.Machine.execEgressByteCheck c n stripe slice verifier egress s
  | .globalVectorEstimate n => Sys2Proof.Machine.execGlobalVectorEstimate n s
  | .roiTrackUpdate n => Sys2Proof.Machine.execRoiTrackUpdate n s
  | .channelStart k c loads => Sys2Proof.Machine.execChannelStart k c loads s
  | .channelBegin => Sys2Proof.Machine.execChannelBegin s
  | .channelStop k c => Sys2Proof.Machine.execChannelStop k c s
  | .channelStopped c => Sys2Proof.Machine.execChannelStopped c s
  | .groupOpen k => Sys2Proof.Machine.execGroupOpen k s
  | .groupCommit k => Sys2Proof.Machine.execGroupCommit k s
  | .groupAbandon k => Sys2Proof.Machine.execGroupAbandon k s
  | .groupTimeout => Sys2Proof.Machine.execGroupTimeout s
  | .mapLoadBegin k c n => Sys2Proof.Machine.execMapLoadBegin k c n s
  | .mapData k c n data => Sys2Proof.Machine.execMapData k c n data s
  | .mapCommit k c n => Sys2Proof.Machine.execMapCommit k c n s
  | .mapDiscard k c n => Sys2Proof.Machine.execMapDiscard k c n s
  | .verifyEnableWrite k c v => Sys2Proof.Machine.execVerifyEnableWrite k c v s
  | .objectWrite k index sub data => Sys2Proof.Machine.execObjectWrite k index sub data s
  | .mirrorTimeout u => Sys2Proof.Machine.execMirrorTimeout u s
  | .returnDecoderEnable k v => Sys2Proof.Machine.execReturnDecoderEnable k v s
  | .pictureClose => Sys2Proof.Machine.execPictureClose s
  | .presentationTime => Sys2Proof.Machine.execPresentationTime s
  | .returnTimeLimit => Sys2Proof.Machine.execReturnTimeLimit s
  | .pathSkewExpiry => Sys2Proof.Machine.execPathSkewExpiry s
  | .tb1PictureStart => Sys2Proof.Machine.execTb1PictureStart s
  | .losAssert u l => Sys2Proof.Machine.execLosAssert u l s
  | .losRelease u l => Sys2Proof.Machine.execLosRelease u l s
  | .lolAssert u l => Sys2Proof.Machine.execLolAssert u l s
  | .blockRx u l b => Sys2Proof.Machine.execBlockRx u l b s
  | .signalDetect u l => Sys2Proof.Machine.execSignalDetect u l s
  | .wakeTimeout u l => Sys2Proof.Machine.execWakeTimeout u l s
  | .linePacketRx u l p => Sys2Proof.Machine.execLinePacketRx u l p s
  | .pictureDescriptorRx u l d => Sys2Proof.Machine.execPictureDescriptorRx u l d s
  | .phaseFaultClear => Sys2Proof.Machine.execPhaseFaultClear s
  | .portLinkUp p => Sys2Proof.Machine.execPortLinkUp p s
  | .portLinkDown p => Sys2Proof.Machine.execPortLinkDown p s
  | .frameRx p f => Sys2Proof.Machine.execFrameRx p f s
  | .arpRetry p ip => Sys2Proof.Machine.execArpRetry p ip s
  | .arpRefresh p ip => Sys2Proof.Machine.execArpRefresh p ip s
  | .addressAgeing mac => Sys2Proof.Machine.execAddressAgeing mac s
  | .receiveBufferEnqueue p => Sys2Proof.Machine.execReceiveBufferEnqueue p s
  | .frameTxStart p => Sys2Proof.Machine.execFrameTxStart p s
  | .shaperAdmit f => Sys2Proof.Machine.execShaperAdmit f s
  | .flowDrained f => Sys2Proof.Machine.execFlowDrained f s
  | .tokenReoffer f => Sys2Proof.Machine.execTokenReoffer f s
  | .sessionDescriptionRead k f => Sys2Proof.Machine.execSessionDescriptionRead k f s
  | .genlockEdge => Sys2Proof.Machine.execGenlockEdge s
  | .genlockEdgeMissing => Sys2Proof.Machine.execGenlockEdgeMissing s
  | .tb0Second => Sys2Proof.Machine.execTb0Second s
  | .syncOutPulse n => Sys2Proof.Machine.execSyncOutPulse n s
  | .ptpSyncRx p m => Sys2Proof.Machine.execPtpSyncRx p m s
  | .ptpFollowUpRx p m => Sys2Proof.Machine.execPtpFollowUpRx p m s
  | .ptpDelayReqSend p stampError => Sys2Proof.Machine.execPtpDelayReqSend p stampError s
  | .ptpDelayRespRx p m => Sys2Proof.Machine.execPtpDelayRespRx p m s
  | .ptpAnnounceRx p m => Sys2Proof.Machine.execPtpAnnounceRx p m s
  | .announceReceiptTimeout p => Sys2Proof.Machine.execAnnounceReceiptTimeout p s
  | .clockFault m => Sys2Proof.Machine.execClockFault m s
  | .dramRequest u ch waiting => Sys2Proof.Machine.execDramRequest u ch waiting s
  | .refreshInterval u ch queued => Sys2Proof.Machine.execRefreshInterval u ch queued s
  | .mr4Poll u rate tempChanged => Sys2Proof.Machine.execMr4Poll u rate tempChanged s
  | .hammerWindowClear u => Sys2Proof.Machine.execHammerWindowClear u s
  | .scrubPassStart u => Sys2Proof.Machine.execScrubPassStart u s
  | .selfRefreshEntry u => Sys2Proof.Machine.execSelfRefreshEntry u s
  | .selfRefreshCommit u => Sys2Proof.Machine.execSelfRefreshCommit u s
  | .selfRefreshExit u heldSince => Sys2Proof.Machine.execSelfRefreshExit u heldSince s
  | .zqLatch u => Sys2Proof.Machine.execZqLatch u s
  | .driftMeasure u drifted => Sys2Proof.Machine.execDriftMeasure u drifted s
  | .standbyRecentre => Sys2Proof.Machine.execStandbyRecentre s
  | .descriptorFetch u d start => Sys2Proof.Machine.execDescriptorFetch u d start s
  | .dmaBurst u d found => Sys2Proof.Machine.execDmaBurst u d found s
  | .descriptorComplete u d => Sys2Proof.Machine.execDescriptorComplete u d s
  | .landed u d => Sys2Proof.Machine.execLanded u d s
  | .dmaStallResume u d => Sys2Proof.Machine.execDmaStallResume u d s
  | .arm k => Sys2Proof.Machine.execArm k s
  | .trigger k => Sys2Proof.Machine.execTrigger k s
  | .release k => Sys2Proof.Machine.execRelease k s
  | .disarm k => Sys2Proof.Machine.execDisarm k s
  | .trigPinEdge n falling => Sys2Proof.Machine.execTrigPinEdge n falling s
  | .triggerTimeReached => Sys2Proof.Machine.execTriggerTimeReached s
  | .triggerTimeWrite k v => Sys2Proof.Machine.execTriggerTimeWrite k v s
  | .readoutStart k r => Sys2Proof.Machine.execReadoutStart k r s
  | .readoutAbort k r => Sys2Proof.Machine.execReadoutAbort k r s
  | .readoutResume k r => Sys2Proof.Machine.execReadoutResume k r s
  | .plannedSwitch k => Sys2Proof.Machine.execPlannedSwitch k s
  | .forcedSwitch k => Sys2Proof.Machine.execForcedSwitch k s
  | .lockout k => Sys2Proof.Machine.execLockout k s
  | .endLockout k => Sys2Proof.Machine.execEndLockout k s
  | .abandonPlannedSwitch k => Sys2Proof.Machine.execAbandonPlannedSwitch k s
  | .retryRepair k => Sys2Proof.Machine.execRetryRepair k s
  | .reversionLockWrite k v => Sys2Proof.Machine.execReversionLockWrite k v s
  | .unitFault u src => Sys2Proof.Machine.execUnitFault u src s
  | .arbiterLatch => Sys2Proof.Machine.execArbiterLatch s
  | .selectorSwitch p => Sys2Proof.Machine.execSelectorSwitch p s
  | .batonCheck u bytes => Sys2Proof.Machine.execBatonCheck u bytes s
  | .releaseReport pairs crc => Sys2Proof.Machine.execReleaseReport pairs crc s
  | .selfTestStep r => Sys2Proof.Machine.execSelfTestStep r s
  | .repairResetRelease => Sys2Proof.Machine.execRepairResetRelease s
  | .repairRetry => Sys2Proof.Machine.execRepairRetry s
  | .holdOffExpiry => Sys2Proof.Machine.execHoldOffExpiry s
  | .homeBootTimeout => Sys2Proof.Machine.execHomeBootTimeout s
  | .engineWatchdogExpiry u e => Sys2Proof.Machine.execEngineWatchdogExpiry u e s
  | .controllerWatchdogExpiry => Sys2Proof.Machine.execControllerWatchdogExpiry s
  | .unitRailFault u rail => Sys2Proof.Machine.execUnitRailFault u rail s
  | .unitClockFault u => Sys2Proof.Machine.execUnitClockFault u s
  | .sensorRead values => Sys2Proof.Machine.execSensorRead values s
  | .checkValueRecord j r => Sys2Proof.Machine.execCheckValueRecord j r s
  | .monitorClear k m v => Sys2Proof.Machine.execMonitorClear k m v s
  | .monitorSnapshot k m => Sys2Proof.Machine.execMonitorSnapshot k m s
  | .overflowListEmpty k => Sys2Proof.Machine.execOverflowListEmpty k s
  | .controllerRestart => Sys2Proof.Machine.execControllerRestart s
  | .powerOnReset => Sys2Proof.Machine.execPowerOnReset s
  | .rstNAssert ns => Sys2Proof.Machine.execRstNAssert ns s
  | .rstNRelease => Sys2Proof.Machine.execRstNRelease s
  | .resetSourceRelease code => Sys2Proof.Machine.execResetSourceRelease code s
  | .blockReset k mask => Sys2Proof.Machine.execBlockReset k mask s
  | .clockStable => Sys2Proof.Machine.execClockStable s
  | .clockStableTimeout where_ => Sys2Proof.Machine.execClockStableTimeout where_ s
  | .releaseStepDone => Sys2Proof.Machine.execReleaseStepDone s
  | .programPulseEnd => Sys2Proof.Machine.execProgramPulseEnd s
  | .eraseSuspendDone => Sys2Proof.Machine.execEraseSuspendDone s
  | .limitRecordCheck => Sys2Proof.Machine.execLimitRecordCheck s
  | .controllerImageCheck regions => Sys2Proof.Machine.execControllerImageCheck regions s
  | .dictionaryLoad => Sys2Proof.Machine.execDictionaryLoad s
  | .unitImageCheck u x => Sys2Proof.Machine.execUnitImageCheck u x s
  | .bootComplete u => Sys2Proof.Machine.execBootComplete u s
  | .stageStart => Sys2Proof.Machine.execStageStart s
  | .powerFailWarning cause => Sys2Proof.Machine.execPowerFailWarning cause s
  | .stageStop => Sys2Proof.Machine.execStageStop s
  | .inputReturn => Sys2Proof.Machine.execInputReturn s
  | .flushComplete => Sys2Proof.Machine.execFlushComplete s
  | .powerFailAreaErase => Sys2Proof.Machine.execPowerFailAreaErase s
  | .logSave => Sys2Proof.Machine.execLogSave s
  | .phaseFault j => Sys2Proof.Machine.execPhaseFault j s
  | .currentClamp => Sys2Proof.Machine.execCurrentClamp s
  | .telemetryFrameRx f => Sys2Proof.Machine.execTelemetryFrameRx f s
  | .telemetryLost => Sys2Proof.Machine.execTelemetryLost s
  | .plannerRun m => Sys2Proof.Machine.execPlannerRun m s
  | .planNow k m => Sys2Proof.Machine.execPlanNow k m s
  | .voltageStep die => Sys2Proof.Machine.execVoltageStep die s
  | .usdoTransfer r => Sys2Proof.Machine.execUsdoTransfer r s
  | .dictionaryDatagram p srcIp srcPort d => Sys2Proof.Machine.execDictionaryDatagram p srcIp srcPort d s
  | .transferTimeout k => Sys2Proof.Machine.execTransferTimeout k s
  | .clientSlotTimeout k => Sys2Proof.Machine.execClientSlotTimeout k s
  | .nmtStart => Sys2Proof.Machine.execNmtStart s
  | .nmtStop => Sys2Proof.Machine.execNmtStop s
  | .nmtEnterPreOperational => Sys2Proof.Machine.execNmtEnterPreOperational s
  | .resetNode => Sys2Proof.Machine.execResetNode s
  | .resetCommunication => Sys2Proof.Machine.execResetCommunication s
  | .busOffRecovery => Sys2Proof.Machine.execBusOffRecovery s
  | .canSyncRx => Sys2Proof.Machine.execCanSyncRx s
  | .heartbeat => Sys2Proof.Machine.execHeartbeat s
  | .emcySend => Sys2Proof.Machine.execEmcySend s
  | .windowOpenWrite k w => Sys2Proof.Machine.execWindowOpenWrite k w s
  | .windowOpenRead k w => Sys2Proof.Machine.execWindowOpenRead k w s
  | .windowCommit k w => Sys2Proof.Machine.execWindowCommit k w s
  | .windowAbandon k w => Sys2Proof.Machine.execWindowAbandon k w s
  | .windowData k w write data => Sys2Proof.Machine.execWindowData k w write data s
  | .windowTimeout w => Sys2Proof.Machine.execWindowTimeout w s
  | .firmwareEraseDone => Sys2Proof.Machine.execFirmwareEraseDone s
  | .programBufferRoom failed => Sys2Proof.Machine.execProgramBufferRoom failed s
  | .firmwareVerifyDone h => Sys2Proof.Machine.execFirmwareVerifyDone h s
  | .challengeRead k => Sys2Proof.Machine.execChallengeRead k s
  | .responseWrite k v => Sys2Proof.Machine.execResponseWrite k v s
  | .maintenanceLock k => Sys2Proof.Machine.execMaintenanceLock k s
  | .unlockAttemptBlockExpiry => Sys2Proof.Machine.execUnlockAttemptBlockExpiry s
  | .unlockExpiry => Sys2Proof.Machine.execUnlockExpiry s
  | .save k => Sys2Proof.Machine.execSave k s
  | .load k => Sys2Proof.Machine.execLoad k s
  | .errorListEmpty k => Sys2Proof.Machine.execErrorListEmpty k s
  | .lolRelease u l => Sys2Proof.Machine.execLolRelease u l s
  | .canBusOff => Sys2Proof.Machine.execCanBusOff s
  | .saveComplete => Sys2Proof.Machine.execSaveComplete s
  | .controllerRestartDone => Sys2Proof.Machine.execControllerRestartDone s
  | .wornDutyEnd die => Sys2Proof.Machine.execWornDutyEnd die s

end Sys2Proof.Machine
end

