-- ==== Sys2Proof/Machine/Idle.lean ====
section
/-! DEFINITION. One core cycle without a command: what the clocked parts of the block do at every cycle (log entry 1).
Everything that happens at a rarer instant (a tick, a refresh interval, a timeout) is a command of its own. -/

namespace Sys2Proof.Machine

/-- A reference cycle ends: TB0 advances by 10 ns × (1 + adj) (10_time.md R243), the shaper counts and the emission
ceilings gain their increment (09_flows.md R223, 08_network.md R210), and the meters fill (09_flows.md R234). -/
def referenceCycle (s : State) : State :=
  fillMeters (fillFlows { s with time := { s.time with
    tb0 := s.time.tb0 + (10 * 2 ^ 32 + s.time.adj).toNat } } 1) 1

/-- Each hour of power counts (16_power_ageing.md Table 16-9, 0x5C10:06). -/
def countHour (s : State) : State :=
  if s.now % (3600 * cyclesPerSec) = 0 then { s with planner := { s.planner with hours := s.planner.hours + 1 } } else s

/-- What has ended by now: output pulses (10_time.md R261), scrub passes (11_dram.md R278), the erase of a power-fail area
(16_power_ageing.md R390). -/
def endTimed (s : State) : State :=
  let t := finishScrub (finishScrub (fallPins s) .a) .b
  { t with flash := finishAreaErase t.flash t.now }

/-- A core cycle passes; REFCLK100 ticks once in 15 of them, counted from the module reset. -/
def idleCycle (s : State) : State :=
  let t : State := { s with now := s.now + 1 }
  let t1 := if (t.now - t.time.tb3Start) % cyclesPerRef = 0 then referenceCycle t else t
  endTimed (countHour t1)

end Sys2Proof.Machine
end

