-- ==== Sys2Proof/Safety.lean ====
section
/-! DEFINITION. The words that the statements are written in: a served request, what a client was answered, which register
words a command leaves alone, and the invariant of the block's bounded and sparse stores. -/

namespace Sys2Proof.Machine

/-- Client k's write of index i reaches its object: its route is served, its rights suffice and no power-fail warning is in
force (17_dictionary.md R408, R411; 16_power_ageing.md R389). -/
def Served (s : State) (k : Client) (i : Nat) : Prop := serves s k i = true ∧ writeGate s k i = none

/-- The last answer of client k. -/
def answered (t : State) (k : Client) : Option Answer := (t.clients.get k).answer

/-- Every register word but the listed ones is as before. -/
def RegsExcept (s t : State) (ks : List Nat) : Prop := ∀ k, k ∉ ks → regGet t k = regGet s k

/-- The words that recording an event may touch: records lost, the EMCY queue's status, the overflow list's status
(14_integrity.md R348, R353; 17_dictionary.md R409). -/
def eventKeys : List Nat := [key 0x5082 2, key 0x2002 8, kIntegrity]

/-- Every byte of a unit's DRAM reads as before. -/
def DramKept (s t : State) (u : UnitId) : Prop := ∀ a, dramByte (t.dram.get u) a = dramByte (s.dram.get u) a

/-- Both units' DRAM reads as before. -/
def DramSame (s t : State) : Prop := DramKept s t .a ∧ DramKept s t .b

/-- The delay list is sorted by the laps left (02_lap.md R47). -/
def TimersSorted (d : DispState) : Prop := d.timers.Pairwise fun a b => a.laps ≤ b.laps

/-- What a channel's part may still need: 120 bits for each CTU to come, 192 for each slice header to come, and the units
after the slices (05_pacer.md R118). -/
def partNeed (slices : Nat) (p : Part) : Nat :=
  120 * (p.ctus - p.done) + 192 * (slices - p.slicesBegun) + p.fixedLeft

/-- What an event at lane n of unit u leaves: every other lane of the unit, all lanes of the other unit, and everything but the
lanes, the links and the check-value units' expected ALIVE (07_sensor_lanes.md R165). -/
def OnlyLane (s t : State) (u : UnitId) (n : LaneId) : Prop :=
  (∀ m, m ≠ n → laneAt t u m = laneAt s u m) ∧ t.lanes.get u.other = s.lanes.get u.other ∧
    t = { s with lanes := t.lanes, links := t.links, cv := t.cv }

/-- What a trigger leaves of the capture: taken while ARMED, collection begins, or ends at once where the trigger picture is all
that is asked for; in every other state it is ignored and counted (12_translation_dma.md R300, R301). -/
def TriggerTaken (s t : State) : Prop :=
  (s.capture.mode = .armed → (t.capture.mode = .collecting ∨ t.capture.mode = .held) ∧
    (2 ≤ applied s (kCapture 3) → t.capture.mode = .collecting) ∧ t.capture.trigTb0 = s.time.tb0) ∧
  (s.capture.mode ≠ .armed → t.capture.mode = s.capture.mode ∧ t.capture.slots = s.capture.slots ∧
    (assocWf defaultOf s.regs = true → regGet s (kCapture 0x0E) < 2 ^ 32 - 1 →
      regGet t (kCapture 0x0E) = regGet s (kCapture 0x0E) + 1))

/-- Every byte of memory reads as before but those of the headers of the ring's slots, in the unit that acts (12_translation_dma.md R298, R301). -/
def OnlySlotHeaders (s t : State) : Prop :=
  t.dram.get (viewUnit s).other = s.dram.get (viewUnit s).other ∧
  ∀ a, (∀ r ∈ s.capture.slots, ∀ i, i < 64 → translate s (viewUnit s) 9 (r.slot * s.capture.slotBytes + i) true ≠ .ok a) →
    dramByte (t.dram.get (viewUnit s)) a = dramByte (s.dram.get (viewUnit s)) a

/-- What a fault of unit u with a source code leaves: of the active unit it waits for the arbiter, the first one reported; of the
other one, outside WARMING, FAILED and a repair in progress, it puts that unit into repair (13_relay.md R318, R330). -/
def FaultTaken (s t : State) (u : UnitId) (code : Nat) : Prop :=
  (s.relay.active = some u → t.relay = { s.relay with fault := s.relay.fault <|> some code } ∧
    t = { s with regs := t.regs, overflow := t.overflow, emcy := t.emcy, log := t.log, relay := t.relay, boot := t.boot }) ∧
  (s.relay.active ≠ some u → s.relay.mode ≠ .warming → s.relay.mode ≠ .failed → s.relay.repair = .none →
    t.relay.repair = .inReset s.now ∧ t.relay.repairUnit = u ∧ t.relay.active = s.relay.active ∧
    t.disp.get u.other = s.disp.get u.other ∧ t.dram.get u.other = s.dram.get u.other) ∧
  t.dict = s.dict ∧ t.chans = s.chans ∧ t.streams = s.streams ∧ t.flows = s.flows

/-- The module's configuration copies and its coding as before: the dictionary, channels, streams and flows. -/
def CodingKept (s t : State) : Prop :=
  t.dict = s.dict ∧ t.chans = s.chans ∧ t.streams = s.streams ∧ t.flows = s.flows

/-- A module reset from source c has been applied: every subsystem is in its cold-start state; the flash's limit record, the
planner's results, the power stage with rails it removed, the model's clock and the queue are as before; the source is asserted and is a cause
(15_reset.md R357, R359, Table 15-5). -/
def ModuleReset (s t : State) (c : Fin 4) : Prop :=
  t.rst.asserted.getLsbD c.val = true ∧ t.rst.causes.getLsbD c.val = true ∧ t.rst.step = 0 ∧ t.rst.limitChecked = false ∧
  t.dict = State.reset.dict ∧ t.chans = State.reset.chans ∧ t.streams = State.reset.streams ∧ t.flows = State.reset.flows ∧
  t.relay = State.reset.relay ∧ t.ctrl = State.reset.ctrl ∧ t.clients = State.reset.clients ∧ t.boot = bootCold s ∧
  t.emcy = State.reset.emcy ∧ t.atu = State.reset.atu ∧ t.dma = State.reset.dma ∧ t.maint = State.reset.maint ∧
  (s.rst.asserted &&& 0x0F = 0 → t.log.previous = s.log.records.take 1024) ∧ t.flash.limit = s.flash.limit ∧ t.flash.saved = s.flash.saved ∧
  t.stage = s.stage ∧ t.planner = { s.planner with lastEnd := none } ∧ t.now = s.now ∧ t.pending = s.pending

/-- The block's stores: every sparse store in canonical form, and the lists of events within the sizes the spec gives them
(14_integrity.md R348, R353; 17_dictionary.md R422). -/
structure StoresKept (s : State) : Prop where
  regs : assocWf defaultOf s.regs = true
  master : assocWf defaultOf s.dict.master = true
  shadowA : assocWf defaultOf s.dict.shadowA = true
  shadowB : assocWf defaultOf s.dict.shadowB = true
  applied : assocWf defaultOf s.dict.applied = true
  inUse : assocWf defaultOf s.dict.inUse = true
  memA : assocWf unlistedByte s.dram.a.mem = true
  memB : assocWf unlistedByte s.dram.b.mem = true
  lastAt : assocWf (fun _ => 0) s.emcy.lastAt = true
  noteAt : assocWf (fun _ => 0) s.emcy.noteAt = true
  overflow : s.overflow.length ≤ 64
  records : s.log.records.length ≤ 1024
  errors : s.emcy.errors.length ≤ 16

end Sys2Proof.Machine
end

