-- ==== Sys2Proof/Certificates/Slice0/Obligations.lean ====
section
/-! DEFINITION. The statements about the block, for the provers. -/

open Sys2Proof Sys2Proof.Machine


/-! ## The step, the tick, the task dispatcher (02_lap.md) -/

/-- The queue is first in, first out: a step runs the front command on the state with the queue's rest, and on an empty queue
lets one core cycle pass (log entry 1). -/
def Obligations.StepRunsFrontCommand : Prop :=
  (∀ (c : Instr) (rest : List Instr) (s : State), s.pending = c :: rest → step s = exec c { s with pending := rest }) ∧
  ∀ s : State, s.pending = [] → ∃ t, step s = .next t ∧ t.now = s.now + 1 ∧ t.pending = [] ∧ t.dict = s.dict ∧ t.lap = s.lap

/-- R47: a timer inserted into a list with room, with a count up to 16,777,215, takes its place behind the timers that expire no
later and before those that expire later; a count of 0 is taken as 1; the list stays sorted; nothing but that unit's dispatcher
changes. An insertion into a full list is refused: the list stays as it is, as it does where more than 16,777,215 laps are asked
for (log entry 54). R47, R45, R48: the first expired timer leaves the list and its flag is set in its task; every held flag
write is offered again, in order: one that its queue has room for is taken, the others stay held; a lap-deadline task ready for
a free engine runs on it; a lap-deadline task on its engine sets a flag of another task, or is refused where that task's class
queue is full; a task that gives up its engine waits again, and the engine stands idle where nothing else is ready. Only that
unit's dispatcher changes, and on the active unit the endpoint's refused datagrams are offered again (log entry 60). -/
def Obligations.TimersAndTasksRun : Prop :=
  (
  ∀ (u : UnitId) (task laps : Nat) (flag : Fin 32) (s : State),
    ((s.disp.get u).timers.length < 1024 → laps ≤ 16777215 → TimersSorted (s.disp.get u) →
      ∃ t pre post, exec (.timerInsert u task laps flag) s = .next t ∧ (s.disp.get u).timers = pre ++ post ∧
        (t.disp.get u).timers = pre ++ ⟨max 1 laps, task, flag⟩ :: post ∧ (∀ y ∈ pre, y.laps ≤ max 1 laps) ∧
        (∀ y ∈ post, max 1 laps < y.laps) ∧ TimersSorted (t.disp.get u) ∧
        t.disp.get u.other = s.disp.get u.other ∧ t = { s with disp := t.disp }) ∧
    (1024 ≤ (s.disp.get u).timers.length ∨ 16777215 < laps →
      ∃ t, exec (.timerInsert u task laps flag) s = .next t ∧ (t.disp.get u).timers = (s.disp.get u).timers ∧
        t.disp.get u.other = s.disp.get u.other ∧ t = { s with disp := t.disp })) ∧
  (
  (∀ (u : UnitId) (x : Timer) (rest : List Timer) (s : State),
    (s.disp.get u).timers = x :: rest → x.laps = 0 → flagRefused (s.disp.get u) x.task x.flag = false →
    ∃ t, exec (.timerExpiry u) s = .next t ∧ (t.disp.get u).timers = rest ∧
      (∀ y ∈ (t.disp.get u).tasks, y.ident = x.task → y.flags.getLsbD x.flag.val = true) ∧
      t.disp.get u.other = s.disp.get u.other ∧ t = { s with disp := t.disp }) ∧
  (∀ (u : UnitId) (i : Nat) (f : Fin 32) (rest : List (Nat × Fin 32)) (s : State), (s.disp.get u).heldFlags = (i, f) :: rest →
    ∃ t, exec (.flagWriteRetry u) s = .next t ∧
      (flagRefused (s.disp.get u) i f = false → (t.disp.get u).heldFlags.Sublist rest ∧
        ∀ y ∈ (t.disp.get u).tasks, y.ident = i → y.flags.getLsbD f.val = true) ∧
      (flagRefused (s.disp.get u) i f = true → (t.disp.get u).heldFlags.head? = some (i, f)) ∧
      (t.disp.get u).timers = (s.disp.get u).timers ∧ t.disp.get u.other = s.disp.get u.other ∧ t = { s with disp := t.disp }) ∧
  (∀ (u : UnitId) (e : EngineId) (i : Nat) (x : TaskTurn) (s : State),
    firstReady (s.disp.get u) e 0 = some i → (s.disp.get u).running.get e = none →
    ∃ t, exec (.taskRun u e x) s = .next t ∧ (t.disp.get u).running.get e = some i ∧
      (t.disp.get u).timers = (s.disp.get u).timers ∧ t.disp.get u.other = s.disp.get u.other ∧
      (s.relay.active ≠ some u → t = { s with disp := t.disp }) ∧
      t = { s with regs := t.regs, overflow := t.overflow, disp := t.disp, ports := t.ports, flows := t.flows, counts := t.counts }) ∧
  (∀ (u : UnitId) (e : EngineId) (x : Task) (s : State),
    (s.disp.get u).running.get e = some x.ident → findTask (s.disp.get u) x.ident = some x → raisedFlags x = [] →
    (∀ k, k < 3 → firstReady (s.disp.get u) e k = none) → (s.disp.get u).saved.get e = [] → s.relay.active ≠ some u →
    ∃ t, exec (.taskRun u e ⟨[], true⟩) s = .next t ∧ (t.disp.get u).running.get e = none ∧
      (∀ y ∈ (t.disp.get u).tasks, y.ident = x.ident → y.status = .waiting) ∧
      t.disp.get u.other = s.disp.get u.other ∧ t = { s with disp := t.disp }) ∧
  ∀ (u : UnitId) (e : EngineId) (x : Task) (i : Nat) (f : Fin 32) (s : State),
    (s.disp.get u).running.get e = some x.ident → findTask (s.disp.get u) x.ident = some x → x.cls = 0 → s.relay.active ≠ some u →
    ∃ t, exec (.taskRun u e ⟨[(i, f)], false⟩) s = .next t ∧ (t.disp.get u).running = (s.disp.get u).running ∧
      (flagRefused (s.disp.get u) i f = false →
        (∀ y ∈ (t.disp.get u).tasks, y.ident = i → y.flags.getLsbD f.val = true) ∧
        (∀ y ∈ (t.disp.get u).tasks, y.ident = x.ident → y.refused = false)) ∧
      (flagRefused (s.disp.get u) i f = true → ∀ y ∈ (t.disp.get u).tasks, y.ident = x.ident → y.refused = true) ∧
      t = { s with regs := t.regs, disp := t.disp })


/-! ## Coding (02_lap.md, 04_prediction.md, 05_pacer.md, 06_decoders.md) -/

/-- R88: the outstanding rows of a channel's window arrive: those of earlier laps enter its ring first, and the window operand
of an inter stripe that waited for them is posted; otherwise the row asked for in this lap enters the ring; where a read of them
was poisoned none has arrived (11_dram.md R277). R39: the first job with its four operands leaves the matching store and its
part begins with the channel's share of the budget; without such a job nothing fires. -/
def Obligations.OperandsArriveAndJobsFire : Prop :=
  (∀ (c : Chan) (n : StreamId) (s : State),
    ∃ t, exec (.windowFetchDone c n) s = .next t ∧
      (s.streams[n].search.spoiled[c] = true → t = s) ∧
      (s.streams[n].search.spoiled[c] = false → s.streams[n].search.late[c] = true →
        t.streams[n].search = takeOwed s n s.streams[n].search c ∧
        ∀ k, s.streams[n].coding = some k → k.kind = .inter → carries s c n = true → windowReady t n k.pic k.row c = true →
          (∃ j ∈ (t.disp.get (jobUnit s n)).jobs.get c, j.stream = n ∧ j.stripe = k.stripe ∧ j.window = true) ∨
          ∃ h ∈ (t.disp.get (jobUnit s n)).heldJobs, h.1 = c ∧ h.2.stream = n ∧ h.2.stripe = k.stripe ∧ h.2.window = true) ∧
      (s.streams[n].search.spoiled[c] = false → s.streams[n].search.late[c] = false →
        t.streams[n].search = takeAsked s n s.streams[n].search c ∧ t.disp = s.disp) ∧
      t.streams[n].coding = s.streams[n].coding ∧ (∀ m, m ≠ n → t.streams[m] = s.streams[m]) ∧
      t = { s with streams := t.streams, disp := t.disp }) ∧
  (∀ (c : Chan) (j : Job) (s : State), (jobsOf s c).find? jobReady = some j →
    ∃ t, exec (.stripeJobFire c) s = .next t ∧
      (s.disp.a.heldJobs = [] → s.disp.b.heldJobs = [] →
        jobsOf t c = (jobsOf s c).filter (fun i => decide (i.stream ≠ j.stream ∨ i.stripe ≠ j.stripe))) ∧
      (∀ k, s.streams[j.stream].coding = some k → k.stripe = j.stripe →
        ∃ k' p, t.streams[j.stream].coding = some k' ∧ k'.stripe = k.stripe ∧ k'.parts.get c = some p ∧ p.done = 0 ∧
          p.ctus = partCols s j.stream c ∧ p.budget = k.shares.get c ∧ p.lastQp = k.qp ∧ p.window = j.window ∧
          ∀ d, d ≠ c → k'.parts.get d = k.parts.get d) ∧
      (∀ m, m ≠ j.stream → t.streams[m] = s.streams[m]) ∧
      t = { s with regs := t.regs, streams := t.streams, disp := t.disp }) ∧
  ∀ (c : Chan) (s : State), (jobsOf s c).find? jobReady = none → exec (.stripeJobFire c) s = .next s

/-- R40, R115: the budget step of a stripe whose budget has not come takes the grant of the Pacer: QP, budget, shares and
reservation of the stripe, and the Pacer's own last QP, last budget and last shares. A second one changes no budget; without a
stripe in coding nothing is granted. The relay and the DRAM's self-refresh may change only while a planned switch drains
(13_relay.md R326). R41: at T + 64 every stripe of the lap has a budget, that of the previous lap standing in for one that has
not arrived, and every stripe job of the lap whose pixels are there has fired: its channel's part has begun. Before T + 64
nothing is forced. -/
def Obligations.BudgetsAreTakenAndGranted : Prop :=
  (
  (∀ (n : StreamId) (k : Coding) (s : State), s.streams[n].coding = some k → k.budgetHere = false →
    ∃ t k', exec (.budgetStep n) s = .next t ∧ t.streams[n].coding = some k' ∧ k'.budgetHere = true ∧
      k'.qp = (grantOf (noteLagging s n) n k).qp ∧ k'.budget = (grantOf (noteLagging s n) n k).budget ∧
      k'.shares = (grantOf (noteLagging s n) n k).shares ∧ k'.withheld = (grantOf (noteLagging s n) n k).withheld ∧
      k'.reserved = (if k'.withheld then 0 else reserveBytes (noteLagging s n) n k k'.budget) ∧
      t.streams[n].pacer.lastQp = k'.qp ∧ t.streams[n].pacer.prevBudget = k'.budget ∧ t.streams[n].pacer.prevShare = k'.shares ∧
      t.streams[n].pacer.cold = false ∧ (∀ m, m ≠ n → t.streams[m] = s.streams[m]) ∧
      (s.relay.mode ≠ .draining → t.relay = s.relay ∧ t.dram = s.dram ∧ t.free = s.free) ∧
      t = { s with regs := t.regs, overflow := t.overflow, emcy := t.emcy, log := t.log, streams := t.streams,
                   flows := t.flows, counts := t.counts, disp := t.disp, relay := t.relay, dram := t.dram, free := t.free }) ∧
  (∀ (n : StreamId) (k : Coding) (s : State), s.streams[n].coding = some k → k.budgetHere = true →
    ∃ t, exec (.budgetStep n) s = .next t ∧ (∀ u, (t.disp.get u).jobs = (s.disp.get u).jobs ∧ (t.disp.get u).timers = (s.disp.get u).timers) ∧
      t = { s with disp := t.disp }) ∧
  ∀ (n : StreamId) (s : State), s.streams[n].coding = none → exec (.budgetStep n) s = .next s) ∧
  (
  (∀ s : State, s.lap.lastTick + 64 ≤ s.now → 0 < s.lap.period →
    ∃ t, exec .operandDeadline s = .next t ∧
      (∀ (n : StreamId) (k : Coding), t.streams[n].coding = some k → k.codedAt = s.lap.count → k.budgetHere = true) ∧
      (∀ (c : Chan) (j : Job) (k : Coding), j ∈ jobsOf s c → j.pixels = true → t.streams[j.stream].coding = some k →
        k.stripe = j.stripe → (k.parts.get c).isSome = true) ∧
      (s.relay.mode ≠ .draining → t.relay = s.relay ∧ t.dram = s.dram ∧ t.free = s.free) ∧
      t = { s with regs := t.regs, overflow := t.overflow, emcy := t.emcy, log := t.log, streams := t.streams,
                   flows := t.flows, counts := t.counts, disp := t.disp, relay := t.relay, dram := t.dram, free := t.free }) ∧
  ∀ s : State, s.now < s.lap.lastTick + 64 ∨ s.lap.period = 0 → exec .operandDeadline s = .next s)

/-- R118: a CTU is coded, floor-coded or replaced so that the part's bits and all it may still need stay within the channel's
budget; one CTU more is done. The condition on slices says only that a slice that opens is one of the part's slices. -/
def Obligations.CtuKeepsPartWithinBudget : Prop :=
  ∀ (c : Chan) (n : StreamId) (x : CtuContent) (k : Coding) (p : Part) (s : State),
    s.streams[n].coding = some k → k.parts.get c = some p → p.done < p.ctus →
    (opensSlice (sliceList s n c) p.done = true → p.slicesBegun < slicesNow s n c) →
    p.spent + partNeed (slicesNow s n c) p ≤ p.budget →
    ∃ t k' p', exec (.ctuCode c n x) s = .next t ∧ t.streams[n].coding = some k' ∧ k'.parts.get c = some p' ∧
      p'.done = p.done + 1 ∧ p'.ctus = p.ctus ∧ p'.budget = p.budget ∧
      p'.spent + partNeed (slicesNow s n c) p' ≤ p'.budget ∧
      (∀ d, d ≠ c → k'.parts.get d = k.parts.get d) ∧ (∀ m, m ≠ n → t.streams[m] = s.streams[m]) ∧
      (∀ d, d ≠ c → t.chans.get d = s.chans.get d) ∧ DramSame s t ∧
      t = { s with regs := t.regs, overflow := t.overflow, chans := t.chans, streams := t.streams, dram := t.dram }

/-- R120, R33: a stripe whose parts are finished and whose slices have their NAL units joins the stripes in flight; it is due
for release after the stream's release laps, and its bits count every NAL unit and the filler. A stripe with a part still to be
coded stays in coding. -/
def Obligations.CodedStripeJoinsFlight : Prop :=
  (∀ (n : StreamId) (k : Coding) (x : CodedStripe) (s : State),
    s.streams[n].coding = some k → stripeWhole s n k x = true →
    ∃ t st, exec (.stripeCoded n x) s = .next t ∧ t.streams[n].coding = none ∧
      t.streams[n].flight = s.streams[n].flight ++ [st] ∧ st.row = k.row ∧ st.picture = k.pic.number ∧
      st.due = k.codedAt + releaseLaps s n ∧
      st.bits = unitBits (unitSizes k.lead) + unitBits (x.slices.map List.length) + unitBits st.tail + 8 * st.filler ∧ st.withheld = k.withheld ∧
      st.judged = false ∧ st.released = false ∧ (∀ m, m ≠ n → t.streams[m] = s.streams[m]) ∧
      t = { s with regs := t.regs, overflow := t.overflow, chans := t.chans, streams := t.streams, flows := t.flows }) ∧
  ∀ (n : StreamId) (x : CodedStripe) (s : State), (∀ k, s.streams[n].coding = some k → stripeWhole s n k x = false) →
    exec (.stripeCoded n x) s = .next s

/-- R134, R135: what a verified segment says becomes the verdict of its slices: good where both CRC pairs agree and no error was
met, bad with its cause where they differ or an error was met, one with a poisoned read (11_dram.md R277) and one beyond the bin
bound of Table 6-4 among them, unverified with cause 4 at the time limit and with cause 6 where verification is off. A
suppressed write is a fault of the active unit (R146). The verifier of the channel holds its own copy of the rows the slice
predicts from before it decodes it (R132); a segment of a row that awaits no verdict in this lap, or whose rows have not come,
changes nothing. A differing egress byte check is counted, its token is to be superseded, and the active unit is reported faulty
(R137). -/
def Obligations.VerificationJudgesSlices : Prop :=
  (∀ (c : Chan) (n : StreamId) (x : SegmentResult) (s : State), awaitsVerdict s n x.stripe = true → verifierReady s n x.stripe c = true →
    ∃ t v, exec (.segmentVerified c n x) s = .next t ∧
      t.streams[n].flight = s.streams[n].flight.map (judgeSegment s.lap.count c x v) ∧
      (s.chans[c].verifyOn = false → v = some (.unverified 6)) ∧
      (s.chans[c].verifyOn = true → x.error = some .e6 → v = some (.unverified 4)) ∧
      (∀ e, s.chans[c].verifyOn = true → x.error = some e → e ≠ .e6 → v = some (.bad 3)) ∧
      (s.chans[c].verifyOn = true → x.error = none → s.chans[c].spoiled = true ∨ binLimit s n < x.bins → v = some (.bad 3)) ∧
      (s.chans[c].verifyOn = true → x.error = none → s.chans[c].spoiled = false → x.bins ≤ binLimit s n →
        (preCrc s n x.stripe x.encoder ≠ preCrc s n x.stripe x.decoder → v = some (.bad 1)) ∧
        (preCrc s n x.stripe x.encoder = preCrc s n x.stripe x.decoder →
          settledCrc s n x.stripe x.encoder ≠ settledCrc s n x.stripe x.decoder → v = some (.bad 2)) ∧
        (preCrc s n x.stripe x.encoder = preCrc s n x.stripe x.decoder →
          settledCrc s n x.stripe x.encoder = settledCrc s n x.stripe x.decoder → v = some .good)) ∧
      (∀ m, m ≠ n → t.streams[m] = s.streams[m]) ∧
      (x.suppressed = true → s.relay.active.isSome = true → t.relay.fault.isSome = true) ∧
      (x.suppressed = false ∨ s.relay.active.isSome = true →
        t.chans[c] = { s.chans[c] with spoiled := false, doneAt := some s.now } ∧ (∀ d, d ≠ c → t.chans[d] = s.chans[d]) ∧
        t = { s with regs := t.regs, overflow := t.overflow, emcy := t.emcy, log := t.log, streams := t.streams, chans := t.chans,
                     relay := t.relay }) ∧
      (x.suppressed = false → t.relay = s.relay ∧ t.emcy = s.emcy ∧ t.log = s.log)) ∧
  (∀ (c : Chan) (n : StreamId) (x : SegmentResult) (s : State), awaitsVerdict s n x.stripe = false ∨ verifierReady s n x.stripe c = false →
    exec (.segmentVerified c n x) s = .next s) ∧
  (∀ (c : Chan) (n : StreamId) (stripe slice : Nat) (a b : List Byte) (k : Stripe) (l : Slice) (s : State),
    departed s.streams[n] stripe slice = some (k, l) → l.chan = c → crc32c a ≠ crc32c b → s.relay.active.isSome = true →
    ∃ t, exec (.egressByteCheck c n stripe slice a b) s = .next t ∧
      t.streams[n].supersede = s.streams[n].supersede ++ [(k, slice)] ∧ t.relay.fault.isSome = true ∧
      (∀ m, m ≠ n → t.streams[m] = s.streams[m]) ∧
      t = { s with regs := t.regs, overflow := t.overflow, emcy := t.emcy, log := t.log, streams := t.streams,
                   relay := t.relay }) ∧
  ∀ (c : Chan) (n : StreamId) (stripe slice : Nat) (a b : List Byte) (s : State),
    departed s.streams[n] stripe slice = none ∨ crc32c a = crc32c b → exec (.egressByteCheck c n stripe slice a b) s = .next s

/-- R94, R105: in every state GLOBAL_VECTOR_ESTIMATE completes: after a picture's last stripe of an inter stream the estimates
of its reference-0 vectors, with the shares of all its inter blocks, wait for the second picture after it, once; otherwise it
changes nothing. In every state ROI_TRACK_UPDATE completes: each tracking rectangle of the stream takes a displacement, the null
one where fewer than 4 of the picture's blocks lie in it, and moves from the second picture after it (log entry 78); before a
picture is finished, and of an intra stream, it changes nothing. -/
def Obligations.VectorsOfFinishedPicture : Prop :=
  (∀ (n : StreamId) (s : State), ∃ t, exec (.globalVectorEstimate n) s = .next t ∧ t = { s with streams := t.streams } ∧
      (∀ m, m ≠ n → t.streams[m] = s.streams[m]) ∧
      t.streams[n] = { s.streams[n] with search := { s.streams[n].search with pending := t.streams[n].search.pending } } ∧
      (intraOnly s n = false → s.streams[n].search.finishedPicture ≠ 0 →
        (s.streams[n].search.pending.any fun p => decide (p.1 = s.streams[n].search.finishedPicture + 2)) = false →
        t.streams[n].search.pending = s.streams[n].search.pending ++
          [(s.streams[n].search.finishedPicture + 2, estimateVectors s.streams[n].search.finished.length
            ((firstRefBlocks s.streams[n].search.finished).map intVector))]) ∧
      (intraOnly s n = true ∨ s.streams[n].search.finishedPicture = 0 ∨
        (s.streams[n].search.pending.any fun p => decide (p.1 = s.streams[n].search.finishedPicture + 2)) = true → t = s)) ∧
  ∀ (n : StreamId) (s : State), ∃ t, exec (.roiTrackUpdate n) s = .next t ∧ t = { s with rois := t.rois } ∧
      (∀ c, c ≠ leadChan s n → t.rois.get c = s.rois.get c) ∧
      (∀ r, ((t.rois.get (leadChan s n)).get r).pos = ((s.rois.get (leadChan s n)).get r).pos) ∧
      (∀ r, intraOnly s n = false → s.streams[n].search.finishedPicture ≠ 0 →
        applied s (kRect (leadChan s n) r 1) = 1 → applied s (kRect (leadChan s n) r 7) = 1 → rectStream s (leadChan s n) r = some n →
        ((blocksIn s n (leadChan s n) r s.streams[n].search.finished).length < 4 →
          ((t.rois.get (leadChan s n)).get r).displacement = ⟨0, 0⟩) ∧
        (4 ≤ (blocksIn s n (leadChan s n) r s.streams[n].search.finished).length →
          (s.streams[n].search.finishedPicture + 2, ((t.rois.get (leadChan s n)).get r).displacement) ∈
            ((t.rois.get (leadChan s n)).get r).moves)) ∧
      (intraOnly s n = true ∨ s.streams[n].search.finishedPicture = 0 → t = s)


/-! ## Channels, commit groups, QP maps, object writes (02_lap.md, 03_streams.md, 04_prediction.md, 17_dictionary.md) -/

/-- R403, R425: a served write of an object that does not exist, of a sub-index that does not exist, of a read-only object, of
the wrong length or of a value out of range is answered with the abort for it and changes nothing but the client's slot (and, of
the unlocking client, the time of its last write). -/
def Obligations.RefusedWritesChangeNothing : Prop :=
  ∀ (k : Client) (i sub : Nat) (data : List Byte) (s : State), Served s k i →
    (rowsOf i = [] → exec (.objectWrite k i sub data) s = .next (answer (touchClient s k) k (.abort .noObject))) ∧
    (rowsOf i ≠ [] → rowOf i sub = none →
      exec (.objectWrite k i sub data) s = .next (answer (touchClient s k) k (.abort .noSub))) ∧
    ∀ r, rowsOf i ≠ [] → rowOf i sub = some r →
      (r.acc = .ro → (i < 0x5800 ∨ 0x5810 ≤ i) →
        exec (.objectWrite k i sub data) s = .next (answer (touchClient s k) k (.abort .readOnly))) ∧
      (r.acc ≠ .ro → isBulk i sub r = false → data.length ≠ r.ty.bytes →
        exec (.objectWrite k i sub data) s = .next (answer (touchClient s k) k (.abort .lengthMismatch))) ∧
      (r.acc ≠ .ro → isBulk i sub r = false → data.length = r.ty.bytes → r.rng.holds r.ty.bits (leNat data) = false →
        exec (.objectWrite k i sub data) s = .next (answer (touchClient s k) k (.abort .outOfRange)))

/-- R130: a write of QP limits with a minimum above the maximum or a maximum above 51, one that makes Brim and relay reserve
exceed 500 together, a value held in the open commit group counting as written (log entry 58), and a fullness goal above 1,000
are refused with an access error and change nothing but the client's slot. -/
def Obligations.PacerValuesAreChecked : Prop :=
  ∀ (k : Client) (n : StreamId) (data : List Byte) (s : State), Served s k (0x3800 + n.val) → data.length = 2 →
    (leNat data / 256 < leNat data % 256 ∨ 51 < leNat data / 256 →
      ∃ t, exec (.objectWrite k (0x3800 + n.val) 5 data) s = .next t ∧ answered t k = some (.abort .presentState) ∧
        t = { s with clients := t.clients, maint := t.maint }) ∧
    (500 < leNat data + besideValue s k (kPacer n 7) →
      ∃ t, exec (.objectWrite k (0x3800 + n.val) 6 data) s = .next t ∧ answered t k = some (.abort .presentState) ∧
        t = { s with clients := t.clients, maint := t.maint }) ∧
    (500 < leNat data + besideValue s k (kPacer n 6) →
      ∃ t, exec (.objectWrite k (0x3800 + n.val) 7 data) s = .next t ∧ answered t k = some (.abort .presentState) ∧
        t = { s with clients := t.clients, maint := t.maint }) ∧
    (1000 < leNat data →
      ∃ t, exec (.objectWrite k (0x3800 + n.val) 8 data) s = .next t ∧ answered t k = some (.abort .presentState) ∧
        t = { s with clients := t.clients, maint := t.maint })

/-- R51, R404, R405: a served write of an RW object that nothing refuses and that commands nothing is stored in the master copy
and in the shadow of each unit present, and acknowledged; one of an RWL object is stored while its channels are stopped and
refused while one runs, and changes no value in effect before the next channel start; one of an RWS object outside a group
counts from now. -/
def Obligations.PlainWritesAreStoredOrCounted : Prop :=
  ∀ (k : Client) (i sub : Nat) (data : List Byte) (r : ObjRow) (s : State),
    Served s k i → rowsOf i ≠ [] → rowOf i sub = some r → isBulk i sub r = false → data.length = r.ty.bytes →
    leNat data < 2 ^ r.ty.bits → r.rng.holds r.ty.bits (leNat data) = true →
    valueRefused (touchClient s k) k i sub (leNat data) = none →
    commandWrite k i sub (leNat data) data (touchClient s k) = none → r.clear = 0 →
    (r.acc = .rw ∨ (r.acc = .rwl ∧ rwlBusy s i sub = false) →
      ∃ t, exec (.objectWrite k i sub data) s = .next t ∧ answered t k = some .ack ∧
        (assocWf defaultOf s.dict.master = true → written t (key i sub) = leNat data) ∧
        (∀ j, j ≠ key i sub → written t j = written s j) ∧ t.dict.inUse = s.dict.inUse ∧ t.dict.counted = s.dict.counted ∧
        t.dict.applied = s.dict.applied ∧ t.chans = s.chans) ∧
    (r.acc = .rwl → rwlBusy s i sub = true →
      exec (.objectWrite k i sub data) s = .next (answer (touchClient s k) k (.abort .presentState))) ∧
    (r.acc = .rws → s.dict.group = none → ∃ t, exec (.objectWrite k i sub data) s = .next t ∧ answered t k = some .ack ∧
      t.dict.counted = s.dict.counted ++ [⟨key i sub, leNat data, s.now, false⟩] ∧
      (assocWf defaultOf s.dict.master = true → written t (key i sub) = leNat data) ∧ t.dict.applied = s.dict.applied ∧
      t = { s with dict := t.dict, clients := t.clients, maint := t.maint })

/-- R53, R54: opening, committing and abandoning a commit group. Committed writes count from this cycle in their order;
abandoned ones are gone; a group open already, or of another client, refuses the command. R54: a group not committed within 10 s
of its opening is abandoned, none of its writes counting; before that nothing happens. -/
def Obligations.CommitGroupsCommitAbandonOrTimeOut : Prop :=
  (
  ∀ (k : Client) (s : State), Served s k 0x2500 →
    (s.dict.group = none → exec (.groupOpen k) s = .next (answer { touchClient s k with
        dict := { s.dict with group := some ⟨k, s.now, []⟩ } } k .ack)) ∧
    (s.dict.group.isSome = true → exec (.groupOpen k) s = .next (answer s k (.abort .presentState))) ∧
    (∀ g, s.dict.group = some g → g.owner = k →
      (∃ t, exec (.groupCommit k) s = .next t ∧ answered t k = some .ack ∧ t.dict.group = none ∧
        t.dict.counted = s.dict.counted ++ g.writes.map (fun w => ⟨w.1, w.2, s.now, isPerPicture w.1⟩) ∧
        t.dict.applied = s.dict.applied ∧ t = { s with dict := t.dict, clients := t.clients, maint := t.maint }) ∧
      exec (.groupAbandon k) s = .next (answer { touchClient s k with dict := { s.dict with group := none } } k .ack)) ∧
    (∀ g, s.dict.group = some g → g.owner ≠ k →
      exec (.groupCommit k) s = .next (answer s k (.abort .presentState)) ∧
      exec (.groupAbandon k) s = .next (answer s k (.abort .presentState)))) ∧
  (
  ∀ (g : Group) (s : State), s.dict.group = some g →
    (g.openedAt + 10 * cyclesPerSec ≤ s.now →
      ∃ t, exec .groupTimeout s = .next t ∧ t.dict = { s.dict with group := none } ∧
        (assocWf defaultOf s.regs = true → flag t (key 0x2500 0x0E) 29 = true) ∧
        t = { s with dict := t.dict, regs := t.regs, overflow := t.overflow, emcy := t.emcy, log := t.log }) ∧
    (s.now < g.openedAt + 10 * cyclesPerSec → exec .groupTimeout s = .next s))

/-- R81, R82: run control. A served start of a stopped or refused channel takes the values that wait for it (R83) and leaves it
starting where every check of R36 passes, and refused, with the values in effect as before, otherwise; one that starts or runs
is left as it is, one that is stopping, or a module without an active unit, refuses (log entry 35); a starting channel runs from
the first picture that starts after its admission; a stop leaves a running channel of the gang stopping; a stopping channel
whose stripes are all released is stopped. R138, R419: the verification enable of a channel is written only by the client that
holds the maintenance unlock. -/
def Obligations.RunControlAndVerifyEnable : Prop :=
  (
  (∀ (k : Client) (c : Chan) (loads : List AtuLoad) (s x : State), Served s k (0x3000 + 0x100 * c.val) →
    x = takeValues (storeValue (touchClient s k) (kChan c 0x3000 1) 1) c →
    ((s.chans.get c).mode = .stopped ∨ (s.chans.get c).mode = .refused) → s.relay.active.isSome = true →
    ∃ t, exec (.channelStart k c loads) s = .next t ∧ answered t k = some .ack ∧
      (t.chans.get c).mode = (if (startChecks x c).2 then .starting else .refused) ∧
      t.dict.inUse = (if (startChecks x c).2 then x.dict.inUse else s.dict.inUse) ∧
      (∀ d, d ≠ c → t.chans.get d = s.chans.get d) ∧
      ((startChecks x c).2 = false →
        t = { s with dict := t.dict, regs := t.regs, chans := t.chans, streams := t.streams, clients := t.clients, maint := t.maint })) ∧
  (∀ (k : Client) (c : Chan) (loads : List AtuLoad) (s : State), Served s k (0x3000 + 0x100 * c.val) →
    ((s.chans.get c).mode = .starting ∨ (s.chans.get c).mode = .running →
      exec (.channelStart k c loads) s = .next (answer (touchClient s k) k .ack)) ∧
    ((s.chans.get c).mode = .stopping ∨ ((s.chans.get c).mode = .stopped ∧ s.relay.active = none) →
      exec (.channelStart k c loads) s = .next (answer (touchClient s k) k (.abort .presentState)))) ∧
  (∀ (c : Chan) (s : State), inFirstLap s = true → s.lap.dropped = false → phaseSettled s = true →
    s.relay.active.isSome = true → (s.chans.get c).mode = .starting → (s.chans.get c).startedAt < s.lap.lastTick →
    ∃ t, exec .channelBegin s = .next t ∧ (t.chans.get c).mode = .running) ∧
  (∀ (k : Client) (c : Chan) (s : State), Served s k (0x3000 + 0x100 * c.val) → (s.chans.get c).mode = .running →
    ∃ t, exec (.channelStop k c) s = .next t ∧ answered t k = some .ack ∧ (t.chans.get c).mode = .stopping ∧
      (∀ d, d ∉ gangOf s c → t.chans.get d = s.chans.get d) ∧
      t = { s with dict := t.dict, regs := t.regs, chans := t.chans, clients := t.clients, maint := t.maint }) ∧
  (∀ (k : Client) (c : Chan) (s : State), Served s k (0x3000 + 0x100 * c.val) → (s.chans.get c).mode = .starting →
    ∃ t, exec (.channelStop k c) s = .next t ∧ answered t k = some .ack ∧ (t.chans.get c).mode = .stopped) ∧
  (∀ s : State, inFirstLap s = false → exec .channelBegin s = .next s) ∧
  (∀ (c : Chan) (s : State), (s.chans.get c).mode ≠ .stopping ∨ channelDone s c = false → exec (.channelStopped c) s = .next s) ∧
  ∀ (c : Chan) (s : State), (s.chans.get c).mode = .stopping → channelDone s c = true →
    ∃ t, exec (.channelStopped c) s = .next t ∧ (t.chans.get c).mode = .stopped ∧
      ∀ n, carries s c n = true → (t.streams.get n).active = false) ∧
  (
  ∀ (k : Client) (c : Chan) (v : Nat) (s : State), Served s k (0x3002 + 0x100 * c.val) →
    (s.maint.owner = some k → v ≤ 1 →
      ∃ t, exec (.verifyEnableWrite k c v) s = .next t ∧ answered t k = some .ack ∧
        (t.chans.get c).verifyOn = decide (v = 1) ∧ (∀ d, d ≠ c → t.chans.get d = s.chans.get d) ∧
        t = { s with dict := t.dict, chans := t.chans, clients := t.clients, maint := t.maint }) ∧
    (s.maint.owner ≠ some k → exec (.verifyEnableWrite k c v) s = .next (answer s k (.abort .localControl))))

/-- R101, R106: a QP map is loaded through the lead channel's copy: a begin empties the back map, data of legal entries is
appended, a commit of exactly the map size waits for its exchange, a discard empties the back map, at once or, where the pending
exchange has passed its boundary, at that exchange. The map in use stays as it is. -/
def Obligations.QpMapLoads : Prop :=
  ∀ (k : Client) (c : Chan) (n : StreamId) (s : State), Served s k (mapIndex c n) → writtenLead s n = c →
    (s.streams[n].map.mode ≠ .commitPending →
      ∃ t, exec (.mapLoadBegin k c n) s = .next t ∧ answered t k = some .ack ∧
        t.streams[n].map = { s.streams[n].map with mode := .loading, back := [] }) ∧
    (∀ data, s.streams[n].map.mode = .loading → s.streams[n].map.back.length + data.length ≤ 2097152 →
      (data.all fun b => decide (b.toNat ≤ 115)) = true →
      ∃ t, exec (.mapData k c n data) s = .next t ∧ answered t k = some .ack ∧
        t.streams[n].map = { s.streams[n].map with back := s.streams[n].map.back ++ data }) ∧
    (s.streams[n].map.mode = .loading → s.streams[n].map.back.length = s.streams[n].map.size →
      ∃ t, exec (.mapCommit k c n) s = .next t ∧ answered t k = some .ack ∧
        t.streams[n].map = { s.streams[n].map with mode := .commitPending, commitAt := s.now, dropBack := false }) ∧
    (s.streams[n].map.mode = .loading → s.streams[n].map.back.length ≠ s.streams[n].map.size →
      exec (.mapCommit k c n) s = .next (answer s k (.abort .presentState))) ∧
    (exchangeImminent s n = false ∨ s.streams[n].map.mode ≠ .commitPending →
      ∃ t, exec (.mapDiscard k c n) s = .next t ∧ answered t k = some .ack ∧ t.streams[n].map.back = [] ∧
        t.streams[n].map.front = s.streams[n].map.front ∧
        t.streams[n].map.mode = (if s.streams[n].map.front.isSome then .inUse else .none)) ∧
    (exchangeImminent s n = true → s.streams[n].map.mode = .commitPending →
      ∃ t, exec (.mapDiscard k c n) s = .next t ∧ answered t k = some .ack ∧
        t.streams[n].map = { s.streams[n].map with dropBack := true })


/-! ## Return decoder, monitor output, TB1 (06_decoders.md, 10_time.md) -/

/-- R153, R160: writing 1 to the return decoder's enable starts it empty with the written settings; writing 0 stops it and
empties the picture buffer; another value is refused. -/
def Obligations.ReturnDecoderEnableStartsEmpty : Prop :=
  ∀ (k : Client) (s : State), Served s k 0x4800 →
    (s.ret.enabled = false → ∃ t, exec (.returnDecoderEnable k 1) s = .next t ∧ answered t k = some .ack ∧
      t.ret.enabled = true ∧ t.ret.setting = returnSettings s ∧ t.ret.decoded = [] ∧ t.ret.current = none ∧
      t.ret.sets = [] ∧ t.ret.reorder = [] ∧ t.ret.bumped = [] ∧
      t = { s with dict := t.dict, regs := t.regs, overflow := t.overflow, ret := t.ret, ports := t.ports, flows := t.flows,
                   counts := t.counts, clients := t.clients, maint := t.maint }) ∧
    (s.ret.enabled = true → ∃ t, exec (.returnDecoderEnable k 1) s = .next t ∧ answered t k = some .ack ∧
      t = { s with dict := t.dict, clients := t.clients, maint := t.maint }) ∧
    (∃ t, exec (.returnDecoderEnable k 0) s = .next t ∧ answered t k = some .ack ∧
      t.ret = { retReset with lastClass := s.ret.lastClass } ∧
      t = { s with dict := t.dict, ret := t.ret, clients := t.clients, maint := t.maint }) ∧
    ∀ v, 1 < v → exec (.returnDecoderEnable k v) s = .next (answer s k (.abort .outOfRange))

/-- R149, R151, R152: a picture whose presentation time has come closes and enters the picture buffer, concealed where CTUs of
it are missing; the next picture that bumping has output is eligible once its presentation time has come; at its time limit the
picture in progress closes; a gap not filled in time is given up and, where packets stand behind a further gap, the wait of that
one counts from the first of them (log entry 61). Only the decoder and what counts and reports its errors change; before those
times nothing does. -/
def Obligations.ReturnPicturesCloseAndLeave : Prop :=
  (∀ (p : RetPicture) (s : State), s.ret.current = some p → p.presentAt ≤ tb0NsNow s →
    ∃ t, exec .pictureClose s = .next t ∧ t.ret.current = none ∧ t.ret.closedTs = some p.timestamp ∧
      (∃ q ∈ t.ret.decoded, q.poc = p.poc ∧ q.sequence = p.sequence ∧ q.presentAt = p.presentAt ∧
        q.concealed = (p.concealed || !p.missing.isEmpty)) ∧
      t = { s with regs := t.regs, overflow := t.overflow, ret := t.ret }) ∧
  (∀ s : State, pictureDue s = false → exec .pictureClose s = .next s) ∧
  (∀ (p : RetPicture) (s : State), pictureDue s = false → nextOutput s = some p →
    ∃ t, exec .presentationTime s = .next t ∧ t.ret.output = some { p with waiting := false, shown := true } ∧
      t.ret.outputs = s.ret.outputs + 1 ∧ t.ret.bumped = s.ret.bumped.drop 1 ∧ t = { s with ret := t.ret }) ∧
  (∀ s : State, pictureDue s = true →
    ∃ t, exec .presentationTime s = .next t ∧ t.ret.current = none ∧
      t = { s with regs := t.regs, overflow := t.overflow, ret := t.ret }) ∧
  (∀ (p : RetPicture) (s : State), s.ret.current = some p →
    (p.openedAt + returnLimit p ≤ s.now →
      ∃ t, exec .returnTimeLimit s = .next t ∧ t.ret.current = none ∧ t.ret.lastClass = (if p.missing = [] then 6 else 5) ∧
        t = { s with regs := t.regs, overflow := t.overflow, ret := t.ret }) ∧
    (s.now < p.openedAt + returnLimit p → exec .returnTimeLimit s = .next s)) ∧
  ∀ (a n : Nat) (s : State), s.ret.gapAt = some a → s.ret.nextSeq = some n →
    (gapOver s a = true →
      ∃ t, exec .pathSkewExpiry s = .next t ∧ t.ret.gapAt = heldSince t.ret ∧
        (s.relay.active.isSome = true →
          t = { s with regs := t.regs, overflow := t.overflow, emcy := t.emcy, log := t.log, ret := t.ret, relay := t.relay })) ∧
    (gapOver s a = false → exec .pathSkewExpiry s = .next s)

/-- R241, R245, R246: a TB1 picture start comes when the period that runs has passed, not before: TB1 never steps. Its index is
that of the picture in its source's numbering, it stands where the last period ends, and the next period lies within 50 ppm of
nominal and within 1 ppm a second of the last, what has not reached 1/256 cycle being carried on. Without an active unit the
monitor output sends nothing; with one and source 3 it sends the test pattern (06_decoders.md R154). -/
def Obligations.Tb1PeriodStaysWithinLimits : Prop :=
  (∀ s : State, tb1Due s ≤ s.now * 256 →
    ∃ t, exec .tb1PictureStart s = .next t ∧ t.time.tb1Start = s.time.tb1Start + tb1PeriodNow s ∧ t.time.tb1Index = tb1Number s (tb1Due s) ∧
      tb1Nominal s - tb1Nominal s * 50 / 1000000 ≤ t.time.tb1Period ∧
      t.time.tb1Period ≤ tb1Nominal s + tb1Nominal s * 50 / 1000000 ∧
      t.time.tb1Period ≤ tb1PeriodNow s + (tb1Nominal s * tb1PeriodNow s + s.time.tb1Rest) / (256 * cyclesPerSec * 1000000) ∧
      tb1PeriodNow s ≤ t.time.tb1Period + (tb1Nominal s * tb1PeriodNow s + s.time.tb1Rest) / (256 * cyclesPerSec * 1000000) ∧
      t.time.tb1Rest = (tb1Nominal s * tb1PeriodNow s + s.time.tb1Rest) % (256 * cyclesPerSec * 1000000) ∧
      (s.relay.active = none → t.mon = s.mon) ∧
      (s.relay.active.isSome = true → cfg s (kMonitor 1) = 3 →
        t.mon.last = .pattern (cfg s (kMonitor 3) / 65536) (cfg s (kMonitor 3) % 65536)) ∧
      t = { s with regs := t.regs, overflow := t.overflow, mon := t.mon, time := t.time }) ∧
  ∀ s : State, s.now * 256 < tb1Due s → exec .tb1PictureStart s = .next s


/-! ## Sensor lanes and links (07_sensor_lanes.md) -/

/-- R165, R166, Table 7-3: LOS brings a lane that is not idle DOWN, its release and the release of LOL bring it to HUNT once
both are clear, LOL loses a lock, signal wakes an idle lane, and a wake that lasts 100 ns ends in HUNT. Only that lane changes.
-/
def Obligations.LaneEventsFollowTable : Prop :=
  ∀ (u : UnitId) (n : LaneId) (s : State), laneUsed s n = true →
    (∃ t, exec (.losAssert u n) s = .next t ∧ (laneAt t u n).los = true ∧
      ((laneAt s u n).mode ≠ .idle → (laneAt s u n).mode ≠ .disabled → (laneAt t u n).mode = .down) ∧
      ((laneAt s u n).mode = .idle → (laneAt t u n).mode = .idle) ∧ OnlyLane s t u n) ∧
    (∃ t, exec (.losRelease u n) s = .next t ∧ (laneAt t u n).los = false ∧
      ((laneAt s u n).mode = .down → (laneAt s u n).lol = false →
        (laneAt t u n).mode = .hunt ∧ (laneAt t u n).valid = 0) ∧ OnlyLane s t u n) ∧
    (∃ t, exec (.lolRelease u n) s = .next t ∧ (laneAt t u n).lol = false ∧
      ((laneAt s u n).mode = .down → (laneAt s u n).los = false → (laneAt t u n).mode = .hunt) ∧ OnlyLane s t u n) ∧
    (∃ t, exec (.lolAssert u n) s = .next t ∧ (laneAt t u n).lol = true ∧
      ((laneAt s u n).mode = .locked → (laneAt t u n).mode = .hunt ∧
        (laneAt t u n).lockLosses = min 255 ((laneAt s u n).lockLosses + 1)) ∧ OnlyLane s t u n) ∧
    (∃ t, exec (.signalDetect u n) s = .next t ∧ OnlyLane s t u n ∧
      ((laneAt s u n).mode = .idle → (laneAt t u n).mode = .wake ∧ (laneAt t u n).wakeAt = s.now) ∧
      ((laneAt s u n).mode ≠ .idle → laneAt t u n = laneAt s u n)) ∧
    (∃ t, exec (.wakeTimeout u n) s = .next t ∧ OnlyLane s t u n ∧
      ((laneAt s u n).mode = .wake → (laneAt s u n).wakeAt + 150 ≤ s.now →
        (laneAt t u n).mode = .hunt ∧ (laneAt t u n).slowExits = min 255 ((laneAt s u n).slowExits + 1)) ∧
      ((laneAt s u n).mode ≠ .wake ∨ s.now < (laneAt s u n).wakeAt + 150 → laneAt t u n = laneAt s u n))

/-- R166: in HUNT, 128 valid sync headers in a row lock a lane; an invalid one restarts the count and slips one bit of 66. In
LOCKED, 16 invalid headers among the last 64 blocks lose the lock; otherwise a valid block stays in it, an idle block brings the
lane to IDLE and a marker is noted with its time (R164, R165). In WAKE, 16 wake blocks lock the lane. An inverted lane (R169)
inverts both bits of a header, so that its validity stays. -/
def Obligations.BlocksLockAndLoseLanes : Prop :=
  ∀ (u : UnitId) (n : LaneId) (b : Block66) (s : State), laneUsed s n = true →
    ((laneAt s u n).mode = .hunt → (b.sync = 1 ∨ b.sync = 2) →
      ∃ t, exec (.blockRx u n b) s = .next t ∧ OnlyLane s t u n ∧
        (127 ≤ (laneAt s u n).valid → (laneAt t u n).mode = .locked) ∧
        ((laneAt s u n).valid < 127 → (laneAt t u n).mode = .hunt ∧ (laneAt t u n).valid = (laneAt s u n).valid + 1)) ∧
    ((laneAt s u n).mode = .hunt → b.sync ≠ 1 → b.sync ≠ 2 →
      ∃ t, exec (.blockRx u n b) s = .next t ∧ OnlyLane s t u n ∧ (laneAt t u n).mode = .hunt ∧
        (laneAt t u n).valid = 0 ∧ (laneAt t u n).slips = ((laneAt s u n).slips + 1) % 66) ∧
    ((laneAt s u n).mode = .locked → b.sync ≠ 1 → b.sync ≠ 2 →
      16 ≤ popCount (((laneAt s u n).window <<< 1) ||| 1#64) →
      ∃ t, exec (.blockRx u n b) s = .next t ∧ OnlyLane s t u n ∧ (laneAt t u n).mode = .hunt ∧
        (laneAt t u n).lockLosses = min 255 ((laneAt s u n).lockLosses + 1)) ∧
    (∀ (c : Block66) (d : BitVec 64 × BitVec 58), c = flipBlock (laneInverted s n) b → d = descramble (laneAt s u n).scrambler c.payload →
      (b.sync = 1 ∨ b.sync = 2) →
      ((laneAt s u n).mode = .locked → popCount ((laneAt s u n).window <<< 1) < 16 →
        ∃ t, exec (.blockRx u n b) s = .next t ∧ OnlyLane s t u n ∧
          (isControl c = false → laneAt t u n =
            { laneAt s u n with window := (laneAt s u n).window <<< 1, scrambler := d.2 }) ∧
          (isControl c = true → d.1.toNat % 256 = 0x69 → (laneAt t u n).mode = .idle) ∧
          (isControl c = true → d.1.toNat % 256 = 0xA5 → (laneAt t u n).mode = .locked ∧
            (laneAt t u n).marker = some (BitVec.ofNat 16 (d.1.toNat >>> 8)) ∧ (laneAt t u n).markerAt = s.now)) ∧
      ((laneAt s u n).mode = .wake → isControl c = true → wakeBlock d.1 = true →
        ∃ t, exec (.blockRx u n b) s = .next t ∧ OnlyLane s t u n ∧
          (15 ≤ (laneAt s u n).valid → (laneAt t u n).mode = .locked) ∧
          ((laneAt s u n).valid < 15 → (laneAt t u n).mode = .wake ∧ (laneAt t u n).valid = (laneAt s u n).valid + 1)))

/-- R173, R174, Table 7-8: a whole line packet of the band's length whose CRC holds, in its window, not the packet before it and
not behind the next expected line unless it opens the link's picture, is accepted: its samples enter the unit's buffer, in the
place of its line, and the link expects the line after it; the active unit writes it into the capture ring too
(12_translation_dma.md R298). A packet whose CRC fails in its window, or whose window has closed, leaves the buffer and the
expected line as they are, and one on a link that is down leaves everything. -/
def Obligations.LinePacketsAreAcceptedOrLost : Prop :=
  ∀ (u : UnitId) (l : LinkId) (p : LinePacket) (s : State) (x : Link) (q : Nat), x = (s.links.get u).get l →
    q = packetPicture s x p.line (opensPicture p) →
    (x.up = false → exec (.linePacketRx u l p) s = .next s) ∧
    (x.up = true → windowOf s (linkOpened s x) q p.line = .here → lineCrc p = p.crc → p.blocks = bandBlocks s l p.line → p.whole = true →
      x.lastLine ≠ some (p.line, p.alive) → (x.expLine ≤ p.line ∨ (opensPicture p = true ∧ x.picture < q)) →
      p.line < activeLines s →
      ∃ t, exec (.linePacketRx u l p) s = .next t ∧
        (t.input.get u).lines = ((s.input.get u).lines.filter fun b => decide (b.picture ≠ q ∨ b.link ≠ l ∨ b.line ≠ p.line)) ++
          [⟨q, l, p.line, unpackLine (inputDepth s) (lineSamples (inputChroma s) (bandWidth s l) p.line) p.payload, false, s.now⟩] ∧
        t.input.get u.other = s.input.get u.other ∧
        ((t.links.get u).get l).expLine = p.line + 1 ∧ ((t.links.get u).get l).picture = q ∧
        ((t.links.get u).get l).expAlive = some (BitVec.ofNat 8 (p.alive + 1)) ∧
        (s.relay.active ≠ some u ∨ s.capture.writing = none →
          t = { s with regs := t.regs, overflow := t.overflow, links := t.links, input := t.input, phase := t.phase }) ∧
        t = { s with regs := t.regs, overflow := t.overflow, emcy := t.emcy, log := t.log, links := t.links, input := t.input,
                     phase := t.phase, counts := t.counts, dram := t.dram, relay := t.relay }) ∧
    (x.up = true → (windowOf s (linkOpened s x) q p.line = .here ∧ lineCrc p ≠ p.crc) ∨
        (windowOf s (linkOpened s x) q p.line = .late ∧ p.line < activeLines s) →
      ∃ t, exec (.linePacketRx u l p) s = .next t ∧ ((t.links.get u).get l).expLine = x.expLine ∧
        t = { s with regs := t.regs, overflow := t.overflow, links := t.links, phase := t.phase })

/-- R173, R183, Table 7-12: a picture descriptor that differs from the configuration of an active unit's link sets
DESCRIPTOR_MISMATCH, one that agrees sets nothing; PHASE_FAULT clears after 64 pictures coded without a drop. -/
def Obligations.DescriptorAndPhaseFlags : Prop :=
  (∀ (u : UnitId) (l : LinkId) (d : PictureDescriptor) (s : State),
    ∃ t, exec (.pictureDescriptorRx u l d) s = .next t ∧
      ((t.links.get u).get l).descriptorOk =
        decide (d.width = bandWidth s l ∧ d.height = activeLines s ∧ d.chroma = inputChroma s ∧ d.depth = inputDepth s) ∧
      (((t.links.get u).get l).descriptorOk = true → t.regs = s.regs) ∧
      (((t.links.get u).get l).descriptorOk = false → s.relay.active = some u → assocWf defaultOf s.regs = true →
        flag t (kInput 8) 28 = true) ∧
      t = { s with regs := t.regs, links := t.links }) ∧
  ∀ s : State, s.phase.fault = true →
    (64 ≤ s.phase.cleanPictures → ∃ t, exec .phaseFaultClear s = .next t ∧ t.phase.fault = false ∧
      (assocWf defaultOf s.regs = true → flag t (kInput 8) 31 = false) ∧ t = { s with regs := t.regs, phase := t.phase }) ∧
    (s.phase.cleanPictures < 64 → exec .phaseFaultClear s = .next s)


/-! ## Ports, bridge, flows (08_network.md, 09_flows.md) -/

/-- Table 8-3, R187, R189, R198: a port that does not serve delivers nothing; a frame with a bad FCS, shorter than 64 bytes or
longer than the frame-length limit is counted and goes no further, as is a PAUSE or PFC frame; a good frame of a member port
that no meter matches teaches both units its source, where the table has room or knows it. -/
def Obligations.ReceivedFramesCountAndTeach : Prop :=
  ∀ (p : PortId) (f : Frame) (s : State),
    (portServes s p = false → exec (.frameRx p f) s = .next s) ∧
    (portServes s p = true → (f.fcsOk = false ∨ f.len < 64 ∨ s.flash.limit.frameLimit.get p < f.len) →
      exec (.frameRx p f) s = .next (countPort (countPort (countPort s p 0x0E 1) p 0x0F f.len) p 0x11 1)) ∧
    (portServes s p = true → f.fcsOk = true → 64 ≤ f.len → f.len ≤ s.flash.limit.frameLimit.get p → meterOf s p f = none →
      (f.body = .flowControl →
        exec (.frameRx p f) s =
          .next (countPort (countPort (countPort (countPort s p 0x0E 1) p 0x0F f.len) p 0x14 1) p 0x12 1)) ∧
      (f.body ≠ .flowControl → isMember s p = true → cfg s (key 0x2400 1) = 1 → f.dst / 16 ≠ 0x0180C200000 →
        s.flash.limit.macs.toList.contains f.src = false →
        ∃ t, exec (.frameRx p f) s = .next t ∧
          (∀ u, (s.bridge.get u).learned.length < 4096 ∨ ((s.bridge.get u).learned.any fun e => e.mac == f.src) = true →
            ∃ e ∈ (t.bridge.get u).learned, e.mac = f.src ∧ e.port = p ∧ e.seenAt = s.now) ∧
          t.meters = s.meters ∧ t.dram = s.dram ∧ t.dict = s.dict ∧ t.chans = s.chans ∧ t.streams = s.streams ∧
          ((∀ v, f.body ≠ .ptpMetadata v) → t.time = s.time) ∧
          ((∀ r, f.body ≠ .rtp r) → t.ret = s.ret ∧ t.relay = s.relay ∧ t.emcy = s.emcy ∧ t.log = s.log)))

/-- R189, R193, R207, 01_module.md R13: a link that comes up or goes down changes that port's link alone of the ports' links;
the receive PCS of each unit that has booted locks with it. Copies admitted before a link went down stay in their path queues.
-/
def Obligations.PortLinksComeAndGo : Prop :=
  ∀ (p : PortId) (s : State),
    (∃ t, exec (.portLinkUp p) s = .next t ∧ (t.ports.get p).up = true ∧ (t.ports.get p).lanes = 0xFFFFF ∧
      (t.ports.get p).fecLocked = fecOn s p ∧
      (∀ u, ((t.ports.get p).pcs.get u).locked = decide ((s.boot.get u).mode = .booted)) ∧
      (∀ q, q ≠ p → t.ports.get q = s.ports.get q) ∧
      t = { s with regs := t.regs, overflow := t.overflow, ports := t.ports, flows := t.flows, counts := t.counts }) ∧
    (∃ t, exec (.portLinkDown p) s = .next t ∧ (t.ports.get p).up = false ∧ (t.ports.get p).lanes = 0 ∧
      (∀ u, ((t.ports.get p).pcs.get u).locked = false) ∧ (∀ q, q ≠ p → t.ports.get q = s.ports.get q) ∧ t.flows = s.flows ∧
      t = { s with regs := t.regs, overflow := t.overflow, ports := t.ports, flows := t.flows, counts := t.counts })

/-- R195, R198: an address a flow needs is asked for, and again after a second; a resolved one is refreshed after 60 s; a
learned address not seen within the ageing time is forgotten, and no other is. -/
def Obligations.AddressesAreAskedAndAged : Prop :=
  (∀ (p : PortId) (ip : Nat) (s : State), activeUnit s = true → needsAddress s p ip = true →
    (arpEntry s p ip = none ∨ ∃ e, arpEntry s p ip = some e ∧ e.mac = none ∧ e.askedAt + cyclesPerSec ≤ s.now) →
    ∃ t, exec (.arpRetry p ip) s = .next t ∧
      (∀ u, ∃ e ∈ (t.bridge.get u).arp, e.port = p ∧ e.ip = ip ∧ e.askedAt = s.now) ∧
      t = { s with regs := t.regs, bridge := t.bridge, ports := t.ports, flows := t.flows, counts := t.counts }) ∧
  (∀ (p : PortId) (ip : Nat) (e : ArpEntry) (s : State), arpEntry s p ip = some e → activeUnit s = true →
    e.mac.isSome = true → e.askedAt + 60 * cyclesPerSec ≤ s.now →
    ∃ t, exec (.arpRefresh p ip) s = .next t ∧
      (∀ u, ∃ x ∈ (t.bridge.get u).arp, x.port = p ∧ x.ip = ip ∧ x.askedAt = s.now) ∧
      t = { s with regs := t.regs, bridge := t.bridge, ports := t.ports, flows := t.flows, counts := t.counts }) ∧
  ∀ (mac : Nat) (s : State), ∃ t, exec (.addressAgeing mac) s = .next t ∧
    (∀ u e, e ∈ (t.bridge.get u).learned ↔
      e ∈ (s.bridge.get u).learned ∧ ¬ (e.mac = mac ∧ e.seenAt + cfg s (key 0x2400 2) * cyclesPerSec ≤ s.now)) ∧
    (∀ u, (t.bridge.get u).arp = (s.bridge.get u).arp) ∧ t = { s with bridge := t.bridge }

/-- R206, R223, R224: the head packet of a flow whose count covers its charge, on paths that serve and have room, leaves the
queue and its charge is subtracted once, but for an unshaped flow, whose count is held; without the tokens, without a packet or
without a path that serves nothing happens. -/
def Obligations.ShaperAdmitsConformingPackets : Prop :=
  (∀ (f : FlowId) (pk : Packet) (rest : List Packet) (s : State), s.flows[f].queue = pk :: rest →
    (servingPaths s f ≠ [] →
      ((servingPaths s f).all fun x => decide ((pathOf s.flows[f] x.2).queue.length < 4)) = true →
      chargeOf s f pk * 2 ^ 24 ≤ s.flows[f].tokens →
      ∃ t, exec (.shaperAdmit f) s = .next t ∧ t.flows[f].queue = rest ∧
        t.flows[f].tokens = (if flowRate s f = 0 then s.flows[f].tokens else s.flows[f].tokens - chargeOf s f pk * 2 ^ 24) ∧
        (∀ x ∈ servingPaths s f, (pathOf t.flows[f] x.2).queue = (pathOf s.flows[f] x.2).queue ++ [pathCopy s x.1 pk]) ∧
        (∀ g, g ≠ f → t.flows[g] = s.flows[g]) ∧
        t = { s with regs := t.regs, overflow := t.overflow, flows := t.flows }) ∧
    (s.flows[f].tokens < chargeOf s f pk * 2 ^ 24 ∨ servingPaths s f = [] → exec (.shaperAdmit f) s = .next s)) ∧
  ∀ (f : FlowId) (s : State), s.flows[f].queue = [] → exec (.shaperAdmit f) s = .next s

/-- R210, R212, R227: a frame that the scheduler chooses and neither the source lock nor the ceiling holds starts: no longer
than the frame-length limit, its bytes and the 20 of preamble and gap taken from the emission bucket, the port busy for its
time; a Delay_Req takes its time t3 then (10_time.md R255). A source-locked one leaves its queue unsent, one that the ceiling
does not admit waits at the head; with the port unable to start nothing happens. R220, R221, R199, R209: a drained flow stops
draining; held tokens of the oldest tick are offered again and leave their stores; a waiting frame enters the bridged flow that
takes it; the session description is read whole. -/
def Obligations.FramesStartAndQueuesDrain : Prop :=
  (
  (∀ (p : PortId) (c : Nat) (f : FlowId) (rounds : Nat) (pk : Packet) (s : State),
    canStart s p = true → topClass s p = some c → pickFlow s p c = some (f, rounds) → headOn s p f = some pk →
    (sourceLocked s p pk = false → (frameCut s p pk + 20) * 2 ^ 24 ≤ (s.ports.get p).bucket →
      ∃ t, exec (.frameTxStart p) s = .next t ∧ (t.ports.get p).busyUntil = s.now + lineCycles (frameCut s p pk) ∧
        (t.ports.get p).bucket + (frameCut s p pk + 20) * 2 ^ 24 = (s.ports.get p).bucket ∧
        (∃ x, (t.ports.get p).lastTx = some x ∧ x.frame = frameCut s p pk ∧ x.frame ≤ s.flash.limit.frameLimit.get p) ∧
        (∃ w, (t.ports.get p).wire = some w ∧ w.bytes = frameCut s p pk ∧ w.payload = pk.payload) ∧
        (∀ q, q ≠ p → t.ports.get q = s.ports.get q) ∧
        (pk.kind ≠ .delayReq → t.time = s.time) ∧
        (pk.kind = .delayReq → ∀ r, s.time.request = some r → r.port = p →
          t.time.request = some { r with t3 := some (stampOut s (viewUnit s) p r.stampError) }) ∧
        t = { s with regs := t.regs, ports := t.ports, flows := t.flows, counts := t.counts, time := t.time, slots := t.slots }) ∧
    (sourceLocked s p pk = true →
      ∃ t, exec (.frameTxStart p) s = .next t ∧ t.ports = s.ports ∧ (∀ g, g ≠ f → t.flows[g] = s.flows[g]) ∧
        t = { s with regs := t.regs, flows := t.flows, counts := t.counts })) ∧
  (∀ (p : PortId) (c : Nat) (f : FlowId) (rounds : Nat) (pk : Packet) (s : State),
    canStart s p = true → topClass s p = some c → pickFlow s p c = some (f, rounds) → headOn s p f = some pk →
    sourceLocked s p pk = false → (s.ports.get p).bucket < (frameCut s p pk + 20) * 2 ^ 24 →
    ∃ t, exec (.frameTxStart p) s = .next t ∧ (t.ports.get p).ceilHeld = true ∧ t.flows = s.flows ∧
      t = { s with regs := t.regs, ports := t.ports, counts := t.counts }) ∧
  ∀ (p : PortId) (s : State), canStart s p = false → exec (.frameTxStart p) s = .next s) ∧
  (
  (∀ (f : FlowId) (s : State), s.flows[f].draining = true → s.flows[f].queue = [] →
    ∃ t, exec (.flowDrained f) s = .next t ∧ t.flows[f].draining = false ∧
      (∀ g, g ≠ f → t.flows[g] = s.flows[g]) ∧ t = { s with flows := t.flows }) ∧
  (∀ (f : FlowId) (s : State), s.flows[f].draining = false ∨ s.flows[f].queue ≠ [] → exec (.flowDrained f) s = .next s) ∧
  (∀ (f : FlowId) (k : Nat) (s : State), oldestTick s f = some k → tokenFlow f = true →
    flowTakes s f (tokenPackets s f ((tokenStreams s f).flatMap fun n =>
      (s.streams[n].tokenStore.filter fun x => x.1 == k).flatMap fun x => x.2)) = true →
    ∃ t, exec (.tokenReoffer f) s = .next t ∧
      (∀ n ∈ tokenStreams s f, t.streams[n].tokenStore = s.streams[n].tokenStore.filter fun y => y.1 != k) ∧
      (∀ n, n ∉ tokenStreams s f → t.streams[n] = s.streams[n]) ∧ (∀ g, g ≠ f → t.flows[g] = s.flows[g]) ∧
      t = { s with streams := t.streams, flows := t.flows }) ∧
  (∀ (p : PortId) (w : Waiting) (rest : List Waiting) (s : State), s.ports[p].receive = w :: rest → w.ports.Nodup →
    (∀ q ∈ w.ports, flowTakes s (bridgedFlow q) [w.packet] = true) →
    ∃ t, exec (.receiveBufferEnqueue p) s = .next t ∧
      t.ports[p].receive.length ≤ rest.length ∧
      (∀ q ∈ w.ports, ∃ more, t.flows[bridgedFlow q].queue = s.flows[bridgedFlow q].queue ++
        { w.packet with seq := s.flows[bridgedFlow q].packets % 2 ^ 16, high := s.flows[bridgedFlow q].packets / 2 ^ 16 % 2 ^ 16 } :: more) ∧
      (∀ q, q ≠ p → t.ports[q] = s.ports[q]) ∧ t = { s with ports := t.ports, flows := t.flows }) ∧
  (∀ (p : PortId) (s : State), s.ports[p].receive = [] → exec (.receiveBufferEnqueue p) s = .next s) ∧
  ∀ (k : Client) (f : FlowId) (s : State), serves s k (0x4000 + f.val) = true →
    exec (.sessionDescriptionRead k f) s = .next (answer (touchRead s k) k (.value (sessionDescription s f))))


/-! ## Time (10_time.md) -/

/-- R245: with GENLOCK_IN chosen, an edge within 2 µs of its predicted time keeps TB1 locked, the eighth such edge in a row
locks it, and the next edge is expected one period on; a third edge missing or outside its window in a row loses the lock;
before the lock either restarts the count; an edge that comes late after it was counted as missing is not counted again. The
groups of TB2 pictures count from the first edge after lock (R247). R261: PPS_OUT rises at a TB0 second, within ±2 ns, for its
written width, once; a SYNC_OUT pin with a source takes its active level at the events of its source shifted by its phase,
within ±2 ns, one without is low, as one with a reserved source (DESIGN CHOICE, log entry 64). At another instant nothing
happens. No other pin changes. -/
def Obligations.GenlockAndOutputPins : Prop :=
  (
  (∀ (e : Nat) (s : State), cfg s (key 0x2203 1) = 1 → s.time.genExpected = some e →
    s.now ≤ e + genWindow → e ≤ s.now + genWindow →
    ∃ t, exec .genlockEdge s = .next t ∧
      (s.time.genLocked = true → t.time.genLocked = true ∧ t.time.genMisses = 0) ∧
      (s.time.genLocked = false → 7 ≤ s.time.genEdges → t.time.genLocked = true ∧
        t.time.tb1Index = 2 * ratioK s - (if 2 * tb1Due s < (2 * s.now + genPeriod s) * 256 then 2 else 1)) ∧
      (s.time.genLocked = false → s.time.genEdges < 7 →
        t.time.genLocked = false ∧ t.time.genEdges = s.time.genEdges + 1) ∧
      t.time.genExpected = some (s.now + genPeriod s) ∧ t.time.genCounted = false ∧ t = { s with regs := t.regs, time := t.time }) ∧
  (∀ (e : Nat) (s : State), cfg s (key 0x2203 1) = 1 → s.time.genExpected = some e → e + genWindow < s.now →
    s.time.genLocked = true →
    ∃ t, exec .genlockEdgeMissing s = .next t ∧
      (2 ≤ s.time.genMisses → t.time.genLocked = false) ∧
      (s.time.genMisses < 2 → t.time.genLocked = true ∧ t.time.genMisses = s.time.genMisses + 1) ∧
      t.time.tb1Period = s.time.tb1Period ∧ t.time.genExpected = some (e + genPeriod s) ∧ t.time.genCounted = true ∧
      t = { s with regs := t.regs, overflow := t.overflow, emcy := t.emcy, log := t.log, time := t.time }) ∧
  (∀ (e : Nat) (s : State), cfg s (key 0x2203 1) = 1 → s.time.genExpected = some e → e + genWindow < s.now → s.time.genLocked = false →
    ∃ t, exec .genlockEdgeMissing s = .next t ∧ t.time.genEdges = 0 ∧ t.time.genLocked = false ∧
      t.time.genExpected = some (e + genPeriod s) ∧ t.time.genCounted = true ∧ t = { s with time := t.time }) ∧
  (∀ (e : Nat) (s : State), cfg s (key 0x2203 1) = 1 → s.time.genExpected = some e → e + genWindow < s.now ∨ s.now + genWindow < e →
    lateEdge s e = false →
    ∃ t, exec .genlockEdge s = .next t ∧ t.time.genExpected = some (s.now + genPeriod s) ∧
      (s.time.genLocked = false → t.time.genLocked = false ∧ t.time.genEdges = 0) ∧
      (s.time.genLocked = true → s.time.genMisses < 2 → t.time.genLocked = true ∧ t.time.genMisses = s.time.genMisses + 1) ∧
      (s.time.genLocked = true → 2 ≤ s.time.genMisses → t.time.genLocked = false) ∧
      t = { s with regs := t.regs, overflow := t.overflow, emcy := t.emcy, log := t.log, time := t.time }) ∧
  (∀ (e : Nat) (s : State), cfg s (key 0x2203 1) = 1 → s.time.genExpected = some e → s.now + genWindow < e → lateEdge s e = true →
    exec .genlockEdge s = .next { s with time := { s.time with genExpected := some (s.now + genPeriod s), genCounted := false } }) ∧
  (∀ s : State, cfg s (key 0x2203 1) = 1 → s.time.genExpected = none →
    exec .genlockEdge s = .next { s with time := { s.time with genExpected := some (s.now + genPeriod s), genCounted := false } }) ∧
  ∀ s : State, cfg s (key 0x2203 1) ≠ 1 → exec .genlockEdge s = .next s ∧ exec .genlockEdgeMissing s = .next s) ∧
  (
  (∀ s : State, secondDue s = true → ∃ t, exec .tb0Second s = .next t ∧
    t.pins = { s.pins with pps := true, ppsFall := s.now + cfg s (key 0x2204 9) * cyclesPerUs } ∧
    t.time = { s.time with second := tb0SecondNow s } ∧
    (s.time.servo ≠ .holdover → t = { s with pins := t.pins, time := t.time }) ∧
    (s.time.servo = .holdover → assocWf defaultOf s.regs = true → regGet s (kTime 0x0E) < 2 ^ 32 - 1 →
      regGet t (kTime 0x0E) = regGet s (kTime 0x0E) + 1) ∧
    t = { s with regs := t.regs, overflow := t.overflow, pins := t.pins, time := t.time }) ∧
  (∀ s : State, secondDue s = false → exec .tb0Second s = .next s) ∧
  ∀ (n : Fin 4) (w src : Nat) (s : State), w = cfg s (key 0x2204 (1 + n.val)) → src = fieldOf w 26 24 →
    (1 ≤ src → src ≤ 4 → syncDue s src (cfgSigned s (key 0x2204 (5 + n.val))) = true →
      ∃ t, exec (.syncOutPulse n) s = .next t ∧ t.pins.syncOut.get n = (!w.testBit 31) ∧ s.now ≤ t.pins.syncFall.get n ∧
        t.pins.syncFall.get n ≤ s.now + fieldOf w 23 0 * 3 / 2 ∧ t.pins.syncWord.get n = w ∧
        (∀ m, m ≠ n → t.pins.syncOut.get m = s.pins.syncOut.get m ∧ t.pins.syncWord.get m = s.pins.syncWord.get m) ∧
        t.pins.pps = s.pins.pps ∧ t = { s with pins := t.pins }) ∧
    (1 ≤ src → src ≤ 4 → syncDue s src (cfgSigned s (key 0x2204 (5 + n.val))) = false → exec (.syncOutPulse n) s = .next s) ∧
    (src = 0 ∨ 4 < src →
      ∃ t, exec (.syncOutPulse n) s = .next t ∧ t.pins.syncOut.get n = false ∧ t.pins.syncWord.get n = w ∧
        (∀ m, m ≠ n → t.pins.syncOut.get m = s.pins.syncOut.get m ∧ t.pins.syncWord.get m = s.pins.syncWord.get m) ∧
        t.pins.pps = s.pins.pps ∧ t = { s with pins := t.pins }))

/-- R249, R252, R255: a two-step Sync of the selected port's master waits for its Follow_Up with the stamps of both units, one-
step it takes its sample at once; the Follow_Up takes the sample with the stamp of the unit that was active at the Sync (R259).
A sample is counted and gives the offset less the mean delay and the cable's asymmetry. A Sync from elsewhere, or of an interval
outside 2⁻⁷ to 2 s, is left alone (log entry 64). A Delay_Req that is due notes its exchange, whose time is taken as it leaves,
one that is not due is not sent; the master's Delay_Resp of the same number completes it once it has left. -/
def Obligations.PtpExchangesMakeSamples : Prop :=
  (∀ (p : PortId) (m : PtpSync) (s : State), ptpRuns s p = true → fromMaster s p m.domain m.sourceId = true →
    syncInterval m.logInterval = true →
    (m.twoStep = true → exec (.ptpSyncRx p m) s = .next { s with time := { s.time with
      sync := some ⟨p, m, ⟨stampIn s .a p m.stampError m.skew, stampIn s .b p m.stampError m.skew⟩, viewUnit s⟩ } }) ∧
    (m.twoStep = false → ∃ t, exec (.ptpSyncRx p m) s = .next t ∧ t.time.samples = s.time.samples + 1 ∧
      t.time.offset = stampIn s (viewUnit s) p m.stampError m.skew - ptpUnits m.t1 - m.correction - t.time.meanDelay - asymmetry s p ∧
      t.time.lastSample = s.now ∧ t.time.sync = s.time.sync ∧
      t = { s with regs := t.regs, overflow := t.overflow, emcy := t.emcy, log := t.log, time := t.time, slots := t.slots })) ∧
  (∀ (p : PortId) (m : PtpSync) (s : State),
    ptpRuns s p = false ∨ fromMaster s p m.domain m.sourceId = false ∨ syncInterval m.logInterval = false →
    exec (.ptpSyncRx p m) s = .next s) ∧
  (∀ (p : PortId) (m : PtpFollowUp) (y : WaitingSync) (s : State), s.time.sync = some y →
    (ptpRuns s p = true → fromMaster s p m.domain m.sourceId = true → y.port = p → y.sync.seqId = m.seqId → y.sync.sourceId = m.sourceId →
      ∃ t, exec (.ptpFollowUpRx p m) s = .next t ∧ t.time.sync = none ∧ t.time.samples = s.time.samples + 1 ∧
        t.time.offset = y.stamps.get y.unit - ptpUnits m.t1 - (y.sync.correction + m.correction) - t.time.meanDelay - asymmetry s p ∧
        t = { s with regs := t.regs, overflow := t.overflow, emcy := t.emcy, log := t.log, time := t.time, slots := t.slots }) ∧
    (ptpRuns s p = false ∨ fromMaster s p m.domain m.sourceId = false ∨ y.port ≠ p ∨ y.sync.seqId ≠ m.seqId ∨ y.sync.sourceId ≠ m.sourceId →
      exec (.ptpFollowUpRx p m) s = .next s)) ∧
  (∀ (p : PortId) (m : PtpFollowUp) (s : State), s.time.sync = none → exec (.ptpFollowUpRx p m) s = .next s) ∧
  (∀ (p : PortId) (e : Int) (s : State), ptpRuns s p = true → s.time.selected = some p → requestDue s = true →
    ∃ t, exec (.ptpDelayReqSend p e) s = .next t ∧ t.time.request = some ⟨p, s.time.seqId, e, none⟩ ∧
      t.time.seqId = (s.time.seqId + 1) % 65536 ∧ t.time.requestAt = some s.now ∧
      t = { s with regs := t.regs, ports := t.ports, flows := t.flows, counts := t.counts, time := t.time }) ∧
  (∀ (p : PortId) (e : Int) (s : State), requestDue s = false ∨ s.time.selected ≠ some p → exec (.ptpDelayReqSend p e) s = .next s) ∧
  ∀ (p : PortId) (m : PtpDelayResp) (r : DelayRequest) (s : State), s.time.request = some r →
    (∀ t3, r.t3 = some t3 → ptpRuns s p = true → fromMaster s p m.domain m.sourceId = true → r.port = p → r.seqId = m.seqId → m.forUs = true →
      exec (.ptpDelayRespRx p m) s = .next { s with time := { s.time with
        request := none, respLog := some m.logInterval, exchangeReady := some (t3, ptpUnits m.t4, m.correction) } }) ∧
    (r.t3 = none ∨ fromMaster s p m.domain m.sourceId = false ∨ r.port ≠ p ∨ r.seqId ≠ m.seqId ∨ m.forUs = false →
      exec (.ptpDelayRespRx p m) s = .next s)

/-- R250, R251, R254: an Announce of the domain renews its sender among the masters that its port hears, with the time it was
heard, and one of another domain is left alone; the first Announce of the domain selects its port and its grandmaster and brings
the servo to ACQUIRING; a selected port with a master stays selected until another's best has ranked strictly better for 4
intervals; a master not heard within the timeout is forgotten, and with the last master the servo holds over. -/
def Obligations.MastersComeAndGo : Prop :=
  (∀ (p : PortId) (m : PtpAnnounce) (s : State), ptpRuns s p = true → m.domain = cfg s (key 0x2201 2) →
    s.time.masters = .replicate 4 ⟨[], 0⟩ → s.time.selected = none → s.time.grandmaster ≠ m.gmId →
    ∃ t, exec (.ptpAnnounceRx p m) s = .next t ∧ t.time.selected = some p ∧ t.time.grandmaster = m.gmId ∧
      t.time.servo = .acquiring ∧ t.time.utcOffset = m.utcOffset ∧ t = { s with regs := t.regs, time := t.time }) ∧
  (∀ (p : PortId) (m : PtpAnnounce) (s : State), ptpRuns s p = true → m.domain = cfg s (key 0x2201 2) →
    ∃ t, exec (.ptpAnnounceRx p m) s = .next t ∧
      (t.time.masters.get p).heard = ((s.time.masters.get p).heard.filter fun x => decide (x.announce.sourceId ≠ m.sourceId)) ++ [⟨m, s.now⟩] ∧
      (∀ q, q ≠ p → t.time.masters.get q = s.time.masters.get q) ∧ t.time.selected.isSome = true ∧ t.time.tb0 = s.time.tb0 ∧
      (∀ q, s.time.selected = some q → ptpOn s q = true → (portMaster s q).isSome = true →
        (∀ r, r ≠ q → (t.time.masters.get r).better < 4) → t.time.selected = some q) ∧
      t = { s with regs := t.regs, time := t.time }) ∧
  (∀ (p : PortId) (m : PtpAnnounce) (s : State), m.domain ≠ cfg s (key 0x2201 2) ∨ ptpRuns s p = false →
    exec (.ptpAnnounceRx p m) s = .next s) ∧
  (∀ (p : PortId) (s : State), (portMaster s p).isSome = true →
    ∃ t, exec (.announceReceiptTimeout p) s = .next t ∧
      (t.time.masters.get p).heard =
        (s.time.masters.get p).heard.filter (fun x => decide (s.now < x.heardAt + announceTimeout s x.announce)) ∧
      (∀ q, q ≠ p → t.time.masters.get q = s.time.masters.get q) ∧ t.time.tb0 = s.time.tb0 ∧
      t = { s with regs := t.regs, time := t.time }) ∧
  (∀ (p : PortId) (s : State), (s.time.masters.get p).heard = [] → exec (.announceReceiptTimeout p) s = .next s) ∧
  ∀ (p : PortId) (x : Master) (s : State), (s.time.masters.get p).heard = [x] →
    (∀ q, q ≠ p → (s.time.masters.get q).heard = []) → s.time.selected = some p →
    x.heardAt + announceTimeout s x.announce ≤ s.now → s.time.servo = .locked →
    ∃ t, exec (.announceReceiptTimeout p) s = .next t ∧ (t.time.masters.get p).heard = [] ∧ t.time.selected = none ∧
      t.time.servo = .holdover ∧ t.time.holdoverAt = s.now ∧ t.time.tb0 = s.time.tb0 ∧
      t = { s with regs := t.regs, time := t.time }


/-! ## DRAM (11_dram.md) -/

/-- R265 to R267, R284: once the requests whose exit from self-refresh has ended are served (`v`), the request that the channel
of its address issues first is served. A write stores its bytes from its usable address on and leaves every other byte of both
units; a read leaves every byte, also where the ECC corrects it (R276). Only the issuing unit's controller changes, and an
engine task's access leaves its status in that task, a failed one where the ECC cannot correct it (R277); a window fetch that it
cannot correct is a fault of the active unit. In self-refresh, and until its exit has ended, a request is held; during an entry
it aborts the entry, whose refresh stays paid (R280); with none waiting nothing happens. -/
def Obligations.DramWritesStoreExactlyTheirBytes : Prop :=
  (∀ (u : UnitId) (ch : DramChan) (waiting : List DramRequest) (r : DramRequest) (a : Nat) (s v : State), v = serveHeld s u →
    pickRequest v u ch waiting = some r → translate v u r.ctx r.vaddr r.write = .ok a →
    (v.dram.get u).refresh = .active → assocWf unlistedByte (v.dram.get u).mem = true →
    (r.write = true → partialWrite a r.data.length = false ∨ r.ecc ≠ .uncorrectable → ∃ t, exec (.dramRequest u ch waiting) s = .next t ∧
      (∀ i, (h : i < r.data.length) → dramByte (t.dram.get u) (a + i) = r.data[i]) ∧
      (∀ c, c < a ∨ a + r.data.length ≤ c → dramByte (t.dram.get u) c = dramByte (v.dram.get u) c) ∧
      t.dram.get u.other = v.dram.get u.other ∧
      (partialWrite a r.data.length = false ∨ r.ecc = .clean →
        t = { v with regs := t.regs, counts := t.counts, disp := t.disp, dram := t.dram }) ∧
      t = { v with regs := t.regs, overflow := t.overflow, emcy := t.emcy, log := t.log, counts := t.counts, disp := t.disp, dram := t.dram }) ∧
    (r.write = false → r.ecc ≠ .uncorrectable → ∃ t, exec (.dramRequest u ch waiting) s = .next t ∧ DramSame v t ∧
      t.dram.get u.other = v.dram.get u.other ∧
      (∀ i x, r.user = .engineTask i → findTask (v.disp.get u) i = some x → ∃ y, findTask (t.disp.get u) i = some y ∧ y.failed = false) ∧
      (r.ecc = .clean → t.emcy = v.emcy ∧ t.log = v.log) ∧
      t = { v with regs := t.regs, overflow := t.overflow, emcy := t.emcy, log := t.log, counts := t.counts, disp := t.disp,
                   dram := t.dram, slots := t.slots }) ∧
    (r.write = false → r.ecc = .uncorrectable →
      ((∀ i x, r.user = .engineTask i → findTask (v.disp.get u) i = some x → ∃ t, exec (.dramRequest u ch waiting) s = .next t ∧ DramSame v t ∧
        (∃ y, findTask (t.disp.get u) i = some y ∧ y.failed = true) ∧
        t = { v with regs := t.regs, overflow := t.overflow, counts := t.counts, disp := t.disp, dram := t.dram }) ∧
      ∀ c, r.user = .windowFetch c → v.relay.active = some u → ∃ t, exec (.dramRequest u ch waiting) s = .next t ∧ DramSame v t ∧
        t.relay.fault.isSome = true))) ∧
  (∀ (u : UnitId) (ch : DramChan) (waiting : List DramRequest) (r : DramRequest) (s : State),
    (s.dram.get u).refresh = .inside ∨ ((s.dram.get u).refresh = .exiting ∧ s.now < (s.dram.get u).refreshAt) →
    pickRequest s u ch waiting = some r →
    ∃ t, exec (.dramRequest u ch waiting) s = .next t ∧ (t.dram.get u).held = (s.dram.get u).held ++ [⟨ch, r, s.now⟩] ∧ DramSame s t ∧
      t = { s with counts := t.counts, dram := t.dram }) ∧
  (∀ (u : UnitId) (ch : DramChan) (waiting : List DramRequest) (r : DramRequest) (a : Nat) (s : State),
    (s.dram.get u).refresh = .entering → pickRequest s u ch waiting = some r → translate s u r.ctx r.vaddr r.write = .ok a →
    r.write = true → partialWrite a r.data.length = false →
    ∃ t, exec (.dramRequest u ch waiting) s = .next t ∧ (t.dram.get u).refresh = .active ∧
      (∀ c, ((t.dram.get u).chan.get c).debt = ((payDebt s.now (s.dram.get u)).chan.get c).debt) ∧
      t = { s with regs := t.regs, counts := t.counts, disp := t.disp, dram := t.dram }) ∧
  (∀ (u : UnitId) (s : State), (s.dram.get u).refresh ≠ .exiting ∨ s.now < (s.dram.get u).refreshAt → serveHeld s u = s) ∧
  ∀ (u : UnitId) (ch : DramChan) (s : State), exec (.dramRequest u ch []) s = .next (serveHeld s u)

/-- R269 to R271: once held requests are served (`v`), the end of a refresh interval outside self-refresh keeps the debt of the
channel between -8 and 8 and changes no byte; the debt rises by one, the next interval begins with the multiplier polled since,
and a chosen bank pair is refreshed, or nothing is where the command is postponed; only in a blank lap with no request queued do
refreshes run ahead. Before the interval ends, and in self-refresh, nothing happens. R269, R272, R278, R282: MR4's rates, polled
each 1 ms, the clearing of the row-hammer tables at each 32 ms window of TB3, a scrub pass every 60 s, the latching of ZQ, the
drift measured each 16 ms and the standby's re-centring change their controller and no byte of memory; a pass wakes a unit in
self-refresh (R279). A refresh rate newly above 1 sets HOT and, at a rate above 4, the unit has a thermal fault
(16_power_ageing.md R394); below them only its own controller and registers change. -/
def Obligations.RefreshAndUpkeepKeepMemory : Prop :=
  (
  ∀ (u : UnitId) (ch : DramChan) (q : RefreshQueue) (x : DramChannel) (s v : State), v = serveHeld s u → x = (v.dram.get u).chan.get ch →
    ((v.dram.get u).refresh = .inside ∨ intervalDue v u ch = false → exec (.refreshInterval u ch q) s = .next v) ∧
    ((v.dram.get u).refresh ≠ .inside → intervalDue v u ch = true → -8 ≤ x.debt → x.debt ≤ 8 →
      ∃ t, exec (.refreshInterval u ch q) s = .next t ∧
        -8 ≤ ((t.dram.get u).chan.get ch).debt ∧ ((t.dram.get u).chan.get ch).debt ≤ 8 ∧
        (∀ c, c ≠ ch → (t.dram.get u).chan.get c = (v.dram.get u).chan.get c) ∧ DramSame v t ∧
        ((t.dram.get u).chan.get ch).intervalAt = x.intervalAt + refreshSpan x.multiplier ∧
        ((t.dram.get u).chan.get ch).multiplier = channelMultiplier v u ch ∧
        (chooseRefresh (nextInterval v u ch x) (min 8 (x.debt + 1)) q.realTime = .postpone →
          (t.dram.get u).chan.get ch = nextInterval v u ch x) ∧
        (∀ p split, chooseRefresh (nextInterval v u ch x) (min 8 (x.debt + 1)) q.realTime = .take p split →
          blankLap v = false ∨ 0 < q.others ∨ (∃ i : BankPair, 0 < q.realTime.get i) →
          (t.dram.get u).chan.get ch = { refreshPair (nextInterval v u ch x) p with refreshedAt := v.now }) ∧
        t = { v with regs := t.regs, counts := t.counts, dram := t.dram })) ∧
  (
  (∀ (u : UnitId) (rates : Vector Nat 32) (changed : Bool) (s : State),
    (s.now < (s.dram.get u).polledAt + cyclesPerMs → exec (.mr4Poll u rates changed) s = .next s) ∧
    ((s.dram.get u).polledAt + cyclesPerMs ≤ s.now → ∃ t, exec (.mr4Poll u rates changed) s = .next t ∧
      ((∀ c : DramChan, rates.get c ≤ 4) → (t.dram.get u).overRange = false ∧ (t.dram.get u).polledAt = s.now ∧ DramSame s t ∧
        (∀ c, ((t.dram.get u).chan.get c).rate = (if rates.get c ≤ 1 then 1 else if rates.get c = 2 then 2 else 4)) ∧
        t = { s with regs := t.regs, overflow := t.overflow, emcy := t.emcy, log := t.log, dram := t.dram } ∧
        ((∀ c : DramChan, rates.get c ≤ 1) ∨ 1 < deviceRate (s.dram.get u) → t = { s with regs := t.regs, dram := t.dram }) ∧
        ((∃ c : DramChan, 1 < rates.get c) → deviceRate (s.dram.get u) ≤ 1 → assocWf defaultOf s.regs = true → flag t kIntegrity 24 = true)) ∧
      ((∃ c : DramChan, 4 < rates.get c) → (s.dram.get u).overRange = false → s.relay.active = some u → t.relay.fault.isSome = true))) ∧
  (∀ (u : UnitId) (s : State), (s.dram.get u).hammerWindow ≠ tb3Window s →
    ∃ t, exec (.hammerWindowClear u) s = .next t ∧ (t.dram.get u).hammerWindow = tb3Window s ∧
      (∀ c b, ((t.dram.get u).chan.get c).hammer.get b = []) ∧ (t.dram.get u).threshold = cfg s (kDram 2) ∧ DramSame s t ∧
      t = { s with dram := t.dram }) ∧
  (∀ (u : UnitId) (s : State), (s.dram.get u).scrubbing = false → (s.dram.get u).scrubStart + 60 * cyclesPerSec ≤ s.now →
    ∃ t, exec (.scrubPassStart u) s = .next t ∧ (t.dram.get u).scrubbing = true ∧ (t.dram.get u).scrubStart = s.now ∧
      ((s.dram.get u).refresh ≠ .inside → DramSame s t ∧ t = { s with dram := t.dram }) ∧
      ((s.dram.get u).refresh = .inside → (t.dram.get u).refresh = .exiting) ∧
      (∀ a, a < segmentBytes → dramByte (t.dram.get u) a = dramByte (s.dram.get u) a) ∧ t = { s with free := t.free, dram := t.dram }) ∧
  (∀ (u : UnitId) (s : State), (s.dram.get u).scrubbing = true → (s.dram.get u).scrubStart + 60 * cyclesPerSec ≤ s.now →
    s.now < (s.dram.get u).scrubStart + scrubCycles s u →
    ∃ t, exec (.scrubPassStart u) s = .next t ∧ (t.dram.get u).scrubRaised = true ∧ (t.dram.get u).scrubStart = (s.dram.get u).scrubStart ∧
      DramSame s t ∧ t = { s with regs := t.regs, dram := t.dram }) ∧
  (∀ (u : UnitId) (s : State), s.now < (s.dram.get u).latchedAt + 32 * cyclesPerMs → exec (.zqLatch u) s = .next s) ∧
  (∀ (u : UnitId) (s : State), (s.dram.get u).hammerWindow = tb3Window s → exec (.hammerWindowClear u) s = .next s) ∧
  (∀ (u : UnitId) (s : State), (s.dram.get u).scrubbing = false → s.now < (s.dram.get u).scrubStart + 60 * cyclesPerSec →
    (s.dram.get u).scrubRate ≠ 0 → exec (.scrubPassStart u) s = .next s) ∧
  (∀ (u : UnitId) (s : State), (s.dram.get u).latchedAt + 32 * cyclesPerMs ≤ s.now →
    ∃ t, exec (.zqLatch u) s = .next t ∧ (t.dram.get u).latchedAt = s.now ∧ DramSame s t ∧ t = { s with dram := t.dram }) ∧
  (∀ (u : UnitId) (bits : BitVec 32) (s : State), s.now < (s.dram.get u).driftAt + 16 * cyclesPerMs → exec (.driftMeasure u bits) s = .next s) ∧
  (∀ (u : UnitId) (bits : BitVec 32) (s : State), (s.dram.get u).driftAt + 16 * cyclesPerMs ≤ s.now →
    ∃ t, exec (.driftMeasure u bits) s = .next t ∧ (t.dram.get u).driftAt = s.now ∧
    (∀ c, ((t.dram.get u).chan.get c).recentre =
      if bits.getLsbD c.val then 1800 else ((s.dram.get u).chan.get c).recentre) ∧ DramSame s t ∧ t = { s with dram := t.dram }) ∧
  (∀ s : State, standbyOf s = none → exec .standbyRecentre s = .next s) ∧
  ∀ (u : UnitId) (s : State), standbyOf s = some u → (s.dram.get u).refresh = .inside →
    (s.dram.get u).recentredAt + 50 * cyclesPerMs ≤ s.now →
    ∃ t, exec .standbyRecentre s = .next t ∧ (t.dram.get u).refresh = .exiting ∧ (t.dram.get u).recentredAt = s.now ∧
      (∀ c, ((t.dram.get u).chan.get c).recentre = 0) ∧
      (∀ a, a < segmentBytes → dramByte (t.dram.get u) a = dramByte (s.dram.get u) a) ∧
      t.dram.get u.other = s.dram.get u.other ∧ t = { s with free := t.free, dram := t.dram })

/-- R279 to R281: once held requests are served (`v`), an awake unit that may rest and has been idle for the written time begins
its entry; the entry command finds the debts paid, by at most 8 refreshes a channel, and closes the rows; after 23 cycles of
residency it may leave, the first command 432 cycles later, 1,800 more after more than 100 ms or a change of temperature. Memory
is kept, and of a masked unit segment 0. -/
def Obligations.SelfRefreshKeepsMemory : Prop :=
  (∀ (u : UnitId) (s v : State), v = serveHeld s u →
    ((v.dram.get u).refresh = .active → mayRest v u = true → (v.dram.get u).lastRequest + cfg v (kDram 1) * cyclesPerUs ≤ v.now →
      ∃ t, exec (.selfRefreshEntry u) s = .next t ∧ (t.dram.get u).refresh = .entering ∧ (t.dram.get u).refreshAt = v.now ∧ DramSame v t ∧
        t = { v with dram := t.dram }) ∧
    (mayRest v u = false ∨ v.now < (v.dram.get u).lastRequest + cfg v (kDram 1) * cyclesPerUs →
      exec (.selfRefreshEntry u) s = .next v)) ∧
  (∀ (u : UnitId) (s : State), (s.dram.get u).refresh = .entering →
    ∃ t, exec (.selfRefreshCommit u) s = .next t ∧ (t.dram.get u).refresh = .inside ∧ (t.dram.get u).committedAt = s.now ∧
      (t.dram.get u).maskZero = decide (s.relay.active ≠ some u) ∧
      (∀ c, (t.dram.get u).chan.get c = { refreshAhead 0 8 ((s.dram.get u).chan.get c) with openRow := .replicate 16 none } ∧
        (((s.dram.get u).chan.get c).debt ≤ 8 → ((s.dram.get u).chan.get c).refreshed ≠ 0xFF → ((t.dram.get u).chan.get c).debt ≤ 0)) ∧ DramSame s t ∧
      t = { s with dram := t.dram }) ∧
  (∀ (u : UnitId) (s : State), (s.dram.get u).refresh ≠ .entering → exec (.selfRefreshCommit u) s = .next s) ∧
  (∀ (u : UnitId) (since : Nat) (s : State), (s.dram.get u).refresh ≠ .inside ∨ s.now < (s.dram.get u).committedAt + 23 →
    exec (.selfRefreshExit u since) s = .next s) ∧
  ∀ (u : UnitId) (since : Nat) (s : State), (s.dram.get u).refresh = .inside → (s.dram.get u).committedAt + 23 ≤ s.now →
    ∃ t, exec (.selfRefreshExit u since) s = .next t ∧ (t.dram.get u).refresh = .exiting ∧
      (s.now ≤ (s.dram.get u).committedAt + 100 * cyclesPerMs → (s.dram.get u).tempChanged = false →
        (t.dram.get u).refreshAt = s.now + 432) ∧
      (s.now > (s.dram.get u).committedAt + 100 * cyclesPerMs ∨ (s.dram.get u).tempChanged = true → (t.dram.get u).refreshAt = s.now + 2232) ∧
      (∀ c, ((t.dram.get u).chan.get c).debt = 0) ∧
      ((s.dram.get u).maskZero = false → DramSame s t) ∧
      (∀ a, a < segmentBytes → dramByte (t.dram.get u) a = dramByte (s.dram.get u) a) ∧
      t = { s with free := t.free, regs := t.regs, dram := t.dram }


/-! ## Lap tick, DMA channels, trigger capture (02_lap.md, 12_translation_dma.md) -/

/-- R34, R422: a lap tick that is due advances the lap count, plans the next tick at a later cycle, frees the bits held until
the next tick and uses up the release report; one that is not due is none. The clocks, but for a Delay_Req that a hand-over cuts
off (10_time.md R259), the clients, windows, flash, CAN node, planner, sensors and pins are as before. -/
def Obligations.LapTickAdvancesTheLap : Prop :=
  ∀ (i : TickInput) (s : State),
    (tickDue s = true → ∃ t, exec (.lapTick i) s = .next t ∧ t.lap.count = s.lap.count + 1 ∧ t.lap.lastTick = s.now ∧
      s.now < t.lap.nextTick ∧ t.emcy.untilTick = [] ∧ t.baton.a.report = none ∧ t.baton.b.report = none ∧
      t.now = s.now ∧ t.pending = s.pending ∧ t.time = { s.time with request := t.time.request } ∧ t.flash = s.flash ∧ t.can = s.can ∧ t.clients = s.clients ∧
      t.windows = s.windows ∧ t.firmware = s.firmware ∧ t.maint = s.maint ∧ t.pins = s.pins ∧ t.planner = s.planner ∧
      t.sensors = s.sensors ∧ t.cv = s.cv ∧ t.snaps = s.snaps) ∧
    (tickDue s = false → exec (.lapTick i) s = .next s)

/-- R50, R297: a fault while a saved task's context is written kills the task and aborts its active DMA channels with CAUSE 2;
every other channel is as before, and the event log has a note (log entry 54). With no context being saved nothing happens. -/
def Obligations.ContextFaultKillsTheTask : Prop :=
  ∀ (u : UnitId) (e : EngineId) (s : State),
    ((s.disp.get u).saved.get e = [] → exec (.contextSaveFault u e) s = .next s) ∧
    ∀ i rest, (s.disp.get u).saved.get e = i :: rest →
      ∃ t, exec (.contextSaveFault u e) s = .next t ∧ (t.disp.get u).saved.get e = rest ∧
        (∀ y ∈ (t.disp.get u).tasks, y.ident = i → y.status = .killed) ∧
        (∀ d, (dmaAt s u d).owner = some i → dmaActive (dmaAt s u d) = true →
          (dmaAt t u d).mode = .stopped ∧ (dmaAt t u d).cause = 2) ∧
        (∀ d, (dmaAt s u d).owner ≠ some i → dmaAt t u d = dmaAt s u d) ∧
        t.disp.get u.other = s.disp.get u.other ∧ t.dma.get u.other = s.dma.get u.other ∧
        t = { s with regs := t.regs, overflow := t.overflow, log := t.log, disp := t.disp, dma := t.dma, capture := t.capture }

/-- R288, R296, R303: a channel between descriptors fetches the next one, an idle one where an engine task starts it at its
first address: the 64 bytes that stand at the address, taken down to a multiple of 64 (log entry 71), little-endian, in the
context of the channel. A valid one runs from its first element, one of a reserved or empty form stops the channel with CAUSE 8,
and an address that does not translate stops it with side 3 and the fault's cause. A stopped channel that its task resumes goes
on from its recorded position. A channel with a descriptor, one that waits for LANDED and one that is idle and not started fetch
nothing. R293, R294, R220: the last write of a descriptor has left: it is counted, the channel goes on to the next descriptor or
ends at an address of 0, and waits for LANDED under FENCE; LANDED ends that wait; a stalled packet write enters its queue once
it fits, its bytes counted then. -/
def Obligations.DescriptorsAreFetchedAndCompleted : Prop :=
  (
  (∀ (u : UnitId) (d : DmaId) (start : Option DmaStart) (y : Dma) (s : State),
    (dmaAt s u d).desc = none → (dmaAt s u d).awaitLanded = false →
    ((dmaAt s u d).mode = .running ∧ y = dmaAt s u d ∨
      ((dmaAt s u d).mode = .idle ∨ (dmaAt s u d).mode = .done) ∧
        ∃ st, start = some st ∧ y = { dmaAt s u d with descAddr := st.addr, ctx := st.ctx, owner := some st.task }) →
    ∃ t, exec (.descriptorFetch u d start) s = .next t ∧
      (∀ a x, translate s u (chanContext d y) (y.descAddr / 64 * 64) false = .ok a →
        x = parseDescriptor ((List.range 64).map fun i => homeByte s u (a + i)) →
        (descriptorInvalid x = false →
          (dmaAt t u d).desc = some x ∧ (dmaAt t u d).mode = .running ∧ (dmaAt t u d).pos = zeroPos ∧ (dmaAt t u d).bytePos = 0 ∧
          (dmaAt t u d).bytesWritten = 0 ∧ (dmaAt t u d).owner = y.owner ∧ t = { s with dma := t.dma }) ∧
        (descriptorInvalid x = true → (dmaAt t u d).desc = none ∧ (dmaAt t u d).mode = .stopped ∧ (dmaAt t u d).cause = 8)) ∧
      (∀ k, translate s u (chanContext d y) (y.descAddr / 64 * 64) false = .error k →
        (dmaAt t u d).desc = none ∧ (dmaAt t u d).mode = .stopped ∧ (dmaAt t u d).cause = 2 + k ∧ (dmaAt t u d).faultSide = 3 ∧
        (dmaAt t u d).faultAddr = y.descAddr) ∧
      (∀ e, e ≠ d → dmaAt t u e = dmaAt s u e) ∧ t.dma.get u.other = s.dma.get u.other ∧
      t = { s with regs := t.regs, overflow := t.overflow, disp := t.disp, dma := t.dma, capture := t.capture }) ∧
  (∀ (u : UnitId) (d : DmaId) (st : DmaStart) (s : State), (dmaAt s u d).mode = .stopped →
    (st.resume = true → (dmaAt s u d).owner = some st.task →
      ∃ t, exec (.descriptorFetch u d (some st)) s = .next t ∧
        dmaAt t u d = { dmaAt s u d with mode := .running, cause := 0, faultSide := 0, faultAddr := 0, faultCtx := 0 } ∧
        (∀ e, e ≠ d → dmaAt t u e = dmaAt s u e) ∧ t = { s with dma := t.dma }) ∧
    (st.resume = false ∨ (dmaAt s u d).owner ≠ some st.task → exec (.descriptorFetch u d (some st)) s = .next s)) ∧
  ∀ (u : UnitId) (d : DmaId) (start : Option DmaStart) (s : State),
    ((dmaAt s u d).mode ≠ .stopped ∧ ((dmaAt s u d).desc.isSome = true ∨ (dmaAt s u d).awaitLanded = true)) ∨
      (((dmaAt s u d).mode = .idle ∨ (dmaAt s u d).mode = .stopped) ∧ start = none) →
    exec (.descriptorFetch u d start) s = .next s) ∧
  (
  (∀ (u : UnitId) (d : DmaId) (x : Descriptor) (s : State), (dmaAt s u d).desc = some x → (dmaAt s u d).mode = .running →
    finishedPos x (dmaAt s u d).pos = true → (dmaAt s u d).packetElems = 0 →
    ∃ t, exec (.descriptorComplete u d) s = .next t ∧ (dmaAt t u d).doneCount = ((dmaAt s u d).doneCount + 1) % 65536 ∧
      (dmaAt t u d).desc = none ∧ (dmaAt t u d).descAddr = x.nextAddr ∧ (dmaAt t u d).awaitLanded = x.fence ∧
      (dmaAt t u d).mode = (if x.nextAddr = 0 then .done else .running) ∧ (∀ e, e ≠ d → dmaAt t u e = dmaAt s u e) ∧
      t = { s with regs := t.regs, overflow := t.overflow, disp := t.disp, dma := t.dma, capture := t.capture }) ∧
  (∀ (u : UnitId) (d : DmaId) (s : State),
    ∃ t, exec (.landed u d) s = .next t ∧ dmaAt t u d = { dmaAt s u d with awaitLanded := false } ∧
      (∀ e, e ≠ d → dmaAt t u e = dmaAt s u e) ∧ t = { s with dma := t.dma }) ∧
  (∀ (u : UnitId) (d : DmaId) (s : State), (dmaAt s u d).desc = none →
    exec (.descriptorComplete u d) s = .next s ∧ exec (.dmaStallResume u d) s = .next s) ∧
  ∀ (u : UnitId) (d : DmaId) (x : Descriptor) (s : State), (dmaAt s u d).desc = some x → (dmaAt s u d).mode = .stalled →
    (flowTakes s (finOf 256 (by decide) x.flow) [readoutPacket s u d x ((dmaAt s u d).stalledAt.getD zeroPos) (finishedPos x (dmaAt s u d).pos)] = true →
      ∃ t, exec (.dmaStallResume u d) s = .next t ∧
        dmaAt t u d = { dmaAt s u d with
          mode := .running, bytesWritten := (dmaAt s u d).bytesWritten + (dmaAt s u d).packetElems * x.elemBytes
          packetElems := 0, packetData := [], stalledAt := none } ∧
        (∀ e, e ≠ d → dmaAt t u e = dmaAt s u e) ∧ t = { s with flows := t.flows, dma := t.dma }) ∧
    (flowTakes s (finOf 256 (by decide) x.flow) [readoutPacket s u d x ((dmaAt s u d).stalledAt.getD zeroPos) (finishedPos x (dmaAt s u d).pos)] = false →
      exec (.dmaStallResume u d) s = .next s))

/-- R289, R291, R292: in its turn among the unit's channels, a burst of a descriptor of one element copies its bytes from the
translated source addresses to the translated destination addresses and moves past its element; every other byte of both units
is as before. With a flow as its destination the element's packet enters the flow's queue, or, refused, stalls the channel. A
channel whose turn it is not, that is not running, or has no descriptor, moves nothing. -/
def Obligations.BurstCopiesTheElement : Prop :=
  (∀ (u : UnitId) (d : DmaId) (found : List (Nat × EccResult)) (s : State), burstTurn s u ≠ some d → exec (.dmaBurst u d found) s = .next s) ∧
  (∀ (u : UnitId) (d : DmaId) (s : State), (dmaAt s u d).mode ≠ .running ∨ (dmaAt s u d).desc = none → burstTurn s u ≠ some d) ∧
  (∀ (u : UnitId) (d : DmaId) (x : Descriptor) (f : FlowId) (src : Nat → Nat) (s : State),
    burstTurn s u = some d → (dmaAt s u d).desc = some x → descriptorInvalid x = false → x.dstKind = 1 →
    x.count = zeroPos → (dmaAt s u d).pos = zeroPos → (dmaAt s u d).bytePos = 0 → (dmaAt s u d).packetElems = 0 →
    f = finOf 256 (by decide) x.flow →
    (∀ i, i < x.elemBytes → translateInt s u (sourceContext d x) (x.srcAddr + i) false = .ok (src i)) →
    ∃ t, exec (.dmaBurst u d []) s = .next t ∧ DramSame s t ∧
      ((dmaAt t u d).mode = .running → (dmaAt t u d).packetElems = 0 ∧
        (dmaAt t u d).bytesWritten = (dmaAt s u d).bytesWritten + x.elemBytes ∧
        t.flows[f].queue.length = s.flows[f].queue.length + 1) ∧
      ((dmaAt t u d).mode ≠ .running → (dmaAt t u d).mode = .stalled ∧ (dmaAt t u d).packetElems = 1 ∧
        t.flows[f].queue = s.flows[f].queue) ∧
      finishedPos x (dmaAt t u d).pos = true ∧ (∀ g, g ≠ f → t.flows[g] = s.flows[g]) ∧
      (∀ e, e ≠ d → dmaAt t u e = dmaAt s u e) ∧ t.dma.get u.other = s.dma.get u.other ∧
      t = { s with regs := t.regs, overflow := t.overflow, flows := t.flows, counts := t.counts, dram := t.dram, dma := t.dma }) ∧
  ∀ (u : UnitId) (d : DmaId) (x : Descriptor) (src dst : Nat → Nat) (s : State),
    burstTurn s u = some d → (dmaAt s u d).desc = some x → descriptorInvalid x = false → x.dstKind = 0 →
    x.count = zeroPos → (dmaAt s u d).pos = zeroPos → (dmaAt s u d).bytePos = 0 →
    assocWf unlistedByte (s.dram.get u).mem = true →
    (∀ i, i < x.elemBytes → translateInt s u (sourceContext d x) (x.srcAddr + i) false = .ok (src i)) →
    (∀ i, i < x.elemBytes → translateInt s u x.dstCtx (x.dstAddr + i) true = .ok (dst i)) →
    (∀ i j, i < x.elemBytes → j < x.elemBytes → dst i = dst j → i = j) →
    ∃ t, exec (.dmaBurst u d []) s = .next t ∧
      (∀ i, i < x.elemBytes → dramByte (t.dram.get u) (dst i) = homeByte s u (src i)) ∧
      (∀ a, (∀ i, i < x.elemBytes → a ≠ dst i) → dramByte (t.dram.get u) a = dramByte (s.dram.get u) a) ∧
      (dmaAt t u d).bytesWritten = (dmaAt s u d).bytesWritten + x.elemBytes ∧ finishedPos x (dmaAt t u d).pos = true ∧
      (∀ e, e ≠ d → dmaAt t u e = dmaAt s u e) ∧ t.dram.get u.other = s.dram.get u.other ∧
      t.dma.get u.other = s.dma.get u.other ∧ t = { s with regs := t.regs, counts := t.counts, dram := t.dram, dma := t.dma }

/-- Table 12-6, R301: arm is taken in IDLE with a channel running and a ring of pictures, disarm while ARMED, release in HELD,
READING and LOST, where every running readout is aborted; each is refused elsewhere and leaves the ring empty where it is taken.
R300, R301: a trigger, by command, at the selected edge of an enabled TRIG pin, or at the TB0 time written, is taken while ARMED
with the time of its stamp and is counted and ignored in every other state. A time that has passed triggers at its write. The
header of a trigger picture already finished is written again; no other byte of memory changes. -/
def Obligations.CaptureFollowsCommandsAndTriggers : Prop :=
  (
  ∀ (k : Client) (s : State), Served s k 0x2900 →
    (s.capture.mode = .idle → anyChannelRunning s = true → 0 < s.capture.capacity →
      ∃ t, exec (.arm k) s = .next t ∧ answered t k = some .ack ∧ t.capture.mode = .armed ∧ t.capture.slots = [] ∧
        t = { s with regs := t.regs, capture := t.capture, clients := t.clients, maint := t.maint }) ∧
    ((s.capture.mode ≠ .idle ∨ anyChannelRunning s = false ∨ s.capture.capacity = 0) →
      exec (.arm k) s = .next (answer s k (.abort .presentState))) ∧
    (s.capture.mode = .armed →
      ∃ t, exec (.disarm k) s = .next t ∧ answered t k = some .ack ∧ t.capture.mode = .idle ∧ t.capture.slots = [] ∧
        t = { s with regs := t.regs, capture := t.capture, clients := t.clients, maint := t.maint }) ∧
    (s.capture.mode ≠ .armed → exec (.disarm k) s = .next (answer s k (.abort .presentState))) ∧
    ((s.capture.mode = .held ∨ s.capture.mode = .reading ∨ s.capture.mode = .lost) →
      ∃ t, exec (.release k) s = .next t ∧ answered t k = some .ack ∧ t.capture.mode = .idle ∧ t.capture.slots = [] ∧
        (s.capture.mode ≠ .lost → ∀ d : DmaId, d.val < 4 → dmaActive (dmaAt t (viewUnit s) d) = false) ∧
        (∀ d : DmaId, 4 ≤ d.val → dmaAt t (viewUnit s) d = dmaAt s (viewUnit s) d) ∧
        t = { s with regs := t.regs, overflow := t.overflow, disp := t.disp, dma := t.dma, capture := t.capture,
                     clients := t.clients, maint := t.maint }) ∧
    (s.capture.mode ≠ .held → s.capture.mode ≠ .reading → s.capture.mode ≠ .lost →
      exec (.release k) s = .next (answer s k (.abort .presentState)))) ∧
  (
  (∀ (k : Client) (s : State), Served s k 0x2900 →
    ∃ t, exec (.trigger k) s = .next t ∧ answered t k = some .ack ∧ TriggerTaken s t ∧
      (s.capture.mode ≠ .armed → t.dram = s.dram) ∧
      (s.relay.active.isSome = true ∨ s.capture.mode ≠ .armed →
        OnlySlotHeaders s t ∧
        t = { s with regs := t.regs, overflow := t.overflow, emcy := t.emcy, log := t.log, counts := t.counts, dram := t.dram,
                     relay := t.relay, capture := t.capture, clients := t.clients, maint := t.maint })) ∧
  (∀ (n : Fin 4) (falling : Bool) (s : State),
    ((applied s (kCapture 4)).testBit n.val = true → (applied s (kCapture 4)).testBit (4 + n.val) = falling →
      ∃ t, exec (.trigPinEdge n falling) s = .next t ∧ TriggerTaken s t ∧ t.pins.trigStamp.get n = s.time.tb0 ∧
        (s.capture.mode ≠ .armed → t.dram = s.dram) ∧
        (s.relay.active.isSome = true ∨ s.capture.mode ≠ .armed →
          OnlySlotHeaders s t ∧
          t = { s with regs := t.regs, overflow := t.overflow, emcy := t.emcy, log := t.log, counts := t.counts, dram := t.dram,
                       relay := t.relay, capture := t.capture, pins := t.pins })) ∧
    ((applied s (kCapture 4)).testBit n.val = false ∨ (applied s (kCapture 4)).testBit (4 + n.val) ≠ falling → exec (.trigPinEdge n falling) s = .next s)) ∧
  (∀ s : State,
    (s.capture.timePending = true → cfg s (kCapture 5) ≤ tb0Value s →
      ∃ t, exec .triggerTimeReached s = .next t ∧ t.capture.timePending = false ∧ TriggerTaken s t ∧
        (s.capture.mode ≠ .armed → t.dram = s.dram) ∧
        (s.relay.active.isSome = true ∨ s.capture.mode ≠ .armed →
          OnlySlotHeaders s t ∧
          t = { s with regs := t.regs, overflow := t.overflow, emcy := t.emcy, log := t.log, counts := t.counts, dram := t.dram,
                       relay := t.relay, capture := t.capture })) ∧
    (s.capture.timePending = false ∨ tb0Value s < cfg s (kCapture 5) → exec .triggerTimeReached s = .next s)) ∧
  ∀ (k : Client) (v : BitVec 128) (s : State), Served s k 0x2900 →
    ∃ t, exec (.triggerTimeWrite k v) s = .next t ∧ answered t k = some .ack ∧
      t.capture.timePending = decide (tb0Value s < v.toNat) ∧
      (assocWf defaultOf s.dict.master = true → cfg t (kCapture 5) = v.toNat) ∧
      (v ≠ 0 → v.toNat ≤ tb0Value s → TriggerTaken s t ∧ (assocWf defaultOf s.regs = true → flag t (kCapture 8) 29 = true)) ∧
      (v = 0 ∨ tb0Value s < v.toNat → t.regs = s.regs ∧ t.capture.mode = s.capture.mode) ∧
      (s.capture.mode ≠ .armed → t.dram = s.dram) ∧
      (s.relay.active.isSome = true ∨ s.capture.mode ≠ .armed →
        OnlySlotHeaders s t ∧
        t = { s with dict := t.dict, regs := t.regs, overflow := t.overflow, emcy := t.emcy, log := t.log, counts := t.counts, dram := t.dram,
                     relay := t.relay, capture := t.capture, clients := t.clients, maint := t.maint }))

/-- R303, R304, R296, R297: a readout starts where its check passes and it does not run, with the pictures asked for, its
descriptors written into its descriptor area and no other byte of memory; the reason reads in its status. An abort stops its
active channel with CAUSE 1; a resume goes on from the recorded position. -/
def Obligations.ReadoutsStartAbortAndResume : Prop :=
  ∀ (k : Client) (r : ReadoutId) (s : State), Served s k (0x2901 + r.val) →
    (readoutReason s r = 0 → s.capture.readouts[r].running = false → 0 < cfg s (kReadout r 6) →
      ∃ t, exec (.readoutStart k r) s = .next t ∧ answered t k = some .ack ∧ t.capture.mode = .reading ∧
        t.capture.readouts[r].running = true ∧ t.capture.readouts[r].todo.length = cfg s (kReadout r 6) ∧
        t.capture.slots = s.capture.slots ∧ (dmaAt t (viewUnit s) (readoutDma r)).mode = .running ∧
        (dmaAt t (viewUnit s) (readoutDma r)).desc = none ∧
        (∀ a, (∀ i b, translate s (viewUnit s) (finOf 64 (by decide) (10 + r.val)) (descriptorArea + 64 * i) false = .ok b → a < b ∨ b + 64 ≤ a) →
          dramByte (t.dram.get (viewUnit s)) a = dramByte (s.dram.get (viewUnit s)) a) ∧
        t.dram.get (viewUnit s).other = s.dram.get (viewUnit s).other ∧
        t = { s with regs := t.regs, counts := t.counts, dram := t.dram, dma := t.dma, capture := t.capture, clients := t.clients,
                     maint := t.maint }) ∧
    ((readoutReason s r ≠ 0 ∨ s.capture.readouts[r].running = true) →
      ∃ t, exec (.readoutStart k r) s = .next t ∧ answered t k = some (.abort .presentState) ∧
        (assocWf defaultOf s.regs = true → fieldOf (regGet t (kReadout r 0x0A)) 31 28 = readoutReason s r) ∧
        t = { s with regs := t.regs, clients := t.clients, maint := t.maint }) ∧
    (∃ t, exec (.readoutAbort k r) s = .next t ∧ answered t k = some .ack ∧
      (dmaActive (dmaAt s (viewUnit s) (readoutDma r)) = true →
        (dmaAt t (viewUnit s) (readoutDma r)).mode = .stopped ∧ (dmaAt t (viewUnit s) (readoutDma r)).cause = 1) ∧
      (∀ d, d ≠ readoutDma r → dmaAt t (viewUnit s) d = dmaAt s (viewUnit s) d) ∧
      t = { s with regs := t.regs, overflow := t.overflow, disp := t.disp, dma := t.dma, capture := t.capture,
                   clients := t.clients, maint := t.maint }) ∧
    ((dmaAt s (viewUnit s) (readoutDma r)).mode ≠ .stopped →
      exec (.readoutResume k r) s = .next (answer s k (.abort .presentState))) ∧
    ((s.capture.mode = .held ∨ s.capture.mode = .reading) → (dmaAt s (viewUnit s) (readoutDma r)).mode = .stopped →
      s.capture.readouts[r].todo ≠ [] →
      ∃ t, exec (.readoutResume k r) s = .next t ∧ answered t k = some .ack ∧ t.capture.mode = .reading ∧
        t.capture.readouts[r].running = true ∧ (dmaAt t (viewUnit s) (readoutDma r)).mode = .running ∧
        (dmaAt t (viewUnit s) (readoutDma r)).pos = (dmaAt s (viewUnit s) (readoutDma r)).pos ∧
        t = { s with dma := t.dma, capture := t.capture, clients := t.clients, maint := t.maint })


/-! ## Relay (13_relay.md) -/

/-- R325, R328, R329, R331: the commands of 0x2010:02. Planned and forced switch wait for their tick, lockout abandons a pending
switch, all but ending the lockout and abandoning are refused in LOCKED_OUT; ending it leaves for the state that readiness
gives. R331: setting the reversion lock cancels a pending reversion; clearing it starts the hold-off again where the home unit
is the ready standby back from repair; a value above 1 is out of range. The hold-off run out starts a planned switch. -/
def Obligations.RelayCommandsAndReversion : Prop :=
  (
  ∀ (k : Client) (s : State), Served s k 0x2010 →
    (s.relay.mode ≠ .lockedOut →
      exec (.plannedSwitch k) s = .next (answer { touchClient s k with relay := { s.relay with planned := true } } k .ack) ∧
      exec (.forcedSwitch k) s = .next (answer { touchClient s k with relay := { s.relay with forced := true } } k .ack) ∧
      ∃ t, exec (.lockout k) s = .next t ∧ answered t k = some .ack ∧ t.relay.mode = .lockedOut ∧ t.relay.planned = false ∧
        t.relay.forced = false ∧ t.relay.switchTick = none ∧ t.relay.holdOffAt = none ∧ t.relay.active = s.relay.active ∧
        t = { s with relay := t.relay, clients := t.clients, maint := t.maint }) ∧
    (s.relay.mode = .lockedOut →
      exec (.plannedSwitch k) s = .next (answer s k (.abort .presentState)) ∧
      exec (.forcedSwitch k) s = .next (answer s k (.abort .presentState)) ∧
      exec (.lockout k) s = .next (answer s k (.abort .presentState)) ∧
      exec (.retryRepair k) s = .next (answer s k (.abort .presentState)) ∧
      exec (.endLockout k) s =
        .next (answer (startHoldOff { touchClient s k with relay := { s.relay with mode := modeByReadiness s } }) k .ack) ∧
      ∀ src, s.relay.fault = some src → ∃ t, exec .arbiterLatch s = .next t ∧ t.relay.latched = s.relay.latched ∧
        t.relay.active = s.relay.active) ∧
    ∃ t, exec (.abandonPlannedSwitch k) s = .next t ∧ answered t k = some .ack ∧ t.relay.planned = false ∧
      t.relay.switchTick = none ∧
      t.relay.mode = (if s.relay.mode = .draining ∨ s.relay.mode = .warming then .standbyReady else s.relay.mode) ∧
      t = { s with relay := t.relay, clients := t.clients, maint := t.maint }) ∧
  (
  (∀ (k : Client) (v : Nat) (s : State), Served s k 0x2010 → assocWf defaultOf s.dict.master = true →
    (1 < v → exec (.reversionLockWrite k v) s = .next (answer s k (.abort .outOfRange))) ∧
    (v = 1 → ∃ t, exec (.reversionLockWrite k v) s = .next t ∧ answered t k = some .ack ∧ reversionLocked t = true ∧
      t.relay.holdOffAt = none ∧
      t.relay.mode = (if s.relay.mode = .revertPending then .standbyReady else s.relay.mode) ∧
      t = { s with dict := t.dict, relay := t.relay, clients := t.clients, maint := t.maint }) ∧
    (v = 0 → ∃ t, exec (.reversionLockWrite k v) s = .next t ∧ answered t k = some .ack ∧ reversionLocked t = false ∧
      (s.relay.repairDone = true → standbyOf s = some (homeUnit s) → s.relay.mode = .standbyReady →
        t.relay.mode = .revertPending ∧ t.relay.holdOffAt = some (s.now + cfg s (key 0x2010 5) * cyclesPerSec)) ∧
      t = { s with dict := t.dict, relay := t.relay, clients := t.clients, maint := t.maint })) ∧
  ∀ (at_ : Nat) (s : State), s.relay.holdOffAt = some at_ →
    (at_ ≤ s.now → s.relay.mode = .revertPending → reversionLocked s = false →
      exec .holdOffExpiry s = .next { s with relay := { s.relay with planned := true, holdOffAt := none } }) ∧
    (s.now < at_ → exec .holdOffExpiry s = .next s))

/-- R318, R319: a unit fault of the active unit sets its status bit and waits for the arbiter, the first one reported; one of
the other unit outside WARMING puts that unit into repair, where it is not in repair and the relay not FAILED. R319, R327, R328:
at T-64 the arbiter latches a fault, or else a forced switch, or else the planned switch of the next tick, for the next tick
where the standby is ready, its stand-ins built and checked, and the selectors do not hold (01_module.md R20); with the standby
not ready or the relay LOCKED_OUT a fault sets FAULT_N's cause once and no hand-over is latched. -/
def Obligations.FaultsAreReportedAndLatched : Prop :=
  (
  ∀ (u : UnitId) (src : UnitFaultSource) (s : State),
    (s.relay.active = some u → ∃ t, exec (.unitFault u src) s = .next t ∧
      t.relay = { s.relay with fault := s.relay.fault <|> some (faultRow src).2.2.2 } ∧
      (src ≠ .clockOrRail → assocWf defaultOf s.regs = true → flag t (faultRow src).1 (faultRow src).2.1 = true) ∧
      t = { s with regs := t.regs, overflow := t.overflow, emcy := t.emcy, log := t.log, relay := t.relay }) ∧
    (s.relay.active ≠ some u → s.relay.mode ≠ .warming → s.relay.mode ≠ .failed → s.relay.repair = .none →
      ∃ t, exec (.unitFault u src) s = .next t ∧ t.relay.repair = .inReset s.now ∧ t.relay.repairUnit = u ∧
        t.relay.active = s.relay.active ∧ (t.boot.get u).mode = .inReset ∧ t.disp.get u = dispReset ∧ t.disp.get u.other = s.disp.get u.other ∧
        t.chans = s.chans ∧ t.streams = s.streams ∧ t.flows = s.flows ∧ t.dict = s.dict ∧
        (assocWf defaultOf s.regs = true → regGet t (key 0x2010 0x0E) = 1))) ∧
  (
  ∀ s : State,
    (∀ src, s.relay.fault = some src → standbyIsReady s = true → standInsReady s = true → s.lap.voterHold = false →
      s.relay.mode ≠ .lockedOut →
      exec .arbiterLatch s = .next { s with relay := { s.relay with latched := some { planned := false, source := src } } }) ∧
    (∀ src, s.relay.fault = some src → (standbyIsReady s = false ∨ standInsReady s = false ∨ s.lap.voterHold = true ∨ s.relay.mode = .lockedOut) →
      ∃ t, exec .arbiterLatch s = .next t ∧ t.relay = { s.relay with refusedNow := true } ∧
        (s.relay.refusedNow = false → assocWf defaultOf s.regs = true →
          flag t kRelayStatus 28 = true ∧ flag t kIntegrity 29 = true) ∧
        t = { s with regs := t.regs, overflow := t.overflow, emcy := t.emcy, log := t.log, relay := t.relay }) ∧
    (s.relay.fault = none → s.relay.forced = false → s.relay.mode = .warming → s.relay.switchTick = some (s.lap.count + 1) →
      exec .arbiterLatch s = .next { s with relay := { s.relay with
        latched := if standbyIsReady s && standInsReady s && !s.lap.voterHold then some { planned := true, source := 0 } else none } }) ∧
    (s.relay.fault = none → s.relay.forced = false → s.relay.mode ≠ .warming → exec .arbiterLatch s = .next s) ∧
    (s.relay.fault = none → s.relay.forced = true → s.lap.voterHold = true →
      exec .arbiterLatch s = .next { s with relay := { s.relay with forced := false, latched := none } }) ∧
    (s.relay.fault = none → s.relay.forced = true → s.lap.voterHold = false →
      exec .arbiterLatch s = .next { s with relay := { s.relay with
        forced := false
        latched := if standbyIsReady s && standInsReady s then some { planned := false, source := 0 } else none } }))

/-- R190, R191, R157, R308: at the port's first switch boundary at or after the hand-over tick a port and the monitor pass to
the active unit, cutting a frame in transmission; before it, and while the selectors hold (01_module.md R20), nothing switches.
A home unit not booted 2 s after the other, or with a boot fault, leaves the other to be made active. -/
def Obligations.SelectorsFollowTheActiveUnit : Prop :=
  (∀ (p : PortId) (u : UnitId) (s : State), s.relay.active = some u →
    (s.ports[p].selected = some u ∨ s.lap.voterHold = true ∨ s.now < switchBoundary s p → exec (.selectorSwitch p) s = .next s) ∧
    (s.ports[p].selected ≠ some u → s.lap.voterHold = false → switchBoundary s p ≤ s.now → ∃ t, exec (.selectorSwitch p) s = .next t ∧ t.ports[p].selected = some u ∧
      t.mon.selected = some u ∧ (∀ o, s.mon.selected = some o → o ≠ u → t.mon.grey = true) ∧ t.ports[p].busyUntil ≤ max s.now s.ports[p].busyUntil ∧
      (s.now < s.ports[p].busyUntil → t.ports[p].busyUntil = s.now ∧ t.ports[p].wire = none) ∧
      (∀ q : PortId, q ≠ p → t.ports[q] = s.ports[q]) ∧
      t = { s with regs := t.regs, mon := t.mon, ports := t.ports, flows := t.flows, counts := t.counts, time := t.time })) ∧
  (∀ s : State, s.lap.voterHold = true → exec .homeBootTimeout s = .next s) ∧
  ∀ (s : State), s.relay.active = none → s.lap.voterHold = false → (s.boot.get (homeUnit s).other).mode = .booted →
    (((s.boot.get (homeUnit s).other).bootedAt + 2 * cyclesPerSec ≤ s.now ∧ (s.boot.get (homeUnit s)).mode ≠ .booted) ∨
      (s.boot.get (homeUnit s)).mode = .bootFault) →
    ∃ t, exec .homeBootTimeout s = .next t ∧ t.relay.active = some (homeUnit s).other ∧
      (∀ q : PortId, t.ports[q].selected = some (homeUnit s).other) ∧
      (s.relay.mode ≠ .lockedOut → t.relay.mode = .exposed) ∧
      t = { s with regs := t.regs, overflow := t.overflow, relay := t.relay, ports := t.ports, mon := t.mon, flows := t.flows, counts := t.counts }

/-- R315 to R317: a unit checks the baton that was written into its free slot, its 8,192 bytes as the unit reads them. One whose
CRC and ALIVE hold is the last one from then on; one whose CRC fails is restored from the mirror (11_dram.md R281), and one that
fails either check leaves the last one and counts as a baton fault, the second in a row makes the baton stale; with none written
nothing happens. A complete release report reaches the standby, an incomplete one is none, and without a standby nothing
changes. Each is a record of check-value unit 4 (14_integrity.md R343). -/
def Obligations.BatonsAreCheckedAndKept : Prop :=
  (∀ (u : UnitId) (damage : List (Nat × Byte)) (s : State), (s.baton.get u).written = false → exec (.batonCheck u damage) s = .next s) ∧
  (∀ (u : UnitId) (damage : List (Nat × Byte)) (r : Baton) (bytes : List Byte) (s : State), (s.baton.get u).written = true →
    (s.baton.get u).slots.get (freeSlot (s.baton.get u)) = some r → bytes = damagedBytes (batonBytes r) damage →
    (batonCrcOk bytes = true → ((s.baton.get u).expected = none ∨ (s.baton.get u).expected = some (parseBaton bytes).alive) →
      ∃ t, exec (.batonCheck u damage) s = .next t ∧ t.baton.get u = batonAccept (mirrorNow s u) (s.baton.get u) (parseBaton bytes) ∧
        (t.baton.get u).last = some (freeSlot (s.baton.get u)) ∧
        (t.baton.get u).slots.get (freeSlot (s.baton.get u)) = some (parseBaton bytes) ∧
        (∀ i, i ≠ freeSlot (s.baton.get u) → (t.baton.get u).slots.get i = (s.baton.get u).slots.get i) ∧
        (s.relay.active = some u → (t.baton.get u).mirror.head? = some (parseBaton bytes)) ∧
        t.baton.get u.other = s.baton.get u.other ∧ t = { s with regs := t.regs, overflow := t.overflow, baton := t.baton }) ∧
    (batonCrcOk bytes = false →
      ∃ t, exec (.batonCheck u damage) s = .next t ∧
        t.baton.get u = { restoreSlot (s.baton.get u) with misses := (s.baton.get u).misses + 1 } ∧
        (t.baton.get u).slots.get (freeSlot (s.baton.get u)) = (s.baton.get u).mirror.head? ∧
        ((s.baton.get u).misses = 1 → assocWf defaultOf s.regs = true → flag t kRelayStatus 30 = true) ∧
        (assocWf defaultOf s.regs = true → flag t (kCv 4 9) 31 = true) ∧
        ((s.baton.get u).misses ≠ 1 ∨ s.relay.active = some u → t.relay = s.relay) ∧
        t.baton.get u.other = s.baton.get u.other ∧
        t = { s with regs := t.regs, overflow := t.overflow, emcy := t.emcy, log := t.log, relay := t.relay, baton := t.baton }) ∧
    (∀ e, batonCrcOk bytes = true → (s.baton.get u).expected = some e → e ≠ (parseBaton bytes).alive →
      ∃ t, exec (.batonCheck u damage) s = .next t ∧
        t.baton.get u = { s.baton.get u with
          written := false, expected := some (((parseBaton bytes).alive + 1) % 65536), misses := (s.baton.get u).misses + 1 } ∧
        (assocWf defaultOf s.regs = true → flag t (kCv 4 9) 30 = true) ∧
        ((s.baton.get u).misses ≠ 1 ∨ s.relay.active = some u → t.relay = s.relay) ∧ t.baton.get u.other = s.baton.get u.other ∧
        t = { s with regs := t.regs, overflow := t.overflow, emcy := t.emcy, log := t.log, relay := t.relay, baton := t.baton })) ∧
  ∀ (pairs crc : List Byte) (s : State),
    (standbyOf s = none → exec (.releaseReport pairs crc) s = .next s) ∧
    ∀ u, standbyOf s = some u → ∃ t, exec (.releaseReport pairs crc) s = .next t ∧
      t.baton = s.baton.mod u (fun b => { b with report := if reportGood pairs crc then some (reportPairs pairs) else none }) ∧
      t = { s with regs := t.regs, overflow := t.overflow, baton := t.baton }

/-- R330: the repaired unit leaves its reset after 10 ms and boots; a self-test that fails in repair leaves it waiting for 60 s,
and after the third attempt FAILED, one that fails outside repair begins one; a pass that has covered every block within 90 s
ends the repair; a new attempt resets the unit again. A step of the self-test begins where none is in progress and its block may
be tested, a DRAM pattern keeps segment 0, and a step not finished is repeated (R310). -/
def Obligations.RepairRunsItsAttempts : Prop :=
  (∀ (at_ : Nat) (s : State), s.relay.repair = .inReset at_ →
    (at_ + 10 * cyclesPerMs ≤ s.now → ∃ t, exec .repairResetRelease s = .next t ∧ t.relay.repair = .booting ∧
      (t.boot.get s.relay.repairUnit).mode = .booting ∧ t.rst.asserted = s.rst.asserted &&& 0xBF ∧
      t = { s with rst := t.rst, relay := t.relay, boot := t.boot }) ∧
    (s.now < at_ + 10 * cyclesPerMs → exec .repairResetRelease s = .next s)) ∧
  (∀ (u : UnitId) (block : Nat) (s : State), standbyOf s = some u → s.relay.repair = .testing →
    ∃ t, exec (.selfTestStep (.failed block)) s = .next t ∧ (t.selfTest.get u).stepFailed = true ∧
      (t.boot.get s.relay.repairUnit).mode = .inReset ∧
      (regGet s (key 0x2010 0x0E) < 3 → t.relay.repair = .waiting s.now ∧ t.relay.mode = s.relay.mode) ∧
      (3 ≤ regGet s (key 0x2010 0x0E) → t.relay.repair = .none ∧ t.relay.dead = true ∧
        t.relay.mode = (if s.relay.mode = .lockedOut then .lockedOut else .failed)) ∧
      t = { s with regs := t.regs, overflow := t.overflow, emcy := t.emcy, log := t.log, relay := t.relay,
                   selfTest := t.selfTest, boot := t.boot }) ∧
  (∀ (u : UnitId) (block : Nat) (s : State), standbyOf s = some u → s.relay.repair = .none → s.relay.mode ≠ .warming → s.relay.mode ≠ .failed →
    ∃ t, exec (.selfTestStep (.failed block)) s = .next t ∧ t.relay.repair = .inReset s.now ∧ t.relay.repairUnit = u ∧
      t.relay.active = s.relay.active ∧ t.chans = s.chans ∧ t.streams = s.streams ∧ t.flows = s.flows ∧ t.dict = s.dict) ∧
  (∀ (u : UnitId) (b : SelfTestBlock) (s : State), standbyOf s = some u →
    ((s.selfTest.get u).step = none → testable s u b = true →
      ∃ t, exec (.selfTestStep (.begun b)) s = .next t ∧ (t.selfTest.get u).step = some b ∧ t.selfTest.get u.other = s.selfTest.get u.other ∧
        (∀ r, b = .pattern r → ∀ a, a < segmentBytes → dramByte (t.dram.get u) a = dramByte (s.dram.get u) a) ∧
        ((∀ r, b ≠ .pattern r) → t.dram = s.dram) ∧ ((∀ i, b ≠ .batonSlot i) → t.baton = s.baton) ∧
        t = { s with free := t.free, dram := t.dram, baton := t.baton, selfTest := t.selfTest }) ∧
    ((s.selfTest.get u).step.isSome = true ∨ testable s u b = false → exec (.selfTestStep (.begun b)) s = .next s) ∧
    (∃ t, exec (.selfTestStep .passed) s = .next t ∧
      t.selfTest.get u = { s.selfTest.get u with
        step := none, covered := (s.selfTest.get u).covered ++ (s.selfTest.get u).step.toList } ∧
      t.selfTest.get u.other = s.selfTest.get u.other ∧ t = { s with selfTest := t.selfTest }) ∧
    ∃ t, exec (.selfTestStep .unfinished) s = .next t ∧
      t.selfTest.get u = { s.selfTest.get u with
        step := none, again := (s.selfTest.get u).again ++ (s.selfTest.get u).step.toList } ∧
      t.selfTest.get u.other = s.selfTest.get u.other ∧ t = { s with selfTest := t.selfTest }) ∧
  (∀ (r : SelfTestResult) (s : State), standbyOf s = none → exec (.selfTestStep r) s = .next s) ∧
  (∀ (u : UnitId) (s : State), standbyOf s = some u → passWhole s.now (s.selfTest.get u) = false →
    exec (.selfTestStep .passComplete) s = .next s) ∧
  (∀ (u : UnitId) (s : State), standbyOf s = some u → passWhole s.now (s.selfTest.get u) = true →
    ∃ t, exec (.selfTestStep .passComplete) s = .next t ∧ (t.selfTest.get u).covered = [] ∧ (t.selfTest.get u).passGood = !(s.selfTest.get u).stepFailed ∧
      (t.selfTest.get u).stepFailed = false ∧ (t.selfTest.get u).lastPass = s.now ∧
      (s.relay.repair = .testing → t.relay.repair = .none ∧ t.relay.repairDone = true) ∧
      (s.relay.repair ≠ .testing → t.relay = s.relay) ∧ t.selfTest.get u.other = s.selfTest.get u.other ∧
      t = { s with regs := t.regs, overflow := t.overflow, relay := t.relay, selfTest := t.selfTest }) ∧
  (∀ (at_ : Nat) (s : State), s.relay.repair = .waiting at_ →
    (at_ + 60 * cyclesPerSec ≤ s.now → ∃ t, exec .repairRetry s = .next t ∧ t.relay.repair = .inReset s.now ∧
      t.relay.repairUnit = s.relay.repairUnit ∧ (t.boot.get s.relay.repairUnit).mode = .inReset ∧
      t.chans = s.chans ∧ t.streams = s.streams ∧ t.flows = s.flows ∧ t.dict = s.dict) ∧
    (s.now < at_ + 60 * cyclesPerSec → exec .repairRetry s = .next s)) ∧
  ∀ (k : Client) (s : State), Served s k 0x2010 → s.relay.mode = .failed → phasesShort s = false →
    ∃ t, exec (.retryRepair k) s = .next t ∧ answered t k = some .ack ∧ t.relay.mode = .repairing ∧ t.relay.dead = false ∧
      t.relay.repair = .inReset s.now ∧ (assocWf defaultOf s.regs = true → regGet t (key 0x2010 0x0E) = 1) ∧
      t.chans = s.chans ∧ t.streams = s.streams ∧ t.flows = s.flows ∧ t.dict = s.dict


/-! ## Integrity (14_integrity.md), the controller's restart (01_module.md R19) -/

/-- R335, R336, R405: an engine's watchdog, a unit's rail, a unit's PLL and a mirrored write that a unit does not commit fault
that unit, each with its source. -/
def Obligations.UnitMonitorsFaultTheirUnit : Prop :=
  (∀ (u : UnitId) (e : EngineId) (s : State), ∃ t, exec (.engineWatchdogExpiry u e) s = .next t ∧ FaultTaken s t u 13 ∧
    (assocWf defaultOf s.regs = true → flag t kIntegrity 25 = true)) ∧
  (∀ (u : UnitId) (rail : Fin 7) (s : State), ∃ t, exec (.unitRailFault u rail) s = .next t ∧ FaultTaken s t u 12 ∧
    (t.boot.get u).railFault = true ∧ (t.boot.get u.other).railFault = (s.boot.get u.other).railFault) ∧
  (∀ (u : UnitId) (s : State), ∃ t, exec (.unitClockFault u) s = .next t ∧ FaultTaken s t u 12 ∧
    (t.boot.get u).clockFault = true ∧ (t.boot.get u.other).clockFault = (s.boot.get u.other).clockFault) ∧
  ∀ (u : UnitId) (s : State), ∃ t, exec (.mirrorTimeout u) s = .next t ∧ FaultTaken s t u 0

/-- R19: a lockstep mismatch or the controller's watchdog restarts the controller alone: no answer, no transfer, the unlock
ended, the servo in HOLDOVER, coding as before. Its end loads the dictionary image of the active unit's shadow and answers
again; with PTP disabled on every port the servo runs free from then on (10_time.md R251). -/
def Obligations.ControllerRestartsAlone : Prop :=
  (∀ s : State, s.ctrl.mode = .running → ∃ t, exec .controllerRestart s = .next t ∧ t.ctrl.mode = .restarting ∧
    t.ctrl.restartAt = s.now ∧ dictAnswers t = false ∧ t.maint.owner = none ∧ t.time.servo = .holdover ∧
    t.rst.asserted.getLsbD 4 = true ∧ (∀ k, (t.clients.get k).transfer = none ∧ (t.clients.get k).busy = false) ∧
    t = { s with regs := t.regs, time := t.time, rst := t.rst, flash := t.flash, ctrl := t.ctrl, clients := t.clients,
                 windows := t.windows, firmware := t.firmware, maint := t.maint, watch := t.watch }) ∧
  (∀ s : State, s.ctrl.mode = .running → ∃ t, exec .controllerWatchdogExpiry s = .next t ∧ t.ctrl.mode = .restarting ∧
    dictAnswers t = false ∧ t.maint.owner = none ∧ t.time.servo = .holdover ∧
    (assocWf defaultOf s.regs = true → flag t kIntegrity 25 = true) ∧ CodingKept s t ∧ t.relay = s.relay ∧ t.lap = s.lap) ∧
  (∀ s : State, s.ctrl.mode = .restarting → ∃ t, exec .controllerRestartDone s = .next t ∧ t.ctrl.mode = .running ∧
    dictAnswers t = true ∧ t.dict = { s.dict with master := (match viewUnit s with | .a => s.dict.shadowA | .b => s.dict.shadowB) } ∧
    (assocGet defaultOf t.dict.master (key 0x2201 1) % 16 = 0 → t.time = { s.time with servo := .freeRun, adj := 0, recentAdj := [] }) ∧
    (assocGet defaultOf t.dict.master (key 0x2201 1) % 16 ≠ 0 → t.time = s.time) ∧
    t = { s with dict := t.dict, regs := t.regs, overflow := t.overflow, emcy := t.emcy, log := t.log, ctrl := t.ctrl, time := t.time }) ∧
  ∀ s : State, s.ctrl.mode ≠ .restarting → exec .controllerRestartDone s = .next s

/-- R337, R393, R394: a reading of the temperature sensors moves each sensor's warning, fault and critical condition, above a
limit and back 5 K below it; a newly critical one raises the power-fail warning of cause 5. Coding is as before. -/
def Obligations.SensorReadingsMoveTheirConditions : Prop :=
  ∀ (values : Vector Nat 38) (s : State), ∃ t, exec (.sensorRead values) s = .next t ∧
    (∀ n : Fin 38, t.sensors.warn.getLsbD n.val =
      crossed (s.sensors.warn.getLsbD n.val) (sensorLimits n.val).1 (values.get n)) ∧
    (∀ n : Fin 38, t.sensors.fault.getLsbD n.val =
      crossed (s.sensors.fault.getLsbD n.val) (sensorLimits n.val).2.1 (values.get n)) ∧
    (∀ n : Fin 38, t.sensors.critical.getLsbD n.val =
      crossed (s.sensors.critical.getLsbD n.val) (sensorLimits n.val).2.2 (values.get n)) ∧
    (∀ n : Fin 38, s.stage.warn = none → s.sensors.critical.getLsbD n.val = false → t.sensors.critical.getLsbD n.val = true →
      t.stage.warn = some 5) ∧
    CodingKept s t ∧ t.pending = s.pending ∧ t.now = s.now

/-- R344: a check-value unit ends a record with its result; one compared with an expected value that differs is a mismatch, one
that agrees sets the alive value expected next. Only that unit's alive value may change. R348, R351: a write of 1 empties a
monitor slot in both units and no other slot; another value is out of range; a read of the minimum takes the snapshot of the
unit in view; the overflow list is emptied with LIST_FULL. -/
def Obligations.ChecksAndMonitorSlots : Prop :=
  (
  ∀ (i : CvId) (r : CvRecord) (s : State), ∃ t, exec (.checkValueRecord i r) s = .next t ∧
    (assocWf defaultOf s.regs = true → regGet t (kCv i 5) = (cvResult s i r.bytes).toNat) ∧
    (∀ e, cvExpected s i r = some e → e ≠ cvResult s i r.bytes →
      (assocWf defaultOf s.regs = true → flag t (kCv i 9) 31 = true) ∧ t.cv = s.cv) ∧
    (∀ e w a, cvExpected s i r = some e → e = cvResult s i r.bytes → cvAliveBits i = some w → r.alive = some a →
      (t.cv.get i).alive = some ((a + 1) % 2 ^ w)) ∧
    (cvExpected s i r = none → t.cv = s.cv) ∧ (∀ j, j ≠ i → t.cv.get j = s.cv.get j) ∧
    t = { s with regs := t.regs, overflow := t.overflow, disp := t.disp, cv := t.cv }) ∧
  (
  (∀ (k : Client) (m : SlotId) (v : Nat) (s : State), Served s k (0x5000 + m.val) →
    (v = 1 → ∃ t, exec (.monitorClear k m v) s = .next t ∧ answered t k = some .ack ∧
      (∀ u, (t.slots.get u).get m = slotEmpty) ∧ (∀ u n, n ≠ m → (t.slots.get u).get n = (s.slots.get u).get n) ∧
      t = { s with slots := t.slots, clients := t.clients, maint := t.maint }) ∧
    (v ≠ 1 → exec (.monitorClear k m v) s = .next (answer s k (.abort .outOfRange)))) ∧
  (∀ (k : Client) (m : SlotId) (s : State),
    (serves s k (0x5000 + m.val) = true → ∃ t, exec (.monitorSnapshot k m) s = .next t ∧
      t.snaps.get m = some ((s.slots.get (viewUnit s)).get m) ∧
      answered t k = some (.value (leBytes 4 ((s.slots.get (viewUnit s)).get m).min)) ∧
      (∀ n, n ≠ m → t.snaps.get n = s.snaps.get n) ∧ t = { s with snaps := t.snaps, clients := t.clients }) ∧
    (serves s k (0x5000 + m.val) = false → exec (.monitorSnapshot k m) s = .next s)) ∧
  ∀ (k : Client) (s : State), Served s k 0x5081 → ∃ t, exec (.overflowListEmpty k) s = .next t ∧
    answered t k = some .ack ∧ t.overflow = [] ∧ (assocWf defaultOf s.regs = true → flag t kIntegrity 22 = false) ∧
    (∀ j, j ≠ kIntegrity → regGet t j = regGet s j) ∧
    t = { s with regs := t.regs, overflow := t.overflow, clients := t.clients, maint := t.maint })


/-! ## Reset and bring-up (15_reset.md) -/

/-- R357, R359, R367 to R369: power-on reset and an RST_N pulse of more than 100 ns reset the module; a program pulse or an
erase in progress delays RST_N; a pulse of less than 50 ns is ignored. After the delay the reset is applied. A saved dictionary
that power-on reset cuts while it is written fails its CRC-32C. -/
def Obligations.ModuleResetsReachEverything : Prop :=
  (∀ s : State, ∃ t, exec .powerOnReset s = .next t ∧ t.rst.asserted = 1 ∧ t.rst.causes = 1 ∧ t.regs = [] ∧
    t.dict = State.reset.dict ∧ t.chans = State.reset.chans ∧ t.streams = State.reset.streams ∧ t.flows = State.reset.flows ∧
    t.relay = State.reset.relay ∧ t.ctrl = State.reset.ctrl ∧ t.dram = State.reset.dram ∧
    (s.rst.asserted.getLsbD 0 = false → t.log.records = []) ∧
    t.flash.limit = s.flash.limit ∧ (s.flash.writing ≠ .saved → t.flash.saved = s.flash.saved) ∧
    (s.flash.writing = .saved → t.flash.saved.get s.flash.savedNewest = s.flash.saved.get s.flash.savedNewest ∧
      ∀ i, t.flash.saved.get (1 - s.flash.savedNewest) = some i → i.crcOk = false) ∧
    t.flash.writing = .none ∧ t.stage = s.stage ∧ t.pending = s.pending ∧ t.now = s.now) ∧
  (∀ (ns : Nat) (s : State),
    (ns < 50 → exec (.rstNAssert ns) s = .next s) ∧
    (100 < ns → s.flash.pulse = false → s.flash.erasing = none → s.flash.areaEraseAt = none →
      ∃ t, exec (.rstNAssert ns) s = .next t ∧ ModuleReset s t 1 ∧ t.rst.heldForever = false) ∧
    (100 < ns → s.flash.pulse = true → ∃ t, exec (.rstNAssert ns) s = .next t ∧ t.rst.waiting = some 1 ∧
      t.rst.asserted = s.rst.asserted ∧ t = { s with regs := t.regs, rst := t.rst }) ∧
    (100 < ns → s.flash.pulse = false → (s.flash.erasing.isSome = true ∨ s.flash.areaEraseAt.isSome = true) →
      ∃ t, exec (.rstNAssert ns) s = .next t ∧ t.rst.waiting = some 1 ∧ t.flash.suspended = true ∧
        t = { s with regs := t.regs, rst := t.rst, flash := t.flash }) ∧
    (50 ≤ ns → ns ≤ 100 → exec (.rstNAssert ns) s = .next (drawFree s) ∨
      exec (.rstNAssert ns) s = exec (.rstNAssert 101) (drawFree s))) ∧
  (∀ s : State, s.rst.waiting = none →
    exec .programPulseEnd s = .next { s with flash := { s.flash with pulse := false, writing := .none } } ∧
    exec .eraseSuspendDone s =
      .next { s with flash := { s.flash with
        erasing := none
        areaEraseAt := none
        suspended := s.flash.suspended || s.flash.erasing.isSome || s.flash.areaEraseAt.isSome } }) ∧
  ∀ (c : Fin 4) (s : State), s.rst.waiting = some c.val →
    (∃ t, exec .programPulseEnd s = .next t ∧ ModuleReset s t c) ∧ ∃ t, exec .eraseSuspendDone s = .next t ∧ ModuleReset s t c

/-- Table 15-1, R363, R364: RST_N high releases source 1, a timed source is released once its time has passed, and with no
module source left asserted the release begins; the 16 core cycles of a block reset end with its clocked blocks. A base-die
clock fault, and a base-die clock not stable in time, assert source 3; one of a unit puts it into repair. -/
def Obligations.SourcesAreReleasedInTime : Prop :=
  (∀ s : State, isAsserted s 1 = true → ∃ t, exec .rstNRelease s = .next t ∧ isAsserted t 1 = false ∧
    (s.rst.asserted &&& 0x0D = 0 → s.rst.heldForever = false → t.rst.releasing = true ∧ t.rst.releasedAt = s.now) ∧
    t = { s with rst := t.rst }) ∧
  (∀ s : State, isAsserted s 1 = false → exec .rstNRelease s = .next s) ∧
  (∀ (c : Fin 8) (s : State), (isAsserted s c.val = false ∨ s.now < s.rst.assertedAt.get c + holdTime c.val) →
    exec (.resetSourceRelease c) s = .next s) ∧
  (∀ (c : Fin 8) (s : State), isAsserted s c.val = true → s.rst.assertedAt.get c + holdTime c.val ≤ s.now → c.val ≠ 6 →
    ∃ t, exec (.resetSourceRelease c) s = .next t ∧ isAsserted t c.val = false ∧
      (c.val = 7 → t.rst.blocks = s.rst.blocks &&& s.rst.pendingClock) ∧ (c.val ≠ 7 → t.rst.blocks = s.rst.blocks) ∧
      t = { s with free := t.free, rst := t.rst, pins := t.pins }) ∧
  (∀ s : State, isAsserted s 6 = true → s.rst.assertedAt.get 6 + holdTime 6 ≤ s.now →
    exec (.resetSourceRelease 6) s = exec .repairResetRelease s) ∧
  (∀ s : State, ∃ t, exec .clockStable s = .next t ∧ t.rst.pendingClock = 0 ∧ t.rst.bypass = false ∧
    (isAsserted s 7 = false → t.rst.blocks = 0) ∧ t = { s with regs := t.regs, rst := t.rst }) ∧
  (∀ (m : ClockMonitor) (s : State), s.flash.pulse = false → s.flash.erasing = none → s.flash.areaEraseAt = none →
    ∃ t, exec (.clockFault m) s = .next t ∧ t.rst.asserted.getLsbD 3 = true ∧ t.dict = State.reset.dict ∧
      t.chans = State.reset.chans ∧ (t.rst.heldForever = true ∨ t.rst.clockRuns < 3) ∧
      (assocWf defaultOf s.regs = true → flag t (kTime 6) 24 = true)) ∧
  (∀ s : State, s.flash.pulse = false → s.flash.erasing = none → s.flash.areaEraseAt = none →
    ∃ t, exec (.clockStableTimeout none) s = .next t ∧ ModuleReset s t 3) ∧
  ∀ (u : UnitId) (s : State), s.relay.repair = .none → s.relay.mode ≠ .failed →
    ∃ t, exec (.clockStableTimeout (some u)) s = .next t ∧ t.relay.repair = .inReset s.now ∧ t.relay.repairUnit = u ∧
      CodingKept s t

/-- R366: a software block reset is refused for reserved bits, for a channel that does not stand, for an engine set without the
unlock, for a running readout; otherwise both units' named blocks are reset, and nothing of the clocks, the dictionary or the
flash. -/
def Obligations.BlockResetsReachTheNamedBlocks : Prop :=
  ∀ (k : Client) (mask : BitVec 32) (s : State), Served s k 0x2101 →
    (∀ a, blockRefused s k mask = some a → exec (.blockReset k mask) s = .next (answer s k (.abort a))) ∧
    (mask &&& 0x0CFFF000 ≠ 0 → blockRefused s k mask = some .outOfRange) ∧
    (blockRefused s k mask = none → ∃ t, exec (.blockReset k mask) s = .next t ∧ answered t k = some .ack ∧
      t.rst.blocks = s.rst.blocks ||| mask ∧ isAsserted t 7 = true ∧
      (∀ c : Chan, mask.getLsbD c.val = true → t.chans.get c = { chanReset with verifyOn := (s.chans.get c).verifyOn }) ∧
      (∀ c : Chan, mask.getLsbD c.val = false →
        t.chans.get c = if mask.getLsbD (4 + c.val) then { s.chans.get c with spoiled := false } else s.chans.get c) ∧
      (∀ p : PortId, t.ports[p].up = (s.ports[p].up && !mask.getLsbD (28 + p.val))) ∧
      (∀ p : PortId, mask.getLsbD (28 + p.val) = true → t.ports[p].pcs = ⟨pcsReset, pcsReset⟩) ∧
      (mask.getLsbD 25 = true → ∀ u m, (t.slots.get u).get m = slotEmpty) ∧
      (mask.getLsbD 25 = false → t.slots = s.slots) ∧ (mask.getLsbD 24 = true →
        t.ret = { retReset with enabled := s.ret.enabled, setting := s.ret.setting, outputs := s.ret.outputs }) ∧
      (mask.getLsbD 24 = false → t.ret = s.ret ∧ t.mon = s.mon) ∧
      (∀ u (d : DmaId), mask.getLsbD (8 + d.val) = false ∨ 4 ≤ d.val → dmaAt t u d = dmaAt s u d) ∧
      t = { s with regs := t.regs, overflow := t.overflow, chans := t.chans, streams := t.streams, ret := t.ret, mon := t.mon,
                   ports := t.ports, flows := t.flows, counts := t.counts, dma := t.dma, slots := t.slots, rst := t.rst, clients := t.clients, maint := t.maint })

/-- R211, R340, R370, R375: the release begins with the check of the limit record, which frees the journal and gives each port
its ceiling bucket; a record written meanwhile counts where maintenance was unlocked for the write: whether one was, and its
bytes, are free (log entry 55). Each step that is ready begins the next one; a DRAM channel trains from a readable last-good
value alone, and one of the unit in view that does not sets TRAINING_FALLBACK (11_dram.md R282, R283); the controller and the
units boot from step 4, one in repair or without rails excepted, and time starts in step 5. R371 to R373, R405, R424: the
controller's image is checked, or the recovery loader runs; the dictionary is loaded from the newest readable copy, or defaults,
into the master copy and both shadows, and answers, the counts of the shapers begin as it says (09_flows.md R225); a unit's
image is checked, or it reports a boot fault; a unit that has booted takes the whole shadow image, its dispatcher holds the
tasks of its image (02_lap.md R45). -/
def Obligations.BringUpRunsItsSteps : Prop :=
  (
  (∀ (l : LimitRecord) (s : State), s.rst.releasing = true → s.rst.step = 0 →
    l = recordInForce s → ∃ t, exec .limitRecordCheck s = .next t ∧ t.rst.step = 1 ∧
    t.rst.limitChecked = true ∧ t.flash.intents = [] ∧ t.flash.limit = l ∧ t.flash.limitOpen = false ∧
    (s.flash.limitOpen = false → l = s.flash.limit ∧ t.free = s.free) ∧
    (s.flash.limitOpen = true → l = s.flash.limit ∨ ∃ b, l = parseLimit b) ∧
    (assocWf defaultOf s.regs = true → flag t kIntegrity 30 = !limitGood l ∧
      (limitGood l = false → regGet t (key 0x5C00 9) = 270) ∧ (limitGood l = true → regGet t (key 0x5C00 9) = l.current)) ∧
    (∀ p : PortId, t.ports[p] = { s.ports[p] with bucket := l.ceilDepth.get p * 2 ^ 24 }) ∧
    t = { s with free := t.free, regs := t.regs, overflow := t.overflow, emcy := t.emcy, log := t.log, ports := t.ports, rst := t.rst,
                 flash := t.flash }) ∧
  (∀ s : State, (s.rst.releasing = false ∨ s.rst.step ≠ 0) → exec .limitRecordCheck s = .next s) ∧
  (∀ s : State, (s.rst.pendingClock ≠ 0 ∨ s.rst.step.val = 0) → exec .releaseStepDone s = .next s) ∧
  ∀ s : State, s.rst.pendingClock = 0 → s.rst.step.val ≠ 0 →
    ∃ t, exec .releaseStepDone s = .next t ∧
    t.rst.step.val = (if s.rst.step.val = 6 then 0 else s.rst.step.val + 1) ∧ t.rst.stepAt = s.now ∧
    (s.rst.step.val = 2 → ∀ u c, (((t.dram.get u).chan.get c).trained = true →
        (goodWord ((s.flash.training.get u).get c)).isSome = true) ∧
      (u = viewUnit s → ((t.dram.get u).chan.get c).trained = false → assocWf defaultOf s.regs = true → flag t (key 0x2800 0x10) 26 = true)) ∧
    (s.rst.step.val ≠ 2 → t.dram = s.dram ∧ t.regs = s.regs ∧ t.free = s.free) ∧
    (s.rst.step.val = 6 → t.rst.releasing = false) ∧
    (s.rst.step.val = 4 → t.ctrl.mode = .booting ∧
      ∀ u, ¬ (s.relay.repair ≠ .none ∧ s.relay.repairUnit = u) → s.stage.railsRemoved ≠ some u → (t.boot.get u).mode = .booting) ∧
    (s.rst.step.val ≠ 4 → t.ctrl = s.ctrl ∧ t.boot = s.boot) ∧
    (s.rst.step.val = 5 → t.time.tb0 = 0 ∧ tb3Ref t = 0 ∧ t.lap.nextTick = s.now + 15000) ∧
    (s.rst.step.val ≠ 5 → t.time = s.time ∧ t.lap = s.lap) ∧ t.dram.a.mem = s.dram.a.mem ∧ t.dram.b.mem = s.dram.b.mem ∧
    t = { s with free := t.free, regs := t.regs, lap := t.lap, time := t.time, dram := t.dram, boot := t.boot, rst := t.rst, ctrl := t.ctrl }) ∧
  (
  (∀ (hs : Vector PackageHeader 2) (s : State), s.ctrl.mode = .booting →
    (bootRegion (readRegions s hs).flash.regions = none → exec (.controllerImageCheck hs) s =
      .next { readRegions s hs with ctrl := { s.ctrl with mode := .recovery } }) ∧
    ∀ i second, bootRegion (readRegions s hs).flash.regions = some (i, second) →
      ∃ t, exec (.controllerImageCheck hs) s = .next t ∧ t.ctrl.mode = .imageOk ∧ t.firmware.region = 1 - i ∧
        t.flash = (readRegions s hs).flash ∧
        (second = true → assocWf defaultOf s.regs = true → flag t kReset 27 = true) ∧
        t = { s with regs := t.regs, flash := t.flash, ctrl := t.ctrl, firmware := t.firmware }) ∧
  (∀ s : State, s.ctrl.mode = .imageOk → ∃ t, exec .dictionaryLoad s = .next t ∧ dictAnswers t = true ∧
    t.dict.master = (match savedNewest s.flash with | some i => storeOf i.values | none => []) ∧
    t.dict.shadowA = t.dict.master ∧ t.dict.shadowB = t.dict.master ∧ t.dict.applied = t.dict.master ∧
    t.can.nmt = .preOperational ∧ t.can.nodeId = cfg t (key 0x2002 1) ∧ t.can.bootUps = s.can.bootUps + 1 ∧
    t.flash = { s.flash with pfRecord := none } ∧ (∀ f : FlowId, t.flows.get f = { s.flows.get f with tokens := resetCount t f }) ∧
    t = { s with flows := t.flows, dict := t.dict, regs := t.regs, overflow := t.overflow, emcy := t.emcy, log := t.log, meters := t.meters,
                 flash := t.flash, ctrl := t.ctrl, can := t.can }) ∧
  (∀ (u : UnitId) (hs : Vector PackageHeader 2) (l : List TaskDecl) (s : State), (s.boot.get u).mode = .booting →
    (∀ r, bootRegion (readRegions s hs).flash.regions = some r → ∃ t, exec (.unitImageCheck u ⟨hs, l⟩) s = .next t ∧
      (t.boot.get u).mode = .imageChecked ∧ (t.boot.get u).tasks = l ∧ t.boot.get u.other = s.boot.get u.other ∧ t.flash = (readRegions s hs).flash ∧
      t = { s with regs := t.regs, overflow := t.overflow, emcy := t.emcy, log := t.log, boot := t.boot, flash := t.flash }) ∧
    (bootRegion (readRegions s hs).flash.regions = none → ¬ (s.relay.repair = .booting ∧ s.relay.repairUnit = u) →
      ∃ t, exec (.unitImageCheck u ⟨hs, l⟩) s = .next t ∧ (t.boot.get u).mode = .bootFault ∧
        (assocWf defaultOf s.regs = true → flag t kReset (26 - u.bit) = true) ∧
        t.dict = s.dict ∧ t.chans = s.chans ∧ t.streams = s.streams ∧ (s.relay.active.isSome = true → t.flows = s.flows))) ∧
  ∀ (u : UnitId) (s : State), (s.boot.get u).mode = .imageChecked → ∃ t, exec (.bootComplete u) s = .next t ∧
    t.disp = s.disp.set u (bootTasks (s.boot.get u).tasks) ∧
    (t.boot.get u).mode = .booted ∧ (t.boot.get u).bootedAt = s.now ∧ t.boot.get u.other = s.boot.get u.other ∧
    (u = .a → t.dict = { s.dict with shadowA := s.dict.master }) ∧ (u = .b → t.dict = { s.dict with shadowB := s.dict.master }) ∧
    (s.relay.repair = .booting → s.relay.repairUnit = u → t.relay.repair = .testing) ∧
    (s.relay.repair ≠ .booting → t.relay = s.relay) ∧
    t = { s with dict := t.dict, regs := t.regs, disp := t.disp, relay := t.relay, boot := t.boot })


/-! ## Power, telemetry, the margin planner (16_power_ageing.md) -/

/-- R378, R379, R387 to R391: the stage starts where its start conditions hold; a warning in force refuses every dictionary
write; it stops the stage but for cause 6, and clears where VIN returns before the stop; the flush is written into the erased
area, which is erased again while no warning is present; log records are saved in groups of 64 or each second. -/
def Obligations.PowerFailWarnsStopsAndReturns : Prop :=
  (∀ s : State,
    (s.stage.running = false → (s.stage.stopped = true → s.stage.stoppedAt + 100 * cyclesPerMs ≤ s.now) →
      (s.stage.criticalStop = true → s.stage.hvToggled = true) →
      ∃ t, exec .stageStart s = .next t ∧ t.stage.running = true ∧ t.stage.warn = none ∧ t.stage.phases = 0x7F ∧
        t = { s with regs := t.regs, stage := t.stage }) ∧
    (s.stage.running = true → exec .stageStart s = .next s)) ∧
  (∀ (cause : Fin 8) (s : State), s.stage.running = true → cause.val ≠ 0 → s.stage.warn = none →
    ∃ t, exec (.powerFailWarning cause) s = .next t ∧ t.stage.warn = some cause ∧ t.stage.warnAt = s.now ∧
      (∀ k i, writeGate t k i ≠ none) ∧
      (assocWf defaultOf s.regs = true → flag t kStage 31 = true ∧ flag t kStage 30 = true) ∧
      t = { s with regs := t.regs, overflow := t.overflow, emcy := t.emcy, log := t.log, flash := t.flash, stage := t.stage,
                   planner := t.planner }) ∧
  (∀ (cause : Fin 8) (s : State), (s.stage.running = false ∨ cause.val = 0) → exec (.powerFailWarning cause) s =
    .next { s with stage := { s.stage with hvToggled := s.stage.hvToggled || decide (cause.val = 2) } }) ∧
  (∀ (c : Fin 8) (s : State), s.stage.warn = some c →
    (c.val = 6 → exec .stageStop s = .next s) ∧
    (c.val ≠ 6 → ∃ t, exec .stageStop s = .next t ∧ t.stage.running = false ∧ t.stage.stopped = true ∧ t.stage.stoppedAt = s.now ∧
      t.rst.asserted = 1 ∧ t.dict = State.reset.dict ∧ t.chans = State.reset.chans ∧ (s.flash.writing ≠ .saved → t.flash.saved = s.flash.saved) ∧
      t.flash.pfRecord = s.flash.pfRecord)) ∧
  (∀ s : State, s.stage.warn = none → exec .stageStop s = .next s ∧ exec .inputReturn s = .next s) ∧
  (∀ s : State, s.stage.warn.isSome = true → s.stage.running = true → flag s kStage 29 = true →
    s.stage.warnAt + cyclesPerMs ≤ s.now →
    ∃ t, exec .inputReturn s = .next t ∧ t.stage.warn = none ∧ (∀ k i, hostRights t k = true → writeGate t k i = none) ∧
      (assocWf defaultOf s.regs = true → flag t kStage 31 = false ∧ flag t kStage 29 = false) ∧
      t = { s with regs := t.regs, flash := t.flash, stage := t.stage }) ∧
  (∀ s : State, s.stage.flush = true → ∃ t, exec .flushComplete s = .next t ∧ t.stage.flush = false ∧
    t.flash.areaNewest = 1 - s.flash.areaNewest ∧ t.flash.areaErased.get (1 - s.flash.areaNewest) = false ∧
    t.flash.flushLog = s.log.records.take (min 128 s.log.unsaved) ∧ t.log.records = s.log.records ∧
    t = { s with log := t.log, flash := t.flash, stage := t.stage }) ∧
  (∀ s : State, s.stage.warn = none → s.flash.areaErased.get (1 - s.flash.areaNewest) = false → s.flash.areaEraseAt = none →
    ∃ t, exec .powerFailAreaErase s = .next t ∧ t.flash.areaEraseAt = some s.now ∧
      t.flash.intents = areaSector (1 - s.flash.areaNewest) :: s.flash.intents ∧ t = { s with flash := t.flash }) ∧
  ∀ s : State, s.stage.warn = none → s.log.unsaved ≠ 0 →
    ((64 ≤ s.log.unsaved ∨ s.log.savedAt + cyclesPerSec ≤ s.now) →
      ∃ t, exec .logSave s = .next t ∧ t.log = { s.log with unsaved := 0, savedAt := s.now } ∧
        t.flash.logSaved = (s.log.records.take s.log.unsaved ++ s.flash.logSaved).take 1024 ∧
        t = { s with log := t.log, flash := t.flash }) ∧
    (s.log.unsaved < 64 → s.now < s.log.savedAt + cyclesPerSec → exec .logSave s = .next s)

/-- R380 to R387: a first phase fault brings in the spare, a second shortens the stage, a third raises a warning; a current
limit that acts for 1 ms raises one; good telemetry takes effect and a fourth bad frame in a row, or the loss itself, is a power
fault. R397 to R401: a planner run, due or asked for, sets each die's offset target to what Table 16-5 asks for, at most 60 mV,
and stores a sensor lane's adapted value as last-good where the lane is LOCKED with an eye of at least 24/128 UI; a die skipped
in repair is planned once its unit is the ready standby; the voltage follows in 5 mV steps; 180 days of powered operation after
a worn unit's first notice its relay duty ends. -/
def Obligations.PhasesTelemetryAndPlanner : Prop :=
  (
  (∀ (i : Fin 7) (left : BitVec 7) (s : State), left = s.stage.phases &&& ~~~ (BitVec.ofNat 7 (1 <<< i.val)) →
    (s.stage.phases.getLsbD i.val = false → exec (.phaseFault i) s = .next s) ∧
    (s.stage.phases.getLsbD i.val = true → ∃ t, exec (.phaseFault i) s = .next t ∧ t.stage.phases = left ∧
      (assocWf defaultOf s.regs = true → flag t kStage 26 = true) ∧
      (phaseCount left = 6 → t.stage.warn = s.stage.warn ∧ t.relay = s.relay) ∧
      (phaseCount left = 5 → t.stage.shortAt = some s.now ∧ t.relay.planned = false ∧ t.stage.warn = s.stage.warn) ∧
      (phaseCount left < 5 → t.stage.warn.isSome = true) ∧
      t = { s with regs := t.regs, overflow := t.overflow, emcy := t.emcy, log := t.log, relay := t.relay, flash := t.flash,
                   stage := t.stage, planner := t.planner })) ∧
  (∀ s : State, (s.stage.clampAt = none → ∃ t, exec .currentClamp s = .next t ∧ t.stage = { s.stage with clampAt := some s.now } ∧
      (assocWf defaultOf s.regs = true → flag t kStage 25 = true ∧ flag t kStage 24 = true ∧ flag t kIntegrity 28 = true) ∧
      t = { s with regs := t.regs, overflow := t.overflow, emcy := t.emcy, log := t.log, stage := t.stage }) ∧
    ∀ at_, s.stage.clampAt = some at_ →
      (at_ + cyclesPerMs ≤ s.now → ∃ t, exec .currentClamp s = .next t ∧ t.stage.warn.isSome = true ∧ CodingKept s t) ∧
      (s.now < at_ + cyclesPerMs → exec .currentClamp s = .next s)) ∧
  (∀ (f : TelemetryFrame) (s : State), crc16 0x1D0F#16 (frameBytes f) = f.crc → (∀ a, s.stage.alive = some a → f.alive = a + 1) →
    ∃ t, exec (.telemetryFrameRx f) s = .next t ∧ t.stage.alive = some f.alive ∧ t.stage.badFrames = 0 ∧ t.stage.lost = false ∧
      t.stage.phases = f.phases.setWidth 7 ∧ (f.flags.getLsbD 7 = false → t.stage.warn = none) ∧
      (f.flags.getLsbD 7 = true → t.stage.warn.isSome = true) ∧ CodingKept s t) ∧
  (∀ (f : TelemetryFrame) (s : State),
    (crc16 0x1D0F#16 (frameBytes f) ≠ f.crc ∨ (∃ a, s.stage.alive = some a ∧ f.alive ≠ a + 1)) →
    ∃ t, exec (.telemetryFrameRx f) s = .next t ∧ t.stage.badFrames = s.stage.badFrames + 1 ∧
      (s.stage.badFrames < 3 → t = { s with stage := t.stage } ∧ t.stage.lost = s.stage.lost ∧ t.stage.warn = s.stage.warn) ∧
      (3 ≤ s.stage.badFrames → t.stage.lost = true)) ∧
  ∀ s : State, (s.stage.lost = true → exec .telemetryLost s = .next s) ∧
    (s.stage.lost = false → ∃ t, exec .telemetryLost s = .next t ∧ t.stage.lost = true ∧ t.stage.warn.isSome = true ∧
      (assocWf defaultOf s.regs = true → flag t kStage 23 = true ∧ flag t kIntegrity 28 = true) ∧ CodingKept s t)) ∧
  (
  (∀ (m : PlanMeasure) (s : State), planDue s = true → s.stage.warn = none → s.relay.repair = .none →
    ∃ t, exec (.plannerRun m) s = .next t ∧ t.planner.lastEnd = some s.now ∧
      (∀ die : DieId, (t.planner.dies.get die).target =
        min 60 (requiredOffset (s.planner.dies.get die).target (degradationOf die (m.dies.get die))
          (min 255 ((s.planner.dies.get die).steps + (if 0 < (m.dies.get die).canaryEvents then 1 else 0))) die) ∧
        (t.planner.dies.get die).inUse = (s.planner.dies.get die).inUse) ∧
      (∀ (u : UnitId) (n : LaneId), (laneAt s u n).mode = .locked → 24 ≤ (laneAt s u n).eye →
        (t.flash.equal.get u).get n = some ⟨(laneAt t u n).equal, true⟩) ∧
      (∀ (u : UnitId) (n : LaneId), (laneAt s u n).mode ≠ .locked ∨ (laneAt s u n).eye < 24 →
        laneAt t u n = laneAt s u n ∧ (t.flash.equal.get u).get n = (s.flash.equal.get u).get n) ∧
      (assocWf defaultOf s.regs = true → m.lowNet = true → flag t kPlanner 25 = true) ∧
      t = { s with free := t.free, regs := t.regs, overflow := t.overflow, emcy := t.emcy, log := t.log, lanes := t.lanes,
                   flash := t.flash, planner := t.planner }) ∧
  (∀ (m : PlanMeasure) (s : State), (planDue s = false ∧ skippedReady s = none ∨ s.stage.warn.isSome = true) →
    exec (.plannerRun m) s = .next s) ∧
  (∀ (m : PlanMeasure) (die : DieId) (s : State), planDue s = false → skippedReady s = some die → s.stage.warn = none →
    s.relay.repair = .none → ∃ t, exec (.plannerRun m) s = .next t ∧ (t.planner.dies.get die).skipped = false ∧
      (∀ d, d ≠ die → t.planner.dies.get d = s.planner.dies.get d) ∧ t.planner.lastEnd = s.planner.lastEnd ∧
      (∀ (u : UnitId) (n : LaneId), dieUnit die = some u → (laneAt s u n).mode = .locked → 24 ≤ (laneAt s u n).eye →
        (t.flash.equal.get u).get n = some ⟨(laneAt t u n).equal, true⟩) ∧ CodingKept s t) ∧
  (∀ (k : Client) (m : PlanMeasure) (s : State), Served s k 0x5C10 →
    ∃ t, exec (.planNow k m) s = .next t ∧ answered t k = some .ack ∧ t.planner.lastEnd = some s.now ∧
      (s.relay.repair = .none → ∀ die : DieId, (t.planner.dies.get die).target =
        min 60 (requiredOffset (s.planner.dies.get die).target (degradationOf die (m.dies.get die))
          (min 255 ((s.planner.dies.get die).steps + (if 0 < (m.dies.get die).canaryEvents then 1 else 0))) die)) ∧ CodingKept s t) ∧
  (∀ (die : DieId) (s : State), (s.planner.dies.get die).inUse < (s.planner.dies.get die).target →
    (∀ at_, (s.planner.dies.get die).stepAt = some at_ → at_ + cyclesPerMs ≤ s.now) →
    ∃ t, exec (.voltageStep die) s = .next t ∧ (t.planner.dies.get die).stepAt = some s.now ∧
      (t.planner.dies.get die).inUse = min (s.planner.dies.get die).target ((s.planner.dies.get die).inUse + 5) ∧
      (∀ d, d ≠ die → t.planner.dies.get d = s.planner.dies.get d) ∧ t = { s with planner := t.planner }) ∧
  (∀ (die : DieId) (s : State), (s.planner.dies.get die).target ≤ (s.planner.dies.get die).inUse →
    exec (.voltageStep die) s = .next s) ∧
  ∀ (die : DieId) (h : Nat) (s : State), (s.planner.dies.get die).noticeAt = some h → die ≠ 2 →
    (s.planner.dies.get die).worn = true →
    (h + 4320 ≤ s.planner.hours → ∃ t, exec (.wornDutyEnd die) s = .next t ∧ (t.planner.dies.get die).dutyEnded = true ∧
      (∀ d, d ≠ die → t.planner.dies.get d = s.planner.dies.get d) ∧ t = { s with planner := t.planner }) ∧
    (s.planner.hours < h + 4320 → exec (.wornDutyEnd die) s = .next s))


/-! ## Routes to the dictionary, CAN FD, windows, maintenance (17_dictionary.md) -/

/-- R406, R407, R410 to R413: a request is stamped with TB0 as it comes (10_time.md R257). A USDO request while one is in
service is not taken; a read is answered with the object's bytes, a write is the object's write, a segment that follows on is
kept and one that does not ends the transfer; a transfer times out after 1 s. A datagram from an unlisted source or malformed is
discarded and counted; a new client's read at offset 0 is replied to with its first 1,024 bytes, its whole write with the
write's end, and its NMT command is carried out; a repeated sequence number is answered again without being executed; a slot is
freed after 10 s. -/
def Obligations.RoutesServeTheDictionary : Prop :=
  (∀ (r : DictRequest) (s : State), (s.clients.get 0).busy = true → exec (.usdoTransfer r) s = .next s) ∧
  (∀ (i sub : Nat) (s : State), (s.clients.get 0).busy = false → serves s 0 i = true →
    (∀ t bytes, readObject 0 i sub (touchRead (stampClient s 0) 0) = .ok (t, bytes) →
      exec (.usdoTransfer (.read i sub)) s = .next (answer t 0 (.value bytes))) ∧
    ∀ a, readObject 0 i sub (touchRead (stampClient s 0) 0) = .error a →
      exec (.usdoTransfer (.read i sub)) s = .next (answer (stampClient s 0) 0 (.abort a))) ∧
  (∀ (i sub : Nat) (data : List Byte) (s : State), (s.clients.get 0).busy = false →
    exec (.usdoTransfer (.write i sub data)) s = exec (.objectWrite 0 i sub data) (stampClient s 0)) ∧
  (∀ (i sub offset : Nat) (data : List Byte) (s : State), Served s 0 i → (s.clients.get 0).busy = false →
    (∀ x, (s.clients.get 0).transfer = some x → x.index = i → x.sub = sub → offset = x.data.length → offset ≠ 0 →
      x.data.length + data.length ≤ 2097152 →
      ∃ t, exec (.usdoTransfer (.segment i sub offset data false)) s = .next t ∧ answered t 0 = some .ack ∧
        (t.clients.get 0).transfer = some ⟨i, sub, x.data ++ data, s.now⟩ ∧
        t = { s with clients := t.clients, maint := t.maint }) ∧
    ((s.clients.get 0).transfer = none → data.length ≤ 2097152 →
      exec (.usdoTransfer (.segment i sub 0 data true)) s = exec (.usdoTransfer (.write i sub data)) s) ∧
    ((s.clients.get 0).transfer = none → offset ≠ 0 → ∃ t, exec (.usdoTransfer (.segment i sub offset data false)) s = .next t ∧
      answered t 0 = some (.abort .lengthMismatch) ∧ t = { s with clients := t.clients, maint := t.maint })) ∧
  (∀ (k : Client) (x : Transfer) (s : State), (s.clients.get k).transfer = some x →
    (x.lastAt + cyclesPerSec ≤ s.now → ∃ t, exec (.transferTimeout k) s = .next t ∧ (t.clients.get k).transfer = none ∧
      answered t k = some (.abort .protocolTimeout) ∧ t.dict = s.dict) ∧
    (s.now < x.lastAt + cyclesPerSec → exec (.transferTimeout k) s = .next s)) ∧
  (∀ (p : PortId) (ip port : Nat) (d : Datagram) (s : State),
    (dictAnswers s = false → exec (.dictionaryDatagram p ip port d) s = .next s) ∧
    (dictAnswers s = true → portServes s p = true → s.relay.active.isSome = true →
      (accessEntry s ip = none ∨ datagramGood d = false) →
      exec (.dictionaryDatagram p ip port d) s = .next (bumpHalf s discardKey true)) ∧
    ∀ e k w, w = stampClient (enterSlot s k (ip, port) p (e.testBit 62)) k → dictAnswers s = true → portServes s p = true → s.relay.active.isSome = true → accessEntry s ip = some e →
      datagramGood d = true → slotFor s (ip, port) = some k →
      (∀ t bytes, (s.clients.get k).source = none → d.opcode = 1 → d.offset = 0 →
        readObject k d.index d.sub (touchRead w k) = .ok (t, bytes) →
        ∃ z r, exec (.dictionaryDatagram p ip port d) s = .next z ∧ (z.clients.get k).source = some (ip, port) ∧
          (z.clients.get k).lastReply = some r ∧ r.sequence = d.sequence ∧ r.opcode = 0x81 ∧ r.payload = bytes.take 1024 ∧
          r.abort = 0 ∧ r.stamp = stampNow s ∧ r.crc = datagramCrc r ∧ z.dict = t.dict) ∧
      (∀ v, (s.clients.get k).source = none → d.opcode = 2 → d.offset = 0 → d.flags % 2 = 1 → serves s k d.index = true →
        v = serveEnd w k d.index (takeSegment k d.index d.sub 0 d.payload true) →
        (v.clients.get k).busy = false →
        ∃ z r, exec (.dictionaryDatagram p ip port d) s = .next z ∧ (z.clients.get k).source = some (ip, port) ∧
          (z.clients.get k).lastReply = some r ∧ r.sequence = d.sequence ∧ r.opcode = 0x82 ∧ r.crc = datagramCrc r ∧
          z.dict = v.dict) ∧
      ((s.clients.get k).source = none → d.opcode = 0x20 → e.testBit 62 = true →
        exec (.dictionaryDatagram p ip port d) s =
          .next (nmtCommand w ((d.payload.map BitVec.toNat).headD 0))) ∧
      (∀ r, (s.clients.get k).source = some (ip, port) → (s.clients.get k).busy = false →
        (s.clients.get k).lastReply = some r → r.sequence = d.sequence →
        ∃ z, exec (.dictionaryDatagram p ip port d) s = .next z ∧ (z.clients.get k).lastReply = some r ∧
          z = { s with regs := z.regs, ports := z.ports, flows := z.flows, counts := z.counts, clients := z.clients })) ∧
  ∀ (k : Client) (s : State), k ≠ 0 → (s.clients.get k).source.isSome = true →
    ((s.clients.get k).lastAt + 10 * cyclesPerSec ≤ s.now → ∃ t, exec (.clientSlotTimeout k) s = .next t ∧
      t.clients.get k = clientReset ∧ t.maint.challenges.get k = none ∧ t.maint.owner ≠ some k ∧
      (∀ j, j ≠ k → t.clients.get j = s.clients.get j) ∧ t.dict = s.dict) ∧
    (s.now < (s.clients.get k).lastAt + 10 * cyclesPerSec → exec (.clientSlotTimeout k) s = .next s)

/-- R408, R409, R422, R423, R358: a node that hears the bus follows the NMT commands, stamps SYNC on TB0, and loses its session
at bus-off; Reset Node resets the module unless a channel runs and the object does not allow it; Reset Communication reloads
nothing but the profile objects; the heartbeat is sent at its period and the EMCY queue from its head; the error list is
emptied. -/
def Obligations.CanNodeFollowsItsServices : Prop :=
  (∀ s : State, nodeHears s = true →
    exec .nmtStart s = .next { s with can := { s.can with nmt := .operational } } ∧
    exec .nmtStop s = .next { s with can := { s.can with nmt := .stopped } } ∧
    exec .nmtEnterPreOperational s = .next { s with can := { s.can with nmt := .preOperational } } ∧
    (anyChannelRunning s = true → cfg s (key 0x2002 5) ≠ 1 → ∃ t, exec .resetNode s = .next t ∧ t.log.records ≠ [] ∧
      t = { s with regs := t.regs, overflow := t.overflow, log := t.log }) ∧
    ((anyChannelRunning s = false ∨ cfg s (key 0x2002 5) = 1) → s.flash.pulse = false → s.flash.erasing = none →
      s.flash.areaEraseAt = none → ∃ t, exec .resetNode s = .next t ∧ ModuleReset s t 2) ∧
    (∃ t, exec .resetCommunication s = .next t ∧ t.can.nmt = .preOperational ∧ t.can.bootUps = s.can.bootUps + 1 ∧
      isAsserted t 5 = true ∧ (t.clients.get 0).transfer = none ∧ (∀ j, 0x200000 ≤ j → cfg t j = cfg s j) ∧
      t.dict.applied = s.dict.applied ∧ t = { s with dict := t.dict, rst := t.rst, can := t.can, clients := t.clients }) ∧
    ∃ t, exec .canSyncRx s = .next t ∧ t = { s with regs := t.regs } ∧ (∀ j, j ≠ key 0x2002 7 → regGet t j = regGet s j) ∧
      (assocWf defaultOf s.regs = true → regGet t (key 0x2002 7) = tb0Value s % 2 ^ widthOf (key 0x2002 7))) ∧
  (∀ s : State, nodeHears s = false → exec .nmtStart s = .next s ∧ exec .nmtStop s = .next s ∧
    exec .nmtEnterPreOperational s = .next s ∧ exec .resetNode s = .next s ∧ exec .resetCommunication s = .next s ∧
    exec .canSyncRx s = .next s) ∧
  (∀ s : State, (∃ t, exec .canBusOff s = .next t ∧ t.can = { s.can with busOff := true } ∧ nodeHears t = false ∧
      (t.clients.get 0).transfer = none ∧ (∀ k, k ≠ 0 → t.clients.get k = s.clients.get k) ∧
      t = { s with can := t.can, clients := t.clients }) ∧
    (s.can.busOff = true → ∃ t, exec .busOffRecovery s = .next t ∧ t.can = { s.can with busOff := false } ∧
      (assocWf defaultOf s.regs = true → flag t (key 0x2002 8) 31 = true) ∧
      t = { s with regs := t.regs, overflow := t.overflow, emcy := t.emcy, log := t.log, can := t.can }) ∧
    (s.can.busOff = false → exec .busOffRecovery s = .next s)) ∧
  (∀ s : State, dictAnswers s = true →
    (cfg s (key 0x1017 0) ≠ 0 → s.can.heartbeatAt + cfg s (key 0x1017 0) * cyclesPerMs ≤ s.now →
      ∃ t, exec .heartbeat s = .next t ∧ t.can = { s.can with heartbeatAt := s.now } ∧
        (subscribers s = [] → t = { s with can := t.can }) ∧
        t = { s with regs := t.regs, ports := t.ports, flows := t.flows, counts := t.counts, can := t.can }) ∧
    (cfg s (key 0x1017 0) = 0 → exec .heartbeat s = .next s) ∧
    (∀ e rest, s.emcy.queue = e :: rest → s.can.busOff = false → emcyFree s = true →
      ∃ t, exec .emcySend s = .next t ∧ t.emcy = { s.emcy with queue := rest, sentAt := some s.now, lastSent := emcyBytes e (errorRegister s) } ∧
        t = { s with regs := t.regs, emcy := t.emcy, ports := t.ports, flows := t.flows, counts := t.counts }) ∧
    (s.emcy.queue = [] ∨ s.can.busOff = true ∨ emcyFree s = false → exec .emcySend s = .next s)) ∧
  ∀ (k : Client) (s : State), Served s k 0x1003 →
    exec (.errorListEmpty k) s =
      .next (answer { touchClient s k with emcy := { s.emcy with errors := [] } } k .ack)

/-- R415 to R418: a bulk window opens where its target allows it, takes data of whole words from its owner up to its length,
reads word by word, delivers its content at the commit, and is abandoned by its owner or after 60 s without access. R418, R371,
R372: the erase of the region ends and the window takes the package; a held write enters the program buffer when it has room and
is acknowledged then; a package that passes its tests is staged, one that fails leaves the region without a header. -/
def Obligations.WindowsAndPackages : Prop :=
  (
  ∀ (k : Client) (w : WinId) (s : State), Served s k (0x5F01 + w.val) →
    (openWriteRefused s k w = none → ∃ t, exec (.windowOpenWrite k w) s = .next t ∧ answered t k = some .ack ∧
      (winAt t w).mode = .openWrite ∧ (winAt t w).owner = some k ∧ (winAt t w).length = winLength s w ∧ (winAt t w).pos = 0 ∧
      (isPackage (winTarget s w) = true → t.firmware.mode = .erasing ∧ t.firmware.window = some w ∧
        (t.flash.regions.get s.firmware.region).header = none ∧ (t.flash.regions.get s.firmware.region).blank = true) ∧
      (isPackage (winTarget s w) = false → t = { s with windows := t.windows, clients := t.clients, maint := t.maint })) ∧
    (∀ r, openWriteRefused s k w = some r → ∃ t, exec (.windowOpenWrite k w) s = .next t ∧ answered t k = some (.abort r.2) ∧
      (winBusy (winAt s w) = true → t.windows = s.windows) ∧
      t = { s with windows := t.windows, clients := t.clients, maint := t.maint }) ∧
    (∀ f, winBusy (winAt s w) = false → flowTarget (winTarget s w) = some f → winCheck s w = false →
      ∃ t, exec (.windowOpenRead k w) s = .next t ∧ answered t k = some .ack ∧ (winAt t w).mode = .openRead ∧
        (winAt t w).owner = some k ∧ (winAt t w).content = sessionDescription (touchClient s k) f ∧
        (winAt t w).length = (winAt t w).content.length ∧
        t = { s with dict := t.dict, windows := t.windows, clients := t.clients, maint := t.maint }) ∧
    (∀ data, (winAt s w).mode = .openWrite → (winAt s w).owner = some k → data.length ≠ 0 → data.length % 16 = 0 →
      (winAt s w).pos + data.length ≤ wordsUp (winAt s w).length → s.firmware.window ≠ some w →
      ∃ t, exec (.windowData k w true data) s = .next t ∧ answered t k = some .ack ∧
        (winAt t w).content = (winAt s w).content ++ data ∧ (winAt t w).pos = (winAt s w).pos + data.length ∧
        (∀ v, v ≠ w → winAt t v = winAt s v) ∧ t = { s with windows := t.windows, clients := t.clients, maint := t.maint }) ∧
    (∀ data, ((winAt s w).mode ≠ .openWrite ∨ (winAt s w).owner ≠ some k) → ∃ t, exec (.windowData k w true data) s = .next t ∧
      answered t k = some (.abort .presentState) ∧ t = { s with clients := t.clients, maint := t.maint }) ∧
    ((winAt s w).mode = .openRead → (winAt s w).owner = some k → (winAt s w).pos < (winAt s w).length →
      ∃ t, exec (.windowData k w false []) s = .next t ∧ answered t k = some (.value (dataWord (winAt s w))) ∧
        (winAt t w).pos = (winAt s w).pos + 16 ∧ t = { s with windows := t.windows, clients := t.clients }) ∧
    (((winAt s w).mode ≠ .openWrite ∨ (winAt s w).owner ≠ some k ∨ (winAt s w).pos < (winAt s w).length) →
      ∃ t, exec (.windowCommit k w) s = .next t ∧ answered t k = some (.abort .presentState) ∧
        t = { s with clients := t.clients, maint := t.maint }) ∧
    (∀ c n z, (winAt s w).mode = .openWrite → (winAt s w).owner = some k → (winAt s w).length ≤ (winAt s w).pos →
      (winAt s w).check = false → s.firmware.window ≠ some w →
      mapTarget ((winAt s w).target / 65536, (winAt s w).target / 256 % 256) = some (c, n) →
      doMapData c n ((winAt s w).content.take (winAt s w).length) (touchClient s k) = .ok z →
      ∃ t, exec (.windowCommit k w) s = .next t ∧ answered t k = some .ack ∧ (winAt t w).mode = .committed ∧
        t.streams = z.streams ∧ (∀ v, v ≠ w → winAt t v = winAt s v)) ∧
    ((winAt s w).mode = .openWrite → (winAt s w).owner = some k → (winAt s w).length ≤ (winAt s w).pos →
      s.firmware.window = some w → s.firmware.mode = .ready →
      ∃ t, exec (.windowCommit k w) s = .next t ∧ answered t k = some .ack ∧ (winAt t w).mode = .committing ∧
        t.firmware = { s.firmware with mode := .verifying } ∧
        t = { s with windows := t.windows, firmware := t.firmware, clients := t.clients, maint := t.maint }) ∧
    ((winAt s w).owner = some k ∨ winBusy (winAt s w) = false → ∃ t, exec (.windowAbandon k w) s = .next t ∧
      answered t k = some .ack ∧ (winAt t w).mode = .closed ∧ (winAt t w).owner = none ∧
      (winBusy (winAt s w) = true → s.firmware.window = some w → t.firmware.window = none) ∧
      t = { s with flash := t.flash, windows := t.windows, firmware := t.firmware, clients := t.clients, maint := t.maint }) ∧
    (((winAt s w).mode = .openWrite ∨ (winAt s w).mode = .openRead) →
      ((winAt s w).lastAt + 60 * cyclesPerSec ≤ s.now → ∃ t, exec (.windowTimeout w) s = .next t ∧
        (winAt t w).mode = .closed ∧ (winAt t w).reason = 3 ∧
        t = { s with flash := t.flash, windows := t.windows, firmware := t.firmware }) ∧
      (s.now < (winAt s w).lastAt + 60 * cyclesPerSec → exec (.windowTimeout w) s = .next s)) ∧
    ((winAt s w).mode = .closed → exec (.windowTimeout w) s = .next s)) ∧
  (
  (∀ s : State, (s.firmware.mode = .erasing → ∃ t, exec .firmwareEraseDone s = .next t ∧
      t.firmware = { s.firmware with mode := .ready } ∧ t.flash = { s.flash with
        erasing := none, intents := s.flash.intents.erase (s.firmware.region.val * 1536) } ∧
      t = { s with firmware := t.firmware, flash := t.flash }) ∧
    (s.firmware.mode ≠ .erasing → exec .firmwareEraseDone s = .next s)) ∧
  (∀ (failed : Bool) (k : Client) (w : WinId) (data : List Byte) (s : State), s.firmware.held = some (k, w, data) →
    data.length ≤ (bufferDrain s).firmware.room →
    ∃ t, exec (.programBufferRoom failed) s = .next t ∧ t.firmware.held = none ∧ answered t k = some .ack ∧
      (t.clients.get k).busy = false ∧ (winAt t w).content = (winAt s w).content ++ data ∧
      t.firmware.room = (bufferDrain s).firmware.room - data.length ∧ t.dict = s.dict) ∧
  (∀ (failed : Bool) (k : Client) (w : WinId) (data : List Byte) (s : State), s.firmware.held = some (k, w, data) →
    (bufferDrain s).firmware.room < data.length → ∃ t, exec (.programBufferRoom failed) s = .next t ∧
      t.firmware.held = s.firmware.held ∧ t = { s with firmware := t.firmware }) ∧
  (∀ (failed : Bool) (s : State), s.firmware.held = none → ∃ t, exec (.programBufferRoom failed) s = .next t ∧
    (s.firmware.window.isSome = true → failed = true → t.firmware.badWord = true) ∧ t = { s with firmware := t.firmware }) ∧
  (∀ (h : PackageHeader) (w : WinId) (s : State), s.firmware.mode = .verifying → s.firmware.window = some w →
    (winAt s w).check = true →
    ∃ t, exec (.firmwareVerifyDone h) s = .next t ∧ t.firmware.window = none ∧
      t.firmware.reason = updateReason s.firmware.badWord (checkWindow s (winAt s w)).2 h ∧
      (t.firmware.reason = 0 → t.firmware.mode = .staged ∧ (winAt t w).mode = .committed ∧
        (t.flash.regions.get s.firmware.region).header = some h) ∧
      (t.firmware.reason ≠ 0 → t.firmware.mode = .failed ∧ (winAt t w).mode = .failed ∧
        (t.flash.regions.get s.firmware.region).header = none) ∧ CodingKept s t) ∧
  (∀ (h : PackageHeader) (w : WinId) (s : State), s.firmware.mode = .verifying → s.firmware.window = some w →
    (winAt s w).check = false →
    ∃ t, exec (.firmwareVerifyDone h) s = .next t ∧ t.firmware.window = none ∧
      t.firmware.reason = updateReason s.firmware.badWord true h ∧
      (updateReason s.firmware.badWord true h = 0 → t.firmware.mode = .staged ∧ (winAt t w).mode = .committed ∧
        (t.flash.regions.get s.firmware.region).header = some h) ∧
      (updateReason s.firmware.badWord true h ≠ 0 → t.firmware.mode = .failed ∧ (winAt t w).mode = .failed ∧
        (t.flash.regions.get s.firmware.region).header = none) ∧
      t = { s with flash := t.flash, windows := t.windows, firmware := t.firmware }) ∧
  ∀ (h : PackageHeader) (s : State), (s.firmware.mode ≠ .verifying ∨ s.firmware.window = none) →
    exec (.firmwareVerifyDone h) s = .next s)

/-- R419, R420: a challenge is drawn at each read; the response that matches it unlocks for its client, the third mismatch in a
row bars attempts for 60 s; the lock, and 600 s without a write, end the unlock. R421, R405: "save" is held until its copy is in
the area that does not hold the newest one, and is refused while another runs; "load" leaves both areas void and no value as yet
changed. -/
def Obligations.UnlockAndSaving : Prop :=
  (
  (∀ (k : Client) (s : State), serves s k 0x5F08 = true → ∃ t, exec (.challengeRead k) s = .next t ∧
    t.maint.challenges.get k = some (Config.challenge s.free) ∧
    answered t k = some (.value (leBytes 8 (Config.challenge s.free).toNat)) ∧
    t = { s with free := s.free + 1, clients := t.clients, maint := t.maint }) ∧
  (∀ (k : Client) (v : BitVec 128) (s : State), Served s k 0x5F08 →
    (responseBarred s k = true → ∃ t, exec (.responseWrite k v) s = .next t ∧ answered t k = some (.abort .presentState) ∧
      t.maint.owner = s.maint.owner ∧ t = { s with clients := t.clients, maint := t.maint }) ∧
    ∀ c, responseBarred s k = false → s.maint.challenges.get k = some c →
      (Config.hmac c Config.serialNumber = v → ∃ t, exec (.responseWrite k v) s = .next t ∧ answered t k = some .ack ∧
        t.maint.owner = some k ∧ t.maint.lastWrite = s.now ∧ t.maint.challenges.get k = none ∧ t.flash.limitOpen = true ∧ t.dict = s.dict) ∧
      (Config.hmac c Config.serialNumber ≠ v → ∃ t, exec (.responseWrite k v) s = .next t ∧
        answered t k = some (.abort .presentState) ∧ t.maint.owner = s.maint.owner ∧ t.maint.challenges.get k = none ∧
        (s.maint.failures = 2 → t.maint.failures = 0 ∧ t.maint.blockUntil = some (s.now + 60 * cyclesPerSec)) ∧
        (s.maint.failures ≠ 2 → t.maint.failures = s.maint.failures + 1 ∧ t.maint.blockUntil = s.maint.blockUntil) ∧
        t = { s with regs := t.regs, overflow := t.overflow, clients := t.clients, maint := t.maint })) ∧
  (∀ (k : Client) (s : State), Served s k 0x5F08 → ∃ t, exec (.maintenanceLock k) s = .next t ∧ answered t k = some .ack ∧
    t.maint.owner = none ∧ t = { s with regs := t.regs, watch := t.watch, flash := t.flash, ctrl := t.ctrl, clients := t.clients, windows := t.windows,
                                        firmware := t.firmware, maint := t.maint }) ∧
  (∀ s : State, s.maint.owner.isSome = true →
    (s.maint.lastWrite + 600 * cyclesPerSec ≤ s.now → ∃ t, exec .unlockExpiry s = .next t ∧ t.maint.owner = none ∧
      t.ctrl.lockUnit = true ∧
      t = { s with regs := t.regs, watch := t.watch, flash := t.flash, ctrl := t.ctrl, windows := t.windows, firmware := t.firmware,
                   maint := t.maint }) ∧
    (s.now < s.maint.lastWrite + 600 * cyclesPerSec → exec .unlockExpiry s = .next s)) ∧
  ∀ (at_ : Nat) (s : State), s.maint.blockUntil = some at_ →
    (at_ ≤ s.now → exec .unlockAttemptBlockExpiry s = .next { s with maint := { s.maint with blockUntil := none } }) ∧
    (s.now < at_ → exec .unlockAttemptBlockExpiry s = .next s)) ∧
  (
  (∀ (k : Client) (s : State), Served s k 0x1010 →
    (s.flash.saving = none → ∃ t, exec (.save k) s = .next t ∧ (t.clients.get k).busy = true ∧
      t.flash = { s.flash with saving := some (k, s.now, savedImage s), pulse := true, writing := .saved } ∧
      t = { s with flash := t.flash, clients := t.clients, maint := t.maint }) ∧
    (s.flash.saving.isSome = true → ∃ t, exec (.save k) s = .next t ∧ answered t k = some (.abort .presentState) ∧
      t = { s with clients := t.clients, maint := t.maint })) ∧
  (∀ s : State, s.flash.saving = none → exec .saveComplete s = .next s) ∧
  (∀ (k : Client) (at_ : Nat) (image : SavedImage) (s : State), s.flash.saving = some (k, at_, image) →
    ∃ t, exec .saveComplete s = .next t ∧ answered t k = some .ack ∧ (t.clients.get k).busy = false ∧
      t.flash.saving = none ∧ t.flash.pulse = false ∧ t.flash.writing = .none ∧ t.flash.savedNewest = 1 - s.flash.savedNewest ∧
      t.flash.saved.get (1 - s.flash.savedNewest) = some image ∧
      t.flash.saved.get s.flash.savedNewest = s.flash.saved.get s.flash.savedNewest ∧ t.dict = s.dict) ∧
  ∀ (k : Client) (s : State), Served s k 0x1011 → ∃ t, exec (.load k) s = .next t ∧ answered t k = some .ack ∧
    t.flash = { s.flash with saved := .replicate 2 none, savedVoid := true } ∧
    t = { s with flash := t.flash, clients := t.clients, maint := t.maint })


/-! ## The whole block -/

/-- Every command answers a next state, and none touches the queue of waiting commands or lets time pass. -/
def Obligations.EveryCommandCompletes : Prop :=
  ∀ (c : Instr) (s : State), ∃ t, exec c s = .next t ∧ t.pending = s.pending ∧ t.now = s.now

/-- R308, R243, R221, Table 15-5: after power-on reset source 0 is asserted and is the cause, no unit is active, every channel
is stopped, objects read their defaults, TB0 and TB3 are 0 and the servo runs free, the always enabled flows are enabled and no
other, all queues and lists are empty, contexts 14 and 15 alone are enabled; and the stores are in their canonical form. -/
def Obligations.ResetState : Prop :=
  State.reset.rst.asserted = 1 ∧ State.reset.rst.causes = 1 ∧ State.reset.relay.active = none ∧ State.reset.pending = [] ∧
  (∀ c : Chan, (State.reset.chans.get c).mode = .stopped) ∧ (∀ k, cfg State.reset k = defaultOf k) ∧
  (∀ k, applied State.reset k = defaultOf k) ∧ State.reset.time.tb0 = 0 ∧ tb3Ref State.reset = 0 ∧
  State.reset.time.servo = .freeRun ∧ (∀ f : FlowId, (State.reset.flows.get f).enabled = decide (248 ≤ f.val)) ∧
  (∀ f : FlowId, (State.reset.flows.get f).queue = []) ∧ State.reset.emcy.queue = [] ∧ State.reset.log.records = [] ∧
  (∀ (u : UnitId) (c : Fin 64), ((State.reset.atu.get u).get c).enabled = decide (c.val = 14 ∨ c.val = 15)) ∧
  (∀ (u : UnitId) (c : DramChan), ((State.reset.dram.get u).chan.get c).debt = 0) ∧ (∀ (u : UnitId) (c : DramChan), ((State.reset.dram.get u).chan.get c).multiplier = 1) ∧ (∀ u, (State.reset.dram.get u).threshold = 2048) ∧
  (∀ u, ((State.reset.atu.get u).get 14).entries.length = 56 ∧ ((State.reset.atu.get u).get 15).entries.length = 7) ∧
  dictAnswers State.reset = false ∧ StoresKept State.reset

/-- Every step keeps the stores: register words, the configuration copies and the DRAM of both units stay in canonical form, and
the overflow list, the event log and the error list within their sizes (R348, R353, R422). -/
def Obligations.EveryStepKeepsTheStores : Prop :=
  ∀ (s t : State), StoresKept s → step s = .next t → StoresKept t
end

