-- ==== Sys2Proof/Laws/Baton.lean ====
section
/-! SUPPORT. The bytes of a record, and of a baton: what is written is what is read. -/

namespace Sys2Proof.Machine

theorem leBytes_length (n v : Nat) : (leBytes n v).length = n := by
  induction n generalizing v with
  | zero => rfl
  | succ n ih => simp [leBytes, ih]

/-- Little-endian bytes hold the value modulo their width (00_scope.md R7). -/
theorem leNat_leBytes (n v : Nat) : leNat (leBytes n v) = v % 256 ^ n := by
  induction n generalizing v with
  | zero => simp [leBytes, leNat, Nat.mod_one]
  | succ n ih =>
    rw [leBytes, leNat, ih, BitVec.toNat_ofNat, show 256 ^ (n + 1) = 256 * 256 ^ n by ring, Nat.mod_mul]

theorem flatMap_length_const {α : Type} (f : α → List Byte) (n : Nat) (h : ∀ a, (f a).length = n) (l : List α) :
    (l.flatMap f).length = n * l.length := by
  induction l with
  | nil => simp
  | cons a t ih => simp [List.flatMap_cons, h, ih, Nat.mul_add, Nat.add_comm]

/-- A baton with its 4 channel, 16 stream and 256 flow entries fills 8,188 bytes (13_relay.md R315, Tables 13-3 and 13-4). -/
theorem batonBody_length (b : Baton) (hc : b.counters.length = 4) (hs : b.streams.length = 16) (hf : b.flows.length = 256) :
    (batonBody b).length = 8188 := by
  simp only [batonBody, List.length_append, leBytes_length, List.length_replicate,
    flatMap_length_const streamBytes 128 (fun _ => leBytes_length _ _),
    flatMap_length_const (fun c : Nat × Nat × Nat => leBytes 32 (recordOf [(191, 128, c.1), (127, 64, c.2.1), (63, 0, c.2.2)])) 32
      (fun _ => leBytes_length _ _),
    flatMap_length_const (fun f : Nat × Nat => leBytes 16 (recordOf [(127, 80, f.1), (79, 48, f.2)])) 16 (fun _ => leBytes_length _ _),
    hc, hs, hf]

/-- The first record of bytes. -/
theorem recordAt_zero (a b : List Byte) (n : Nat) (h : a.length = n) : recordAt (a ++ b) 0 n = leNat a := by
  rw [recordAt, ← h, List.drop_zero, List.take_left']
  rfl

/-- A baton read as it was written has its ALIVE (Table 13-4). -/
theorem parseBaton_alive (b : Baton) :
    (parseBaton (batonBytes b)).alive = fieldOf (recordOf [(511, 504, 1), (503, 488, b.alive), (487, 487, b.unit.bit), (479, 416, b.lapCount),
      (415, 352, b.stateCycle), (351, 320, b.generation), (319, 288, b.lapInPicture), (287, 272, b.streamsOn)] % 256 ^ 64) 503 488 := by
  simp only [parseBaton, batonBytes, batonBody, List.append_assoc]
  rw [recordAt_zero _ _ 64 (leBytes_length _ _), leNat_leBytes]

/-- The check of a body with four more bytes compares those bytes with its CRC-32C. -/
theorem batonCrcOk_append (body last : List Byte) (h : body.length = 8188) (hl : last.length = 4) :
    batonCrcOk (body ++ last) = decide ((crc32c body).toNat = leNat last) := by
  rw [batonCrcOk, recordAt, ← h, List.take_left', List.drop_left', List.take_of_length_le (by omega)] <;> rfl

/-- A baton as it is written passes its CRC check (R315). -/
theorem batonBytes_crcOk (b : Baton) (h : (batonBody b).length = 8188) : batonCrcOk (batonBytes b) = true := by
  rw [batonBytes, batonCrcOk_append _ _ h (leBytes_length _ _), decide_eq_true_eq, leNat_leBytes]
  exact (Nat.mod_eq_of_lt (crc32c (batonBody b)).isLt).symm

/-- Read with another first byte of its CRC, it fails the check. -/
theorem batonBytes_crcBad (b : Baton) (x : Byte) (h : (batonBody b).length = 8188) (hx : x ≠ BitVec.ofNat 8 (crc32c (batonBody b)).toNat) :
    batonCrcOk (damagedBytes (batonBytes b) [(8188, x)]) = false := by
  have e : damagedBytes (batonBytes b) [(8188, x)] = batonBody b ++ (x :: leBytes 3 ((crc32c (batonBody b)).toNat / 256)) := by
    rw [← h]
    simp [damagedBytes, batonBytes, leBytes]
  rw [e, batonCrcOk_append _ _ h (by simp [leBytes_length]), decide_eq_false_iff_not]
  intro he
  refine hx (BitVec.eq_of_toNat_eq ?_)
  rw [leNat] at he
  rw [he, BitVec.toNat_ofNat]
  omega

end Sys2Proof.Machine
end

