-- ==== Sys2Proof/Laws/State.lean ====
section
/-! SUPPORT. What each shared update leaves of State: one lemma per field and update. -/

namespace Sys2Proof.Machine

variable (s : State)

/-! ### regPut -/

@[simp] theorem regPut_now (k v : Nat) : (regPut s k v).now = s.now := rfl
@[simp] theorem regPut_free (k v : Nat) : (regPut s k v).free = s.free := rfl
@[simp] theorem regPut_pending (k v : Nat) : (regPut s k v).pending = s.pending := rfl
@[simp] theorem regPut_dict (k v : Nat) : (regPut s k v).dict = s.dict := rfl
@[simp] theorem regPut_overflow (k v : Nat) : (regPut s k v).overflow = s.overflow := rfl
@[simp] theorem regPut_emcy (k v : Nat) : (regPut s k v).emcy = s.emcy := rfl
@[simp] theorem regPut_log (k v : Nat) : (regPut s k v).log = s.log := rfl
@[simp] theorem regPut_lap (k v : Nat) : (regPut s k v).lap = s.lap := rfl
@[simp] theorem regPut_disp (k v : Nat) : (regPut s k v).disp = s.disp := rfl
@[simp] theorem regPut_chans (k v : Nat) : (regPut s k v).chans = s.chans := rfl
@[simp] theorem regPut_streams (k v : Nat) : (regPut s k v).streams = s.streams := rfl
@[simp] theorem regPut_rois (k v : Nat) : (regPut s k v).rois = s.rois := rfl
@[simp] theorem regPut_lanes (k v : Nat) : (regPut s k v).lanes = s.lanes := rfl
@[simp] theorem regPut_links (k v : Nat) : (regPut s k v).links = s.links := rfl
@[simp] theorem regPut_input (k v : Nat) : (regPut s k v).input = s.input := rfl
@[simp] theorem regPut_phase (k v : Nat) : (regPut s k v).phase = s.phase := rfl
@[simp] theorem regPut_ret (k v : Nat) : (regPut s k v).ret = s.ret := rfl
@[simp] theorem regPut_mon (k v : Nat) : (regPut s k v).mon = s.mon := rfl
@[simp] theorem regPut_ports (k v : Nat) : (regPut s k v).ports = s.ports := rfl
@[simp] theorem regPut_bridge (k v : Nat) : (regPut s k v).bridge = s.bridge := rfl
@[simp] theorem regPut_flows (k v : Nat) : (regPut s k v).flows = s.flows := rfl
@[simp] theorem regPut_meters (k v : Nat) : (regPut s k v).meters = s.meters := rfl
@[simp] theorem regPut_watch (k v : Nat) : (regPut s k v).watch = s.watch := rfl
@[simp] theorem regPut_counts (k v : Nat) : (regPut s k v).counts = s.counts := rfl
@[simp] theorem regPut_time (k v : Nat) : (regPut s k v).time = s.time := rfl
@[simp] theorem regPut_dram (k v : Nat) : (regPut s k v).dram = s.dram := rfl
@[simp] theorem regPut_atu (k v : Nat) : (regPut s k v).atu = s.atu := rfl
@[simp] theorem regPut_dma (k v : Nat) : (regPut s k v).dma = s.dma := rfl
@[simp] theorem regPut_capture (k v : Nat) : (regPut s k v).capture = s.capture := rfl
@[simp] theorem regPut_relay (k v : Nat) : (regPut s k v).relay = s.relay := rfl
@[simp] theorem regPut_baton (k v : Nat) : (regPut s k v).baton = s.baton := rfl
@[simp] theorem regPut_selfTest (k v : Nat) : (regPut s k v).selfTest = s.selfTest := rfl
@[simp] theorem regPut_standIns (k v : Nat) : (regPut s k v).standIns = s.standIns := rfl
@[simp] theorem regPut_boot (k v : Nat) : (regPut s k v).boot = s.boot := rfl
@[simp] theorem regPut_slots (k v : Nat) : (regPut s k v).slots = s.slots := rfl
@[simp] theorem regPut_snaps (k v : Nat) : (regPut s k v).snaps = s.snaps := rfl
@[simp] theorem regPut_cv (k v : Nat) : (regPut s k v).cv = s.cv := rfl
@[simp] theorem regPut_rst (k v : Nat) : (regPut s k v).rst = s.rst := rfl
@[simp] theorem regPut_flash (k v : Nat) : (regPut s k v).flash = s.flash := rfl
@[simp] theorem regPut_ctrl (k v : Nat) : (regPut s k v).ctrl = s.ctrl := rfl
@[simp] theorem regPut_stage (k v : Nat) : (regPut s k v).stage = s.stage := rfl
@[simp] theorem regPut_sensors (k v : Nat) : (regPut s k v).sensors = s.sensors := rfl
@[simp] theorem regPut_planner (k v : Nat) : (regPut s k v).planner = s.planner := rfl
@[simp] theorem regPut_can (k v : Nat) : (regPut s k v).can = s.can := rfl
@[simp] theorem regPut_clients (k v : Nat) : (regPut s k v).clients = s.clients := rfl
@[simp] theorem regPut_windows (k v : Nat) : (regPut s k v).windows = s.windows := rfl
@[simp] theorem regPut_firmware (k v : Nat) : (regPut s k v).firmware = s.firmware := rfl
@[simp] theorem regPut_maint (k v : Nat) : (regPut s k v).maint = s.maint := rfl
@[simp] theorem regPut_pins (k v : Nat) : (regPut s k v).pins = s.pins := rfl

/-! ### modStream -/

@[simp] theorem modStream_now (n : StreamId) (f : Stream → Stream) : (modStream s n f).now = s.now := rfl
@[simp] theorem modStream_free (n : StreamId) (f : Stream → Stream) : (modStream s n f).free = s.free := rfl
@[simp] theorem modStream_pending (n : StreamId) (f : Stream → Stream) : (modStream s n f).pending = s.pending := rfl
@[simp] theorem modStream_dict (n : StreamId) (f : Stream → Stream) : (modStream s n f).dict = s.dict := rfl
@[simp] theorem modStream_regs (n : StreamId) (f : Stream → Stream) : (modStream s n f).regs = s.regs := rfl
@[simp] theorem modStream_overflow (n : StreamId) (f : Stream → Stream) : (modStream s n f).overflow = s.overflow := rfl
@[simp] theorem modStream_emcy (n : StreamId) (f : Stream → Stream) : (modStream s n f).emcy = s.emcy := rfl
@[simp] theorem modStream_log (n : StreamId) (f : Stream → Stream) : (modStream s n f).log = s.log := rfl
@[simp] theorem modStream_lap (n : StreamId) (f : Stream → Stream) : (modStream s n f).lap = s.lap := rfl
@[simp] theorem modStream_disp (n : StreamId) (f : Stream → Stream) : (modStream s n f).disp = s.disp := rfl
@[simp] theorem modStream_chans (n : StreamId) (f : Stream → Stream) : (modStream s n f).chans = s.chans := rfl
@[simp] theorem modStream_rois (n : StreamId) (f : Stream → Stream) : (modStream s n f).rois = s.rois := rfl
@[simp] theorem modStream_lanes (n : StreamId) (f : Stream → Stream) : (modStream s n f).lanes = s.lanes := rfl
@[simp] theorem modStream_links (n : StreamId) (f : Stream → Stream) : (modStream s n f).links = s.links := rfl
@[simp] theorem modStream_input (n : StreamId) (f : Stream → Stream) : (modStream s n f).input = s.input := rfl
@[simp] theorem modStream_phase (n : StreamId) (f : Stream → Stream) : (modStream s n f).phase = s.phase := rfl
@[simp] theorem modStream_ret (n : StreamId) (f : Stream → Stream) : (modStream s n f).ret = s.ret := rfl
@[simp] theorem modStream_mon (n : StreamId) (f : Stream → Stream) : (modStream s n f).mon = s.mon := rfl
@[simp] theorem modStream_ports (n : StreamId) (f : Stream → Stream) : (modStream s n f).ports = s.ports := rfl
@[simp] theorem modStream_bridge (n : StreamId) (f : Stream → Stream) : (modStream s n f).bridge = s.bridge := rfl
@[simp] theorem modStream_flows (n : StreamId) (f : Stream → Stream) : (modStream s n f).flows = s.flows := rfl
@[simp] theorem modStream_meters (n : StreamId) (f : Stream → Stream) : (modStream s n f).meters = s.meters := rfl
@[simp] theorem modStream_watch (n : StreamId) (f : Stream → Stream) : (modStream s n f).watch = s.watch := rfl
@[simp] theorem modStream_counts (n : StreamId) (f : Stream → Stream) : (modStream s n f).counts = s.counts := rfl
@[simp] theorem modStream_time (n : StreamId) (f : Stream → Stream) : (modStream s n f).time = s.time := rfl
@[simp] theorem modStream_dram (n : StreamId) (f : Stream → Stream) : (modStream s n f).dram = s.dram := rfl
@[simp] theorem modStream_atu (n : StreamId) (f : Stream → Stream) : (modStream s n f).atu = s.atu := rfl
@[simp] theorem modStream_dma (n : StreamId) (f : Stream → Stream) : (modStream s n f).dma = s.dma := rfl
@[simp] theorem modStream_capture (n : StreamId) (f : Stream → Stream) : (modStream s n f).capture = s.capture := rfl
@[simp] theorem modStream_relay (n : StreamId) (f : Stream → Stream) : (modStream s n f).relay = s.relay := rfl
@[simp] theorem modStream_baton (n : StreamId) (f : Stream → Stream) : (modStream s n f).baton = s.baton := rfl
@[simp] theorem modStream_selfTest (n : StreamId) (f : Stream → Stream) : (modStream s n f).selfTest = s.selfTest := rfl
@[simp] theorem modStream_standIns (n : StreamId) (f : Stream → Stream) : (modStream s n f).standIns = s.standIns := rfl
@[simp] theorem modStream_boot (n : StreamId) (f : Stream → Stream) : (modStream s n f).boot = s.boot := rfl
@[simp] theorem modStream_slots (n : StreamId) (f : Stream → Stream) : (modStream s n f).slots = s.slots := rfl
@[simp] theorem modStream_snaps (n : StreamId) (f : Stream → Stream) : (modStream s n f).snaps = s.snaps := rfl
@[simp] theorem modStream_cv (n : StreamId) (f : Stream → Stream) : (modStream s n f).cv = s.cv := rfl
@[simp] theorem modStream_rst (n : StreamId) (f : Stream → Stream) : (modStream s n f).rst = s.rst := rfl
@[simp] theorem modStream_flash (n : StreamId) (f : Stream → Stream) : (modStream s n f).flash = s.flash := rfl
@[simp] theorem modStream_ctrl (n : StreamId) (f : Stream → Stream) : (modStream s n f).ctrl = s.ctrl := rfl
@[simp] theorem modStream_stage (n : StreamId) (f : Stream → Stream) : (modStream s n f).stage = s.stage := rfl
@[simp] theorem modStream_sensors (n : StreamId) (f : Stream → Stream) : (modStream s n f).sensors = s.sensors := rfl
@[simp] theorem modStream_planner (n : StreamId) (f : Stream → Stream) : (modStream s n f).planner = s.planner := rfl
@[simp] theorem modStream_can (n : StreamId) (f : Stream → Stream) : (modStream s n f).can = s.can := rfl
@[simp] theorem modStream_clients (n : StreamId) (f : Stream → Stream) : (modStream s n f).clients = s.clients := rfl
@[simp] theorem modStream_windows (n : StreamId) (f : Stream → Stream) : (modStream s n f).windows = s.windows := rfl
@[simp] theorem modStream_firmware (n : StreamId) (f : Stream → Stream) : (modStream s n f).firmware = s.firmware := rfl
@[simp] theorem modStream_maint (n : StreamId) (f : Stream → Stream) : (modStream s n f).maint = s.maint := rfl
@[simp] theorem modStream_pins (n : StreamId) (f : Stream → Stream) : (modStream s n f).pins = s.pins := rfl

/-! ### modPacer -/

@[simp] theorem modPacer_now (n : StreamId) (f : PacerState → PacerState) : (modPacer s n f).now = s.now := rfl
@[simp] theorem modPacer_free (n : StreamId) (f : PacerState → PacerState) : (modPacer s n f).free = s.free := rfl
@[simp] theorem modPacer_pending (n : StreamId) (f : PacerState → PacerState) : (modPacer s n f).pending = s.pending := rfl
@[simp] theorem modPacer_dict (n : StreamId) (f : PacerState → PacerState) : (modPacer s n f).dict = s.dict := rfl
@[simp] theorem modPacer_regs (n : StreamId) (f : PacerState → PacerState) : (modPacer s n f).regs = s.regs := rfl
@[simp] theorem modPacer_overflow (n : StreamId) (f : PacerState → PacerState) : (modPacer s n f).overflow = s.overflow := rfl
@[simp] theorem modPacer_emcy (n : StreamId) (f : PacerState → PacerState) : (modPacer s n f).emcy = s.emcy := rfl
@[simp] theorem modPacer_log (n : StreamId) (f : PacerState → PacerState) : (modPacer s n f).log = s.log := rfl
@[simp] theorem modPacer_lap (n : StreamId) (f : PacerState → PacerState) : (modPacer s n f).lap = s.lap := rfl
@[simp] theorem modPacer_disp (n : StreamId) (f : PacerState → PacerState) : (modPacer s n f).disp = s.disp := rfl
@[simp] theorem modPacer_chans (n : StreamId) (f : PacerState → PacerState) : (modPacer s n f).chans = s.chans := rfl
@[simp] theorem modPacer_rois (n : StreamId) (f : PacerState → PacerState) : (modPacer s n f).rois = s.rois := rfl
@[simp] theorem modPacer_lanes (n : StreamId) (f : PacerState → PacerState) : (modPacer s n f).lanes = s.lanes := rfl
@[simp] theorem modPacer_links (n : StreamId) (f : PacerState → PacerState) : (modPacer s n f).links = s.links := rfl
@[simp] theorem modPacer_input (n : StreamId) (f : PacerState → PacerState) : (modPacer s n f).input = s.input := rfl
@[simp] theorem modPacer_phase (n : StreamId) (f : PacerState → PacerState) : (modPacer s n f).phase = s.phase := rfl
@[simp] theorem modPacer_ret (n : StreamId) (f : PacerState → PacerState) : (modPacer s n f).ret = s.ret := rfl
@[simp] theorem modPacer_mon (n : StreamId) (f : PacerState → PacerState) : (modPacer s n f).mon = s.mon := rfl
@[simp] theorem modPacer_ports (n : StreamId) (f : PacerState → PacerState) : (modPacer s n f).ports = s.ports := rfl
@[simp] theorem modPacer_bridge (n : StreamId) (f : PacerState → PacerState) : (modPacer s n f).bridge = s.bridge := rfl
@[simp] theorem modPacer_flows (n : StreamId) (f : PacerState → PacerState) : (modPacer s n f).flows = s.flows := rfl
@[simp] theorem modPacer_meters (n : StreamId) (f : PacerState → PacerState) : (modPacer s n f).meters = s.meters := rfl
@[simp] theorem modPacer_watch (n : StreamId) (f : PacerState → PacerState) : (modPacer s n f).watch = s.watch := rfl
@[simp] theorem modPacer_counts (n : StreamId) (f : PacerState → PacerState) : (modPacer s n f).counts = s.counts := rfl
@[simp] theorem modPacer_time (n : StreamId) (f : PacerState → PacerState) : (modPacer s n f).time = s.time := rfl
@[simp] theorem modPacer_dram (n : StreamId) (f : PacerState → PacerState) : (modPacer s n f).dram = s.dram := rfl
@[simp] theorem modPacer_atu (n : StreamId) (f : PacerState → PacerState) : (modPacer s n f).atu = s.atu := rfl
@[simp] theorem modPacer_dma (n : StreamId) (f : PacerState → PacerState) : (modPacer s n f).dma = s.dma := rfl
@[simp] theorem modPacer_capture (n : StreamId) (f : PacerState → PacerState) : (modPacer s n f).capture = s.capture := rfl
@[simp] theorem modPacer_relay (n : StreamId) (f : PacerState → PacerState) : (modPacer s n f).relay = s.relay := rfl
@[simp] theorem modPacer_baton (n : StreamId) (f : PacerState → PacerState) : (modPacer s n f).baton = s.baton := rfl
@[simp] theorem modPacer_selfTest (n : StreamId) (f : PacerState → PacerState) : (modPacer s n f).selfTest = s.selfTest := rfl
@[simp] theorem modPacer_standIns (n : StreamId) (f : PacerState → PacerState) : (modPacer s n f).standIns = s.standIns := rfl
@[simp] theorem modPacer_boot (n : StreamId) (f : PacerState → PacerState) : (modPacer s n f).boot = s.boot := rfl
@[simp] theorem modPacer_slots (n : StreamId) (f : PacerState → PacerState) : (modPacer s n f).slots = s.slots := rfl
@[simp] theorem modPacer_snaps (n : StreamId) (f : PacerState → PacerState) : (modPacer s n f).snaps = s.snaps := rfl
@[simp] theorem modPacer_cv (n : StreamId) (f : PacerState → PacerState) : (modPacer s n f).cv = s.cv := rfl
@[simp] theorem modPacer_rst (n : StreamId) (f : PacerState → PacerState) : (modPacer s n f).rst = s.rst := rfl
@[simp] theorem modPacer_flash (n : StreamId) (f : PacerState → PacerState) : (modPacer s n f).flash = s.flash := rfl
@[simp] theorem modPacer_ctrl (n : StreamId) (f : PacerState → PacerState) : (modPacer s n f).ctrl = s.ctrl := rfl
@[simp] theorem modPacer_stage (n : StreamId) (f : PacerState → PacerState) : (modPacer s n f).stage = s.stage := rfl
@[simp] theorem modPacer_sensors (n : StreamId) (f : PacerState → PacerState) : (modPacer s n f).sensors = s.sensors := rfl
@[simp] theorem modPacer_planner (n : StreamId) (f : PacerState → PacerState) : (modPacer s n f).planner = s.planner := rfl
@[simp] theorem modPacer_can (n : StreamId) (f : PacerState → PacerState) : (modPacer s n f).can = s.can := rfl
@[simp] theorem modPacer_clients (n : StreamId) (f : PacerState → PacerState) : (modPacer s n f).clients = s.clients := rfl
@[simp] theorem modPacer_windows (n : StreamId) (f : PacerState → PacerState) : (modPacer s n f).windows = s.windows := rfl
@[simp] theorem modPacer_firmware (n : StreamId) (f : PacerState → PacerState) : (modPacer s n f).firmware = s.firmware := rfl
@[simp] theorem modPacer_maint (n : StreamId) (f : PacerState → PacerState) : (modPacer s n f).maint = s.maint := rfl
@[simp] theorem modPacer_pins (n : StreamId) (f : PacerState → PacerState) : (modPacer s n f).pins = s.pins := rfl

/-! ### modChan -/

@[simp] theorem modChan_now (c : Chan) (f : Channel → Channel) : (modChan s c f).now = s.now := rfl
@[simp] theorem modChan_free (c : Chan) (f : Channel → Channel) : (modChan s c f).free = s.free := rfl
@[simp] theorem modChan_pending (c : Chan) (f : Channel → Channel) : (modChan s c f).pending = s.pending := rfl
@[simp] theorem modChan_dict (c : Chan) (f : Channel → Channel) : (modChan s c f).dict = s.dict := rfl
@[simp] theorem modChan_regs (c : Chan) (f : Channel → Channel) : (modChan s c f).regs = s.regs := rfl
@[simp] theorem modChan_overflow (c : Chan) (f : Channel → Channel) : (modChan s c f).overflow = s.overflow := rfl
@[simp] theorem modChan_emcy (c : Chan) (f : Channel → Channel) : (modChan s c f).emcy = s.emcy := rfl
@[simp] theorem modChan_log (c : Chan) (f : Channel → Channel) : (modChan s c f).log = s.log := rfl
@[simp] theorem modChan_lap (c : Chan) (f : Channel → Channel) : (modChan s c f).lap = s.lap := rfl
@[simp] theorem modChan_disp (c : Chan) (f : Channel → Channel) : (modChan s c f).disp = s.disp := rfl
@[simp] theorem modChan_streams (c : Chan) (f : Channel → Channel) : (modChan s c f).streams = s.streams := rfl
@[simp] theorem modChan_rois (c : Chan) (f : Channel → Channel) : (modChan s c f).rois = s.rois := rfl
@[simp] theorem modChan_lanes (c : Chan) (f : Channel → Channel) : (modChan s c f).lanes = s.lanes := rfl
@[simp] theorem modChan_links (c : Chan) (f : Channel → Channel) : (modChan s c f).links = s.links := rfl
@[simp] theorem modChan_input (c : Chan) (f : Channel → Channel) : (modChan s c f).input = s.input := rfl
@[simp] theorem modChan_phase (c : Chan) (f : Channel → Channel) : (modChan s c f).phase = s.phase := rfl
@[simp] theorem modChan_ret (c : Chan) (f : Channel → Channel) : (modChan s c f).ret = s.ret := rfl
@[simp] theorem modChan_mon (c : Chan) (f : Channel → Channel) : (modChan s c f).mon = s.mon := rfl
@[simp] theorem modChan_ports (c : Chan) (f : Channel → Channel) : (modChan s c f).ports = s.ports := rfl
@[simp] theorem modChan_bridge (c : Chan) (f : Channel → Channel) : (modChan s c f).bridge = s.bridge := rfl
@[simp] theorem modChan_flows (c : Chan) (f : Channel → Channel) : (modChan s c f).flows = s.flows := rfl
@[simp] theorem modChan_meters (c : Chan) (f : Channel → Channel) : (modChan s c f).meters = s.meters := rfl
@[simp] theorem modChan_watch (c : Chan) (f : Channel → Channel) : (modChan s c f).watch = s.watch := rfl
@[simp] theorem modChan_counts (c : Chan) (f : Channel → Channel) : (modChan s c f).counts = s.counts := rfl
@[simp] theorem modChan_time (c : Chan) (f : Channel → Channel) : (modChan s c f).time = s.time := rfl
@[simp] theorem modChan_dram (c : Chan) (f : Channel → Channel) : (modChan s c f).dram = s.dram := rfl
@[simp] theorem modChan_atu (c : Chan) (f : Channel → Channel) : (modChan s c f).atu = s.atu := rfl
@[simp] theorem modChan_dma (c : Chan) (f : Channel → Channel) : (modChan s c f).dma = s.dma := rfl
@[simp] theorem modChan_capture (c : Chan) (f : Channel → Channel) : (modChan s c f).capture = s.capture := rfl
@[simp] theorem modChan_relay (c : Chan) (f : Channel → Channel) : (modChan s c f).relay = s.relay := rfl
@[simp] theorem modChan_baton (c : Chan) (f : Channel → Channel) : (modChan s c f).baton = s.baton := rfl
@[simp] theorem modChan_selfTest (c : Chan) (f : Channel → Channel) : (modChan s c f).selfTest = s.selfTest := rfl
@[simp] theorem modChan_standIns (c : Chan) (f : Channel → Channel) : (modChan s c f).standIns = s.standIns := rfl
@[simp] theorem modChan_boot (c : Chan) (f : Channel → Channel) : (modChan s c f).boot = s.boot := rfl
@[simp] theorem modChan_slots (c : Chan) (f : Channel → Channel) : (modChan s c f).slots = s.slots := rfl
@[simp] theorem modChan_snaps (c : Chan) (f : Channel → Channel) : (modChan s c f).snaps = s.snaps := rfl
@[simp] theorem modChan_cv (c : Chan) (f : Channel → Channel) : (modChan s c f).cv = s.cv := rfl
@[simp] theorem modChan_rst (c : Chan) (f : Channel → Channel) : (modChan s c f).rst = s.rst := rfl
@[simp] theorem modChan_flash (c : Chan) (f : Channel → Channel) : (modChan s c f).flash = s.flash := rfl
@[simp] theorem modChan_ctrl (c : Chan) (f : Channel → Channel) : (modChan s c f).ctrl = s.ctrl := rfl
@[simp] theorem modChan_stage (c : Chan) (f : Channel → Channel) : (modChan s c f).stage = s.stage := rfl
@[simp] theorem modChan_sensors (c : Chan) (f : Channel → Channel) : (modChan s c f).sensors = s.sensors := rfl
@[simp] theorem modChan_planner (c : Chan) (f : Channel → Channel) : (modChan s c f).planner = s.planner := rfl
@[simp] theorem modChan_can (c : Chan) (f : Channel → Channel) : (modChan s c f).can = s.can := rfl
@[simp] theorem modChan_clients (c : Chan) (f : Channel → Channel) : (modChan s c f).clients = s.clients := rfl
@[simp] theorem modChan_windows (c : Chan) (f : Channel → Channel) : (modChan s c f).windows = s.windows := rfl
@[simp] theorem modChan_firmware (c : Chan) (f : Channel → Channel) : (modChan s c f).firmware = s.firmware := rfl
@[simp] theorem modChan_maint (c : Chan) (f : Channel → Channel) : (modChan s c f).maint = s.maint := rfl
@[simp] theorem modChan_pins (c : Chan) (f : Channel → Channel) : (modChan s c f).pins = s.pins := rfl

/-! ### modFlow -/

@[simp] theorem modFlow_now (f : FlowId) (g : Flow → Flow) : (modFlow s f g).now = s.now := rfl
@[simp] theorem modFlow_free (f : FlowId) (g : Flow → Flow) : (modFlow s f g).free = s.free := rfl
@[simp] theorem modFlow_pending (f : FlowId) (g : Flow → Flow) : (modFlow s f g).pending = s.pending := rfl
@[simp] theorem modFlow_dict (f : FlowId) (g : Flow → Flow) : (modFlow s f g).dict = s.dict := rfl
@[simp] theorem modFlow_regs (f : FlowId) (g : Flow → Flow) : (modFlow s f g).regs = s.regs := rfl
@[simp] theorem modFlow_overflow (f : FlowId) (g : Flow → Flow) : (modFlow s f g).overflow = s.overflow := rfl
@[simp] theorem modFlow_emcy (f : FlowId) (g : Flow → Flow) : (modFlow s f g).emcy = s.emcy := rfl
@[simp] theorem modFlow_log (f : FlowId) (g : Flow → Flow) : (modFlow s f g).log = s.log := rfl
@[simp] theorem modFlow_lap (f : FlowId) (g : Flow → Flow) : (modFlow s f g).lap = s.lap := rfl
@[simp] theorem modFlow_disp (f : FlowId) (g : Flow → Flow) : (modFlow s f g).disp = s.disp := rfl
@[simp] theorem modFlow_chans (f : FlowId) (g : Flow → Flow) : (modFlow s f g).chans = s.chans := rfl
@[simp] theorem modFlow_streams (f : FlowId) (g : Flow → Flow) : (modFlow s f g).streams = s.streams := rfl
@[simp] theorem modFlow_rois (f : FlowId) (g : Flow → Flow) : (modFlow s f g).rois = s.rois := rfl
@[simp] theorem modFlow_lanes (f : FlowId) (g : Flow → Flow) : (modFlow s f g).lanes = s.lanes := rfl
@[simp] theorem modFlow_links (f : FlowId) (g : Flow → Flow) : (modFlow s f g).links = s.links := rfl
@[simp] theorem modFlow_input (f : FlowId) (g : Flow → Flow) : (modFlow s f g).input = s.input := rfl
@[simp] theorem modFlow_phase (f : FlowId) (g : Flow → Flow) : (modFlow s f g).phase = s.phase := rfl
@[simp] theorem modFlow_ret (f : FlowId) (g : Flow → Flow) : (modFlow s f g).ret = s.ret := rfl
@[simp] theorem modFlow_mon (f : FlowId) (g : Flow → Flow) : (modFlow s f g).mon = s.mon := rfl
@[simp] theorem modFlow_ports (f : FlowId) (g : Flow → Flow) : (modFlow s f g).ports = s.ports := rfl
@[simp] theorem modFlow_bridge (f : FlowId) (g : Flow → Flow) : (modFlow s f g).bridge = s.bridge := rfl
@[simp] theorem modFlow_meters (f : FlowId) (g : Flow → Flow) : (modFlow s f g).meters = s.meters := rfl
@[simp] theorem modFlow_watch (f : FlowId) (g : Flow → Flow) : (modFlow s f g).watch = s.watch := rfl
@[simp] theorem modFlow_counts (f : FlowId) (g : Flow → Flow) : (modFlow s f g).counts = s.counts := rfl
@[simp] theorem modFlow_time (f : FlowId) (g : Flow → Flow) : (modFlow s f g).time = s.time := rfl
@[simp] theorem modFlow_dram (f : FlowId) (g : Flow → Flow) : (modFlow s f g).dram = s.dram := rfl
@[simp] theorem modFlow_atu (f : FlowId) (g : Flow → Flow) : (modFlow s f g).atu = s.atu := rfl
@[simp] theorem modFlow_dma (f : FlowId) (g : Flow → Flow) : (modFlow s f g).dma = s.dma := rfl
@[simp] theorem modFlow_capture (f : FlowId) (g : Flow → Flow) : (modFlow s f g).capture = s.capture := rfl
@[simp] theorem modFlow_relay (f : FlowId) (g : Flow → Flow) : (modFlow s f g).relay = s.relay := rfl
@[simp] theorem modFlow_baton (f : FlowId) (g : Flow → Flow) : (modFlow s f g).baton = s.baton := rfl
@[simp] theorem modFlow_selfTest (f : FlowId) (g : Flow → Flow) : (modFlow s f g).selfTest = s.selfTest := rfl
@[simp] theorem modFlow_standIns (f : FlowId) (g : Flow → Flow) : (modFlow s f g).standIns = s.standIns := rfl
@[simp] theorem modFlow_boot (f : FlowId) (g : Flow → Flow) : (modFlow s f g).boot = s.boot := rfl
@[simp] theorem modFlow_slots (f : FlowId) (g : Flow → Flow) : (modFlow s f g).slots = s.slots := rfl
@[simp] theorem modFlow_snaps (f : FlowId) (g : Flow → Flow) : (modFlow s f g).snaps = s.snaps := rfl
@[simp] theorem modFlow_cv (f : FlowId) (g : Flow → Flow) : (modFlow s f g).cv = s.cv := rfl
@[simp] theorem modFlow_rst (f : FlowId) (g : Flow → Flow) : (modFlow s f g).rst = s.rst := rfl
@[simp] theorem modFlow_flash (f : FlowId) (g : Flow → Flow) : (modFlow s f g).flash = s.flash := rfl
@[simp] theorem modFlow_ctrl (f : FlowId) (g : Flow → Flow) : (modFlow s f g).ctrl = s.ctrl := rfl
@[simp] theorem modFlow_stage (f : FlowId) (g : Flow → Flow) : (modFlow s f g).stage = s.stage := rfl
@[simp] theorem modFlow_sensors (f : FlowId) (g : Flow → Flow) : (modFlow s f g).sensors = s.sensors := rfl
@[simp] theorem modFlow_planner (f : FlowId) (g : Flow → Flow) : (modFlow s f g).planner = s.planner := rfl
@[simp] theorem modFlow_can (f : FlowId) (g : Flow → Flow) : (modFlow s f g).can = s.can := rfl
@[simp] theorem modFlow_clients (f : FlowId) (g : Flow → Flow) : (modFlow s f g).clients = s.clients := rfl
@[simp] theorem modFlow_windows (f : FlowId) (g : Flow → Flow) : (modFlow s f g).windows = s.windows := rfl
@[simp] theorem modFlow_firmware (f : FlowId) (g : Flow → Flow) : (modFlow s f g).firmware = s.firmware := rfl
@[simp] theorem modFlow_maint (f : FlowId) (g : Flow → Flow) : (modFlow s f g).maint = s.maint := rfl
@[simp] theorem modFlow_pins (f : FlowId) (g : Flow → Flow) : (modFlow s f g).pins = s.pins := rfl

/-! ### setDram -/

@[simp] theorem setDram_now (u : UnitId) (f : DramState → DramState) : (setDram s u f).now = s.now := rfl
@[simp] theorem setDram_free (u : UnitId) (f : DramState → DramState) : (setDram s u f).free = s.free := rfl
@[simp] theorem setDram_pending (u : UnitId) (f : DramState → DramState) : (setDram s u f).pending = s.pending := rfl
@[simp] theorem setDram_dict (u : UnitId) (f : DramState → DramState) : (setDram s u f).dict = s.dict := rfl
@[simp] theorem setDram_regs (u : UnitId) (f : DramState → DramState) : (setDram s u f).regs = s.regs := rfl
@[simp] theorem setDram_overflow (u : UnitId) (f : DramState → DramState) : (setDram s u f).overflow = s.overflow := rfl
@[simp] theorem setDram_emcy (u : UnitId) (f : DramState → DramState) : (setDram s u f).emcy = s.emcy := rfl
@[simp] theorem setDram_log (u : UnitId) (f : DramState → DramState) : (setDram s u f).log = s.log := rfl
@[simp] theorem setDram_lap (u : UnitId) (f : DramState → DramState) : (setDram s u f).lap = s.lap := rfl
@[simp] theorem setDram_disp (u : UnitId) (f : DramState → DramState) : (setDram s u f).disp = s.disp := rfl
@[simp] theorem setDram_chans (u : UnitId) (f : DramState → DramState) : (setDram s u f).chans = s.chans := rfl
@[simp] theorem setDram_streams (u : UnitId) (f : DramState → DramState) : (setDram s u f).streams = s.streams := rfl
@[simp] theorem setDram_rois (u : UnitId) (f : DramState → DramState) : (setDram s u f).rois = s.rois := rfl
@[simp] theorem setDram_lanes (u : UnitId) (f : DramState → DramState) : (setDram s u f).lanes = s.lanes := rfl
@[simp] theorem setDram_links (u : UnitId) (f : DramState → DramState) : (setDram s u f).links = s.links := rfl
@[simp] theorem setDram_input (u : UnitId) (f : DramState → DramState) : (setDram s u f).input = s.input := rfl
@[simp] theorem setDram_phase (u : UnitId) (f : DramState → DramState) : (setDram s u f).phase = s.phase := rfl
@[simp] theorem setDram_ret (u : UnitId) (f : DramState → DramState) : (setDram s u f).ret = s.ret := rfl
@[simp] theorem setDram_mon (u : UnitId) (f : DramState → DramState) : (setDram s u f).mon = s.mon := rfl
@[simp] theorem setDram_ports (u : UnitId) (f : DramState → DramState) : (setDram s u f).ports = s.ports := rfl
@[simp] theorem setDram_bridge (u : UnitId) (f : DramState → DramState) : (setDram s u f).bridge = s.bridge := rfl
@[simp] theorem setDram_flows (u : UnitId) (f : DramState → DramState) : (setDram s u f).flows = s.flows := rfl
@[simp] theorem setDram_meters (u : UnitId) (f : DramState → DramState) : (setDram s u f).meters = s.meters := rfl
@[simp] theorem setDram_watch (u : UnitId) (f : DramState → DramState) : (setDram s u f).watch = s.watch := rfl
@[simp] theorem setDram_counts (u : UnitId) (f : DramState → DramState) : (setDram s u f).counts = s.counts := rfl
@[simp] theorem setDram_time (u : UnitId) (f : DramState → DramState) : (setDram s u f).time = s.time := rfl
@[simp] theorem setDram_atu (u : UnitId) (f : DramState → DramState) : (setDram s u f).atu = s.atu := rfl
@[simp] theorem setDram_dma (u : UnitId) (f : DramState → DramState) : (setDram s u f).dma = s.dma := rfl
@[simp] theorem setDram_capture (u : UnitId) (f : DramState → DramState) : (setDram s u f).capture = s.capture := rfl
@[simp] theorem setDram_relay (u : UnitId) (f : DramState → DramState) : (setDram s u f).relay = s.relay := rfl
@[simp] theorem setDram_baton (u : UnitId) (f : DramState → DramState) : (setDram s u f).baton = s.baton := rfl
@[simp] theorem setDram_selfTest (u : UnitId) (f : DramState → DramState) : (setDram s u f).selfTest = s.selfTest := rfl
@[simp] theorem setDram_standIns (u : UnitId) (f : DramState → DramState) : (setDram s u f).standIns = s.standIns := rfl
@[simp] theorem setDram_boot (u : UnitId) (f : DramState → DramState) : (setDram s u f).boot = s.boot := rfl
@[simp] theorem setDram_slots (u : UnitId) (f : DramState → DramState) : (setDram s u f).slots = s.slots := rfl
@[simp] theorem setDram_snaps (u : UnitId) (f : DramState → DramState) : (setDram s u f).snaps = s.snaps := rfl
@[simp] theorem setDram_cv (u : UnitId) (f : DramState → DramState) : (setDram s u f).cv = s.cv := rfl
@[simp] theorem setDram_rst (u : UnitId) (f : DramState → DramState) : (setDram s u f).rst = s.rst := rfl
@[simp] theorem setDram_flash (u : UnitId) (f : DramState → DramState) : (setDram s u f).flash = s.flash := rfl
@[simp] theorem setDram_ctrl (u : UnitId) (f : DramState → DramState) : (setDram s u f).ctrl = s.ctrl := rfl
@[simp] theorem setDram_stage (u : UnitId) (f : DramState → DramState) : (setDram s u f).stage = s.stage := rfl
@[simp] theorem setDram_sensors (u : UnitId) (f : DramState → DramState) : (setDram s u f).sensors = s.sensors := rfl
@[simp] theorem setDram_planner (u : UnitId) (f : DramState → DramState) : (setDram s u f).planner = s.planner := rfl
@[simp] theorem setDram_can (u : UnitId) (f : DramState → DramState) : (setDram s u f).can = s.can := rfl
@[simp] theorem setDram_clients (u : UnitId) (f : DramState → DramState) : (setDram s u f).clients = s.clients := rfl
@[simp] theorem setDram_windows (u : UnitId) (f : DramState → DramState) : (setDram s u f).windows = s.windows := rfl
@[simp] theorem setDram_firmware (u : UnitId) (f : DramState → DramState) : (setDram s u f).firmware = s.firmware := rfl
@[simp] theorem setDram_maint (u : UnitId) (f : DramState → DramState) : (setDram s u f).maint = s.maint := rfl
@[simp] theorem setDram_pins (u : UnitId) (f : DramState → DramState) : (setDram s u f).pins = s.pins := rfl

/-! ### modDma -/

@[simp] theorem modDma_now (u : UnitId) (d : DmaId) (f : Dma → Dma) : (modDma s u d f).now = s.now := rfl
@[simp] theorem modDma_free (u : UnitId) (d : DmaId) (f : Dma → Dma) : (modDma s u d f).free = s.free := rfl
@[simp] theorem modDma_pending (u : UnitId) (d : DmaId) (f : Dma → Dma) : (modDma s u d f).pending = s.pending := rfl
@[simp] theorem modDma_dict (u : UnitId) (d : DmaId) (f : Dma → Dma) : (modDma s u d f).dict = s.dict := rfl
@[simp] theorem modDma_regs (u : UnitId) (d : DmaId) (f : Dma → Dma) : (modDma s u d f).regs = s.regs := rfl
@[simp] theorem modDma_overflow (u : UnitId) (d : DmaId) (f : Dma → Dma) : (modDma s u d f).overflow = s.overflow := rfl
@[simp] theorem modDma_emcy (u : UnitId) (d : DmaId) (f : Dma → Dma) : (modDma s u d f).emcy = s.emcy := rfl
@[simp] theorem modDma_log (u : UnitId) (d : DmaId) (f : Dma → Dma) : (modDma s u d f).log = s.log := rfl
@[simp] theorem modDma_lap (u : UnitId) (d : DmaId) (f : Dma → Dma) : (modDma s u d f).lap = s.lap := rfl
@[simp] theorem modDma_disp (u : UnitId) (d : DmaId) (f : Dma → Dma) : (modDma s u d f).disp = s.disp := rfl
@[simp] theorem modDma_chans (u : UnitId) (d : DmaId) (f : Dma → Dma) : (modDma s u d f).chans = s.chans := rfl
@[simp] theorem modDma_streams (u : UnitId) (d : DmaId) (f : Dma → Dma) : (modDma s u d f).streams = s.streams := rfl
@[simp] theorem modDma_rois (u : UnitId) (d : DmaId) (f : Dma → Dma) : (modDma s u d f).rois = s.rois := rfl
@[simp] theorem modDma_lanes (u : UnitId) (d : DmaId) (f : Dma → Dma) : (modDma s u d f).lanes = s.lanes := rfl
@[simp] theorem modDma_links (u : UnitId) (d : DmaId) (f : Dma → Dma) : (modDma s u d f).links = s.links := rfl
@[simp] theorem modDma_input (u : UnitId) (d : DmaId) (f : Dma → Dma) : (modDma s u d f).input = s.input := rfl
@[simp] theorem modDma_phase (u : UnitId) (d : DmaId) (f : Dma → Dma) : (modDma s u d f).phase = s.phase := rfl
@[simp] theorem modDma_ret (u : UnitId) (d : DmaId) (f : Dma → Dma) : (modDma s u d f).ret = s.ret := rfl
@[simp] theorem modDma_mon (u : UnitId) (d : DmaId) (f : Dma → Dma) : (modDma s u d f).mon = s.mon := rfl
@[simp] theorem modDma_ports (u : UnitId) (d : DmaId) (f : Dma → Dma) : (modDma s u d f).ports = s.ports := rfl
@[simp] theorem modDma_bridge (u : UnitId) (d : DmaId) (f : Dma → Dma) : (modDma s u d f).bridge = s.bridge := rfl
@[simp] theorem modDma_flows (u : UnitId) (d : DmaId) (f : Dma → Dma) : (modDma s u d f).flows = s.flows := rfl
@[simp] theorem modDma_meters (u : UnitId) (d : DmaId) (f : Dma → Dma) : (modDma s u d f).meters = s.meters := rfl
@[simp] theorem modDma_watch (u : UnitId) (d : DmaId) (f : Dma → Dma) : (modDma s u d f).watch = s.watch := rfl
@[simp] theorem modDma_counts (u : UnitId) (d : DmaId) (f : Dma → Dma) : (modDma s u d f).counts = s.counts := rfl
@[simp] theorem modDma_time (u : UnitId) (d : DmaId) (f : Dma → Dma) : (modDma s u d f).time = s.time := rfl
@[simp] theorem modDma_dram (u : UnitId) (d : DmaId) (f : Dma → Dma) : (modDma s u d f).dram = s.dram := rfl
@[simp] theorem modDma_atu (u : UnitId) (d : DmaId) (f : Dma → Dma) : (modDma s u d f).atu = s.atu := rfl
@[simp] theorem modDma_capture (u : UnitId) (d : DmaId) (f : Dma → Dma) : (modDma s u d f).capture = s.capture := rfl
@[simp] theorem modDma_relay (u : UnitId) (d : DmaId) (f : Dma → Dma) : (modDma s u d f).relay = s.relay := rfl
@[simp] theorem modDma_baton (u : UnitId) (d : DmaId) (f : Dma → Dma) : (modDma s u d f).baton = s.baton := rfl
@[simp] theorem modDma_selfTest (u : UnitId) (d : DmaId) (f : Dma → Dma) : (modDma s u d f).selfTest = s.selfTest := rfl
@[simp] theorem modDma_standIns (u : UnitId) (d : DmaId) (f : Dma → Dma) : (modDma s u d f).standIns = s.standIns := rfl
@[simp] theorem modDma_boot (u : UnitId) (d : DmaId) (f : Dma → Dma) : (modDma s u d f).boot = s.boot := rfl
@[simp] theorem modDma_slots (u : UnitId) (d : DmaId) (f : Dma → Dma) : (modDma s u d f).slots = s.slots := rfl
@[simp] theorem modDma_snaps (u : UnitId) (d : DmaId) (f : Dma → Dma) : (modDma s u d f).snaps = s.snaps := rfl
@[simp] theorem modDma_cv (u : UnitId) (d : DmaId) (f : Dma → Dma) : (modDma s u d f).cv = s.cv := rfl
@[simp] theorem modDma_rst (u : UnitId) (d : DmaId) (f : Dma → Dma) : (modDma s u d f).rst = s.rst := rfl
@[simp] theorem modDma_flash (u : UnitId) (d : DmaId) (f : Dma → Dma) : (modDma s u d f).flash = s.flash := rfl
@[simp] theorem modDma_ctrl (u : UnitId) (d : DmaId) (f : Dma → Dma) : (modDma s u d f).ctrl = s.ctrl := rfl
@[simp] theorem modDma_stage (u : UnitId) (d : DmaId) (f : Dma → Dma) : (modDma s u d f).stage = s.stage := rfl
@[simp] theorem modDma_sensors (u : UnitId) (d : DmaId) (f : Dma → Dma) : (modDma s u d f).sensors = s.sensors := rfl
@[simp] theorem modDma_planner (u : UnitId) (d : DmaId) (f : Dma → Dma) : (modDma s u d f).planner = s.planner := rfl
@[simp] theorem modDma_can (u : UnitId) (d : DmaId) (f : Dma → Dma) : (modDma s u d f).can = s.can := rfl
@[simp] theorem modDma_clients (u : UnitId) (d : DmaId) (f : Dma → Dma) : (modDma s u d f).clients = s.clients := rfl
@[simp] theorem modDma_windows (u : UnitId) (d : DmaId) (f : Dma → Dma) : (modDma s u d f).windows = s.windows := rfl
@[simp] theorem modDma_firmware (u : UnitId) (d : DmaId) (f : Dma → Dma) : (modDma s u d f).firmware = s.firmware := rfl
@[simp] theorem modDma_maint (u : UnitId) (d : DmaId) (f : Dma → Dma) : (modDma s u d f).maint = s.maint := rfl
@[simp] theorem modDma_pins (u : UnitId) (d : DmaId) (f : Dma → Dma) : (modDma s u d f).pins = s.pins := rfl

/-! ### setLane -/

@[simp] theorem setLane_now (u : UnitId) (n : LaneId) (x : Lane) : (setLane s u n x).now = s.now := rfl
@[simp] theorem setLane_free (u : UnitId) (n : LaneId) (x : Lane) : (setLane s u n x).free = s.free := rfl
@[simp] theorem setLane_pending (u : UnitId) (n : LaneId) (x : Lane) : (setLane s u n x).pending = s.pending := rfl
@[simp] theorem setLane_dict (u : UnitId) (n : LaneId) (x : Lane) : (setLane s u n x).dict = s.dict := rfl
@[simp] theorem setLane_regs (u : UnitId) (n : LaneId) (x : Lane) : (setLane s u n x).regs = s.regs := rfl
@[simp] theorem setLane_overflow (u : UnitId) (n : LaneId) (x : Lane) : (setLane s u n x).overflow = s.overflow := rfl
@[simp] theorem setLane_emcy (u : UnitId) (n : LaneId) (x : Lane) : (setLane s u n x).emcy = s.emcy := rfl
@[simp] theorem setLane_log (u : UnitId) (n : LaneId) (x : Lane) : (setLane s u n x).log = s.log := rfl
@[simp] theorem setLane_lap (u : UnitId) (n : LaneId) (x : Lane) : (setLane s u n x).lap = s.lap := rfl
@[simp] theorem setLane_disp (u : UnitId) (n : LaneId) (x : Lane) : (setLane s u n x).disp = s.disp := rfl
@[simp] theorem setLane_chans (u : UnitId) (n : LaneId) (x : Lane) : (setLane s u n x).chans = s.chans := rfl
@[simp] theorem setLane_streams (u : UnitId) (n : LaneId) (x : Lane) : (setLane s u n x).streams = s.streams := rfl
@[simp] theorem setLane_rois (u : UnitId) (n : LaneId) (x : Lane) : (setLane s u n x).rois = s.rois := rfl
@[simp] theorem setLane_links (u : UnitId) (n : LaneId) (x : Lane) : (setLane s u n x).links = s.links := rfl
@[simp] theorem setLane_input (u : UnitId) (n : LaneId) (x : Lane) : (setLane s u n x).input = s.input := rfl
@[simp] theorem setLane_phase (u : UnitId) (n : LaneId) (x : Lane) : (setLane s u n x).phase = s.phase := rfl
@[simp] theorem setLane_ret (u : UnitId) (n : LaneId) (x : Lane) : (setLane s u n x).ret = s.ret := rfl
@[simp] theorem setLane_mon (u : UnitId) (n : LaneId) (x : Lane) : (setLane s u n x).mon = s.mon := rfl
@[simp] theorem setLane_ports (u : UnitId) (n : LaneId) (x : Lane) : (setLane s u n x).ports = s.ports := rfl
@[simp] theorem setLane_bridge (u : UnitId) (n : LaneId) (x : Lane) : (setLane s u n x).bridge = s.bridge := rfl
@[simp] theorem setLane_flows (u : UnitId) (n : LaneId) (x : Lane) : (setLane s u n x).flows = s.flows := rfl
@[simp] theorem setLane_meters (u : UnitId) (n : LaneId) (x : Lane) : (setLane s u n x).meters = s.meters := rfl
@[simp] theorem setLane_watch (u : UnitId) (n : LaneId) (x : Lane) : (setLane s u n x).watch = s.watch := rfl
@[simp] theorem setLane_counts (u : UnitId) (n : LaneId) (x : Lane) : (setLane s u n x).counts = s.counts := rfl
@[simp] theorem setLane_time (u : UnitId) (n : LaneId) (x : Lane) : (setLane s u n x).time = s.time := rfl
@[simp] theorem setLane_dram (u : UnitId) (n : LaneId) (x : Lane) : (setLane s u n x).dram = s.dram := rfl
@[simp] theorem setLane_atu (u : UnitId) (n : LaneId) (x : Lane) : (setLane s u n x).atu = s.atu := rfl
@[simp] theorem setLane_dma (u : UnitId) (n : LaneId) (x : Lane) : (setLane s u n x).dma = s.dma := rfl
@[simp] theorem setLane_capture (u : UnitId) (n : LaneId) (x : Lane) : (setLane s u n x).capture = s.capture := rfl
@[simp] theorem setLane_relay (u : UnitId) (n : LaneId) (x : Lane) : (setLane s u n x).relay = s.relay := rfl
@[simp] theorem setLane_baton (u : UnitId) (n : LaneId) (x : Lane) : (setLane s u n x).baton = s.baton := rfl
@[simp] theorem setLane_selfTest (u : UnitId) (n : LaneId) (x : Lane) : (setLane s u n x).selfTest = s.selfTest := rfl
@[simp] theorem setLane_standIns (u : UnitId) (n : LaneId) (x : Lane) : (setLane s u n x).standIns = s.standIns := rfl
@[simp] theorem setLane_boot (u : UnitId) (n : LaneId) (x : Lane) : (setLane s u n x).boot = s.boot := rfl
@[simp] theorem setLane_slots (u : UnitId) (n : LaneId) (x : Lane) : (setLane s u n x).slots = s.slots := rfl
@[simp] theorem setLane_snaps (u : UnitId) (n : LaneId) (x : Lane) : (setLane s u n x).snaps = s.snaps := rfl
@[simp] theorem setLane_cv (u : UnitId) (n : LaneId) (x : Lane) : (setLane s u n x).cv = s.cv := rfl
@[simp] theorem setLane_rst (u : UnitId) (n : LaneId) (x : Lane) : (setLane s u n x).rst = s.rst := rfl
@[simp] theorem setLane_flash (u : UnitId) (n : LaneId) (x : Lane) : (setLane s u n x).flash = s.flash := rfl
@[simp] theorem setLane_ctrl (u : UnitId) (n : LaneId) (x : Lane) : (setLane s u n x).ctrl = s.ctrl := rfl
@[simp] theorem setLane_stage (u : UnitId) (n : LaneId) (x : Lane) : (setLane s u n x).stage = s.stage := rfl
@[simp] theorem setLane_sensors (u : UnitId) (n : LaneId) (x : Lane) : (setLane s u n x).sensors = s.sensors := rfl
@[simp] theorem setLane_planner (u : UnitId) (n : LaneId) (x : Lane) : (setLane s u n x).planner = s.planner := rfl
@[simp] theorem setLane_can (u : UnitId) (n : LaneId) (x : Lane) : (setLane s u n x).can = s.can := rfl
@[simp] theorem setLane_clients (u : UnitId) (n : LaneId) (x : Lane) : (setLane s u n x).clients = s.clients := rfl
@[simp] theorem setLane_windows (u : UnitId) (n : LaneId) (x : Lane) : (setLane s u n x).windows = s.windows := rfl
@[simp] theorem setLane_firmware (u : UnitId) (n : LaneId) (x : Lane) : (setLane s u n x).firmware = s.firmware := rfl
@[simp] theorem setLane_maint (u : UnitId) (n : LaneId) (x : Lane) : (setLane s u n x).maint = s.maint := rfl
@[simp] theorem setLane_pins (u : UnitId) (n : LaneId) (x : Lane) : (setLane s u n x).pins = s.pins := rfl

/-! ### setMeter -/

@[simp] theorem setMeter_now (m : MeterId) (b : Meter) : (setMeter s m b).now = s.now := rfl
@[simp] theorem setMeter_free (m : MeterId) (b : Meter) : (setMeter s m b).free = s.free := rfl
@[simp] theorem setMeter_pending (m : MeterId) (b : Meter) : (setMeter s m b).pending = s.pending := rfl
@[simp] theorem setMeter_dict (m : MeterId) (b : Meter) : (setMeter s m b).dict = s.dict := rfl
@[simp] theorem setMeter_regs (m : MeterId) (b : Meter) : (setMeter s m b).regs = s.regs := rfl
@[simp] theorem setMeter_overflow (m : MeterId) (b : Meter) : (setMeter s m b).overflow = s.overflow := rfl
@[simp] theorem setMeter_emcy (m : MeterId) (b : Meter) : (setMeter s m b).emcy = s.emcy := rfl
@[simp] theorem setMeter_log (m : MeterId) (b : Meter) : (setMeter s m b).log = s.log := rfl
@[simp] theorem setMeter_lap (m : MeterId) (b : Meter) : (setMeter s m b).lap = s.lap := rfl
@[simp] theorem setMeter_disp (m : MeterId) (b : Meter) : (setMeter s m b).disp = s.disp := rfl
@[simp] theorem setMeter_chans (m : MeterId) (b : Meter) : (setMeter s m b).chans = s.chans := rfl
@[simp] theorem setMeter_streams (m : MeterId) (b : Meter) : (setMeter s m b).streams = s.streams := rfl
@[simp] theorem setMeter_rois (m : MeterId) (b : Meter) : (setMeter s m b).rois = s.rois := rfl
@[simp] theorem setMeter_lanes (m : MeterId) (b : Meter) : (setMeter s m b).lanes = s.lanes := rfl
@[simp] theorem setMeter_links (m : MeterId) (b : Meter) : (setMeter s m b).links = s.links := rfl
@[simp] theorem setMeter_input (m : MeterId) (b : Meter) : (setMeter s m b).input = s.input := rfl
@[simp] theorem setMeter_phase (m : MeterId) (b : Meter) : (setMeter s m b).phase = s.phase := rfl
@[simp] theorem setMeter_ret (m : MeterId) (b : Meter) : (setMeter s m b).ret = s.ret := rfl
@[simp] theorem setMeter_mon (m : MeterId) (b : Meter) : (setMeter s m b).mon = s.mon := rfl
@[simp] theorem setMeter_ports (m : MeterId) (b : Meter) : (setMeter s m b).ports = s.ports := rfl
@[simp] theorem setMeter_bridge (m : MeterId) (b : Meter) : (setMeter s m b).bridge = s.bridge := rfl
@[simp] theorem setMeter_flows (m : MeterId) (b : Meter) : (setMeter s m b).flows = s.flows := rfl
@[simp] theorem setMeter_watch (m : MeterId) (b : Meter) : (setMeter s m b).watch = s.watch := rfl
@[simp] theorem setMeter_counts (m : MeterId) (b : Meter) : (setMeter s m b).counts = s.counts := rfl
@[simp] theorem setMeter_time (m : MeterId) (b : Meter) : (setMeter s m b).time = s.time := rfl
@[simp] theorem setMeter_dram (m : MeterId) (b : Meter) : (setMeter s m b).dram = s.dram := rfl
@[simp] theorem setMeter_atu (m : MeterId) (b : Meter) : (setMeter s m b).atu = s.atu := rfl
@[simp] theorem setMeter_dma (m : MeterId) (b : Meter) : (setMeter s m b).dma = s.dma := rfl
@[simp] theorem setMeter_capture (m : MeterId) (b : Meter) : (setMeter s m b).capture = s.capture := rfl
@[simp] theorem setMeter_relay (m : MeterId) (b : Meter) : (setMeter s m b).relay = s.relay := rfl
@[simp] theorem setMeter_baton (m : MeterId) (b : Meter) : (setMeter s m b).baton = s.baton := rfl
@[simp] theorem setMeter_selfTest (m : MeterId) (b : Meter) : (setMeter s m b).selfTest = s.selfTest := rfl
@[simp] theorem setMeter_standIns (m : MeterId) (b : Meter) : (setMeter s m b).standIns = s.standIns := rfl
@[simp] theorem setMeter_boot (m : MeterId) (b : Meter) : (setMeter s m b).boot = s.boot := rfl
@[simp] theorem setMeter_slots (m : MeterId) (b : Meter) : (setMeter s m b).slots = s.slots := rfl
@[simp] theorem setMeter_snaps (m : MeterId) (b : Meter) : (setMeter s m b).snaps = s.snaps := rfl
@[simp] theorem setMeter_cv (m : MeterId) (b : Meter) : (setMeter s m b).cv = s.cv := rfl
@[simp] theorem setMeter_rst (m : MeterId) (b : Meter) : (setMeter s m b).rst = s.rst := rfl
@[simp] theorem setMeter_flash (m : MeterId) (b : Meter) : (setMeter s m b).flash = s.flash := rfl
@[simp] theorem setMeter_ctrl (m : MeterId) (b : Meter) : (setMeter s m b).ctrl = s.ctrl := rfl
@[simp] theorem setMeter_stage (m : MeterId) (b : Meter) : (setMeter s m b).stage = s.stage := rfl
@[simp] theorem setMeter_sensors (m : MeterId) (b : Meter) : (setMeter s m b).sensors = s.sensors := rfl
@[simp] theorem setMeter_planner (m : MeterId) (b : Meter) : (setMeter s m b).planner = s.planner := rfl
@[simp] theorem setMeter_can (m : MeterId) (b : Meter) : (setMeter s m b).can = s.can := rfl
@[simp] theorem setMeter_clients (m : MeterId) (b : Meter) : (setMeter s m b).clients = s.clients := rfl
@[simp] theorem setMeter_windows (m : MeterId) (b : Meter) : (setMeter s m b).windows = s.windows := rfl
@[simp] theorem setMeter_firmware (m : MeterId) (b : Meter) : (setMeter s m b).firmware = s.firmware := rfl
@[simp] theorem setMeter_maint (m : MeterId) (b : Meter) : (setMeter s m b).maint = s.maint := rfl
@[simp] theorem setMeter_pins (m : MeterId) (b : Meter) : (setMeter s m b).pins = s.pins := rfl

/-! ### modWin -/

@[simp] theorem modWin_now (w : WinId) (f : Window → Window) : (modWin s w f).now = s.now := rfl
@[simp] theorem modWin_free (w : WinId) (f : Window → Window) : (modWin s w f).free = s.free := rfl
@[simp] theorem modWin_pending (w : WinId) (f : Window → Window) : (modWin s w f).pending = s.pending := rfl
@[simp] theorem modWin_dict (w : WinId) (f : Window → Window) : (modWin s w f).dict = s.dict := rfl
@[simp] theorem modWin_regs (w : WinId) (f : Window → Window) : (modWin s w f).regs = s.regs := rfl
@[simp] theorem modWin_overflow (w : WinId) (f : Window → Window) : (modWin s w f).overflow = s.overflow := rfl
@[simp] theorem modWin_emcy (w : WinId) (f : Window → Window) : (modWin s w f).emcy = s.emcy := rfl
@[simp] theorem modWin_log (w : WinId) (f : Window → Window) : (modWin s w f).log = s.log := rfl
@[simp] theorem modWin_lap (w : WinId) (f : Window → Window) : (modWin s w f).lap = s.lap := rfl
@[simp] theorem modWin_disp (w : WinId) (f : Window → Window) : (modWin s w f).disp = s.disp := rfl
@[simp] theorem modWin_chans (w : WinId) (f : Window → Window) : (modWin s w f).chans = s.chans := rfl
@[simp] theorem modWin_streams (w : WinId) (f : Window → Window) : (modWin s w f).streams = s.streams := rfl
@[simp] theorem modWin_rois (w : WinId) (f : Window → Window) : (modWin s w f).rois = s.rois := rfl
@[simp] theorem modWin_lanes (w : WinId) (f : Window → Window) : (modWin s w f).lanes = s.lanes := rfl
@[simp] theorem modWin_links (w : WinId) (f : Window → Window) : (modWin s w f).links = s.links := rfl
@[simp] theorem modWin_input (w : WinId) (f : Window → Window) : (modWin s w f).input = s.input := rfl
@[simp] theorem modWin_phase (w : WinId) (f : Window → Window) : (modWin s w f).phase = s.phase := rfl
@[simp] theorem modWin_ret (w : WinId) (f : Window → Window) : (modWin s w f).ret = s.ret := rfl
@[simp] theorem modWin_mon (w : WinId) (f : Window → Window) : (modWin s w f).mon = s.mon := rfl
@[simp] theorem modWin_ports (w : WinId) (f : Window → Window) : (modWin s w f).ports = s.ports := rfl
@[simp] theorem modWin_bridge (w : WinId) (f : Window → Window) : (modWin s w f).bridge = s.bridge := rfl
@[simp] theorem modWin_flows (w : WinId) (f : Window → Window) : (modWin s w f).flows = s.flows := rfl
@[simp] theorem modWin_meters (w : WinId) (f : Window → Window) : (modWin s w f).meters = s.meters := rfl
@[simp] theorem modWin_watch (w : WinId) (f : Window → Window) : (modWin s w f).watch = s.watch := rfl
@[simp] theorem modWin_counts (w : WinId) (f : Window → Window) : (modWin s w f).counts = s.counts := rfl
@[simp] theorem modWin_time (w : WinId) (f : Window → Window) : (modWin s w f).time = s.time := rfl
@[simp] theorem modWin_dram (w : WinId) (f : Window → Window) : (modWin s w f).dram = s.dram := rfl
@[simp] theorem modWin_atu (w : WinId) (f : Window → Window) : (modWin s w f).atu = s.atu := rfl
@[simp] theorem modWin_dma (w : WinId) (f : Window → Window) : (modWin s w f).dma = s.dma := rfl
@[simp] theorem modWin_capture (w : WinId) (f : Window → Window) : (modWin s w f).capture = s.capture := rfl
@[simp] theorem modWin_relay (w : WinId) (f : Window → Window) : (modWin s w f).relay = s.relay := rfl
@[simp] theorem modWin_baton (w : WinId) (f : Window → Window) : (modWin s w f).baton = s.baton := rfl
@[simp] theorem modWin_selfTest (w : WinId) (f : Window → Window) : (modWin s w f).selfTest = s.selfTest := rfl
@[simp] theorem modWin_standIns (w : WinId) (f : Window → Window) : (modWin s w f).standIns = s.standIns := rfl
@[simp] theorem modWin_boot (w : WinId) (f : Window → Window) : (modWin s w f).boot = s.boot := rfl
@[simp] theorem modWin_slots (w : WinId) (f : Window → Window) : (modWin s w f).slots = s.slots := rfl
@[simp] theorem modWin_snaps (w : WinId) (f : Window → Window) : (modWin s w f).snaps = s.snaps := rfl
@[simp] theorem modWin_cv (w : WinId) (f : Window → Window) : (modWin s w f).cv = s.cv := rfl
@[simp] theorem modWin_rst (w : WinId) (f : Window → Window) : (modWin s w f).rst = s.rst := rfl
@[simp] theorem modWin_flash (w : WinId) (f : Window → Window) : (modWin s w f).flash = s.flash := rfl
@[simp] theorem modWin_ctrl (w : WinId) (f : Window → Window) : (modWin s w f).ctrl = s.ctrl := rfl
@[simp] theorem modWin_stage (w : WinId) (f : Window → Window) : (modWin s w f).stage = s.stage := rfl
@[simp] theorem modWin_sensors (w : WinId) (f : Window → Window) : (modWin s w f).sensors = s.sensors := rfl
@[simp] theorem modWin_planner (w : WinId) (f : Window → Window) : (modWin s w f).planner = s.planner := rfl
@[simp] theorem modWin_can (w : WinId) (f : Window → Window) : (modWin s w f).can = s.can := rfl
@[simp] theorem modWin_clients (w : WinId) (f : Window → Window) : (modWin s w f).clients = s.clients := rfl
@[simp] theorem modWin_firmware (w : WinId) (f : Window → Window) : (modWin s w f).firmware = s.firmware := rfl
@[simp] theorem modWin_maint (w : WinId) (f : Window → Window) : (modWin s w f).maint = s.maint := rfl
@[simp] theorem modWin_pins (w : WinId) (f : Window → Window) : (modWin s w f).pins = s.pins := rfl

/-! ### commitValue -/

@[simp] theorem commitValue_now (k v : Nat) (a b : Bool) : (commitValue s k v a b).now = s.now := rfl
@[simp] theorem commitValue_free (k v : Nat) (a b : Bool) : (commitValue s k v a b).free = s.free := rfl
@[simp] theorem commitValue_pending (k v : Nat) (a b : Bool) : (commitValue s k v a b).pending = s.pending := rfl
@[simp] theorem commitValue_regs (k v : Nat) (a b : Bool) : (commitValue s k v a b).regs = s.regs := rfl
@[simp] theorem commitValue_overflow (k v : Nat) (a b : Bool) : (commitValue s k v a b).overflow = s.overflow := rfl
@[simp] theorem commitValue_emcy (k v : Nat) (a b : Bool) : (commitValue s k v a b).emcy = s.emcy := rfl
@[simp] theorem commitValue_log (k v : Nat) (a b : Bool) : (commitValue s k v a b).log = s.log := rfl
@[simp] theorem commitValue_lap (k v : Nat) (a b : Bool) : (commitValue s k v a b).lap = s.lap := rfl
@[simp] theorem commitValue_disp (k v : Nat) (a b : Bool) : (commitValue s k v a b).disp = s.disp := rfl
@[simp] theorem commitValue_chans (k v : Nat) (a b : Bool) : (commitValue s k v a b).chans = s.chans := rfl
@[simp] theorem commitValue_streams (k v : Nat) (a b : Bool) : (commitValue s k v a b).streams = s.streams := rfl
@[simp] theorem commitValue_rois (k v : Nat) (a b : Bool) : (commitValue s k v a b).rois = s.rois := rfl
@[simp] theorem commitValue_lanes (k v : Nat) (a b : Bool) : (commitValue s k v a b).lanes = s.lanes := rfl
@[simp] theorem commitValue_links (k v : Nat) (a b : Bool) : (commitValue s k v a b).links = s.links := rfl
@[simp] theorem commitValue_input (k v : Nat) (a b : Bool) : (commitValue s k v a b).input = s.input := rfl
@[simp] theorem commitValue_phase (k v : Nat) (a b : Bool) : (commitValue s k v a b).phase = s.phase := rfl
@[simp] theorem commitValue_ret (k v : Nat) (a b : Bool) : (commitValue s k v a b).ret = s.ret := rfl
@[simp] theorem commitValue_mon (k v : Nat) (a b : Bool) : (commitValue s k v a b).mon = s.mon := rfl
@[simp] theorem commitValue_ports (k v : Nat) (a b : Bool) : (commitValue s k v a b).ports = s.ports := rfl
@[simp] theorem commitValue_bridge (k v : Nat) (a b : Bool) : (commitValue s k v a b).bridge = s.bridge := rfl
@[simp] theorem commitValue_flows (k v : Nat) (a b : Bool) : (commitValue s k v a b).flows = s.flows := rfl
@[simp] theorem commitValue_meters (k v : Nat) (a b : Bool) : (commitValue s k v a b).meters = s.meters := rfl
@[simp] theorem commitValue_watch (k v : Nat) (a b : Bool) : (commitValue s k v a b).watch = s.watch := rfl
@[simp] theorem commitValue_counts (k v : Nat) (a b : Bool) : (commitValue s k v a b).counts = s.counts := rfl
@[simp] theorem commitValue_time (k v : Nat) (a b : Bool) : (commitValue s k v a b).time = s.time := rfl
@[simp] theorem commitValue_dram (k v : Nat) (a b : Bool) : (commitValue s k v a b).dram = s.dram := rfl
@[simp] theorem commitValue_atu (k v : Nat) (a b : Bool) : (commitValue s k v a b).atu = s.atu := rfl
@[simp] theorem commitValue_dma (k v : Nat) (a b : Bool) : (commitValue s k v a b).dma = s.dma := rfl
@[simp] theorem commitValue_capture (k v : Nat) (a b : Bool) : (commitValue s k v a b).capture = s.capture := rfl
@[simp] theorem commitValue_relay (k v : Nat) (a b : Bool) : (commitValue s k v a b).relay = s.relay := rfl
@[simp] theorem commitValue_baton (k v : Nat) (a b : Bool) : (commitValue s k v a b).baton = s.baton := rfl
@[simp] theorem commitValue_selfTest (k v : Nat) (a b : Bool) : (commitValue s k v a b).selfTest = s.selfTest := rfl
@[simp] theorem commitValue_standIns (k v : Nat) (a b : Bool) : (commitValue s k v a b).standIns = s.standIns := rfl
@[simp] theorem commitValue_boot (k v : Nat) (a b : Bool) : (commitValue s k v a b).boot = s.boot := rfl
@[simp] theorem commitValue_slots (k v : Nat) (a b : Bool) : (commitValue s k v a b).slots = s.slots := rfl
@[simp] theorem commitValue_snaps (k v : Nat) (a b : Bool) : (commitValue s k v a b).snaps = s.snaps := rfl
@[simp] theorem commitValue_cv (k v : Nat) (a b : Bool) : (commitValue s k v a b).cv = s.cv := rfl
@[simp] theorem commitValue_rst (k v : Nat) (a b : Bool) : (commitValue s k v a b).rst = s.rst := rfl
@[simp] theorem commitValue_flash (k v : Nat) (a b : Bool) : (commitValue s k v a b).flash = s.flash := rfl
@[simp] theorem commitValue_ctrl (k v : Nat) (a b : Bool) : (commitValue s k v a b).ctrl = s.ctrl := rfl
@[simp] theorem commitValue_stage (k v : Nat) (a b : Bool) : (commitValue s k v a b).stage = s.stage := rfl
@[simp] theorem commitValue_sensors (k v : Nat) (a b : Bool) : (commitValue s k v a b).sensors = s.sensors := rfl
@[simp] theorem commitValue_planner (k v : Nat) (a b : Bool) : (commitValue s k v a b).planner = s.planner := rfl
@[simp] theorem commitValue_can (k v : Nat) (a b : Bool) : (commitValue s k v a b).can = s.can := rfl
@[simp] theorem commitValue_clients (k v : Nat) (a b : Bool) : (commitValue s k v a b).clients = s.clients := rfl
@[simp] theorem commitValue_windows (k v : Nat) (a b : Bool) : (commitValue s k v a b).windows = s.windows := rfl
@[simp] theorem commitValue_firmware (k v : Nat) (a b : Bool) : (commitValue s k v a b).firmware = s.firmware := rfl
@[simp] theorem commitValue_maint (k v : Nat) (a b : Bool) : (commitValue s k v a b).maint = s.maint := rfl
@[simp] theorem commitValue_pins (k v : Nat) (a b : Bool) : (commitValue s k v a b).pins = s.pins := rfl

/-! ### storeValue -/

@[simp] theorem storeValue_now (k v : Nat) : (storeValue s k v).now = s.now := rfl
@[simp] theorem storeValue_free (k v : Nat) : (storeValue s k v).free = s.free := rfl
@[simp] theorem storeValue_pending (k v : Nat) : (storeValue s k v).pending = s.pending := rfl
@[simp] theorem storeValue_regs (k v : Nat) : (storeValue s k v).regs = s.regs := rfl
@[simp] theorem storeValue_overflow (k v : Nat) : (storeValue s k v).overflow = s.overflow := rfl
@[simp] theorem storeValue_emcy (k v : Nat) : (storeValue s k v).emcy = s.emcy := rfl
@[simp] theorem storeValue_log (k v : Nat) : (storeValue s k v).log = s.log := rfl
@[simp] theorem storeValue_lap (k v : Nat) : (storeValue s k v).lap = s.lap := rfl
@[simp] theorem storeValue_disp (k v : Nat) : (storeValue s k v).disp = s.disp := rfl
@[simp] theorem storeValue_chans (k v : Nat) : (storeValue s k v).chans = s.chans := rfl
@[simp] theorem storeValue_streams (k v : Nat) : (storeValue s k v).streams = s.streams := rfl
@[simp] theorem storeValue_rois (k v : Nat) : (storeValue s k v).rois = s.rois := rfl
@[simp] theorem storeValue_lanes (k v : Nat) : (storeValue s k v).lanes = s.lanes := rfl
@[simp] theorem storeValue_links (k v : Nat) : (storeValue s k v).links = s.links := rfl
@[simp] theorem storeValue_input (k v : Nat) : (storeValue s k v).input = s.input := rfl
@[simp] theorem storeValue_phase (k v : Nat) : (storeValue s k v).phase = s.phase := rfl
@[simp] theorem storeValue_ret (k v : Nat) : (storeValue s k v).ret = s.ret := rfl
@[simp] theorem storeValue_mon (k v : Nat) : (storeValue s k v).mon = s.mon := rfl
@[simp] theorem storeValue_ports (k v : Nat) : (storeValue s k v).ports = s.ports := rfl
@[simp] theorem storeValue_bridge (k v : Nat) : (storeValue s k v).bridge = s.bridge := rfl
@[simp] theorem storeValue_flows (k v : Nat) : (storeValue s k v).flows = s.flows := rfl
@[simp] theorem storeValue_meters (k v : Nat) : (storeValue s k v).meters = s.meters := rfl
@[simp] theorem storeValue_watch (k v : Nat) : (storeValue s k v).watch = s.watch := rfl
@[simp] theorem storeValue_counts (k v : Nat) : (storeValue s k v).counts = s.counts := rfl
@[simp] theorem storeValue_time (k v : Nat) : (storeValue s k v).time = s.time := rfl
@[simp] theorem storeValue_dram (k v : Nat) : (storeValue s k v).dram = s.dram := rfl
@[simp] theorem storeValue_atu (k v : Nat) : (storeValue s k v).atu = s.atu := rfl
@[simp] theorem storeValue_dma (k v : Nat) : (storeValue s k v).dma = s.dma := rfl
@[simp] theorem storeValue_capture (k v : Nat) : (storeValue s k v).capture = s.capture := rfl
@[simp] theorem storeValue_relay (k v : Nat) : (storeValue s k v).relay = s.relay := rfl
@[simp] theorem storeValue_baton (k v : Nat) : (storeValue s k v).baton = s.baton := rfl
@[simp] theorem storeValue_selfTest (k v : Nat) : (storeValue s k v).selfTest = s.selfTest := rfl
@[simp] theorem storeValue_standIns (k v : Nat) : (storeValue s k v).standIns = s.standIns := rfl
@[simp] theorem storeValue_boot (k v : Nat) : (storeValue s k v).boot = s.boot := rfl
@[simp] theorem storeValue_slots (k v : Nat) : (storeValue s k v).slots = s.slots := rfl
@[simp] theorem storeValue_snaps (k v : Nat) : (storeValue s k v).snaps = s.snaps := rfl
@[simp] theorem storeValue_cv (k v : Nat) : (storeValue s k v).cv = s.cv := rfl
@[simp] theorem storeValue_rst (k v : Nat) : (storeValue s k v).rst = s.rst := rfl
@[simp] theorem storeValue_flash (k v : Nat) : (storeValue s k v).flash = s.flash := rfl
@[simp] theorem storeValue_ctrl (k v : Nat) : (storeValue s k v).ctrl = s.ctrl := rfl
@[simp] theorem storeValue_stage (k v : Nat) : (storeValue s k v).stage = s.stage := rfl
@[simp] theorem storeValue_sensors (k v : Nat) : (storeValue s k v).sensors = s.sensors := rfl
@[simp] theorem storeValue_planner (k v : Nat) : (storeValue s k v).planner = s.planner := rfl
@[simp] theorem storeValue_can (k v : Nat) : (storeValue s k v).can = s.can := rfl
@[simp] theorem storeValue_clients (k v : Nat) : (storeValue s k v).clients = s.clients := rfl
@[simp] theorem storeValue_windows (k v : Nat) : (storeValue s k v).windows = s.windows := rfl
@[simp] theorem storeValue_firmware (k v : Nat) : (storeValue s k v).firmware = s.firmware := rfl
@[simp] theorem storeValue_maint (k v : Nat) : (storeValue s k v).maint = s.maint := rfl
@[simp] theorem storeValue_pins (k v : Nat) : (storeValue s k v).pins = s.pins := rfl

/-! ### applyValue -/

@[simp] theorem applyValue_now (k v : Nat) : (applyValue s k v).now = s.now := rfl
@[simp] theorem applyValue_free (k v : Nat) : (applyValue s k v).free = s.free := rfl
@[simp] theorem applyValue_pending (k v : Nat) : (applyValue s k v).pending = s.pending := rfl
@[simp] theorem applyValue_regs (k v : Nat) : (applyValue s k v).regs = s.regs := rfl
@[simp] theorem applyValue_overflow (k v : Nat) : (applyValue s k v).overflow = s.overflow := rfl
@[simp] theorem applyValue_emcy (k v : Nat) : (applyValue s k v).emcy = s.emcy := rfl
@[simp] theorem applyValue_log (k v : Nat) : (applyValue s k v).log = s.log := rfl
@[simp] theorem applyValue_lap (k v : Nat) : (applyValue s k v).lap = s.lap := rfl
@[simp] theorem applyValue_disp (k v : Nat) : (applyValue s k v).disp = s.disp := rfl
@[simp] theorem applyValue_chans (k v : Nat) : (applyValue s k v).chans = s.chans := rfl
@[simp] theorem applyValue_streams (k v : Nat) : (applyValue s k v).streams = s.streams := rfl
@[simp] theorem applyValue_rois (k v : Nat) : (applyValue s k v).rois = s.rois := rfl
@[simp] theorem applyValue_lanes (k v : Nat) : (applyValue s k v).lanes = s.lanes := rfl
@[simp] theorem applyValue_links (k v : Nat) : (applyValue s k v).links = s.links := rfl
@[simp] theorem applyValue_input (k v : Nat) : (applyValue s k v).input = s.input := rfl
@[simp] theorem applyValue_phase (k v : Nat) : (applyValue s k v).phase = s.phase := rfl
@[simp] theorem applyValue_ret (k v : Nat) : (applyValue s k v).ret = s.ret := rfl
@[simp] theorem applyValue_mon (k v : Nat) : (applyValue s k v).mon = s.mon := rfl
@[simp] theorem applyValue_ports (k v : Nat) : (applyValue s k v).ports = s.ports := rfl
@[simp] theorem applyValue_bridge (k v : Nat) : (applyValue s k v).bridge = s.bridge := rfl
@[simp] theorem applyValue_flows (k v : Nat) : (applyValue s k v).flows = s.flows := rfl
@[simp] theorem applyValue_meters (k v : Nat) : (applyValue s k v).meters = s.meters := rfl
@[simp] theorem applyValue_watch (k v : Nat) : (applyValue s k v).watch = s.watch := rfl
@[simp] theorem applyValue_counts (k v : Nat) : (applyValue s k v).counts = s.counts := rfl
@[simp] theorem applyValue_time (k v : Nat) : (applyValue s k v).time = s.time := rfl
@[simp] theorem applyValue_dram (k v : Nat) : (applyValue s k v).dram = s.dram := rfl
@[simp] theorem applyValue_atu (k v : Nat) : (applyValue s k v).atu = s.atu := rfl
@[simp] theorem applyValue_dma (k v : Nat) : (applyValue s k v).dma = s.dma := rfl
@[simp] theorem applyValue_capture (k v : Nat) : (applyValue s k v).capture = s.capture := rfl
@[simp] theorem applyValue_relay (k v : Nat) : (applyValue s k v).relay = s.relay := rfl
@[simp] theorem applyValue_baton (k v : Nat) : (applyValue s k v).baton = s.baton := rfl
@[simp] theorem applyValue_selfTest (k v : Nat) : (applyValue s k v).selfTest = s.selfTest := rfl
@[simp] theorem applyValue_standIns (k v : Nat) : (applyValue s k v).standIns = s.standIns := rfl
@[simp] theorem applyValue_boot (k v : Nat) : (applyValue s k v).boot = s.boot := rfl
@[simp] theorem applyValue_slots (k v : Nat) : (applyValue s k v).slots = s.slots := rfl
@[simp] theorem applyValue_snaps (k v : Nat) : (applyValue s k v).snaps = s.snaps := rfl
@[simp] theorem applyValue_cv (k v : Nat) : (applyValue s k v).cv = s.cv := rfl
@[simp] theorem applyValue_rst (k v : Nat) : (applyValue s k v).rst = s.rst := rfl
@[simp] theorem applyValue_flash (k v : Nat) : (applyValue s k v).flash = s.flash := rfl
@[simp] theorem applyValue_ctrl (k v : Nat) : (applyValue s k v).ctrl = s.ctrl := rfl
@[simp] theorem applyValue_stage (k v : Nat) : (applyValue s k v).stage = s.stage := rfl
@[simp] theorem applyValue_sensors (k v : Nat) : (applyValue s k v).sensors = s.sensors := rfl
@[simp] theorem applyValue_planner (k v : Nat) : (applyValue s k v).planner = s.planner := rfl
@[simp] theorem applyValue_can (k v : Nat) : (applyValue s k v).can = s.can := rfl
@[simp] theorem applyValue_clients (k v : Nat) : (applyValue s k v).clients = s.clients := rfl
@[simp] theorem applyValue_windows (k v : Nat) : (applyValue s k v).windows = s.windows := rfl
@[simp] theorem applyValue_firmware (k v : Nat) : (applyValue s k v).firmware = s.firmware := rfl
@[simp] theorem applyValue_maint (k v : Nat) : (applyValue s k v).maint = s.maint := rfl
@[simp] theorem applyValue_pins (k v : Nat) : (applyValue s k v).pins = s.pins := rfl

/-! ### answer -/

@[simp] theorem answer_now (k : Client) (a : Answer) : (answer s k a).now = s.now := rfl
@[simp] theorem answer_free (k : Client) (a : Answer) : (answer s k a).free = s.free := rfl
@[simp] theorem answer_pending (k : Client) (a : Answer) : (answer s k a).pending = s.pending := rfl
@[simp] theorem answer_dict (k : Client) (a : Answer) : (answer s k a).dict = s.dict := rfl
@[simp] theorem answer_regs (k : Client) (a : Answer) : (answer s k a).regs = s.regs := rfl
@[simp] theorem answer_overflow (k : Client) (a : Answer) : (answer s k a).overflow = s.overflow := rfl
@[simp] theorem answer_emcy (k : Client) (a : Answer) : (answer s k a).emcy = s.emcy := rfl
@[simp] theorem answer_log (k : Client) (a : Answer) : (answer s k a).log = s.log := rfl
@[simp] theorem answer_lap (k : Client) (a : Answer) : (answer s k a).lap = s.lap := rfl
@[simp] theorem answer_disp (k : Client) (a : Answer) : (answer s k a).disp = s.disp := rfl
@[simp] theorem answer_chans (k : Client) (a : Answer) : (answer s k a).chans = s.chans := rfl
@[simp] theorem answer_streams (k : Client) (a : Answer) : (answer s k a).streams = s.streams := rfl
@[simp] theorem answer_rois (k : Client) (a : Answer) : (answer s k a).rois = s.rois := rfl
@[simp] theorem answer_lanes (k : Client) (a : Answer) : (answer s k a).lanes = s.lanes := rfl
@[simp] theorem answer_links (k : Client) (a : Answer) : (answer s k a).links = s.links := rfl
@[simp] theorem answer_input (k : Client) (a : Answer) : (answer s k a).input = s.input := rfl
@[simp] theorem answer_phase (k : Client) (a : Answer) : (answer s k a).phase = s.phase := rfl
@[simp] theorem answer_ret (k : Client) (a : Answer) : (answer s k a).ret = s.ret := rfl
@[simp] theorem answer_mon (k : Client) (a : Answer) : (answer s k a).mon = s.mon := rfl
@[simp] theorem answer_ports (k : Client) (a : Answer) : (answer s k a).ports = s.ports := rfl
@[simp] theorem answer_bridge (k : Client) (a : Answer) : (answer s k a).bridge = s.bridge := rfl
@[simp] theorem answer_flows (k : Client) (a : Answer) : (answer s k a).flows = s.flows := rfl
@[simp] theorem answer_meters (k : Client) (a : Answer) : (answer s k a).meters = s.meters := rfl
@[simp] theorem answer_watch (k : Client) (a : Answer) : (answer s k a).watch = s.watch := rfl
@[simp] theorem answer_counts (k : Client) (a : Answer) : (answer s k a).counts = s.counts := rfl
@[simp] theorem answer_time (k : Client) (a : Answer) : (answer s k a).time = s.time := rfl
@[simp] theorem answer_dram (k : Client) (a : Answer) : (answer s k a).dram = s.dram := rfl
@[simp] theorem answer_atu (k : Client) (a : Answer) : (answer s k a).atu = s.atu := rfl
@[simp] theorem answer_dma (k : Client) (a : Answer) : (answer s k a).dma = s.dma := rfl
@[simp] theorem answer_capture (k : Client) (a : Answer) : (answer s k a).capture = s.capture := rfl
@[simp] theorem answer_relay (k : Client) (a : Answer) : (answer s k a).relay = s.relay := rfl
@[simp] theorem answer_baton (k : Client) (a : Answer) : (answer s k a).baton = s.baton := rfl
@[simp] theorem answer_selfTest (k : Client) (a : Answer) : (answer s k a).selfTest = s.selfTest := rfl
@[simp] theorem answer_standIns (k : Client) (a : Answer) : (answer s k a).standIns = s.standIns := rfl
@[simp] theorem answer_boot (k : Client) (a : Answer) : (answer s k a).boot = s.boot := rfl
@[simp] theorem answer_slots (k : Client) (a : Answer) : (answer s k a).slots = s.slots := rfl
@[simp] theorem answer_snaps (k : Client) (a : Answer) : (answer s k a).snaps = s.snaps := rfl
@[simp] theorem answer_cv (k : Client) (a : Answer) : (answer s k a).cv = s.cv := rfl
@[simp] theorem answer_rst (k : Client) (a : Answer) : (answer s k a).rst = s.rst := rfl
@[simp] theorem answer_flash (k : Client) (a : Answer) : (answer s k a).flash = s.flash := rfl
@[simp] theorem answer_ctrl (k : Client) (a : Answer) : (answer s k a).ctrl = s.ctrl := rfl
@[simp] theorem answer_stage (k : Client) (a : Answer) : (answer s k a).stage = s.stage := rfl
@[simp] theorem answer_sensors (k : Client) (a : Answer) : (answer s k a).sensors = s.sensors := rfl
@[simp] theorem answer_planner (k : Client) (a : Answer) : (answer s k a).planner = s.planner := rfl
@[simp] theorem answer_can (k : Client) (a : Answer) : (answer s k a).can = s.can := rfl
@[simp] theorem answer_windows (k : Client) (a : Answer) : (answer s k a).windows = s.windows := rfl
@[simp] theorem answer_firmware (k : Client) (a : Answer) : (answer s k a).firmware = s.firmware := rfl
@[simp] theorem answer_maint (k : Client) (a : Answer) : (answer s k a).maint = s.maint := rfl
@[simp] theorem answer_pins (k : Client) (a : Answer) : (answer s k a).pins = s.pins := rfl

/-! ### touchClient -/

@[simp] theorem touchClient_now (k : Client) : (touchClient s k).now = s.now := rfl
@[simp] theorem touchClient_free (k : Client) : (touchClient s k).free = s.free := rfl
@[simp] theorem touchClient_pending (k : Client) : (touchClient s k).pending = s.pending := rfl
@[simp] theorem touchClient_dict (k : Client) : (touchClient s k).dict = s.dict := rfl
@[simp] theorem touchClient_regs (k : Client) : (touchClient s k).regs = s.regs := rfl
@[simp] theorem touchClient_overflow (k : Client) : (touchClient s k).overflow = s.overflow := rfl
@[simp] theorem touchClient_emcy (k : Client) : (touchClient s k).emcy = s.emcy := rfl
@[simp] theorem touchClient_log (k : Client) : (touchClient s k).log = s.log := rfl
@[simp] theorem touchClient_lap (k : Client) : (touchClient s k).lap = s.lap := rfl
@[simp] theorem touchClient_disp (k : Client) : (touchClient s k).disp = s.disp := rfl
@[simp] theorem touchClient_chans (k : Client) : (touchClient s k).chans = s.chans := rfl
@[simp] theorem touchClient_streams (k : Client) : (touchClient s k).streams = s.streams := rfl
@[simp] theorem touchClient_rois (k : Client) : (touchClient s k).rois = s.rois := rfl
@[simp] theorem touchClient_lanes (k : Client) : (touchClient s k).lanes = s.lanes := rfl
@[simp] theorem touchClient_links (k : Client) : (touchClient s k).links = s.links := rfl
@[simp] theorem touchClient_input (k : Client) : (touchClient s k).input = s.input := rfl
@[simp] theorem touchClient_phase (k : Client) : (touchClient s k).phase = s.phase := rfl
@[simp] theorem touchClient_ret (k : Client) : (touchClient s k).ret = s.ret := rfl
@[simp] theorem touchClient_mon (k : Client) : (touchClient s k).mon = s.mon := rfl
@[simp] theorem touchClient_ports (k : Client) : (touchClient s k).ports = s.ports := rfl
@[simp] theorem touchClient_bridge (k : Client) : (touchClient s k).bridge = s.bridge := rfl
@[simp] theorem touchClient_flows (k : Client) : (touchClient s k).flows = s.flows := rfl
@[simp] theorem touchClient_meters (k : Client) : (touchClient s k).meters = s.meters := rfl
@[simp] theorem touchClient_watch (k : Client) : (touchClient s k).watch = s.watch := rfl
@[simp] theorem touchClient_counts (k : Client) : (touchClient s k).counts = s.counts := rfl
@[simp] theorem touchClient_time (k : Client) : (touchClient s k).time = s.time := rfl
@[simp] theorem touchClient_dram (k : Client) : (touchClient s k).dram = s.dram := rfl
@[simp] theorem touchClient_atu (k : Client) : (touchClient s k).atu = s.atu := rfl
@[simp] theorem touchClient_dma (k : Client) : (touchClient s k).dma = s.dma := rfl
@[simp] theorem touchClient_capture (k : Client) : (touchClient s k).capture = s.capture := rfl
@[simp] theorem touchClient_relay (k : Client) : (touchClient s k).relay = s.relay := rfl
@[simp] theorem touchClient_baton (k : Client) : (touchClient s k).baton = s.baton := rfl
@[simp] theorem touchClient_selfTest (k : Client) : (touchClient s k).selfTest = s.selfTest := rfl
@[simp] theorem touchClient_standIns (k : Client) : (touchClient s k).standIns = s.standIns := rfl
@[simp] theorem touchClient_boot (k : Client) : (touchClient s k).boot = s.boot := rfl
@[simp] theorem touchClient_slots (k : Client) : (touchClient s k).slots = s.slots := rfl
@[simp] theorem touchClient_snaps (k : Client) : (touchClient s k).snaps = s.snaps := rfl
@[simp] theorem touchClient_cv (k : Client) : (touchClient s k).cv = s.cv := rfl
@[simp] theorem touchClient_rst (k : Client) : (touchClient s k).rst = s.rst := rfl
@[simp] theorem touchClient_flash (k : Client) : (touchClient s k).flash = s.flash := rfl
@[simp] theorem touchClient_ctrl (k : Client) : (touchClient s k).ctrl = s.ctrl := rfl
@[simp] theorem touchClient_stage (k : Client) : (touchClient s k).stage = s.stage := rfl
@[simp] theorem touchClient_sensors (k : Client) : (touchClient s k).sensors = s.sensors := rfl
@[simp] theorem touchClient_planner (k : Client) : (touchClient s k).planner = s.planner := rfl
@[simp] theorem touchClient_can (k : Client) : (touchClient s k).can = s.can := rfl
@[simp] theorem touchClient_windows (k : Client) : (touchClient s k).windows = s.windows := rfl
@[simp] theorem touchClient_firmware (k : Client) : (touchClient s k).firmware = s.firmware := rfl
@[simp] theorem touchClient_pins (k : Client) : (touchClient s k).pins = s.pins := rfl

/-! ### touchRead -/

@[simp] theorem touchRead_now (k : Client) : (touchRead s k).now = s.now := rfl
@[simp] theorem touchRead_free (k : Client) : (touchRead s k).free = s.free := rfl
@[simp] theorem touchRead_pending (k : Client) : (touchRead s k).pending = s.pending := rfl
@[simp] theorem touchRead_dict (k : Client) : (touchRead s k).dict = s.dict := rfl
@[simp] theorem touchRead_regs (k : Client) : (touchRead s k).regs = s.regs := rfl
@[simp] theorem touchRead_overflow (k : Client) : (touchRead s k).overflow = s.overflow := rfl
@[simp] theorem touchRead_emcy (k : Client) : (touchRead s k).emcy = s.emcy := rfl
@[simp] theorem touchRead_log (k : Client) : (touchRead s k).log = s.log := rfl
@[simp] theorem touchRead_lap (k : Client) : (touchRead s k).lap = s.lap := rfl
@[simp] theorem touchRead_disp (k : Client) : (touchRead s k).disp = s.disp := rfl
@[simp] theorem touchRead_chans (k : Client) : (touchRead s k).chans = s.chans := rfl
@[simp] theorem touchRead_streams (k : Client) : (touchRead s k).streams = s.streams := rfl
@[simp] theorem touchRead_rois (k : Client) : (touchRead s k).rois = s.rois := rfl
@[simp] theorem touchRead_lanes (k : Client) : (touchRead s k).lanes = s.lanes := rfl
@[simp] theorem touchRead_links (k : Client) : (touchRead s k).links = s.links := rfl
@[simp] theorem touchRead_input (k : Client) : (touchRead s k).input = s.input := rfl
@[simp] theorem touchRead_phase (k : Client) : (touchRead s k).phase = s.phase := rfl
@[simp] theorem touchRead_ret (k : Client) : (touchRead s k).ret = s.ret := rfl
@[simp] theorem touchRead_mon (k : Client) : (touchRead s k).mon = s.mon := rfl
@[simp] theorem touchRead_ports (k : Client) : (touchRead s k).ports = s.ports := rfl
@[simp] theorem touchRead_bridge (k : Client) : (touchRead s k).bridge = s.bridge := rfl
@[simp] theorem touchRead_flows (k : Client) : (touchRead s k).flows = s.flows := rfl
@[simp] theorem touchRead_meters (k : Client) : (touchRead s k).meters = s.meters := rfl
@[simp] theorem touchRead_watch (k : Client) : (touchRead s k).watch = s.watch := rfl
@[simp] theorem touchRead_counts (k : Client) : (touchRead s k).counts = s.counts := rfl
@[simp] theorem touchRead_time (k : Client) : (touchRead s k).time = s.time := rfl
@[simp] theorem touchRead_dram (k : Client) : (touchRead s k).dram = s.dram := rfl
@[simp] theorem touchRead_atu (k : Client) : (touchRead s k).atu = s.atu := rfl
@[simp] theorem touchRead_dma (k : Client) : (touchRead s k).dma = s.dma := rfl
@[simp] theorem touchRead_capture (k : Client) : (touchRead s k).capture = s.capture := rfl
@[simp] theorem touchRead_relay (k : Client) : (touchRead s k).relay = s.relay := rfl
@[simp] theorem touchRead_baton (k : Client) : (touchRead s k).baton = s.baton := rfl
@[simp] theorem touchRead_selfTest (k : Client) : (touchRead s k).selfTest = s.selfTest := rfl
@[simp] theorem touchRead_standIns (k : Client) : (touchRead s k).standIns = s.standIns := rfl
@[simp] theorem touchRead_boot (k : Client) : (touchRead s k).boot = s.boot := rfl
@[simp] theorem touchRead_slots (k : Client) : (touchRead s k).slots = s.slots := rfl
@[simp] theorem touchRead_snaps (k : Client) : (touchRead s k).snaps = s.snaps := rfl
@[simp] theorem touchRead_cv (k : Client) : (touchRead s k).cv = s.cv := rfl
@[simp] theorem touchRead_rst (k : Client) : (touchRead s k).rst = s.rst := rfl
@[simp] theorem touchRead_flash (k : Client) : (touchRead s k).flash = s.flash := rfl
@[simp] theorem touchRead_ctrl (k : Client) : (touchRead s k).ctrl = s.ctrl := rfl
@[simp] theorem touchRead_stage (k : Client) : (touchRead s k).stage = s.stage := rfl
@[simp] theorem touchRead_sensors (k : Client) : (touchRead s k).sensors = s.sensors := rfl
@[simp] theorem touchRead_planner (k : Client) : (touchRead s k).planner = s.planner := rfl
@[simp] theorem touchRead_can (k : Client) : (touchRead s k).can = s.can := rfl
@[simp] theorem touchRead_windows (k : Client) : (touchRead s k).windows = s.windows := rfl
@[simp] theorem touchRead_firmware (k : Client) : (touchRead s k).firmware = s.firmware := rfl
@[simp] theorem touchRead_maint (k : Client) : (touchRead s k).maint = s.maint := rfl
@[simp] theorem touchRead_pins (k : Client) : (touchRead s k).pins = s.pins := rfl

/-! ### drawFree -/

@[simp] theorem drawFree_now : (drawFree s).now = s.now := rfl
@[simp] theorem drawFree_pending : (drawFree s).pending = s.pending := rfl
@[simp] theorem drawFree_dict : (drawFree s).dict = s.dict := rfl
@[simp] theorem drawFree_regs : (drawFree s).regs = s.regs := rfl
@[simp] theorem drawFree_overflow : (drawFree s).overflow = s.overflow := rfl
@[simp] theorem drawFree_emcy : (drawFree s).emcy = s.emcy := rfl
@[simp] theorem drawFree_log : (drawFree s).log = s.log := rfl
@[simp] theorem drawFree_lap : (drawFree s).lap = s.lap := rfl
@[simp] theorem drawFree_disp : (drawFree s).disp = s.disp := rfl
@[simp] theorem drawFree_chans : (drawFree s).chans = s.chans := rfl
@[simp] theorem drawFree_streams : (drawFree s).streams = s.streams := rfl
@[simp] theorem drawFree_rois : (drawFree s).rois = s.rois := rfl
@[simp] theorem drawFree_lanes : (drawFree s).lanes = s.lanes := rfl
@[simp] theorem drawFree_links : (drawFree s).links = s.links := rfl
@[simp] theorem drawFree_input : (drawFree s).input = s.input := rfl
@[simp] theorem drawFree_phase : (drawFree s).phase = s.phase := rfl
@[simp] theorem drawFree_ret : (drawFree s).ret = s.ret := rfl
@[simp] theorem drawFree_mon : (drawFree s).mon = s.mon := rfl
@[simp] theorem drawFree_ports : (drawFree s).ports = s.ports := rfl
@[simp] theorem drawFree_bridge : (drawFree s).bridge = s.bridge := rfl
@[simp] theorem drawFree_flows : (drawFree s).flows = s.flows := rfl
@[simp] theorem drawFree_meters : (drawFree s).meters = s.meters := rfl
@[simp] theorem drawFree_watch : (drawFree s).watch = s.watch := rfl
@[simp] theorem drawFree_counts : (drawFree s).counts = s.counts := rfl
@[simp] theorem drawFree_time : (drawFree s).time = s.time := rfl
@[simp] theorem drawFree_dram : (drawFree s).dram = s.dram := rfl
@[simp] theorem drawFree_atu : (drawFree s).atu = s.atu := rfl
@[simp] theorem drawFree_dma : (drawFree s).dma = s.dma := rfl
@[simp] theorem drawFree_capture : (drawFree s).capture = s.capture := rfl
@[simp] theorem drawFree_relay : (drawFree s).relay = s.relay := rfl
@[simp] theorem drawFree_baton : (drawFree s).baton = s.baton := rfl
@[simp] theorem drawFree_selfTest : (drawFree s).selfTest = s.selfTest := rfl
@[simp] theorem drawFree_standIns : (drawFree s).standIns = s.standIns := rfl
@[simp] theorem drawFree_boot : (drawFree s).boot = s.boot := rfl
@[simp] theorem drawFree_slots : (drawFree s).slots = s.slots := rfl
@[simp] theorem drawFree_snaps : (drawFree s).snaps = s.snaps := rfl
@[simp] theorem drawFree_cv : (drawFree s).cv = s.cv := rfl
@[simp] theorem drawFree_rst : (drawFree s).rst = s.rst := rfl
@[simp] theorem drawFree_flash : (drawFree s).flash = s.flash := rfl
@[simp] theorem drawFree_ctrl : (drawFree s).ctrl = s.ctrl := rfl
@[simp] theorem drawFree_stage : (drawFree s).stage = s.stage := rfl
@[simp] theorem drawFree_sensors : (drawFree s).sensors = s.sensors := rfl
@[simp] theorem drawFree_planner : (drawFree s).planner = s.planner := rfl
@[simp] theorem drawFree_can : (drawFree s).can = s.can := rfl
@[simp] theorem drawFree_clients : (drawFree s).clients = s.clients := rfl
@[simp] theorem drawFree_windows : (drawFree s).windows = s.windows := rfl
@[simp] theorem drawFree_firmware : (drawFree s).firmware = s.firmware := rfl
@[simp] theorem drawFree_maint : (drawFree s).maint = s.maint := rfl
@[simp] theorem drawFree_pins : (drawFree s).pins = s.pins := rfl

/-! ### postJob -/

@[simp] theorem postJob_now (c : Chan) (n : StreamId) (m : Nat) (o : Operand) : (postJob s c n m o).now = s.now := rfl
@[simp] theorem postJob_free (c : Chan) (n : StreamId) (m : Nat) (o : Operand) : (postJob s c n m o).free = s.free := rfl
@[simp] theorem postJob_pending (c : Chan) (n : StreamId) (m : Nat) (o : Operand) : (postJob s c n m o).pending = s.pending := rfl
@[simp] theorem postJob_dict (c : Chan) (n : StreamId) (m : Nat) (o : Operand) : (postJob s c n m o).dict = s.dict := rfl
@[simp] theorem postJob_regs (c : Chan) (n : StreamId) (m : Nat) (o : Operand) : (postJob s c n m o).regs = s.regs := rfl
@[simp] theorem postJob_overflow (c : Chan) (n : StreamId) (m : Nat) (o : Operand) : (postJob s c n m o).overflow = s.overflow := rfl
@[simp] theorem postJob_emcy (c : Chan) (n : StreamId) (m : Nat) (o : Operand) : (postJob s c n m o).emcy = s.emcy := rfl
@[simp] theorem postJob_log (c : Chan) (n : StreamId) (m : Nat) (o : Operand) : (postJob s c n m o).log = s.log := rfl
@[simp] theorem postJob_lap (c : Chan) (n : StreamId) (m : Nat) (o : Operand) : (postJob s c n m o).lap = s.lap := rfl
@[simp] theorem postJob_chans (c : Chan) (n : StreamId) (m : Nat) (o : Operand) : (postJob s c n m o).chans = s.chans := rfl
@[simp] theorem postJob_streams (c : Chan) (n : StreamId) (m : Nat) (o : Operand) : (postJob s c n m o).streams = s.streams := rfl
@[simp] theorem postJob_rois (c : Chan) (n : StreamId) (m : Nat) (o : Operand) : (postJob s c n m o).rois = s.rois := rfl
@[simp] theorem postJob_lanes (c : Chan) (n : StreamId) (m : Nat) (o : Operand) : (postJob s c n m o).lanes = s.lanes := rfl
@[simp] theorem postJob_links (c : Chan) (n : StreamId) (m : Nat) (o : Operand) : (postJob s c n m o).links = s.links := rfl
@[simp] theorem postJob_input (c : Chan) (n : StreamId) (m : Nat) (o : Operand) : (postJob s c n m o).input = s.input := rfl
@[simp] theorem postJob_phase (c : Chan) (n : StreamId) (m : Nat) (o : Operand) : (postJob s c n m o).phase = s.phase := rfl
@[simp] theorem postJob_ret (c : Chan) (n : StreamId) (m : Nat) (o : Operand) : (postJob s c n m o).ret = s.ret := rfl
@[simp] theorem postJob_mon (c : Chan) (n : StreamId) (m : Nat) (o : Operand) : (postJob s c n m o).mon = s.mon := rfl
@[simp] theorem postJob_ports (c : Chan) (n : StreamId) (m : Nat) (o : Operand) : (postJob s c n m o).ports = s.ports := rfl
@[simp] theorem postJob_bridge (c : Chan) (n : StreamId) (m : Nat) (o : Operand) : (postJob s c n m o).bridge = s.bridge := rfl
@[simp] theorem postJob_flows (c : Chan) (n : StreamId) (m : Nat) (o : Operand) : (postJob s c n m o).flows = s.flows := rfl
@[simp] theorem postJob_meters (c : Chan) (n : StreamId) (m : Nat) (o : Operand) : (postJob s c n m o).meters = s.meters := rfl
@[simp] theorem postJob_watch (c : Chan) (n : StreamId) (m : Nat) (o : Operand) : (postJob s c n m o).watch = s.watch := rfl
@[simp] theorem postJob_counts (c : Chan) (n : StreamId) (m : Nat) (o : Operand) : (postJob s c n m o).counts = s.counts := rfl
@[simp] theorem postJob_time (c : Chan) (n : StreamId) (m : Nat) (o : Operand) : (postJob s c n m o).time = s.time := rfl
@[simp] theorem postJob_dram (c : Chan) (n : StreamId) (m : Nat) (o : Operand) : (postJob s c n m o).dram = s.dram := rfl
@[simp] theorem postJob_atu (c : Chan) (n : StreamId) (m : Nat) (o : Operand) : (postJob s c n m o).atu = s.atu := rfl
@[simp] theorem postJob_dma (c : Chan) (n : StreamId) (m : Nat) (o : Operand) : (postJob s c n m o).dma = s.dma := rfl
@[simp] theorem postJob_capture (c : Chan) (n : StreamId) (m : Nat) (o : Operand) : (postJob s c n m o).capture = s.capture := rfl
@[simp] theorem postJob_relay (c : Chan) (n : StreamId) (m : Nat) (o : Operand) : (postJob s c n m o).relay = s.relay := rfl
@[simp] theorem postJob_baton (c : Chan) (n : StreamId) (m : Nat) (o : Operand) : (postJob s c n m o).baton = s.baton := rfl
@[simp] theorem postJob_selfTest (c : Chan) (n : StreamId) (m : Nat) (o : Operand) : (postJob s c n m o).selfTest = s.selfTest := rfl
@[simp] theorem postJob_standIns (c : Chan) (n : StreamId) (m : Nat) (o : Operand) : (postJob s c n m o).standIns = s.standIns := rfl
@[simp] theorem postJob_boot (c : Chan) (n : StreamId) (m : Nat) (o : Operand) : (postJob s c n m o).boot = s.boot := rfl
@[simp] theorem postJob_slots (c : Chan) (n : StreamId) (m : Nat) (o : Operand) : (postJob s c n m o).slots = s.slots := rfl
@[simp] theorem postJob_snaps (c : Chan) (n : StreamId) (m : Nat) (o : Operand) : (postJob s c n m o).snaps = s.snaps := rfl
@[simp] theorem postJob_cv (c : Chan) (n : StreamId) (m : Nat) (o : Operand) : (postJob s c n m o).cv = s.cv := rfl
@[simp] theorem postJob_rst (c : Chan) (n : StreamId) (m : Nat) (o : Operand) : (postJob s c n m o).rst = s.rst := rfl
@[simp] theorem postJob_flash (c : Chan) (n : StreamId) (m : Nat) (o : Operand) : (postJob s c n m o).flash = s.flash := rfl
@[simp] theorem postJob_ctrl (c : Chan) (n : StreamId) (m : Nat) (o : Operand) : (postJob s c n m o).ctrl = s.ctrl := rfl
@[simp] theorem postJob_stage (c : Chan) (n : StreamId) (m : Nat) (o : Operand) : (postJob s c n m o).stage = s.stage := rfl
@[simp] theorem postJob_sensors (c : Chan) (n : StreamId) (m : Nat) (o : Operand) : (postJob s c n m o).sensors = s.sensors := rfl
@[simp] theorem postJob_planner (c : Chan) (n : StreamId) (m : Nat) (o : Operand) : (postJob s c n m o).planner = s.planner := rfl
@[simp] theorem postJob_can (c : Chan) (n : StreamId) (m : Nat) (o : Operand) : (postJob s c n m o).can = s.can := rfl
@[simp] theorem postJob_clients (c : Chan) (n : StreamId) (m : Nat) (o : Operand) : (postJob s c n m o).clients = s.clients := rfl
@[simp] theorem postJob_windows (c : Chan) (n : StreamId) (m : Nat) (o : Operand) : (postJob s c n m o).windows = s.windows := rfl
@[simp] theorem postJob_firmware (c : Chan) (n : StreamId) (m : Nat) (o : Operand) : (postJob s c n m o).firmware = s.firmware := rfl
@[simp] theorem postJob_maint (c : Chan) (n : StreamId) (m : Nat) (o : Operand) : (postJob s c n m o).maint = s.maint := rfl
@[simp] theorem postJob_pins (c : Chan) (n : StreamId) (m : Nat) (o : Operand) : (postJob s c n m o).pins = s.pins := rfl

/-! ### setFlag -/

@[simp] theorem setFlag_now (k b : Nat) : (setFlag s k b).now = s.now := rfl
@[simp] theorem setFlag_free (k b : Nat) : (setFlag s k b).free = s.free := rfl
@[simp] theorem setFlag_pending (k b : Nat) : (setFlag s k b).pending = s.pending := rfl
@[simp] theorem setFlag_dict (k b : Nat) : (setFlag s k b).dict = s.dict := rfl
@[simp] theorem setFlag_overflow (k b : Nat) : (setFlag s k b).overflow = s.overflow := rfl
@[simp] theorem setFlag_emcy (k b : Nat) : (setFlag s k b).emcy = s.emcy := rfl
@[simp] theorem setFlag_log (k b : Nat) : (setFlag s k b).log = s.log := rfl
@[simp] theorem setFlag_lap (k b : Nat) : (setFlag s k b).lap = s.lap := rfl
@[simp] theorem setFlag_disp (k b : Nat) : (setFlag s k b).disp = s.disp := rfl
@[simp] theorem setFlag_chans (k b : Nat) : (setFlag s k b).chans = s.chans := rfl
@[simp] theorem setFlag_streams (k b : Nat) : (setFlag s k b).streams = s.streams := rfl
@[simp] theorem setFlag_rois (k b : Nat) : (setFlag s k b).rois = s.rois := rfl
@[simp] theorem setFlag_lanes (k b : Nat) : (setFlag s k b).lanes = s.lanes := rfl
@[simp] theorem setFlag_links (k b : Nat) : (setFlag s k b).links = s.links := rfl
@[simp] theorem setFlag_input (k b : Nat) : (setFlag s k b).input = s.input := rfl
@[simp] theorem setFlag_phase (k b : Nat) : (setFlag s k b).phase = s.phase := rfl
@[simp] theorem setFlag_ret (k b : Nat) : (setFlag s k b).ret = s.ret := rfl
@[simp] theorem setFlag_mon (k b : Nat) : (setFlag s k b).mon = s.mon := rfl
@[simp] theorem setFlag_ports (k b : Nat) : (setFlag s k b).ports = s.ports := rfl
@[simp] theorem setFlag_bridge (k b : Nat) : (setFlag s k b).bridge = s.bridge := rfl
@[simp] theorem setFlag_flows (k b : Nat) : (setFlag s k b).flows = s.flows := rfl
@[simp] theorem setFlag_meters (k b : Nat) : (setFlag s k b).meters = s.meters := rfl
@[simp] theorem setFlag_watch (k b : Nat) : (setFlag s k b).watch = s.watch := rfl
@[simp] theorem setFlag_counts (k b : Nat) : (setFlag s k b).counts = s.counts := rfl
@[simp] theorem setFlag_time (k b : Nat) : (setFlag s k b).time = s.time := rfl
@[simp] theorem setFlag_dram (k b : Nat) : (setFlag s k b).dram = s.dram := rfl
@[simp] theorem setFlag_atu (k b : Nat) : (setFlag s k b).atu = s.atu := rfl
@[simp] theorem setFlag_dma (k b : Nat) : (setFlag s k b).dma = s.dma := rfl
@[simp] theorem setFlag_capture (k b : Nat) : (setFlag s k b).capture = s.capture := rfl
@[simp] theorem setFlag_relay (k b : Nat) : (setFlag s k b).relay = s.relay := rfl
@[simp] theorem setFlag_baton (k b : Nat) : (setFlag s k b).baton = s.baton := rfl
@[simp] theorem setFlag_selfTest (k b : Nat) : (setFlag s k b).selfTest = s.selfTest := rfl
@[simp] theorem setFlag_standIns (k b : Nat) : (setFlag s k b).standIns = s.standIns := rfl
@[simp] theorem setFlag_boot (k b : Nat) : (setFlag s k b).boot = s.boot := rfl
@[simp] theorem setFlag_slots (k b : Nat) : (setFlag s k b).slots = s.slots := rfl
@[simp] theorem setFlag_snaps (k b : Nat) : (setFlag s k b).snaps = s.snaps := rfl
@[simp] theorem setFlag_cv (k b : Nat) : (setFlag s k b).cv = s.cv := rfl
@[simp] theorem setFlag_rst (k b : Nat) : (setFlag s k b).rst = s.rst := rfl
@[simp] theorem setFlag_flash (k b : Nat) : (setFlag s k b).flash = s.flash := rfl
@[simp] theorem setFlag_ctrl (k b : Nat) : (setFlag s k b).ctrl = s.ctrl := rfl
@[simp] theorem setFlag_stage (k b : Nat) : (setFlag s k b).stage = s.stage := rfl
@[simp] theorem setFlag_sensors (k b : Nat) : (setFlag s k b).sensors = s.sensors := rfl
@[simp] theorem setFlag_planner (k b : Nat) : (setFlag s k b).planner = s.planner := rfl
@[simp] theorem setFlag_can (k b : Nat) : (setFlag s k b).can = s.can := rfl
@[simp] theorem setFlag_clients (k b : Nat) : (setFlag s k b).clients = s.clients := rfl
@[simp] theorem setFlag_windows (k b : Nat) : (setFlag s k b).windows = s.windows := rfl
@[simp] theorem setFlag_firmware (k b : Nat) : (setFlag s k b).firmware = s.firmware := rfl
@[simp] theorem setFlag_maint (k b : Nat) : (setFlag s k b).maint = s.maint := rfl
@[simp] theorem setFlag_pins (k b : Nat) : (setFlag s k b).pins = s.pins := rfl

/-! ### clearFlag -/

@[simp] theorem clearFlag_now (k b : Nat) : (clearFlag s k b).now = s.now := rfl
@[simp] theorem clearFlag_free (k b : Nat) : (clearFlag s k b).free = s.free := rfl
@[simp] theorem clearFlag_pending (k b : Nat) : (clearFlag s k b).pending = s.pending := rfl
@[simp] theorem clearFlag_dict (k b : Nat) : (clearFlag s k b).dict = s.dict := rfl
@[simp] theorem clearFlag_overflow (k b : Nat) : (clearFlag s k b).overflow = s.overflow := rfl
@[simp] theorem clearFlag_emcy (k b : Nat) : (clearFlag s k b).emcy = s.emcy := rfl
@[simp] theorem clearFlag_log (k b : Nat) : (clearFlag s k b).log = s.log := rfl
@[simp] theorem clearFlag_lap (k b : Nat) : (clearFlag s k b).lap = s.lap := rfl
@[simp] theorem clearFlag_disp (k b : Nat) : (clearFlag s k b).disp = s.disp := rfl
@[simp] theorem clearFlag_chans (k b : Nat) : (clearFlag s k b).chans = s.chans := rfl
@[simp] theorem clearFlag_streams (k b : Nat) : (clearFlag s k b).streams = s.streams := rfl
@[simp] theorem clearFlag_rois (k b : Nat) : (clearFlag s k b).rois = s.rois := rfl
@[simp] theorem clearFlag_lanes (k b : Nat) : (clearFlag s k b).lanes = s.lanes := rfl
@[simp] theorem clearFlag_links (k b : Nat) : (clearFlag s k b).links = s.links := rfl
@[simp] theorem clearFlag_input (k b : Nat) : (clearFlag s k b).input = s.input := rfl
@[simp] theorem clearFlag_phase (k b : Nat) : (clearFlag s k b).phase = s.phase := rfl
@[simp] theorem clearFlag_ret (k b : Nat) : (clearFlag s k b).ret = s.ret := rfl
@[simp] theorem clearFlag_mon (k b : Nat) : (clearFlag s k b).mon = s.mon := rfl
@[simp] theorem clearFlag_ports (k b : Nat) : (clearFlag s k b).ports = s.ports := rfl
@[simp] theorem clearFlag_bridge (k b : Nat) : (clearFlag s k b).bridge = s.bridge := rfl
@[simp] theorem clearFlag_flows (k b : Nat) : (clearFlag s k b).flows = s.flows := rfl
@[simp] theorem clearFlag_meters (k b : Nat) : (clearFlag s k b).meters = s.meters := rfl
@[simp] theorem clearFlag_watch (k b : Nat) : (clearFlag s k b).watch = s.watch := rfl
@[simp] theorem clearFlag_counts (k b : Nat) : (clearFlag s k b).counts = s.counts := rfl
@[simp] theorem clearFlag_time (k b : Nat) : (clearFlag s k b).time = s.time := rfl
@[simp] theorem clearFlag_dram (k b : Nat) : (clearFlag s k b).dram = s.dram := rfl
@[simp] theorem clearFlag_atu (k b : Nat) : (clearFlag s k b).atu = s.atu := rfl
@[simp] theorem clearFlag_dma (k b : Nat) : (clearFlag s k b).dma = s.dma := rfl
@[simp] theorem clearFlag_capture (k b : Nat) : (clearFlag s k b).capture = s.capture := rfl
@[simp] theorem clearFlag_relay (k b : Nat) : (clearFlag s k b).relay = s.relay := rfl
@[simp] theorem clearFlag_baton (k b : Nat) : (clearFlag s k b).baton = s.baton := rfl
@[simp] theorem clearFlag_selfTest (k b : Nat) : (clearFlag s k b).selfTest = s.selfTest := rfl
@[simp] theorem clearFlag_standIns (k b : Nat) : (clearFlag s k b).standIns = s.standIns := rfl
@[simp] theorem clearFlag_boot (k b : Nat) : (clearFlag s k b).boot = s.boot := rfl
@[simp] theorem clearFlag_slots (k b : Nat) : (clearFlag s k b).slots = s.slots := rfl
@[simp] theorem clearFlag_snaps (k b : Nat) : (clearFlag s k b).snaps = s.snaps := rfl
@[simp] theorem clearFlag_cv (k b : Nat) : (clearFlag s k b).cv = s.cv := rfl
@[simp] theorem clearFlag_rst (k b : Nat) : (clearFlag s k b).rst = s.rst := rfl
@[simp] theorem clearFlag_flash (k b : Nat) : (clearFlag s k b).flash = s.flash := rfl
@[simp] theorem clearFlag_ctrl (k b : Nat) : (clearFlag s k b).ctrl = s.ctrl := rfl
@[simp] theorem clearFlag_stage (k b : Nat) : (clearFlag s k b).stage = s.stage := rfl
@[simp] theorem clearFlag_sensors (k b : Nat) : (clearFlag s k b).sensors = s.sensors := rfl
@[simp] theorem clearFlag_planner (k b : Nat) : (clearFlag s k b).planner = s.planner := rfl
@[simp] theorem clearFlag_can (k b : Nat) : (clearFlag s k b).can = s.can := rfl
@[simp] theorem clearFlag_clients (k b : Nat) : (clearFlag s k b).clients = s.clients := rfl
@[simp] theorem clearFlag_windows (k b : Nat) : (clearFlag s k b).windows = s.windows := rfl
@[simp] theorem clearFlag_firmware (k b : Nat) : (clearFlag s k b).firmware = s.firmware := rfl
@[simp] theorem clearFlag_maint (k b : Nat) : (clearFlag s k b).maint = s.maint := rfl
@[simp] theorem clearFlag_pins (k b : Nat) : (clearFlag s k b).pins = s.pins := rfl

/-! ### putField -/

@[simp] theorem putField_now (k hi lo v : Nat) : (putField s k hi lo v).now = s.now := rfl
@[simp] theorem putField_free (k hi lo v : Nat) : (putField s k hi lo v).free = s.free := rfl
@[simp] theorem putField_pending (k hi lo v : Nat) : (putField s k hi lo v).pending = s.pending := rfl
@[simp] theorem putField_dict (k hi lo v : Nat) : (putField s k hi lo v).dict = s.dict := rfl
@[simp] theorem putField_overflow (k hi lo v : Nat) : (putField s k hi lo v).overflow = s.overflow := rfl
@[simp] theorem putField_emcy (k hi lo v : Nat) : (putField s k hi lo v).emcy = s.emcy := rfl
@[simp] theorem putField_log (k hi lo v : Nat) : (putField s k hi lo v).log = s.log := rfl
@[simp] theorem putField_lap (k hi lo v : Nat) : (putField s k hi lo v).lap = s.lap := rfl
@[simp] theorem putField_disp (k hi lo v : Nat) : (putField s k hi lo v).disp = s.disp := rfl
@[simp] theorem putField_chans (k hi lo v : Nat) : (putField s k hi lo v).chans = s.chans := rfl
@[simp] theorem putField_streams (k hi lo v : Nat) : (putField s k hi lo v).streams = s.streams := rfl
@[simp] theorem putField_rois (k hi lo v : Nat) : (putField s k hi lo v).rois = s.rois := rfl
@[simp] theorem putField_lanes (k hi lo v : Nat) : (putField s k hi lo v).lanes = s.lanes := rfl
@[simp] theorem putField_links (k hi lo v : Nat) : (putField s k hi lo v).links = s.links := rfl
@[simp] theorem putField_input (k hi lo v : Nat) : (putField s k hi lo v).input = s.input := rfl
@[simp] theorem putField_phase (k hi lo v : Nat) : (putField s k hi lo v).phase = s.phase := rfl
@[simp] theorem putField_ret (k hi lo v : Nat) : (putField s k hi lo v).ret = s.ret := rfl
@[simp] theorem putField_mon (k hi lo v : Nat) : (putField s k hi lo v).mon = s.mon := rfl
@[simp] theorem putField_ports (k hi lo v : Nat) : (putField s k hi lo v).ports = s.ports := rfl
@[simp] theorem putField_bridge (k hi lo v : Nat) : (putField s k hi lo v).bridge = s.bridge := rfl
@[simp] theorem putField_flows (k hi lo v : Nat) : (putField s k hi lo v).flows = s.flows := rfl
@[simp] theorem putField_meters (k hi lo v : Nat) : (putField s k hi lo v).meters = s.meters := rfl
@[simp] theorem putField_watch (k hi lo v : Nat) : (putField s k hi lo v).watch = s.watch := rfl
@[simp] theorem putField_counts (k hi lo v : Nat) : (putField s k hi lo v).counts = s.counts := rfl
@[simp] theorem putField_time (k hi lo v : Nat) : (putField s k hi lo v).time = s.time := rfl
@[simp] theorem putField_dram (k hi lo v : Nat) : (putField s k hi lo v).dram = s.dram := rfl
@[simp] theorem putField_atu (k hi lo v : Nat) : (putField s k hi lo v).atu = s.atu := rfl
@[simp] theorem putField_dma (k hi lo v : Nat) : (putField s k hi lo v).dma = s.dma := rfl
@[simp] theorem putField_capture (k hi lo v : Nat) : (putField s k hi lo v).capture = s.capture := rfl
@[simp] theorem putField_relay (k hi lo v : Nat) : (putField s k hi lo v).relay = s.relay := rfl
@[simp] theorem putField_baton (k hi lo v : Nat) : (putField s k hi lo v).baton = s.baton := rfl
@[simp] theorem putField_selfTest (k hi lo v : Nat) : (putField s k hi lo v).selfTest = s.selfTest := rfl
@[simp] theorem putField_standIns (k hi lo v : Nat) : (putField s k hi lo v).standIns = s.standIns := rfl
@[simp] theorem putField_boot (k hi lo v : Nat) : (putField s k hi lo v).boot = s.boot := rfl
@[simp] theorem putField_slots (k hi lo v : Nat) : (putField s k hi lo v).slots = s.slots := rfl
@[simp] theorem putField_snaps (k hi lo v : Nat) : (putField s k hi lo v).snaps = s.snaps := rfl
@[simp] theorem putField_cv (k hi lo v : Nat) : (putField s k hi lo v).cv = s.cv := rfl
@[simp] theorem putField_rst (k hi lo v : Nat) : (putField s k hi lo v).rst = s.rst := rfl
@[simp] theorem putField_flash (k hi lo v : Nat) : (putField s k hi lo v).flash = s.flash := rfl
@[simp] theorem putField_ctrl (k hi lo v : Nat) : (putField s k hi lo v).ctrl = s.ctrl := rfl
@[simp] theorem putField_stage (k hi lo v : Nat) : (putField s k hi lo v).stage = s.stage := rfl
@[simp] theorem putField_sensors (k hi lo v : Nat) : (putField s k hi lo v).sensors = s.sensors := rfl
@[simp] theorem putField_planner (k hi lo v : Nat) : (putField s k hi lo v).planner = s.planner := rfl
@[simp] theorem putField_can (k hi lo v : Nat) : (putField s k hi lo v).can = s.can := rfl
@[simp] theorem putField_clients (k hi lo v : Nat) : (putField s k hi lo v).clients = s.clients := rfl
@[simp] theorem putField_windows (k hi lo v : Nat) : (putField s k hi lo v).windows = s.windows := rfl
@[simp] theorem putField_firmware (k hi lo v : Nat) : (putField s k hi lo v).firmware = s.firmware := rfl
@[simp] theorem putField_maint (k hi lo v : Nat) : (putField s k hi lo v).maint = s.maint := rfl
@[simp] theorem putField_pins (k hi lo v : Nat) : (putField s k hi lo v).pins = s.pins := rfl

/-! ### regMax -/

@[simp] theorem regMax_now (k v : Nat) : (regMax s k v).now = s.now := rfl
@[simp] theorem regMax_free (k v : Nat) : (regMax s k v).free = s.free := rfl
@[simp] theorem regMax_pending (k v : Nat) : (regMax s k v).pending = s.pending := rfl
@[simp] theorem regMax_dict (k v : Nat) : (regMax s k v).dict = s.dict := rfl
@[simp] theorem regMax_overflow (k v : Nat) : (regMax s k v).overflow = s.overflow := rfl
@[simp] theorem regMax_emcy (k v : Nat) : (regMax s k v).emcy = s.emcy := rfl
@[simp] theorem regMax_log (k v : Nat) : (regMax s k v).log = s.log := rfl
@[simp] theorem regMax_lap (k v : Nat) : (regMax s k v).lap = s.lap := rfl
@[simp] theorem regMax_disp (k v : Nat) : (regMax s k v).disp = s.disp := rfl
@[simp] theorem regMax_chans (k v : Nat) : (regMax s k v).chans = s.chans := rfl
@[simp] theorem regMax_streams (k v : Nat) : (regMax s k v).streams = s.streams := rfl
@[simp] theorem regMax_rois (k v : Nat) : (regMax s k v).rois = s.rois := rfl
@[simp] theorem regMax_lanes (k v : Nat) : (regMax s k v).lanes = s.lanes := rfl
@[simp] theorem regMax_links (k v : Nat) : (regMax s k v).links = s.links := rfl
@[simp] theorem regMax_input (k v : Nat) : (regMax s k v).input = s.input := rfl
@[simp] theorem regMax_phase (k v : Nat) : (regMax s k v).phase = s.phase := rfl
@[simp] theorem regMax_ret (k v : Nat) : (regMax s k v).ret = s.ret := rfl
@[simp] theorem regMax_mon (k v : Nat) : (regMax s k v).mon = s.mon := rfl
@[simp] theorem regMax_ports (k v : Nat) : (regMax s k v).ports = s.ports := rfl
@[simp] theorem regMax_bridge (k v : Nat) : (regMax s k v).bridge = s.bridge := rfl
@[simp] theorem regMax_flows (k v : Nat) : (regMax s k v).flows = s.flows := rfl
@[simp] theorem regMax_meters (k v : Nat) : (regMax s k v).meters = s.meters := rfl
@[simp] theorem regMax_watch (k v : Nat) : (regMax s k v).watch = s.watch := rfl
@[simp] theorem regMax_counts (k v : Nat) : (regMax s k v).counts = s.counts := rfl
@[simp] theorem regMax_time (k v : Nat) : (regMax s k v).time = s.time := rfl
@[simp] theorem regMax_dram (k v : Nat) : (regMax s k v).dram = s.dram := rfl
@[simp] theorem regMax_atu (k v : Nat) : (regMax s k v).atu = s.atu := rfl
@[simp] theorem regMax_dma (k v : Nat) : (regMax s k v).dma = s.dma := rfl
@[simp] theorem regMax_capture (k v : Nat) : (regMax s k v).capture = s.capture := rfl
@[simp] theorem regMax_relay (k v : Nat) : (regMax s k v).relay = s.relay := rfl
@[simp] theorem regMax_baton (k v : Nat) : (regMax s k v).baton = s.baton := rfl
@[simp] theorem regMax_selfTest (k v : Nat) : (regMax s k v).selfTest = s.selfTest := rfl
@[simp] theorem regMax_standIns (k v : Nat) : (regMax s k v).standIns = s.standIns := rfl
@[simp] theorem regMax_boot (k v : Nat) : (regMax s k v).boot = s.boot := rfl
@[simp] theorem regMax_slots (k v : Nat) : (regMax s k v).slots = s.slots := rfl
@[simp] theorem regMax_snaps (k v : Nat) : (regMax s k v).snaps = s.snaps := rfl
@[simp] theorem regMax_cv (k v : Nat) : (regMax s k v).cv = s.cv := rfl
@[simp] theorem regMax_rst (k v : Nat) : (regMax s k v).rst = s.rst := rfl
@[simp] theorem regMax_flash (k v : Nat) : (regMax s k v).flash = s.flash := rfl
@[simp] theorem regMax_ctrl (k v : Nat) : (regMax s k v).ctrl = s.ctrl := rfl
@[simp] theorem regMax_stage (k v : Nat) : (regMax s k v).stage = s.stage := rfl
@[simp] theorem regMax_sensors (k v : Nat) : (regMax s k v).sensors = s.sensors := rfl
@[simp] theorem regMax_planner (k v : Nat) : (regMax s k v).planner = s.planner := rfl
@[simp] theorem regMax_can (k v : Nat) : (regMax s k v).can = s.can := rfl
@[simp] theorem regMax_clients (k v : Nat) : (regMax s k v).clients = s.clients := rfl
@[simp] theorem regMax_windows (k v : Nat) : (regMax s k v).windows = s.windows := rfl
@[simp] theorem regMax_firmware (k v : Nat) : (regMax s k v).firmware = s.firmware := rfl
@[simp] theorem regMax_maint (k v : Nat) : (regMax s k v).maint = s.maint := rfl
@[simp] theorem regMax_pins (k v : Nat) : (regMax s k v).pins = s.pins := rfl

/-- What putFlag leaves. -/
@[simp] theorem putFlag_frame (k b : Nat) (v : Bool) :
    (putFlag s k b v).now = s.now ∧ (putFlag s k b v).free = s.free ∧ (putFlag s k b v).pending = s.pending ∧
    (putFlag s k b v).dict = s.dict ∧ (putFlag s k b v).overflow = s.overflow ∧ (putFlag s k b v).emcy = s.emcy ∧
    (putFlag s k b v).log = s.log ∧ (putFlag s k b v).lap = s.lap ∧ (putFlag s k b v).disp = s.disp ∧
    (putFlag s k b v).chans = s.chans ∧ (putFlag s k b v).streams = s.streams ∧ (putFlag s k b v).rois = s.rois ∧
    (putFlag s k b v).lanes = s.lanes ∧ (putFlag s k b v).links = s.links ∧ (putFlag s k b v).input = s.input ∧
    (putFlag s k b v).phase = s.phase ∧ (putFlag s k b v).ret = s.ret ∧ (putFlag s k b v).mon = s.mon ∧
    (putFlag s k b v).ports = s.ports ∧ (putFlag s k b v).bridge = s.bridge ∧ (putFlag s k b v).flows = s.flows ∧
    (putFlag s k b v).meters = s.meters ∧ (putFlag s k b v).watch = s.watch ∧ (putFlag s k b v).counts = s.counts ∧
    (putFlag s k b v).time = s.time ∧ (putFlag s k b v).dram = s.dram ∧ (putFlag s k b v).atu = s.atu ∧
    (putFlag s k b v).dma = s.dma ∧ (putFlag s k b v).capture = s.capture ∧ (putFlag s k b v).relay = s.relay ∧
    (putFlag s k b v).baton = s.baton ∧ (putFlag s k b v).selfTest = s.selfTest ∧
    (putFlag s k b v).standIns = s.standIns ∧ (putFlag s k b v).boot = s.boot ∧ (putFlag s k b v).slots = s.slots ∧
    (putFlag s k b v).snaps = s.snaps ∧ (putFlag s k b v).cv = s.cv ∧ (putFlag s k b v).rst = s.rst ∧
    (putFlag s k b v).flash = s.flash ∧ (putFlag s k b v).ctrl = s.ctrl ∧ (putFlag s k b v).stage = s.stage ∧
    (putFlag s k b v).sensors = s.sensors ∧ (putFlag s k b v).planner = s.planner ∧ (putFlag s k b v).can = s.can ∧
    (putFlag s k b v).clients = s.clients ∧ (putFlag s k b v).windows = s.windows ∧
    (putFlag s k b v).firmware = s.firmware ∧ (putFlag s k b v).maint = s.maint ∧ (putFlag s k b v).pins = s.pins := by
  unfold putFlag; split <;> simp

/-- What overflowEnter leaves. -/
@[simp] theorem overflowEnter_frame (k p : Nat) :
    (overflowEnter s k p).now = s.now ∧ (overflowEnter s k p).free = s.free ∧
    (overflowEnter s k p).pending = s.pending ∧ (overflowEnter s k p).dict = s.dict ∧
    (overflowEnter s k p).emcy = s.emcy ∧ (overflowEnter s k p).log = s.log ∧ (overflowEnter s k p).lap = s.lap ∧
    (overflowEnter s k p).disp = s.disp ∧ (overflowEnter s k p).chans = s.chans ∧
    (overflowEnter s k p).streams = s.streams ∧ (overflowEnter s k p).rois = s.rois ∧
    (overflowEnter s k p).lanes = s.lanes ∧ (overflowEnter s k p).links = s.links ∧
    (overflowEnter s k p).input = s.input ∧ (overflowEnter s k p).phase = s.phase ∧ (overflowEnter s k p).ret = s.ret ∧
    (overflowEnter s k p).mon = s.mon ∧ (overflowEnter s k p).ports = s.ports ∧
    (overflowEnter s k p).bridge = s.bridge ∧ (overflowEnter s k p).flows = s.flows ∧
    (overflowEnter s k p).meters = s.meters ∧ (overflowEnter s k p).watch = s.watch ∧
    (overflowEnter s k p).counts = s.counts ∧ (overflowEnter s k p).time = s.time ∧
    (overflowEnter s k p).dram = s.dram ∧ (overflowEnter s k p).atu = s.atu ∧ (overflowEnter s k p).dma = s.dma ∧
    (overflowEnter s k p).capture = s.capture ∧ (overflowEnter s k p).relay = s.relay ∧
    (overflowEnter s k p).baton = s.baton ∧ (overflowEnter s k p).selfTest = s.selfTest ∧
    (overflowEnter s k p).standIns = s.standIns ∧ (overflowEnter s k p).boot = s.boot ∧
    (overflowEnter s k p).slots = s.slots ∧ (overflowEnter s k p).snaps = s.snaps ∧ (overflowEnter s k p).cv = s.cv ∧
    (overflowEnter s k p).rst = s.rst ∧ (overflowEnter s k p).flash = s.flash ∧ (overflowEnter s k p).ctrl = s.ctrl ∧
    (overflowEnter s k p).stage = s.stage ∧ (overflowEnter s k p).sensors = s.sensors ∧
    (overflowEnter s k p).planner = s.planner ∧ (overflowEnter s k p).can = s.can ∧
    (overflowEnter s k p).clients = s.clients ∧ (overflowEnter s k p).windows = s.windows ∧
    (overflowEnter s k p).firmware = s.firmware ∧ (overflowEnter s k p).maint = s.maint ∧
    (overflowEnter s k p).pins = s.pins := by
  unfold overflowEnter; split <;> simp

/-- What bumpBy leaves. -/
@[simp] theorem bumpBy_frame (k n : Nat) :
    (bumpBy s k n).now = s.now ∧ (bumpBy s k n).free = s.free ∧ (bumpBy s k n).pending = s.pending ∧
    (bumpBy s k n).dict = s.dict ∧ (bumpBy s k n).emcy = s.emcy ∧ (bumpBy s k n).log = s.log ∧
    (bumpBy s k n).lap = s.lap ∧ (bumpBy s k n).disp = s.disp ∧ (bumpBy s k n).chans = s.chans ∧
    (bumpBy s k n).streams = s.streams ∧ (bumpBy s k n).rois = s.rois ∧ (bumpBy s k n).lanes = s.lanes ∧
    (bumpBy s k n).links = s.links ∧ (bumpBy s k n).input = s.input ∧ (bumpBy s k n).phase = s.phase ∧
    (bumpBy s k n).ret = s.ret ∧ (bumpBy s k n).mon = s.mon ∧ (bumpBy s k n).ports = s.ports ∧
    (bumpBy s k n).bridge = s.bridge ∧ (bumpBy s k n).flows = s.flows ∧ (bumpBy s k n).meters = s.meters ∧
    (bumpBy s k n).watch = s.watch ∧ (bumpBy s k n).counts = s.counts ∧ (bumpBy s k n).time = s.time ∧
    (bumpBy s k n).dram = s.dram ∧ (bumpBy s k n).atu = s.atu ∧ (bumpBy s k n).dma = s.dma ∧
    (bumpBy s k n).capture = s.capture ∧ (bumpBy s k n).relay = s.relay ∧ (bumpBy s k n).baton = s.baton ∧
    (bumpBy s k n).selfTest = s.selfTest ∧ (bumpBy s k n).standIns = s.standIns ∧ (bumpBy s k n).boot = s.boot ∧
    (bumpBy s k n).slots = s.slots ∧ (bumpBy s k n).snaps = s.snaps ∧ (bumpBy s k n).cv = s.cv ∧
    (bumpBy s k n).rst = s.rst ∧ (bumpBy s k n).flash = s.flash ∧ (bumpBy s k n).ctrl = s.ctrl ∧
    (bumpBy s k n).stage = s.stage ∧ (bumpBy s k n).sensors = s.sensors ∧ (bumpBy s k n).planner = s.planner ∧
    (bumpBy s k n).can = s.can ∧ (bumpBy s k n).clients = s.clients ∧ (bumpBy s k n).windows = s.windows ∧
    (bumpBy s k n).firmware = s.firmware ∧ (bumpBy s k n).maint = s.maint ∧ (bumpBy s k n).pins = s.pins := by
  unfold bumpBy; dsimp only; split <;> (try split) <;> (try split) <;> simp

/-- What bump leaves. -/
@[simp] theorem bump_frame (k : Nat) :
    (bump s k).now = s.now ∧ (bump s k).free = s.free ∧ (bump s k).pending = s.pending ∧ (bump s k).dict = s.dict ∧
    (bump s k).emcy = s.emcy ∧ (bump s k).log = s.log ∧ (bump s k).lap = s.lap ∧ (bump s k).disp = s.disp ∧
    (bump s k).chans = s.chans ∧ (bump s k).streams = s.streams ∧ (bump s k).rois = s.rois ∧
    (bump s k).lanes = s.lanes ∧ (bump s k).links = s.links ∧ (bump s k).input = s.input ∧ (bump s k).phase = s.phase ∧
    (bump s k).ret = s.ret ∧ (bump s k).mon = s.mon ∧ (bump s k).ports = s.ports ∧ (bump s k).bridge = s.bridge ∧
    (bump s k).flows = s.flows ∧ (bump s k).meters = s.meters ∧ (bump s k).watch = s.watch ∧
    (bump s k).counts = s.counts ∧ (bump s k).time = s.time ∧ (bump s k).dram = s.dram ∧ (bump s k).atu = s.atu ∧
    (bump s k).dma = s.dma ∧ (bump s k).capture = s.capture ∧ (bump s k).relay = s.relay ∧ (bump s k).baton = s.baton ∧
    (bump s k).selfTest = s.selfTest ∧ (bump s k).standIns = s.standIns ∧ (bump s k).boot = s.boot ∧
    (bump s k).slots = s.slots ∧ (bump s k).snaps = s.snaps ∧ (bump s k).cv = s.cv ∧ (bump s k).rst = s.rst ∧
    (bump s k).flash = s.flash ∧ (bump s k).ctrl = s.ctrl ∧ (bump s k).stage = s.stage ∧
    (bump s k).sensors = s.sensors ∧ (bump s k).planner = s.planner ∧ (bump s k).can = s.can ∧
    (bump s k).clients = s.clients ∧ (bump s k).windows = s.windows ∧ (bump s k).firmware = s.firmware ∧
    (bump s k).maint = s.maint ∧ (bump s k).pins = s.pins := by
  simp [bump]

/-- What bumpHalf leaves. -/
@[simp] theorem bumpHalf_frame (k : Nat) (h : Bool) :
    (bumpHalf s k h).now = s.now ∧ (bumpHalf s k h).free = s.free ∧ (bumpHalf s k h).pending = s.pending ∧
    (bumpHalf s k h).dict = s.dict ∧ (bumpHalf s k h).emcy = s.emcy ∧ (bumpHalf s k h).log = s.log ∧
    (bumpHalf s k h).lap = s.lap ∧ (bumpHalf s k h).disp = s.disp ∧ (bumpHalf s k h).chans = s.chans ∧
    (bumpHalf s k h).streams = s.streams ∧ (bumpHalf s k h).rois = s.rois ∧ (bumpHalf s k h).lanes = s.lanes ∧
    (bumpHalf s k h).links = s.links ∧ (bumpHalf s k h).input = s.input ∧ (bumpHalf s k h).phase = s.phase ∧
    (bumpHalf s k h).ret = s.ret ∧ (bumpHalf s k h).mon = s.mon ∧ (bumpHalf s k h).ports = s.ports ∧
    (bumpHalf s k h).bridge = s.bridge ∧ (bumpHalf s k h).flows = s.flows ∧ (bumpHalf s k h).meters = s.meters ∧
    (bumpHalf s k h).watch = s.watch ∧ (bumpHalf s k h).counts = s.counts ∧ (bumpHalf s k h).time = s.time ∧
    (bumpHalf s k h).dram = s.dram ∧ (bumpHalf s k h).atu = s.atu ∧ (bumpHalf s k h).dma = s.dma ∧
    (bumpHalf s k h).capture = s.capture ∧ (bumpHalf s k h).relay = s.relay ∧ (bumpHalf s k h).baton = s.baton ∧
    (bumpHalf s k h).selfTest = s.selfTest ∧ (bumpHalf s k h).standIns = s.standIns ∧ (bumpHalf s k h).boot = s.boot ∧
    (bumpHalf s k h).slots = s.slots ∧ (bumpHalf s k h).snaps = s.snaps ∧ (bumpHalf s k h).cv = s.cv ∧
    (bumpHalf s k h).rst = s.rst ∧ (bumpHalf s k h).flash = s.flash ∧ (bumpHalf s k h).ctrl = s.ctrl ∧
    (bumpHalf s k h).stage = s.stage ∧ (bumpHalf s k h).sensors = s.sensors ∧ (bumpHalf s k h).planner = s.planner ∧
    (bumpHalf s k h).can = s.can ∧ (bumpHalf s k h).clients = s.clients ∧ (bumpHalf s k h).windows = s.windows ∧
    (bumpHalf s k h).firmware = s.firmware ∧ (bumpHalf s k h).maint = s.maint ∧ (bumpHalf s k h).pins = s.pins := by
  unfold bumpHalf; cases h <;> simp only [Bool.false_eq_true, if_false, if_true] <;> split <;> (try split) <;> simp

/-- What logPush leaves. -/
@[simp] theorem logPush_frame (r : LogRecord) :
    (logPush s r).now = s.now ∧ (logPush s r).free = s.free ∧ (logPush s r).pending = s.pending ∧
    (logPush s r).dict = s.dict ∧ (logPush s r).emcy = s.emcy ∧ (logPush s r).lap = s.lap ∧
    (logPush s r).disp = s.disp ∧ (logPush s r).chans = s.chans ∧ (logPush s r).streams = s.streams ∧
    (logPush s r).rois = s.rois ∧ (logPush s r).lanes = s.lanes ∧ (logPush s r).links = s.links ∧
    (logPush s r).input = s.input ∧ (logPush s r).phase = s.phase ∧ (logPush s r).ret = s.ret ∧
    (logPush s r).mon = s.mon ∧ (logPush s r).ports = s.ports ∧ (logPush s r).bridge = s.bridge ∧
    (logPush s r).flows = s.flows ∧ (logPush s r).meters = s.meters ∧ (logPush s r).watch = s.watch ∧
    (logPush s r).counts = s.counts ∧ (logPush s r).time = s.time ∧ (logPush s r).dram = s.dram ∧
    (logPush s r).atu = s.atu ∧ (logPush s r).dma = s.dma ∧ (logPush s r).capture = s.capture ∧
    (logPush s r).relay = s.relay ∧ (logPush s r).baton = s.baton ∧ (logPush s r).selfTest = s.selfTest ∧
    (logPush s r).standIns = s.standIns ∧ (logPush s r).boot = s.boot ∧ (logPush s r).slots = s.slots ∧
    (logPush s r).snaps = s.snaps ∧ (logPush s r).cv = s.cv ∧ (logPush s r).rst = s.rst ∧
    (logPush s r).flash = s.flash ∧ (logPush s r).ctrl = s.ctrl ∧ (logPush s r).stage = s.stage ∧
    (logPush s r).sensors = s.sensors ∧ (logPush s r).planner = s.planner ∧ (logPush s r).can = s.can ∧
    (logPush s r).clients = s.clients ∧ (logPush s r).windows = s.windows ∧ (logPush s r).firmware = s.firmware ∧
    (logPush s r).maint = s.maint ∧ (logPush s r).pins = s.pins := by
  unfold logPush; dsimp only; split <;> simp

/-- What emcyEnqueue leaves. -/
@[simp] theorem emcyEnqueue_frame (e : Emcy) :
    (emcyEnqueue s e).now = s.now ∧ (emcyEnqueue s e).free = s.free ∧ (emcyEnqueue s e).pending = s.pending ∧
    (emcyEnqueue s e).dict = s.dict ∧ (emcyEnqueue s e).lap = s.lap ∧ (emcyEnqueue s e).disp = s.disp ∧
    (emcyEnqueue s e).chans = s.chans ∧ (emcyEnqueue s e).streams = s.streams ∧ (emcyEnqueue s e).rois = s.rois ∧
    (emcyEnqueue s e).lanes = s.lanes ∧ (emcyEnqueue s e).links = s.links ∧ (emcyEnqueue s e).input = s.input ∧
    (emcyEnqueue s e).phase = s.phase ∧ (emcyEnqueue s e).ret = s.ret ∧ (emcyEnqueue s e).mon = s.mon ∧
    (emcyEnqueue s e).ports = s.ports ∧ (emcyEnqueue s e).bridge = s.bridge ∧ (emcyEnqueue s e).flows = s.flows ∧
    (emcyEnqueue s e).meters = s.meters ∧ (emcyEnqueue s e).watch = s.watch ∧ (emcyEnqueue s e).counts = s.counts ∧
    (emcyEnqueue s e).time = s.time ∧ (emcyEnqueue s e).dram = s.dram ∧ (emcyEnqueue s e).atu = s.atu ∧
    (emcyEnqueue s e).dma = s.dma ∧ (emcyEnqueue s e).capture = s.capture ∧ (emcyEnqueue s e).relay = s.relay ∧
    (emcyEnqueue s e).baton = s.baton ∧ (emcyEnqueue s e).selfTest = s.selfTest ∧
    (emcyEnqueue s e).standIns = s.standIns ∧ (emcyEnqueue s e).boot = s.boot ∧ (emcyEnqueue s e).slots = s.slots ∧
    (emcyEnqueue s e).snaps = s.snaps ∧ (emcyEnqueue s e).cv = s.cv ∧ (emcyEnqueue s e).rst = s.rst ∧
    (emcyEnqueue s e).flash = s.flash ∧ (emcyEnqueue s e).ctrl = s.ctrl ∧ (emcyEnqueue s e).stage = s.stage ∧
    (emcyEnqueue s e).sensors = s.sensors ∧ (emcyEnqueue s e).planner = s.planner ∧ (emcyEnqueue s e).can = s.can ∧
    (emcyEnqueue s e).clients = s.clients ∧ (emcyEnqueue s e).windows = s.windows ∧
    (emcyEnqueue s e).firmware = s.firmware ∧ (emcyEnqueue s e).maint = s.maint ∧ (emcyEnqueue s e).pins = s.pins := by
  unfold emcyEnqueue; dsimp only; split <;> (try split) <;> simp

/-- What emcyPost leaves. -/
@[simp] theorem emcyPost_frame (c l u d : Nat) :
    (emcyPost s c l u d).now = s.now ∧ (emcyPost s c l u d).free = s.free ∧ (emcyPost s c l u d).pending = s.pending ∧
    (emcyPost s c l u d).dict = s.dict ∧ (emcyPost s c l u d).lap = s.lap ∧ (emcyPost s c l u d).disp = s.disp ∧
    (emcyPost s c l u d).chans = s.chans ∧ (emcyPost s c l u d).streams = s.streams ∧
    (emcyPost s c l u d).rois = s.rois ∧ (emcyPost s c l u d).lanes = s.lanes ∧ (emcyPost s c l u d).links = s.links ∧
    (emcyPost s c l u d).input = s.input ∧ (emcyPost s c l u d).phase = s.phase ∧ (emcyPost s c l u d).ret = s.ret ∧
    (emcyPost s c l u d).mon = s.mon ∧ (emcyPost s c l u d).ports = s.ports ∧ (emcyPost s c l u d).bridge = s.bridge ∧
    (emcyPost s c l u d).flows = s.flows ∧ (emcyPost s c l u d).meters = s.meters ∧
    (emcyPost s c l u d).watch = s.watch ∧ (emcyPost s c l u d).counts = s.counts ∧ (emcyPost s c l u d).time = s.time ∧
    (emcyPost s c l u d).dram = s.dram ∧ (emcyPost s c l u d).atu = s.atu ∧ (emcyPost s c l u d).dma = s.dma ∧
    (emcyPost s c l u d).capture = s.capture ∧ (emcyPost s c l u d).relay = s.relay ∧
    (emcyPost s c l u d).baton = s.baton ∧ (emcyPost s c l u d).selfTest = s.selfTest ∧
    (emcyPost s c l u d).standIns = s.standIns ∧ (emcyPost s c l u d).boot = s.boot ∧
    (emcyPost s c l u d).slots = s.slots ∧ (emcyPost s c l u d).snaps = s.snaps ∧ (emcyPost s c l u d).cv = s.cv ∧
    (emcyPost s c l u d).rst = s.rst ∧ (emcyPost s c l u d).flash = s.flash ∧ (emcyPost s c l u d).ctrl = s.ctrl ∧
    (emcyPost s c l u d).stage = s.stage ∧ (emcyPost s c l u d).sensors = s.sensors ∧
    (emcyPost s c l u d).planner = s.planner ∧ (emcyPost s c l u d).can = s.can ∧
    (emcyPost s c l u d).clients = s.clients ∧ (emcyPost s c l u d).windows = s.windows ∧
    (emcyPost s c l u d).firmware = s.firmware ∧ (emcyPost s c l u d).maint = s.maint ∧
    (emcyPost s c l u d).pins = s.pins := by
  simp [emcyPost]

/-- What raiseEmcyWith leaves. -/
@[simp] theorem raiseEmcyWith_frame (c l u d : Nat) :
    (raiseEmcyWith s c l u d).now = s.now ∧ (raiseEmcyWith s c l u d).free = s.free ∧
    (raiseEmcyWith s c l u d).pending = s.pending ∧ (raiseEmcyWith s c l u d).dict = s.dict ∧
    (raiseEmcyWith s c l u d).lap = s.lap ∧ (raiseEmcyWith s c l u d).disp = s.disp ∧
    (raiseEmcyWith s c l u d).chans = s.chans ∧ (raiseEmcyWith s c l u d).streams = s.streams ∧
    (raiseEmcyWith s c l u d).rois = s.rois ∧ (raiseEmcyWith s c l u d).lanes = s.lanes ∧
    (raiseEmcyWith s c l u d).links = s.links ∧ (raiseEmcyWith s c l u d).input = s.input ∧
    (raiseEmcyWith s c l u d).phase = s.phase ∧ (raiseEmcyWith s c l u d).ret = s.ret ∧
    (raiseEmcyWith s c l u d).mon = s.mon ∧ (raiseEmcyWith s c l u d).ports = s.ports ∧
    (raiseEmcyWith s c l u d).bridge = s.bridge ∧ (raiseEmcyWith s c l u d).flows = s.flows ∧
    (raiseEmcyWith s c l u d).meters = s.meters ∧ (raiseEmcyWith s c l u d).watch = s.watch ∧
    (raiseEmcyWith s c l u d).counts = s.counts ∧ (raiseEmcyWith s c l u d).time = s.time ∧
    (raiseEmcyWith s c l u d).dram = s.dram ∧ (raiseEmcyWith s c l u d).atu = s.atu ∧
    (raiseEmcyWith s c l u d).dma = s.dma ∧ (raiseEmcyWith s c l u d).capture = s.capture ∧
    (raiseEmcyWith s c l u d).relay = s.relay ∧ (raiseEmcyWith s c l u d).baton = s.baton ∧
    (raiseEmcyWith s c l u d).selfTest = s.selfTest ∧ (raiseEmcyWith s c l u d).standIns = s.standIns ∧
    (raiseEmcyWith s c l u d).boot = s.boot ∧ (raiseEmcyWith s c l u d).slots = s.slots ∧
    (raiseEmcyWith s c l u d).snaps = s.snaps ∧ (raiseEmcyWith s c l u d).cv = s.cv ∧
    (raiseEmcyWith s c l u d).rst = s.rst ∧ (raiseEmcyWith s c l u d).flash = s.flash ∧
    (raiseEmcyWith s c l u d).ctrl = s.ctrl ∧ (raiseEmcyWith s c l u d).stage = s.stage ∧
    (raiseEmcyWith s c l u d).sensors = s.sensors ∧ (raiseEmcyWith s c l u d).planner = s.planner ∧
    (raiseEmcyWith s c l u d).can = s.can ∧ (raiseEmcyWith s c l u d).clients = s.clients ∧
    (raiseEmcyWith s c l u d).windows = s.windows ∧ (raiseEmcyWith s c l u d).firmware = s.firmware ∧
    (raiseEmcyWith s c l u d).maint = s.maint ∧ (raiseEmcyWith s c l u d).pins = s.pins := by
  unfold raiseEmcyWith; dsimp only; split <;> simp

/-- What raiseEmcy leaves. -/
@[simp] theorem raiseEmcy_frame (c k i : Nat) :
    (raiseEmcy s c k i).now = s.now ∧ (raiseEmcy s c k i).free = s.free ∧ (raiseEmcy s c k i).pending = s.pending ∧
    (raiseEmcy s c k i).dict = s.dict ∧ (raiseEmcy s c k i).lap = s.lap ∧ (raiseEmcy s c k i).disp = s.disp ∧
    (raiseEmcy s c k i).chans = s.chans ∧ (raiseEmcy s c k i).streams = s.streams ∧ (raiseEmcy s c k i).rois = s.rois ∧
    (raiseEmcy s c k i).lanes = s.lanes ∧ (raiseEmcy s c k i).links = s.links ∧ (raiseEmcy s c k i).input = s.input ∧
    (raiseEmcy s c k i).phase = s.phase ∧ (raiseEmcy s c k i).ret = s.ret ∧ (raiseEmcy s c k i).mon = s.mon ∧
    (raiseEmcy s c k i).ports = s.ports ∧ (raiseEmcy s c k i).bridge = s.bridge ∧ (raiseEmcy s c k i).flows = s.flows ∧
    (raiseEmcy s c k i).meters = s.meters ∧ (raiseEmcy s c k i).watch = s.watch ∧
    (raiseEmcy s c k i).counts = s.counts ∧ (raiseEmcy s c k i).time = s.time ∧ (raiseEmcy s c k i).dram = s.dram ∧
    (raiseEmcy s c k i).atu = s.atu ∧ (raiseEmcy s c k i).dma = s.dma ∧ (raiseEmcy s c k i).capture = s.capture ∧
    (raiseEmcy s c k i).relay = s.relay ∧ (raiseEmcy s c k i).baton = s.baton ∧
    (raiseEmcy s c k i).selfTest = s.selfTest ∧ (raiseEmcy s c k i).standIns = s.standIns ∧
    (raiseEmcy s c k i).boot = s.boot ∧ (raiseEmcy s c k i).slots = s.slots ∧ (raiseEmcy s c k i).snaps = s.snaps ∧
    (raiseEmcy s c k i).cv = s.cv ∧ (raiseEmcy s c k i).rst = s.rst ∧ (raiseEmcy s c k i).flash = s.flash ∧
    (raiseEmcy s c k i).ctrl = s.ctrl ∧ (raiseEmcy s c k i).stage = s.stage ∧ (raiseEmcy s c k i).sensors = s.sensors ∧
    (raiseEmcy s c k i).planner = s.planner ∧ (raiseEmcy s c k i).can = s.can ∧
    (raiseEmcy s c k i).clients = s.clients ∧ (raiseEmcy s c k i).windows = s.windows ∧
    (raiseEmcy s c k i).firmware = s.firmware ∧ (raiseEmcy s c k i).maint = s.maint ∧
    (raiseEmcy s c k i).pins = s.pins := by
  simp [raiseEmcy]

/-- What raiseEmcyOf leaves. -/
@[simp] theorem raiseEmcyOf_frame (u : UnitId) (c k i : Nat) :
    (raiseEmcyOf s u c k i).now = s.now ∧ (raiseEmcyOf s u c k i).free = s.free ∧
    (raiseEmcyOf s u c k i).pending = s.pending ∧ (raiseEmcyOf s u c k i).dict = s.dict ∧
    (raiseEmcyOf s u c k i).lap = s.lap ∧ (raiseEmcyOf s u c k i).disp = s.disp ∧
    (raiseEmcyOf s u c k i).chans = s.chans ∧ (raiseEmcyOf s u c k i).streams = s.streams ∧
    (raiseEmcyOf s u c k i).rois = s.rois ∧ (raiseEmcyOf s u c k i).lanes = s.lanes ∧
    (raiseEmcyOf s u c k i).links = s.links ∧ (raiseEmcyOf s u c k i).input = s.input ∧
    (raiseEmcyOf s u c k i).phase = s.phase ∧ (raiseEmcyOf s u c k i).ret = s.ret ∧
    (raiseEmcyOf s u c k i).mon = s.mon ∧ (raiseEmcyOf s u c k i).ports = s.ports ∧
    (raiseEmcyOf s u c k i).bridge = s.bridge ∧ (raiseEmcyOf s u c k i).flows = s.flows ∧
    (raiseEmcyOf s u c k i).meters = s.meters ∧ (raiseEmcyOf s u c k i).watch = s.watch ∧
    (raiseEmcyOf s u c k i).counts = s.counts ∧ (raiseEmcyOf s u c k i).time = s.time ∧
    (raiseEmcyOf s u c k i).dram = s.dram ∧ (raiseEmcyOf s u c k i).atu = s.atu ∧ (raiseEmcyOf s u c k i).dma = s.dma ∧
    (raiseEmcyOf s u c k i).capture = s.capture ∧ (raiseEmcyOf s u c k i).relay = s.relay ∧
    (raiseEmcyOf s u c k i).baton = s.baton ∧ (raiseEmcyOf s u c k i).selfTest = s.selfTest ∧
    (raiseEmcyOf s u c k i).standIns = s.standIns ∧ (raiseEmcyOf s u c k i).boot = s.boot ∧
    (raiseEmcyOf s u c k i).slots = s.slots ∧ (raiseEmcyOf s u c k i).snaps = s.snaps ∧
    (raiseEmcyOf s u c k i).cv = s.cv ∧ (raiseEmcyOf s u c k i).rst = s.rst ∧ (raiseEmcyOf s u c k i).flash = s.flash ∧
    (raiseEmcyOf s u c k i).ctrl = s.ctrl ∧ (raiseEmcyOf s u c k i).stage = s.stage ∧
    (raiseEmcyOf s u c k i).sensors = s.sensors ∧ (raiseEmcyOf s u c k i).planner = s.planner ∧
    (raiseEmcyOf s u c k i).can = s.can ∧ (raiseEmcyOf s u c k i).clients = s.clients ∧
    (raiseEmcyOf s u c k i).windows = s.windows ∧ (raiseEmcyOf s u c k i).firmware = s.firmware ∧
    (raiseEmcyOf s u c k i).maint = s.maint ∧ (raiseEmcyOf s u c k i).pins = s.pins := by
  simp [raiseEmcyOf]

/-- What logNote leaves. -/
@[simp] theorem logNote_frame (a k i : Nat) :
    (logNote s a k i).now = s.now ∧ (logNote s a k i).free = s.free ∧ (logNote s a k i).pending = s.pending ∧
    (logNote s a k i).dict = s.dict ∧ (logNote s a k i).emcy = s.emcy ∧ (logNote s a k i).lap = s.lap ∧
    (logNote s a k i).disp = s.disp ∧ (logNote s a k i).chans = s.chans ∧ (logNote s a k i).streams = s.streams ∧
    (logNote s a k i).rois = s.rois ∧ (logNote s a k i).lanes = s.lanes ∧ (logNote s a k i).links = s.links ∧
    (logNote s a k i).input = s.input ∧ (logNote s a k i).phase = s.phase ∧ (logNote s a k i).ret = s.ret ∧
    (logNote s a k i).mon = s.mon ∧ (logNote s a k i).ports = s.ports ∧ (logNote s a k i).bridge = s.bridge ∧
    (logNote s a k i).flows = s.flows ∧ (logNote s a k i).meters = s.meters ∧ (logNote s a k i).watch = s.watch ∧
    (logNote s a k i).counts = s.counts ∧ (logNote s a k i).time = s.time ∧ (logNote s a k i).dram = s.dram ∧
    (logNote s a k i).atu = s.atu ∧ (logNote s a k i).dma = s.dma ∧ (logNote s a k i).capture = s.capture ∧
    (logNote s a k i).relay = s.relay ∧ (logNote s a k i).baton = s.baton ∧ (logNote s a k i).selfTest = s.selfTest ∧
    (logNote s a k i).standIns = s.standIns ∧ (logNote s a k i).boot = s.boot ∧ (logNote s a k i).slots = s.slots ∧
    (logNote s a k i).snaps = s.snaps ∧ (logNote s a k i).cv = s.cv ∧ (logNote s a k i).rst = s.rst ∧
    (logNote s a k i).flash = s.flash ∧ (logNote s a k i).ctrl = s.ctrl ∧ (logNote s a k i).stage = s.stage ∧
    (logNote s a k i).sensors = s.sensors ∧ (logNote s a k i).planner = s.planner ∧ (logNote s a k i).can = s.can ∧
    (logNote s a k i).clients = s.clients ∧ (logNote s a k i).windows = s.windows ∧
    (logNote s a k i).firmware = s.firmware ∧ (logNote s a k i).maint = s.maint ∧ (logNote s a k i).pins = s.pins := by
  simp [logNote]

/-- What logNoteLimited leaves. -/
@[simp] theorem logNoteLimited_frame (a k i : Nat) :
    (logNoteLimited s a k i).now = s.now ∧ (logNoteLimited s a k i).free = s.free ∧
    (logNoteLimited s a k i).pending = s.pending ∧ (logNoteLimited s a k i).dict = s.dict ∧
    (logNoteLimited s a k i).lap = s.lap ∧ (logNoteLimited s a k i).disp = s.disp ∧
    (logNoteLimited s a k i).chans = s.chans ∧ (logNoteLimited s a k i).streams = s.streams ∧
    (logNoteLimited s a k i).rois = s.rois ∧ (logNoteLimited s a k i).lanes = s.lanes ∧
    (logNoteLimited s a k i).links = s.links ∧ (logNoteLimited s a k i).input = s.input ∧
    (logNoteLimited s a k i).phase = s.phase ∧ (logNoteLimited s a k i).ret = s.ret ∧
    (logNoteLimited s a k i).mon = s.mon ∧ (logNoteLimited s a k i).ports = s.ports ∧
    (logNoteLimited s a k i).bridge = s.bridge ∧ (logNoteLimited s a k i).flows = s.flows ∧
    (logNoteLimited s a k i).meters = s.meters ∧ (logNoteLimited s a k i).watch = s.watch ∧
    (logNoteLimited s a k i).counts = s.counts ∧ (logNoteLimited s a k i).time = s.time ∧
    (logNoteLimited s a k i).dram = s.dram ∧ (logNoteLimited s a k i).atu = s.atu ∧
    (logNoteLimited s a k i).dma = s.dma ∧ (logNoteLimited s a k i).capture = s.capture ∧
    (logNoteLimited s a k i).relay = s.relay ∧ (logNoteLimited s a k i).baton = s.baton ∧
    (logNoteLimited s a k i).selfTest = s.selfTest ∧ (logNoteLimited s a k i).standIns = s.standIns ∧
    (logNoteLimited s a k i).boot = s.boot ∧ (logNoteLimited s a k i).slots = s.slots ∧
    (logNoteLimited s a k i).snaps = s.snaps ∧ (logNoteLimited s a k i).cv = s.cv ∧
    (logNoteLimited s a k i).rst = s.rst ∧ (logNoteLimited s a k i).flash = s.flash ∧
    (logNoteLimited s a k i).ctrl = s.ctrl ∧ (logNoteLimited s a k i).stage = s.stage ∧
    (logNoteLimited s a k i).sensors = s.sensors ∧ (logNoteLimited s a k i).planner = s.planner ∧
    (logNoteLimited s a k i).can = s.can ∧ (logNoteLimited s a k i).clients = s.clients ∧
    (logNoteLimited s a k i).windows = s.windows ∧ (logNoteLimited s a k i).firmware = s.firmware ∧
    (logNoteLimited s a k i).maint = s.maint ∧ (logNoteLimited s a k i).pins = s.pins := by
  unfold logNoteLimited; dsimp only; split <;> simp

/-- What settleRegister leaves. -/
@[simp] theorem settleRegister_frame :
    (settleRegister s).now = s.now ∧ (settleRegister s).free = s.free ∧ (settleRegister s).pending = s.pending ∧
    (settleRegister s).dict = s.dict ∧ (settleRegister s).lap = s.lap ∧ (settleRegister s).disp = s.disp ∧
    (settleRegister s).chans = s.chans ∧ (settleRegister s).streams = s.streams ∧ (settleRegister s).rois = s.rois ∧
    (settleRegister s).lanes = s.lanes ∧ (settleRegister s).links = s.links ∧ (settleRegister s).input = s.input ∧
    (settleRegister s).phase = s.phase ∧ (settleRegister s).ret = s.ret ∧ (settleRegister s).mon = s.mon ∧
    (settleRegister s).ports = s.ports ∧ (settleRegister s).bridge = s.bridge ∧ (settleRegister s).flows = s.flows ∧
    (settleRegister s).meters = s.meters ∧ (settleRegister s).watch = s.watch ∧ (settleRegister s).counts = s.counts ∧
    (settleRegister s).time = s.time ∧ (settleRegister s).dram = s.dram ∧ (settleRegister s).atu = s.atu ∧
    (settleRegister s).dma = s.dma ∧ (settleRegister s).capture = s.capture ∧ (settleRegister s).relay = s.relay ∧
    (settleRegister s).baton = s.baton ∧ (settleRegister s).selfTest = s.selfTest ∧
    (settleRegister s).standIns = s.standIns ∧ (settleRegister s).boot = s.boot ∧ (settleRegister s).slots = s.slots ∧
    (settleRegister s).snaps = s.snaps ∧ (settleRegister s).cv = s.cv ∧ (settleRegister s).rst = s.rst ∧
    (settleRegister s).flash = s.flash ∧ (settleRegister s).ctrl = s.ctrl ∧ (settleRegister s).stage = s.stage ∧
    (settleRegister s).sensors = s.sensors ∧ (settleRegister s).planner = s.planner ∧ (settleRegister s).can = s.can ∧
    (settleRegister s).clients = s.clients ∧ (settleRegister s).windows = s.windows ∧
    (settleRegister s).firmware = s.firmware ∧ (settleRegister s).maint = s.maint ∧
    (settleRegister s).pins = s.pins := by
  unfold settleRegister; dsimp only; split <;> simp

end Sys2Proof.Machine
end

