-- ==== Sys2Proof/Laws/Store.lean ====
section
/-! SUPPORT. The sparse stores: a read after a write, and that a write keeps the canonical form; register words, vectors and
pairs after an update. -/

namespace Sys2Proof.Machine

/-! ## Sparse lists -/

theorem assocGet_unlisted {α : Type} (d : Nat → α) (l : List (Nat × α)) (k : Nat) (h : ∀ p ∈ l, k < p.1) :
    assocGet d l k = d k := by
  induction l with
  | nil => rfl
  | cons p t ih =>
    have := h p (by simp)
    rw [assocGet, if_neg (by omega)]
    exact ih fun q hq => h q (by simp [hq])

theorem assocPut_bound {α : Type} [DecidableEq α] (d : Nat → α) (l : List (Nat × α)) (k : Nat) (v : α) (j : Nat)
    (hj : j < k) (h : ∀ p ∈ l, j < p.1) : ∀ p ∈ assocPut d l k v, j < p.1 := by
  induction l with
  | nil => unfold assocPut; split <;> simp [hj]
  | cons q t ih =>
    have hq := h q (by simp)
    have ht : ∀ p ∈ t, j < p.1 := fun p hp => h p (by simp [hp])
    unfold assocPut
    split
    · split
      · simpa [hq] using ht
      · simpa [hj, hq] using ht
    · split
      · split
        · exact ht
        · simpa [hj] using ht
      · simpa [hq] using ih ht

theorem assocWf_cons {α : Type} [DecidableEq α] (d : Nat → α) (p : Nat × α) (t : List (Nat × α)) :
    assocWf d (p :: t) = true ↔ p.2 ≠ d p.1 ∧ (∀ q ∈ t, p.1 < q.1) ∧ assocWf d t = true := by
  simp [assocWf, and_assoc]

/-- A write keeps the canonical form. -/
theorem assocPut_wf {α : Type} [DecidableEq α] (d : Nat → α) (l : List (Nat × α)) (k : Nat) (v : α)
    (h : assocWf d l = true) : assocWf d (assocPut d l k v) = true := by
  induction l with
  | nil => unfold assocPut; split <;> simp_all [assocWf]
  | cons q t ih =>
    obtain ⟨h1, h2, h3⟩ := (assocWf_cons d q t).1 h
    unfold assocPut
    split
    · rename_i hlt
      split
      · exact h
      · rename_i hv
        refine (assocWf_cons d _ _).2 ⟨hv, ?_, h⟩
        intro p hp
        rcases List.mem_cons.1 hp with rfl | hp
        · exact hlt
        · exact Nat.lt_trans hlt (h2 p hp)
    · split
      · rename_i hlt heq
        split
        · exact h3
        · rename_i hv
          exact (assocWf_cons d _ _).2 ⟨hv, fun p hp => by rw [heq]; exact h2 p hp, h3⟩
      · rename_i hlt hne
        exact (assocWf_cons d _ _).2 ⟨h1, assocPut_bound d t k v q.1 (by omega) h2, ih h3⟩

/-- A part of a store in canonical form is in canonical form. -/
theorem assocWf_filter {α : Type} [DecidableEq α] (d : Nat → α) (p : Nat × α → Bool) (l : List (Nat × α))
    (h : assocWf d l = true) : assocWf d (l.filter p) = true := by
  induction l with
  | nil => rfl
  | cons q t ih =>
    obtain ⟨h1, h2, h3⟩ := (assocWf_cons d q t).1 h
    rw [List.filter_cons]
    split
    · exact (assocWf_cons d _ _).2 ⟨h1, fun r hr => h2 r (List.mem_of_mem_filter hr), ih h3⟩
    · exact ih h3

/-- The key written reads the value. -/
theorem assocGet_put_same {α : Type} [DecidableEq α] (d : Nat → α) (l : List (Nat × α)) (k : Nat) (v : α)
    (h : assocWf d l = true) : assocGet d (assocPut d l k v) k = v := by
  induction l with
  | nil => unfold assocPut; split <;> simp_all [assocGet]
  | cons q t ih =>
    obtain ⟨_, h2, h3⟩ := (assocWf_cons d q t).1 h
    unfold assocPut
    split
    · rename_i hlt
      split
      · rename_i hv
        rw [assocGet, if_neg (by omega), assocGet_unlisted d t k fun p hp => Nat.lt_trans hlt (h2 p hp), hv]
      · simp [assocGet]
    · split
      · rename_i hlt heq
        split
        · rename_i hv
          rw [assocGet_unlisted d t k fun p hp => by rw [heq]; exact h2 p hp, hv]
        · simp [assocGet]
      · rename_i hlt hne
        rw [assocGet, if_neg hne, ih h3]

/-- Every other key reads as before. -/
theorem assocGet_put_other {α : Type} [DecidableEq α] (d : Nat → α) (l : List (Nat × α)) (k j : Nat) (v : α)
    (h : j ≠ k) : assocGet d (assocPut d l k v) j = assocGet d l j := by
  induction l with
  | nil => unfold assocPut; split <;> simp [assocGet, h]
  | cons q t ih =>
    unfold assocPut
    split
    · split
      · rfl
      · simp [assocGet, h]
    · split
      · rename_i hlt heq
        split
        · rw [assocGet, if_neg (by omega)]
        · simp [assocGet, h, ← heq]
      · simp only [assocGet, ih]

/-! ## Vectors and pairs -/

theorem vector_get_eq {α : Type} {n : Nat} (v : Vector α n) (i : Fin n) : v.get i = v[i.val] := rfl

@[simp] theorem vmod_get_same {α : Type} {n : Nat} (v : Vector α n) (i : Fin n) (f : α → α) :
    (vmod v i f).get i = f (v.get i) := by
  rw [vector_get_eq, vector_get_eq]
  exact Vector.getElem_set_self i.isLt

theorem vmod_get_other {α : Type} {n : Nat} (v : Vector α n) (i j : Fin n) (f : α → α) (h : j ≠ i) :
    (vmod v i f).get j = v.get j := by
  rw [vector_get_eq, vector_get_eq]
  exact Vector.getElem_set_ne i.isLt j.isLt fun e => h (Fin.ext e.symm)

@[simp] theorem pair_set_get {α : Type} (p : Pair α) (u : UnitId) (x : α) : (p.set u x).get u = x := by cases u <;> rfl

@[simp] theorem pair_set_other {α : Type} (p : Pair α) (u : UnitId) (x : α) : (p.set u x).get u.other = p.get u.other := by
  cases u <;> rfl

@[simp] theorem pair_mod_get {α : Type} (p : Pair α) (u : UnitId) (f : α → α) : (p.mod u f).get u = f (p.get u) := by
  simp [Pair.mod]

@[simp] theorem pair_mod_other {α : Type} (p : Pair α) (u : UnitId) (f : α → α) :
    (p.mod u f).get u.other = p.get u.other := by
  simp [Pair.mod]

/-! ## Register words -/

theorem regGet_regPut_same (s : State) (k v : Nat) (h : assocWf defaultOf s.regs = true) :
    regGet (regPut s k v) k = v % 2 ^ widthOf k := assocGet_put_same _ _ _ _ h

theorem regGet_regPut_other (s : State) (k j v : Nat) (h : j ≠ k) : regGet (regPut s k v) j = regGet s j :=
  assocGet_put_other _ _ _ _ _ h

theorem regPut_wf (s : State) (k v : Nat) (h : assocWf defaultOf s.regs = true) :
    assocWf defaultOf (regPut s k v).regs = true := assocPut_wf _ _ _ _ h

/-- Raising a bit raises that bit and no other. -/
theorem flag_setFlag (s : State) (k b j : Nat) (h : assocWf defaultOf s.regs = true) :
    flag (setFlag s k b) k j = ((flag s k j || decide (j = b)) && decide (j < widthOf k)) := by
  unfold flag setFlag
  rw [regGet_regPut_same _ _ _ h, Nat.testBit_mod_two_pow, Nat.testBit_or, Nat.testBit_shiftLeft]
  have one : Nat.testBit 1 (j - b) = decide (j - b = 0) := by
    cases h0 : j - b with
    | zero => rfl
    | succ m => simp [Nat.testBit_succ]
  rw [one]
  have key : (decide (b ≤ j) && decide (j - b = 0)) = decide (j = b) := by
    rw [← Bool.decide_and]; exact decide_eq_decide.2 (by omega)
  rw [key, Bool.and_comm]

end Sys2Proof.Machine
end

