-- ==== Sys2Proof/Laws/Clients.lean ====
section
/-! SUPPORT. What serving a client's write does: acknowledged with its effect, refused with nothing but the answer, or not
heard. -/

namespace Sys2Proof.Machine

theorem serveWrite_ok {s t : State} {k : Client} {i : Nat} {f : State → Except Abort State} (h : Served s k i)
    (hf : f (touchClient s k) = .ok t) : serveWrite s k i f = answer t k .ack := by
  simp [serveWrite, h.1, h.2, hf]

theorem serveWrite_error {s : State} {k : Client} {i : Nat} {a : Abort} {f : State → Except Abort State} (h : Served s k i)
    (hf : f (touchClient s k) = .error a) : serveWrite s k i f = answer s k (.abort a) := by
  simp [serveWrite, h.1, h.2, hf]

theorem serveWrite_gate {s : State} {k : Client} {i : Nat} {a : Abort} (f : State → Except Abort State)
    (h : serves s k i = true) (hg : writeGate s k i = some a) : serveWrite s k i f = answer s k (.abort a) := by
  simp [serveWrite, h, hg]

theorem serveWrite_unheard {s : State} {k : Client} {i : Nat} (f : State → Except Abort State) (h : serves s k i = false) :
    serveWrite s k i f = s := by
  simp [serveWrite, h]

theorem serveTrace_ok {s : State} {k : Client} {i : Nat} {f : State → State × Option Abort} (h : Served s k i)
    (hf : (f (touchClient s k)).2 = none) : serveTrace s k i f = answer (f (touchClient s k)).1 k .ack := by
  simp [serveTrace, h.1, h.2, hf]

theorem serveTrace_error {s : State} {k : Client} {i : Nat} {a : Abort} {f : State → State × Option Abort} (h : Served s k i)
    (hf : (f (touchClient s k)).2 = some a) : serveTrace s k i f = answer (f (touchClient s k)).1 k (.abort a) := by
  simp [serveTrace, h.1, h.2, hf]

end Sys2Proof.Machine
end

