-- ==== Sys2Proof/Laws/KeptOps.lean ====
section
/-! SUPPORT. What every operation and every command keeps, part by part: the shared operations, the operand vectors, the lanes and the flows. -/

namespace Sys2Proof.Machine

/-- What a state is held against: a time, a queue, and whether the stores' form is asked for. -/
structure Base where
  now : Nat
  pending : List Instr
  stores : Prop

/-- A time, a queue and stores as the base asks. -/
def KeptC (B : Base) (now : Nat) (pending : List Instr) (regs m a b ap : Store) (x y : List Host.Cell)
   (l1 l2 : List (Nat × Nat)) (ov : List Nat) (rec : List LogRecord) (er : List Nat) (iu : Store) : Prop :=
  now = B.now ∧ pending = B.pending ∧ (B.stores → assocWf defaultOf regs = true) ∧ (B.stores → assocWf defaultOf m = true) ∧
  (B.stores → assocWf defaultOf a = true) ∧ (B.stores → assocWf defaultOf b = true) ∧ (B.stores → assocWf defaultOf ap = true) ∧
  (B.stores → assocWf unlistedByte x = true) ∧ (B.stores → assocWf unlistedByte y = true) ∧
  (B.stores → assocWf (fun _ => 0) l1 = true) ∧ (B.stores → assocWf (fun _ => 0) l2 = true) ∧
  (B.stores → ov.length ≤ 64) ∧ (B.stores → rec.length ≤ 1024) ∧ (B.stores → er.length ≤ 16) ∧
  (B.stores → assocWf defaultOf iu = true)

/-- The time and the queue are the base's, and where its stores are canonical and bounded so are the state's. -/
@[reducible] def Kept (B : Base) (s : State) : Prop :=
  KeptC B s.now s.pending s.regs s.dict.master s.dict.shadowA s.dict.shadowB s.dict.applied s.dram.a.mem s.dram.b.mem
    s.emcy.lastAt s.emcy.noteAt s.overflow s.log.records s.emcy.errors s.dict.inUse

/-- The outcome is a next state that keeps the base. -/
def OutKept (B : Base) (o : Out) : Prop := ∃ t, o = .next t ∧ Kept B t

/-- A completed object access leaves a state that keeps the base. -/
def OkKept (B : Base) (r : Except Abort State) : Prop := ∀ t, r = .ok t → Kept B t

/-- The same for a read that answers bytes. -/
def OkKeptBytes (B : Base) (r : Except Abort (State × List Byte)) : Prop := ∀ t, r = .ok t → Kept B t.1

/-- The same for an access that may not apply. -/
def OptKept (B : Base) (r : Option (State × WriteEnd)) : Prop := ∀ t, r = some t → Kept B t.1

variable {B : Base}

theorem next_kept {s : State} (h : Kept B s) : OutKept B (.next s) := ⟨s, rfl, h⟩
theorem ok_kept {s : State} (h : Kept B s) : OkKept B (.ok s) := fun _ e => by cases e; exact h
theorem error_kept {a : Abort} : OkKept B (.error a) := fun _ e => by cases e
theorem ok_keptBytes {r : State × List Byte} (h : Kept B r.1) : OkKeptBytes B (.ok r) := fun _ e => by cases e; exact h
theorem error_keptBytes {a : Abort} : OkKeptBytes B (.error a) := fun _ e => by cases e
theorem some_kept {x : State × WriteEnd} (h : Kept B x.1) : OptKept B (some x) := fun _ e => by cases e; exact h
theorem none_kept : OptKept B none := fun _ e => by cases e

theorem overflow_kept {s : State} {l : List Nat} (h : Kept B s) (hl : B.stores → l.length ≤ 64) : Kept B { s with overflow := l } := by
  obtain ⟨h1, h2, h3, h4, h5, h6, h7, h8, h9, h10, h11, _, h13⟩ := h
  exact ⟨h1, h2, h3, h4, h5, h6, h7, h8, h9, h10, h11, hl, h13⟩

theorem dict_kept {s : State} {d : DictState} (h : Kept B s) (hm : B.stores → assocWf defaultOf d.master = true)
    (ha : B.stores → assocWf defaultOf d.shadowA = true) (hb : B.stores → assocWf defaultOf d.shadowB = true)
    (hp : B.stores → assocWf defaultOf d.applied = true) (hu : B.stores → assocWf defaultOf d.inUse = true) :
    Kept B { s with dict := d } := by
  obtain ⟨h1, h2, h3, _, _, _, _, h8, h9, h10, h11, h12, h13, h14, _⟩ := h
  exact ⟨h1, h2, h3, hm, ha, hb, hp, h8, h9, h10, h11, h12, h13, h14, hu⟩

theorem emcy_kept {s : State} {e : EmcyState} (h : Kept B s) (hl : B.stores → assocWf (fun _ => 0) e.lastAt = true)
    (hn : B.stores → assocWf (fun _ => 0) e.noteAt = true) (he : B.stores → e.errors.length ≤ 16) : Kept B { s with emcy := e } := by
  obtain ⟨h1, h2, h3, h4, h5, h6, h7, h8, h9, _, _, h12, h13, _, h15⟩ := h
  exact ⟨h1, h2, h3, h4, h5, h6, h7, h8, h9, hl, hn, h12, h13, he, h15⟩

theorem log_kept {s : State} {l : LogState} (h : Kept B s) (hl : B.stores → l.records.length ≤ 1024) :
    Kept B { s with log := l } := by
  obtain ⟨h1, h2, h3, h4, h5, h6, h7, h8, h9, h10, h11, h12, _, h14⟩ := h
  exact ⟨h1, h2, h3, h4, h5, h6, h7, h8, h9, h10, h11, h12, hl, h14⟩

theorem dram_kept {s : State} {d : Pair DramState} (h : Kept B s) (ha : B.stores → assocWf unlistedByte d.a.mem = true)
    (hb : B.stores → assocWf unlistedByte d.b.mem = true) : Kept B { s with dram := d } := by
  obtain ⟨h1, h2, h3, h4, h5, h6, h7, _, _, h10⟩ := h
  exact ⟨h1, h2, h3, h4, h5, h6, h7, ha, hb, h10⟩

theorem Kept.master {s : State} (h : Kept B s) : B.stores → assocWf defaultOf s.dict.master = true := h.2.2.2.1
theorem Kept.shadowA {s : State} (h : Kept B s) : B.stores → assocWf defaultOf s.dict.shadowA = true := h.2.2.2.2.1
theorem Kept.shadowB {s : State} (h : Kept B s) : B.stores → assocWf defaultOf s.dict.shadowB = true := h.2.2.2.2.2.1
theorem Kept.applied {s : State} (h : Kept B s) : B.stores → assocWf defaultOf s.dict.applied = true := h.2.2.2.2.2.2.1
theorem Kept.memA {s : State} (h : Kept B s) : B.stores → assocWf unlistedByte s.dram.a.mem = true := h.2.2.2.2.2.2.2.1
theorem Kept.memB {s : State} (h : Kept B s) : B.stores → assocWf unlistedByte s.dram.b.mem = true := h.2.2.2.2.2.2.2.2.1
theorem Kept.mem {s : State} (h : Kept B s) (u : UnitId) : B.stores → assocWf unlistedByte (s.dram.get u).mem = true := by
  cases u
  · exact h.memA
  · exact h.memB
theorem Kept.lastAt {s : State} (h : Kept B s) : B.stores → assocWf (fun _ => 0) s.emcy.lastAt = true := h.2.2.2.2.2.2.2.2.2.1
theorem Kept.noteAt {s : State} (h : Kept B s) : B.stores → assocWf (fun _ => 0) s.emcy.noteAt = true := h.2.2.2.2.2.2.2.2.2.2.1
theorem Kept.overflow {s : State} (h : Kept B s) : B.stores → s.overflow.length ≤ 64 := h.2.2.2.2.2.2.2.2.2.2.2.1
theorem Kept.records {s : State} (h : Kept B s) : B.stores → s.log.records.length ≤ 1024 := h.2.2.2.2.2.2.2.2.2.2.2.2.1
theorem Kept.errors {s : State} (h : Kept B s) : B.stores → s.emcy.errors.length ≤ 16 := h.2.2.2.2.2.2.2.2.2.2.2.2.2.1
theorem Kept.inUse {s : State} (h : Kept B s) : B.stores → assocWf defaultOf s.dict.inUse = true := h.2.2.2.2.2.2.2.2.2.2.2.2.2.2

theorem ite_kept {c : Prop} [Decidable c] {x y : State} (hx : c → Kept B x) (hy : ¬ c → Kept B y) :
    Kept B (if c then x else y) := by
  split
  · exact hx ‹_›
  · exact hy ‹_›

theorem capture_kept {s : State} (c : CaptureState) (h : Kept B s) : Kept B { s with capture := c } := h

theorem planner_kept {s : State} (c : PlannerState) (h : Kept B s) : Kept B { s with planner := c } := h

theorem sensors_kept {s : State} (c : SensorState) (h : Kept B s) : Kept B { s with sensors := c } := h

theorem foldlPair_kept {α β : Type} (f : State × β → α → State × β) (hf : ∀ x a, Kept B x.1 → Kept B (f x a).1)
    (l : List α) (x : State × β) (h : Kept B x.1) : Kept B (l.foldl f x).1 := by
  induction l generalizing x with
  | nil => exact h
  | cons a t ih => exact ih _ (hf _ _ h)

/-! ## Ops -/

theorem regPut_kept (s : State) (k v : Nat) (h : Kept B s) : Kept B (regPut s k v) := by
  obtain ⟨h1, h2, h3, h4⟩ := h
  exact ⟨h1, h2, fun w => assocPut_wf _ _ _ _ (h3 w), h4⟩

theorem setFlag_kept (s : State) (k b : Nat) (hK₀ : Kept B s) :
    Kept B (setFlag s k b) := by
  unfold setFlag
  try dsimp only
  repeat' first
    | with_reducible assumption
    | with_reducible apply regPut_kept

theorem clearFlag_kept (s : State) (k b : Nat) (hK₀ : Kept B s) :
    Kept B (clearFlag s k b) := by
  unfold clearFlag
  try dsimp only
  repeat' first
    | with_reducible assumption
    | with_reducible apply regPut_kept

theorem putFlag_kept (s : State) (k b : Nat) (v : Bool) (hK₀ : Kept B s) :
    Kept B (putFlag s k b v) := by
  unfold putFlag
  try dsimp only
  repeat' first
    | with_reducible assumption
    | with_reducible apply setFlag_kept
    | with_reducible apply clearFlag_kept
    | with_reducible refine ite_kept (fun _ => ?_) (fun _ => ?_)

theorem putField_kept (s : State) (k hi lo v : Nat) (hK₀ : Kept B s) :
    Kept B (putField s k hi lo v) := by
  unfold putField
  try dsimp only
  repeat' first
    | with_reducible assumption
    | with_reducible apply regPut_kept

theorem overflowEnter_kept (s : State) (k part : Nat) (h : Kept B s) : Kept B (overflowEnter s k part) := by
  unfold overflowEnter
  split
  · exact overflow_kept h fun _ => by simp; omega
  · exact setFlag_kept _ _ _ h

theorem bumpBy_kept (s : State) (k n : Nat) (hK₀ : Kept B s) :
    Kept B (bumpBy s k n) := by
  unfold bumpBy
  try dsimp only
  repeat' first
    | with_reducible assumption
    | with_reducible apply regPut_kept
    | with_reducible apply overflowEnter_kept
    | with_reducible refine ite_kept (fun _ => ?_) (fun _ => ?_)

theorem bump_kept (s : State) (k : Nat) (hK₀ : Kept B s) :
    Kept B (bump s k) := by
  unfold bump
  try dsimp only
  repeat' first
    | with_reducible assumption
    | with_reducible apply bumpBy_kept

theorem bumpHalf_kept (s : State) (k : Nat) (high : Bool) (hK₀ : Kept B s) :
    Kept B (bumpHalf s k high) := by
  unfold bumpHalf
  try dsimp only
  repeat' first
    | with_reducible assumption
    | with_reducible apply putField_kept
    | with_reducible apply overflowEnter_kept
    | with_reducible refine ite_kept (fun _ => ?_) (fun _ => ?_)

theorem regMax_kept (s : State) (k v : Nat) (hK₀ : Kept B s) :
    Kept B (regMax s k v) := by
  unfold regMax
  try dsimp only
  repeat' first
    | with_reducible assumption
    | with_reducible apply regPut_kept

theorem commitValue_kept (s : State) (k v : Nat) (toA toB : Bool) (h : Kept B s) :
    Kept B (commitValue s k v toA toB) := by
  refine dict_kept h (fun w => assocPut_wf _ _ _ _ (h.master w)) ?_ ?_ h.applied ?_
  · dsimp only; split
    · exact fun w => assocPut_wf _ _ _ _ (h.shadowA w)
    · exact h.shadowA
  · dsimp only; split
    · exact fun w => assocPut_wf _ _ _ _ (h.shadowB w)
    · exact h.shadowB
  · exact h.inUse

theorem applyValue_kept (s : State) (k v : Nat) (h : Kept B s) : Kept B (applyValue s k v) :=
  dict_kept h h.master h.shadowA h.shadowB (fun w => assocPut_wf _ _ _ _ (h.applied w)) h.inUse

theorem forEach_kept {α : Type} (l : List α) (f : State → α → State) (s : State)
    (hf : ∀ x a, Kept B x → Kept B (f x a)) (h : Kept B s) : Kept B (forEach l f s) := by
  unfold forEach
  induction l generalizing s with
  | nil => exact h
  | cons a t ih => exact ih _ (hf _ _ h)

theorem logPush_kept (s : State) (r : LogRecord) (h : Kept B s) : Kept B (logPush s r) := by
  unfold logPush
  dsimp only
  split
  · exact log_kept (bump_kept _ _ h) fun _ => by simp
  · exact log_kept h fun _ => by simp

theorem emcyEnqueue_kept (s : State) (e : Emcy) (h : Kept B s) : Kept B (emcyEnqueue s e) := by
  unfold emcyEnqueue
  dsimp only
  split
  · exact emcy_kept h h.lastAt h.noteAt h.errors
  · have h1 := setFlag_kept s (key 0x2002 8) 29 h
    split
    · exact h1
    · exact logPush_kept _ _ (emcy_kept h1 h1.lastAt h1.noteAt fun _ => by simp)

theorem emcyPost_kept (s : State) (code level unit detail : Nat) (h : Kept B s) :
    Kept B (emcyPost s code level unit detail) := by
  unfold emcyPost
  dsimp only
  have h1 := fun r => logPush_kept s r h
  exact emcyEnqueue_kept _ _ (emcy_kept (h1 _) (fun w => assocPut_wf _ _ _ _ ((h1 _).lastAt w)) (h1 _).noteAt fun _ => by simp)

theorem logRepeat_length (code : Nat) (l : List LogRecord) : (logRepeat code l).length = l.length := by
  induction l with
  | nil => rfl
  | cons r t ih => unfold logRepeat; split <;> simp [ih]

theorem raiseEmcyWith_kept (s : State) (code level unit detail : Nat) (h : Kept B s) :
    Kept B (raiseEmcyWith s code level unit detail) := by
  unfold raiseEmcyWith
  dsimp only
  split
  · exact log_kept h fun w => by rw [logRepeat_length]; exact h.records w
  · exact emcyPost_kept _ _ _ _ _ h

theorem raiseEmcy_kept (s : State) (code k inst : Nat) (hK₀ : Kept B s) :
    Kept B (raiseEmcy s code k inst) := by
  unfold raiseEmcy
  try dsimp only
  repeat' first
    | with_reducible assumption
    | with_reducible apply raiseEmcyWith_kept

theorem raiseEmcyOf_kept (s : State) (u : UnitId) (code k inst : Nat) (hK₀ : Kept B s) :
    Kept B (raiseEmcyOf s u code k inst) := by
  unfold raiseEmcyOf
  try dsimp only
  repeat' first
    | with_reducible assumption
    | with_reducible apply raiseEmcyWith_kept

theorem asWritten_kept (s : State) (h : Kept B s) : Kept B (asWritten s) :=
  dict_kept h h.master h.shadowA h.shadowB h.applied h.master

theorem cvEnd_kept (s : State) (i : CvId) (result : Nat) (good : Bool) (hK₀ : Kept B s) :
    Kept B (cvEnd s i result good) := by
  unfold cvEnd
  try dsimp only
  repeat' first
    | with_reducible assumption
    | with_reducible apply bump_kept
    | with_reducible apply regPut_kept
    | with_reducible apply setFlag_kept
    | with_reducible refine ite_kept (fun _ => ?_) (fun _ => ?_)

theorem cvGap_kept (s : State) (i : CvId) (hK₀ : Kept B s) :
    Kept B (cvGap s i) := by
  unfold cvGap
  try dsimp only
  repeat' first
    | with_reducible assumption
    | with_reducible apply setFlag_kept
    | with_reducible apply bump_kept

theorem countUnit_kept (s : State) (k : Nat) (half : Option Bool) (n : Nat) (hK₀ : Kept B s) :
    Kept B (countUnit s k half n) := by
  unfold countUnit
  try dsimp only
  repeat' first
    | with_reducible assumption

theorem countPort_kept (s : State) (p : PortId) (sub n : Nat) (hK₀ : Kept B s) :
    Kept B (countPort s p sub n) := by
  unfold countPort
  try dsimp only
  repeat' first
    | with_reducible assumption
    | with_reducible apply countUnit_kept

theorem enterCount_kept (s : State) (c : UnitCount) (hK₀ : Kept B s) :
    Kept B (enterCount s c) := by
  unfold enterCount
  try dsimp only
  repeat' first
    | with_reducible assumption
    | with_reducible apply none_kept
    | with_reducible apply bumpBy_kept
    | with_reducible apply some_kept
    | with_reducible apply bumpHalf_kept
    | with_reducible refine forEach_kept _ _ _ (fun _ _ _ => ?_) ?_
    | with_reducible refine ite_kept (fun _ => ?_) (fun _ => ?_)
    | split

theorem addUnitCounts_kept (s : State) (hK₀ : Kept B s) :
    Kept B (addUnitCounts s) := by
  unfold addUnitCounts
  try dsimp only
  repeat' first
    | with_reducible assumption
    | with_reducible apply enterCount_kept
    | with_reducible refine forEach_kept _ _ _ (fun _ _ _ => ?_) ?_

theorem logNote_kept (s : State) (source k inst : Nat) (hK₀ : Kept B s) :
    Kept B (logNote s source k inst) := by
  unfold logNote
  try dsimp only
  repeat' first
    | with_reducible assumption
    | with_reducible apply logPush_kept

theorem logNoteLimited_kept (s : State) (source k inst : Nat) (h : Kept B s) :
    Kept B (logNoteLimited s source k inst) := by
  unfold logNoteLimited
  dsimp only
  split
  · exact h
  · have h1 := logNote_kept s source k inst h
    exact emcy_kept h1 h1.lastAt (fun w => assocPut_wf _ _ _ _ (h1.noteAt w)) h1.errors

theorem settleRegister_kept (s : State) (hK₀ : Kept B s) :
    Kept B (settleRegister s) := by
  unfold settleRegister
  try dsimp only
  repeat' first
    | with_reducible assumption
    | with_reducible apply emcyEnqueue_kept
    | with_reducible refine ite_kept (fun _ => ?_) (fun _ => ?_)

theorem drawFree_kept (s : State) (hK₀ : Kept B s) :
    Kept B (drawFree s) := by
  unfold drawFree
  try dsimp only
  repeat' first
    | with_reducible assumption

/-! ## Shared -/

theorem answer_kept (s : State) (k : Client) (a : Answer) (hK₀ : Kept B s) :
    Kept B (answer s k a) := by
  unfold answer
  try dsimp only
  repeat' first
    | with_reducible assumption

theorem touchClient_kept (s : State) (k : Client) (hK₀ : Kept B s) :
    Kept B (touchClient s k) := by
  unfold touchClient
  try dsimp only
  repeat' first
    | with_reducible assumption

theorem touchRead_kept (s : State) (k : Client) (hK₀ : Kept B s) :
    Kept B (touchRead s k) := by
  unfold touchRead
  try dsimp only
  repeat' first
    | with_reducible assumption

theorem serveWrite_kept (s : State) (k : Client) (i : Nat) (f : State → Except Abort State)
    (hf : ∀ x, Kept B x → OkKept B (f x)) (h : Kept B s) : Kept B (serveWrite s k i f) := by
  unfold serveWrite
  split
  · split
    · exact answer_kept _ _ _ h
    · split
      · rename_i e
        exact answer_kept _ _ _ (hf _ (touchClient_kept _ _ h) _ e)
      · exact answer_kept _ _ _ h
  · exact h

theorem serveTrace_kept (s : State) (k : Client) (i : Nat) (f : State → State × Option Abort)
    (hf : ∀ x, Kept B x → Kept B (f x).1) (h : Kept B s) : Kept B (serveTrace s k i f) := by
  unfold serveTrace
  split
  · split
    · exact answer_kept _ _ _ h
    · dsimp only
      split
      · exact answer_kept _ _ _ (hf _ (touchClient_kept _ _ h))
      · exact answer_kept _ _ _ (hf _ (touchClient_kept _ _ h))
  · exact h

theorem monitorSample_kept (s : State) (u : UnitId) (source inst v : Nat) (hK₀ : Kept B s) :
    Kept B (monitorSample s u source inst v) := by
  unfold monitorSample
  try dsimp only
  repeat' first
    | with_reducible assumption

theorem monitorBoth_kept (s : State) (source inst v : Nat) (hK₀ : Kept B s) :
    Kept B (monitorBoth s source inst v) := by
  unfold monitorBoth
  try dsimp only
  repeat' first
    | with_reducible assumption
    | with_reducible apply monitorSample_kept

theorem unitCold_kept (s : State) (u : UnitId) (h : Kept B s) : Kept B (unitCold s u) := by
  cases u
  · exact dram_kept (s := s) h (fun _ => rfl) h.memB
  · exact dram_kept (s := s) h h.memA fun _ => rfl

theorem assertSource_kept (s : State) (c : Nat) (hK₀ : Kept B s) :
    Kept B (assertSource s c) := by
  unfold assertSource
  try dsimp only
  repeat' first
    | with_reducible assumption

theorem noteBypass_kept (s : State) (hK₀ : Kept B s) : Kept B (noteBypass s) := by
  unfold noteBypass
  repeat' first
    | with_reducible assumption
    | with_reducible apply setFlag_kept
    | with_reducible refine ite_kept (fun _ => ?_) (fun _ => ?_)

theorem loseReady_kept (s : State) (hK₀ : Kept B s) :
    Kept B (loseReady s) := by
  unfold loseReady
  try dsimp only
  repeat' first
    | with_reducible assumption
    | with_reducible apply clearFlag_kept

theorem startRepair_kept (s : State) (u : UnitId) (hK₀ : Kept B s) :
    Kept B (startRepair s u) := by
  unfold startRepair
  try dsimp only
  repeat' first
    | with_reducible assumption
    | with_reducible apply loseReady_kept
    | with_reducible apply noteBypass_kept
    | with_reducible apply unitCold_kept
    | with_reducible apply assertSource_kept
    | with_reducible apply regPut_kept

theorem enterRepair_kept (s : State) (u : UnitId) (hK₀ : Kept B s) :
    Kept B (enterRepair s u) := by
  unfold enterRepair
  try dsimp only
  repeat' first
    | with_reducible assumption
    | with_reducible apply startRepair_kept
    | with_reducible apply regPut_kept
    | with_reducible refine ite_kept (fun _ => ?_) (fun _ => ?_)

theorem dropSwitch_kept (s : State) (hK₀ : Kept B s) :
    Kept B (dropSwitch s) := by
  unfold dropSwitch
  try dsimp only
  repeat' first
    | with_reducible assumption

theorem reportUnitFault_kept (s : State) (u : UnitId) (source : Nat) (hK₀ : Kept B s) :
    Kept B (reportUnitFault s u source) := by
  unfold reportUnitFault
  try dsimp only
  repeat' first
    | with_reducible assumption
    | with_reducible apply setFlag_kept
    | with_reducible apply dropSwitch_kept
    | with_reducible apply raiseEmcy_kept
    | with_reducible apply enterRepair_kept
    | with_reducible refine ite_kept (fun _ => ?_) (fun _ => ?_)

theorem closeWindow_kept (s : State) (w : WinId) (mode : WinMode) (reason : Nat) (hK₀ : Kept B s) :
    Kept B (closeWindow s w mode reason) := by
  unfold closeWindow
  try dsimp only
  repeat' first
    | with_reducible assumption

theorem abandonFirmware_kept (s : State) (hK₀ : Kept B s) :
    Kept B (abandonFirmware s) := by
  unfold abandonFirmware
  try dsimp only
  repeat' first
    | with_reducible assumption
    | with_reducible apply closeWindow_kept
    | intro _ _ _
    | intro _ _
    | with_reducible refine ite_kept (fun _ => ?_) (fun _ => ?_)
    | split

theorem showWatch_kept (s : State) (cause : Fin 4) (hK₀ : Kept B s) :
    Kept B (showWatch s cause) := by
  unfold showWatch
  try dsimp only
  repeat' first
    | with_reducible assumption
    | with_reducible apply forEach_kept
    | with_reducible apply putField_kept
    | intro _ _ _

theorem watchTick_kept (s : State) (hK₀ : Kept B s) :
    Kept B (watchTick s) := by
  unfold watchTick
  try dsimp only
  repeat' first
    | with_reducible assumption
    | with_reducible apply showWatch_kept
    | with_reducible refine ite_kept (fun _ => ?_) (fun _ => ?_)

theorem endUnlock_kept (s : State) (hK₀ : Kept B s) :
    Kept B (endUnlock s) := by
  unfold endUnlock
  try dsimp only
  repeat' first
    | with_reducible assumption
    | with_reducible apply none_kept
    | with_reducible apply some_kept
    | with_reducible apply watchTick_kept
    | with_reducible apply abandonFirmware_kept
    | with_reducible apply ctrl_kept
    | with_reducible refine ite_kept (fun _ => ?_) (fun _ => ?_)
    | split

theorem enterHoldover_kept (s : State) (hK₀ : Kept B s) :
    Kept B (enterHoldover s) := by
  unfold enterHoldover
  try dsimp only
  repeat' first
    | with_reducible assumption
    | with_reducible apply clearFlag_kept
    | with_reducible apply regPut_kept
    | with_reducible refine ite_kept (fun _ => ?_) (fun _ => ?_)

theorem restartController_kept (s : State) (hK₀ : Kept B s) :
    Kept B (restartController s) := by
  unfold restartController
  try dsimp only
  repeat' first
    | with_reducible assumption
    | with_reducible apply endUnlock_kept
    | with_reducible apply assertSource_kept
    | with_reducible apply enterHoldover_kept

theorem powerFault_kept (s : State) (hK₀ : Kept B s) :
    Kept B (powerFault s) := by
  unfold powerFault
  try dsimp only
  repeat' first
    | with_reducible assumption
    | with_reducible apply setFlag_kept

theorem suspendErase_kept (s : State) (hK₀ : Kept B s) :
    Kept B (suspendErase s) := by
  unfold suspendErase
  try dsimp only
  repeat' first
    | with_reducible assumption

theorem warnActions_kept (s : State) (cause : Fin 8) (hK₀ : Kept B s) :
    Kept B (warnActions s cause) := by
  unfold warnActions
  try dsimp only
  repeat' first
    | with_reducible assumption
    | with_reducible apply raiseEmcy_kept
    | with_reducible apply bump_kept
    | with_reducible apply setFlag_kept
    | with_reducible apply clearFlag_kept
    | with_reducible apply suspendErase_kept
    | with_reducible refine ite_kept (fun _ => ?_) (fun _ => ?_)

theorem powerFailWarning_kept (s : State) (cause : Fin 8) (hK₀ : Kept B s) :
    Kept B (powerFailWarning s cause) := by
  unfold powerFailWarning
  try dsimp only
  repeat' first
    | with_reducible assumption
    | with_reducible apply warnActions_kept
    | with_reducible apply setFlag_kept
    | with_reducible refine ite_kept (fun _ => ?_) (fun _ => ?_)

/-! ## Operands -/

theorem putSigned_kept (s : State) (k : Nat) (v : Int) (hK₀ : Kept B s) :
    Kept B (putSigned s k v) := by
  unfold putSigned
  try dsimp only
  repeat' first
    | with_reducible assumption
    | with_reducible apply regPut_kept

/-! ## Lanes -/

theorem setLane_kept (s : State) (u : UnitId) (n : LaneId) (x : Lane) (hK₀ : Kept B s) :
    Kept B (setLane s u n x) := by
  unfold setLane
  try dsimp only
  repeat' first
    | with_reducible assumption

theorem settleLink_kept (s : State) (u : UnitId) (l : LinkId) (hK₀ : Kept B s) :
    Kept B (settleLink s u l) := by
  unfold settleLink
  try dsimp only
  repeat' first
    | with_reducible assumption

theorem laneStep_kept (s : State) (u : UnitId) (n : LaneId) (f : Lane → Lane) (hK₀ : Kept B s) :
    Kept B (laneStep s u n f) := by
  unfold laneStep
  try dsimp only
  repeat' first
    | with_reducible assumption
    | with_reducible apply settleLink_kept
    | with_reducible apply setLane_kept
    | with_reducible refine ite_kept (fun _ => ?_) (fun _ => ?_)
    | split

theorem execLosAssert_kept (u : UnitId) (l : LaneId) (s : State) (hK₀ : Kept B s) :
    OutKept B (execLosAssert u l s) := by
  unfold execLosAssert
  try dsimp only
  repeat' first
    | with_reducible assumption
    | with_reducible apply next_kept
    | with_reducible apply laneStep_kept

theorem execLosRelease_kept (u : UnitId) (l : LaneId) (s : State) (hK₀ : Kept B s) :
    OutKept B (execLosRelease u l s) := by
  unfold execLosRelease
  try dsimp only
  repeat' first
    | with_reducible assumption
    | with_reducible apply next_kept
    | with_reducible apply laneStep_kept

theorem execLolRelease_kept (u : UnitId) (l : LaneId) (s : State) (hK₀ : Kept B s) :
    OutKept B (execLolRelease u l s) := by
  unfold execLolRelease
  try dsimp only
  repeat' first
    | with_reducible assumption
    | with_reducible apply next_kept
    | with_reducible apply laneStep_kept

theorem execLolAssert_kept (u : UnitId) (l : LaneId) (s : State) (hK₀ : Kept B s) :
    OutKept B (execLolAssert u l s) := by
  unfold execLolAssert
  try dsimp only
  repeat' first
    | with_reducible assumption
    | with_reducible apply next_kept
    | with_reducible apply laneStep_kept

theorem execSignalDetect_kept (u : UnitId) (l : LaneId) (s : State) (hK₀ : Kept B s) :
    OutKept B (execSignalDetect u l s) := by
  unfold execSignalDetect
  try dsimp only
  repeat' first
    | with_reducible assumption
    | with_reducible apply next_kept
    | with_reducible apply laneStep_kept

theorem execWakeTimeout_kept (u : UnitId) (l : LaneId) (s : State) (hK₀ : Kept B s) :
    OutKept B (execWakeTimeout u l s) := by
  unfold execWakeTimeout
  try dsimp only
  repeat' first
    | with_reducible assumption
    | with_reducible apply next_kept
    | with_reducible apply laneStep_kept

theorem execBlockRx_kept (u : UnitId) (l : LaneId) (b : Block66) (s : State) (hK₀ : Kept B s) :
    OutKept B (execBlockRx u l b s) := by
  unfold execBlockRx
  try dsimp only
  repeat' first
    | with_reducible assumption
    | with_reducible apply next_kept
    | with_reducible apply laneStep_kept

theorem countLine_kept (s : State) (l : LinkId) (c : LineClass) (hK₀ : Kept B s) :
    Kept B (countLine s l c) := by
  unfold countLine
  try dsimp only
  repeat' first
    | with_reducible assumption
    | with_reducible apply bump_kept
    | with_reducible refine ite_kept (fun _ => ?_) (fun _ => ?_)
    | split

theorem noteHeader_kept (s : State) (u : UnitId) (l : LinkId) (p : LinePacket) (hK₀ : Kept B s) :
    Kept B (noteHeader s u l p) := by
  unfold noteHeader
  try dsimp only
  repeat' first
    | with_reducible assumption
    | with_reducible apply bump_kept
    | intro _ _ _
    | intro _ _
    | with_reducible refine ite_kept (fun _ => ?_) (fun _ => ?_)

theorem storeLine_kept (s : State) (u : UnitId) (b : BufLine) (hK₀ : Kept B s) :
    Kept B (storeLine s u b) := by
  unfold storeLine
  try dsimp only
  repeat' first
    | with_reducible assumption

theorem checkLine_kept (s : State) (l : LinkId) (c : LineClass) (p : LinePacket) (hK₀ : Kept B s) :
    Kept B (checkLine s l c p) := by
  unfold checkLine
  try dsimp only
  repeat' first
    | with_reducible assumption
    | with_reducible apply cvEnd_kept
    | with_reducible apply cvGap_kept
    | with_reducible refine ite_kept (fun _ => ?_) (fun _ => ?_)
    | split

theorem execPictureDescriptorRx_kept (u : UnitId) (l : LinkId) (d : PictureDescriptor) (s : State) (hK₀ : Kept B s) :
    OutKept B (execPictureDescriptorRx u l d s) := by
  unfold execPictureDescriptorRx
  try dsimp only
  repeat' first
    | with_reducible assumption
    | with_reducible apply next_kept
    | with_reducible apply setFlag_kept
    | intro _ _ _
    | intro _ _
    | with_reducible refine ite_kept (fun _ => ?_) (fun _ => ?_)
    | split

theorem replaceLine_kept (s : State) (u : UnitId) (l : LinkId) (q line : Nat) (hK₀ : Kept B s) :
    Kept B (replaceLine s u l q line) := by
  unfold replaceLine
  try dsimp only
  repeat' first
    | with_reducible assumption
    | with_reducible apply some_kept
    | with_reducible apply setFlag_kept
    | with_reducible apply bump_kept
    | with_reducible apply logNoteLimited_kept
    | with_reducible apply raiseEmcy_kept
    | with_reducible refine ite_kept (fun _ => ?_) (fun _ => ?_)

theorem closeWindowOf_kept (s : State) (u : UnitId) (q k tick : Nat) (hK₀ : Kept B s) :
    Kept B (closeWindowOf s u q k tick) := by
  unfold closeWindowOf
  try dsimp only
  repeat' first
    | with_reducible assumption
    | with_reducible apply some_kept
    | with_reducible apply regPut_kept
    | with_reducible apply replaceLine_kept
    | with_reducible refine forEach_kept _ _ _ (fun _ _ _ => ?_) ?_
    | with_reducible refine ite_kept (fun _ => ?_) (fun _ => ?_)

theorem openPictureInput_kept (s : State) (u : UnitId) (hK₀ : Kept B s) :
    Kept B (openPictureInput s u) := by
  unfold openPictureInput
  try dsimp only
  repeat' first
    | with_reducible assumption

theorem tickLanes_kept (s : State) (u : UnitId) (hK₀ : Kept B s) :
    Kept B (tickLanes s u) := by
  unfold tickLanes
  try dsimp only
  repeat' first
    | with_reducible assumption

theorem compareLane_kept (s : State) (u : UnitId) (n : LaneId) (hK₀ : Kept B s) :
    Kept B (compareLane s u n) := by
  unfold compareLane
  try dsimp only
  repeat' first
    | with_reducible assumption
    | with_reducible apply raiseEmcy_kept
    | with_reducible apply setFlag_kept
    | with_reducible apply raiseEmcyOf_kept
    | with_reducible apply reportUnitFault_kept
    | with_reducible refine ite_kept (fun _ => ?_) (fun _ => ?_)

theorem compareLanes_kept (s : State) (hK₀ : Kept B s) :
    Kept B (compareLanes s) := by
  unfold compareLanes
  try dsimp only
  repeat' first
    | with_reducible assumption
    | with_reducible apply tickLanes_kept
    | with_reducible apply forEach_kept
    | with_reducible apply compareLane_kept
    | intro _ _ _
    | intro _ _
    | with_reducible refine ite_kept (fun _ => ?_) (fun _ => ?_)
    | split

theorem measurePhase_kept (s : State) (tick0 lap : Nat) (hK₀ : Kept B s) :
    Kept B (measurePhase s tick0 lap) := by
  unfold measurePhase
  try dsimp only
  repeat' first
    | with_reducible assumption
    | with_reducible apply none_kept
    | with_reducible apply some_kept
    | with_reducible apply monitorSample_kept
    | with_reducible apply putSigned_kept
    | with_reducible refine ite_kept (fun _ => ?_) (fun _ => ?_)
    | split

theorem updatePull_kept (s : State) (hK₀ : Kept B s) :
    Kept B (updatePull s) := by
  unfold updatePull
  try dsimp only
  repeat' first
    | with_reducible assumption
    | with_reducible apply putFlag_kept
    | with_reducible apply putSigned_kept
    | intro _ _ _
    | intro _ _
    | with_reducible refine ite_kept (fun _ => ?_) (fun _ => ?_)

theorem countDrop_kept (s : State) (hK₀ : Kept B s) :
    Kept B (countDrop s) := by
  unfold countDrop
  try dsimp only
  repeat' first
    | with_reducible assumption
    | with_reducible apply setFlag_kept
    | with_reducible apply bump_kept
    | with_reducible apply raiseEmcy_kept
    | with_reducible refine ite_kept (fun _ => ?_) (fun _ => ?_)

theorem execPhaseFaultClear_kept (s : State) (hK₀ : Kept B s) :
    OutKept B (execPhaseFaultClear s) := by
  unfold execPhaseFaultClear
  try dsimp only
  repeat' first
    | with_reducible assumption
    | with_reducible apply next_kept
    | with_reducible apply clearFlag_kept
    | with_reducible refine ite_kept (fun _ => ?_) (fun _ => ?_)
    | split

theorem reportInput_kept (s : State) (r : Nat) (hK₀ : Kept B s) :
    Kept B (reportInput s r) := by
  unfold reportInput
  try dsimp only
  repeat' first
    | with_reducible assumption
    | with_reducible apply forEach_kept
    | with_reducible apply regPut_kept
    | intro _ _ _

/-! ## Flows -/

theorem refuseFlow_kept (s : State) (f : FlowId) (hK₀ : Kept B s) :
    Kept B (refuseFlow s f) := by
  unfold refuseFlow
  try dsimp only
  repeat' first
    | with_reducible assumption
    | with_reducible apply countUnit_kept
    | with_reducible apply setFlag_kept

theorem noteDepth_kept (s : State) (f : FlowId) (hK₀ : Kept B s) :
    Kept B (noteDepth s f) := by
  unfold noteDepth
  try dsimp only
  repeat' first
    | with_reducible assumption
    | intro _ _ _
    | intro _ _
    | with_reducible refine ite_kept (fun _ => ?_) (fun _ => ?_)

theorem enqueue_kept (s : State) (f : FlowId) (l : List Packet) (hK₀ : Kept B s) :
    Kept B (enqueue s f l) := by
  unfold enqueue
  try dsimp only
  repeat' first
    | with_reducible assumption
    | with_reducible apply noteDepth_kept

theorem keepDatagram_kept (s : State) (p : PortId) (pk : Packet) (hK₀ : Kept B s) :
    Kept B (keepDatagram s p pk) := by
  unfold keepDatagram
  try dsimp only
  repeat' first
    | with_reducible assumption

theorem offerDatagram_kept (s : State) (p : PortId) (pk : Packet) (hK₀ : Kept B s) :
    Kept B (offerDatagram s p pk) := by
  unfold offerDatagram
  try dsimp only
  repeat' first
    | with_reducible assumption
    | with_reducible apply keepDatagram_kept
    | with_reducible apply enqueue_kept
    | with_reducible apply refuseFlow_kept
    | with_reducible refine ite_kept (fun _ => ?_) (fun _ => ?_)

theorem endpointSend_kept (s : State) (p : PortId) (kind : PacketKind) (dest : PacketDest) (frame : Nat) (payload : Payload) (hK₀ : Kept B s) :
    Kept B (endpointSend s p kind dest frame payload) := by
  unfold endpointSend
  try dsimp only
  repeat' first
    | with_reducible assumption
    | with_reducible apply offerDatagram_kept

theorem retryDatagrams_kept (s : State) (hK₀ : Kept B s) :
    Kept B (retryDatagrams s) := by
  unfold retryDatagrams
  try dsimp only
  repeat' first
    | with_reducible assumption
    | with_reducible apply offerDatagram_kept
    | with_reducible refine forEach_kept _ _ _ (fun _ _ _ => ?_) ?_

theorem storeTokens_kept (s : State) (f : FlowId) (n : StreamId) (tick : Nat) (l : List (BitVec 256)) (hK₀ : Kept B s) :
    Kept B (storeTokens s f n tick l) := by
  unfold storeTokens
  try dsimp only
  repeat' first
    | with_reducible assumption
    | with_reducible apply countUnit_kept
    | with_reducible apply raiseEmcy_kept
    | with_reducible apply setFlag_kept
    | with_reducible apply bumpHalf_kept
    | intro _ _ _
    | intro _ _
    | with_reducible refine ite_kept (fun _ => ?_) (fun _ => ?_)

theorem offerTokens_kept (s : State) (f : FlowId) (tick : Nat) (l : List (StreamId × List (BitVec 256))) (hK₀ : Kept B s) :
    Kept B (offerTokens s f tick l) := by
  unfold offerTokens
  try dsimp only
  repeat' first
    | with_reducible assumption
    | with_reducible apply enqueue_kept
    | with_reducible apply forEach_kept
    | with_reducible apply storeTokens_kept
    | with_reducible apply refuseFlow_kept
    | intro _ _ _
    | intro _ _
    | with_reducible refine ite_kept (fun _ => ?_) (fun _ => ?_)

theorem execTokenReoffer_kept (f : FlowId) (s : State) (hK₀ : Kept B s) :
    OutKept B (execTokenReoffer f s) := by
  unfold execTokenReoffer
  try dsimp only
  repeat' first
    | with_reducible assumption
    | with_reducible apply next_kept
    | with_reducible apply enqueue_kept
    | intro _ _ _
    | intro _ _
    | with_reducible refine ite_kept (fun _ => ?_) (fun _ => ?_)
    | split

theorem pathPush_kept (s : State) (f : FlowId) (p : PortId) (second : Bool) (pk : Packet) (hK₀ : Kept B s) :
    Kept B (pathPush s f p second pk) := by
  unfold pathPush
  try dsimp only
  repeat' first
    | with_reducible assumption

theorem dropCopy_kept (s : State) (f : FlowId) (hK₀ : Kept B s) :
    Kept B (dropCopy s f) := by
  unfold dropCopy
  try dsimp only
  repeat' first
    | with_reducible assumption
    | with_reducible apply putField_kept
    | with_reducible apply overflowEnter_kept
    | with_reducible apply setFlag_kept
    | with_reducible refine ite_kept (fun _ => ?_) (fun _ => ?_)

theorem admitHead_kept (s : State) (f : FlowId) (hK₀ : Kept B s) :
    Kept B (admitHead s f) := by
  unfold admitHead
  try dsimp only
  repeat' first
    | with_reducible assumption
    | with_reducible apply forEach_kept
    | with_reducible apply pathPush_kept
    | with_reducible apply dropCopy_kept
    | with_reducible apply clearFlag_kept
    | with_reducible apply putFlag_kept
    | with_reducible apply noteDepth_kept
    | intro _ _ _
    | intro _ _
    | with_reducible refine ite_kept (fun _ => ?_) (fun _ => ?_)
    | split

theorem execShaperAdmit_kept (f : FlowId) (s : State) (hK₀ : Kept B s) :
    OutKept B (execShaperAdmit f s) := by
  unfold execShaperAdmit
  try dsimp only
  repeat' first
    | with_reducible assumption
    | with_reducible apply next_kept
    | with_reducible apply admitHead_kept

theorem pathPop_kept (s : State) (f : FlowId) (p : PortId) (rounds : Nat) (hK₀ : Kept B s) :
    Kept B (pathPop s f p rounds) := by
  unfold pathPop
  try dsimp only
  repeat' first
    | with_reducible assumption

theorem addRounds_kept (s : State) (p : PortId) (c rounds : Nat) (chosen : FlowId) (hK₀ : Kept B s) :
    Kept B (addRounds s p c rounds chosen) := by
  unfold addRounds
  try dsimp only
  repeat' first
    | with_reducible assumption
    | intro _ _ _
    | intro _ _
    | with_reducible refine ite_kept (fun _ => ?_) (fun _ => ?_)

theorem countPacket_kept (s : State) (f : FlowId) (pk : Packet) (hK₀ : Kept B s) : Kept B (countPacket s f pk) := by
  unfold countPacket
  try dsimp only
  repeat' first
    | with_reducible assumption
    | with_reducible apply countUnit_kept
    | with_reducible apply monitorSample_kept
    | with_reducible apply bump_kept
    | with_reducible refine ite_kept (fun _ => ?_) (fun _ => ?_)

theorem countSent_kept (s : State) (p : PortId) (f : FlowId) (c bytes : Nat) (pk : Packet) (hK₀ : Kept B s) :
    Kept B (countSent s p f c bytes pk) := by
  unfold countSent
  try dsimp only
  repeat' first
    | with_reducible assumption
    | with_reducible apply countPort_kept
    | with_reducible apply countUnit_kept
    | with_reducible apply countPacket_kept
    | with_reducible apply bumpBy_kept
    | with_reducible apply bump_kept
    | with_reducible apply monitorSample_kept
    | intro _ _ _
    | intro _ _
    | with_reducible refine ite_kept (fun _ => ?_) (fun _ => ?_)

theorem stampRequest_kept (s : State) (p : PortId) (k : PacketKind) (hK₀ : Kept B s) :
    Kept B (stampRequest s p k) := by
  unfold stampRequest
  try dsimp only
  repeat' first
    | with_reducible assumption
    | with_reducible apply some_kept
    | with_reducible refine ite_kept (fun _ => ?_) (fun _ => ?_)

theorem sendFrame_kept (s : State) (p : PortId) (c : Nat) (f : FlowId) (rounds : Nat) (pk : Packet) (hK₀ : Kept B s) :
    Kept B (sendFrame s p c f rounds pk) := by
  unfold sendFrame
  try dsimp only
  repeat' first
    | with_reducible assumption
    | with_reducible apply pathPop_kept
    | with_reducible apply setFlag_kept
    | with_reducible apply countPort_kept
    | with_reducible apply stampRequest_kept
    | with_reducible apply countSent_kept
    | with_reducible apply addRounds_kept
    | with_reducible apply some_kept
    | with_reducible apply none_kept
    | with_reducible refine ite_kept (fun _ => ?_) (fun _ => ?_)

theorem execFrameTxStart_kept (p : PortId) (s : State) (hK₀ : Kept B s) :
    OutKept B (execFrameTxStart p s) := by
  unfold execFrameTxStart
  try dsimp only
  repeat' first
    | with_reducible assumption
    | with_reducible apply next_kept
    | with_reducible apply sendFrame_kept
    | with_reducible refine ite_kept (fun _ => ?_) (fun _ => ?_)
    | split

theorem execFlowDrained_kept (f : FlowId) (s : State) (hK₀ : Kept B s) :
    OutKept B (execFlowDrained f s) := by
  unfold execFlowDrained
  try dsimp only
  repeat' first
    | with_reducible assumption
    | with_reducible apply next_kept
    | intro _ _ _
    | intro _ _
    | with_reducible refine ite_kept (fun _ => ?_) (fun _ => ?_)
    | split

theorem takeWritten_kept (s : State) (k : Nat) (h : Kept B s) : Kept B (takeWritten s k) :=
  dict_kept h h.master h.shadowA h.shadowB h.applied (fun w => assocPut_wf _ _ _ _ (h.inUse w))

theorem applyEnable_kept (s : State) (f : FlowId) (hK₀ : Kept B s) :
    Kept B (applyEnable s f) := by
  unfold applyEnable
  try dsimp only
  repeat' first
    | with_reducible assumption
    | with_reducible apply takeWritten_kept
    | with_reducible refine ite_kept (fun _ => ?_) (fun _ => ?_)

theorem applyMode_kept (s : State) (p : PortId) (hK₀ : Kept B s) :
    Kept B (applyMode s p) := by
  unfold applyMode
  try dsimp only
  repeat' first
    | with_reducible assumption
    | with_reducible apply regPut_kept
    | with_reducible apply setFlag_kept
    | intro _ _ _
    | intro _ _
    | with_reducible refine ite_kept (fun _ => ?_) (fun _ => ?_)

theorem resetShapers_kept (s : State) (keys : List Nat) (hK₀ : Kept B s) :
    Kept B (resetShapers s keys) := by
  unfold resetShapers
  try dsimp only
  repeat' first
    | with_reducible assumption
    | with_reducible apply forEach_kept
    | intro _ _ _

theorem endCarrying_kept (s : State) (hK₀ : Kept B s) :
    Kept B (endCarrying s) := by
  unfold endCarrying
  try dsimp only
  repeat' first
    | with_reducible assumption
    | with_reducible apply forEach_kept
    | intro _ _ _

theorem applyFlows_kept (s : State) (keys : List Nat) (hK₀ : Kept B s) :
    Kept B (applyFlows s keys) := by
  unfold applyFlows
  try dsimp only
  repeat' first
    | with_reducible assumption
    | with_reducible apply endCarrying_kept
    | with_reducible apply forEach_kept
    | with_reducible apply applyEnable_kept
    | with_reducible apply resetShapers_kept
    | with_reducible apply regPut_kept
    | with_reducible apply applyMode_kept
    | intro _ _ _

theorem fillFlows_kept (s : State) (n : Nat) (hK₀ : Kept B s) :
    Kept B (fillFlows s n) := by
  unfold fillFlows
  try dsimp only
  repeat' first
    | with_reducible assumption

theorem beginWatch_kept (s : State) (cause : Fin 4) (hK₀ : Kept B s) :
    Kept B (beginWatch s cause) := by
  unfold beginWatch
  try dsimp only
  repeat' first
    | with_reducible assumption
    | with_reducible apply showWatch_kept

theorem sampleFlows_kept (s : State) (hK₀ : Kept B s) :
    Kept B (sampleFlows s) := by
  unfold sampleFlows
  try dsimp only
  repeat' first
    | with_reducible assumption
    | with_reducible apply watchTick_kept
    | with_reducible apply forEach_kept
    | with_reducible apply monitorSample_kept
    | with_reducible apply regPut_kept
    | intro _ _ _
    | intro _ _
    | with_reducible refine ite_kept (fun _ => ?_) (fun _ => ?_)

theorem reportFlows_kept (s : State) (failure : Option (FlowId × Nat)) (hK₀ : Kept B s) :
    Kept B (reportFlows s failure) := by
  unfold reportFlows
  try dsimp only
  repeat' first
    | with_reducible assumption
    | with_reducible apply forEach_kept
    | with_reducible apply putField_kept
    | intro _ _ _
    | intro _ _
    | with_reducible refine ite_kept (fun _ => ?_) (fun _ => ?_)
    | split

theorem reportClass3_kept (s : State) (slices : StreamId → Nat) (h : Kept B s) : Kept B (reportClass3 s slices) := by
  refine forEach_kept _ _ _ (fun x p hx => ?_) h
  have h1 := regPut_kept x (kSched p 4) (class3Bound x slices p) hx
  dsimp only
  split
  · exact raiseEmcy_kept _ _ _ _ (setFlag_kept _ _ _ (setFlag_kept _ _ _ h1))
  · exact clearFlag_kept _ _ _ h1

theorem setDram_kept (s : State) (u : UnitId) (f : DramState → DramState)
    (hf : ∀ d, assocWf unlistedByte d.mem = true → assocWf unlistedByte (f d).mem = true) (h : Kept B s) :
    Kept B (setDram s u f) := by
  cases u
  · exact dram_kept h (fun w => hf _ (h.memA w)) h.memB
  · exact dram_kept h h.memA fun w => hf _ (h.memB w)

theorem modStall_kept (s : State) (u : UnitId) (c : Chan) (f : Nat → Nat) (h : Kept B s) : Kept B (modStall s u c f) :=
  setDram_kept _ _ _ (fun _ hd => hd) h

end Sys2Proof.Machine
end

