-- ==== Sys2Proof/Laws/KeptPorts.lean ====
section
/-! SUPPORT. What every operation and every command keeps, part by part: the decoders, the ports, the DRAM, the tasks and the DMA engines. -/

namespace Sys2Proof.Machine

variable {B : Base}

/-! ## Decoders -/

theorem suppressedWrite_kept (s : State) (c : Chan) (hK₀ : Kept B s) :
    Kept B (suppressedWrite s c) := by
  unfold suppressedWrite
  try dsimp only
  repeat' first
    | with_reducible assumption
    | with_reducible apply setFlag_kept
    | with_reducible apply reportUnitFault_kept
    | with_reducible apply raiseEmcy_kept

theorem returnError_kept (s : State) (c : ErrClass) (hK₀ : Kept B s) :
    Kept B (returnError s c) := by
  unfold returnError
  try dsimp only
  repeat' first
    | with_reducible assumption
    | with_reducible apply bumpHalf_kept
    | with_reducible apply bump_kept
    | with_reducible refine ite_kept (fun _ => ?_) (fun _ => ?_)

theorem closePicture_kept (s : State) (hK₀ : Kept B s) :
    Kept B (closePicture s) := by
  unfold closePicture
  try dsimp only
  repeat' first
    | with_reducible assumption
    | with_reducible apply returnError_kept
    | with_reducible apply bump_kept
    | intro _ _ _
    | intro _ _
    | with_reducible refine ite_kept (fun _ => ?_) (fun _ => ?_)
    | split

theorem execPictureClose_kept (s : State) (hK₀ : Kept B s) :
    OutKept B (execPictureClose s) := by
  unfold execPictureClose
  try dsimp only
  repeat' first
    | with_reducible assumption
    | with_reducible refine ite_kept (fun _ => ?_) (fun _ => ?_)
    | with_reducible apply next_kept
    | with_reducible apply closePicture_kept

theorem execPresentationTime_kept (s : State) (hK₀ : Kept B s) :
    OutKept B (execPresentationTime s) := by
  unfold execPresentationTime
  try dsimp only
  repeat' first
    | with_reducible assumption
    | with_reducible apply closePicture_kept
    | with_reducible apply next_kept
    | intro _ _ _
    | intro _ _
    | with_reducible refine ite_kept (fun _ => ?_) (fun _ => ?_)
    | split

theorem execReturnTimeLimit_kept (s : State) (hK₀ : Kept B s) :
    OutKept B (execReturnTimeLimit s) := by
  unfold execReturnTimeLimit
  try dsimp only
  repeat' first
    | with_reducible assumption
    | with_reducible apply next_kept
    | with_reducible apply closePicture_kept
    | with_reducible apply returnError_kept
    | with_reducible refine ite_kept (fun _ => ?_) (fun _ => ?_)
    | split

theorem waitIrap_kept (s : State) (hK₀ : Kept B s) :
    Kept B (waitIrap s) := by
  unfold waitIrap
  try dsimp only
  repeat' first
    | with_reducible assumption
    | with_reducible apply closePicture_kept
    | with_reducible apply returnError_kept

theorem returnSuppressed_kept (s : State) (count : Nat) (hK₀ : Kept B s) :
    Kept B (returnSuppressed s count) := by
  unfold returnSuppressed
  try dsimp only
  repeat' first
    | with_reducible assumption
    | with_reducible apply setFlag_kept
    | with_reducible apply bumpHalf_kept
    | with_reducible apply reportUnitFault_kept
    | with_reducible apply raiseEmcy_kept
    | with_reducible refine forEach_kept _ _ _ (fun _ _ _ => ?_) ?_
    | with_reducible refine ite_kept (fun _ => ?_) (fun _ => ?_)

theorem dropParams_kept (s : State) (hK₀ : Kept B s) :
    Kept B (dropParams s) := by
  unfold dropParams
  try dsimp only
  repeat' first
    | with_reducible assumption
    | with_reducible apply waitIrap_kept

theorem outOfLimits_kept (s : State) (hK₀ : Kept B s) :
    Kept B (outOfLimits s) := by
  unfold outOfLimits
  try dsimp only
  repeat' first
    | with_reducible assumption
    | with_reducible apply waitIrap_kept
    | with_reducible apply setFlag_kept

theorem addSlice_kept (s : State) (x : ReturnSlice) (hK₀ : Kept B s) :
    Kept B (addSlice s x) := by
  unfold addSlice
  try dsimp only
  repeat' first
    | with_reducible assumption
    | with_reducible apply none_kept
    | with_reducible apply some_kept
    | with_reducible apply outOfLimits_kept
    | with_reducible apply returnSuppressed_kept
    | with_reducible apply returnError_kept
    | with_reducible refine ite_kept (fun _ => ?_) (fun _ => ?_)
    | split

theorem substitute_kept (f : ReturnFormat) (g : TileGrid) (ts : Nat) (s : State) (poc : Int) (hK₀ : Kept B s) :
    Kept B (substitute f g ts s poc) := by
  unfold substitute
  try dsimp only
  repeat' first
    | with_reducible assumption
    | with_reducible apply returnError_kept
    | with_reducible refine ite_kept (fun _ => ?_) (fun _ => ?_)

theorem openPicture_kept (s : State) (f : ReturnFormat) (g : TileGrid) (ts : Nat) (x : ReturnSlice) (hK₀ : Kept B s) :
    Kept B (openPicture s f g ts x) := by
  unfold openPicture
  try dsimp only
  repeat' first
    | with_reducible assumption
    | with_reducible apply closePicture_kept
    | with_reducible apply substitute_kept
    | with_reducible apply some_kept
    | with_reducible apply waitIrap_kept
    | with_reducible refine forEach_kept _ _ _ (fun _ _ _ => ?_) ?_

theorem noteFormat_kept (s : State) (f : ReturnFormat) (ty : Nat) (hK₀ : Kept B s) :
    Kept B (noteFormat s f ty) := by
  unfold noteFormat
  try dsimp only
  repeat' first
    | with_reducible assumption
    | with_reducible apply regPut_kept
    | with_reducible refine ite_kept (fun _ => ?_) (fun _ => ?_)

theorem refuseSlice_kept (s : State) (x : ReturnSlice) (outside : Bool) (hK₀ : Kept B s) :
    Kept B (refuseSlice s x outside) := by
  unfold refuseSlice
  try dsimp only
  repeat' first
    | with_reducible assumption
    | with_reducible apply outOfLimits_kept
    | with_reducible apply waitIrap_kept
    | with_reducible refine ite_kept (fun _ => ?_) (fun _ => ?_)

theorem takeGoodSlice_kept (s : State) (f : ReturnFormat) (g : TileGrid) (ts : Nat) (x : ReturnSlice) (hK₀ : Kept B s) :
    Kept B (takeGoodSlice s f g ts x) := by
  unfold takeGoodSlice
  try dsimp only
  repeat' first
    | with_reducible assumption
    | with_reducible apply some_kept
    | with_reducible apply addSlice_kept
    | with_reducible apply noteFormat_kept
    | with_reducible apply openPicture_kept
    | with_reducible refine ite_kept (fun _ => ?_) (fun _ => ?_)

theorem takeSlice_kept (s : State) (ts : Nat) (x : ReturnSlice) (hK₀ : Kept B s) :
    Kept B (takeSlice s ts x) := by
  unfold takeSlice
  try dsimp only
  repeat' first
    | with_reducible assumption
    | with_reducible apply takeGoodSlice_kept
    | with_reducible apply refuseSlice_kept
    | with_reducible apply none_kept
    | with_reducible apply waitIrap_kept
    | with_reducible apply some_kept
    | with_reducible apply addSlice_kept
    | with_reducible apply noteFormat_kept
    | with_reducible apply openPicture_kept
    | with_reducible refine ite_kept (fun _ => ?_) (fun _ => ?_)
    | split

theorem takeNal_kept (s : State) (ts : Nat) (n : NalInfo) (hK₀ : Kept B s) :
    Kept B (takeNal s ts n) := by
  unfold takeNal
  try dsimp only
  repeat' first
    | with_reducible assumption
    | with_reducible exact closePicture_kept _ hK₀
    | with_reducible apply takeSlice_kept
    | with_reducible apply dropParams_kept
    | with_reducible apply outOfLimits_kept
    | with_reducible apply setFlag_kept
    | with_reducible apply waitIrap_kept
    | with_reducible apply noteFormat_kept
    | with_reducible apply openPicture_kept
    | with_reducible apply addSlice_kept
    | intro _ _ _
    | intro _ _
    | with_reducible refine ite_kept (fun _ => ?_) (fun _ => ?_)
    | split

theorem takeNals_kept (s : State) (r : RtpPacket) (hK₀ : Kept B s) :
    Kept B (takeNals s r) := by
  unfold takeNals
  try dsimp only
  repeat' first
    | with_reducible assumption
    | with_reducible apply takeNal_kept
    | with_reducible refine forEach_kept _ _ _ (fun _ _ _ => ?_) ?_

theorem cutFragment_kept (s : State) (hK₀ : Kept B s) :
    Kept B (cutFragment s) := by
  unfold cutFragment
  try dsimp only
  repeat' first
    | with_reducible assumption
    | with_reducible apply returnError_kept
    | with_reducible refine ite_kept (fun _ => ?_) (fun _ => ?_)

theorem lostStart_kept (s : State) (hK₀ : Kept B s) :
    Kept B (lostStart s) := by
  unfold lostStart
  try dsimp only
  repeat' first
    | with_reducible assumption
    | with_reducible apply returnError_kept
    | with_reducible refine ite_kept (fun _ => ?_) (fun _ => ?_)

theorem takePacket_kept (s : State) (r : RtpPacket) (hK₀ : Kept B s) :
    Kept B (takePacket s r) := by
  unfold takePacket
  try dsimp only
  repeat' first
    | with_reducible assumption
    | with_reducible apply cutFragment_kept
    | with_reducible apply lostStart_kept
    | with_reducible apply takeNals_kept
    | with_reducible apply dropParams_kept
    | with_reducible apply returnError_kept
    | with_reducible apply waitIrap_kept
    | with_reducible apply takeNal_kept
    | intro _ _ _
    | intro _ _
    | with_reducible refine ite_kept (fun _ => ?_) (fun _ => ?_)
    | split

theorem drainHeld_kept (k : Nat) (s : State) (h : Kept B s) : Kept B (drainHeld k s) := by
  induction k generalizing s with
  | zero => exact h
  | succ k ih =>
    unfold drainHeld
    split
    · exact h
    · exact ih _ (takePacket_kept _ _ h)

theorem takeRtp_kept (s : State) (r : RtpPacket) (hK₀ : Kept B s) :
    Kept B (takeRtp s r) := by
  unfold takeRtp
  try dsimp only
  repeat' first
    | with_reducible assumption
    | with_reducible apply takePacket_kept
    | with_reducible apply drainHeld_kept
    | intro _ _ _
    | intro _ _
    | with_reducible refine ite_kept (fun _ => ?_) (fun _ => ?_)
    | split

theorem returnPacket_kept (s : State) (p : PortId) (len : Nat) (r : RtpPacket) (hK₀ : Kept B s) :
    Kept B (returnPacket s p len r) := by
  unfold returnPacket
  try dsimp only
  repeat' first
    | with_reducible assumption
    | with_reducible apply takeRtp_kept
    | with_reducible apply outOfLimits_kept
    | with_reducible refine ite_kept (fun _ => ?_) (fun _ => ?_)

theorem execPathSkewExpiry_kept (s : State) (hK₀ : Kept B s) :
    OutKept B (execPathSkewExpiry s) := by
  unfold execPathSkewExpiry
  try dsimp only
  repeat' first
    | with_reducible assumption
    | with_reducible apply next_kept
    | with_reducible apply returnError_kept
    | with_reducible apply drainHeld_kept
    | with_reducible refine ite_kept (fun _ => ?_) (fun _ => ?_)
    | split

theorem sendReport_kept (s : State) (p : PortId) (groups : List Nat) (hK₀ : Kept B s) :
    Kept B (sendReport s p groups) := by
  unfold sendReport
  try dsimp only
  repeat' first
    | with_reducible assumption
    | with_reducible apply endpointSend_kept
    | with_reducible apply none_kept
    | with_reducible refine ite_kept (fun _ => ?_) (fun _ => ?_)

theorem announceJoins_kept (old t : State) (hK₀ : Kept B t) :
    Kept B (announceJoins old t) := by
  unfold announceJoins
  try dsimp only
  repeat' first
    | with_reducible assumption
    | with_reducible apply sendReport_kept
    | with_reducible refine forEach_kept _ _ _ (fun _ _ _ => ?_) ?_

theorem doReturnEnable_kept (v : Nat) (s : State) (hK₀ : Kept B s) :
    OkKept B (doReturnEnable v s) := by
  unfold doReturnEnable
  try dsimp only
  repeat' first
    | with_reducible assumption
    | with_reducible apply announceJoins_kept
    | with_reducible apply ok_kept
    | with_reducible exact error_kept
    | with_reducible apply commitValue_kept
    | with_reducible apply waitIrap_kept
    | with_reducible refine ite_kept (fun _ => ?_) (fun _ => ?_)
    | split

theorem execReturnDecoderEnable_kept (k : Client) (v : Nat) (s : State) (hK₀ : Kept B s) :
    OutKept B (execReturnDecoderEnable k v s) := by
  unfold execReturnDecoderEnable
  try dsimp only
  repeat' first
    | with_reducible assumption
    | with_reducible apply next_kept
    | with_reducible apply serveWrite_kept
    | with_reducible apply doReturnEnable_kept

theorem monitorSend_kept (s : State) (m : MonPicture) (id : Option Int) (f : MonFrame) (hK₀ : Kept B s) :
    Kept B (monitorSend s m id f) := by
  unfold monitorSend
  try dsimp only
  repeat' first
    | with_reducible assumption
    | with_reducible apply bump_kept
    | with_reducible apply setFlag_kept
    | with_reducible apply some_kept
    | with_reducible refine ite_kept (fun _ => ?_) (fun _ => ?_)

theorem monitorRepeat_kept (s : State) (id : Option Int) (hK₀ : Kept B s) :
    Kept B (monitorRepeat s id) := by
  unfold monitorRepeat
  try dsimp only
  repeat' first
    | with_reducible assumption
    | with_reducible apply bump_kept
    | with_reducible apply monitorSend_kept
    | with_reducible refine ite_kept (fun _ => ?_) (fun _ => ?_)

theorem monitorShow_kept (s : State) (src : Nat) (hK₀ : Kept B s) :
    Kept B (monitorShow s src) := by
  unfold monitorShow
  try dsimp only
  repeat' first
    | with_reducible assumption
    | with_reducible apply none_kept
    | with_reducible apply monitorSend_kept
    | with_reducible apply monitorRepeat_kept
    | with_reducible apply some_kept
    | with_reducible apply bumpBy_kept
    | with_reducible refine ite_kept (fun _ => ?_) (fun _ => ?_)
    | split

theorem monitorPattern_kept (s : State) (refused : Bool) (hK₀ : Kept B s) :
    Kept B (monitorPattern s refused) := by
  unfold monitorPattern
  try dsimp only
  repeat' first
    | with_reducible assumption
    | with_reducible apply monitorSend_kept
    | with_reducible apply putFlag_kept

theorem monitorPicture_kept (s0 : State) (hK₀ : Kept B s0) :
    Kept B (monitorPicture s0) := by
  unfold monitorPicture
  try dsimp only
  repeat' first
    | with_reducible assumption
    | with_reducible apply clearFlag_kept
    | with_reducible apply none_kept
    | with_reducible apply monitorPattern_kept
    | with_reducible apply monitorShow_kept
    | with_reducible refine ite_kept (fun _ => ?_) (fun _ => ?_)

/-! ## Ports -/

theorem arpLearnBoth_kept (s : State) (p : PortId) (ip mac : Nat) (hK₀ : Kept B s) :
    Kept B (arpLearnBoth s p ip mac) := by
  unfold arpLearnBoth
  try dsimp only
  repeat' first
    | with_reducible assumption

theorem endpointDiscard_kept (s : State) (p : PortId) (hK₀ : Kept B s) :
    Kept B (endpointDiscard s p) := by
  unfold endpointDiscard
  try dsimp only
  repeat' first
    | with_reducible assumption
    | with_reducible apply countPort_kept

theorem endpointTake_kept (s : State) (p : PortId) (f : Frame) (hK₀ : Kept B s) :
    Kept B (endpointTake s p f) := by
  unfold endpointTake
  try dsimp only
  repeat' first
    | with_reducible assumption
    | with_reducible apply sendReport_kept
    | with_reducible apply endpointDiscard_kept
    | with_reducible apply arpLearnBoth_kept
    | with_reducible apply endpointSend_kept
    | with_reducible apply returnPacket_kept
    | with_reducible refine ite_kept (fun _ => ?_) (fun _ => ?_)
    | split

theorem toEndpoint_kept (s : State) (p : PortId) (f : Frame) (hK₀ : Kept B s) :
    Kept B (toEndpoint s p f) := by
  unfold toEndpoint
  try dsimp only
  repeat' first
    | with_reducible assumption
    | with_reducible apply endpointTake_kept
    | with_reducible apply endpointDiscard_kept
    | with_reducible refine ite_kept (fun _ => ?_) (fun _ => ?_)

theorem arpSend_kept (s : State) (p : PortId) (ip : Nat) (hK₀ : Kept B s) :
    Kept B (arpSend s p ip) := by
  unfold arpSend
  try dsimp only
  repeat' first
    | with_reducible assumption
    | with_reducible apply endpointSend_kept

theorem execArpRetry_kept (p : PortId) (ip : Nat) (s : State) (hK₀ : Kept B s) :
    OutKept B (execArpRetry p ip s) := by
  unfold execArpRetry
  try dsimp only
  repeat' first
    | with_reducible assumption
    | with_reducible apply next_kept
    | with_reducible apply arpSend_kept
    | with_reducible refine ite_kept (fun _ => ?_) (fun _ => ?_)
    | split

theorem execArpRefresh_kept (p : PortId) (ip : Nat) (s : State) (hK₀ : Kept B s) :
    OutKept B (execArpRefresh p ip s) := by
  unfold execArpRefresh
  try dsimp only
  repeat' first
    | with_reducible assumption
    | with_reducible apply next_kept
    | with_reducible apply arpSend_kept
    | with_reducible refine ite_kept (fun _ => ?_) (fun _ => ?_)
    | split

theorem fillMeters_kept (s : State) (n : Nat) (hK₀ : Kept B s) :
    Kept B (fillMeters s n) := by
  unfold fillMeters
  try dsimp only
  repeat' first
    | with_reducible assumption

theorem setMeter_kept (s : State) (m : MeterId) (b : Meter) (hK₀ : Kept B s) :
    Kept B (setMeter s m b) := by
  unfold setMeter
  try dsimp only
  repeat' first
    | with_reducible assumption

theorem meterFrame_kept (s : State) (p : PortId) (f : Frame) (hK₀ : Kept B s) :
    Kept B (meterFrame s p f).1 := by
  unfold meterFrame
  try dsimp only
  repeat' first
    | with_reducible assumption
    | with_reducible apply setMeter_kept
    | with_reducible apply bump_kept
    | with_reducible refine ite_kept (fun _ => ?_) (fun _ => ?_)
    | split

theorem learnSource_kept (s : State) (p : PortId) (mac : Nat) (hK₀ : Kept B s) :
    Kept B (learnSource s p mac) := by
  unfold learnSource
  try dsimp only
  repeat' first
    | with_reducible assumption
    | with_reducible apply bump_kept
    | intro _ _ _
    | intro _ _
    | with_reducible refine ite_kept (fun _ => ?_) (fun _ => ?_)

theorem execAddressAgeing_kept (mac : Nat) (s : State) (hK₀ : Kept B s) :
    OutKept B (execAddressAgeing mac s) := by
  unfold execAddressAgeing
  try dsimp only
  repeat' first
    | with_reducible assumption
    | with_reducible apply next_kept

theorem drainOne_kept (s : State) (w : Waiting) (h : Kept B s) : Kept B (drainOne s w).1 := by
  have go : ∀ (l : List PortId) (x : State × List PortId), Kept B x.1 → Kept B (l.foldl (fun x q =>
      if flowTakes x.1 (bridgedFlow q) [w.packet] then (enqueue x.1 (bridgedFlow q) [w.packet], x.2)
      else (x.1, x.2 ++ [q])) x).1 := by
    intro l
    induction l with
    | nil => exact fun _ hx => hx
    | cons a t ih =>
      intro x hx
      refine ih _ ?_
      dsimp only
      split
      · exact enqueue_kept _ _ _ hx
      · exact hx
  exact go _ _ h

theorem drainList_kept (s : State) (l : List Waiting) (held : List PortId) (h : Kept B s) :
    Kept B (drainList s l held).1 := by
  induction l generalizing s held with
  | nil => exact h
  | cons w rest ih => exact ih _ _ (drainOne_kept _ _ h)

theorem drainReceive_kept (s : State) (p : PortId) (h : Kept B s) : Kept B (drainReceive s p) :=
  drainList_kept _ _ _ h

theorem execReceiveBufferEnqueue_kept (p : PortId) (s : State) (hK₀ : Kept B s) :
    OutKept B (execReceiveBufferEnqueue p s) := by
  unfold execReceiveBufferEnqueue
  try dsimp only
  repeat' first
    | with_reducible assumption
    | with_reducible apply next_kept
    | with_reducible apply drainReceive_kept

theorem forward_kept (s : State) (p : PortId) (f : Frame) (out : List PortId) (hK₀ : Kept B s) :
    Kept B (forward s p f out) := by
  unfold forward
  try dsimp only
  repeat' first
    | with_reducible assumption
    | with_reducible apply countPort_kept
    | with_reducible apply bump_kept
    | with_reducible apply drainReceive_kept
    | with_reducible apply forEach_kept
    | with_reducible apply refuseFlow_kept
    | intro _ _ _
    | intro _ _
    | with_reducible refine ite_kept (fun _ => ?_) (fun _ => ?_)
    | split

theorem routeFrame_kept (s : State) (p : PortId) (f : Frame) (hK₀ : Kept B s) :
    Kept B (routeFrame s p f) := by
  unfold routeFrame
  try dsimp only
  repeat' first
    | with_reducible assumption
    | with_reducible apply countPort_kept
    | with_reducible apply bump_kept
    | with_reducible apply learnSource_kept
    | with_reducible apply toEndpoint_kept
    | with_reducible apply forward_kept
    | with_reducible refine ite_kept (fun _ => ?_) (fun _ => ?_)

theorem execFrameRx_kept (p : PortId) (f : Frame) (s : State) (hK₀ : Kept B s) :
    OutKept B (execFrameRx p f s) := by
  unfold execFrameRx
  try dsimp only
  repeat' first
    | with_reducible assumption
    | with_reducible apply countPort_kept
    | with_reducible apply next_kept
    | with_reducible apply bumpBy_kept
    | with_reducible apply bump_kept
    | with_reducible apply meterFrame_kept
    | with_reducible apply routeFrame_kept
    | with_reducible refine ite_kept (fun _ => ?_) (fun _ => ?_)
    | split

theorem announcePort_kept (s : State) (p : PortId) (hK₀ : Kept B s) :
    Kept B (announcePort s p) := by
  unfold announcePort
  try dsimp only
  repeat' first
    | with_reducible assumption
    | with_reducible apply sendReport_kept
    | with_reducible apply endpointSend_kept
    | with_reducible refine ite_kept (fun _ => ?_) (fun _ => ?_)

theorem execPortLinkUp_kept (p : PortId) (s : State) (hK₀ : Kept B s) :
    OutKept B (execPortLinkUp p s) := by
  unfold execPortLinkUp
  try dsimp only
  repeat' first
    | with_reducible assumption
    | with_reducible apply next_kept
    | with_reducible apply announcePort_kept

theorem linkDown_kept (s : State) (p : PortId) (hK₀ : Kept B s) :
    Kept B (linkDown s p) := by
  unfold linkDown
  try dsimp only
  repeat' first
    | with_reducible assumption
    | with_reducible apply countPort_kept
    | with_reducible apply setFlag_kept

theorem execPortLinkDown_kept (p : PortId) (s : State) (hK₀ : Kept B s) :
    OutKept B (execPortLinkDown p s) := by
  unfold execPortLinkDown
  try dsimp only
  repeat' first
    | with_reducible assumption
    | with_reducible apply next_kept
    | with_reducible apply linkDown_kept

theorem execSelectorSwitch_kept (p : PortId) (s : State) (hK₀ : Kept B s) :
    OutKept B (execSelectorSwitch p s) := by
  unfold execSelectorSwitch
  try dsimp only
  repeat' first
    | with_reducible assumption
    | with_reducible apply next_kept
    | with_reducible apply announcePort_kept
    | intro _ _ _
    | intro _ _
    | with_reducible refine ite_kept (fun _ => ?_) (fun _ => ?_)
    | split

theorem execSessionDescriptionRead_kept (k : Client) (f : FlowId) (s : State) (hK₀ : Kept B s) :
    OutKept B (execSessionDescriptionRead k f s) := by
  unfold execSessionDescriptionRead
  try dsimp only
  repeat' first
    | with_reducible assumption
    | with_reducible apply next_kept
    | with_reducible apply answer_kept
    | with_reducible apply touchRead_kept
    | with_reducible refine ite_kept (fun _ => ?_) (fun _ => ?_)
    | split

/-! ## Tasks -/

theorem setTaskFlag_kept (s : State) (u : UnitId) (ident : Nat) (flag : Fin 32) (hK₀ : Kept B s) :
    Kept B (setTaskFlag s u ident flag) := by
  unfold setTaskFlag
  try dsimp only
  repeat' first
    | with_reducible assumption
    | with_reducible apply setFlag_kept
    | with_reducible refine ite_kept (fun _ => ?_) (fun _ => ?_)
    | split

theorem setTickFlags_kept (s : State) (u : UnitId) (hK₀ : Kept B s) :
    Kept B (setTickFlags s u) := by
  unfold setTickFlags
  try dsimp only
  repeat' first
    | with_reducible assumption
    | with_reducible apply forEach_kept
    | with_reducible apply setTaskFlag_kept
    | intro _ _ _

theorem execFlagWriteRetry_kept (u : UnitId) (s : State) (hK₀ : Kept B s) :
    OutKept B (execFlagWriteRetry u s) := by
  unfold execFlagWriteRetry
  try dsimp only
  repeat' first
    | with_reducible assumption
    | with_reducible apply next_kept

theorem execTimerInsert_kept (u : UnitId) (task laps : Nat) (flag : Fin 32) (s : State) (hK₀ : Kept B s) :
    OutKept B (execTimerInsert u task laps flag s) := by
  unfold execTimerInsert
  try dsimp only
  repeat' first
    | with_reducible assumption
    | with_reducible apply next_kept
    | intro _ _ _
    | intro _ _
    | with_reducible refine ite_kept (fun _ => ?_) (fun _ => ?_)
    | split

theorem expireTimers_kept (u : UnitId) (k : Nat) (s : State) (h : Kept B s) : Kept B (expireTimers u k s) := by
  induction k generalizing s with
  | zero => exact h
  | succ k ih =>
    unfold expireTimers
    dsimp only
    split
    · split
      · exact ih _ (setTaskFlag_kept _ _ _ _ h)
      · exact h
    · exact h

theorem execTimerExpiry_kept (u : UnitId) (s : State) (hK₀ : Kept B s) :
    OutKept B (execTimerExpiry u s) := by
  unfold execTimerExpiry
  try dsimp only
  repeat' first
    | with_reducible assumption
    | with_reducible refine next_kept ?_
    | with_reducible apply expireTimers_kept

theorem taskFlag_kept (s : State) (u : UnitId) (writer : Nat) (w : Nat × Fin 32) (hK₀ : Kept B s) :
    Kept B (taskFlag s u writer w) := by
  unfold taskFlag
  try dsimp only
  repeat' first
    | with_reducible assumption
    | with_reducible apply some_kept
    | with_reducible apply setFlag_kept
    | with_reducible apply none_kept
    | with_reducible refine ite_kept (fun _ => ?_) (fun _ => ?_)
    | split

theorem execTaskRun_kept (u : UnitId) (e : EngineId) (x : TaskTurn) (s : State) (hK₀ : Kept B s) :
    OutKept B (execTaskRun u e x s) := by
  unfold execTaskRun
  try dsimp only
  repeat' first
    | with_reducible assumption
    | with_reducible refine next_kept ?_
    | with_reducible apply some_kept
    | with_reducible apply taskFlag_kept
    | with_reducible apply none_kept
    | with_reducible apply retryDatagrams_kept
    | with_reducible refine forEach_kept _ _ _ (fun _ _ _ => ?_) ?_
    | with_reducible refine ite_kept (fun _ => ?_) (fun _ => ?_)
    | split

theorem postJob_kept (s : State) (c : Chan) (n : StreamId) (stripe : Nat) (o : Operand) (hK₀ : Kept B s) :
    Kept B (postJob s c n stripe o) := by
  unfold postJob
  try dsimp only
  repeat' first
    | with_reducible assumption

/-! ## Dram -/

theorem unitFaultOf_kept (s : State) (u : UnitId) (src : UnitFaultSource) (hK₀ : Kept B s) :
    Kept B (unitFaultOf s u src) := by
  unfold unitFaultOf
  try dsimp only
  repeat' first
    | with_reducible assumption
    | with_reducible apply setFlag_kept
    | with_reducible apply reportUnitFault_kept
    | with_reducible apply raiseEmcyOf_kept
    | with_reducible refine ite_kept (fun _ => ?_) (fun _ => ?_)

theorem noteFault_kept (s : State) (u : UnitId) (ctx : Fin 64) (v kind : Nat) (write : Bool) (hK₀ : Kept B s) :
    Kept B (noteFault s u ctx v kind write) := by
  unfold noteFault
  try dsimp only
  repeat' first
    | with_reducible assumption
    | with_reducible apply regPut_kept
    | with_reducible apply bump_kept
    | with_reducible apply setFlag_kept
    | with_reducible refine ite_kept (fun _ => ?_) (fun _ => ?_)

theorem memoryFault_kept (s : State) (u : UnitId) (hK₀ : Kept B s) :
    Kept B (memoryFault s u) := by
  unfold memoryFault
  try dsimp only
  repeat' first
    | with_reducible assumption
    | with_reducible apply reportUnitFault_kept
    | with_reducible apply raiseEmcyOf_kept

theorem putByte_wf (d : DramState) (a : Nat) (b : BitVec 8) (h : assocWf unlistedByte d.mem = true) :
    assocWf unlistedByte (putByte d a b).mem = true := assocPut_wf _ _ _ _ h

theorem putBytes_wf (d : DramState) (a : Nat) (l : List (BitVec 8)) (h : assocWf unlistedByte d.mem = true) :
    assocWf unlistedByte (putBytes d a l).mem = true := by
  induction l generalizing d a with
  | nil => exact h
  | cons b t ih => exact ih _ _ (putByte_wf _ _ _ h)

theorem loseSegments_wf (d : DramState) (tag : Nat) (h : assocWf unlistedByte d.mem = true) :
    assocWf unlistedByte (loseSegments d tag).mem = true := assocWf_filter _ _ _ h

theorem activate1_kept (s : State) (u : UnitId) (ch : DramChan) (bank : Fin 16) (row : Nat) (hK₀ : Kept B s) :
    Kept B (activate1 s u ch bank row) := by
  unfold activate1
  try dsimp only
  repeat' first
    | with_reducible assumption
    | with_reducible apply countUnit_kept
    | (show assocWf _ _ = true; assumption)
    | with_reducible apply setDram_kept
    | with_reducible apply setFlag_kept
    | with_reducible apply bumpBy_kept
    | intro _ _ _
    | intro _ _
    | with_reducible refine ite_kept (fun _ => ?_) (fun _ => ?_)

theorem spoilRows_kept (s : State) (c : Chan) (hK₀ : Kept B s) : Kept B (spoilRows s c) := by
  unfold spoilRows
  with_reducible assumption

theorem accessStatus_kept (s : State) (u : UnitId) (ident : Nat) (failed : Bool) (hK₀ : Kept B s) :
    Kept B (accessStatus s u ident failed) := by
  unfold accessStatus
  try dsimp only
  repeat' first
    | with_reducible assumption

theorem correctBlock_kept (s : State) (u : UnitId) (a groups : Nat) (newer : Bool) (hK₀ : Kept B s) :
    Kept B (correctBlock s u a groups newer) := by
  unfold correctBlock
  try dsimp only
  repeat' first
    | with_reducible assumption
    | with_reducible apply logNoteLimited_kept
    | with_reducible apply countUnit_kept
    | with_reducible apply none_kept
    | with_reducible apply bumpHalf_kept
    | with_reducible apply setDram_kept
    | with_reducible refine forEach_kept _ _ _ (fun _ _ _ => ?_) ?_
    | (show assocWf _ _ = true; exact putBytes_wf _ _ _ (by assumption))
    | intro _ _ _
    | intro _ _
    | with_reducible refine ite_kept (fun _ => ?_) (fun _ => ?_)

theorem noteUncorrectable_kept (s : State) (u : UnitId) (a : Nat) (hK₀ : Kept B s) :
    Kept B (noteUncorrectable s u a) := by
  unfold noteUncorrectable
  try dsimp only
  repeat' first
    | with_reducible assumption
    | with_reducible apply putField_kept
    | with_reducible apply setFlag_kept
    | with_reducible apply regPut_kept
    | with_reducible apply countUnit_kept
    | with_reducible apply none_kept
    | with_reducible refine ite_kept (fun _ => ?_) (fun _ => ?_)

theorem restoreRecord_kept (s : State) (u : UnitId) (a : Nat) (hK₀ : Kept B s) :
    Kept B (restoreRecord s u a) := by
  unfold restoreRecord
  try dsimp only
  repeat' first
    | with_reducible assumption
    | with_reducible apply bumpHalf_kept
    | with_reducible apply setDram_kept
    | with_reducible apply some_kept
    | with_reducible apply enterRepair_kept
    | (show assocWf _ _ = true; exact putBytes_wf _ _ _ (by assumption))
    | intro _ _ _
    | intro _ _
    | with_reducible refine ite_kept (fun _ => ?_) (fun _ => ?_)

theorem eccEffect_kept (s : State) (u : UnitId) (a : Nat) (newer : Bool) (r : DramRequest) (hK₀ : Kept B s) :
    Kept B (eccEffect s u a newer r) := by
  unfold eccEffect
  try dsimp only
  repeat' first
    | with_reducible assumption
    | with_reducible apply correctBlock_kept
    | with_reducible apply noteUncorrectable_kept
    | with_reducible apply memoryFault_kept
    | with_reducible apply spoilRows_kept
    | with_reducible apply accessStatus_kept
    | with_reducible apply restoreRecord_kept
    | with_reducible apply some_kept
    | with_reducible refine ite_kept (fun _ => ?_) (fun _ => ?_)
    | split

theorem suppressedAt_kept (s : State) (ctx : Fin 64) (hK₀ : Kept B s) :
    Kept B (suppressedAt s ctx) := by
  unfold suppressedAt
  try dsimp only
  repeat' first
    | with_reducible assumption
    | with_reducible apply returnSuppressed_kept
    | with_reducible apply suppressedWrite_kept
    | with_reducible refine ite_kept (fun _ => ?_) (fun _ => ?_)

theorem suppressRequest_kept (s : State) (u : UnitId) (r : DramRequest) (k : Nat) (hK₀ : Kept B s) :
    Kept B (suppressRequest s u r k) := by
  unfold suppressRequest
  try dsimp only
  repeat' first
    | with_reducible assumption
    | with_reducible apply noteFault_kept
    | with_reducible apply setTaskFlag_kept
    | with_reducible apply accessStatus_kept
    | with_reducible apply suppressedAt_kept
    | with_reducible apply memoryFault_kept
    | with_reducible refine ite_kept (fun _ => ?_) (fun _ => ?_)
    | split

theorem touchBlock_kept (s : State) (u : UnitId) (a : Nat) (hK₀ : Kept B s) :
    Kept B (touchBlock s u a) := by
  unfold touchBlock
  try dsimp only
  repeat' first
    | with_reducible assumption
    | with_reducible apply activate1_kept
    | with_reducible apply setDram_kept
    | intro _ _ _
    | intro _ _
    | (show assocWf _ _ = true; assumption)
    | with_reducible refine ite_kept (fun _ => ?_) (fun _ => ?_)

theorem touchBytes_kept (s : State) (u : UnitId) (a n : Nat) (hK₀ : Kept B s) :
    Kept B (touchBytes s u a n) := by
  unfold touchBytes
  try dsimp only
  repeat' first
    | with_reducible assumption
    | with_reducible apply touchBlock_kept
    | with_reducible refine forEach_kept _ _ _ (fun _ _ _ => ?_) ?_

theorem serveRequest_kept (s : State) (u : UnitId) (newer : Bool) (r : DramRequest) (hK₀ : Kept B s) :
    Kept B (serveRequest s u newer r) := by
  unfold serveRequest
  try dsimp only
  repeat' first
    | with_reducible assumption
    | with_reducible apply error_kept
    | with_reducible apply suppressRequest_kept
    | with_reducible apply ok_kept
    | with_reducible apply touchBytes_kept
    | with_reducible apply accessStatus_kept
    | with_reducible apply setDram_kept
    | with_reducible apply eccEffect_kept
    | with_reducible apply monitorSample_kept
    | (show assocWf _ _ = true; exact putBytes_wf _ _ _ (by assumption))
    | intro _ _ _
    | intro _ _
    | with_reducible refine ite_kept (fun _ => ?_) (fun _ => ?_)
    | split

theorem serveHeld_kept (s : State) (u : UnitId) (hK₀ : Kept B s) :
    Kept B (serveHeld s u) := by
  unfold serveHeld
  try dsimp only
  repeat' first
    | with_reducible assumption
    | with_reducible apply serveRequest_kept
    | with_reducible apply setDram_kept
    | with_reducible refine forEach_kept _ _ _ (fun _ _ _ => ?_) ?_
    | intro _ _ _
    | intro _ _
    | with_reducible refine ite_kept (fun _ => ?_) (fun _ => ?_)

theorem holdRequest_kept (s : State) (u : UnitId) (ch : DramChan) (r : DramRequest) (hK₀ : Kept B s) :
    Kept B (holdRequest s u ch r) := by
  unfold holdRequest
  try dsimp only
  repeat' first
    | with_reducible assumption
    | with_reducible apply setDram_kept
    | with_reducible apply countUnit_kept
    | with_reducible apply none_kept
    | intro _ _ _
    | intro _ _
    | with_reducible refine ite_kept (fun _ => ?_) (fun _ => ?_)

theorem execDramRequest_kept (u : UnitId) (ch : DramChan) (waiting : List DramRequest) (s0 : State) (hK₀ : Kept B s0) :
    OutKept B (execDramRequest u ch waiting s0) := by
  unfold execDramRequest
  try dsimp only
  repeat' first
    | with_reducible assumption
    | with_reducible refine next_kept ?_
    | with_reducible apply serveHeld_kept
    | with_reducible apply none_kept
    | with_reducible apply some_kept
    | with_reducible apply holdRequest_kept
    | with_reducible apply countUnit_kept
    | with_reducible apply serveRequest_kept
    | with_reducible apply setDram_kept
    | intro _ _ _
    | intro _ _
    | (show assocWf _ _ = true; assumption)
    | with_reducible refine ite_kept (fun _ => ?_) (fun _ => ?_)
    | split

theorem noteDebt_kept (s : State) (u : UnitId) (debt : Int) (hK₀ : Kept B s) :
    Kept B (noteDebt s u debt) := by
  unfold noteDebt
  try dsimp only
  repeat' first
    | with_reducible assumption
    | with_reducible apply putSigned_kept
    | with_reducible refine ite_kept (fun _ => ?_) (fun _ => ?_)

theorem execRefreshInterval_kept (u : UnitId) (ch : DramChan) (queued : RefreshQueue) (s0 : State) (hK₀ : Kept B s0) :
    OutKept B (execRefreshInterval u ch queued s0) := by
  unfold execRefreshInterval
  try dsimp only
  repeat' first
    | with_reducible assumption
    | with_reducible refine next_kept ?_
    | with_reducible apply serveHeld_kept
    | with_reducible apply noteDebt_kept
    | with_reducible apply setDram_kept
    | with_reducible apply setFlag_kept
    | with_reducible apply countUnit_kept
    | with_reducible apply none_kept
    | intro _ _ _
    | intro _ _
    | (show assocWf _ _ = true; assumption)
    | with_reducible refine ite_kept (fun _ => ?_) (fun _ => ?_)
    | split

theorem dramThermal_kept (s : State) (u : UnitId) (hot beyond : Bool) (hK₀ : Kept B s) :
    Kept B (dramThermal s u hot beyond) := by
  unfold dramThermal
  try dsimp only
  repeat' first
    | with_reducible assumption
    | with_reducible apply putFlag_kept
    | with_reducible apply raiseEmcyOf_kept
    | with_reducible apply setFlag_kept
    | with_reducible apply unitFaultOf_kept
    | with_reducible refine ite_kept (fun _ => ?_) (fun _ => ?_)

theorem execMr4Poll_kept (u : UnitId) (rates : Vector Nat 32) (tempChanged : Bool) (s : State) (hK₀ : Kept B s) :
    OutKept B (execMr4Poll u rates tempChanged s) := by
  unfold execMr4Poll
  try dsimp only
  repeat' first
    | with_reducible assumption
    | with_reducible refine next_kept ?_
    | with_reducible apply setDram_kept
    | with_reducible apply regPut_kept
    | with_reducible apply dramThermal_kept
    | intro _ _ _
    | intro _ _
    | with_reducible refine ite_kept (fun _ => ?_) (fun _ => ?_)
    | split

theorem execHammerWindowClear_kept (u : UnitId) (s : State) (hK₀ : Kept B s) :
    OutKept B (execHammerWindowClear u s) := by
  unfold execHammerWindowClear
  try dsimp only
  repeat' first
    | with_reducible assumption
    | with_reducible apply next_kept
    | with_reducible apply setDram_kept
    | intro _ _ _
    | intro _ _
    | with_reducible refine ite_kept (fun _ => ?_) (fun _ => ?_)
    | split

theorem finishScrub_kept (s : State) (u : UnitId) (hK₀ : Kept B s) :
    Kept B (finishScrub s u) := by
  unfold finishScrub
  try dsimp only
  repeat' first
    | with_reducible assumption
    | with_reducible apply countUnit_kept
    | with_reducible apply setDram_kept
    | with_reducible apply bump_kept
    | with_reducible apply regPut_kept
    | intro _ _ _
    | intro _ _
    | with_reducible refine ite_kept (fun _ => ?_) (fun _ => ?_)

theorem execSelfRefreshEntry_kept (u : UnitId) (s0 : State) (hK₀ : Kept B s0) :
    OutKept B (execSelfRefreshEntry u s0) := by
  unfold execSelfRefreshEntry
  try dsimp only
  repeat' first
    | with_reducible assumption
    | with_reducible refine next_kept ?_
    | with_reducible apply serveHeld_kept
    | with_reducible apply setDram_kept
    | intro _ _ _
    | intro _ _
    | with_reducible refine ite_kept (fun _ => ?_) (fun _ => ?_)
    | split

theorem execSelfRefreshCommit_kept (u : UnitId) (s : State) (hK₀ : Kept B s) :
    OutKept B (execSelfRefreshCommit u s) := by
  unfold execSelfRefreshCommit
  try dsimp only
  repeat' first
    | with_reducible assumption
    | with_reducible apply next_kept
    | with_reducible apply setDram_kept
    | intro _ _ _
    | intro _ _
    | with_reducible refine ite_kept (fun _ => ?_) (fun _ => ?_)
    | split

theorem wakeDram_kept (s : State) (u : UnitId) (wait : Nat) (hK₀ : Kept B s) :
    Kept B (wakeDram s u wait) := by
  unfold wakeDram
  try dsimp only
  repeat' first
    | with_reducible assumption
    | (show assocWf _ _ = true; exact loseSegments_wf _ _ (by assumption))
    | with_reducible apply setDram_kept
    | with_reducible apply drawFree_kept
    | intro _ _ _
    | intro _ _
    | with_reducible refine ite_kept (fun _ => ?_) (fun _ => ?_)
    | split

theorem leaveRefresh_kept (s : State) (u : UnitId) (hK₀ : Kept B s) :
    Kept B (leaveRefresh s u) := by
  unfold leaveRefresh
  try dsimp only
  repeat' first
    | with_reducible assumption
    | with_reducible apply wakeDram_kept
    | with_reducible apply setDram_kept
    | intro _ _ _
    | intro _ _
    | with_reducible refine ite_kept (fun _ => ?_) (fun _ => ?_)

theorem execScrubPassStart_kept (u : UnitId) (s : State) (hK₀ : Kept B s) :
    OutKept B (execScrubPassStart u s) := by
  unfold execScrubPassStart
  try dsimp only
  repeat' first
    | with_reducible assumption
    | with_reducible apply leaveRefresh_kept
    | with_reducible apply next_kept
    | with_reducible apply finishScrub_kept
    | with_reducible apply setDram_kept
    | with_reducible apply setFlag_kept
    | intro _ _ _
    | intro _ _
    | with_reducible refine ite_kept (fun _ => ?_) (fun _ => ?_)
    | split

theorem execSelfRefreshExit_kept (u : UnitId) (heldSince : Nat) (s : State) (hK₀ : Kept B s) :
    OutKept B (execSelfRefreshExit u heldSince s) := by
  unfold execSelfRefreshExit
  try dsimp only
  repeat' first
    | with_reducible assumption
    | with_reducible apply leaveRefresh_kept
    | intro _ _
    | with_reducible apply setDram_kept
    | with_reducible apply next_kept
    | with_reducible apply wakeDram_kept
    | with_reducible apply regMax_kept
    | with_reducible refine ite_kept (fun _ => ?_) (fun _ => ?_)
    | split

theorem execZqLatch_kept (u : UnitId) (s : State) (hK₀ : Kept B s) :
    OutKept B (execZqLatch u s) := by
  unfold execZqLatch
  try dsimp only
  repeat' first
    | with_reducible assumption
    | with_reducible apply next_kept
    | with_reducible apply setDram_kept
    | intro _ _ _
    | intro _ _
    | with_reducible refine ite_kept (fun _ => ?_) (fun _ => ?_)
    | split

theorem execDriftMeasure_kept (u : UnitId) (drifted : BitVec 32) (s : State) (hK₀ : Kept B s) :
    OutKept B (execDriftMeasure u drifted s) := by
  unfold execDriftMeasure
  try dsimp only
  repeat' first
    | with_reducible assumption
    | with_reducible refine next_kept ?_
    | with_reducible apply setDram_kept
    | intro _ _ _
    | intro _ _
    | with_reducible refine ite_kept (fun _ => ?_) (fun _ => ?_)
    | split

theorem execStandbyRecentre_kept (s : State) (hK₀ : Kept B s) :
    OutKept B (execStandbyRecentre s) := by
  unfold execStandbyRecentre
  try dsimp only
  repeat' first
    | with_reducible assumption
    | with_reducible apply next_kept
    | with_reducible apply wakeDram_kept
    | with_reducible apply setDram_kept
    | intro _ _ _
    | intro _ _
    | with_reducible refine ite_kept (fun _ => ?_) (fun _ => ?_)
    | split

theorem recentreStep_kept (s : State) (u : UnitId) (limit : Option Nat) (hK₀ : Kept B s) :
    Kept B (recentreStep s u limit) := by
  unfold recentreStep
  try dsimp only
  repeat' first
    | with_reducible assumption
    | with_reducible apply none_kept
    | with_reducible apply some_kept
    | with_reducible apply setDram_kept
    | with_reducible apply modStall_kept
    | with_reducible refine forEach_kept _ _ _ (fun _ _ _ => ?_) ?_
    | intro _ _ _
    | intro _ _
    | (show assocWf _ _ = true; assumption)
    | with_reducible refine ite_kept (fun _ => ?_) (fun _ => ?_)
    | split

theorem loadContext_kept (s : State) (u : UnitId) (l : AtuLoad) (hK₀ : Kept B s) :
    Kept B (loadContext s u l) := by
  unfold loadContext
  try dsimp only
  repeat' first
    | with_reducible assumption
    | with_reducible apply setFlag_kept
    | with_reducible apply none_kept
    | with_reducible apply some_kept
    | with_reducible refine ite_kept (fun _ => ?_) (fun _ => ?_)
    | split

theorem loadContexts_kept (s : State) (l : List AtuLoad) (hK₀ : Kept B s) :
    Kept B (loadContexts s l) := by
  unfold loadContexts
  try dsimp only
  repeat' first
    | with_reducible assumption
    | with_reducible apply forEach_kept
    | with_reducible apply loadContext_kept
    | with_reducible apply regPut_kept
    | intro _ _ _

/-! ## Dma -/

theorem modDma_kept (s : State) (u : UnitId) (d : DmaId) (f : Dma → Dma) (hK₀ : Kept B s) :
    Kept B (modDma s u d f) := by
  unfold modDma
  try dsimp only
  repeat' first
    | with_reducible assumption

theorem dmaEvent_kept (s : State) (u : UnitId) (d : DmaId) (flag : Fin 32) (hK₀ : Kept B s) :
    Kept B (dmaEvent s u d flag) := by
  unfold dmaEvent
  try dsimp only
  repeat' first
    | with_reducible assumption
    | with_reducible apply bump_kept
    | with_reducible apply setTaskFlag_kept
    | with_reducible refine ite_kept (fun _ => ?_) (fun _ => ?_)
    | split

theorem settleReading_kept (s : State) (hK₀ : Kept B s) :
    Kept B (settleReading s) := by
  unfold settleReading
  try dsimp only
  repeat' first
    | with_reducible assumption

theorem stopDma_kept (s : State) (u : UnitId) (d : DmaId) (cause side addr ctx : Nat) (hK₀ : Kept B s) :
    Kept B (stopDma s u d cause side addr ctx) := by
  unfold stopDma
  try dsimp only
  repeat' first
    | with_reducible assumption
    | with_reducible apply modDma_kept
    | with_reducible apply bumpHalf_kept
    | with_reducible apply settleReading_kept
    | with_reducible apply dmaEvent_kept
    | intro _ _ _
    | intro _ _
    | with_reducible refine ite_kept (fun _ => ?_) (fun _ => ?_)

theorem takeDescriptor_kept (s : State) (u : UnitId) (d : DmaId) (desc : Descriptor) (hK₀ : Kept B s) :
    Kept B (takeDescriptor s u d desc) := by
  unfold takeDescriptor
  try dsimp only
  repeat' first
    | with_reducible assumption
    | with_reducible apply modDma_kept
    | with_reducible apply some_kept
    | with_reducible apply stopDma_kept
    | with_reducible apply none_kept
    | with_reducible refine ite_kept (fun _ => ?_) (fun _ => ?_)

theorem failFetch_kept (s : State) (u : UnitId) (d : DmaId) (k : Nat) (hK₀ : Kept B s) :
    Kept B (failFetch s u d k) := by
  unfold failFetch
  try dsimp only
  repeat' first
    | with_reducible assumption
    | with_reducible apply noteFault_kept
    | with_reducible apply modDma_kept
    | with_reducible apply stopDma_kept

theorem fetchNext_kept (s : State) (u : UnitId) (d : DmaId) (hK₀ : Kept B s) :
    Kept B (fetchNext s u d) := by
  unfold fetchNext
  try dsimp only
  repeat' first
    | with_reducible assumption
    | with_reducible apply ok_kept
    | with_reducible apply takeDescriptor_kept
    | with_reducible apply error_kept
    | with_reducible apply failFetch_kept
    | with_reducible refine ite_kept (fun _ => ?_) (fun _ => ?_)
    | split

theorem writeElem_kept (u : UnitId) (ctx : Fin 64) (base : Int) (l : List (BitVec 8)) (s : State) (i : Nat)
    (h : Kept B s) : Kept B (writeElem u ctx base s l i).1 := by
  induction l generalizing s i with
  | nil => exact h
  | cons b t ih =>
    unfold writeElem
    split
    · exact h
    · exact ih _ _ (setDram_kept _ _ _ (fun _ hd => putByte_wf _ _ _ hd) h)

theorem writePacket_kept (s : State) (u : UnitId) (d : DmaId) (x : Descriptor) (first : Vector Nat 3) (last : Bool) (hK₀ : Kept B s) :
    Kept B (writePacket s u d x first last) := by
  unfold writePacket
  try dsimp only
  repeat' first
    | with_reducible assumption
    | with_reducible apply modDma_kept
    | with_reducible apply enqueue_kept
    | with_reducible apply refuseFlow_kept
    | intro _ _ _
    | intro _ _
    | with_reducible refine ite_kept (fun _ => ?_) (fun _ => ?_)

theorem faultElem_kept (s : State) (u : UnitId) (d : DmaId) (f : ElemFault) (hK₀ : Kept B s) :
    Kept B (faultElem s u d f) := by
  unfold faultElem
  try dsimp only
  repeat' first
    | with_reducible assumption
    | with_reducible apply noteUncorrectable_kept
    | with_reducible apply noteFault_kept
    | with_reducible apply stopDma_kept
    | with_reducible refine ite_kept (fun _ => ?_) (fun _ => ?_)

theorem touchVirtual_kept (s : State) (u : UnitId) (ctx : Fin 64) (base : Int) (n : Nat) (write : Bool) (hK₀ : Kept B s) :
    Kept B (touchVirtual s u ctx base n write) := by
  unfold touchVirtual
  try dsimp only
  repeat' first
    | with_reducible assumption
    | with_reducible apply ok_kept
    | with_reducible apply touchBlock_kept
    | with_reducible apply error_kept
    | with_reducible refine forEach_kept _ _ _ (fun _ _ _ => ?_) ?_
    | with_reducible refine ite_kept (fun _ => ?_) (fun _ => ?_)
    | split

theorem moveElem_kept (s : State) (u : UnitId) (d : DmaId) (x : Descriptor) (found : List (Nat × EccResult)) (h : Kept B s) :
    Kept B (moveElem s u d x found) := by
  unfold moveElem
  dsimp only
  split
  · split
    · exact faultElem_kept _ _ _ _ (modDma_kept _ _ _ _ (writeElem_kept _ _ _ _ _ _ (touchVirtual_kept _ _ _ _ _ _ h)))
    · exact modDma_kept _ _ _ _ (modDma_kept _ _ _ _ (writeElem_kept _ _ _ _ _ _ (touchVirtual_kept _ _ _ _ _ _ h)))
  · split
    · exact faultElem_kept _ _ _ _ (modDma_kept _ _ _ _ h)
    · split
      · exact writePacket_kept _ _ _ _ _ _ (modDma_kept _ _ _ _ h)
      · exact modDma_kept _ _ _ _ h

theorem readBlocks_kept (s : State) (u : UnitId) (ctx : Fin 64) (found : List (Nat × EccResult)) (l : List Int) (hK₀ : Kept B s) :
    Kept B (readBlocks s u ctx found l) := by
  unfold readBlocks
  try dsimp only
  repeat' first
    | with_reducible assumption
    | with_reducible apply ok_kept
    | with_reducible apply touchBlock_kept
    | with_reducible apply some_kept
    | with_reducible apply correctBlock_kept
    | with_reducible apply error_kept
    | with_reducible refine forEach_kept _ _ _ (fun _ _ _ => ?_) ?_
    | with_reducible refine ite_kept (fun _ => ?_) (fun _ => ?_)
    | split

theorem burstGo_kept (u : UnitId) (d : DmaId) (found : List (Nat × EccResult)) (fuel : Nat) (blocks : List Int) (bytes : Nat) (s : State)
    (h : Kept B s) : Kept B (burstGo u d found fuel blocks bytes s) := by
  induction fuel generalizing blocks bytes s with
  | zero => exact h
  | succ k ih =>
    unfold burstGo
    dsimp only
    split
    · exact h
    · split
      · exact h
      · split
        · exact h
        · exact ih _ _ _ (moveElem_kept _ _ _ _ _ (readBlocks_kept _ _ _ _ _ h))

theorem execDmaBurst_kept (u : UnitId) (d : DmaId) (found : List (Nat × EccResult)) (s : State) (hK₀ : Kept B s) :
    OutKept B (execDmaBurst u d found s) := by
  unfold execDmaBurst
  try dsimp only
  repeat' first
    | with_reducible assumption
    | with_reducible refine next_kept ?_
    | with_reducible apply some_kept
    | with_reducible apply burstGo_kept
    | with_reducible apply setDram_kept
    | intro _ _ _
    | intro _ _
    | with_reducible refine ite_kept (fun _ => ?_) (fun _ => ?_)
    | split

theorem pictureSent_kept (s : State) (d : DmaId) (hK₀ : Kept B s) :
    Kept B (pictureSent s d) := by
  unfold pictureSent
  try dsimp only
  repeat' first
    | with_reducible assumption
    | with_reducible apply bump_kept

theorem execDescriptorComplete_kept (u : UnitId) (d : DmaId) (s : State) (hK₀ : Kept B s) :
    OutKept B (execDescriptorComplete u d s) := by
  unfold execDescriptorComplete
  try dsimp only
  repeat' first
    | with_reducible assumption
    | with_reducible apply next_kept
    | with_reducible apply descriptorSent_kept
    | with_reducible apply modDma_kept
    | with_reducible apply bump_kept
    | with_reducible apply pictureSent_kept
    | with_reducible apply settleReading_kept
    | with_reducible apply dmaEvent_kept
    | intro _ _ _
    | intro _ _
    | with_reducible refine ite_kept (fun _ => ?_) (fun _ => ?_)
    | split

theorem execLanded_kept (u : UnitId) (d : DmaId) (s : State) (hK₀ : Kept B s) :
    OutKept B (execLanded u d s) := by
  unfold execLanded
  try dsimp only
  repeat' first
    | with_reducible assumption
    | with_reducible apply next_kept
    | with_reducible apply modDma_kept

theorem execDmaStallResume_kept (u : UnitId) (d : DmaId) (s : State) (hK₀ : Kept B s) :
    OutKept B (execDmaStallResume u d s) := by
  unfold execDmaStallResume
  try dsimp only
  repeat' first
    | with_reducible assumption
    | with_reducible apply next_kept
    | with_reducible apply modDma_kept
    | with_reducible apply enqueue_kept
    | intro _ _ _
    | intro _ _
    | with_reducible refine ite_kept (fun _ => ?_) (fun _ => ?_)
    | split

theorem abortDma_kept (s : State) (u : UnitId) (d : DmaId) (cause : Nat) (hK₀ : Kept B s) :
    Kept B (abortDma s u d cause) := by
  unfold abortDma
  try dsimp only
  repeat' first
    | with_reducible assumption
    | with_reducible apply modDma_kept
    | with_reducible apply stopDma_kept
    | intro _ _ _
    | intro _ _
    | with_reducible refine ite_kept (fun _ => ?_) (fun _ => ?_)

theorem resumeDma_kept (s : State) (u : UnitId) (d : DmaId) (hK₀ : Kept B s) :
    Kept B (resumeDma s u d) := by
  unfold resumeDma
  try dsimp only
  repeat' first
    | with_reducible assumption
    | with_reducible apply modDma_kept
    | intro _ _ _
    | intro _ _
    | with_reducible refine ite_kept (fun _ => ?_) (fun _ => ?_)

theorem execDescriptorFetch_kept (u : UnitId) (d : DmaId) (start : Option DmaStart) (s : State) (hK₀ : Kept B s) :
    OutKept B (execDescriptorFetch u d start s) := by
  unfold execDescriptorFetch
  try dsimp only
  repeat' first
    | with_reducible assumption
    | with_reducible refine next_kept ?_
    | with_reducible apply some_kept
    | with_reducible apply resumeDma_kept
    | with_reducible apply none_kept
    | with_reducible apply fetchNext_kept
    | with_reducible apply modDma_kept
    | with_reducible refine ite_kept (fun _ => ?_) (fun _ => ?_)
    | split

theorem execContextSaveFault_kept (u : UnitId) (e : EngineId) (s : State) (hK₀ : Kept B s) :
    OutKept B (execContextSaveFault u e s) := by
  unfold execContextSaveFault
  try dsimp only
  repeat' first
    | with_reducible assumption
    | with_reducible apply logNote_kept
    | with_reducible apply next_kept
    | with_reducible apply forEach_kept
    | with_reducible apply abortDma_kept
    | intro _ _ _
    | intro _ _
    | with_reducible refine ite_kept (fun _ => ?_) (fun _ => ?_)
    | split

end Sys2Proof.Machine
end

