-- ==== Sys2Proof/Laws/KeptRuns.lean ====
section
/-! SUPPORT. What every operation and every command keeps, part by part: capture, commit groups, channel runs and QP maps, budgets and the relay. -/

namespace Sys2Proof.Machine

variable {B : Base}

/-! ## Capture -/

theorem ringWrite_kept (u : UnitId) (s : State) (v : Nat) (l : List (BitVec 8)) (h : Kept B s) :
    Kept B (ringWrite u s v l) := by
  induction l generalizing s v with
  | nil => exact h
  | cons b t ih =>
    unfold ringWrite
    split
    · exact memoryFault_kept _ _ (noteFault_kept _ _ _ _ _ _ h)
    · exact ih _ _ (setDram_kept _ _ _ (fun _ hd => putByte_wf _ _ _ hd) h)

theorem reportHeld_kept (s : State) (hK₀ : Kept B s) :
    Kept B (reportHeld s) := by
  unfold reportHeld
  try dsimp only
  repeat' first
    | with_reducible assumption
    | with_reducible apply regPut_kept

theorem ringStore_kept (s : State) (u : UnitId) (v : Nat) (l : List (BitVec 8)) (h : Kept B s) : Kept B (ringStore s u v l) := by
  unfold ringStore
  refine ringWrite_kept _ _ _ _ ?_
  cases (translate s u 9 v true).toOption with
  | none => exact h
  | some a => exact touchBytes_kept _ _ _ _ h

theorem ringLine_kept (s : State) (u : UnitId) (b : BufLine) (hK₀ : Kept B s) :
    Kept B (ringLine s u b) := by
  unfold ringLine
  try dsimp only
  repeat' first
    | with_reducible assumption
    | with_reducible apply some_kept
    | with_reducible apply ringStore_kept
    | with_reducible apply none_kept
    | with_reducible refine forEach_kept _ _ _ (fun _ _ _ => ?_) ?_
    | with_reducible refine ite_kept (fun _ => ?_) (fun _ => ?_)
    | split

theorem ringStripe_kept (s : State) (u : UnitId) (q k : Nat) (h : Kept B s) : Kept B (ringStripe s u q k) := by
  unfold ringStripe
  split
  · exact h
  · exact ite_kept (fun _ => capture_kept _ (forEach_kept _ _ _ (fun _ _ hx => ringLine_kept _ _ _ hx) h)) (fun _ => h)

theorem captureHeld_kept (s : State) (cut : Bool) (hK₀ : Kept B s) :
    Kept B (captureHeld s cut) := by
  unfold captureHeld
  try dsimp only
  repeat' first
    | with_reducible assumption
    | with_reducible apply reportHeld_kept
    | with_reducible apply setFlag_kept
    | with_reducible refine ite_kept (fun _ => ?_) (fun _ => ?_)

theorem ringFinish_kept (s : State) (u : UnitId) (h : Kept B s) : Kept B (ringFinish s u) := by
  unfold ringFinish
  split
  · exact h
  · rename_i w _
    have h1 := cvEnd_kept _ 6 (crc32c ((slotHeader s w).drop 4)).toNat true
      (ringStore_kept s u (w.slot * s.capture.slotBytes) (slotHeader s w) h)
    dsimp only
    generalize cvEnd _ _ _ _ = t at h1 ⊢
    exact ite_kept (fun _ => captureHeld_kept _ _ h1) (fun _ => reportHeld_kept _ h1)

theorem keepBefore_kept (s : State) (hK₀ : Kept B s) :
    Kept B (keepBefore s) := by
  unfold keepBefore
  try dsimp only
  repeat' first
    | with_reducible assumption
    | with_reducible apply setFlag_kept
    | intro _ _ _
    | intro _ _
    | with_reducible refine ite_kept (fun _ => ?_) (fun _ => ?_)

theorem markTrigger_kept (s : State) (picture : Nat) (hK₀ : Kept B s) :
    Kept B (markTrigger s picture) := by
  unfold markTrigger
  try dsimp only
  repeat' first
    | with_reducible assumption
    | with_reducible apply some_kept
    | with_reducible apply ringStore_kept
    | with_reducible apply none_kept
    | with_reducible refine ite_kept (fun _ => ?_) (fun _ => ?_)
    | split

theorem setTriggerPicture_kept (s : State) (picture done : Nat) (hK₀ : Kept B s) :
    Kept B (setTriggerPicture s picture done) := by
  unfold setTriggerPicture
  try dsimp only
  repeat' first
    | with_reducible assumption
    | with_reducible apply markTrigger_kept
    | with_reducible apply keepBefore_kept
    | with_reducible apply regPut_kept
    | with_reducible apply captureHeld_kept
    | with_reducible apply reportHeld_kept
    | with_reducible refine ite_kept (fun _ => ?_) (fun _ => ?_)

theorem ringPresent_kept (s : State) (u : UnitId) (hK₀ : Kept B s) :
    Kept B (ringPresent s u) := by
  unfold ringPresent
  try dsimp only
  repeat' first
    | with_reducible assumption
    | with_reducible apply ringLine_kept
    | with_reducible refine forEach_kept _ _ _ (fun _ _ _ => ?_) ?_

theorem ringOpen_kept (s : State) (hK₀ : Kept B s) :
    Kept B (ringOpen s) := by
  unfold ringOpen
  try dsimp only
  repeat' first
    | with_reducible assumption
    | with_reducible apply ringPresent_kept
    | with_reducible apply setTriggerPicture_kept
    | with_reducible refine ite_kept (fun _ => ?_) (fun _ => ?_)

theorem ringConfigure_kept (s : State) (h : Kept B s) : Kept B (ringConfigure s) := by
  unfold ringConfigure
  extract_lets n t c0 t1 p q q1 both
  have h1 : Kept B t := regPut_kept _ _ _ (regPut_kept _ _ _ (regPut_kept _ _ _ h))
  have h2 : Kept B t1 := capture_kept _ h1
  have hb : ∀ (x : State) (k v : Nat), Kept B x → Kept B (both x k v) :=
    fun x k v hx => applyValue_kept _ _ _ (commitValue_kept _ _ _ _ _ hx)
  clear_value t1 both
  split
  · exact setFlag_kept _ _ _ (hb _ _ _ (hb _ _ _ h2))
  · exact h2

theorem takeTrigger_kept (s : State) (stamp : Nat) (hK₀ : Kept B s) :
    Kept B (takeTrigger s stamp) := by
  unfold takeTrigger
  try dsimp only
  repeat' first
    | with_reducible assumption
    | with_reducible apply regPut_kept
    | with_reducible apply setTriggerPicture_kept
    | with_reducible apply bump_kept
    | intro _ _ _
    | intro _ _
    | with_reducible refine ite_kept (fun _ => ?_) (fun _ => ?_)
    | split

theorem doTrigger_kept (s : State) (hK₀ : Kept B s) :
    OkKept B (doTrigger s) := by
  unfold doTrigger
  try dsimp only
  repeat' first
    | with_reducible assumption
    | with_reducible apply ok_kept
    | with_reducible exact error_kept
    | with_reducible apply takeTrigger_kept

theorem execTrigger_kept (k : Client) (s : State) (hK₀ : Kept B s) :
    OutKept B (execTrigger k s) := by
  unfold execTrigger
  try dsimp only
  repeat' first
    | with_reducible assumption
    | with_reducible apply next_kept
    | with_reducible apply serveWrite_kept
    | with_reducible apply doTrigger_kept

theorem execTrigPinEdge_kept (n : Fin 4) (falling : Bool) (s : State) (hK₀ : Kept B s) :
    OutKept B (execTrigPinEdge n falling s) := by
  unfold execTrigPinEdge
  try dsimp only
  repeat' first
    | with_reducible assumption
    | with_reducible apply next_kept
    | with_reducible apply takeTrigger_kept
    | intro _ _ _
    | intro _ _
    | with_reducible refine ite_kept (fun _ => ?_) (fun _ => ?_)
    | split

theorem execTriggerTimeReached_kept (s : State) (hK₀ : Kept B s) :
    OutKept B (execTriggerTimeReached s) := by
  unfold execTriggerTimeReached
  try dsimp only
  repeat' first
    | with_reducible assumption
    | with_reducible apply next_kept
    | with_reducible apply takeTrigger_kept
    | with_reducible refine ite_kept (fun _ => ?_) (fun _ => ?_)
    | split

theorem doTriggerTime_kept (v : Nat) (s : State) (hK₀ : Kept B s) : OkKept B (doTriggerTime v s) := by
  unfold doTriggerTime
  extract_lets t c0 t1
  have h1 : Kept B t := commitValue_kept _ _ _ _ _ hK₀
  have h2 : Kept B t1 := capture_kept _ h1
  clear_value t1
  split
  · exact ok_kept (setFlag_kept _ _ _ (takeTrigger_kept _ _ h2))
  · exact ok_kept h2

theorem execTriggerTimeWrite_kept (k : Client) (v : BitVec 128) (s : State) (hK₀ : Kept B s) :
    OutKept B (execTriggerTimeWrite k v s) := by
  unfold execTriggerTimeWrite
  try dsimp only
  repeat' first
    | with_reducible assumption
    | with_reducible apply next_kept
    | with_reducible apply serveWrite_kept
    | with_reducible apply doTriggerTime_kept

theorem doArm_kept (s : State) (hK₀ : Kept B s) :
    OkKept B (doArm s) := by
  unfold doArm
  try dsimp only
  repeat' first
    | with_reducible assumption
    | with_reducible apply ok_kept
    | with_reducible exact error_kept
    | with_reducible apply reportHeld_kept
    | with_reducible refine ite_kept (fun _ => ?_) (fun _ => ?_)
    | split

theorem execArm_kept (k : Client) (s : State) (hK₀ : Kept B s) :
    OutKept B (execArm k s) := by
  unfold execArm
  try dsimp only
  repeat' first
    | with_reducible assumption
    | with_reducible apply next_kept
    | with_reducible apply serveWrite_kept
    | with_reducible apply doArm_kept

theorem captureIdle_kept (s : State) (hK₀ : Kept B s) :
    Kept B (captureIdle s) := by
  unfold captureIdle
  try dsimp only
  repeat' first
    | with_reducible assumption
    | with_reducible apply reportHeld_kept
    | with_reducible apply clearFlag_kept

theorem abortReadouts_kept (s : State) (u : UnitId) (hK₀ : Kept B s) :
    Kept B (abortReadouts s u) := by
  unfold abortReadouts
  try dsimp only
  repeat' first
    | with_reducible assumption
    | with_reducible apply forEach_kept
    | with_reducible apply abortDma_kept
    | intro _ _ _

theorem doRelease_kept (s : State) (hK₀ : Kept B s) :
    OkKept B (doRelease s) := by
  unfold doRelease
  try dsimp only
  repeat' first
    | with_reducible assumption
    | with_reducible apply ok_kept
    | with_reducible exact error_kept
    | with_reducible apply captureIdle_kept
    | with_reducible apply abortReadouts_kept
    | with_reducible refine ite_kept (fun _ => ?_) (fun _ => ?_)
    | split

theorem execRelease_kept (k : Client) (s : State) (hK₀ : Kept B s) :
    OutKept B (execRelease k s) := by
  unfold execRelease
  try dsimp only
  repeat' first
    | with_reducible assumption
    | with_reducible apply next_kept
    | with_reducible apply serveWrite_kept
    | with_reducible apply doRelease_kept

theorem doDisarm_kept (s : State) (hK₀ : Kept B s) :
    OkKept B (doDisarm s) := by
  unfold doDisarm
  try dsimp only
  repeat' first
    | with_reducible assumption
    | with_reducible apply ok_kept
    | with_reducible exact error_kept
    | with_reducible apply captureIdle_kept
    | with_reducible refine ite_kept (fun _ => ?_) (fun _ => ?_)
    | split

theorem execDisarm_kept (k : Client) (s : State) (hK₀ : Kept B s) :
    OutKept B (execDisarm k s) := by
  unfold execDisarm
  try dsimp only
  repeat' first
    | with_reducible assumption
    | with_reducible apply next_kept
    | with_reducible apply serveWrite_kept
    | with_reducible apply doDisarm_kept

theorem captureLastStop_kept (s : State) (hK₀ : Kept B s) :
    Kept B (captureLastStop s) := by
  unfold captureLastStop
  try dsimp only
  repeat' first
    | with_reducible assumption
    | with_reducible apply captureIdle_kept
    | with_reducible apply captureHeld_kept
    | with_reducible refine ite_kept (fun _ => ?_) (fun _ => ?_)
    | split

theorem captureHandover_kept (s : State) (old : UnitId) (hK₀ : Kept B s) :
    Kept B (captureHandover s old) := by
  unfold captureHandover
  try dsimp only
  repeat' first
    | with_reducible assumption
    | with_reducible apply reportHeld_kept
    | with_reducible apply abortReadouts_kept
    | with_reducible apply raiseEmcy_kept
    | with_reducible apply setFlag_kept
    | with_reducible refine ite_kept (fun _ => ?_) (fun _ => ?_)
    | split

theorem placeChain_kept (s : State) (r : ReadoutId) (l : List Descriptor) (hK₀ : Kept B s) :
    Kept B (placeChain s r l) := by
  unfold placeChain
  try dsimp only
  repeat' first
    | with_reducible assumption
    | with_reducible apply ok_kept
    | with_reducible apply setDram_kept
    | with_reducible apply touchBytes_kept
    | with_reducible apply error_kept
    | with_reducible refine forEach_kept _ _ _ (fun _ _ _ => ?_) ?_
    | (show assocWf _ _ = true; exact putBytes_wf _ _ _ (by assumption))
    | intro _ _ _
    | intro _ _
    | with_reducible refine ite_kept (fun _ => ?_) (fun _ => ?_)
    | split

theorem doReadoutStart_kept (r : ReadoutId) (s : State) (h : Kept B s) : Kept B (doReadoutStart r s).1 := by
  unfold doReadoutStart
  dsimp only
  split
  · exact putField_kept _ _ _ _ _ h
  · have h1 := regPut_kept _ (kReadout r 9) (ceilDiv (lineElems s (cropOf s r).2.2.1) (packetElemsOf s r))
      (regPut_kept _ (kReadout r 8) 0 (putField_kept s (kReadout r 0x0A) 31 28 (readoutReason s r) h))
    exact ite_kept (fun _ => h1) (fun _ => capture_kept _ (placeChain_kept _ _ _ (modDma_kept _ _ _ _ h1)))

theorem execReadoutStart_kept (k : Client) (r : ReadoutId) (s : State) (hK₀ : Kept B s) :
    OutKept B (execReadoutStart k r s) := by
  unfold execReadoutStart
  try dsimp only
  repeat' first
    | with_reducible assumption
    | with_reducible apply next_kept
    | with_reducible apply serveTrace_kept
    | with_reducible apply doReadoutStart_kept

theorem doReadoutAbort_kept (r : ReadoutId) (s : State) (hK₀ : Kept B s) :
    OkKept B (doReadoutAbort r s) := by
  unfold doReadoutAbort
  try dsimp only
  repeat' first
    | with_reducible assumption
    | with_reducible apply ok_kept
    | with_reducible exact error_kept
    | with_reducible apply abortDma_kept

theorem execReadoutAbort_kept (k : Client) (r : ReadoutId) (s : State) (hK₀ : Kept B s) :
    OutKept B (execReadoutAbort k r s) := by
  unfold execReadoutAbort
  try dsimp only
  repeat' first
    | with_reducible assumption
    | with_reducible apply next_kept
    | with_reducible apply serveWrite_kept
    | with_reducible apply doReadoutAbort_kept

theorem doReadoutResume_kept (r : ReadoutId) (s : State) (h : Kept B s) : OkKept B (doReadoutResume r s) := by
  unfold doReadoutResume
  dsimp only
  split
  · exact ok_kept (resumeDma_kept s _ _ h)
  · exact error_kept

theorem execReadoutResume_kept (k : Client) (r : ReadoutId) (s : State) (hK₀ : Kept B s) :
    OutKept B (execReadoutResume k r s) := by
  unfold execReadoutResume
  try dsimp only
  repeat' first
    | with_reducible assumption
    | with_reducible apply next_kept
    | with_reducible apply serveWrite_kept
    | with_reducible apply doReadoutResume_kept

/-! ## Groups -/

theorem storeValue_kept (s : State) (k v : Nat) (hK₀ : Kept B s) :
    Kept B (storeValue s k v) := by
  unfold storeValue
  try dsimp only
  repeat' first
    | with_reducible assumption
    | with_reducible apply commitValue_kept

theorem countWrite_kept (s : State) (k v : Nat) (perPicture : Bool) (hK₀ : Kept B s) :
    Kept B (countWrite s k v perPicture) := by
  unfold countWrite
  try dsimp only
  repeat' first
    | with_reducible assumption
    | with_reducible apply storeValue_kept

theorem doGroupOpen_kept (k : Client) (s : State) (hK₀ : Kept B s) :
    OkKept B (doGroupOpen k s) := by
  unfold doGroupOpen
  try dsimp only
  repeat' first
    | with_reducible assumption
    | with_reducible apply ok_kept
    | with_reducible exact error_kept
    | with_reducible refine ite_kept (fun _ => ?_) (fun _ => ?_)
    | split

theorem execGroupOpen_kept (k : Client) (s : State) (hK₀ : Kept B s) :
    OutKept B (execGroupOpen k s) := by
  unfold execGroupOpen
  try dsimp only
  repeat' first
    | with_reducible assumption
    | with_reducible apply next_kept
    | with_reducible apply serveWrite_kept
    | with_reducible apply doGroupOpen_kept

theorem doGroupCommit_kept (k : Client) (s : State) (h : Kept B s) : OkKept B (doGroupCommit k s) := by
  unfold doGroupCommit
  split
  · exact ok_kept (forEach_kept _ _ _ (fun x w hx => countWrite_kept x _ _ _ hx)
      (dict_kept h h.master h.shadowA h.shadowB h.applied h.inUse))
  · exact error_kept

theorem execGroupCommit_kept (k : Client) (s : State) (hK₀ : Kept B s) :
    OutKept B (execGroupCommit k s) := by
  unfold execGroupCommit
  try dsimp only
  repeat' first
    | with_reducible assumption
    | with_reducible apply next_kept
    | with_reducible apply serveWrite_kept
    | with_reducible apply doGroupCommit_kept

theorem doGroupAbandon_kept (k : Client) (s : State) (hK₀ : Kept B s) :
    OkKept B (doGroupAbandon k s) := by
  unfold doGroupAbandon
  try dsimp only
  repeat' first
    | with_reducible assumption
    | with_reducible apply ok_kept
    | with_reducible exact error_kept
    | with_reducible refine ite_kept (fun _ => ?_) (fun _ => ?_)
    | split

theorem execGroupAbandon_kept (k : Client) (s : State) (hK₀ : Kept B s) :
    OutKept B (execGroupAbandon k s) := by
  unfold execGroupAbandon
  try dsimp only
  repeat' first
    | with_reducible assumption
    | with_reducible apply next_kept
    | with_reducible apply serveWrite_kept
    | with_reducible apply doGroupAbandon_kept

theorem execGroupTimeout_kept (s : State) (hK₀ : Kept B s) :
    OutKept B (execGroupTimeout s) := by
  unfold execGroupTimeout
  try dsimp only
  repeat' first
    | with_reducible assumption
    | with_reducible apply next_kept
    | with_reducible apply raiseEmcy_kept
    | with_reducible apply setFlag_kept
    | with_reducible refine ite_kept (fun _ => ?_) (fun _ => ?_)
    | split

theorem shadowWrite_kept (s : State) (k : Client) (ky v : Nat) (perPicture : Bool) (hK₀ : Kept B s) :
    OkKept B (shadowWrite s k ky v perPicture) := by
  unfold shadowWrite
  try dsimp only
  repeat' first
    | with_reducible assumption
    | with_reducible apply ok_kept
    | with_reducible exact error_kept
    | with_reducible apply countWrite_kept
    | with_reducible refine ite_kept (fun _ => ?_) (fun _ => ?_)
    | split

theorem shadowApply_kept (s : State) (tick : Nat) (pictureStart : Bool) (hK₀ : Kept B s) :
    Kept B (shadowApply s tick pictureStart) := by
  unfold shadowApply
  try dsimp only
  repeat' first
    | with_reducible assumption
    | with_reducible apply forEach_kept
    | with_reducible apply applyValue_kept
    | with_reducible apply putField_kept
    | with_reducible apply setFlag_kept
    | intro _ _ _
    | intro _ _
    | with_reducible refine ite_kept (fun _ => ?_) (fun _ => ?_)
    | split

/-! ## Starts -/

theorem reportTraffic_kept (s : State) (p : Plan) (hK₀ : Kept B s) :
    Kept B (reportTraffic s p) := by
  unfold reportTraffic
  try dsimp only
  repeat' first
    | with_reducible assumption
    | with_reducible apply forEach_kept
    | with_reducible apply regPut_kept
    | intro _ _ _

theorem latchStream_kept (s : State) (p : Plan) (n : StreamId) (hK₀ : Kept B s) :
    Kept B (latchStream s p n) := by
  unfold latchStream
  try dsimp only
  repeat' first
    | with_reducible assumption

theorem latchPacer_kept (s : State) (n : StreamId) (hK₀ : Kept B s) :
    Kept B (latchPacer s n) := by
  unfold latchPacer
  try dsimp only
  repeat' first
    | with_reducible assumption
    | with_reducible apply regPut_kept
    | with_reducible apply clearFlag_kept

/-! ## Pictures -/

theorem modStream_kept (s : State) (n : StreamId) (f : Stream → Stream) (hK₀ : Kept B s) :
    Kept B (modStream s n f) := by
  unfold modStream
  try dsimp only
  repeat' first
    | with_reducible assumption

theorem modPacer_kept (s : State) (n : StreamId) (f : PacerState → PacerState) (hK₀ : Kept B s) :
    Kept B (modPacer s n f) := by
  unfold modPacer
  try dsimp only
  repeat' first
    | with_reducible assumption
    | with_reducible apply modStream_kept

theorem modMap_kept (s : State) (n : StreamId) (f : MapState → MapState) (hK₀ : Kept B s) :
    Kept B (modMap s n f) := by
  unfold modMap
  try dsimp only
  repeat' first
    | with_reducible assumption
    | with_reducible apply modStream_kept

theorem modChan_kept (s : State) (c : Chan) (f : Channel → Channel) (hK₀ : Kept B s) :
    Kept B (modChan s c f) := by
  unfold modChan
  try dsimp only
  repeat' first
    | with_reducible assumption

theorem modFlow_kept (s : State) (f : FlowId) (g : Flow → Flow) (hK₀ : Kept B s) :
    Kept B (modFlow s f g) := by
  unfold modFlow
  try dsimp only
  repeat' first
    | with_reducible assumption

theorem reportMap_kept (s : State) (n : StreamId) (hK₀ : Kept B s) :
    Kept B (reportMap s n) := by
  unfold reportMap
  try dsimp only
  repeat' first
    | with_reducible assumption
    | with_reducible apply forEach_kept
    | with_reducible apply regPut_kept
    | intro _ _ _

theorem settleMapSize_kept (s : State) (n : StreamId) (hK₀ : Kept B s) :
    Kept B (settleMapSize s n) := by
  unfold settleMapSize
  try dsimp only
  repeat' first
    | with_reducible assumption
    | with_reducible apply reportMap_kept
    | with_reducible apply modMap_kept

theorem beginPicture_kept (s : State) (n : StreamId) (irap : Bool) (hK₀ : Kept B s) :
    Kept B (beginPicture s n irap) := by
  unfold beginPicture
  try dsimp only
  repeat' first
    | with_reducible assumption
    | with_reducible apply modStream_kept
    | with_reducible apply putFlag_kept

theorem makeIrap_kept (s : State) (n : StreamId) (hK₀ : Kept B s) :
    Kept B (makeIrap s n) := by
  unfold makeIrap
  try dsimp only
  repeat' first
    | with_reducible assumption
    | with_reducible apply modStream_kept

theorem reportGlobal_kept (s : State) (n : StreamId) (hK₀ : Kept B s) :
    Kept B (reportGlobal s n) := by
  unfold reportGlobal
  try dsimp only
  repeat' first
    | with_reducible assumption
    | with_reducible apply regPut_kept

theorem openRect_kept (s : State) (c : Chan) (r : RectId) (reset : Bool) (hK₀ : Kept B s) :
    Kept B (openRect s c r reset) := by
  unfold openRect
  try dsimp only
  repeat' first
    | with_reducible assumption
    | with_reducible apply regPut_kept

theorem openRects_kept (s : State) (keys : List (Nat × Nat)) (hK₀ : Kept B s) :
    Kept B (openRects s keys) := by
  unfold openRects
  try dsimp only
  repeat' first
    | with_reducible assumption
    | with_reducible apply forEach_kept
    | with_reducible apply openRect_kept
    | intro _ _ _

theorem endPicture_kept (s : State) (n : StreamId) (hK₀ : Kept B s) :
    Kept B (endPicture s n) := by
  unfold endPicture
  try dsimp only
  repeat' first
    | with_reducible assumption
    | with_reducible apply modStream_kept

theorem openPictures_kept (s : State) (hK₀ : Kept B s) :
    Kept B (openPictures s) := by
  unfold openPictures
  try dsimp only
  repeat' first
    | with_reducible assumption
    | with_reducible apply forEach_kept
    | with_reducible apply endPicture_kept
    | with_reducible apply beginPicture_kept
    | with_reducible apply reportMap_kept
    | with_reducible apply modMap_kept
    | with_reducible apply reportGlobal_kept
    | with_reducible apply modStream_kept
    | intro _ _ _

/-! ## Runs -/

theorem setMode_kept (s : State) (c : Chan) (m : ChanMode) (hK₀ : Kept B s) :
    Kept B (setMode s c m) := by
  unfold setMode
  try dsimp only
  repeat' first
    | with_reducible assumption
    | with_reducible apply regPut_kept
    | with_reducible apply modChan_kept

theorem plannedPacers_kept (s : State) (ns : List StreamId) (hK₀ : Kept B s) :
    Kept B (plannedPacers s ns) := by
  unfold plannedPacers
  try dsimp only
  repeat' first
    | with_reducible assumption
    | with_reducible apply latchPacer_kept
    | with_reducible refine forEach_kept _ _ _ (fun _ _ _ => ?_) ?_

theorem startChecks_kept (s : State) (c : Chan) (hK₀ : Kept B s) :
    Kept B (startChecks s c).1 := by
  unfold startChecks
  try dsimp only
  repeat' first
    | with_reducible assumption
    | with_reducible apply reportInput_kept
    | with_reducible apply forEach_kept
    | with_reducible apply regPut_kept
    | with_reducible apply latchStream_kept
    | with_reducible apply putField_kept
    | with_reducible apply reportFlows_kept
    | intro _ _ _
    | intro _ _
    | with_reducible refine ite_kept (fun _ => ?_) (fun _ => ?_)
    | split

theorem startStream_kept (s : State) (p : Plan) (n : StreamId) (hK₀ : Kept B s) :
    Kept B (startStream s p n) := by
  unfold startStream
  try dsimp only
  repeat' first
    | with_reducible assumption
    | with_reducible apply modStream_kept
    | with_reducible apply latchPacer_kept
    | with_reducible apply regPut_kept
    | with_reducible apply settleMapSize_kept
    | with_reducible apply reportGlobal_kept

theorem carryFlow_kept (s : State) (c : Chan) (f : FlowId) (hK₀ : Kept B s) :
    Kept B (carryFlow s c f) := by
  unfold carryFlow
  try dsimp only
  repeat' first
    | with_reducible assumption
    | with_reducible apply modFlow_kept
    | intro _ _ _
    | intro _ _
    | with_reducible refine ite_kept (fun _ => ?_) (fun _ => ?_)

theorem startCount_kept (s : State) (f : FlowId) (hK₀ : Kept B s) :
    Kept B (startCount s f) := by
  unfold startCount
  try dsimp only
  repeat' first
    | with_reducible assumption
    | with_reducible apply modFlow_kept

theorem reportCarried_kept (s : State) (c : Chan) (hK₀ : Kept B s) :
    Kept B (reportCarried s c) := by
  unfold reportCarried
  try dsimp only
  repeat' first
    | with_reducible assumption
    | with_reducible apply regPut_kept

theorem freshRects_kept (s : State) (c : Chan) (hK₀ : Kept B s) :
    Kept B (freshRects s c) := by
  unfold freshRects
  try dsimp only
  repeat' first
    | with_reducible assumption
    | with_reducible apply forEach_kept
    | with_reducible apply openRect_kept
    | intro _ _ _

theorem beginStart_kept (s : State) (c : Chan) (loads : List AtuLoad) (hK₀ : Kept B s) :
    Kept B (beginStart s c loads) := by
  unfold beginStart
  try dsimp only
  repeat' first
    | with_reducible assumption
    | with_reducible apply reportTraffic_kept
    | with_reducible apply forEach_kept
    | with_reducible apply latchStream_kept
    | with_reducible apply startStream_kept
    | with_reducible apply startCount_kept
    | with_reducible apply carryFlow_kept
    | with_reducible apply reportCarried_kept
    | with_reducible apply freshRects_kept
    | with_reducible apply modChan_kept
    | with_reducible apply beginWatch_kept
    | with_reducible apply ringConfigure_kept
    | with_reducible apply reportClass3_kept
    | with_reducible apply setMode_kept
    | with_reducible apply loadContexts_kept
    | intro _ _ _

theorem settleLanes_kept (s : State) (hK₀ : Kept B s) :
    Kept B (settleLanes s) := by
  unfold settleLanes
  try dsimp only
  repeat' first
    | with_reducible assumption
    | with_reducible apply settleLink_kept
    | with_reducible refine forEach_kept _ _ _ (fun _ _ _ => ?_) ?_

theorem takenValues_wf (s : State) (c : Chan) (h : assocWf defaultOf s.dict.inUse = true) :
    assocWf defaultOf (takenValues s c) = true := by
  unfold takenValues
  generalize s.dict.master.filter _ = l
  have h0 := assocWf_filter defaultOf (fun e => !takesKey s c e.1) s.dict.inUse h
  generalize s.dict.inUse.filter _ = st at h0 ⊢
  induction l generalizing st with
  | nil => exact h0
  | cons e l ih => exact ih _ (assocPut_wf _ _ _ _ h0)

theorem takeValues_kept (s : State) (c : Chan) (h : Kept B s) : Kept B (takeValues s c) :=
  forEach_kept _ _ _
    (fun _ _ hx => dict_kept hx hx.master hx.shadowA hx.shadowB hx.applied fun w => assocPut_wf _ _ _ _ (hx.inUse w))
    (dict_kept h h.master h.shadowA h.shadowB h.applied fun w => takenValues_wf s c (h.inUse w))

theorem settleConfiguration_kept (s : State) (hK₀ : Kept B s) :
    Kept B (settleConfiguration s) := by
  unfold settleConfiguration
  try dsimp only
  repeat' first
    | with_reducible assumption
    | with_reducible apply settleLanes_kept

theorem doChannelStart_kept (c : Chan) (loads : List AtuLoad) (s : State) (hK₀ : Kept B s) :
    Kept B (doChannelStart c loads s).1 := by
  unfold doChannelStart
  split
  any_goals exact hK₀
  have h1 := startChecks_kept _ c (takeValues_kept _ c (storeValue_kept s (kChan c 0x3000 1) 1 hK₀))
  dsimp only
  generalize newConfiguration s _ = n
  generalize startChecks _ _ = r at h1 ⊢
  split
  · exact beginStart_kept _ _ _ (ite_kept (fun _ => settleConfiguration_kept _ h1) (fun _ => h1))
  · exact setMode_kept _ _ _ (dict_kept h1 h1.master h1.shadowA h1.shadowB h1.applied hK₀.inUse)

theorem execChannelStart_kept (k : Client) (c : Chan) (loads : List AtuLoad) (s : State) (hK₀ : Kept B s) :
    OutKept B (execChannelStart k c loads s) := by
  unfold execChannelStart
  try dsimp only
  repeat' first
    | with_reducible assumption
    | with_reducible apply next_kept
    | with_reducible apply serveTrace_kept
    | with_reducible apply doChannelStart_kept

theorem beginStream_kept (s : State) (n : StreamId) (hK₀ : Kept B s) :
    Kept B (beginStream s n) := by
  unfold beginStream
  try dsimp only
  repeat' first
    | with_reducible assumption
    | with_reducible apply beginPicture_kept
    | with_reducible apply modStream_kept
    | with_reducible apply forEach_kept
    | with_reducible apply makeIrap_kept

theorem execChannelBegin_kept (s : State) (hK₀ : Kept B s) :
    OutKept B (execChannelBegin s) := by
  unfold execChannelBegin
  try dsimp only
  repeat' first
    | with_reducible assumption
    | with_reducible apply next_kept
    | with_reducible apply forEach_kept
    | with_reducible apply setMode_kept
    | with_reducible apply beginStream_kept
    | intro _ _ _
    | intro _ _
    | with_reducible refine ite_kept (fun _ => ?_) (fun _ => ?_)
    | split

theorem stopChannel_kept (s : State) (c : Chan) (hK₀ : Kept B s) :
    Kept B (stopChannel s c) := by
  unfold stopChannel
  try dsimp only
  repeat' first
    | with_reducible assumption
    | with_reducible apply setMode_kept
    | with_reducible refine ite_kept (fun _ => ?_) (fun _ => ?_)
    | split

theorem doChannelStop_kept (c : Chan) (s : State) (hK₀ : Kept B s) :
    OkKept B (doChannelStop c s) := by
  unfold doChannelStop
  try dsimp only
  repeat' first
    | with_reducible assumption
    | with_reducible apply ok_kept
    | with_reducible exact error_kept
    | with_reducible apply forEach_kept
    | with_reducible apply stopChannel_kept
    | with_reducible apply storeValue_kept

theorem execChannelStop_kept (k : Client) (c : Chan) (s : State) (hK₀ : Kept B s) :
    OutKept B (execChannelStop k c s) := by
  unfold execChannelStop
  try dsimp only
  repeat' first
    | with_reducible assumption
    | with_reducible apply next_kept
    | with_reducible apply serveWrite_kept
    | with_reducible apply doChannelStop_kept

theorem execChannelStopped_kept (c : Chan) (s : State) (hK₀ : Kept B s) :
    OutKept B (execChannelStopped c s) := by
  unfold execChannelStopped
  try dsimp only
  repeat' first
    | with_reducible assumption
    | with_reducible apply next_kept
    | with_reducible apply forEach_kept
    | with_reducible apply reportGlobal_kept
    | with_reducible apply modStream_kept
    | with_reducible apply setMode_kept
    | with_reducible apply captureLastStop_kept
    | intro _ _ _
    | intro _ _
    | with_reducible refine ite_kept (fun _ => ?_) (fun _ => ?_)
    | split

theorem mapWrite_kept (s : State) (c : Chan) (n : StreamId) (ok : MapState → Option Abort) (f : MapState → MapState) (hK₀ : Kept B s) :
    OkKept B (mapWrite s c n ok f) := by
  unfold mapWrite
  try dsimp only
  repeat' first
    | with_reducible assumption
    | with_reducible apply ok_kept
    | with_reducible exact error_kept
    | with_reducible apply reportMap_kept
    | with_reducible apply modMap_kept
    | with_reducible refine ite_kept (fun _ => ?_) (fun _ => ?_)
    | split

theorem doMapBegin_kept (c : Chan) (n : StreamId) (s : State) (hK₀ : Kept B s) :
    OkKept B (doMapBegin c n s) := by
  unfold doMapBegin
  try dsimp only
  repeat' first
    | with_reducible assumption
    | with_reducible apply ok_kept
    | with_reducible exact error_kept
    | with_reducible apply mapWrite_kept

theorem execMapLoadBegin_kept (k : Client) (c : Chan) (n : StreamId) (s : State) (hK₀ : Kept B s) :
    OutKept B (execMapLoadBegin k c n s) := by
  unfold execMapLoadBegin
  try dsimp only
  repeat' first
    | with_reducible assumption
    | with_reducible apply next_kept
    | with_reducible apply serveWrite_kept
    | with_reducible apply doMapBegin_kept

theorem doMapData_kept (c : Chan) (n : StreamId) (data : List Byte) (s : State) (hK₀ : Kept B s) :
    OkKept B (doMapData c n data s) := by
  unfold doMapData
  try dsimp only
  repeat' first
    | with_reducible assumption
    | with_reducible apply ok_kept
    | with_reducible exact error_kept
    | with_reducible apply mapWrite_kept

theorem execMapData_kept (k : Client) (c : Chan) (n : StreamId) (data : List Byte) (s : State) (hK₀ : Kept B s) :
    OutKept B (execMapData k c n data s) := by
  unfold execMapData
  try dsimp only
  repeat' first
    | with_reducible assumption
    | with_reducible apply next_kept
    | with_reducible apply serveWrite_kept
    | with_reducible apply doMapData_kept

theorem doMapCommit_kept (c : Chan) (n : StreamId) (s : State) (hK₀ : Kept B s) :
    OkKept B (doMapCommit c n s) := by
  unfold doMapCommit
  try dsimp only
  repeat' first
    | with_reducible assumption
    | with_reducible apply ok_kept
    | with_reducible exact error_kept
    | with_reducible apply mapWrite_kept

theorem execMapCommit_kept (k : Client) (c : Chan) (n : StreamId) (s : State) (hK₀ : Kept B s) :
    OutKept B (execMapCommit k c n s) := by
  unfold execMapCommit
  try dsimp only
  repeat' first
    | with_reducible assumption
    | with_reducible apply next_kept
    | with_reducible apply serveWrite_kept
    | with_reducible apply doMapCommit_kept

theorem doMapDiscard_kept (c : Chan) (n : StreamId) (s : State) (hK₀ : Kept B s) :
    OkKept B (doMapDiscard c n s) := by
  unfold doMapDiscard
  try dsimp only
  repeat' first
    | with_reducible assumption
    | with_reducible apply ok_kept
    | with_reducible exact error_kept
    | with_reducible apply mapWrite_kept

theorem execMapDiscard_kept (k : Client) (c : Chan) (n : StreamId) (s : State) (hK₀ : Kept B s) :
    OutKept B (execMapDiscard k c n s) := by
  unfold execMapDiscard
  try dsimp only
  repeat' first
    | with_reducible assumption
    | with_reducible apply next_kept
    | with_reducible apply serveWrite_kept
    | with_reducible apply doMapDiscard_kept

theorem doVerifyEnable_kept (k : Client) (c : Chan) (v : Nat) (s : State) (h : Kept B s) :
    OkKept B (doVerifyEnable k c v s) := by
  unfold doVerifyEnable
  split
  · exact error_kept
  · split
    · exact error_kept
    · exact ok_kept (modChan_kept _ _ _ (storeValue_kept _ _ _ h))

theorem execVerifyEnableWrite_kept (k : Client) (c : Chan) (v : Nat) (s : State) (hK₀ : Kept B s) :
    OutKept B (execVerifyEnableWrite k c v s) := by
  unfold execVerifyEnableWrite
  try dsimp only
  repeat' first
    | with_reducible assumption
    | with_reducible apply next_kept
    | with_reducible apply serveWrite_kept
    | with_reducible apply doVerifyEnable_kept

/-! ## Budget -/

theorem reserveIn_kept (s : State) (n : StreamId) (add sub : Nat) (hK₀ : Kept B s) :
    Kept B (reserveIn s n add sub) := by
  unfold reserveIn
  try dsimp only
  repeat' first
    | with_reducible assumption
    | with_reducible apply modFlow_kept
    | intro _ _ _
    | intro _ _
    | with_reducible refine ite_kept (fun _ => ?_) (fun _ => ?_)
    | split

/-! ## Relay -/

theorem doPlanned_kept (s : State) (hK₀ : Kept B s) :
    OkKept B (doPlanned s) := by
  unfold doPlanned
  try dsimp only
  repeat' first
    | with_reducible assumption
    | with_reducible apply ok_kept
    | with_reducible exact error_kept
    | with_reducible refine ite_kept (fun _ => ?_) (fun _ => ?_)
    | split

theorem execPlannedSwitch_kept (k : Client) (s : State) (hK₀ : Kept B s) :
    OutKept B (execPlannedSwitch k s) := by
  unfold execPlannedSwitch
  try dsimp only
  repeat' first
    | with_reducible assumption
    | with_reducible apply next_kept
    | with_reducible apply serveWrite_kept
    | with_reducible apply doPlanned_kept

theorem doForced_kept (s : State) (hK₀ : Kept B s) :
    OkKept B (doForced s) := by
  unfold doForced
  try dsimp only
  repeat' first
    | with_reducible assumption
    | with_reducible apply ok_kept
    | with_reducible exact error_kept
    | with_reducible refine ite_kept (fun _ => ?_) (fun _ => ?_)
    | split

theorem execForcedSwitch_kept (k : Client) (s : State) (hK₀ : Kept B s) :
    OutKept B (execForcedSwitch k s) := by
  unfold execForcedSwitch
  try dsimp only
  repeat' first
    | with_reducible assumption
    | with_reducible apply next_kept
    | with_reducible apply serveWrite_kept
    | with_reducible apply doForced_kept

theorem doLockout_kept (s : State) (hK₀ : Kept B s) :
    OkKept B (doLockout s) := by
  unfold doLockout
  try dsimp only
  repeat' first
    | with_reducible assumption
    | with_reducible apply ok_kept
    | with_reducible exact error_kept
    | with_reducible apply dropSwitch_kept
    | with_reducible refine ite_kept (fun _ => ?_) (fun _ => ?_)
    | split

theorem execLockout_kept (k : Client) (s : State) (hK₀ : Kept B s) :
    OutKept B (execLockout k s) := by
  unfold execLockout
  try dsimp only
  repeat' first
    | with_reducible assumption
    | with_reducible apply next_kept
    | with_reducible apply serveWrite_kept
    | with_reducible apply doLockout_kept

theorem startHoldOff_kept (s : State) (hK₀ : Kept B s) :
    Kept B (startHoldOff s) := by
  unfold startHoldOff
  try dsimp only
  repeat' first
    | with_reducible assumption
    | with_reducible refine ite_kept (fun _ => ?_) (fun _ => ?_)

theorem doEndLockout_kept (s : State) (hK₀ : Kept B s) :
    OkKept B (doEndLockout s) := by
  unfold doEndLockout
  try dsimp only
  repeat' first
    | with_reducible assumption
    | with_reducible apply startHoldOff_kept
    | with_reducible refine ite_kept (fun _ => ?_) (fun _ => ?_)
    | with_reducible apply ok_kept

theorem execEndLockout_kept (k : Client) (s : State) (hK₀ : Kept B s) :
    OutKept B (execEndLockout k s) := by
  unfold execEndLockout
  try dsimp only
  repeat' first
    | with_reducible assumption
    | with_reducible apply next_kept
    | with_reducible apply serveWrite_kept
    | with_reducible apply doEndLockout_kept

theorem doAbandon_kept (s : State) (hK₀ : Kept B s) :
    OkKept B (doAbandon s) := by
  unfold doAbandon
  try dsimp only
  repeat' first
    | with_reducible assumption
    | with_reducible apply ok_kept
    | with_reducible exact error_kept
    | with_reducible apply dropSwitch_kept

theorem execAbandonPlannedSwitch_kept (k : Client) (s : State) (hK₀ : Kept B s) :
    OutKept B (execAbandonPlannedSwitch k s) := by
  unfold execAbandonPlannedSwitch
  try dsimp only
  repeat' first
    | with_reducible assumption
    | with_reducible apply next_kept
    | with_reducible apply serveWrite_kept
    | with_reducible apply doAbandon_kept

theorem doRetry_kept (s : State) (hK₀ : Kept B s) :
    OkKept B (doRetry s) := by
  unfold doRetry
  try dsimp only
  repeat' first
    | with_reducible assumption
    | with_reducible apply ok_kept
    | with_reducible exact error_kept
    | with_reducible apply regPut_kept
    | with_reducible apply clearFlag_kept
    | with_reducible apply startRepair_kept
    | with_reducible refine ite_kept (fun _ => ?_) (fun _ => ?_)
    | split

theorem execRetryRepair_kept (k : Client) (s : State) (hK₀ : Kept B s) :
    OutKept B (execRetryRepair k s) := by
  unfold execRetryRepair
  try dsimp only
  repeat' first
    | with_reducible assumption
    | with_reducible apply next_kept
    | with_reducible apply serveWrite_kept
    | with_reducible apply doRetry_kept

theorem doReversionLock_kept (v : Nat) (s : State) (hK₀ : Kept B s) :
    OkKept B (doReversionLock v s) := by
  unfold doReversionLock
  try dsimp only
  repeat' first
    | with_reducible assumption
    | with_reducible apply ok_kept
    | with_reducible exact error_kept
    | with_reducible apply commitValue_kept
    | with_reducible apply startHoldOff_kept
    | with_reducible refine ite_kept (fun _ => ?_) (fun _ => ?_)
    | split

theorem execReversionLockWrite_kept (k : Client) (v : Nat) (s : State) (hK₀ : Kept B s) :
    OutKept B (execReversionLockWrite k v s) := by
  unfold execReversionLockWrite
  try dsimp only
  repeat' first
    | with_reducible assumption
    | with_reducible apply next_kept
    | with_reducible apply serveWrite_kept
    | with_reducible apply doReversionLock_kept

theorem execHoldOffExpiry_kept (s : State) (hK₀ : Kept B s) :
    OutKept B (execHoldOffExpiry s) := by
  unfold execHoldOffExpiry
  try dsimp only
  repeat' first
    | with_reducible assumption
    | with_reducible apply next_kept
    | with_reducible refine ite_kept (fun _ => ?_) (fun _ => ?_)
    | split

theorem execUnitFault_kept (u : UnitId) (src : UnitFaultSource) (s : State) (hK₀ : Kept B s) :
    OutKept B (execUnitFault u src s) := by
  unfold execUnitFault
  try dsimp only
  repeat' first
    | with_reducible assumption
    | with_reducible apply next_kept
    | with_reducible apply unitFaultOf_kept

theorem refuseHandover_kept (s : State) (hK₀ : Kept B s) :
    Kept B (refuseHandover s) := by
  unfold refuseHandover
  try dsimp only
  repeat' first
    | with_reducible assumption
    | with_reducible apply raiseEmcy_kept
    | with_reducible apply setFlag_kept
    | with_reducible refine ite_kept (fun _ => ?_) (fun _ => ?_)

theorem execArbiterLatch_kept (s : State) (hK₀ : Kept B s) :
    OutKept B (execArbiterLatch s) := by
  unfold execArbiterLatch
  try dsimp only
  repeat' first
    | with_reducible assumption
    | with_reducible apply next_kept
    | with_reducible apply refuseHandover_kept
    | with_reducible refine ite_kept (fun _ => ?_) (fun _ => ?_)
    | split

theorem batonFault_kept (s : State) (u : UnitId) (hK₀ : Kept B s) :
    Kept B (batonFault s u) := by
  unfold batonFault
  try dsimp only
  repeat' first
    | with_reducible assumption
    | with_reducible apply loseReady_kept
    | with_reducible apply bump_kept
    | with_reducible apply raiseEmcy_kept
    | with_reducible apply setFlag_kept
    | intro _ _ _
    | intro _ _
    | with_reducible refine ite_kept (fun _ => ?_) (fun _ => ?_)

theorem execBatonCheck_kept (u : UnitId) (damage : List (Nat × Byte)) (s : State) (hK₀ : Kept B s) :
    OutKept B (execBatonCheck u damage s) := by
  unfold execBatonCheck
  try dsimp only
  repeat' first
    | with_reducible assumption
    | with_reducible refine next_kept ?_
    | with_reducible apply none_kept
    | with_reducible apply some_kept
    | with_reducible apply cvEnd_kept
    | with_reducible apply batonFault_kept
    | with_reducible apply cvGap_kept
    | with_reducible refine ite_kept (fun _ => ?_) (fun _ => ?_)
    | split

theorem execReleaseReport_kept (pairs crc : List Byte) (s : State) (hK₀ : Kept B s) :
    OutKept B (execReleaseReport pairs crc s) := by
  unfold execReleaseReport
  try dsimp only
  repeat' first
    | with_reducible assumption
    | with_reducible refine next_kept ?_
    | with_reducible apply some_kept
    | with_reducible apply cvEnd_kept
    | with_reducible apply none_kept
    | with_reducible refine ite_kept (fun _ => ?_) (fun _ => ?_)
    | split

theorem repairFailed_kept (s : State) (hK₀ : Kept B s) :
    Kept B (repairFailed s) := by
  unfold repairFailed
  try dsimp only
  repeat' first
    | with_reducible assumption
    | with_reducible apply setFlag_kept
    | with_reducible apply raiseEmcy_kept
    | intro _ _ _
    | intro _ _
    | with_reducible refine ite_kept (fun _ => ?_) (fun _ => ?_)

theorem visitBlock_kept (s : State) (u : UnitId) (b : SelfTestBlock) (hK₀ : Kept B s) :
    Kept B (visitBlock s u b) := by
  unfold visitBlock
  try dsimp only
  repeat' first
    | with_reducible assumption
    | with_reducible apply leaveRefresh_kept
    | with_reducible apply setDram_kept
    | with_reducible apply drawFree_kept
    | with_reducible apply none_kept
    | intro _ _ _
    | intro _ _
    | (show assocWf _ _ = true; exact assocWf_filter _ _ _ (by assumption))
    | (show assocWf _ _ = true; assumption)
    | with_reducible refine ite_kept (fun _ => ?_) (fun _ => ?_)
    | split

theorem execSelfTestStep_kept (r : SelfTestResult) (s : State) (hK₀ : Kept B s) :
    OutKept B (execSelfTestStep r s) := by
  unfold execSelfTestStep
  try dsimp only
  repeat' first
    | with_reducible assumption
    | with_reducible apply loseReady_kept
    | with_reducible apply visitBlock_kept
    | with_reducible apply next_kept
    | with_reducible apply regPut_kept
    | with_reducible apply repairFailed_kept
    | with_reducible apply reportUnitFault_kept
    | with_reducible apply bump_kept
    | intro _ _ _
    | intro _ _
    | with_reducible refine ite_kept (fun _ => ?_) (fun _ => ?_)
    | split

theorem releaseRepair_kept (s : State) (hK₀ : Kept B s) :
    Kept B (releaseRepair s) := by
  unfold releaseRepair
  try dsimp only
  repeat' first
    | with_reducible assumption
    | intro _ _ _
    | intro _ _
    | with_reducible refine ite_kept (fun _ => ?_) (fun _ => ?_)
    | split

theorem execRepairResetRelease_kept (s : State) (hK₀ : Kept B s) :
    OutKept B (execRepairResetRelease s) := by
  unfold execRepairResetRelease
  try dsimp only
  repeat' first
    | with_reducible assumption
    | with_reducible apply next_kept
    | with_reducible apply releaseRepair_kept

theorem execRepairRetry_kept (s : State) (hK₀ : Kept B s) :
    OutKept B (execRepairRetry s) := by
  unfold execRepairRetry
  try dsimp only
  repeat' first
    | with_reducible assumption
    | with_reducible apply next_kept
    | with_reducible apply startRepair_kept
    | with_reducible refine ite_kept (fun _ => ?_) (fun _ => ?_)
    | split

theorem activate_kept (s : State) (u : UnitId) (hK₀ : Kept B s) :
    Kept B (activate s u) := by
  unfold activate
  try dsimp only
  repeat' first
    | with_reducible assumption
    | with_reducible apply setFlag_kept
    | with_reducible apply regPut_kept
    | with_reducible apply announcePort_kept
    | with_reducible apply some_kept
    | with_reducible refine forEach_kept _ _ _ (fun _ _ _ => ?_) ?_
    | with_reducible refine ite_kept (fun _ => ?_) (fun _ => ?_)

theorem homeLateAct_kept (s : State) (hK₀ : Kept B s) :
    Kept B (homeLateAct s) := by
  unfold homeLateAct
  try dsimp only
  repeat' first
    | with_reducible assumption
    | with_reducible apply activate_kept
    | with_reducible refine ite_kept (fun _ => ?_) (fun _ => ?_)

theorem execHomeBootTimeout_kept (s : State) (hK₀ : Kept B s) :
    OutKept B (execHomeBootTimeout s) := by
  unfold execHomeBootTimeout
  try dsimp only
  repeat' first
    | with_reducible assumption
    | with_reducible apply next_kept
    | with_reducible apply homeLateAct_kept

theorem execLinePacketRx_kept (u : UnitId) (l : LinkId) (p : LinePacket) (s : State) (hK₀ : Kept B s) :
    OutKept B (execLinePacketRx u l p s) := by
  unfold execLinePacketRx
  try dsimp only
  repeat' first
    | with_reducible assumption
    | with_reducible apply ringLine_kept
    | with_reducible apply checkLine_kept
    | with_reducible apply next_kept
    | with_reducible apply countLine_kept
    | with_reducible apply noteHeader_kept
    | with_reducible apply storeLine_kept
    | intro _ _ _
    | intro _ _
    | with_reducible refine ite_kept (fun _ => ?_) (fun _ => ?_)
    | split

end Sys2Proof.Machine
end

