-- ==== Sys2Proof/Laws/KeptReset.lean ====
section
/-! SUPPORT. What every operation and every command keeps, part by part: coding, release, the hurdle, hand-overs, resets and time. -/

namespace Sys2Proof.Machine

variable {B : Base}

/-! ## Coding -/

theorem modCoding_kept (s : State) (n : StreamId) (f : Coding → Coding) (hK₀ : Kept B s) :
    Kept B (modCoding s n f) := by
  unfold modCoding
  try dsimp only
  repeat' first
    | with_reducible assumption
    | with_reducible apply modStream_kept

theorem postPixels_kept (s : State) (n : StreamId) (pic : PictureState) (row stripe : Nat) (u : UnitId) (hK₀ : Kept B s) :
    Kept B (postPixels s n pic row stripe u) := by
  unfold postPixels
  try dsimp only
  repeat' first
    | with_reducible assumption
    | with_reducible apply modStream_kept
    | with_reducible apply forEach_kept
    | with_reducible apply postJob_kept
    | intro _ _ _
    | intro _ _
    | with_reducible refine ite_kept (fun _ => ?_) (fun _ => ?_)

theorem execWindowFetchDone_kept (c : Chan) (n : StreamId) (s : State) (hK₀ : Kept B s) :
    OutKept B (execWindowFetchDone c n s) := by
  unfold execWindowFetchDone
  try dsimp only
  repeat' first
    | with_reducible assumption
    | with_reducible apply next_kept
    | with_reducible apply modStream_kept
    | with_reducible apply postJob_kept
    | intro _ _ _
    | intro _ _
    | with_reducible refine ite_kept (fun _ => ?_) (fun _ => ?_)
    | split

theorem noteWithheld_kept (s : State) (n : StreamId) (k : Coding) (hK₀ : Kept B s) :
    Kept B (noteWithheld s n k) := by
  unfold noteWithheld
  try dsimp only
  repeat' first
    | with_reducible assumption
    | with_reducible apply setFlag_kept
    | with_reducible apply bump_kept
    | with_reducible apply raiseEmcy_kept
    | with_reducible apply modStream_kept
    | intro _ _ _
    | intro _ _
    | with_reducible refine ite_kept (fun _ => ?_) (fun _ => ?_)

theorem refuseStream_kept (s : State) (n : StreamId) (hK₀ : Kept B s) :
    Kept B (refuseStream s n) := by
  unfold refuseStream
  try dsimp only
  repeat' first
    | with_reducible assumption
    | with_reducible apply some_kept
    | with_reducible apply refuseFlow_kept
    | with_reducible apply none_kept
    | with_reducible refine ite_kept (fun _ => ?_) (fun _ => ?_)
    | split

theorem takeGrant_kept (s : State) (n : StreamId) (k : Coding) (g : Grant) (hK₀ : Kept B s) :
    Kept B (takeGrant s n k g) := by
  unfold takeGrant
  try dsimp only
  repeat' first
    | with_reducible assumption
    | with_reducible apply refuseStream_kept
    | with_reducible apply reserveIn_kept
    | with_reducible apply modCoding_kept
    | with_reducible apply modPacer_kept
    | with_reducible apply putField_kept
    | with_reducible apply setFlag_kept
    | with_reducible apply noteWithheld_kept
    | with_reducible apply forEach_kept
    | with_reducible apply postJob_kept
    | intro _ _ _
    | intro _ _
    | with_reducible refine ite_kept (fun _ => ?_) (fun _ => ?_)

theorem setFireFlags_kept (s : State) (u : UnitId) (c : Chan) (hK₀ : Kept B s) :
    Kept B (setFireFlags s u c) := by
  unfold setFireFlags
  try dsimp only
  repeat' first
    | with_reducible assumption
    | with_reducible apply setTaskFlag_kept
    | with_reducible refine forEach_kept _ _ _ (fun _ _ _ => ?_) ?_

theorem fireJob_kept (s : State) (c : Chan) (j : Job) (hK₀ : Kept B s) :
    Kept B (fireJob s c j) := by
  unfold fireJob
  try dsimp only
  repeat' first
    | with_reducible assumption
    | with_reducible apply setFireFlags_kept
    | with_reducible apply modCoding_kept
    | intro _ _ _
    | intro _ _
    | with_reducible refine ite_kept (fun _ => ?_) (fun _ => ?_)
    | split

theorem execStripeJobFire_kept (c : Chan) (s : State) (hK₀ : Kept B s) :
    OutKept B (execStripeJobFire c s) := by
  unfold execStripeJobFire
  try dsimp only
  repeat' first
    | with_reducible assumption
    | with_reducible apply next_kept
    | with_reducible apply fireJob_kept
    | with_reducible refine ite_kept (fun _ => ?_) (fun _ => ?_)
    | split

theorem countCtu_kept (s : State) (c : Chan) (n : StreamId) (g : CtuPlan) (hK₀ : Kept B s) :
    Kept B (countCtu s c n g) := by
  unfold countCtu
  try dsimp only
  repeat' first
    | with_reducible assumption
    | with_reducible apply putField_kept
    | with_reducible apply bump_kept
    | with_reducible refine ite_kept (fun _ => ?_) (fun _ => ?_)

theorem noteLapStall_kept (s : State) (c : Chan) (v : Nat) (h : Kept B s) : Kept B (noteLapStall s c v) :=
  modStall_kept _ _ _ _ h

theorem execCtuCode_kept (c : Chan) (n : StreamId) (x : CtuContent) (s : State) (hK₀ : Kept B s) :
    OutKept B (execCtuCode c n x s) := by
  unfold execCtuCode
  try dsimp only
  repeat' first
    | with_reducible assumption
    | with_reducible apply noteLapStall_kept
    | with_reducible apply next_kept
    | with_reducible apply modCoding_kept
    | with_reducible apply countCtu_kept
    | with_reducible apply modChan_kept
    | with_reducible apply modStream_kept
    | intro _ _ _
    | intro _ _
    | with_reducible refine ite_kept (fun _ => ?_) (fun _ => ?_)
    | split

theorem countPicture_kept (s : State) (n : StreamId) (u : UnitId) (picture : Nat) (hK₀ : Kept B s) :
    Kept B (countPicture s n u picture) := by
  unfold countPicture
  try dsimp only
  repeat' first
    | with_reducible assumption
    | with_reducible apply bump_kept
    | with_reducible apply modStream_kept
    | with_reducible apply none_kept
    | with_reducible apply some_kept
    | with_reducible refine forEach_kept _ _ _ (fun _ _ _ => ?_) ?_

theorem noteCoders_kept (s : State) (n : StreamId) (hK₀ : Kept B s) :
    Kept B (noteCoders s n) := by
  unfold noteCoders
  try dsimp only
  repeat' first
    | with_reducible assumption
    | with_reducible apply modChan_kept
    | with_reducible refine forEach_kept _ _ _ (fun _ _ _ => ?_) ?_

theorem noteHashes_kept (s : State) (l : List LineCrc) (hK₀ : Kept B s) :
    Kept B (noteHashes s l) := by
  unfold noteHashes
  try dsimp only
  repeat' first
    | with_reducible assumption
    | with_reducible apply cvEnd_kept
    | with_reducible refine forEach_kept _ _ _ (fun _ _ _ => ?_) ?_

theorem noteDone_kept (s : State) (c : Chan) (hK₀ : Kept B s) :
    Kept B (noteDone s c) := by
  unfold noteDone
  try dsimp only
  repeat' first
    | with_reducible assumption
    | with_reducible apply modChan_kept

theorem completeStripe_kept (s : State) (n : StreamId) (k : Coding) (x : CodedStripe) (hK₀ : Kept B s) :
    Kept B (completeStripe s n k x) := by
  unfold completeStripe
  try dsimp only
  repeat' first
    | with_reducible assumption
    | with_reducible apply noteDone_kept
    | with_reducible apply noteCoders_kept
    | with_reducible apply noteHashes_kept
    | with_reducible apply countPicture_kept
    | with_reducible apply reserveIn_kept
    | with_reducible apply modStream_kept
    | with_reducible apply bump_kept
    | with_reducible apply forEach_kept
    | intro _ _ _
    | intro _ _
    | with_reducible refine ite_kept (fun _ => ?_) (fun _ => ?_)

theorem execStripeCoded_kept (n : StreamId) (x : CodedStripe) (s : State) (hK₀ : Kept B s) :
    OutKept B (execStripeCoded n x s) := by
  unfold execStripeCoded
  try dsimp only
  repeat' first
    | with_reducible assumption
    | with_reducible apply next_kept
    | with_reducible apply completeStripe_kept
    | with_reducible refine ite_kept (fun _ => ?_) (fun _ => ?_)
    | split

theorem execGlobalVectorEstimate_kept (n : StreamId) (s : State) (hK₀ : Kept B s) :
    OutKept B (execGlobalVectorEstimate n s) := by
  unfold execGlobalVectorEstimate
  try dsimp only
  repeat' first
    | with_reducible assumption
    | with_reducible apply next_kept
    | with_reducible apply modStream_kept
    | intro _ _ _
    | intro _ _
    | with_reducible refine ite_kept (fun _ => ?_) (fun _ => ?_)
    | split

theorem trackRect_kept (s : State) (n : StreamId) (c : Chan) (r : RectId) (hK₀ : Kept B s) :
    Kept B (trackRect s n c r) := by
  unfold trackRect
  try dsimp only
  repeat' first
    | with_reducible assumption

theorem execRoiTrackUpdate_kept (n : StreamId) (s : State) (hK₀ : Kept B s) :
    OutKept B (execRoiTrackUpdate n s) := by
  unfold execRoiTrackUpdate
  try dsimp only
  repeat' first
    | with_reducible assumption
    | with_reducible apply next_kept
    | with_reducible apply forEach_kept
    | with_reducible apply trackRect_kept
    | intro _ _ _
    | intro _ _
    | with_reducible refine ite_kept (fun _ => ?_) (fun _ => ?_)
    | split

theorem execSegmentVerified_kept (c : Chan) (n : StreamId) (x : SegmentResult) (s : State) (hK₀ : Kept B s) :
    OutKept B (execSegmentVerified c n x s) := by
  unfold execSegmentVerified
  try dsimp only
  repeat' first
    | with_reducible assumption
    | with_reducible apply noteDone_kept
    | with_reducible apply modChan_kept
    | with_reducible apply next_kept
    | with_reducible apply modStream_kept
    | with_reducible apply bump_kept
    | with_reducible apply suppressedWrite_kept
    | intro _ _ _
    | intro _ _
    | with_reducible refine ite_kept (fun _ => ?_) (fun _ => ?_)
    | split

theorem nextToken_kept (s : State) (n : StreamId) (hK₀ : Kept B s) :
    Kept B (nextToken s n) := by
  unfold nextToken
  try dsimp only
  repeat' first
    | with_reducible assumption
    | with_reducible apply modStream_kept
    | with_reducible apply bump_kept
    | with_reducible apply regPut_kept

theorem execEgressByteCheck_kept (c : Chan) (n : StreamId) (stripe slice : Nat) (verifier egress : List Byte) (s : State) (hK₀ : Kept B s) :
    OutKept B (execEgressByteCheck c n stripe slice verifier egress s) := by
  unfold execEgressByteCheck
  try dsimp only
  repeat' first
    | with_reducible assumption
    | with_reducible refine next_kept ?_
    | with_reducible apply none_kept
    | with_reducible apply some_kept
    | with_reducible apply bump_kept
    | with_reducible apply modStream_kept
    | with_reducible apply unitFaultOf_kept
    | with_reducible refine ite_kept (fun _ => ?_) (fun _ => ?_)
    | split

/-! ## Release -/

theorem modStripe_kept (s : State) (n : StreamId) (k : Stripe) (f : Stripe → Stripe) (hK₀ : Kept B s) :
    Kept B (modStripe s n k f) := by
  unfold modStripe
  try dsimp only
  repeat' first
    | with_reducible assumption
    | with_reducible apply modStream_kept

theorem sendStripe_kept (s : State) (n : StreamId) (k : Stripe) (hK₀ : Kept B s) :
    Kept B (sendStripe s n k) := by
  unfold sendStripe
  try dsimp only
  repeat' first
    | with_reducible assumption
    | with_reducible apply modStripe_kept
    | with_reducible apply modFlow_kept
    | with_reducible apply enqueue_kept
    | with_reducible apply refuseFlow_kept
    | intro _ _ _
    | intro _ _
    | with_reducible refine ite_kept (fun _ => ?_) (fun _ => ?_)
    | split

theorem modelUpdate_kept (s : State) (n : StreamId) (bits : Nat) (hK₀ : Kept B s) :
    Kept B (modelUpdate s n bits) := by
  unfold modelUpdate
  try dsimp only
  repeat' first
    | with_reducible assumption
    | with_reducible apply modPacer_kept
    | with_reducible apply monitorSample_kept
    | with_reducible apply regPut_kept

theorem countRelease_kept (s : State) (n : StreamId) (k : Stripe) (hK₀ : Kept B s) :
    Kept B (countRelease s n k) := by
  unfold countRelease
  try dsimp only
  repeat' first
    | with_reducible assumption
    | with_reducible apply forEach_kept
    | with_reducible apply bump_kept
    | with_reducible apply bumpBy_kept
    | intro _ _ _
    | intro _ _
    | with_reducible refine ite_kept (fun _ => ?_) (fun _ => ?_)

theorem noteFirstPicture_kept (s : State) (k : Stripe) (hK₀ : Kept B s) : Kept B (noteFirstPicture s k) := by
  unfold noteFirstPicture
  repeat' first
    | with_reducible assumption
    | with_reducible apply watchTick_kept
    | with_reducible refine ite_kept (fun _ => ?_) (fun _ => ?_)

theorem noteVoid_kept (n : StreamId) (k : Stripe) (s : State) (hK₀ : Kept B s) :
    Kept B (noteVoid n k s) := by
  unfold noteVoid
  try dsimp only
  repeat' first
    | with_reducible assumption
    | with_reducible apply modStream_kept

theorem releaseStripe_kept (s : State) (n : StreamId) (k : Stripe) (hK₀ : Kept B s) :
    Kept B (releaseStripe s n k) := by
  unfold releaseStripe
  try dsimp only
  repeat' first
    | with_reducible assumption
    | with_reducible apply noteVoid_kept
    | with_reducible apply noteFirstPicture_kept
    | with_reducible apply countRelease_kept
    | with_reducible apply modelUpdate_kept
    | with_reducible apply sendStripe_kept
    | with_reducible apply modStripe_kept
    | intro _ _ _
    | intro _ _
    | with_reducible refine ite_kept (fun _ => ?_) (fun _ => ?_)

theorem releaseDue_kept (s : State) (vouch : Bool) (h : Kept B s) : Kept B (releaseDue s vouch) :=
  forEach_kept _ _ _ (fun _ _ hx => forEach_kept _ _ _ (fun _ _ hy => releaseStripe_kept _ _ _ hy) hx) h

theorem sliceToken_kept (n : StreamId) (k : Stripe) (v : Verdict) (supersedes : Bool) (a : State × List (BitVec 256)) (x : Slice × Nat)
    (h : Kept B a.1) : Kept B (sliceToken n k v supersedes a x).1 := by
  unfold sliceToken
  dsimp only
  with_reducible exact cvEnd_kept _ _ _ _ (nextToken_kept _ _ h)

theorem stripeTokens_kept (n : StreamId) (a : State × List (BitVec 256)) (k : Stripe) (h : Kept B a.1) :
    Kept B (stripeTokens n a k).1 := by
  unfold stripeTokens
  exact foldlPair_kept _ (fun _ _ hx => sliceToken_kept _ _ _ _ _ _ hx) _ _ h

theorem egressToken_kept (n : StreamId) (a : State × List (BitVec 256)) (x : Stripe × Nat) (h : Kept B a.1) :
    Kept B (egressToken n a x).1 := by
  unfold egressToken
  split
  · exact sliceToken_kept _ _ _ _ _ _ h
  · exact h

theorem vouchStream_kept (a : State × List (StreamId × List (BitVec 256))) (n : StreamId) (h : Kept B a.1) :
    Kept B (vouchStream a n).1 := by
  refine modStream_kept _ _ _ ?_
  split
  · exact h
  · exact foldlPair_kept _ (fun b k hb => stripeTokens_kept n b k hb) _ _
      (foldlPair_kept _ (fun b x hb => egressToken_kept n b x hb) _ _ h)

theorem vouchDue_kept (s : State) (h : Kept B s) : Kept B (vouchDue s) := by
  have ha : Kept B (allStreams.foldl vouchStream (s, [])).1 :=
    foldlPair_kept _ (fun x n hx => vouchStream_kept x n hx) _ _ h
  refine forEach_kept _ _ _ (fun x f hx => ?_) ha
  dsimp only
  split
  · exact hx
  · exact offerTokens_kept _ _ _ _ hx

theorem retireStripes_kept (s : State) (n : StreamId) (hK₀ : Kept B s) :
    Kept B (retireStripes s n) := by
  unfold retireStripes
  try dsimp only
  repeat' first
    | with_reducible assumption
    | with_reducible apply modStream_kept

/-! ## Hurdle -/

theorem hurdleFault_kept (s : State) (bit : Option Nat) (hK₀ : Kept B s) :
    Kept B (hurdleFault s bit) := by
  unfold hurdleFault
  try dsimp only
  repeat' first
    | with_reducible assumption
    | with_reducible apply putField_kept
    | with_reducible apply bump_kept
    | with_reducible apply setFlag_kept
    | with_reducible refine ite_kept (fun _ => ?_) (fun _ => ?_)
    | split

theorem hurdleUnitFault_kept (s : State) (u : UnitId) (bit : Nat) (hK₀ : Kept B s) :
    Kept B (hurdleUnitFault s u bit) := by
  unfold hurdleUnitFault
  try dsimp only
  repeat' first
    | with_reducible assumption
    | with_reducible apply reportUnitFault_kept
    | with_reducible apply raiseEmcyOf_kept
    | with_reducible apply hurdleFault_kept

theorem codingHurdle_kept (s : State) (n : StreamId) (hK₀ : Kept B s) :
    Kept B (codingHurdle s n) := by
  unfold codingHurdle
  try dsimp only
  repeat' first
    | with_reducible assumption
    | with_reducible apply reserveIn_kept
    | with_reducible apply modStream_kept
    | with_reducible apply forEach_kept
    | with_reducible apply hurdleUnitFault_kept
    | intro _ _ _
    | intro _ _
    | with_reducible refine ite_kept (fun _ => ?_) (fun _ => ?_)
    | split

theorem noteVerdict_kept (s : State) (n : StreamId) (k : Stripe) (l : Slice) (hK₀ : Kept B s) :
    Kept B (noteVerdict s n k l) := by
  unfold noteVerdict
  try dsimp only
  repeat' first
    | with_reducible assumption
    | with_reducible apply bump_kept
    | with_reducible apply regPut_kept
    | with_reducible apply unitFaultOf_kept
    | with_reducible apply setFlag_kept
    | with_reducible refine ite_kept (fun _ => ?_) (fun _ => ?_)
    | split

theorem judgeStripe_kept (s : State) (n : StreamId) (k : Stripe) (hK₀ : Kept B s) :
    Kept B (judgeStripe s n k) := by
  unfold judgeStripe
  try dsimp only
  repeat' first
    | with_reducible assumption
    | with_reducible apply modStripe_kept
    | with_reducible apply forEach_kept
    | with_reducible apply noteVerdict_kept
    | with_reducible apply hurdleFault_kept
    | intro _ _ _

theorem verifyHurdle_kept (s : State) (n : StreamId) (hK₀ : Kept B s) :
    Kept B (verifyHurdle s n) := by
  unfold verifyHurdle
  try dsimp only
  repeat' first
    | with_reducible assumption
    | with_reducible apply forEach_kept
    | with_reducible apply judgeStripe_kept
    | intro _ _ _

theorem batonHurdle_kept (s : State) (done : Bool) (hK₀ : Kept B s) :
    Kept B (batonHurdle s done) := by
  unfold batonHurdle
  try dsimp only
  repeat' first
    | with_reducible assumption
    | with_reducible apply batonFault_kept
    | with_reducible apply hurdleFault_kept
    | with_reducible refine ite_kept (fun _ => ?_) (fun _ => ?_)
    | split

theorem taskHurdle_kept (s : State) (u : UnitId) (hK₀ : Kept B s) :
    Kept B (taskHurdle s u) := by
  unfold taskHurdle
  try dsimp only
  repeat' first
    | with_reducible assumption
    | with_reducible apply forEach_kept
    | with_reducible apply hurdleUnitFault_kept
    | intro _ _ _

theorem selfTestHurdle_kept (s : State) (hK₀ : Kept B s) :
    Kept B (selfTestHurdle s) := by
  unfold selfTestHurdle
  try dsimp only
  repeat' first
    | with_reducible assumption
    | with_reducible apply none_kept
    | with_reducible apply some_kept
    | with_reducible apply hurdleFault_kept
    | with_reducible refine ite_kept (fun _ => ?_) (fun _ => ?_)
    | split

theorem hurdleCheck_kept (s : State) (i : TickInput) (hK₀ : Kept B s) :
    Kept B (hurdleCheck s i) := by
  unfold hurdleCheck
  try dsimp only
  repeat' first
    | with_reducible assumption
    | with_reducible apply verifyHurdle_kept
    | with_reducible apply codingHurdle_kept
    | with_reducible apply batonHurdle_kept
    | with_reducible apply some_kept
    | with_reducible apply taskHurdle_kept
    | with_reducible apply none_kept
    | with_reducible apply selfTestHurdle_kept
    | with_reducible refine forEach_kept _ _ _ (fun _ _ _ => ?_) ?_
    | with_reducible refine ite_kept (fun _ => ?_) (fun _ => ?_)
    | split

theorem voterCheck_kept (s : State) (v : VoterReport) (hK₀ : Kept B s) :
    Kept B (voterCheck s v) := by
  unfold voterCheck
  try dsimp only
  repeat' first
    | with_reducible assumption
    | with_reducible apply logNoteLimited_kept
    | with_reducible apply raiseEmcy_kept
    | with_reducible apply setFlag_kept
    | with_reducible refine ite_kept (fun _ => ?_) (fun _ => ?_)
    | split

theorem noteStall_kept (s : State) (v : Nat) (hK₀ : Kept B s) :
    Kept B (noteStall s v) := by
  unfold noteStall
  try dsimp only
  repeat' first
    | with_reducible assumption
    | with_reducible apply countUnit_kept
    | with_reducible apply regMax_kept
    | with_reducible apply setFlag_kept
    | with_reducible apply bump_kept
    | with_reducible refine ite_kept (fun _ => ?_) (fun _ => ?_)

theorem tickSamples_kept (s : State) (i : TickInput) (late : Chan → Bool) (hK₀ : Kept B s) :
    Kept B (tickSamples s i late) := by
  unfold tickSamples
  try dsimp only
  repeat' first
    | with_reducible assumption
    | with_reducible apply modStall_kept
    | with_reducible apply monitorSample_kept
    | with_reducible apply modChan_kept
    | with_reducible apply noteStall_kept
    | with_reducible apply forEach_kept
    | with_reducible apply sampleFlows_kept
    | intro _ _ _

/-! ## Handover -/

theorem writeBaton_kept (s : State) (hK₀ : Kept B s) :
    Kept B (writeBaton s) := by
  unfold writeBaton
  try dsimp only
  repeat' first
    | with_reducible assumption
    | intro _ _ _
    | intro _ _
    | with_reducible refine ite_kept (fun _ => ?_) (fun _ => ?_)
    | split

theorem standInSlice_kept (n : StreamId) (k : Stripe) (a : State × List Slice) (l : Slice) (h : Kept B a.1) :
    Kept B (standInSlice n k a l).1 := drawFree_kept _ h

theorem standIn_kept (s : State) (u : UnitId) (n : StreamId) (k : Stripe) (h : Kept B s) : Kept B (standIn s u n k).1 :=
  foldlPair_kept _ (fun a l ha => standInSlice_kept n k a l ha) _ _ h

theorem noteHanded_kept (s : State) (n : StreamId) (k : Stripe) (hK₀ : Kept B s) :
    Kept B (noteHanded s n k) := by
  unfold noteHanded
  try dsimp only
  repeat' first
    | with_reducible assumption
    | with_reducible apply noteVerdict_kept
    | with_reducible refine forEach_kept _ _ _ (fun _ _ _ => ?_) ?_

theorem replaceStripe_kept (u : UnitId) (n : StreamId) (handed : Nat) (a : State × List Stripe) (k : Stripe) (h : Kept B a.1) :
    Kept B (replaceStripe u n handed a k).1 := by
  unfold replaceStripe
  split
  · exact h
  · refine noteHanded_kept _ _ _ ?_
    split
    · exact h
    · split
      · exact h
      · exact standIn_kept _ _ _ _ h

theorem replaceFlight_kept (s0 : State) (n : StreamId) (u : UnitId) (h : Kept B s0) : Kept B (replaceFlight s0 n u) := by
  unfold replaceFlight
  refine modStream_kept _ _ _ ?_
  have h1 := fun l p => foldlPair_kept (B := B) (replaceStripe u n p) (fun a k ha => replaceStripe_kept u n p a k ha) l
    (modStream s0 n fun y => { y with ownFrom := none }, []) (modStream_kept _ _ _ h)
  exact ite_kept (fun _ => countPicture_kept _ _ _ _ (h1 _ _)) (fun _ => h1 _ _)

theorem takeStream_kept (s : State) (u : UnitId) (n : StreamId) (hK₀ : Kept B s) :
    Kept B (takeStream s u n) := by
  unfold takeStream
  try dsimp only
  repeat' first
    | with_reducible assumption
    | with_reducible apply reportGlobal_kept
    | with_reducible apply modStream_kept

theorem freshChannels_kept (s : State) (hK₀ : Kept B s) :
    Kept B (freshChannels s) := by
  unfold freshChannels
  try dsimp only
  repeat' first
    | with_reducible assumption
    | with_reducible apply regPut_kept
    | with_reducible apply forEach_kept
    | with_reducible apply freshRects_kept
    | with_reducible apply modChan_kept
    | intro _ _ _

theorem handoverPicture_kept (s : State) (n : StreamId) (hK₀ : Kept B s) :
    Kept B (handoverPicture s n) := by
  unfold handoverPicture
  try dsimp only
  repeat' first
    | with_reducible assumption
    | with_reducible apply modStream_kept
    | with_reducible apply putFlag_kept

theorem takeFlow_kept (s : State) (u : UnitId) (f : FlowId) (hK₀ : Kept B s) :
    Kept B (takeFlow s u f) := by
  unfold takeFlow
  try dsimp only
  repeat' first
    | with_reducible assumption
    | with_reducible apply modFlow_kept

theorem noteHandover_kept (s : State) (h : HandOver) (old : UnitId) (standIns : Nat) (hK₀ : Kept B s) :
    Kept B (noteHandover s h old standIns) := by
  unfold noteHandover
  try dsimp only
  repeat' first
    | with_reducible assumption
    | with_reducible apply regPut_kept
    | with_reducible apply bumpHalf_kept
    | with_reducible apply raiseEmcyOf_kept
    | with_reducible refine ite_kept (fun _ => ?_) (fun _ => ?_)

theorem handoverDram_kept (s : State) (u : UnitId) (hK₀ : Kept B s) :
    Kept B (handoverDram s u) := by
  unfold handoverDram
  try dsimp only
  repeat' first
    | with_reducible assumption
    | with_reducible apply wakeDram_kept
    | with_reducible refine ite_kept (fun _ => ?_) (fun _ => ?_)
    | split

theorem stopSelfTest_kept (s : State) (u : UnitId) (hK₀ : Kept B s) :
    Kept B (stopSelfTest s u) := by
  unfold stopSelfTest
  try dsimp only
  repeat' first
    | with_reducible assumption
    | with_reducible apply none_kept
    | with_reducible apply some_kept
    | with_reducible apply drawFree_kept
    | with_reducible apply setDram_kept
    | (show assocWf _ _ = true; exact assocWf_filter _ _ _ (by assumption))
    | intro _ _ _
    | intro _ _
    | with_reducible refine ite_kept (fun _ => ?_) (fun _ => ?_)
    | split

theorem handoverCommon_kept (s : State) (old new : UnitId) (hK₀ : Kept B s) :
    Kept B (handoverCommon s old new) := by
  unfold handoverCommon
  try dsimp only
  repeat' first
    | with_reducible assumption
    | with_reducible apply ringPresent_kept
    | with_reducible apply regPut_kept
    | with_reducible apply stopSelfTest_kept
    | with_reducible apply abandonPattern_kept
    | with_reducible apply captureHandover_kept
    | with_reducible apply handoverDram_kept
    | with_reducible apply beginWatch_kept

theorem handoverFlows_kept (s : State) (new : UnitId) (hK₀ : Kept B s) :
    Kept B (handoverFlows s new) := by
  unfold handoverFlows
  try dsimp only
  repeat' first
    | with_reducible assumption
    | with_reducible apply forEach_kept
    | with_reducible apply takeFlow_kept
    | intro _ _ _

theorem faultHandover_kept (s : State) (h : HandOver) (old new : UnitId) (hK₀ : Kept B s) :
    Kept B (faultHandover s h old new) := by
  unfold faultHandover
  try dsimp only
  repeat' first
    | with_reducible assumption
    | with_reducible apply forEach_kept
    | with_reducible apply replaceFlight_kept
    | with_reducible apply noteHandover_kept
    | with_reducible apply handoverPicture_kept
    | with_reducible apply takeStream_kept
    | with_reducible apply freshChannels_kept
    | with_reducible apply enterRepair_kept
    | with_reducible apply handoverFlows_kept
    | with_reducible apply handoverCommon_kept
    | intro _ _ _
    | intro _ _
    | with_reducible refine ite_kept (fun _ => ?_) (fun _ => ?_)

theorem handStripes_kept (s : State) (n : StreamId) (new : UnitId) (hK₀ : Kept B s) :
    Kept B (handStripes s n new) := by
  unfold handStripes
  try dsimp only
  repeat' first
    | with_reducible assumption
    | with_reducible apply modStream_kept
    | with_reducible apply noteHanded_kept
    | with_reducible refine forEach_kept _ _ _ (fun _ _ _ => ?_) ?_

theorem plannedHandover_kept (s : State) (h : HandOver) (old new : UnitId) (hK₀ : Kept B s) :
    Kept B (plannedHandover s h old new) := by
  unfold plannedHandover
  try dsimp only
  repeat' first
    | with_reducible assumption
    | with_reducible apply handStripes_kept
    | with_reducible apply noteHandover_kept
    | with_reducible apply bumpBy_kept
    | with_reducible apply forEach_kept
    | with_reducible apply modStream_kept
    | with_reducible apply handoverFlows_kept
    | with_reducible apply handoverCommon_kept
    | intro _ _ _

theorem handOver_kept (s : State) (hK₀ : Kept B s) :
    Kept B (handOver s) := by
  unfold handOver
  try dsimp only
  repeat' first
    | with_reducible assumption
    | with_reducible apply plannedHandover_kept
    | with_reducible apply faultHandover_kept
    | with_reducible refine ite_kept (fun _ => ?_) (fun _ => ?_)
    | split

/-! ## Reset -/

theorem moduleCold_kept (s : State) (powerOn : Bool) (h : Kept B s) : Kept B (moduleCold s powerOn) := by
  obtain ⟨h1, h2, h3, _⟩ := h
  refine ⟨h1, h2, ?_, fun _ => rfl, fun _ => rfl, fun _ => rfl, fun _ => rfl, ?_, ?_, fun _ => rfl, fun _ => rfl,
    fun _ => Nat.zero_le _, fun _ => Nat.zero_le _, fun _ => Nat.zero_le _, fun _ => rfl⟩
  · cases powerOn
    · exact fun w => assocWf_filter _ _ _ (h3 w)
    · exact fun _ => rfl
  · cases powerOn <;> exact fun _ => rfl
  · cases powerOn <;> exact fun _ => rfl

theorem keepLog_kept (s t : State) (h : Kept B s) (ht : Kept B t) : Kept B (keepLog s t) := by
  obtain ⟨_, _, _, _, _, _, _, _, _, _, _, _, hr, _⟩ := h
  obtain ⟨h1, h2, h3, h4, h5, h6, h7, h8, h9, h10, h11, h12, _, h14⟩ := ht
  exact ⟨h1, h2, h3, h4, h5, h6, h7, h8, h9, h10, h11, h12, hr, h14⟩

theorem powerOn_kept (s : State) (hK₀ : Kept B s) : Kept B (powerOn s) := by
  unfold powerOn
  try dsimp only
  repeat' first
    | with_reducible assumption
    | with_reducible apply keepLog_kept
    | with_reducible apply moduleCold_kept
    | with_reducible refine ite_kept (fun _ => ?_) (fun _ => ?_)

theorem applyReset_kept (s : State) (c : Nat) (hK₀ : Kept B s) :
    Kept B (applyReset s c) := by
  unfold applyReset
  try dsimp only
  repeat' first
    | with_reducible assumption
    | with_reducible apply clearFlag_kept
    | with_reducible apply keepLog_kept
    | with_reducible apply moduleCold_kept
    | with_reducible apply bump_kept
    | with_reducible apply regPut_kept
    | with_reducible apply setFlag_kept
    | intro _ _ _
    | intro _ _
    | with_reducible refine ite_kept (fun _ => ?_) (fun _ => ?_)

theorem assertModuleReset_kept (s : State) (c : Nat) (hK₀ : Kept B s) :
    Kept B (assertModuleReset s c) := by
  unfold assertModuleReset
  try dsimp only
  repeat' first
    | with_reducible assumption
    | with_reducible apply setFlag_kept
    | with_reducible apply suspendErase_kept
    | with_reducible apply applyReset_kept
    | with_reducible refine ite_kept (fun _ => ?_) (fun _ => ?_)

theorem execPowerOnReset_kept (s : State) (hK₀ : Kept B s) :
    OutKept B (execPowerOnReset s) := by
  unfold execPowerOnReset
  try dsimp only
  repeat' first
    | with_reducible assumption
    | with_reducible apply powerOn_kept
    | with_reducible apply next_kept

theorem execRstNAssert_kept (ns : Nat) (s : State) (hK₀ : Kept B s) :
    OutKept B (execRstNAssert ns s) := by
  unfold execRstNAssert
  try dsimp only
  repeat' first
    | with_reducible assumption
    | with_reducible apply next_kept
    | with_reducible apply assertModuleReset_kept
    | with_reducible apply drawFree_kept
    | with_reducible refine ite_kept (fun _ => ?_) (fun _ => ?_)
    | split

theorem rst_kept {s : State} (r : ResetState) (h : Kept B s) : Kept B { s with rst := r } := h

theorem assertClockReset_kept (s : State) (h : Kept B s) : Kept B (assertClockReset s) :=
  setFlag_kept _ _ _ (rst_kept _ (assertModuleReset_kept s 3 h))

theorem releaseSource_kept (s : State) (c : Nat) (hK₀ : Kept B s) :
    Kept B (releaseSource s c) := by
  unfold releaseSource
  try dsimp only
  repeat' first
    | with_reducible assumption

theorem execRstNRelease_kept (s : State) (hK₀ : Kept B s) :
    OutKept B (execRstNRelease s) := by
  unfold execRstNRelease
  try dsimp only
  repeat' first
    | with_reducible assumption
    | with_reducible apply next_kept
    | with_reducible apply releaseSource_kept
    | with_reducible refine ite_kept (fun _ => ?_) (fun _ => ?_)

theorem releaseBlocks_kept (s : State) (hK₀ : Kept B s) :
    Kept B (releaseBlocks s) := by
  unfold releaseBlocks
  try dsimp only
  repeat' first
    | with_reducible assumption

theorem execResetSourceRelease_kept (code : Fin 8) (s : State) (hK₀ : Kept B s) :
    OutKept B (execResetSourceRelease code s) := by
  unfold execResetSourceRelease
  try dsimp only
  repeat' first
    | with_reducible assumption
    | with_reducible apply next_kept
    | with_reducible apply releaseRepair_kept
    | with_reducible apply releaseBlocks_kept
    | with_reducible apply releaseSource_kept
    | with_reducible apply drawFree_kept
    | with_reducible refine ite_kept (fun _ => ?_) (fun _ => ?_)
    | split

theorem execClockStable_kept (s : State) (hK₀ : Kept B s) :
    OutKept B (execClockStable s) := by
  unfold execClockStable
  try dsimp only
  repeat' first
    | with_reducible assumption
    | with_reducible apply next_kept
    | with_reducible apply clearFlag_kept

theorem execClockStableTimeout_kept (where_ : Option UnitId) (s : State) (hK₀ : Kept B s) :
    OutKept B (execClockStableTimeout where_ s) := by
  unfold execClockStableTimeout
  try dsimp only
  repeat' first
    | with_reducible assumption
    | with_reducible apply next_kept
    | with_reducible apply enterRepair_kept
    | with_reducible apply raiseEmcyOf_kept
    | with_reducible apply assertClockReset_kept
    | with_reducible refine ite_kept (fun _ => ?_) (fun _ => ?_)
    | split

theorem trainUnits_kept (s : State) (h : Kept B s) : Kept B (trainUnits s) := by
  have h1 : Kept B (drawFree (drawFree { s with
      dram := ⟨trainChannels s .a (Config.freeValue 32 s.free), trainChannels s .b (Config.freeValue 32 (s.free + 1))⟩ })) :=
    dram_kept (s := { s with free := s.free + 1 + 1 }) h h.memA h.memB
  exact ite_kept (fun _ => h1) (fun _ => setFlag_kept _ _ _ h1)

theorem execReleaseStepDone_kept (s : State) (h : Kept B s) :
    OutKept B (execReleaseStepDone s) := by
  unfold execReleaseStepDone
  split
  · exact next_kept h
  · have h1 : Kept B (if s.rst.step.val = 2 then trainUnits s else s) :=
      ite_kept (fun _ => trainUnits_kept _ h) (fun _ => h)
    exact next_kept h1

theorem applyWaiting_kept (s : State) (hK₀ : Kept B s) :
    Kept B (applyWaiting s) := by
  unfold applyWaiting
  try dsimp only
  repeat' first
    | with_reducible assumption
    | with_reducible apply applyReset_kept
    | with_reducible refine ite_kept (fun _ => ?_) (fun _ => ?_)
    | split

theorem execProgramPulseEnd_kept (s : State) (hK₀ : Kept B s) :
    OutKept B (execProgramPulseEnd s) := by
  unfold execProgramPulseEnd
  try dsimp only
  repeat' first
    | with_reducible assumption
    | with_reducible apply next_kept
    | with_reducible apply applyWaiting_kept

theorem execEraseSuspendDone_kept (s : State) (hK₀ : Kept B s) :
    OutKept B (execEraseSuspendDone s) := by
  unfold execEraseSuspendDone
  try dsimp only
  repeat' first
    | with_reducible assumption
    | with_reducible apply suspendErase_kept
    | with_reducible apply next_kept
    | with_reducible apply applyWaiting_kept

theorem execLimitRecordCheck_kept (s : State) (h : Kept B s) :
    OutKept B (execLimitRecordCheck s) := by
  unfold execLimitRecordCheck
  split
  · dsimp only
    generalize recordInForce s = r
    generalize (if limitGood r = true then r.current else 270) = c
    have h1 := regPut_kept _ (key 0x5C00 9) c (regPut_kept s (key 0x2100 8) s.flash.intents.length h)
    have h2 : Kept B (if limitGood r = true then clearFlag _ kIntegrity 30 else raiseEmcy (setFlag _ kIntegrity 30) 0x6300 kIntegrity 0) :=
      ite_kept (fun _ => clearFlag_kept _ _ _ h1) (fun _ => raiseEmcy_kept _ _ _ _ (setFlag_kept _ _ _ h1))
    have h3 := forEach_kept allPorts (fun x p => putFlag x (kPort p 0x0B) 26 (!limitGood r)) _
      (fun _ _ hx => putFlag_kept _ _ _ _ hx) h2
    generalize forEach _ _ _ = t at h3 ⊢
    exact next_kept h3
  · exact next_kept h

theorem readRegions_kept (s : State) (hs : Vector PackageHeader 2) (hK₀ : Kept B s) :
    Kept B (readRegions s hs) := by
  unfold readRegions
  try dsimp only
  repeat' first
    | with_reducible assumption

theorem execControllerImageCheck_kept (regions : Vector PackageHeader 2) (s : State) (hK₀ : Kept B s) :
    OutKept B (execControllerImageCheck regions s) := by
  unfold execControllerImageCheck
  try dsimp only
  repeat' first
    | with_reducible assumption
    | with_reducible apply next_kept
    | with_reducible apply readRegions_kept
    | with_reducible apply regPut_kept
    | with_reducible apply setFlag_kept
    | with_reducible refine ite_kept (fun _ => ?_) (fun _ => ?_)
    | split

theorem execUnitImageCheck_kept (u : UnitId) (x : UnitImage) (s : State) (hK₀ : Kept B s) :
    OutKept B (execUnitImageCheck u x s) := by
  unfold execUnitImageCheck
  try dsimp only
  repeat' first
    | with_reducible assumption
    | with_reducible apply next_kept
    | with_reducible apply readRegions_kept
    | with_reducible apply clearFlag_kept
    | with_reducible apply regPut_kept
    | with_reducible apply raiseEmcyOf_kept
    | with_reducible apply setFlag_kept
    | with_reducible apply repairFailed_kept
    | with_reducible apply homeLateAct_kept
    | intro _ _ _
    | intro _ _
    | with_reducible refine ite_kept (fun _ => ?_) (fun _ => ?_)
    | split

theorem storeOf_wf (l : List (Nat × Nat)) : assocWf defaultOf (storeOf l) = true := by
  have go : ∀ (l : List (Nat × Nat)) (st : Store), assocWf defaultOf st = true →
      assocWf defaultOf (l.foldl (fun st p => assocPut defaultOf st p.1 p.2) st) = true := by
    intro l
    induction l with
    | nil => exact fun _ h => h
    | cons p t ih => exact fun _ h => ih _ (assocPut_wf _ _ _ _ h)
  exact go l [] rfl

theorem ctrl_kept {s : State} (c : CtrlState) (h : Kept B s) : Kept B { s with ctrl := c } := h
theorem flash_kept {s : State} (f : FlashState) (h : Kept B s) : Kept B { s with flash := f } := h

theorem noteFallback_kept (s : State) (hK₀ : Kept B s) : Kept B (noteFallback s) := by
  unfold noteFallback
  split
  · exact raiseEmcy_kept _ _ _ _ hK₀
  · exact hK₀

theorem showPowerFail_kept (s : State) (hK₀ : Kept B s) : Kept B (showPowerFail s) :=
  regPut_kept _ _ _ (flash_kept _ hK₀)

theorem execDictionaryLoad_kept (s : State) (h : Kept B s) : OutKept B (execDictionaryLoad s) := by
  unfold execDictionaryLoad
  split
  · dsimp only
    generalize savedNewest s.flash = o
    refine next_kept (showPowerFail_kept _ (noteFallback_kept _ ?_))
    refine ite_kept (fun _ => raiseEmcy_kept _ _ _ _ (setFlag_kept _ _ _ ?_)) fun _ => ?_
    all_goals cases o with
      | none => exact dict_kept (s := { s with ctrl := _, can := _, meters := _ }) h (fun _ => rfl) (fun _ => rfl) (fun _ => rfl) (fun _ => rfl) h.inUse
      | some i =>
        have h0 := fun _ : B.stores => storeOf_wf i.values
        exact dict_kept (s := { s with ctrl := _, can := _, meters := _ }) h h0 h0 h0 h0 h.inUse
  · exact next_kept h

theorem execBootComplete_kept (u : UnitId) (s : State) (h : Kept B s) :
    OutKept B (execBootComplete u s) := by
  unfold execBootComplete
  split
  · dsimp only
    refine next_kept (ite_kept (fun _ => putFlag_kept _ _ _ _ (setFlag_kept _ _ _ ?_)) fun _ => ?_)
    all_goals cases u
    · exact dict_kept (s := { s with boot := _, disp := _, relay := _ }) h h.master h.master h.shadowB h.applied h.inUse
    · exact dict_kept (s := { s with boot := _, disp := _, relay := _ }) h h.master h.shadowA h.master h.applied h.inUse
    · exact dict_kept (s := { s with boot := _, disp := _, relay := _ }) h h.master h.master h.shadowB h.applied h.inUse
    · exact dict_kept (s := { s with boot := _, disp := _, relay := _ }) h h.master h.shadowA h.master h.applied h.inUse
  · exact next_kept h

theorem resetBlocks_kept (s : State) (mask : BitVec 32) (hK₀ : Kept B s) :
    Kept B (resetBlocks s mask) := by
  unfold resetBlocks
  try dsimp only
  repeat' first
    | with_reducible assumption
    | with_reducible apply linkDown_kept
    | with_reducible apply forEach_kept
    | with_reducible apply setFlag_kept
    | with_reducible apply clearFlag_kept
    | intro _ _ _
    | intro _ _
    | with_reducible refine ite_kept (fun _ => ?_) (fun _ => ?_)

theorem doBlockReset_kept (k : Client) (mask : BitVec 32) (s : State) (hK₀ : Kept B s) :
    OkKept B (doBlockReset k mask s) := by
  unfold doBlockReset
  try dsimp only
  repeat' first
    | with_reducible assumption
    | with_reducible apply ok_kept
    | with_reducible exact error_kept
    | with_reducible apply assertSource_kept
    | with_reducible apply resetBlocks_kept
    | with_reducible apply setFlag_kept
    | with_reducible refine ite_kept (fun _ => ?_) (fun _ => ?_)
    | split

theorem execBlockReset_kept (k : Client) (mask : BitVec 32) (s : State) (hK₀ : Kept B s) :
    OutKept B (execBlockReset k mask s) := by
  unfold execBlockReset
  try dsimp only
  repeat' first
    | with_reducible assumption
    | with_reducible apply next_kept
    | with_reducible apply serveWrite_kept
    | with_reducible apply doBlockReset_kept

/-! ## Time -/

theorem tb1Advance_kept (s : State) (hK₀ : Kept B s) :
    Kept B (tb1Advance s) := by
  unfold tb1Advance
  try dsimp only
  repeat' first
    | with_reducible assumption
    | with_reducible apply putFlag_kept

theorem execTb1PictureStart_kept (s : State) (hK₀ : Kept B s) :
    OutKept B (execTb1PictureStart s) := by
  unfold execTb1PictureStart
  try dsimp only
  repeat' first
    | with_reducible assumption
    | with_reducible refine next_kept ?_
    | with_reducible apply tb1Advance_kept
    | with_reducible apply monitorPicture_kept
    | with_reducible refine ite_kept (fun _ => ?_) (fun _ => ?_)
    | split

theorem loseGenlock_kept (s : State) (hK₀ : Kept B s) :
    Kept B (loseGenlock s) := by
  unfold loseGenlock
  try dsimp only
  repeat' first
    | with_reducible assumption
    | with_reducible apply raiseEmcy_kept
    | with_reducible apply setFlag_kept
    | with_reducible apply clearFlag_kept

theorem genlockMiss_kept (s : State) (hK₀ : Kept B s) :
    Kept B (genlockMiss s) := by
  unfold genlockMiss
  try dsimp only
  repeat' first
    | with_reducible assumption
    | with_reducible apply loseGenlock_kept
    | with_reducible refine ite_kept (fun _ => ?_) (fun _ => ?_)

theorem genlockHit_kept (s : State) (hK₀ : Kept B s) :
    Kept B (genlockHit s) := by
  unfold genlockHit
  try dsimp only
  repeat' first
    | with_reducible assumption
    | with_reducible apply setFlag_kept
    | with_reducible refine ite_kept (fun _ => ?_) (fun _ => ?_)

theorem execGenlockEdge_kept (s : State) (hK₀ : Kept B s) :
    OutKept B (execGenlockEdge s) := by
  unfold execGenlockEdge
  try dsimp only
  repeat' first
    | with_reducible assumption
    | with_reducible apply next_kept
    | with_reducible apply genlockHit_kept
    | with_reducible apply genlockMiss_kept
    | with_reducible refine ite_kept (fun _ => ?_) (fun _ => ?_)
    | split

theorem execGenlockEdgeMissing_kept (s : State) (hK₀ : Kept B s) :
    OutKept B (execGenlockEdgeMissing s) := by
  unfold execGenlockEdgeMissing
  try dsimp only
  repeat' first
    | with_reducible assumption
    | with_reducible apply next_kept
    | with_reducible apply genlockMiss_kept
    | with_reducible refine ite_kept (fun _ => ?_) (fun _ => ?_)
    | split

theorem execTb0Second_kept (s : State) (hK₀ : Kept B s) :
    OutKept B (execTb0Second s) := by
  unfold execTb0Second
  try dsimp only
  repeat' first
    | with_reducible assumption
    | with_reducible refine next_kept ?_
    | with_reducible apply bump_kept
    | with_reducible refine ite_kept (fun _ => ?_) (fun _ => ?_)
    | split

theorem execSyncOutPulse_kept (n : Fin 4) (s : State) (hK₀ : Kept B s) :
    OutKept B (execSyncOutPulse n s) := by
  unfold execSyncOutPulse
  try dsimp only
  repeat' first
    | with_reducible assumption
    | with_reducible apply next_kept
    | intro _ _ _
    | intro _ _
    | with_reducible refine ite_kept (fun _ => ?_) (fun _ => ?_)
    | split

theorem fallPins_kept (s : State) (hK₀ : Kept B s) :
    Kept B (fallPins s) := by
  unfold fallPins
  try dsimp only
  repeat' first
    | with_reducible assumption

theorem settleTraceable_kept (s : State) (hK₀ : Kept B s) :
    Kept B (settleTraceable s) := by
  unfold settleTraceable
  try dsimp only
  repeat' first
    | with_reducible assumption
    | with_reducible apply putFlag_kept

theorem takeMaster_kept (s : State) (p : PortId) (a : PtpAnnounce) (hK₀ : Kept B s) :
    Kept B (takeMaster s p a) := by
  unfold takeMaster
  try dsimp only
  repeat' first
    | with_reducible assumption
    | with_reducible apply setFlag_kept
    | with_reducible apply regPut_kept
    | with_reducible apply settleTraceable_kept
    | with_reducible refine ite_kept (fun _ => ?_) (fun _ => ?_)

theorem dropMaster_kept (s : State) (hK₀ : Kept B s) :
    Kept B (dropMaster s) := by
  unfold dropMaster
  try dsimp only
  repeat' first
    | with_reducible assumption
    | with_reducible apply enterHoldover_kept
    | with_reducible refine ite_kept (fun _ => ?_) (fun _ => ?_)

theorem reselect_kept (s : State) (hK₀ : Kept B s) :
    Kept B (reselect s) := by
  unfold reselect
  try dsimp only
  repeat' first
    | with_reducible assumption
    | with_reducible apply dropMaster_kept
    | with_reducible apply takeMaster_kept
    | intro _ _ _
    | intro _ _
    | with_reducible refine ite_kept (fun _ => ?_) (fun _ => ?_)
    | split

theorem execPtpAnnounceRx_kept (p : PortId) (m : PtpAnnounce) (s : State) (hK₀ : Kept B s) :
    OutKept B (execPtpAnnounceRx p m s) := by
  unfold execPtpAnnounceRx
  try dsimp only
  repeat' first
    | with_reducible assumption
    | with_reducible apply next_kept
    | with_reducible apply reselect_kept
    | intro _ _ _
    | intro _ _
    | with_reducible refine ite_kept (fun _ => ?_) (fun _ => ?_)
    | split

theorem execAnnounceReceiptTimeout_kept (p : PortId) (s : State) (hK₀ : Kept B s) :
    OutKept B (execAnnounceReceiptTimeout p s) := by
  unfold execAnnounceReceiptTimeout
  try dsimp only
  repeat' first
    | with_reducible assumption
    | with_reducible apply next_kept
    | with_reducible apply reselect_kept
    | with_reducible apply enterHoldover_kept
    | intro _ _ _
    | intro _ _
    | with_reducible refine ite_kept (fun _ => ?_) (fun _ => ?_)
    | split

theorem stepTb0_kept (s : State) (o : Int) (hK₀ : Kept B s) :
    Kept B (stepTb0 s o) := by
  unfold stepTb0
  try dsimp only
  repeat' first
    | with_reducible assumption
    | with_reducible apply raiseEmcy_kept
    | with_reducible apply setFlag_kept
    | with_reducible apply clearFlag_kept

theorem steerTb0_kept (s : State) (o : Int) (log : Int) (hK₀ : Kept B s) :
    Kept B (steerTb0 s o log) := by
  unfold steerTb0
  try dsimp only
  repeat' first
    | with_reducible assumption
    | with_reducible apply putFlag_kept

theorem takeSample_kept (s : State) (p : PortId) (t1 t2 c log : Int) (hK₀ : Kept B s) :
    Kept B (takeSample s p t1 t2 c log) := by
  unfold takeSample
  try dsimp only
  repeat' first
    | with_reducible assumption
    | with_reducible apply stepTb0_kept
    | with_reducible apply steerTb0_kept
    | with_reducible apply putSigned_kept
    | with_reducible apply settleTraceable_kept
    | with_reducible apply monitorSample_kept
    | with_reducible refine ite_kept (fun _ => ?_) (fun _ => ?_)

theorem execPtpSyncRx_kept (p : PortId) (m : PtpSync) (s : State) (hK₀ : Kept B s) :
    OutKept B (execPtpSyncRx p m s) := by
  unfold execPtpSyncRx
  try dsimp only
  repeat' first
    | with_reducible assumption
    | with_reducible apply next_kept
    | with_reducible apply takeSample_kept
    | with_reducible refine ite_kept (fun _ => ?_) (fun _ => ?_)
    | split

theorem execPtpFollowUpRx_kept (p : PortId) (m : PtpFollowUp) (s : State) (hK₀ : Kept B s) :
    OutKept B (execPtpFollowUpRx p m s) := by
  unfold execPtpFollowUpRx
  try dsimp only
  repeat' first
    | with_reducible assumption
    | with_reducible apply next_kept
    | with_reducible apply takeSample_kept
    | with_reducible refine ite_kept (fun _ => ?_) (fun _ => ?_)
    | split

theorem execPtpDelayReqSend_kept (p : PortId) (stampError : Int) (s : State) (hK₀ : Kept B s) :
    OutKept B (execPtpDelayReqSend p stampError s) := by
  unfold execPtpDelayReqSend
  try dsimp only
  repeat' first
    | with_reducible assumption
    | with_reducible refine next_kept ?_
    | with_reducible apply some_kept
    | with_reducible apply endpointSend_kept
    | with_reducible apply none_kept
    | with_reducible refine ite_kept (fun _ => ?_) (fun _ => ?_)
    | split

theorem execPtpDelayRespRx_kept (p : PortId) (m : PtpDelayResp) (s : State) (hK₀ : Kept B s) :
    OutKept B (execPtpDelayRespRx p m s) := by
  unfold execPtpDelayRespRx
  try dsimp only
  repeat' first
    | with_reducible assumption
    | with_reducible apply next_kept
    | with_reducible refine ite_kept (fun _ => ?_) (fun _ => ?_)
    | split

theorem settlePtp_kept (s : State) (hK₀ : Kept B s) :
    Kept B (settlePtp s) := by
  unfold settlePtp
  try dsimp only
  repeat' first
    | with_reducible assumption
    | with_reducible apply reselect_kept
    | with_reducible apply settleTraceable_kept
    | with_reducible refine ite_kept (fun _ => ?_) (fun _ => ?_)

theorem execClockFault_kept (_m : ClockMonitor) (s : State) (hK₀ : Kept B s) :
    OutKept B (execClockFault _m s) := by
  unfold execClockFault
  try dsimp only
  repeat' first
    | with_reducible assumption
    | with_reducible apply next_kept
    | with_reducible apply setFlag_kept
    | with_reducible apply assertClockReset_kept
    | with_reducible apply raiseEmcy_kept

end Sys2Proof.Machine
end

