-- ==== Sys2Proof/Laws/KeptLap.lean ====
section
/-! SUPPORT. What every operation and every command keeps, part by part: power, the schedule, the relay at a tick, and the lap tick. -/

namespace Sys2Proof.Machine

variable {B : Base}

/-! ## Power -/

theorem execStageStart_kept (s : State) (hK₀ : Kept B s) :
    OutKept B (execStageStart s) := by
  unfold execStageStart
  try dsimp only
  repeat' first
    | with_reducible assumption
    | with_reducible apply next_kept
    | with_reducible apply setFlag_kept
    | with_reducible refine ite_kept (fun _ => ?_) (fun _ => ?_)
    | split

theorem execPowerFailWarning_kept (cause : Fin 8) (s : State) (hK₀ : Kept B s) :
    OutKept B (execPowerFailWarning cause s) := by
  unfold execPowerFailWarning
  try dsimp only
  repeat' first
    | with_reducible assumption
    | with_reducible apply next_kept
    | with_reducible apply powerFailWarning_kept
    | with_reducible refine ite_kept (fun _ => ?_) (fun _ => ?_)

theorem stage_kept {s : State} (x : StageState) (h : Kept B s) : Kept B { s with stage := x } := h

theorem execStageStop_kept (s : State) (hK₀ : Kept B s) :
    OutKept B (execStageStop s) := by
  unfold execStageStop
  try dsimp only
  repeat' first
    | with_reducible assumption
    | with_reducible apply powerOn_kept
    | with_reducible apply next_kept
    | with_reducible apply stage_kept
    | with_reducible refine ite_kept (fun _ => ?_) (fun _ => ?_)
    | split

theorem clearWarning_kept (s : State) (hK₀ : Kept B s) :
    Kept B (clearWarning s) := by
  unfold clearWarning
  try dsimp only
  repeat' first
    | with_reducible assumption
    | with_reducible apply clearFlag_kept

theorem execInputReturn_kept (s : State) (hK₀ : Kept B s) :
    OutKept B (execInputReturn s) := by
  unfold execInputReturn
  try dsimp only
  repeat' first
    | with_reducible assumption
    | with_reducible apply next_kept
    | with_reducible apply clearWarning_kept
    | intro _ _ _
    | intro _ _
    | with_reducible refine ite_kept (fun _ => ?_) (fun _ => ?_)
    | split

theorem execFlushComplete_kept (s : State) (hK₀ : Kept B s) :
    OutKept B (execFlushComplete s) := by
  unfold execFlushComplete
  try dsimp only
  repeat' first
    | with_reducible assumption
    | with_reducible apply next_kept
    | intro _ _ _
    | intro _ _
    | with_reducible refine ite_kept (fun _ => ?_) (fun _ => ?_)
    | split

theorem execPowerFailAreaErase_kept (s : State) (hK₀ : Kept B s) :
    OutKept B (execPowerFailAreaErase s) := by
  unfold execPowerFailAreaErase
  try dsimp only
  repeat' first
    | with_reducible assumption
    | with_reducible apply next_kept
    | with_reducible refine ite_kept (fun _ => ?_) (fun _ => ?_)
    | split

theorem execLogSave_kept (s : State) (hK₀ : Kept B s) :
    OutKept B (execLogSave s) := by
  unfold execLogSave
  try dsimp only
  repeat' first
    | with_reducible assumption
    | with_reducible apply next_kept
    | with_reducible refine ite_kept (fun _ => ?_) (fun _ => ?_)
    | split

theorem execPhaseFault_kept (i : Fin 7) (s : State) (hK₀ : Kept B s) :
    OutKept B (execPhaseFault i s) := by
  unfold execPhaseFault
  try dsimp only
  repeat' first
    | with_reducible assumption
    | with_reducible apply next_kept
    | with_reducible apply regPut_kept
    | with_reducible apply bump_kept
    | with_reducible apply setFlag_kept
    | with_reducible apply raiseEmcyWith_kept
    | with_reducible apply dropSwitch_kept
    | with_reducible apply powerFault_kept
    | with_reducible apply powerFailWarning_kept
    | with_reducible refine ite_kept (fun _ => ?_) (fun _ => ?_)
    | split

theorem clampBegins_kept (s : State) (hK₀ : Kept B s) : Kept B (clampBegins s) := by
  unfold clampBegins
  try dsimp only
  repeat' first
    | with_reducible assumption
    | with_reducible apply bump_kept
    | with_reducible apply setFlag_kept
    | with_reducible apply raiseEmcy_kept
    | with_reducible apply powerFault_kept

theorem execCurrentClamp_kept (s : State) (hK₀ : Kept B s) :
    OutKept B (execCurrentClamp s) := by
  unfold execCurrentClamp
  try dsimp only
  repeat' first
    | with_reducible assumption
    | with_reducible apply next_kept
    | with_reducible apply powerFailWarning_kept
    | with_reducible apply clampBegins_kept
    | with_reducible refine ite_kept (fun _ => ?_) (fun _ => ?_)
    | split

theorem telemetryLost_kept (s : State) (hK₀ : Kept B s) :
    Kept B (telemetryLost s) := by
  unfold telemetryLost
  try dsimp only
  repeat' first
    | with_reducible assumption
    | with_reducible apply raiseEmcyWith_kept
    | with_reducible apply setFlag_kept
    | with_reducible apply powerFault_kept
    | with_reducible apply warnActions_kept
    | with_reducible refine ite_kept (fun _ => ?_) (fun _ => ?_)
    | split

theorem telemetryApply_kept (s : State) (f : TelemetryFrame) (hK₀ : Kept B s) :
    Kept B (telemetryApply s f) := by
  unfold telemetryApply
  try dsimp only
  repeat' first
    | with_reducible assumption
    | with_reducible apply putFlag_kept
    | with_reducible apply regPut_kept
    | with_reducible apply setFlag_kept
    | with_reducible apply clampBegins_kept
    | with_reducible refine ite_kept (fun _ => ?_) (fun _ => ?_)
    | split

theorem execTelemetryFrameRx_kept (f : TelemetryFrame) (s : State) (hK₀ : Kept B s) :
    OutKept B (execTelemetryFrameRx f s) := by
  unfold execTelemetryFrameRx
  try dsimp only
  repeat' first
    | with_reducible assumption
    | with_reducible apply next_kept
    | with_reducible apply telemetryApply_kept
    | with_reducible apply warnActions_kept
    | with_reducible apply clearWarning_kept
    | with_reducible apply telemetryLost_kept
    | with_reducible refine ite_kept (fun _ => ?_) (fun _ => ?_)
    | split

theorem execTelemetryLost_kept (s : State) (hK₀ : Kept B s) :
    OutKept B (execTelemetryLost s) := by
  unfold execTelemetryLost
  try dsimp only
  repeat' first
    | with_reducible assumption
    | with_reducible apply next_kept
    | with_reducible apply telemetryLost_kept

theorem planDie_kept (s : State) (m : PlanMeasure) (die : DieId) (hK₀ : Kept B s) :
    Kept B (planDie s m die) := by
  unfold planDie
  try dsimp only
  repeat' first
    | with_reducible assumption
    | with_reducible apply regPut_kept
    | with_reducible apply bumpBy_kept
    | with_reducible apply setFlag_kept
    | with_reducible apply raiseEmcy_kept
    | intro _ _ _
    | intro _ _
    | with_reducible refine ite_kept (fun _ => ?_) (fun _ => ?_)

theorem planSummary_kept (s : State) (h : Kept B s) : Kept B (planSummary s) := by
  unfold planSummary
  exact regPut_kept _ _ _ (regPut_kept _ _ _ (regPut_kept _ _ _ h))

theorem storeLanes_kept (s : State) (u : UnitId) (net : BitVec 16) (hK₀ : Kept B s) :
    Kept B (storeLanes s u net) := by
  unfold storeLanes
  try dsimp only
  repeat' first
    | with_reducible assumption

theorem storeTraining_kept (s : State) (u : UnitId) (hK₀ : Kept B s) :
    Kept B (storeTraining s u) := by
  unfold storeTraining
  try dsimp only
  repeat' first
    | with_reducible assumption

theorem planUnit_kept (s : State) (m : PlanMeasure) (u : UnitId) (hK₀ : Kept B s) :
    Kept B (planUnit s m u) := by
  unfold planUnit
  try dsimp only
  repeat' first
    | with_reducible assumption
    | with_reducible apply storeTraining_kept
    | with_reducible apply storeLanes_kept
    | with_reducible apply setFlag_kept
    | with_reducible refine ite_kept (fun _ => ?_) (fun _ => ?_)

theorem runPlan_kept (s : State) (m : PlanMeasure) (h : Kept B s) : Kept B (runPlan s m) := by
  unfold runPlan
  extract_lets t0 t2
  have h0 : Kept B t0 := planDie_kept _ _ _ (planDie_kept _ _ _ (planDie_kept _ _ _ h))
  exact planner_kept _ (clearFlag_kept _ _ _ (clearFlag_kept _ _ _ (planSummary_kept _ (planUnit_kept _ _ _ (planUnit_kept _ _ _ h0)))))

theorem execPlannerRun_kept (m : PlanMeasure) (s : State) (h : Kept B s) : OutKept B (execPlannerRun m s) := by
  unfold execPlannerRun
  split
  · exact next_kept h
  · split
    · exact next_kept (runPlan_kept _ _ h)
    · split
      · rename_i die _
        refine next_kept (planSummary_kept _ ?_)
        have h1 := planDie_kept s m die h
        cases dieUnit die with
        | none => exact h1
        | some u => exact planUnit_kept _ _ _ h1
      · exact next_kept h

theorem execPlanNow_kept (k : Client) (m : PlanMeasure) (s : State) (h : Kept B s) : OutKept B (execPlanNow k m s) :=
  next_kept (serveWrite_kept _ _ _ _ (fun _ hx => ok_kept (runPlan_kept _ _ hx)) h)

theorem execVoltageStep_kept (die : DieId) (s : State) (hK₀ : Kept B s) :
    OutKept B (execVoltageStep die s) := by
  unfold execVoltageStep
  try dsimp only
  repeat' first
    | with_reducible assumption
    | with_reducible apply next_kept
    | intro _ _ _
    | intro _ _
    | with_reducible refine ite_kept (fun _ => ?_) (fun _ => ?_)
    | split

theorem execWornDutyEnd_kept (die : DieId) (s : State) (hK₀ : Kept B s) :
    OutKept B (execWornDutyEnd die s) := by
  unfold execWornDutyEnd
  try dsimp only
  repeat' first
    | with_reducible assumption
    | with_reducible apply next_kept
    | intro _ _ _
    | intro _ _
    | with_reducible refine ite_kept (fun _ => ?_) (fun _ => ?_)
    | split

/-! ## Schedule -/

theorem planTick_kept (s : State) (j : Nat) (hK₀ : Kept B s) :
    Kept B (planTick s j) := by
  unfold planTick
  try dsimp only
  repeat' first
    | with_reducible assumption

theorem openLap_kept (s : State) (start : Nat) (hK₀ : Kept B s) :
    Kept B (openLap s start) := by
  unfold openLap
  try dsimp only
  repeat' first
    | with_reducible assumption
    | with_reducible apply planTick_kept
    | with_reducible apply regPut_kept

theorem idleLap_kept (s : State) (limit : Nat) (hK₀ : Kept B s) :
    Kept B (idleLap s limit) := by
  unfold idleLap
  try dsimp only
  repeat' first
    | with_reducible assumption

theorem advanceLap_kept (s : State) (hK₀ : Kept B s) :
    Kept B (advanceLap s) := by
  unfold advanceLap
  try dsimp only
  repeat' first
    | with_reducible assumption
    | with_reducible apply idleLap_kept
    | with_reducible apply planTick_kept
    | with_reducible apply openLap_kept
    | with_reducible refine ite_kept (fun _ => ?_) (fun _ => ?_)

theorem lengthen_kept (s : State) (want : Int) (hK₀ : Kept B s) :
    Kept B (lengthen s want) := by
  unfold lengthen
  try dsimp only
  repeat' first
    | with_reducible assumption
    | with_reducible apply planTick_kept
    | with_reducible apply regPut_kept

theorem stepPhase_kept (s : State) (hK₀ : Kept B s) :
    Kept B (stepPhase s) := by
  unfold stepPhase
  try dsimp only
  repeat' first
    | with_reducible assumption
    | with_reducible apply lengthen_kept
    | with_reducible refine ite_kept (fun _ => ?_) (fun _ => ?_)

theorem ringDrop_kept (s : State) (h : Kept B s) : Kept B (ringDrop s) := by
  unfold ringDrop
  split
  · exact h
  · exact capture_kept _ h

theorem dropNow_kept (s : State) (hK₀ : Kept B s) :
    Kept B (dropNow s) := by
  unfold dropNow
  try dsimp only
  repeat' first
    | with_reducible assumption
    | with_reducible apply ringDrop_kept
    | with_reducible apply countDrop_kept
    | with_reducible apply modStream_kept
    | with_reducible refine forEach_kept _ _ _ (fun _ _ _ => ?_) ?_

theorem dropAfter_kept (s : State) (hK₀ : Kept B s) :
    Kept B (dropAfter s) := by
  unfold dropAfter
  try dsimp only
  repeat' first
    | with_reducible assumption
    | with_reducible apply countDrop_kept

theorem shiftNext_kept (s : State) (hK₀ : Kept B s) :
    Kept B (shiftNext s) := by
  unfold shiftNext
  try dsimp only
  repeat' first
    | with_reducible assumption
    | with_reducible apply lengthen_kept
    | with_reducible refine ite_kept (fun _ => ?_) (fun _ => ?_)

theorem dropRules_kept (s : State) (lap : Nat) (hK₀ : Kept B s) :
    Kept B (dropRules s lap) := by
  unfold dropRules
  try dsimp only
  repeat' first
    | with_reducible assumption
    | with_reducible apply shiftNext_kept
    | with_reducible apply dropNow_kept
    | with_reducible apply dropAfter_kept
    | with_reducible refine ite_kept (fun _ => ?_) (fun _ => ?_)

theorem restPull_kept (s : State) (hK₀ : Kept B s) :
    Kept B (restPull s) := by
  unfold restPull
  try dsimp only
  repeat' first
    | with_reducible assumption
    | with_reducible apply putFlag_kept
    | with_reducible apply putSigned_kept
    | with_reducible refine ite_kept (fun _ => ?_) (fun _ => ?_)

theorem phaseTick_kept (s : State) (tick0 lap : Nat) (hK₀ : Kept B s) :
    Kept B (phaseTick s tick0 lap) := by
  unfold phaseTick
  try dsimp only
  repeat' first
    | with_reducible assumption
    | with_reducible apply restPull_kept
    | with_reducible apply measurePhase_kept
    | with_reducible apply planTick_kept
    | with_reducible apply stepPhase_kept
    | with_reducible apply dropRules_kept
    | with_reducible apply updatePull_kept
    | with_reducible refine ite_kept (fun _ => ?_) (fun _ => ?_)

theorem closeDropped_kept (s : State) (u : UnitId) (q k : Nat) (hK₀ : Kept B s) :
    Kept B (closeDropped s u q k) := by
  unfold closeDropped
  try dsimp only
  repeat' first
    | with_reducible assumption

theorem scaleStripe_kept (s : State) (u : UnitId) (k : Nat) (hK₀ : Kept B s) :
    Kept B (scaleStripe s u k) := by
  unfold scaleStripe
  try dsimp only
  repeat' first
    | with_reducible assumption
    | with_reducible apply modStream_kept
    | with_reducible refine forEach_kept _ _ _ (fun _ _ _ => ?_) ?_

theorem closeStripe_kept (s : State) (q k : Nat) (dropped : Bool) (hK₀ : Kept B s) :
    Kept B (closeStripe s q k dropped) := by
  unfold closeStripe
  try dsimp only
  repeat' first
    | with_reducible assumption
    | with_reducible apply closeDropped_kept
    | with_reducible apply closeWindowOf_kept
    | with_reducible apply none_kept
    | with_reducible apply some_kept
    | with_reducible apply ringStripe_kept
    | with_reducible apply scaleStripe_kept
    | with_reducible apply ringFinish_kept
    | with_reducible refine ite_kept (fun _ => ?_) (fun _ => ?_)
    | split

theorem turnInput_kept (s : State) (u : UnitId) (closed : Option (Nat × Nat)) (hK₀ : Kept B s) :
    Kept B (turnInput s u closed) := by
  unfold turnInput
  try dsimp only
  repeat' first
    | with_reducible assumption

theorem windowTick_kept (s : State) (lastLap : Option Nat) (hK₀ : Kept B s) :
    Kept B (windowTick s lastLap) := by
  unfold windowTick
  try dsimp only
  repeat' first
    | with_reducible assumption
    | with_reducible apply some_kept
    | with_reducible apply closeStripe_kept
    | with_reducible apply none_kept
    | with_reducible apply turnInput_kept
    | with_reducible apply ringOpen_kept
    | with_reducible apply openPictureInput_kept
    | with_reducible refine ite_kept (fun _ => ?_) (fun _ => ?_)
    | split

theorem recentreTick_kept (s : State) (hK₀ : Kept B s) :
    Kept B (recentreTick s) := by
  unfold recentreTick
  try dsimp only
  repeat' first
    | with_reducible assumption
    | with_reducible apply recentreStep_kept
    | with_reducible refine ite_kept (fun _ => ?_) (fun _ => ?_)
    | split

/-! ## The budget step, the operand deadline and the drain's test -/

theorem drainTimeout_kept (s : State) (hK₀ : Kept B s) :
    Kept B (drainTimeout s) := by
  unfold drainTimeout
  try dsimp only
  repeat' first
    | with_reducible assumption
    | with_reducible apply raiseEmcy_kept
    | with_reducible apply setFlag_kept
    | with_reducible apply dropSwitch_kept

theorem enterWarming_kept (s : State) (u : UnitId) (hK₀ : Kept B s) :
    Kept B (enterWarming s u) := by
  unfold enterWarming
  try dsimp only
  repeat' first
    | with_reducible assumption
    | with_reducible apply handoverDram_kept

theorem drainCheck_kept (s : State) (hK₀ : Kept B s) :
    Kept B (drainCheck s) := by
  unfold drainCheck
  try dsimp only
  repeat' first
    | with_reducible assumption
    | with_reducible apply enterWarming_kept
    | with_reducible apply drainTimeout_kept
    | with_reducible refine ite_kept (fun _ => ?_) (fun _ => ?_)
    | split

theorem endBudgetTask_kept (s : State) (n : StreamId) (hK₀ : Kept B s) :
    Kept B (endBudgetTask s n) := by
  unfold endBudgetTask
  try dsimp only
  repeat' first
    | with_reducible assumption
    | with_reducible refine ite_kept (fun _ => ?_) (fun _ => ?_)

theorem noteLagging_kept (s : State) (n : StreamId) (hK₀ : Kept B s) :
    Kept B (noteLagging s n) := by
  unfold noteLagging
  try dsimp only
  repeat' first
    | with_reducible assumption
    | with_reducible apply putFlag_kept

theorem execBudgetStep_kept (n : StreamId) (s : State) (hK₀ : Kept B s) :
    OutKept B (execBudgetStep n s) := by
  unfold execBudgetStep
  try dsimp only
  repeat' first
    | with_reducible assumption
    | with_reducible apply noteLagging_kept
    | with_reducible apply endBudgetTask_kept
    | with_reducible apply next_kept
    | with_reducible apply putFlag_kept
    | with_reducible apply takeGrant_kept
    | with_reducible apply drainCheck_kept
    | with_reducible refine ite_kept (fun _ => ?_) (fun _ => ?_)
    | split

theorem lateBudget_kept (s : State) (n : StreamId) (hK₀ : Kept B s) :
    Kept B (lateBudget s n) := by
  unfold lateBudget
  try dsimp only
  repeat' first
    | with_reducible assumption
    | with_reducible apply takeGrant_kept
    | with_reducible apply setFlag_kept
    | with_reducible refine ite_kept (fun _ => ?_) (fun _ => ?_)
    | split

theorem fireAll_kept (s : State) (c : Chan) (hK₀ : Kept B s) :
    Kept B (fireAll s c) := by
  unfold fireAll
  try dsimp only
  repeat' first
    | with_reducible assumption
    | with_reducible apply forEach_kept
    | with_reducible apply fireJob_kept
    | with_reducible apply setFlag_kept
    | intro _ _ _
    | intro _ _
    | with_reducible refine ite_kept (fun _ => ?_) (fun _ => ?_)

theorem execOperandDeadline_kept (s : State) (hK₀ : Kept B s) :
    OutKept B (execOperandDeadline s) := by
  unfold execOperandDeadline
  try dsimp only
  repeat' first
    | with_reducible assumption
    | with_reducible apply next_kept
    | with_reducible apply forEach_kept
    | with_reducible apply drainCheck_kept
    | with_reducible apply lateBudget_kept
    | with_reducible apply fireAll_kept
    | intro _ _ _
    | intro _ _
    | with_reducible refine ite_kept (fun _ => ?_) (fun _ => ?_)
    | split

/-! ## RelayTick -/

theorem activateTick_kept (s : State) (hK₀ : Kept B s) :
    Kept B (activateTick s) := by
  unfold activateTick
  try dsimp only
  repeat' first
    | with_reducible assumption
    | with_reducible apply homeLateAct_kept
    | with_reducible apply activate_kept
    | with_reducible refine ite_kept (fun _ => ?_) (fun _ => ?_)
    | split

theorem settleRelay_kept (s : State) (ready : Bool) (hK₀ : Kept B s) :
    Kept B (settleRelay s ready) := by
  unfold settleRelay
  try dsimp only
  repeat' first
    | with_reducible assumption
    | with_reducible apply startHoldOff_kept
    | intro _ _ _
    | intro _ _
    | with_reducible refine ite_kept (fun _ => ?_) (fun _ => ?_)
    | split

theorem readinessTick_kept (s : State) (hK₀ : Kept B s) :
    Kept B (readinessTick s) := by
  unfold readinessTick
  try dsimp only
  repeat' first
    | with_reducible assumption
    | with_reducible apply regPut_kept
    | with_reducible apply settleRelay_kept
    | with_reducible apply putFlag_kept
    | with_reducible refine ite_kept (fun _ => ?_) (fun _ => ?_)
    | split

theorem noteStandIn_kept (s : State) (u : UnitId) (hK₀ : Kept B s) :
    Kept B (noteStandIn s u) := by
  unfold noteStandIn
  try dsimp only
  repeat' first
    | with_reducible assumption
    | with_reducible apply bump_kept
    | with_reducible apply some_kept
    | with_reducible apply reportUnitFault_kept
    | with_reducible refine ite_kept (fun _ => ?_) (fun _ => ?_)

theorem buildOne_kept (u : UnitId) (a : State × List (StreamId × Stripe)) (n : StreamId) (h : Kept B a.1) :
    Kept B (buildOne u a n).1 := by
  unfold buildOne
  split
  · exact standIn_kept a.1 u n _ h
  · exact h

theorem standIns_kept {s : State} (x : Pair StandIns) (h : Kept B s) : Kept B { s with standIns := x } := h

theorem checkStandIns_kept (s : State) (l : List StandInCheck) (hK₀ : Kept B s) :
    Kept B (checkStandIns s l) := by
  unfold checkStandIns
  try dsimp only
  repeat' first
    | with_reducible assumption
    | with_reducible apply noteStandIn_kept
    | with_reducible refine forEach_kept _ _ _ (fun _ _ _ => ?_) ?_

theorem buildStandIns_kept (s : State) (l : List StandInCheck) (h : Kept B s) : Kept B (buildStandIns s l) := by
  unfold buildStandIns
  have h1 := checkStandIns_kept s l h
  dsimp only
  split
  · exact h1
  · exact ite_kept (fun _ => standIns_kept _ (foldlPair_kept _ (fun a n ha => buildOne_kept _ a n ha) _ _ h1)) (fun _ => h1)

theorem beginDrain_kept (s : State) (hK₀ : Kept B s) :
    Kept B (beginDrain s) := by
  unfold beginDrain
  try dsimp only
  repeat' first
    | with_reducible assumption
    | with_reducible apply drainTimeout_kept
    | with_reducible refine ite_kept (fun _ => ?_) (fun _ => ?_)
    | split

theorem plannedTick_kept (s : State) (hK₀ : Kept B s) :
    Kept B (plannedTick s) := by
  unfold plannedTick
  try dsimp only
  repeat' first
    | with_reducible assumption
    | with_reducible apply beginDrain_kept
    | with_reducible refine ite_kept (fun _ => ?_) (fun _ => ?_)

theorem warmPicture_kept (s : State) (n : StreamId) (hK₀ : Kept B s) :
    Kept B (warmPicture s n) := by
  unfold warmPicture
  try dsimp only
  repeat' first
    | with_reducible assumption
    | with_reducible apply putFlag_kept
    | with_reducible apply modStream_kept
    | intro _ _ _
    | intro _ _
    | with_reducible refine ite_kept (fun _ => ?_) (fun _ => ?_)

theorem beginWarming_kept (s : State) (u : UnitId) (hK₀ : Kept B s) :
    Kept B (beginWarming s u) := by
  unfold beginWarming
  try dsimp only
  repeat' first
    | with_reducible assumption
    | with_reducible apply freshChannels_kept
    | with_reducible apply forEach_kept
    | with_reducible apply warmPicture_kept
    | with_reducible apply takeStream_kept
    | intro _ _ _

theorem warmTick_kept (s : State) (hK₀ : Kept B s) :
    Kept B (warmTick s) := by
  unfold warmTick
  try dsimp only
  repeat' first
    | with_reducible assumption
    | with_reducible apply beginWarming_kept
    | with_reducible refine ite_kept (fun _ => ?_) (fun _ => ?_)
    | split

theorem missedSwitch_kept (s : State) (hK₀ : Kept B s) :
    Kept B (missedSwitch s) := by
  unfold missedSwitch
  try dsimp only
  repeat' first
    | with_reducible assumption
    | with_reducible apply dropSwitch_kept
    | with_reducible refine ite_kept (fun _ => ?_) (fun _ => ?_)
    | split

theorem settleStripes_kept (s : State) (hK₀ : Kept B s) :
    Kept B (settleStripes s) := by
  unfold settleStripes
  try dsimp only
  repeat' first
    | with_reducible assumption
    | intro _ _ _
    | intro _ _
    | with_reducible refine ite_kept (fun _ => ?_) (fun _ => ?_)
    | split

theorem railTick_kept (s : State) (hK₀ : Kept B s) :
    Kept B (railTick s) := by
  unfold railTick
  try dsimp only
  repeat' first
    | with_reducible assumption
    | with_reducible apply unitCold_kept
    | with_reducible apply dropSwitch_kept
    | with_reducible apply raiseEmcy_kept
    | with_reducible apply setFlag_kept
    | with_reducible apply clearFlag_kept
    | intro _ _ _
    | intro _ _
    | with_reducible refine ite_kept (fun _ => ?_) (fun _ => ?_)
    | split

/-! ## Lap -/

theorem notePps_kept (s : State) (keys : List (Nat × Nat)) (hK₀ : Kept B s) :
    Kept B (notePps s keys) := by
  unfold notePps
  try dsimp only
  repeat' first
    | with_reducible assumption
    | with_reducible apply forEach_kept
    | with_reducible apply modStream_kept
    | intro _ _ _

theorem emptyRebound_kept (s : State) (keys : List Nat) (hK₀ : Kept B s) :
    Kept B (emptyRebound s keys) := by
  unfold emptyRebound
  try dsimp only
  repeat' first
    | with_reducible assumption

theorem shadowTick_kept (s : State) (hK₀ : Kept B s) :
    Kept B (shadowTick s) := by
  unfold shadowTick
  try dsimp only
  repeat' first
    | with_reducible assumption
    | with_reducible apply notePps_kept
    | with_reducible apply shadowApply_kept
    | with_reducible apply applyFlows_kept
    | with_reducible apply emptyRebound_kept
    | with_reducible apply openRects_kept
    | with_reducible apply openPictures_kept
    | intro _ _ _
    | intro _ _
    | with_reducible refine ite_kept (fun _ => ?_) (fun _ => ?_)

theorem streams_kept {s : State} (x : Vector Stream 16) (h : Kept B s) : Kept B { s with streams := x } := h

theorem releaseTick_kept (s : State) (h : Kept B s) : Kept B (releaseTick s) := by
  unfold releaseTick
  with_reducible refine forEach_kept _ _ _ (fun _ _ hx => noteLagging_kept _ _ (retireStripes_kept _ _ hx)) ?_
  with_reducible refine streams_kept _ ?_
  with_reducible exact releaseDue_kept _ _ (vouchDue_kept _ (releaseDue_kept _ _ h))

theorem postStandIn_kept (s : State) (n : StreamId) (pic : PictureState) (r k : Nat) (u : UnitId) (h : Kept B s) :
    Kept B (postStandIn s n pic r k u) := by
  unfold postStandIn
  dsimp only
  generalize hx : standIn s u n _ = x
  have h1 : Kept B x.1 := hx ▸ standIn_kept _ _ _ _ h
  have h2 := modStream_kept _ n (fun y => { y with flight := y.flight ++ [x.2] }) (noteHanded_kept _ n x.2 h1)
  exact putField_kept _ _ _ _ _ (reserveIn_kept _ _ _ _ (ite_kept (fun _ => countPicture_kept _ _ _ _ h2) (fun _ => h2)))

theorem postStripe_kept (s : State) (k : Nat) (n : StreamId) (pic : PictureState) (hK₀ : Kept B s) :
    Kept B (postStripe s k n pic) := by
  unfold postStripe
  try dsimp only
  repeat' first
    | with_reducible assumption
    | with_reducible apply postStandIn_kept
    | with_reducible apply postPixels_kept
    | with_reducible refine ite_kept (fun _ => ?_) (fun _ => ?_)
    | split

theorem postStripes_kept (s : State) (k : Nat) (pics : List (StreamId × PictureState)) (hK₀ : Kept B s) :
    Kept B (postStripes s k pics) := by
  unfold postStripes
  try dsimp only
  repeat' first
    | with_reducible assumption
    | with_reducible apply forEach_kept
    | with_reducible apply postStripe_kept
    | intro _ _ _

theorem requestRows_kept (s : State) (n : StreamId) (hK₀ : Kept B s) :
    Kept B (requestRows s n) := by
  unfold requestRows
  try dsimp only
  repeat' first
    | with_reducible assumption
    | with_reducible apply modStream_kept

theorem ladderStep_kept (s : State) (c : Chan) (hK₀ : Kept B s) :
    Kept B (ladderStep s c) := by
  unfold ladderStep
  try dsimp only
  repeat' first
    | with_reducible assumption
    | with_reducible apply modChan_kept
    | with_reducible apply putField_kept

theorem restoreVerify_kept (s : State) (hK₀ : Kept B s) :
    Kept B (restoreVerify s) := by
  unfold restoreVerify
  try dsimp only
  repeat' first
    | with_reducible assumption
    | with_reducible apply forEach_kept
    | with_reducible apply modChan_kept
    | with_reducible apply commitValue_kept
    | intro _ _ _
    | intro _ _
    | with_reducible refine ite_kept (fun _ => ?_) (fun _ => ?_)

theorem endTick_kept (s : State) (hK₀ : Kept B s) :
    Kept B (endTick s) := by
  unfold endTick
  try dsimp only
  repeat' first
    | with_reducible assumption
    | with_reducible apply settleRegister_kept

theorem noteEyes_kept (s : State) (l : List (UnitId × LaneId × Nat)) (hK₀ : Kept B s) :
    Kept B (noteEyes s l) := by
  unfold noteEyes
  try dsimp only
  repeat' first
    | with_reducible assumption
    | with_reducible apply setLane_kept
    | with_reducible refine forEach_kept _ _ _ (fun _ _ _ => ?_) ?_

theorem bumpFec_kept (s : State) (p : PortId) (f : FecCount) (hK₀ : Kept B s) :
    Kept B (bumpFec s p f) := by
  unfold bumpFec
  try dsimp only
  repeat' first
    | with_reducible assumption
    | with_reducible apply regPut_kept
    | with_reducible apply overflowEnter_kept
    | with_reducible apply setFlag_kept
    | with_reducible refine ite_kept (fun _ => ?_) (fun _ => ?_)

theorem addFec_kept (s : State) (l : List (PortId × FecCount)) (hK₀ : Kept B s) :
    Kept B (addFec s l) := by
  unfold addFec
  try dsimp only
  repeat' first
    | with_reducible assumption
    | with_reducible apply bumpFec_kept
    | with_reducible refine forEach_kept _ _ _ (fun _ _ _ => ?_) ?_

theorem tickBegin_kept (s : State) (i : TickInput) (hK₀ : Kept B s) :
    Kept B (tickBegin s i) := by
  unfold tickBegin
  try dsimp only
  repeat' first
    | with_reducible assumption
    | with_reducible apply noteEyes_kept
    | with_reducible apply addFec_kept
    | with_reducible apply addUnitCounts_kept
    | with_reducible apply checkStandIns_kept
    | with_reducible apply noteStandIn_kept
    | with_reducible apply voterCheck_kept
    | with_reducible apply advanceLap_kept
    | with_reducible apply handOver_kept
    | with_reducible apply hurdleCheck_kept
    | with_reducible apply compareLanes_kept
    | with_reducible apply tickSamples_kept
    | with_reducible refine ite_kept (fun _ => ?_) (fun _ => ?_)

theorem flagTick_kept (s : State) (hK₀ : Kept B s) :
    Kept B (flagTick s) := by
  unfold flagTick
  try dsimp only
  repeat' first
    | with_reducible assumption
    | with_reducible apply expireTimers_kept
    | with_reducible apply some_kept
    | with_reducible apply setTickFlags_kept
    | with_reducible apply none_kept
    | with_reducible refine ite_kept (fun _ => ?_) (fun _ => ?_)
    | split

theorem tickMiddle_kept (s : State) (hK₀ : Kept B s) :
    Kept B (tickMiddle s) := by
  unfold tickMiddle
  try dsimp only
  repeat' first
    | with_reducible assumption
    | with_reducible apply releaseTick_kept
    | with_reducible apply settleStripes_kept
    | with_reducible apply missedSwitch_kept
    | with_reducible apply warmTick_kept
    | with_reducible apply plannedTick_kept
    | with_reducible apply flagTick_kept
    | with_reducible apply writeBaton_kept
    | with_reducible apply shadowTick_kept

theorem showCoders_kept (s : State) (c : Chan) (hK₀ : Kept B s) :
    Kept B (showCoders s c) := by
  unfold showCoders
  try dsimp only
  repeat' first
    | with_reducible assumption
    | with_reducible apply modChan_kept
    | with_reducible apply regPut_kept
    | with_reducible refine ite_kept (fun _ => ?_) (fun _ => ?_)

theorem readyPacers_kept (s : State) (hK₀ : Kept B s) :
    Kept B (readyPacers s) := by
  unfold readyPacers
  try dsimp only
  repeat' first
    | with_reducible assumption
    | with_reducible apply some_kept
    | with_reducible apply setTaskFlag_kept
    | with_reducible apply none_kept
    | with_reducible refine forEach_kept _ _ _ (fun _ _ _ => ?_) ?_
    | with_reducible refine ite_kept (fun _ => ?_) (fun _ => ?_)
    | split

theorem alignPcs_kept (s : State) (hK₀ : Kept B s) :
    Kept B (alignPcs s) := by
  unfold alignPcs
  try dsimp only
  repeat' first
    | with_reducible assumption

theorem tickEnd_kept (s : State) (checks : List StandInCheck) (stripe : Option Nat) (old : List (StreamId × PictureState)) (hK₀ : Kept B s) :
    Kept B (tickEnd s checks stripe old) := by
  unfold tickEnd
  try dsimp only
  repeat' first
    | with_reducible assumption
    | with_reducible apply windowTick_kept
    | with_reducible apply modStream_kept
    | with_reducible apply some_kept
    | with_reducible apply postStripes_kept
    | with_reducible apply none_kept
    | with_reducible apply ladderStep_kept
    | with_reducible apply requestRows_kept
    | with_reducible apply drainCheck_kept
    | with_reducible apply readyPacers_kept
    | with_reducible apply showCoders_kept
    | with_reducible apply endTick_kept
    | with_reducible apply restoreVerify_kept
    | with_reducible apply activateTick_kept
    | with_reducible apply railTick_kept
    | with_reducible apply buildStandIns_kept
    | with_reducible apply readinessTick_kept
    | with_reducible apply alignPcs_kept
    | with_reducible apply recentreTick_kept
    | with_reducible refine forEach_kept _ _ _ (fun _ _ _ => ?_) ?_
    | with_reducible refine ite_kept (fun _ => ?_) (fun _ => ?_)
    | split

theorem lapTick_kept (s : State) (i : TickInput) (hK₀ : Kept B s) :
    Kept B (lapTick s i) := by
  unfold lapTick
  try dsimp only
  repeat' first
    | with_reducible assumption
    | with_reducible apply phaseTick_kept
    | with_reducible apply tickBegin_kept
    | with_reducible apply tickEnd_kept
    | with_reducible apply tickMiddle_kept

theorem execLapTick_kept (i : TickInput) (s : State) (hK₀ : Kept B s) :
    OutKept B (execLapTick i s) := by
  unfold execLapTick
  try dsimp only
  repeat' first
    | with_reducible assumption
    | with_reducible apply next_kept
    | with_reducible apply lapTick_kept
    | with_reducible refine ite_kept (fun _ => ?_) (fun _ => ?_)
    | split

end Sys2Proof.Machine
end

