-- ==== Sys2Proof/Laws/KeptRoutes.lean ====
section
/-! SUPPORT. What every operation and every command keeps, part by part: the routes to the dictionary, integrity, windows, and the idle cycle. -/

namespace Sys2Proof.Machine

variable {B : Base}

/-! ## Clients -/

theorem sendReply_kept (s : State) (k : Client) (r : Datagram) (hK₀ : Kept B s) :
    Kept B (sendReply s k r) := by
  unfold sendReply
  try dsimp only
  repeat' first
    | with_reducible assumption
    | with_reducible apply endpointSend_kept

theorem replyAnswer_kept (s : State) (k : Client) (d : Datagram) (final : Bool) (a : Answer) (hK₀ : Kept B s) :
    Kept B (replyAnswer s k d final a) := by
  unfold replyAnswer
  try dsimp only
  repeat' first
    | with_reducible assumption
    | with_reducible apply sendReply_kept
    | with_reducible refine ite_kept (fun _ => ?_) (fun _ => ?_)
    | split

theorem holdClient_kept (s : State) (k : Client) (hK₀ : Kept B s) :
    Kept B (holdClient s k) := by
  unfold holdClient
  try dsimp only
  repeat' first
    | with_reducible assumption

theorem completeClient_kept (s : State) (k : Client) (a : Answer) (hK₀ : Kept B s) :
    Kept B (completeClient s k a) := by
  unfold completeClient
  try dsimp only
  repeat' first
    | with_reducible assumption
    | with_reducible apply answer_kept
    | with_reducible apply replyAnswer_kept
    | intro _ _ _
    | intro _ _
    | with_reducible refine ite_kept (fun _ => ?_) (fun _ => ?_)
    | split

theorem endWrite_kept (s : State) (k : Client) (e : WriteEnd) (hK₀ : Kept B s) :
    Kept B (endWrite s k e) := by
  unfold endWrite
  try dsimp only
  repeat' first
    | with_reducible assumption
    | with_reducible apply answer_kept
    | with_reducible apply holdClient_kept
    | with_reducible refine ite_kept (fun _ => ?_) (fun _ => ?_)
    | split

theorem serveEnd_kept (s : State) (k : Client) (i : Nat) (f : State → State × WriteEnd)
    (hf : ∀ x, Kept B x → Kept B (f x).1) (h : Kept B s) : Kept B (serveEnd s k i f) := by
  unfold serveEnd
  split
  · split
    · exact answer_kept _ _ _ h
    · exact endWrite_kept _ _ _ (hf _ (touchClient_kept _ _ h))
  · exact h

theorem liftWrite_kept (f : State → Except Abort State) (s : State) (hf : OkKept B (f s)) (h : Kept B s) :
    Kept B (liftWrite f s).1 := by
  unfold liftWrite
  split
  · rename_i e
    exact hf _ e
  · exact h

theorem liftTrace_kept (f : State → State × Option Abort) (s : State) (hf : Kept B (f s).1) :
    Kept B (liftTrace f s).1 := hf

/-! ## Integrity -/

theorem execEngineWatchdogExpiry_kept (u : UnitId) (_e : EngineId) (s : State) (hK₀ : Kept B s) :
    OutKept B (execEngineWatchdogExpiry u _e s) := by
  unfold execEngineWatchdogExpiry
  try dsimp only
  repeat' first
    | with_reducible assumption
    | with_reducible apply next_kept
    | with_reducible apply unitFaultOf_kept

theorem restartRunning_kept (s : State) (hK₀ : Kept B s) :
    Kept B (restartRunning s) := by
  unfold restartRunning
  try dsimp only
  repeat' first
    | with_reducible assumption
    | with_reducible apply restartController_kept
    | with_reducible refine ite_kept (fun _ => ?_) (fun _ => ?_)
    | split

theorem execControllerWatchdogExpiry_kept (s : State) (hK₀ : Kept B s) :
    OutKept B (execControllerWatchdogExpiry s) := by
  unfold execControllerWatchdogExpiry
  try dsimp only
  repeat' first
    | with_reducible assumption
    | with_reducible apply next_kept
    | with_reducible apply restartRunning_kept
    | with_reducible apply raiseEmcy_kept
    | with_reducible apply setFlag_kept

theorem execUnitRailFault_kept (u : UnitId) (_rail : Fin 7) (s : State) (hK₀ : Kept B s) :
    OutKept B (execUnitRailFault u _rail s) := by
  unfold execUnitRailFault
  try dsimp only
  repeat' first
    | with_reducible assumption
    | with_reducible apply next_kept
    | with_reducible apply unitFaultOf_kept

theorem execUnitClockFault_kept (u : UnitId) (s : State) (hK₀ : Kept B s) :
    OutKept B (execUnitClockFault u s) := by
  unfold execUnitClockFault
  try dsimp only
  repeat' first
    | with_reducible assumption
    | with_reducible apply next_kept
    | with_reducible apply unitFaultOf_kept

theorem execMirrorTimeout_kept (u : UnitId) (s : State) (hK₀ : Kept B s) :
    OutKept B (execMirrorTimeout u s) := by
  unfold execMirrorTimeout
  try dsimp only
  repeat' first
    | with_reducible assumption
    | with_reducible apply next_kept
    | with_reducible apply logNote_kept
    | with_reducible apply reportUnitFault_kept

theorem thermalFault_kept (s : State) (n : Nat) (hK₀ : Kept B s) :
    Kept B (thermalFault s n) := by
  unfold thermalFault
  try dsimp only
  repeat' first
    | with_reducible assumption
    | with_reducible apply unitFaultOf_kept
    | with_reducible apply powerFault_kept
    | with_reducible apply raiseEmcy_kept
    | with_reducible apply setFlag_kept
    | with_reducible refine ite_kept (fun _ => ?_) (fun _ => ?_)

theorem showSensors_kept (s : State) (values : Vector Nat 38) (hK₀ : Kept B s) :
    Kept B (showSensors s values) := by
  unfold showSensors
  try dsimp only
  repeat' first
    | with_reducible assumption
    | with_reducible apply forEach_kept
    | with_reducible apply regPut_kept
    | intro _ _ _

theorem railMeasure_kept (s : State) (n : Nat) (hK₀ : Kept B s) :
    Kept B (railMeasure s n) := by
  unfold railMeasure
  try dsimp only
  repeat' first
    | with_reducible assumption
    | with_reducible apply regPut_kept
    | with_reducible apply drawFree_kept
    | with_reducible refine ite_kept (fun _ => ?_) (fun _ => ?_)

theorem sampleMonitors_kept (s : State) (h : Kept B s) : Kept B (sampleMonitors s) := by
  unfold sampleMonitors
  extract_lets t1 t2 t3 t4
  have h1 : Kept B t1 := forEach_kept _ _ _ (fun x n hx => monitorBoth_kept _ _ _ _ hx) h
  clear_value t1
  have h2 : Kept B t2 := forEach_kept _ _ _ (fun x n hx => monitorBoth_kept _ _ _ _ (railMeasure_kept _ _ hx)) h1
  clear_value t2
  have h3 : Kept B t3 :=
    forEach_kept _ _ _ (fun x n hx => monitorSample_kept _ _ _ _ _ (monitorSample_kept _ _ _ _ _ hx)) h2
  clear_value t3
  have h4 : Kept B t4 := forEach_kept _ _ _ (fun x n hx => drawFree_kept _ (monitorBoth_kept _ _ _ _ hx)) h3
  clear_value t4
  exact sensors_kept _ h4

theorem execSensorRead_kept (values : Vector Nat 38) (s : State) (h : Kept B s) :
    OutKept B (execSensorRead values s) := by
  unfold execSensorRead
  extract_lets warn fault crit newFault c0 t t1 t2 t3 t4 t5
  have h0 : Kept B t := showSensors_kept _ _ (sensors_kept _ h)
  clear_value t
  have h1 : Kept B t1 := putFlag_kept _ _ _ _ h0
  clear_value t1
  have h2 : Kept B t2 := ite_kept (fun _ => raiseEmcy_kept _ _ _ _ (setFlag_kept _ _ _ h1)) fun _ => h1
  clear_value t2
  have h3 : Kept B t3 := forEach_kept _ _ _ (fun x n hx => thermalFault_kept _ _ hx) h2
  clear_value t3
  have h4 : Kept B t4 := putFlag_kept _ _ _ _ h3
  clear_value t4
  have h5 : Kept B t5 := ite_kept (fun _ => powerFailWarning_kept _ _ h4) fun _ => h4
  clear_value t5
  exact next_kept (ite_kept (fun _ => sampleMonitors_kept _ h5) fun _ => h5)

theorem cvMismatch_kept (s : State) (owner : Option Nat) (hK₀ : Kept B s) :
    Kept B (cvMismatch s owner) := by
  unfold cvMismatch
  try dsimp only
  repeat' first
    | with_reducible assumption
    | with_reducible apply some_kept
    | with_reducible apply setTaskFlag_kept
    | with_reducible apply none_kept
    | with_reducible refine ite_kept (fun _ => ?_) (fun _ => ?_)
    | split

theorem cvAlive_kept (s : State) (i : CvId) (r : CvRecord) (hK₀ : Kept B s) :
    Kept B (cvAlive s i r) := by
  unfold cvAlive
  try dsimp only
  repeat' first
    | with_reducible assumption
    | with_reducible apply cvGap_kept
    | with_reducible apply setFlag_kept
    | with_reducible apply bump_kept
    | intro _ _ _
    | intro _ _
    | with_reducible refine ite_kept (fun _ => ?_) (fun _ => ?_)
    | split

theorem endRecord_kept (s : State) (i : CvId) (r : CvRecord) (hK₀ : Kept B s) :
    Kept B (endRecord s i r) := by
  unfold endRecord
  try dsimp only
  repeat' first
    | with_reducible assumption
    | with_reducible apply cvEnd_kept
    | with_reducible apply bump_kept
    | with_reducible apply regPut_kept
    | with_reducible apply cvAlive_kept
    | with_reducible apply cvMismatch_kept
    | with_reducible refine ite_kept (fun _ => ?_) (fun _ => ?_)
    | split

theorem execCheckValueRecord_kept (i : CvId) (r : CvRecord) (s : State) (hK₀ : Kept B s) :
    OutKept B (execCheckValueRecord i r s) := by
  unfold execCheckValueRecord
  try dsimp only
  repeat' first
    | with_reducible assumption
    | with_reducible apply next_kept
    | with_reducible apply endRecord_kept

theorem doMonitorClear_kept (m : SlotId) (v : Nat) (s : State) (h : Kept B s) : OkKept B (doMonitorClear m v s) := by
  unfold doMonitorClear
  split
  · exact error_kept
  · exact ok_kept h

theorem execMonitorClear_kept (k : Client) (m : SlotId) (v : Nat) (s : State) (hK₀ : Kept B s) :
    OutKept B (execMonitorClear k m v s) := by
  unfold execMonitorClear
  try dsimp only
  repeat' first
    | with_reducible assumption
    | with_reducible apply next_kept
    | with_reducible apply serveWrite_kept
    | with_reducible apply doMonitorClear_kept

theorem takeSnapshot_kept (s : State) (m : SlotId) (hK₀ : Kept B s) :
    Kept B (takeSnapshot s m) := by
  unfold takeSnapshot
  try dsimp only
  repeat' first
    | with_reducible assumption

theorem execMonitorSnapshot_kept (k : Client) (m : SlotId) (s : State) (hK₀ : Kept B s) :
    OutKept B (execMonitorSnapshot k m s) := by
  unfold execMonitorSnapshot
  try dsimp only
  repeat' first
    | with_reducible assumption
    | with_reducible apply next_kept
    | with_reducible apply takeSnapshot_kept
    | with_reducible apply touchRead_kept
    | with_reducible apply answer_kept
    | with_reducible refine ite_kept (fun _ => ?_) (fun _ => ?_)
    | split

theorem doOverflowEmpty_kept (s : State) (h : Kept B s) : OkKept B (doOverflowEmpty s) :=
  ok_kept (clearFlag_kept _ _ _ (overflow_kept h fun _ => Nat.zero_le _))

theorem execOverflowListEmpty_kept (k : Client) (s : State) (hK₀ : Kept B s) :
    OutKept B (execOverflowListEmpty k s) := by
  unfold execOverflowListEmpty
  try dsimp only
  repeat' first
    | with_reducible assumption
    | with_reducible apply next_kept
    | with_reducible apply serveWrite_kept
    | with_reducible apply doOverflowEmpty_kept

theorem execControllerRestart_kept (s : State) (hK₀ : Kept B s) :
    OutKept B (execControllerRestart s) := by
  unfold execControllerRestart
  try dsimp only
  repeat' first
    | with_reducible assumption
    | with_reducible apply next_kept
    | with_reducible apply restartRunning_kept

theorem execControllerRestartDone_kept (s : State) (h : Kept B s) : OutKept B (execControllerRestartDone s) := by
  unfold execControllerRestartDone
  split
  · dsimp only
    refine next_kept (raiseEmcy_kept _ _ _ _ ?_)
    cases viewUnit s
    · exact dict_kept (s := { s with ctrl := _ }) h h.shadowA h.shadowA h.shadowB h.applied h.inUse
    · exact dict_kept (s := { s with ctrl := _ }) h h.shadowB h.shadowA h.shadowB h.applied h.inUse
  · exact next_kept h

/-! ## Windows -/

theorem modWin_kept (s : State) (w : WinId) (f : Window → Window) (hK₀ : Kept B s) :
    Kept B (modWin s w f) := by
  unfold modWin
  try dsimp only
  repeat' first
    | with_reducible assumption

theorem openedWindow_kept (s : State) (k : Client) (w : WinId) (mode : WinMode) (length : Nat) (content : List Byte) (hK₀ : Kept B s) :
    Kept B (openedWindow s k w mode length content) := by
  unfold openedWindow
  try dsimp only
  repeat' first
    | with_reducible assumption
    | with_reducible apply modWin_kept

theorem refuseOpen_kept (s : State) (w : WinId) (r : Bool × Abort) (hK₀ : Kept B s) :
    Kept B (refuseOpen s w r).1 := by
  unfold refuseOpen
  try dsimp only
  repeat' first
    | with_reducible assumption
    | with_reducible apply modWin_kept
    | intro _ _ _
    | intro _ _
    | with_reducible refine ite_kept (fun _ => ?_) (fun _ => ?_)

theorem beginErase_kept (s : State) (w : WinId) (hK₀ : Kept B s) :
    Kept B (beginErase s w) := by
  unfold beginErase
  try dsimp only
  repeat' first
    | with_reducible assumption

theorem doOpenWrite_kept (k : Client) (w : WinId) (s : State) (hK₀ : Kept B s) :
    Kept B (doOpenWrite k w s).1 := by
  unfold doOpenWrite
  try dsimp only
  repeat' first
    | with_reducible assumption
    | with_reducible apply refuseOpen_kept
    | with_reducible apply openedWindow_kept
    | with_reducible apply beginErase_kept
    | with_reducible refine ite_kept (fun _ => ?_) (fun _ => ?_)
    | split

theorem execWindowOpenWrite_kept (k : Client) (w : WinId) (s : State) (hK₀ : Kept B s) :
    OutKept B (execWindowOpenWrite k w s) := by
  unfold execWindowOpenWrite
  try dsimp only
  repeat' first
    | with_reducible assumption
    | with_reducible apply next_kept
    | with_reducible apply serveEnd_kept
    | with_reducible apply doOpenWrite_kept

theorem doOpenRead_kept (k : Client) (w : WinId) (s : State) (hK₀ : Kept B s) :
    Kept B (doOpenRead k w s).1 := by
  unfold doOpenRead
  try dsimp only
  repeat' first
    | with_reducible assumption
    | with_reducible apply refuseOpen_kept
    | with_reducible apply openedWindow_kept
    | with_reducible apply storeValue_kept
    | with_reducible refine ite_kept (fun _ => ?_) (fun _ => ?_)
    | split

theorem execWindowOpenRead_kept (k : Client) (w : WinId) (s : State) (hK₀ : Kept B s) :
    OutKept B (execWindowOpenRead k w s) := by
  unfold execWindowOpenRead
  try dsimp only
  repeat' first
    | with_reducible assumption
    | with_reducible apply next_kept
    | with_reducible apply serveEnd_kept
    | with_reducible apply doOpenRead_kept

theorem putWords_kept (s : State) (w : WinId) (data : List Byte) (hK₀ : Kept B s) :
    Kept B (putWords s w data) := by
  unfold putWords
  try dsimp only
  repeat' first
    | with_reducible assumption
    | with_reducible apply modWin_kept

theorem bufferDrain_kept (s : State) (hK₀ : Kept B s) :
    Kept B (bufferDrain s) := by
  unfold bufferDrain
  try dsimp only
  repeat' first
    | with_reducible assumption

theorem programWords_kept (s : State) (k : Client) (w : WinId) (data : List Byte) (hK₀ : Kept B s) :
    Kept B (programWords s k w data).1 := by
  unfold programWords
  try dsimp only
  repeat' first
    | with_reducible assumption
    | with_reducible apply bufferDrain_kept
    | with_reducible apply modWin_kept
    | with_reducible apply putWords_kept
    | intro _ _ _
    | intro _ _
    | with_reducible refine ite_kept (fun _ => ?_) (fun _ => ?_)
    | split

theorem doDataWrite_kept (k : Client) (w : WinId) (data : List Byte) (s : State) (hK₀ : Kept B s) :
    Kept B (doDataWrite k w data s).1 := by
  unfold doDataWrite
  try dsimp only
  repeat' first
    | with_reducible assumption
    | with_reducible apply programWords_kept
    | with_reducible apply putWords_kept
    | with_reducible refine ite_kept (fun _ => ?_) (fun _ => ?_)
    | split

theorem doDataRead_kept (k : Client) (w : WinId) (s : State) (h : Kept B s) : OkKeptBytes B (doDataRead k w s) := by
  unfold doDataRead
  dsimp only
  split
  · exact error_keptBytes
  · split
    · exact error_keptBytes
    · exact ok_keptBytes (modWin_kept _ _ _ h)

theorem execWindowData_kept (k : Client) (w : WinId) (write : Bool) (data : List Byte) (s : State) (h : Kept B s) :
    OutKept B (execWindowData k w write data s) := by
  unfold execWindowData
  split
  · exact next_kept (serveEnd_kept _ _ _ _ (fun _ hx => doDataWrite_kept _ _ _ _ hx) h)
  · split
    · split
      · rename_i e
        exact next_kept (answer_kept _ _ _ (doDataRead_kept _ _ _ (touchRead_kept _ _ h) _ e))
      · exact next_kept (answer_kept _ _ _ h)
    · exact next_kept h

theorem execFirmwareEraseDone_kept (s : State) (hK₀ : Kept B s) :
    OutKept B (execFirmwareEraseDone s) := by
  unfold execFirmwareEraseDone
  try dsimp only
  repeat' first
    | with_reducible assumption
    | with_reducible apply next_kept
    | with_reducible refine ite_kept (fun _ => ?_) (fun _ => ?_)
    | split

theorem execProgramBufferRoom_kept (failed : Bool) (s : State) (hK₀ : Kept B s) :
    OutKept B (execProgramBufferRoom failed s) := by
  unfold execProgramBufferRoom
  try dsimp only
  repeat' first
    | with_reducible assumption
    | with_reducible apply next_kept
    | with_reducible apply bufferDrain_kept
    | with_reducible apply completeClient_kept
    | with_reducible apply putWords_kept
    | with_reducible refine ite_kept (fun _ => ?_) (fun _ => ?_)
    | split

theorem checkWindow_kept (s : State) (x : Window) (hK₀ : Kept B s) :
    Kept B (checkWindow s x).1 := by
  unfold checkWindow
  try dsimp only
  repeat' first
    | with_reducible assumption
    | with_reducible apply endRecord_kept
    | with_reducible refine ite_kept (fun _ => ?_) (fun _ => ?_)
    | split

theorem deliverMap_kept (s : State) (w : WinId) (c : Chan) (n : StreamId) (h : Kept B s) :
    Kept B (deliverMap s w c n) := by
  unfold deliverMap
  have h1 := checkWindow_kept s (winAt s w) h
  dsimp only
  split
  · split
    · rename_i e
      exact closeWindow_kept _ _ _ _ (doMapData_kept _ _ _ _ h1 _ e)
    · exact closeWindow_kept _ _ _ _ h1
  · exact closeWindow_kept _ _ _ _ h1

theorem doWinCommit_kept (k : Client) (w : WinId) (s : State) (hK₀ : Kept B s) :
    Kept B (doWinCommit k w s).1 := by
  unfold doWinCommit
  try dsimp only
  repeat' first
    | with_reducible assumption
    | with_reducible apply modWin_kept
    | with_reducible apply deliverMap_kept
    | with_reducible apply closeWindow_kept
    | intro _ _ _
    | intro _ _
    | with_reducible refine ite_kept (fun _ => ?_) (fun _ => ?_)
    | split

theorem execWindowCommit_kept (k : Client) (w : WinId) (s : State) (hK₀ : Kept B s) :
    OutKept B (execWindowCommit k w s) := by
  unfold execWindowCommit
  try dsimp only
  repeat' first
    | with_reducible assumption
    | with_reducible apply next_kept
    | with_reducible apply serveEnd_kept
    | with_reducible apply doWinCommit_kept

theorem verifyPackage_kept (s : State) (w : WinId) (h : PackageHeader) (hK₀ : Kept B s) :
    Kept B (verifyPackage s w h) := by
  unfold verifyPackage
  try dsimp only
  repeat' first
    | with_reducible assumption
    | with_reducible apply checkWindow_kept
    | with_reducible apply closeWindow_kept

theorem execFirmwareVerifyDone_kept (h : PackageHeader) (s : State) (hK₀ : Kept B s) :
    OutKept B (execFirmwareVerifyDone h s) := by
  unfold execFirmwareVerifyDone
  try dsimp only
  repeat' first
    | with_reducible assumption
    | with_reducible apply next_kept
    | with_reducible apply verifyPackage_kept
    | with_reducible refine ite_kept (fun _ => ?_) (fun _ => ?_)
    | split

theorem dropWindow_kept (s : State) (w : WinId) (reason : Nat) (hK₀ : Kept B s) :
    Kept B (dropWindow s w reason) := by
  unfold dropWindow
  try dsimp only
  repeat' first
    | with_reducible assumption
    | with_reducible apply abandonFirmware_kept
    | with_reducible apply closeWindow_kept
    | with_reducible refine ite_kept (fun _ => ?_) (fun _ => ?_)

theorem doWinAbandon_kept (k : Client) (w : WinId) (s : State) (hK₀ : Kept B s) :
    Kept B (doWinAbandon k w s).1 := by
  unfold doWinAbandon
  try dsimp only
  repeat' first
    | with_reducible assumption
    | with_reducible apply dropWindow_kept
    | with_reducible apply closeWindow_kept
    | with_reducible refine ite_kept (fun _ => ?_) (fun _ => ?_)
    | split

theorem execWindowAbandon_kept (k : Client) (w : WinId) (s : State) (hK₀ : Kept B s) :
    OutKept B (execWindowAbandon k w s) := by
  unfold execWindowAbandon
  try dsimp only
  repeat' first
    | with_reducible assumption
    | with_reducible apply next_kept
    | with_reducible apply serveEnd_kept
    | with_reducible apply doWinAbandon_kept

theorem execWindowTimeout_kept (w : WinId) (s : State) (hK₀ : Kept B s) :
    OutKept B (execWindowTimeout w s) := by
  unfold execWindowTimeout
  try dsimp only
  repeat' first
    | with_reducible assumption
    | with_reducible apply next_kept
    | with_reducible apply dropWindow_kept
    | with_reducible refine ite_kept (fun _ => ?_) (fun _ => ?_)
    | split

theorem doWinControl_kept (k : Client) (w : WinId) (v : Nat) (s : State) (hK₀ : Kept B s) :
    Kept B (doWinControl k w v s).1 := by
  unfold doWinControl
  try dsimp only
  repeat' first
    | with_reducible assumption
    | with_reducible apply doOpenWrite_kept
    | with_reducible apply doOpenRead_kept
    | with_reducible apply doWinCommit_kept
    | with_reducible apply doWinAbandon_kept
    | with_reducible refine ite_kept (fun _ => ?_) (fun _ => ?_)
    | split

theorem drawChallenge_kept (s : State) (k : Client) (hK₀ : Kept B s) :
    Kept B (drawChallenge s k) := by
  unfold drawChallenge
  try dsimp only
  repeat' first
    | with_reducible assumption
    | with_reducible apply drawFree_kept

theorem execChallengeRead_kept (k : Client) (s : State) (hK₀ : Kept B s) :
    OutKept B (execChallengeRead k s) := by
  unfold execChallengeRead
  try dsimp only
  repeat' first
    | with_reducible assumption
    | with_reducible apply next_kept
    | with_reducible apply answer_kept
    | with_reducible apply drawChallenge_kept
    | with_reducible apply touchRead_kept
    | with_reducible refine ite_kept (fun _ => ?_) (fun _ => ?_)
    | split

theorem doResponse_kept (k : Client) (v : BitVec 128) (s : State) (hK₀ : Kept B s) :
    Kept B (doResponse k v s).1 := by
  unfold doResponse
  try dsimp only
  repeat' first
    | with_reducible assumption
    | with_reducible apply beginWatch_kept
    | with_reducible apply bump_kept
    | intro _ _ _
    | intro _ _
    | with_reducible refine ite_kept (fun _ => ?_) (fun _ => ?_)
    | split

theorem execResponseWrite_kept (k : Client) (v : BitVec 128) (s : State) (hK₀ : Kept B s) :
    OutKept B (execResponseWrite k v s) := by
  unfold execResponseWrite
  try dsimp only
  repeat' first
    | with_reducible assumption
    | with_reducible apply next_kept
    | with_reducible apply serveTrace_kept
    | with_reducible apply doResponse_kept

theorem doLock_kept (s : State) (hK₀ : Kept B s) :
    OkKept B (doLock s) := by
  unfold doLock
  try dsimp only
  repeat' first
    | with_reducible assumption
    | with_reducible apply ok_kept
    | with_reducible exact error_kept
    | with_reducible apply endUnlock_kept

theorem execMaintenanceLock_kept (k : Client) (s : State) (hK₀ : Kept B s) :
    OutKept B (execMaintenanceLock k s) := by
  unfold execMaintenanceLock
  try dsimp only
  repeat' first
    | with_reducible assumption
    | with_reducible apply next_kept
    | with_reducible apply serveWrite_kept
    | with_reducible apply doLock_kept

theorem execUnlockAttemptBlockExpiry_kept (s : State) (hK₀ : Kept B s) :
    OutKept B (execUnlockAttemptBlockExpiry s) := by
  unfold execUnlockAttemptBlockExpiry
  try dsimp only
  repeat' first
    | with_reducible assumption
    | with_reducible apply next_kept
    | with_reducible refine ite_kept (fun _ => ?_) (fun _ => ?_)
    | split

theorem execUnlockExpiry_kept (s : State) (hK₀ : Kept B s) :
    OutKept B (execUnlockExpiry s) := by
  unfold execUnlockExpiry
  try dsimp only
  repeat' first
    | with_reducible assumption
    | with_reducible apply next_kept
    | with_reducible apply endUnlock_kept
    | with_reducible refine ite_kept (fun _ => ?_) (fun _ => ?_)
    | split

theorem doSave_kept (k : Client) (s : State) (hK₀ : Kept B s) :
    Kept B (doSave k s).1 := by
  unfold doSave
  try dsimp only
  repeat' first
    | with_reducible assumption
    | with_reducible refine ite_kept (fun _ => ?_) (fun _ => ?_)
    | split

theorem execSave_kept (k : Client) (s : State) (hK₀ : Kept B s) :
    OutKept B (execSave k s) := by
  unfold execSave
  try dsimp only
  repeat' first
    | with_reducible assumption
    | with_reducible apply next_kept
    | with_reducible apply serveEnd_kept
    | with_reducible apply doSave_kept

theorem execSaveComplete_kept (s : State) (hK₀ : Kept B s) :
    OutKept B (execSaveComplete s) := by
  unfold execSaveComplete
  try dsimp only
  repeat' first
    | with_reducible assumption
    | with_reducible apply next_kept
    | with_reducible apply completeClient_kept
    | intro _ _ _
    | intro _ _
    | with_reducible refine ite_kept (fun _ => ?_) (fun _ => ?_)
    | split

theorem doLoad_kept (s : State) (hK₀ : Kept B s) :
    OkKept B (doLoad s) := by
  unfold doLoad
  try dsimp only
  repeat' first
    | with_reducible assumption
    | with_reducible apply ok_kept

theorem execLoad_kept (k : Client) (s : State) (hK₀ : Kept B s) :
    OutKept B (execLoad k s) := by
  unfold execLoad
  try dsimp only
  repeat' first
    | with_reducible assumption
    | with_reducible apply next_kept
    | with_reducible apply serveWrite_kept
    | with_reducible apply doLoad_kept

theorem doErrorListEmpty_kept (s : State) (h : Kept B s) : OkKept B (doErrorListEmpty s) :=
  ok_kept (emcy_kept h h.lastAt h.noteAt fun _ => Nat.zero_le _)

theorem execErrorListEmpty_kept (k : Client) (s : State) (hK₀ : Kept B s) :
    OutKept B (execErrorListEmpty k s) := by
  unfold execErrorListEmpty
  try dsimp only
  repeat' first
    | with_reducible assumption
    | with_reducible apply next_kept
    | with_reducible apply serveWrite_kept
    | with_reducible apply doErrorListEmpty_kept

/-! ## Dictionary -/

theorem restartPeak_kept (s : State) (i sub : Nat) (r : ObjRow) (hK₀ : Kept B s) :
    Kept B (restartPeak s i sub r) := by
  unfold restartPeak
  try dsimp only
  repeat' first
    | with_reducible assumption
    | with_reducible apply putSigned_kept
    | with_reducible apply regPut_kept
    | with_reducible refine ite_kept (fun _ => ?_) (fun _ => ?_)
    | split

theorem readObject_kept (k : Client) (i sub : Nat) (s : State) (hK₀ : Kept B s) :
    OkKeptBytes B (readObject k i sub s) := by
  unfold readObject
  try dsimp only
  repeat' first
    | with_reducible assumption
    | with_reducible apply ok_keptBytes
    | with_reducible exact error_keptBytes
    | with_reducible apply doDataRead_kept
    | with_reducible apply drawChallenge_kept
    | with_reducible apply takeSnapshot_kept
    | with_reducible apply restartPeak_kept
    | with_reducible refine ite_kept (fun _ => ?_) (fun _ => ?_)
    | split

theorem relayCommand_kept (v : Nat) (s : State) (hK₀ : Kept B s) :
    OkKept B (relayCommand v s) := by
  unfold relayCommand
  try dsimp only
  repeat' first
    | with_reducible assumption
    | with_reducible apply ok_kept
    | with_reducible exact error_kept
    | with_reducible apply doPlanned_kept
    | with_reducible apply doForced_kept
    | with_reducible apply doLockout_kept
    | with_reducible apply doEndLockout_kept
    | with_reducible apply doAbandon_kept
    | with_reducible apply doRetry_kept
    | with_reducible refine ite_kept (fun _ => ?_) (fun _ => ?_)
    | split

theorem captureCommand_kept (v : Nat) (s : State) (hK₀ : Kept B s) :
    OkKept B (captureCommand v s) := by
  unfold captureCommand
  try dsimp only
  repeat' first
    | with_reducible assumption
    | with_reducible apply ok_kept
    | with_reducible exact error_kept
    | with_reducible apply doArm_kept
    | with_reducible apply doTrigger_kept
    | with_reducible apply doRelease_kept
    | with_reducible apply doDisarm_kept
    | with_reducible refine ite_kept (fun _ => ?_) (fun _ => ?_)
    | split

theorem readoutCommand_kept (r : ReadoutId) (v : Nat) (s : State) (hK₀ : Kept B s) :
    Kept B (readoutCommand r v s).1 := by
  unfold readoutCommand
  try dsimp only
  repeat' first
    | with_reducible assumption
    | with_reducible apply liftTrace_kept
    | with_reducible apply doReadoutStart_kept
    | with_reducible apply liftWrite_kept
    | with_reducible apply doReadoutAbort_kept
    | with_reducible apply doReadoutResume_kept
    | with_reducible refine ite_kept (fun _ => ?_) (fun _ => ?_)
    | split

theorem groupCommand_kept (k : Client) (v : Nat) (s : State) (hK₀ : Kept B s) :
    OkKept B (groupCommand k v s) := by
  unfold groupCommand
  try dsimp only
  repeat' first
    | with_reducible assumption
    | with_reducible apply ok_kept
    | with_reducible exact error_kept
    | with_reducible apply doGroupOpen_kept
    | with_reducible apply doGroupCommit_kept
    | with_reducible apply doGroupAbandon_kept
    | with_reducible refine ite_kept (fun _ => ?_) (fun _ => ?_)
    | split

theorem mapCommand_kept (c : Chan) (n : StreamId) (v : Nat) (s : State) (hK₀ : Kept B s) :
    OkKept B (mapCommand c n v s) := by
  unfold mapCommand
  try dsimp only
  repeat' first
    | with_reducible assumption
    | with_reducible apply ok_kept
    | with_reducible exact error_kept
    | with_reducible apply doMapBegin_kept
    | with_reducible apply doMapCommit_kept
    | with_reducible apply doMapDiscard_kept
    | with_reducible refine ite_kept (fun _ => ?_) (fun _ => ?_)
    | split

theorem askPlan_kept (s : State) (hK₀ : Kept B s) :
    Kept B (askPlan s) := by
  unfold askPlan
  try dsimp only
  repeat' first
    | with_reducible assumption
    | with_reducible apply setFlag_kept

theorem channelWrite_kept (k : Client) (i sub v : Nat) (data : List Byte) (s : State) (hK₀ : Kept B s) :
    OptKept B (channelWrite k i sub v data s) := by
  unfold channelWrite
  try dsimp only
  repeat' first
    | with_reducible assumption
    | with_reducible apply drawFree_kept
    | with_reducible apply some_kept
    | with_reducible exact none_kept
    | with_reducible apply liftTrace_kept
    | with_reducible apply doChannelStart_kept
    | with_reducible apply liftWrite_kept
    | with_reducible apply doChannelStop_kept
    | with_reducible apply doVerifyEnable_kept
    | with_reducible apply mapCommand_kept
    | with_reducible apply doMapData_kept
    | with_reducible refine ite_kept (fun _ => ?_) (fun _ => ?_)
    | split

theorem baseWrite_kept (k : Client) (i sub v : Nat) (s : State) (hK₀ : Kept B s) :
    OptKept B (baseWrite k i sub v s) := by
  unfold baseWrite
  try dsimp only
  repeat' first
    | with_reducible assumption
    | with_reducible apply some_kept
    | with_reducible exact none_kept
    | with_reducible apply liftWrite_kept
    | with_reducible apply doErrorListEmpty_kept
    | with_reducible apply doSave_kept
    | with_reducible apply doLoad_kept
    | with_reducible apply relayCommand_kept
    | with_reducible apply doReversionLock_kept
    | with_reducible apply doBlockReset_kept
    | with_reducible apply groupCommand_kept
    | with_reducible apply doTriggerTime_kept
    | with_reducible apply captureCommand_kept
    | with_reducible apply doReturnEnable_kept
    | with_reducible apply doOverflowEmpty_kept
    | with_reducible apply askPlan_kept
    | with_reducible apply liftTrace_kept
    | with_reducible apply doResponse_kept
    | with_reducible apply doLock_kept
    | with_reducible refine ite_kept (fun _ => ?_) (fun _ => ?_)
    | split

theorem commandWrite_kept (k : Client) (i sub v : Nat) (data : List Byte) (s : State) (hK₀ : Kept B s) :
    OptKept B (commandWrite k i sub v data s) := by
  unfold commandWrite
  try dsimp only
  repeat' first
    | with_reducible assumption
    | with_reducible apply some_kept
    | with_reducible exact none_kept
    | with_reducible apply channelWrite_kept
    | with_reducible apply readoutCommand_kept
    | with_reducible apply liftWrite_kept
    | with_reducible apply doMonitorClear_kept
    | with_reducible apply doWinControl_kept
    | with_reducible apply baseWrite_kept
    | with_reducible refine ite_kept (fun _ => ?_) (fun _ => ?_)
    | split

theorem settleDomain_kept (s : State) (hK₀ : Kept B s) :
    Kept B (settleDomain s) := by
  unfold settleDomain
  try dsimp only
  repeat' first
    | with_reducible assumption
    | with_reducible apply reselect_kept

theorem settleWrite_kept (s : State) (i sub : Nat) (hK₀ : Kept B s) :
    Kept B (settleWrite s i sub) := by
  unfold settleWrite
  try dsimp only
  repeat' first
    | with_reducible assumption
    | with_reducible apply announcePort_kept
    | with_reducible apply settleDomain_kept
    | with_reducible apply forEach_kept
    | with_reducible apply settlePtp_kept
    | with_reducible apply linkDown_kept
    | with_reducible apply settleMapSize_kept
    | intro _ _ _
    | intro _ _
    | with_reducible refine ite_kept (fun _ => ?_) (fun _ => ?_)

theorem clearStatus_kept (s : State) (i sub v : Nat) (r : ObjRow) (hK₀ : Kept B s) :
    Kept B (clearStatus s i sub v r) := by
  unfold clearStatus
  try dsimp only
  repeat' first
    | with_reducible assumption
    | with_reducible apply settleRegister_kept
    | with_reducible apply regPut_kept

theorem storeSettled_kept (s : State) (i sub v : Nat) (hK₀ : Kept B s) :
    Kept B (storeSettled s i sub v) := by
  unfold storeSettled
  try dsimp only
  repeat' first
    | with_reducible assumption
    | with_reducible apply settleWrite_kept
    | with_reducible apply storeValue_kept
    | with_reducible apply announceJoins_kept
    | with_reducible refine ite_kept (fun _ => ?_) (fun _ => ?_)

theorem storePlain_kept (k : Client) (i sub v : Nat) (r : ObjRow) (s : State) (hK₀ : Kept B s) :
    Kept B (storePlain k i sub v r s).1 := by
  unfold storePlain
  try dsimp only
  repeat' first
    | with_reducible assumption
    | with_reducible apply storeSettled_kept
    | with_reducible apply clearStatus_kept
    | with_reducible apply liftWrite_kept
    | with_reducible apply shadowWrite_kept
    | with_reducible apply settleWrite_kept
    | with_reducible apply storeValue_kept
    | intro _ _ _
    | intro _ _
    | with_reducible refine ite_kept (fun _ => ?_) (fun _ => ?_)
    | split

theorem writeValue_kept (k : Client) (i sub : Nat) (r : ObjRow) (data : List Byte) (s : State) (h : Kept B s) :
    Kept B (writeValue k i sub r data s).1 := by
  unfold writeValue
  dsimp only
  split
  · exact h
  · split
    · exact h
    · split
      · exact h
      · split
        · exact h
        · split
          · rename_i e
            exact commandWrite_kept _ _ _ _ _ _ h _ e
          · exact storePlain_kept _ _ _ _ _ _ h

theorem writeObject_kept (k : Client) (i sub : Nat) (data : List Byte) (s : State) (h : Kept B s) :
    Kept B (writeObject k i sub data s).1 := by
  unfold writeObject
  split
  · exact h
  · split
    · exact h
    · split
      · exact h
      · split
        · split
          · exact doDataWrite_kept _ _ _ _ h
          · have hc := commandWrite_kept k i sub 0 data s h
            generalize commandWrite k i sub 0 data s = o at hc ⊢
            cases o with
            | none => exact h
            | some x => exact hc _ rfl
        · exact writeValue_kept _ _ _ _ _ _ h

theorem execObjectWrite_kept (k : Client) (i sub : Nat) (data : List Byte) (s : State) (hK₀ : Kept B s) :
    OutKept B (execObjectWrite k i sub data s) := by
  unfold execObjectWrite
  try dsimp only
  repeat' first
    | with_reducible assumption
    | with_reducible apply next_kept
    | with_reducible apply serveEnd_kept
    | with_reducible apply writeObject_kept

/-! ## Routes -/

theorem setTransfer_kept (s : State) (k : Client) (t : Option Transfer) (hK₀ : Kept B s) :
    Kept B (setTransfer s k t) := by
  unfold setTransfer
  try dsimp only
  repeat' first
    | with_reducible assumption

theorem takeSegment_kept (k : Client) (i sub offset : Nat) (data : List Byte) (final : Bool) (s : State) (hK₀ : Kept B s) :
    Kept B (takeSegment k i sub offset data final s).1 := by
  unfold takeSegment
  try dsimp only
  repeat' first
    | with_reducible assumption
    | with_reducible apply setTransfer_kept
    | with_reducible apply writeObject_kept
    | with_reducible refine ite_kept (fun _ => ?_) (fun _ => ?_)
    | split

theorem execTransferTimeout_kept (k : Client) (s : State) (hK₀ : Kept B s) :
    OutKept B (execTransferTimeout k s) := by
  unfold execTransferTimeout
  try dsimp only
  repeat' first
    | with_reducible assumption
    | with_reducible apply next_kept
    | with_reducible apply completeClient_kept
    | with_reducible apply setTransfer_kept
    | with_reducible refine ite_kept (fun _ => ?_) (fun _ => ?_)
    | split

theorem answerRead_kept (s : State) (k : Client) (i sub : Nat) (h : Kept B s) : Kept B (answerRead s k i sub) := by
  unfold answerRead
  split
  · rename_i e
    exact answer_kept _ _ _ (readObject_kept _ _ _ _ (touchRead_kept _ _ h) _ e)
  · exact answer_kept _ _ _ h

theorem stampClient_kept (s : State) (k : Client) (hK₀ : Kept B s) :
    Kept B (stampClient s k) := by
  unfold stampClient
  try dsimp only
  repeat' first
    | with_reducible assumption

theorem execUsdoTransfer_kept (r : DictRequest) (s : State) (hK₀ : Kept B s) :
    OutKept B (execUsdoTransfer r s) := by
  unfold execUsdoTransfer
  try dsimp only
  repeat' first
    | with_reducible assumption
    | with_reducible apply stampClient_kept
    | with_reducible apply next_kept
    | with_reducible apply answerRead_kept
    | with_reducible apply serveEnd_kept
    | with_reducible apply writeObject_kept
    | with_reducible apply takeSegment_kept
    | with_reducible refine ite_kept (fun _ => ?_) (fun _ => ?_)
    | split

theorem setNmt_kept (s : State) (m : NmtMode) (hK₀ : Kept B s) :
    Kept B (setNmt s m) := by
  unfold setNmt
  try dsimp only
  repeat' first
    | with_reducible assumption

theorem resetNode_kept (s : State) (hK₀ : Kept B s) :
    Kept B (resetNode s) := by
  unfold resetNode
  try dsimp only
  repeat' first
    | with_reducible assumption
    | with_reducible apply logNote_kept
    | with_reducible apply bump_kept
    | with_reducible apply assertModuleReset_kept
    | with_reducible refine ite_kept (fun _ => ?_) (fun _ => ?_)

theorem foldPut_wf (d : Nat → Nat) (f : Store → Nat × Nat → Store)
    (hf : ∀ st p, assocWf d st = true → assocWf d (f st p) = true) (l : List (Nat × Nat)) (st : Store)
    (h : assocWf d st = true) : assocWf d (l.foldl f st) = true := by
  induction l generalizing st with
  | nil => exact h
  | cons p t ih => exact ih _ (hf _ _ h)

theorem reloadProfile_kept (s : State) (h : Kept B s) : Kept B (reloadProfile s) := by
  unfold reloadProfile
  extract_lets saved mix load
  have hm : ∀ d, assocWf defaultOf d = true → assocWf defaultOf (mix d) = true := by
    intro d hd
    refine foldPut_wf _ _ (fun st p hst => ?_) _ _ hd
    split
    · exact assocPut_wf _ _ _ _ hst
    · exact hst
  clear_value mix
  have hl : ∀ d, assocWf defaultOf d = true → assocWf defaultOf (load d) = true := by
    intro d hd
    refine foldPut_wf _ _ (fun st p hst => ?_) _ _ (hm _ hd)
    split
    · exact assocPut_wf _ _ _ _ hst
    · exact hst
  clear_value load
  refine dict_kept h (fun w => hl _ (h.master w)) ?_ ?_ h.applied h.inUse
  · dsimp only
    split
    · exact fun w => hl _ (h.shadowA w)
    · exact h.shadowA
  · dsimp only
    split
    · exact fun w => hl _ (h.shadowB w)
    · exact h.shadowB

theorem resetCommunication_kept (s : State) (hK₀ : Kept B s) :
    Kept B (resetCommunication s) := by
  unfold resetCommunication
  try dsimp only
  repeat' first
    | with_reducible assumption
    | with_reducible apply reloadProfile_kept
    | with_reducible apply assertSource_kept

theorem execNmtStart_kept (s : State) (hK₀ : Kept B s) :
    OutKept B (execNmtStart s) := by
  unfold execNmtStart
  try dsimp only
  repeat' first
    | with_reducible assumption
    | with_reducible apply next_kept
    | with_reducible apply setNmt_kept
    | with_reducible refine ite_kept (fun _ => ?_) (fun _ => ?_)

theorem execNmtStop_kept (s : State) (hK₀ : Kept B s) :
    OutKept B (execNmtStop s) := by
  unfold execNmtStop
  try dsimp only
  repeat' first
    | with_reducible assumption
    | with_reducible apply next_kept
    | with_reducible apply setNmt_kept
    | with_reducible refine ite_kept (fun _ => ?_) (fun _ => ?_)

theorem execNmtEnterPreOperational_kept (s : State) (hK₀ : Kept B s) :
    OutKept B (execNmtEnterPreOperational s) := by
  unfold execNmtEnterPreOperational
  try dsimp only
  repeat' first
    | with_reducible assumption
    | with_reducible apply next_kept
    | with_reducible apply setNmt_kept
    | with_reducible refine ite_kept (fun _ => ?_) (fun _ => ?_)

theorem execResetNode_kept (s : State) (hK₀ : Kept B s) :
    OutKept B (execResetNode s) := by
  unfold execResetNode
  try dsimp only
  repeat' first
    | with_reducible assumption
    | with_reducible apply next_kept
    | with_reducible apply resetNode_kept
    | with_reducible refine ite_kept (fun _ => ?_) (fun _ => ?_)

theorem execResetCommunication_kept (s : State) (hK₀ : Kept B s) :
    OutKept B (execResetCommunication s) := by
  unfold execResetCommunication
  try dsimp only
  repeat' first
    | with_reducible assumption
    | with_reducible apply next_kept
    | with_reducible apply resetCommunication_kept
    | with_reducible refine ite_kept (fun _ => ?_) (fun _ => ?_)

theorem nmtCommand_kept (s : State) (c : Nat) (hK₀ : Kept B s) :
    Kept B (nmtCommand s c) := by
  unfold nmtCommand
  try dsimp only
  repeat' first
    | with_reducible assumption
    | with_reducible apply setNmt_kept
    | with_reducible apply resetNode_kept
    | with_reducible apply resetCommunication_kept
    | with_reducible refine ite_kept (fun _ => ?_) (fun _ => ?_)

theorem execCanBusOff_kept (s : State) (hK₀ : Kept B s) :
    OutKept B (execCanBusOff s) := by
  unfold execCanBusOff
  try dsimp only
  repeat' first
    | with_reducible assumption
    | with_reducible apply next_kept

theorem execBusOffRecovery_kept (s : State) (hK₀ : Kept B s) :
    OutKept B (execBusOffRecovery s) := by
  unfold execBusOffRecovery
  try dsimp only
  repeat' first
    | with_reducible assumption
    | with_reducible apply next_kept
    | with_reducible apply raiseEmcy_kept
    | with_reducible apply setFlag_kept
    | with_reducible refine ite_kept (fun _ => ?_) (fun _ => ?_)
    | split

theorem execCanSyncRx_kept (s : State) (hK₀ : Kept B s) :
    OutKept B (execCanSyncRx s) := by
  unfold execCanSyncRx
  try dsimp only
  repeat' first
    | with_reducible assumption
    | with_reducible apply next_kept
    | with_reducible apply regPut_kept
    | with_reducible refine ite_kept (fun _ => ?_) (fun _ => ?_)

theorem sendToSubscribers_kept (s : State) (opcode : Nat) (payload : List Byte) (hK₀ : Kept B s) :
    Kept B (sendToSubscribers s opcode payload) := by
  unfold sendToSubscribers
  try dsimp only
  repeat' first
    | with_reducible assumption
    | with_reducible apply some_kept
    | with_reducible apply endpointSend_kept
    | with_reducible apply none_kept
    | with_reducible refine forEach_kept _ _ _ (fun _ _ _ => ?_) ?_
    | with_reducible refine ite_kept (fun _ => ?_) (fun _ => ?_)
    | split

theorem execHeartbeat_kept (s : State) (hK₀ : Kept B s) :
    OutKept B (execHeartbeat s) := by
  unfold execHeartbeat
  try dsimp only
  repeat' first
    | with_reducible assumption
    | with_reducible apply next_kept
    | with_reducible apply sendToSubscribers_kept
    | with_reducible refine ite_kept (fun _ => ?_) (fun _ => ?_)
    | split

theorem execEmcySend_kept (s : State) (hK₀ : Kept B s) :
    OutKept B (execEmcySend s) := by
  unfold execEmcySend
  try dsimp only
  repeat' first
    | with_reducible assumption
    | with_reducible apply next_kept
    | with_reducible apply sendToSubscribers_kept
    | with_reducible refine ite_kept (fun _ => ?_) (fun _ => ?_)
    | split

theorem enterSlot_kept (s : State) (k : Client) (src : Nat × Nat) (p : PortId) (host : Bool) (hK₀ : Kept B s) :
    Kept B (enterSlot s k src p host) := by
  unfold enterSlot
  try dsimp only
  repeat' first
    | with_reducible assumption

theorem clients_kept {s : State} (c : Vector ClientSlot 9) (h : Kept B s) : Kept B { s with clients := c } := h

theorem datagramRead_kept (s : State) (k : Client) (d : Datagram) (h : Kept B s) : Kept B (datagramRead s k d) := by
  unfold datagramRead
  split
  · split
    · rename_i e
      have h1 := readObject_kept _ _ _ _ (touchRead_kept _ _ h) _ e
      exact replyAnswer_kept _ _ _ _ _ (answer_kept _ _ _ (clients_kept _ h1))
    · exact replyAnswer_kept _ _ _ _ _ (answer_kept _ _ _ h)
  · split
    · split
      · exact replyAnswer_kept _ _ _ _ _ (answer_kept _ _ _ h)
      · exact replyAnswer_kept _ _ _ _ _ (answer_kept _ _ _ h)
    · exact replyAnswer_kept _ _ _ _ _ (answer_kept _ _ _ h)

theorem datagramWrite_kept (s : State) (k : Client) (d : Datagram) (hK₀ : Kept B s) :
    Kept B (datagramWrite s k d) := by
  unfold datagramWrite
  try dsimp only
  repeat' first
    | with_reducible assumption
    | with_reducible apply serveEnd_kept
    | with_reducible apply takeSegment_kept
    | with_reducible apply answer_kept
    | with_reducible apply replyAnswer_kept
    | intro _ _ _
    | intro _ _
    | with_reducible refine ite_kept (fun _ => ?_) (fun _ => ?_)
    | split

theorem datagramNmt_kept (s : State) (k : Client) (d : Datagram) (hK₀ : Kept B s) :
    Kept B (datagramNmt s k d) := by
  unfold datagramNmt
  try dsimp only
  repeat' first
    | with_reducible assumption
    | with_reducible apply nmtCommand_kept
    | with_reducible apply answer_kept
    | with_reducible refine ite_kept (fun _ => ?_) (fun _ => ?_)

theorem serveDatagram_kept (s0 : State) (k : Client) (d : Datagram) (hK₀ : Kept B s0) :
    Kept B (serveDatagram s0 k d) := by
  unfold serveDatagram
  try dsimp only
  repeat' first
    | with_reducible assumption
    | with_reducible apply bumpHalf_kept
    | with_reducible apply stampClient_kept
    | with_reducible apply datagramRead_kept
    | with_reducible apply datagramWrite_kept
    | with_reducible apply datagramNmt_kept
    | with_reducible apply some_kept
    | with_reducible apply endpointSend_kept
    | with_reducible apply none_kept
    | with_reducible refine ite_kept (fun _ => ?_) (fun _ => ?_)
    | split

theorem execDictionaryDatagram_kept (p : PortId) (srcIp srcPort : Nat) (d : Datagram) (s : State) (hK₀ : Kept B s) :
    OutKept B (execDictionaryDatagram p srcIp srcPort d s) := by
  unfold execDictionaryDatagram
  try dsimp only
  repeat' first
    | with_reducible assumption
    | with_reducible apply next_kept
    | with_reducible apply bumpHalf_kept
    | with_reducible apply serveDatagram_kept
    | with_reducible apply enterSlot_kept
    | with_reducible refine ite_kept (fun _ => ?_) (fun _ => ?_)
    | split

theorem execClientSlotTimeout_kept (k : Client) (s : State) (hK₀ : Kept B s) :
    OutKept B (execClientSlotTimeout k s) := by
  unfold execClientSlotTimeout
  try dsimp only
  repeat' first
    | with_reducible assumption
    | with_reducible apply next_kept
    | with_reducible apply endUnlock_kept
    | intro _ _ _
    | intro _ _
    | with_reducible refine ite_kept (fun _ => ?_) (fun _ => ?_)
    | split

/-! ## Idle -/

theorem referenceCycle_kept (s : State) (hK₀ : Kept B s) :
    Kept B (referenceCycle s) := by
  unfold referenceCycle
  try dsimp only
  repeat' first
    | with_reducible assumption
    | with_reducible apply fillMeters_kept
    | with_reducible apply fillFlows_kept

theorem countHour_kept (s : State) (hK₀ : Kept B s) :
    Kept B (countHour s) := by
  unfold countHour
  try dsimp only
  repeat' first
    | with_reducible assumption
    | with_reducible refine ite_kept (fun _ => ?_) (fun _ => ?_)

theorem endTimed_kept (s : State) (hK₀ : Kept B s) :
    Kept B (endTimed s) := by
  unfold endTimed
  try dsimp only
  repeat' first
    | with_reducible assumption
    | with_reducible apply finishScrub_kept
    | with_reducible apply fallPins_kept

theorem now_kept {s : State} (n : Nat) (h : Kept B s) : Kept { B with now := n } { s with now := n } := by
  obtain ⟨_, h⟩ := h
  exact ⟨rfl, h⟩

theorem idleCycle_kept (s : State) (h : Kept B s) : Kept { B with now := s.now + 1 } (idleCycle s) := by
  unfold idleCycle
  extract_lets t t1
  have ht : Kept { B with now := s.now + 1 } t := now_kept _ h
  clear_value t
  have h1 : Kept { B with now := s.now + 1 } t1 := ite_kept (fun _ => referenceCycle_kept _ ht) fun _ => ht
  clear_value t1
  exact endTimed_kept _ (countHour_kept _ h1)

end Sys2Proof.Machine
end

