-- ==== Sys2Proof/WellFormed.lean ====
section
/-! DEFINITION. Which command terms the outside can send: every number lies inside the width of the field that carries
it (17_dictionary.md Table 17-3, 08_network.md, 07_sensor_lanes.md Tables 7-5 to 7-7, 12_translation_dma.md Table 12-3,
16_power_ageing.md Table 16-2). -/

namespace Sys2Proof

def idxOk (i sub : Nat) : Bool := decide (i < 0x10000 ∧ sub < 0x100)

/-- 17_dictionary.md R413: a request carries at most 1,024 bytes; a USDO segment carries fewer. -/
def bytesOk (n : Nat) (l : List Byte) : Bool := decide (l.length ≤ n)

def requestOk : DictRequest → Bool
  | .read i sub => idxOk i sub
  | .write i sub d => idxOk i sub && bytesOk 1024 d
  | .segment i sub off d _ => idxOk i sub && bytesOk 1024 d && decide (off < 2 ^ 32)

def datagramOk (d : Datagram) : Bool :=
  idxOk d.index d.sub && bytesOk 1024 d.payload &&
  decide (d.protocol < 0x10000 ∧ d.version < 0x100 ∧ d.opcode < 0x100 ∧ d.sequence < 2 ^ 32 ∧ d.flags < 0x100 ∧
    d.offset < 2 ^ 32 ∧ d.abort < 2 ^ 32 ∧ d.stamp < 2 ^ 64)

/-- A slice predicts only from pictures of its reference picture set, an IRAP slice from none. -/
def returnSliceOk (x : ReturnSlice) : Bool :=
  x.uses.all x.refs.contains && decide ((16 ≤ x.nalType ∧ x.nalType < 24 → x.uses = []) ∧ x.nalType < 32 ∧ x.bins.length = x.ctus ∧
    x.held ≤ x.ctus ∧ x.errorAt.getD 0 ≤ x.ctus)

/-- Identifiers and field widths of H.265; a CTU has a size. -/
def paramOk : ParamSet → Bool
  | .vps i _ => decide (i < 16)
  | .sps i v _ p => decide (i < 16 ∧ v < 16 ∧ p.chroma < 4 ∧ p.constraints < 512 ∧ p.level < 256 ∧ p.profile < 32 ∧ 0 < p.bitDepth ∧ 0 < p.ctb)
  | .pps i v _ _ => decide (i < 64 ∧ v < 16)

def nalOk : NalInfo → Bool
  | .params x => paramOk x
  | .slice x => returnSliceOk x
  | .endOfSequence => true
  | .other => true

/-- Every packet but an aggregation packet carries at most one NAL unit. -/
def rtpOk (p : RtpPacket) : Bool :=
  decide (p.ssrc < 2 ^ 32 ∧ p.pt < 128 ∧ p.seq < 0x10000 ∧ p.ts < 2 ^ 32 ∧ (p.carry = .aggregated ∨ p.nals.length ≤ 1)) && p.nals.all nalOk

def bodyOk : FrameBody → Bool
  | .arpRequest m a b => decide (m < 2 ^ 48 ∧ a < 2 ^ 32 ∧ b < 2 ^ 32)
  | .arpReply m a b => decide (m < 2 ^ 48 ∧ a < 2 ^ 32 ∧ b < 2 ^ 32)
  | .icmpEcho i q d => decide (i < 0x10000 ∧ q < 0x10000) && bytesOk 9000 d
  | .igmpQuery g => decide (g < 2 ^ 32)
  | .ptp _ _ => true
  | .ptpMetadata _ => true
  | .datagram d => datagramOk d
  | .rtp r => rtpOk r
  | .flowControl => true
  | .other => true

def frameOk (f : Frame) : Bool :=
  bodyOk f.body &&
  decide (f.dst < 2 ^ 48 ∧ f.src < 2 ^ 48 ∧ f.etherType < 0x10000 ∧ f.srcIp < 2 ^ 32 ∧ f.dstIp < 2 ^ 32 ∧
    f.srcPort < 0x10000 ∧ f.dstPort < 0x10000 ∧ f.len < 0x10000)

def linePacketOk (p : LinePacket) : Bool :=
  decide (p.blocks < 0x10000 ∧ p.flags < 8 ∧ p.line < 0x10000 ∧ p.alive < 0x100 ∧ p.payload.length = p.blocks)

def pictureOk (d : PictureDescriptor) : Bool :=
  decide (d.width < 0x10000 ∧ d.height < 0x10000 ∧ d.chroma < 4 ∧ d.depth < 32)

def startOk (x : DmaStart) : Bool := decide (x.addr < 2 ^ 48 ∧ x.task < 1024)

def entryOk (e : AtuEntry) : Bool := decide (e.vbase < 2 ^ 48 ∧ e.page < 2 ^ 48 ∧ e.ubase < 2 ^ 36)

def dramUserOk : DramUser → Bool
  | .engineTask i => decide (i < 1024)
  | _ => true

/-- A 64-byte block has eight 8-byte groups (11_dram.md R276). -/
def eccOk : EccResult → Bool
  | .corrected n => decide (0 < n ∧ n ≤ 8)
  | _ => true

def dramRequestOk (r : DramRequest) : Bool :=
  decide (r.vaddr < 2 ^ 48 ∧ 0 < r.size) && dramUserOk r.user && (!r.write || decide (r.data.length = r.size)) && eccOk r.ecc

/-- A trial lies inside the largest CTB with a size, mode and depth that H.265 has; a block has at most 2 AMVP predictors and 5 merge
candidates. -/
def trialOk (t : CuTrial) : Bool :=
  decide ((t.size = 8 ∨ t.size = 16 ∨ t.size = 32 ∨ t.size = 64) ∧ t.x + t.size ≤ 64 ∧ t.y + t.size ≤ 64 ∧ t.x % t.size = 0 ∧
    t.y % t.size = 0 ∧ t.mode < 35 ∧ t.depth ≤ 1) && t.vectors.all fun v => decide (v.1 < 2)

def ctuOk (x : CtuContent) : Bool :=
  decide (x.floorBits ≤ 2 ^ 32 ∧ x.bits ≤ 2 ^ 32) && x.trials.all trialOk &&
    (x.predictors.all fun p => decide (p.block < 16 ∧ p.ref < 2 ∧ p.amvp.length ≤ 2 ∧ p.merge.length ≤ 5))

/-- Samples fit 2 bytes (06_decoders.md R134). -/
def reconOk (r : Reconstruction) : Bool := (r.pre ++ r.filtered).all fun l => l.samples.all fun x => decide (x < 0x10000)

/-- A slice's NAL unit has at most 8 MiB (06_decoders.md Table 6-4). -/
def sliceOk (l : List Byte) : Bool := decide (l.length ≤ 8388608)

/-- The command's operands fit the fields that carry them. -/
def wellFormed : Instr → Bool
  | .lapTick i => i.standIns.all fun c => reconOk c.decoder
  | .timerInsert _ task laps _ => decide (task < 1024 ∧ laps < 2 ^ 32)
  | .ctuCode _ _ x => ctuOk x
  | .stripeCoded _ x => x.slices.all sliceOk && x.recon.all fun r => reconOk r.2
  | .segmentVerified _ _ x => reconOk x.encoder && reconOk x.decoder
  | .egressByteCheck _ _ _ _ v e => sliceOk v && sliceOk e
  | .channelStart _ _ loads => loads.all fun l => l.entries.all entryOk
  | .objectWrite _ i sub d => idxOk i sub && bytesOk 1024 d
  | .mapData _ _ _ d => bytesOk 1024 d && decide (d.length % 16 = 0)
  | .verifyEnableWrite _ _ v => decide (v < 0x100)
  | .returnDecoderEnable _ v => decide (v < 0x100)
  | .reversionLockWrite _ v => decide (v < 0x100)
  | .monitorClear _ _ v => decide (v < 0x100)
  | .linePacketRx _ _ p => linePacketOk p
  | .pictureDescriptorRx _ _ d => pictureOk d
  | .frameRx _ f => frameOk f
  | .arpRetry _ ip => decide (ip < 2 ^ 32)
  | .arpRefresh _ ip => decide (ip < 2 ^ 32)
  | .addressAgeing m => decide (m < 2 ^ 48)
  | .dramRequest _ _ l => l.all dramRequestOk
  | .mr4Poll _ rates _ => rates.all fun r => decide (r < 8)
  | .dmaBurst _ _ found => found.all fun x => eccOk x.2
  | .descriptorFetch _ _ x => x.all startOk
  | .batonCheck _ d => d.all fun x => decide (x.1 < 8192)
  | .releaseReport p c => decide (p.length ≤ 1488 ∧ c.length = 4)
  | .unitImageCheck _ x => x.tasks.all fun t => decide (t.ident < 1024)
  | .taskRun _ _ x => x.sets.all fun w => decide (w.1 < 1024)
  | .windowData _ _ _ d => decide (d.length % 16 = 0 ∧ d.length ≤ 1024)
  | .usdoTransfer r => requestOk r
  | .dictionaryDatagram _ ip port d => datagramOk d && decide (ip < 2 ^ 32 ∧ port < 0x10000)
  | _ => true

end Sys2Proof
end

