-- ==== Sys2Proof/Tests/Slice0.lean ====
section
/-! SUPPORT. Small tests: states that meet the hypotheses of the statements, ill-formed commands that the check refuses, and
single steps whose results come from the spec's tables and worked examples. -/

namespace Sys2Proof.Tests

set_option Elab.async false

open Sys2Proof.Machine

/-! ## States to test on -/

/-- A module in operation: the controller answers, both units are booted and A is active, the ports serve. -/
def live : State := { State.reset with
  rst := { State.reset.rst with asserted := 0, limitChecked := true }
  ctrl := { State.reset.ctrl with mode := .running }
  can := { State.reset.can with nmt := .operational }
  boot := ⟨⟨.booted, 0, false, false, []⟩, ⟨.booted, 0, false, false, []⟩⟩
  relay := { State.reset.relay with active := some .a, mode := .exposed }
  ports := .replicate 4 { portReset with up := true, txIdle := false, selected := some .a } }

/-- Configured and applied values on top of a state, all in effect. -/
def withObjects (s : State) (l : List (Nat × Nat)) : State :=
  asWritten (l.foldl (fun t kv => applyValue (commitValue t kv.1 kv.2 true true) kv.1 kv.2) s)

def withDisp (d : DispState) : State := { live with disp := ⟨d, dispReset⟩ }

def withStream (x : Stream) : State := { live with streams := .replicate 16 x }

/-- The state a command leaves. -/
def after (o : Out) : State :=
  match o with
  | .next t => t
  | _ => State.reset

/-! ## The hypotheses of the statements are met -/

theorem witness_StepRunsFrontCommand :
    ({ live with pending := [.operandDeadline] } : State).pending = [.operandDeadline] ∧ live.pending = [] := by decide

def taskOne : Task :=
  { ident := 3, engine := 0, cls := 0, flags := 0, mask := 32, all := false, status := .waiting, readyLap := 0, refused := false, failed := false }

/-- Task 4, a lap-deadline task, runs on engine 1 of the standby, and task 3 waits for its flag 5. -/
def taskBeside : DispState :=
  { dispReset with tasks := [taskOne, { taskOne with ident := 4, engine := 1, status := .running }], running := (Vector.replicate 64 none).set 1 (some 4) }

theorem witness_TimersAndTasksRun :
    ((live.disp.get .a).timers.length < 1024 ∧ 16777215 ≤ 16777215 ∧ TimersSorted (live.disp.get .a)) ∧
    1024 ≤ (((withDisp { dispReset with timers := .replicate 1024 ⟨1, 3, 5⟩ }).disp).get .a).timers.length ∧ 16777215 < 16777216 ∧
    flagRefused { dispReset with timers := [⟨0, 3, 5⟩], tasks := [taskOne] } 3 5 = false ∧
    flagRefused { dispReset with heldFlags := [(3, 5)], tasks := [taskOne] } 3 5 = false ∧
    flagRefused { dispReset with heldFlags := [(3, 5)], tasks := [taskOne], queues := .replicate 12 (.replicate 64 7) } 3 5 = true ∧
    firstReady { dispReset with tasks := [taskOne], queues := (Vector.replicate 12 []).set 0 [3] } 0 0 = some 3 ∧
    dispReset.running.get 0 = none ∧ taskBeside.running.get 1 = some 4 ∧
    (findTask taskBeside 4).map (fun x => (x.ident, x.cls)) = some (4, 0) ∧ flagRefused taskBeside 3 5 = false ∧
    flagRefused { taskBeside with queues := .replicate 12 (.replicate 64 7) } 3 5 = true ∧ live.relay.active ≠ some .b ∧
    (findTask taskBeside 4).map raisedFlags = some [] ∧ ((List.range 3).all fun k => (firstReady taskBeside 1 k).isNone) = true ∧
    taskBeside.saved.get 1 = [] := by
  refine ⟨⟨by decide, by decide, ?_⟩, by decide +kernel⟩
  exact List.Pairwise.nil

def codingOne : Coding :=
  { pic := pictureReset, row := 0, stripe := 0, codedAt := 0, kind := .intra, qp := 30, budget := 100000, ek := 0,
    withheld := false, budgetHere := false, shares := .replicate 4 100000, reserved := 0, lead := [], tail := [],
    parts := .replicate 4 none, unit := .a, edges := [], source := .replicate 4 [] }

def partOne : Part :=
  { ctus := 10, done := 0, slicesBegun := 0, budget := 100000, spent := 0, fixedLeft := 0, lastQp := 30, codedBits := 0,
    codedCtus := 0, qpSum := 0, window := true, sliceQp := 30, prevQp := 30, heads := [], cus := [] }

def jobOne : Job := { stream := 0, stripe := 0, pixels := true, window := true, budget := true, space := true, fired := false }

/-- Stream 0 of 1280 × 800 on channels 0 to 3, one slice per part, coding its first stripe. -/
def coding : State := { withObjects live [(kStream 0 1, 1), (kStream 0 3, 15), (kStream 0 6, 1280), (kStream 0 7, 800), (kStream 0 8, 0),
    (kStream 0 9, 16), (kStream 0 0x0A, 1), (kFlow 0 1, 1), (kFlow 0 2, 0)] with
  streams := (Vector.replicate 16 streamReset).set 0 { streamReset with active := true, coding := some codingOne }
  disp := ⟨{ dispReset with jobs := .replicate 4 [jobOne] }, dispReset⟩ }

def wantedRow : WinRow := ⟨1, 0, 0, []⟩

/-- An inter stripe of the stream waits for a row of an earlier lap. -/
def fetching : State := { coding with
  streams := (Vector.replicate 16 streamReset).set 0 { streamReset with
    active := true
    coding := some { codingOne with kind := .inter, pic := { pictureReset with number := 1, intra := false, refs := 1 } }
    search := { searchReset with hasWindow := true, late := .replicate 4 true, owed := .replicate 4 [wantedRow] } } }

theorem witness_OperandsArriveAndJobsFire :
    (withStream { streamReset with search := { searchReset with spoiled := .replicate 4 true } }).streams[(0 : StreamId)].search.spoiled[(0 : Chan)] =
      true ∧
    fetching.streams[(0 : StreamId)].search.spoiled[(0 : Chan)] = false ∧ fetching.streams[(0 : StreamId)].search.late[(0 : Chan)] = true ∧
    fetching.streams[(0 : StreamId)].coding.map (fun k => k.kind) = some .inter ∧ carries fetching 0 0 = true ∧
    (fetching.streams[(0 : StreamId)].coding.map fun k => windowReady fetching 0 k.pic k.row 0) = some false ∧
    (fetching.streams[(0 : StreamId)].coding.map fun k => windowReady (after (exec (.windowFetchDone 0 0) fetching)) 0 k.pic k.row 0) = some true ∧
    live.streams[(0 : StreamId)].search.late[(0 : Chan)] = false ∧ live.streams[(0 : StreamId)].search.spoiled[(0 : Chan)] = false ∧
    (jobsOf coding 0).find? jobReady = some jobOne ∧ coding.disp.a.heldJobs = [] ∧ coding.disp.b.heldJobs = [] ∧
    coding.streams[jobOne.stream].coding = some codingOne ∧ codingOne.stripe = jobOne.stripe ∧
    (jobsOf live 0).find? jobReady = none := by decide +kernel

theorem witness_BudgetsAreTakenAndGranted :
    coding.streams[(0 : StreamId)].coding = some codingOne ∧ codingOne.budgetHere = false ∧ coding.relay.mode ≠ .draining ∧
    (withStream { streamReset with coding := some { codingOne with budgetHere := true } }).streams[(0 : StreamId)].coding =
      some { codingOne with budgetHere := true } ∧ live.streams[(0 : StreamId)].coding = none ∧
    ({ live with now := 64, lap := { lapReset with period := 2400 } } : State).lap.lastTick + 64 ≤ 64 ∧ 0 < 2400 ∧
    jobOne ∈ jobsOf coding 0 ∧ jobOne.pixels = true ∧ live.now < live.lap.lastTick + 64 ∧ live.lap.period = 0 := by decide +kernel

/-- The part of channel 0 is under way and its budget just covers its floor. -/
def partState : State := { coding with
  streams := (Vector.replicate 16 streamReset).set 0 { streamReset with
    active := true
    coding := some { codingOne with parts := .replicate 4 (some { partOne with budget := 1392 }) } } }

/-- All parts of the stripe are done, and each slice has its NAL unit. -/
def wholeCoding : Coding := { codingOne with parts := .replicate 4 (some { partOne with done := 10 }) }

theorem witness_CtuKeepsPartWithinBudget :
    (partState.streams[(0 : StreamId)].coding.bind fun k => k.parts.get 0) = some { partOne with budget := 1392 } ∧
    opensSlice (sliceList partState 0 0) 0 = true ∧ 0 < slicesNow partState 0 0 ∧ slicesNow partState 0 0 = 1 ∧
    0 + partNeed (slicesNow partState 0 0) { partOne with budget := 1392 } ≤ 1392 := by decide +kernel

theorem witness_CodedStripeJoinsFlight :
    stripeWhole coding 0 wholeCoding ⟨.replicate (slicesPerStripe coding 0) (.replicate 40 0), [], []⟩ = true ∧
    (withStream { streamReset with coding := some wholeCoding }).streams[(0 : StreamId)].coding = some wholeCoding ∧
    coding.streams[(0 : StreamId)].coding = some codingOne ∧
    stripeWhole coding 0 codingOne ⟨.replicate (slicesPerStripe coding 0) (.replicate 40 0), [], []⟩ = false := by decide +kernel

/-- Lines of one sample of Y that the two sides of a segment reconstructed. -/
def side (pre settled : Nat) : Reconstruction := ⟨[⟨0, 0, [pre]⟩], [⟨0, 0, [settled]⟩]⟩

def segmentOne (error : Option ErrClass) (bins : Nat) (enc dec : Reconstruction) : SegmentResult :=
  { stripe := 0, segment := 0, error := error, bins := bins, encoder := enc, decoder := dec, suppressed := true }

def sliceOne : Slice :=
  { addr := 0, ctus := 10, bytes := 100, chan := 0, tile := 0, segment := 0, verdict := none, firstSeq := 0, packets := 1,
    withheld := false, qp := 30, header := [], data := [] }

def stripeOne : Stripe :=
  { picture := 0, row := 0, poc := 0, irap := true, timestamp := 0, codedAt := 0, due := 2, tokenDue := 2, bits := 800, lead := [],
    tail := [], filler := 0, slices := [sliceOne], last := false, withheld := false, standIn := false, supersedes := false,
    judged := false, vouched := false, released := true, unit := .a, nalType := 20, tmvp := false, sao := false, hash := [],
    hashFiller := false, edges := [], releasedAt := 0, refs := 0 }

/-- Stream 0 of `coding` with a released stripe that waits for its verdict. -/
def verifying : State := { coding with
  streams := (Vector.replicate 16 streamReset).set 0 { streamReset with active := true, flight := [stripeOne] }
  lap := { lapReset with count := 1 } }

/-- A P stripe of a stream with a window, whose rows no verifier holds yet. -/
def unfetched : State := { verifying with
  streams := (Vector.replicate 16 streamReset).set 0 { streamReset with
    active := true, flight := [{ stripeOne with refs := 1 }], search := { searchReset with hasWindow := true } } }

theorem witness_VerificationJudgesSlices :
    awaitsVerdict verifying 0 0 = true ∧ verifierReady verifying 0 0 0 = true ∧ awaitsVerdict live 0 0 = false ∧
    awaitsVerdict unfetched 0 0 = true ∧ verifierReady unfetched 0 0 0 = false ∧
    departed { streamReset with flight := [stripeOne] } 0 0 = some (stripeOne, sliceOne) ∧ sliceOne.chan = 0 ∧
    departed streamReset 0 0 = none ∧ crc32c [1] ≠ crc32c [2] ∧
    preCrc verifying 0 0 (side 1 1) ≠ preCrc verifying 0 0 (side 2 1) ∧
    preCrc verifying 0 0 (side 1 1) = preCrc verifying 0 0 (side 1 2) ∧ settledCrc verifying 0 0 (side 1 1) ≠ settledCrc verifying 0 0 (side 1 2) ∧
    (segmentOne (some .e6) 0 (side 1 1) (side 1 1)).error = some .e6 ∧ (segmentOne (some .e2) 0 (side 1 1) (side 1 1)).error ≠ some .e6 ∧
    (segmentOne none 0 (side 1 1) (side 1 1)).error = none ∧ (segmentOne none 0 (side 1 1) (side 1 1)).bins ≤ binLimit verifying 0 ∧
    binLimit verifying 0 < (segmentOne none (binLimit verifying 0 + 1) (side 1 1) (side 1 1)).bins ∧
    verifying.chans[(0 : Chan)].verifyOn = true ∧ verifying.chans[(0 : Chan)].spoiled = false ∧ verifying.relay.active.isSome = true ∧
    ({ chanReset with spoiled := true } : Channel).spoiled = true ∧
    ({ chanReset with verifyOn := false } : Channel).verifyOn = false := by decide +kernel

/-- A picture of stream 0 is finished, with fewer than 4 blocks in the tracking rectangle of its lead channel. -/
def searched : State := { withObjects live [(kStream 0 1, 1), (kStream 0 3, 15), (kStream 0 6, 1280), (kStream 0 7, 800), (kStream 0 0x0A, 0),
    (kRect 0 0 1, 1), (kRect 0 0 7, 1), (kRect 0 0 2, 0), (kRect 0 0 4, 64 * 65536 + 64)] with
  streams := .replicate 16 { streamReset with search := { searchReset with finishedPicture := 1, finished := [⟨8, 8, 0, ⟨4, 4⟩⟩] } } }

/-- The same with 4 blocks in the rectangle, and with the estimates of the picture formed already. -/
def searchedFour (pending : List (Nat × Option Mv × Option Mv)) : State := { searched with
  streams := .replicate 16 { streamReset with search := { searchReset with
    finishedPicture := 1, finished := .replicate 4 ⟨8, 8, 0, ⟨4, 4⟩⟩, pending := pending } } }

theorem witness_VectorsOfFinishedPicture :
    searched.streams[(0 : StreamId)].search.finishedPicture ≠ 0 ∧
    (searched.streams[(0 : StreamId)].search.pending.any fun p =>
      decide (p.1 = searched.streams[(0 : StreamId)].search.finishedPicture + 2)) = false ∧
    intraOnly searched 0 = false ∧ applied searched (kRect (leadChan searched 0) 0 1) = 1 ∧
    applied searched (kRect (leadChan searched 0) 0 7) = 1 ∧ rectStream searched (leadChan searched 0) 0 = some 0 ∧
    (blocksIn searched 0 (leadChan searched 0) 0 searched.streams[(0 : StreamId)].search.finished).length < 4 ∧
    4 ≤ (blocksIn (searchedFour []) 0 (leadChan (searchedFour []) 0) 0 (searchedFour []).streams[(0 : StreamId)].search.finished).length ∧
    rectStream (searchedFour []) (leadChan (searchedFour []) 0) 0 = some 0 ∧ intraOnly (searchedFour []) 0 = false ∧
    ((searchedFour [(3, none, none)]).streams[(0 : StreamId)].search.pending.any fun p =>
      decide (p.1 = (searchedFour [(3, none, none)]).streams[(0 : StreamId)].search.finishedPicture + 2)) = true ∧
    intraOnly (withObjects live [(kStream 0 0x0A, 1)]) 0 = true ∧ live.streams[(0 : StreamId)].search.finishedPicture = 0 := by decide +kernel

/-! ### Dictionary writes -/

theorem witness_RefusedWritesChangeNothing :
    Served live 0 0x1017 ∧ rowsOf 0x1FFF = [] ∧ (rowsOf 0x1017 ≠ [] ∧ rowOf 0x1017 9 = none) ∧
    (rowOf 0x1018 1).map (fun r => r.acc) = some .ro ∧
    (rowOf 0x3800 5).map (fun r => (decide (r.acc = .ro), isBulk 0x3800 5 r, r.ty.bytes)) = some (false, false, 2) ∧
    (rowOf 0x1003 0).map (fun r => (decide (r.acc = .ro), isBulk 0x1003 0 r, r.rng.holds r.ty.bits 255)) =
      some (false, false, false) := by
  refine ⟨⟨by decide, by decide⟩, ?_⟩
  decide +kernel

theorem witness_PacerValuesAreChecked :
    Served live 0 (0x3800 + (15 : StreamId).val) ∧ leNat (leBytes 2 (51 * 256 + 52)) / 256 < leNat (leBytes 2 (51 * 256 + 52)) % 256 ∧
    51 < leNat (leBytes 2 (52 * 256)) / 256 ∧ 500 < leNat (leBytes 2 501) + besideValue live 0 (kPacer 15 7) ∧
    500 < leNat (leBytes 2 501) + besideValue live 0 (kPacer 15 6) ∧ 1000 < leNat (leBytes 2 1001) := by
  refine ⟨⟨by decide, by decide⟩, ?_⟩
  decide +kernel

/-- Inside one group 350 and 400 exceed 500 together. -/
theorem witness_PacerValuesAreChecked_group :
    500 < leNat (leBytes 2 400) + besideValue ({ live with dict := { live.dict with group := some ⟨0, 0, [(kPacer 15 6, 350)]⟩ } } : State) 0
      (kPacer 15 6) := by decide +kernel

/-- 0x1017:00 is RW, 0x3800:05 RWS, 0x2500:01 RWL. -/
theorem witness_PlainWritesAreStoredOrCounted :
    Served live 0 0x1017 ∧ Served live 0 0x2500 ∧ rowsOf 0x1017 ≠ [] ∧
    ((rowOf 0x1017 0).map fun r => (decide (r.acc = .rw), isBulk 0x1017 0 r, r.ty.bytes, r.rng.holds r.ty.bits 1000, r.clear)) =
      some (true, false, 2, true, 0) ∧
    valueRefused (touchClient live 0) 0 0x1017 0 1000 = none ∧
    (commandWrite 0 0x1017 0 1000 (leBytes 2 1000) (touchClient live 0)).isNone = true ∧
    ((rowOf 0x3800 5).map fun r => (decide (r.acc = .rws), r.rng.holds r.ty.bits (51 * 256), r.clear)) = some (true, true, 0) ∧
    valueRefused (touchClient live 0) 0 0x3800 5 (51 * 256) = none ∧
    (commandWrite 0 0x3800 5 (51 * 256) (leBytes 2 (51 * 256)) (touchClient live 0)).isNone = true ∧ live.dict.group = none ∧
    ((rowOf 0x2500 1).map fun r => (decide (r.acc = .rwl), isBulk 0x2500 1 r, r.ty.bytes, r.rng.holds r.ty.bits 64, r.clear)) =
      some (true, false, 1, true, 0) ∧
    valueRefused (touchClient live 0) 0 0x2500 1 64 = none ∧
    (commandWrite 0 0x2500 1 64 (leBytes 1 64) (touchClient live 0)).isNone = true ∧ rwlBusy live 0x2500 1 = false ∧
    rwlBusy { live with chans := .replicate 4 { chanReset with mode := .running } } 0x2500 1 = true := by
  refine ⟨⟨by decide, by decide⟩, ⟨by decide, by decide⟩, ?_⟩
  decide +kernel

def withGroup (owner : Client) : State := { live with
  now := 10 * cyclesPerSec
  dict := { live.dict with group := some ⟨owner, 0, [(kPacer 0 5, 51 * 256)]⟩ } }

theorem witness_CommitGroupsCommitAbandonOrTimeOut :
    Served live 0 0x2500 ∧ Served (withGroup 0) 0 0x2500 ∧ Served (withGroup 1) 0 0x2500 ∧ live.dict.group = none ∧
    (withGroup 0).dict.group.isSome = true ∧ ((withGroup 0).dict.group.map fun g => decide (g.owner = 0)) = some true ∧
    ((withGroup 1).dict.group.map fun g => decide (g.owner = 0)) = some false ∧
    ((withGroup 0).dict.group.map fun g => decide (g.openedAt + 10 * cyclesPerSec ≤ (withGroup 0).now)) = some true ∧
    0 < 0 + 10 * cyclesPerSec := by
  refine ⟨⟨by decide, by decide⟩, ⟨by decide, by decide⟩, ⟨by decide, by decide⟩, ?_⟩
  decide +kernel

def withChan (mode : ChanMode) : State := { live with
  now := 100
  chans := .replicate 4 { chanReset with mode := mode }
  lap := { lapReset with period := 2400, lastTick := 100 } }

theorem witness_RunControlAndVerifyEnable :
    Served live 0 (0x3000 + 0x100 * (3 : Chan).val) ∧ Served live 0 (0x3002 + 0x100 * (3 : Chan).val) ∧
    Served (withChan .running) 0 0x3000 ∧ Served (withChan .starting) 0 0x3000 ∧ Served (withChan .stopping) 0 0x3000 ∧
    (live.chans.get 3).mode = .stopped ∧ live.relay.active.isSome = true ∧ ((withChan .refused).chans.get 3).mode = .refused ∧
    ({ live with relay := relayReset } : State).relay.active = none ∧ ((withChan .running).chans.get 0).mode = .running ∧
    ((withChan .stopping).chans.get 0).mode = .stopping ∧
    inFirstLap (withChan .starting) = true ∧ inFirstLap live = false ∧ (withChan .starting).lap.dropped = false ∧
    phaseSettled (withChan .starting) = true ∧ ((withChan .starting).chans.get 0).mode = .starting ∧
    ((withChan .starting).chans.get 0).startedAt < (withChan .starting).lap.lastTick ∧
    channelDone (withChan .stopping) 0 = true ∧ (live.chans.get 0).mode ≠ .stopping ∧
    ({ live with maint := { maintReset with owner := some 0 } } : State).maint.owner = some 0 ∧ live.maint.owner ≠ some 0 := by
  refine ⟨⟨by decide, by decide⟩, ⟨by decide, by decide⟩, ⟨by decide, by decide⟩, ⟨by decide, by decide⟩, ⟨by decide, by decide⟩, ?_⟩
  decide +kernel

def withMap (mode : MapMode) (size : Nat) : State := { withObjects live [(kStream 0 1, 1), (kStream 0 3, 15)] with
  now := 200
  chans := .replicate 4 { chanReset with mode := .running }
  lap := { lapReset with period := 2400, nextTick := 200 }
  streams := .replicate 16 { streamReset with active := true, map := { mapReset with mode := mode, size := size, back := [51, 52] } } }

theorem witness_QpMapLoads :
    Served (withMap .loading 2) 0 (mapIndex 0 0) ∧ Served (withMap .commitPending 2) 0 (mapIndex 0 0) ∧
    writtenLead (withMap .loading 2) 0 = 0 ∧ writtenLead (withMap .commitPending 2) 0 = 0 ∧
    (withMap .loading 2).streams[(0 : StreamId)].map.mode = .loading ∧
    (withMap .commitPending 2).streams[(0 : StreamId)].map.mode = .commitPending ∧
    (withMap .loading 2).streams[(0 : StreamId)].map.back.length = 2 ∧ (withMap .loading 2).streams[(0 : StreamId)].map.size = 2 ∧
    (([0, 115] : List Byte).all fun b => decide (b.toNat ≤ 115)) = true ∧
    (withMap .loading 3).streams[(0 : StreamId)].map.back.length ≠ 3 ∧
    exchangeImminent { withMap .commitPending 2 with now := 0 } 0 = false ∧ exchangeImminent (withMap .commitPending 2) 0 = true := by
  refine ⟨⟨by decide +kernel, by decide +kernel⟩, ⟨by decide +kernel, by decide +kernel⟩, ?_⟩
  decide +kernel

def formOne : ReturnFormat :=
  { width := 640, height := 480, chroma := 1, profile := 1, constraints := 0, level := 90, bitDepth := 8, samples := 460800,
    samplesPerSecond := 13824000, periodNs := 33333333, ctus := 80, ctb := 64, ctuSamples := 6144, slices := 16, donDiff := 0, pictures := 4, reorder := 0,
    latency := none }

/-! ### Return decoder, TB1 -/

def retPicture : RetPicture :=
  { poc := 4, sequence := 0, timestamp := 0, irap := true, form := formOne, tiles := ⟨[], []⟩, missing := [], slices := 1, concealed := false, derived := true,
    motion := true, openedAt := 0, presentAt := 0, shown := true, waiting := true, reference := true, passed := 0 }

theorem witness_ReturnDecoderEnableStartsEmpty :
    Served live 0 0x4800 ∧ live.ret.enabled = false ∧ ({ retReset with enabled := true } : RetState).enabled = true ∧ 1 < 2 :=
  ⟨⟨by decide, by decide⟩, by decide, by decide, by decide⟩

def returning : State := { live with
  now := 100 * cyclesPerMs
  ret := { retReset with current := some retPicture, bumped := [retPicture], gapAt := some 0, nextSeq := some 7 } }

theorem witness_ReturnPicturesCloseAndLeave :
    returning.ret.current = some retPicture ∧ retPicture.presentAt ≤ tb0NsNow returning ∧ pictureDue returning = true ∧ pictureDue live = false ∧
    nextOutput ({ returning with ret := { returning.ret with current := none } }) = some retPicture ∧
    pictureDue ({ returning with ret := { returning.ret with current := none } }) = false ∧
    retPicture.openedAt + returnLimit retPicture ≤ returning.now ∧ live.now < retPicture.openedAt + returnLimit retPicture ∧
    returning.ret.gapAt = some 0 ∧ returning.ret.nextSeq = some 7 ∧ returning.relay.active.isSome = true ∧ gapOver returning 0 = true ∧
    gapOver { returning with ret := { returning.ret with setting := .replicate 8 200000 } } 0 = false := by decide +kernel

/-- A TB1 picture start is due at cycle 1,000,000,000, where the nominal period of TB1 lies within its own limits; none at cycle 0. -/
theorem witness_Tb1PeriodStaysWithinLimits :
    let s := withObjects live [(key 0x2203 2, 60), (key 0x2203 3, 1), (kMonitor 1, 3)]
    tb1Due { s with now := 1000000000 } ≤ ({ s with now := 1000000000 } : State).now * 256 ∧ s.now * 256 < tb1Due s ∧ tb1Nominal s - tb1Nominal s * 50 / 1000000 ≤ tb1PeriodNow s ∧ tb1PeriodNow s ≤ tb1Nominal s + tb1Nominal s * 50 / 1000000 ∧
    cfg s (kMonitor 1) = 3 ∧ s.relay.active.isSome = true ∧ State.reset.relay.active = none := by decide +kernel

/-! ### Lanes and links -/

/-- Link 0 on lanes 0 to 15, its lanes in one mode. -/
def lanesIn (l : Lane) : State := { withObjects live [(kLink 0 1, 1), (kLink 0 2, 0), (kLink 0 3, 16)] with
  now := 150
  lanes := ⟨.replicate 64 l, .replicate 64 l⟩ }

theorem witness_LaneEventsFollowTable :
    laneUsed (lanesIn laneReset) 0 = true ∧ laneUsed (lanesIn laneReset) 15 = true ∧
    (laneAt (lanesIn { laneReset with mode := .locked }) .a 0).mode = .locked ∧
    (laneAt (lanesIn laneReset) .a 0).mode = .down ∧ (laneAt (lanesIn laneReset) .a 0).lol = false ∧ (laneAt (lanesIn laneReset) .a 0).los = false ∧
    (laneAt (lanesIn { laneReset with mode := .idle }) .a 0).mode = .idle ∧ (laneAt (lanesIn laneReset) .a 0).mode ≠ .wake ∧
    (laneAt (lanesIn { laneReset with mode := .wake }) .a 0).mode = .wake ∧
    (laneAt (lanesIn { laneReset with mode := .wake }) .a 0).wakeAt + 150 ≤ (lanesIn laneReset).now ∧
    (lanesIn laneReset).now < (laneAt (lanesIn { laneReset with mode := .wake, wakeAt := 1 }) .a 0).wakeAt + 150 := by decide +kernel

/-- Blocks that a zero scrambler history leaves as they are in the byte of their type: idle, marker, wake. -/
theorem witness_BlocksLockAndLoseLanes :
    laneUsed (lanesIn { laneReset with mode := .hunt }) 15 = true ∧ (1 : BitVec 2) ≠ 2 ∧ (0 : BitVec 2) ≠ 1 ∧ (0 : BitVec 2) ≠ 2 ∧
    (laneAt (lanesIn { laneReset with mode := .hunt }) .a 15).mode = .hunt ∧
    127 ≤ (laneAt (lanesIn { laneReset with mode := .hunt, valid := 127 }) .a 15).valid ∧
    (laneAt (lanesIn { laneReset with mode := .hunt, valid := 126 }) .a 15).valid < 127 ∧
    (laneAt (lanesIn { laneReset with mode := .locked, window := 0x7FFF }) .a 15).mode = .locked ∧
    16 ≤ popCount ((laneAt (lanesIn { laneReset with mode := .locked, window := 0x7FFF }) .a 15).window <<< 1 ||| 1#64) ∧
    popCount ((laneAt (lanesIn { laneReset with mode := .locked, window := 0x7FFF }) .a 15).window <<< 1) < 16 ∧
    laneInverted (lanesIn laneReset) 15 = false ∧ isControl (flipBlock false ⟨1, 0x69⟩) = false ∧ isControl (flipBlock false ⟨2, 0x69⟩) = true ∧
    (descramble 0 0x69).1.toNat % 256 = 0x69 ∧ (descramble 0 0xA5).1.toNat % 256 = 0xA5 ∧
    (laneAt (lanesIn { laneReset with mode := .wake, valid := 15 }) .a 15).mode = .wake ∧
    wakeBlock (descramble 0 0xD4775D0FCC33C35A).1 = true := by
  decide +kernel

/-- Monochrome lines of 8 samples of 8 bits: one block a line. -/
def lineIn : State := { withObjects live [(kInput 1, 0), (kInput 2, 8), (kLink 0 1, 1), (kLink 0 5, 8), (key 0x2500 1, 16),
    (key 0x2500 2, 50), (key 0x2500 3, 50)] with
  links := ⟨.replicate 16 { linkReset with up := true }, .replicate 16 linkReset⟩ }

def linePacket (crcOk : Bool) : LinePacket :=
  let p : LinePacket := { blocks := 1, flags := 0, line := 16, alive := 7, payload := [0x0807060504030201], crc := 0, whole := true }
  { p with crc := if crcOk then lineCrc p else ~~~ lineCrc p }

theorem witness_LinePacketsAreAcceptedOrLost :
    ((lineIn.links.get .a).get 0).up = true ∧ ((live.links.get .a).get 0).up = false ∧ packetPicture lineIn ((lineIn.links.get .a).get 0) 16 false = 1 ∧
    windowOf lineIn (linkOpened lineIn ((lineIn.links.get .a).get 0)) 0 16 = .here ∧
    lineCrc (linePacket true) = (linePacket true).crc ∧ (linePacket true).blocks = bandBlocks lineIn 0 16 ∧ (linePacket true).whole = true ∧
    ((lineIn.links.get .a).get 0).lastLine ≠ some (16, 7) ∧ ((lineIn.links.get .a).get 0).expLine ≤ 16 ∧ 16 < activeLines lineIn ∧
    opensPicture (linePacket true) = false ∧ opensPicture { linePacket true with line := 0, flags := 1 } = true ∧
    ((lineIn.links.get .a).get 0).picture < packetPicture lineIn ((lineIn.links.get .a).get 0) 0 true ∧
    lineCrc (linePacket false) ≠ (linePacket false).crc ∧
    windowOf { lineIn with lap := { lapReset with period := 2400, inPicture := 3 } } false 0 (linePacket true).line = .late ∧
    lineIn.relay.active = some .a ∧ lineIn.capture.writing = none := by decide +kernel

theorem witness_DescriptorAndPhaseFlags :
    assocWf defaultOf live.regs = true ∧ live.relay.active = some .a ∧
    ({ phaseReset with fault := true } : PhaseState).fault = true ∧
    64 ≤ ({ phaseReset with fault := true, cleanPictures := 64 } : PhaseState).cleanPictures ∧
    ({ phaseReset with fault := true, cleanPictures := 63 } : PhaseState).cleanPictures < 64 := by decide +kernel

/-! ### Ports and flows -/

def frameOne : Frame :=
  { dst := 0xAA, src := 0xBB, tagged := false, etherType := 0x88B5, len := 64, fcsOk := true, srcIp := 0, dstIp := 0, ipOdd := false,
    srcPort := 0, dstPort := 0, udpSumOk := true, skew := 0, stampError := 0, body := .other }

/-- Port P0 serves and is a member of the bridge. -/
def bridged : State := withObjects live [(kPort 0 1, 1), (kPort 0 9, 1), (key 0x2400 1, 1)]

theorem witness_ReceivedFramesCountAndTeach :
    portServes State.reset 0 = false ∧ portServes bridged 0 = true ∧ frameOne.fcsOk = true ∧ 64 ≤ frameOne.len ∧
    frameOne.len ≤ bridged.flash.limit.frameLimit.get 0 ∧ meterOf bridged 0 frameOne = none ∧ frameOne.body ≠ .flowControl ∧
    ({ frameOne with body := .flowControl } : Frame).body = .flowControl ∧ meterOf bridged 0 { frameOne with body := .flowControl } = none ∧
    isMember bridged 0 = true ∧
    cfg bridged (key 0x2400 1) = 1 ∧ frameOne.dst / 16 ≠ 0x0180C200000 ∧ bridged.flash.limit.macs.toList.contains frameOne.src = false ∧
    bridged.flash.limit.frameLimit.get 0 < 1523 ∧ (bridged.bridge.get .a).learned.length < 4096 ∧
    (∀ v, frameOne.body ≠ .ptpMetadata v) ∧ ∀ r, frameOne.body ≠ .rtp r := by
  refine ⟨by decide +kernel, by decide +kernel, by decide, by decide, by decide +kernel, by decide +kernel, by decide, by decide, by decide +kernel,
    by decide +kernel, by decide +kernel, by decide, by decide +kernel, by decide +kernel, by decide +kernel, ?_, ?_⟩
  · intro v h; cases h
  · intro r h; cases h

/-- Flow F16 on port P0 sends to 10.0.0.2 on the port's subnet, whose address is not resolved. -/
def unresolved (l : List ArpEntry) (now : Nat) : State := { withObjects live [(kPort 0 1, 1), (kPort 0 6, 0xA000001), (kPort 0 7, 24),
    (kFlow 16 1, 1), (kFlow 16 0x11, 0x00FF), (kFlow 16 0x15, 0xA000002)] with
  now := now
  bridge := ⟨{ learned := [⟨0xBB, 0, 0⟩], arp := l }, bridgeReset⟩ }

theorem witness_AddressesAreAskedAndAged :
    activeUnit (unresolved [] 0) = true ∧ needsAddress (unresolved [] 0) 0 0xA000002 = true ∧ arpEntry (unresolved [] 0) 0 0xA000002 = none ∧
    needsAddress (unresolved [⟨0, 0xA000002, none, 0⟩] cyclesPerSec) 0 0xA000002 = true ∧
    (arpEntry (unresolved [⟨0, 0xA000002, none, 0⟩] cyclesPerSec) 0 0xA000002).map (fun e => (e.mac, decide (e.askedAt + cyclesPerSec ≤ cyclesPerSec))) =
      some (none, true) ∧
    (arpEntry (unresolved [⟨0, 0xA000002, some 5, 0⟩] (60 * cyclesPerSec)) 0 0xA000002).map
      (fun e => (e.mac.isSome, decide (e.askedAt + 60 * cyclesPerSec ≤ 60 * cyclesPerSec))) = some (true, true) ∧
    arpTarget (unresolved [] 0) 0 (destinationOf (unresolved [] 0) 16 false) = 0xA000002 := by
  decide +kernel

def packetOne : Packet :=
  { kind := .media 0 0, frame := 500, charge := 400, seq := 0, timestamp := 0, marker := false, srcMac := 1, entered := 0 }

/-- Flow F252, the bridged flow of P0, holds one packet. -/
def withFlow (x : Flow) : State := { bridged with flows := bridged.flows.set 252 x }

/-- Flow F252, the bridged flow of P0, holds one packet; with and without shaping. -/
theorem witness_ShaperAdmitsConformingPackets :
    (withFlow { flowReset true 2 with queue := [packetOne], tokens := 2 ^ 24 }).flows[(252 : FlowId)].queue = [packetOne] ∧
    servingPaths (withFlow { flowReset true 2 with queue := [packetOne], tokens := 2 ^ 24 }) 252 ≠ [] ∧
    servingPaths ({ withFlow { flowReset true 2 with queue := [packetOne] } with ports := .replicate 4 portReset }) 252 = [] ∧
    ((servingPaths (withFlow { flowReset true 2 with queue := [packetOne], tokens := 2 ^ 24 }) 252).all fun x =>
      decide ((pathOf (withFlow { flowReset true 2 with queue := [packetOne] }).flows[(252 : FlowId)] x.2).queue.length < 4)) = true ∧
    chargeOf bridged 252 packetOne * 2 ^ 24 ≤ 2 ^ 24 ∧ 2 ^ 24 - 1 < chargeOf bridged 252 packetOne * 2 ^ 24 ∧
    flowRate bridged 252 = 0 ∧ flowRate (withObjects bridged [(kFlow 252 4, 1000)]) 252 ≠ 0 ∧
    (withFlow (flowReset true 2)).flows[(252 : FlowId)].queue = [] := by decide +kernel

/-- The same packet waits on the path, and in the receive buffer. -/
def pathed : State := withFlow { flowReset true 2 with primary := { pathReset with queue := [packetOne], idle := false } }

/-- The same path with a packet of a foreign source address, and with an empty emission bucket. -/
def foreign : State := withFlow { flowReset true 2 with primary := { pathReset with queue := [{ packetOne with srcMac := 99 }], idle := false } }

def drained : State := { pathed with ports := .replicate 4 { portReset with up := true, txIdle := false, selected := some .a, bucket := 0 } }

def waitingOne : State := { bridged with ports := .replicate 4 { portReset with up := true, receive := [⟨packetOne, [0]⟩] } }

theorem witness_FramesStartAndQueuesDrain :
    canStart pathed 0 = true ∧ topClass pathed 0 = some 0 ∧ pickFlow pathed 0 0 = some (252, 0) ∧ headOn pathed 0 252 = some packetOne ∧
    sourceLocked pathed 0 packetOne = false ∧ (frameCut pathed 0 packetOne + 20) * 2 ^ 24 ≤ (pathed.ports.get 0).bucket ∧
    canStart foreign 0 = true ∧ topClass foreign 0 = some 0 ∧ pickFlow foreign 0 0 = some (252, 0) ∧
    headOn foreign 0 252 = some { packetOne with srcMac := 99 } ∧ sourceLocked foreign 0 { packetOne with srcMac := 99 } = true ∧
    canStart drained 0 = true ∧ topClass drained 0 = some 0 ∧ pickFlow drained 0 0 = some (252, 0) ∧ headOn drained 0 252 = some packetOne ∧
    sourceLocked drained 0 packetOne = false ∧ (drained.ports.get 0).bucket < (frameCut drained 0 packetOne + 20) * 2 ^ 24 ∧
    canStart live 0 = false ∧
    (withFlow { flowReset true 2 with draining := true }).flows[(252 : FlowId)].draining = true ∧
    (withFlow { flowReset true 2 with draining := true }).flows[(252 : FlowId)].queue = [] ∧
    waitingOne.ports[(0 : PortId)].receive = [⟨packetOne, [0]⟩] ∧ ([0] : List PortId).Nodup ∧
    flowTakes waitingOne (bridgedFlow 0) [packetOne] = true ∧ live.ports[(0 : PortId)].receive = [] ∧
    serves live 0 (0x4000 + (255 : FlowId).val) = true := by decide +kernel

/-- Stream 0 holds the token of tick 5 for its integrity flow F16. -/
def tokensHeld : State := { withObjects bridged [(kStream 0 1, 1), (kStream 0 3, 1), (kVerify 0 0 2, 16), (kFlow 16 1, 1)] with
  flows := bridged.flows.set 16 { flowReset false 2 with enabled := true }
  streams := .replicate 16 { streamReset with tokenStore := [(5, [0])] } }

theorem witness_FramesStartAndQueuesDrain_tokens :
    oldestTick tokensHeld 16 = some 5 ∧ tokenFlow 16 = true ∧
    flowTakes tokensHeld 16 (tokenPackets tokensHeld 16 ((tokenStreams tokensHeld 16).flatMap fun n =>
      (tokensHeld.streams[n].tokenStore.filter fun x => x.1 == 5).flatMap fun x => x.2)) = true := by decide +kernel

/-! ### Time -/

def genlock (t : TimeState) (now : Nat) : State := { withObjects live [(key 0x2203 1, 1)] with now := now, time := t }

theorem witness_GenlockAndOutputPins :
    cfg (genlock timeReset 0) (key 0x2203 1) = 1 ∧ genWindow = 3000 ∧
    (6000 ≤ 3000 + genWindow ∧ 3000 ≤ 6000 + genWindow) ∧ (0 ≤ 3000 + genWindow ∧ 3000 ≤ 0 + genWindow) ∧ 3000 + genWindow < 6001 ∧
    0 + genWindow < 3001 ∧ ({ timeReset with genLocked := true } : TimeState).genLocked = true ∧ timeReset.genExpected = none ∧
    ({ timeReset with genExpected := some 3000, genEdges := 7 } : TimeState).genLocked = false ∧
    lateEdge (genlock { timeReset with genExpected := some 100000000, genCounted := true } 0) 100000000 = true ∧
    (genlock timeReset 0).now + genWindow < 100000000 ∧ lateEdge (genlock timeReset 0) 100000000 = false ∧
    secondDue (genlock timeReset 1) = false ∧ secondDue (genlock { timeReset with tb0 := 10 ^ 9 * 2 ^ 32 } 0) = true ∧
    syncDue live 1 0 = true ∧ syncDue live 1 500 = false ∧ 2 ≤ 2 ∧ 1 < 2 ∧
    cfg live (key 0x2203 1) ≠ 1 ∧
    live.time.servo ≠ .holdover ∧ ({ timeReset with servo := .holdover } : TimeState).servo = .holdover ∧ assocWf defaultOf live.regs = true ∧
    regGet live (kTime 0x0E) < 2 ^ 32 - 1 ∧
    fieldOf (cfg (withObjects live [(key 0x2204 1, 0x84000000)]) (key 0x2204 (1 + (0 : Fin 4).val))) 26 24 = 4 ∧
    fieldOf (cfg (withObjects live [(key 0x2204 1, 0x81000000)]) (key 0x2204 (1 + (0 : Fin 4).val))) 26 24 = 1 ∧
    fieldOf (cfg (withObjects live [(key 0x2204 1, 0x87000000)]) (key 0x2204 (1 + (0 : Fin 4).val))) 26 24 = 7 ∧
    fieldOf (cfg live (key 0x2204 (1 + (3 : Fin 4).val))) 26 24 = 0 := by decide +kernel

def syncOne (twoStep : Bool) : PtpSync :=
  { seqId := 9, domain := 0, sourceId := 1, twoStep := twoStep, t1 := ⟨0, 0⟩, correction := 0, skew := 0, stampError := 0, logInterval := 0 }

def announceOne : PtpAnnounce :=
  { gmId := 1, priority1 := 128, clockClass := 6, clockAccuracy := 0x20, variance := 0, priority2 := 128, stepsRemoved := 0, sourceId := 1,
    sourceIp := 0, timeTraceable := true, utcOffset := 37, domain := 0, logInterval := 0 }

/-- PTP runs on all four ports, P0 is selected and hears one master. -/
def synced (t : TimeState) : State := { withObjects bridged [(key 0x2201 1, 15), (key 0x2201 2, 0), (key 0x2201 5, 3)] with
  now := 3 * cyclesPerSec
  time := { t with selected := some 0, masters := (Vector.replicate 4 ⟨[], 0⟩).set 0 ⟨[⟨announceOne, 0⟩], 0⟩ } }

def waitingSync : WaitingSync := ⟨0, syncOne true, ⟨0, 0⟩, .a⟩

theorem witness_PtpExchangesMakeSamples :
    ptpRuns (synced timeReset) 0 = true ∧ fromMaster (synced timeReset) 0 0 1 = true ∧ fromMaster (synced timeReset) 0 5 1 = false ∧
    fromMaster (synced timeReset) 0 0 2 = false ∧ (synced timeReset).time.selected = some 0 ∧ (syncOne true).twoStep = true ∧
    (syncOne false).twoStep = false ∧ syncInterval 1 = true ∧ syncInterval (-7) = true ∧ syncInterval 2 = false ∧ syncInterval (-8) = false ∧
    (synced { timeReset with sync := some waitingSync }).time.sync = some waitingSync ∧ live.time.sync = none ∧
    waitingSync.port = 0 ∧ waitingSync.sync.seqId = 9 ∧ waitingSync.sync.sourceId = 1 ∧
    (synced { timeReset with request := some ⟨0, 9, 0, some 5⟩ }).time.request = some ⟨0, 9, 0, some 5⟩ ∧ 9 ≠ 8 ∧
    ptpRuns State.reset 0 = false ∧
    requestDue (synced timeReset) = true ∧ requestDue (synced { timeReset with requestAt := some (3 * cyclesPerSec) }) = false := by
  decide +kernel

/-- The master of P0 alone, locked to. -/
def mastered : State := synced { timeReset with servo := .locked }

theorem witness_MastersComeAndGo :
    ptpRuns { synced timeReset with time := timeReset } 0 = true ∧ announceOne.domain = cfg (synced timeReset) (key 0x2201 2) ∧
    ({ announceOne with domain := 5 } : PtpAnnounce).domain ≠ cfg (synced timeReset) (key 0x2201 2) ∧
    timeReset.masters = .replicate 4 ⟨[], 0⟩ ∧ timeReset.selected = none ∧ timeReset.grandmaster ≠ announceOne.gmId ∧
    (portMaster mastered 0).isSome = true ∧ ptpOn mastered 0 = true ∧
    (∀ r : PortId, (mastered.time.masters.get r).better < 4) ∧
    (mastered.time.masters.get 0).heard = [⟨announceOne, 0⟩] ∧ (∀ q : PortId, q ≠ 0 → (mastered.time.masters.get q).heard = []) ∧
    mastered.time.selected = some 0 ∧ mastered.time.servo = .locked ∧
    0 + announceTimeout mastered announceOne ≤ mastered.now := by decide +kernel

/-! ### DRAM -/

/-- A request of 8 bytes of a context that maps addresses onto themselves. -/
def request (write : Bool) : DramRequest :=
  { ctx := 14, vaddr := 64, size := 8, write := write, data := if write then [1, 2, 3, 4, 5, 6, 7, 8] else [], age := 0,
    user := .otherRealTime, ecc := .clean }

theorem witness_DramWritesStoreExactlyTheirBytes :
    pickRequest live .a 1 [request true] = some (request true) ∧ pickRequest live .a 1 [request false] = some (request false) ∧
    serveHeld live .a = live ∧
    (live.dram.get .a).refresh = .active ∧ assocWf unlistedByte (live.dram.get .a).mem = true ∧ (request true).write = true ∧
    (request false).write = false ∧ (request false).ecc = .clean ∧ partialWrite 64 8 = false ∧ partialWrite 64 7 = true ∧
    pickRequest live .a 1 [{ request false with user := .engineTask 3, ecc := .uncorrectable }] =
      some { request false with user := .engineTask 3, ecc := .uncorrectable } ∧
    pickRequest live .a 1 [{ request false with user := .windowFetch 2, ecc := .uncorrectable }] =
      some { request false with user := .windowFetch 2, ecc := .uncorrectable } ∧ live.relay.active = some .a ∧
    findTask ((withDisp { dispReset with tasks := [taskOne] }).disp.get .a) 3 = some taskOne ∧
    (translate live .a 14 64 true).toOption = some 64 := by decide +kernel

def withDram (d : DramState) (now : Nat) : State := { live with now := now, dram := ⟨d, d⟩ }

/-- The capture in a mode, with a ring of 4 pictures and a running channel. -/
def capturing (mode : CaptureMode) : State := { live with
  chans := .replicate 4 { chanReset with mode := .running }
  capture := { captureReset with mode := mode, capacity := 4, timePending := true } }

/-- A request that waits for the exit from self-refresh, and one that meets an entry. -/
theorem witness_DramWritesStoreExactlyTheirBytes_resting :
    pickRequest (withDram { dramReset with refresh := .inside } 0) .a 1 [request true] = some (request true) ∧
    ((withDram { dramReset with refresh := .exiting, refreshAt := 432 } 431).dram.get .a).refresh = .exiting ∧
    (withDram { dramReset with refresh := .exiting, refreshAt := 432 } 431).now < 432 ∧
    pickRequest (withDram { dramReset with refresh := .exiting, refreshAt := 432 } 431) .a 1 [request true] = some (request true) ∧
    ((withDram { dramReset with refresh := .entering } 0).dram.get .a).refresh = .entering ∧
    pickRequest (withDram { dramReset with refresh := .entering } 0) .a 1 [request true] = some (request true) ∧
    (translate (withDram { dramReset with refresh := .entering } 0) .a 14 64 true).toOption = some 64 := by decide +kernel

theorem witness_RefreshAndUpkeepKeepMemory :
    ((withDram { dramReset with chan := .replicate 32 { dramChannelReset with debt := 8 } } 0).dram.get .a).refresh ≠ .inside ∧
    ((withDram { dramReset with refresh := .inside } 0).dram.get .a).refresh = .inside ∧
    serveHeld (withDram dramReset 733) .a = withDram dramReset 733 ∧ intervalDue (withDram dramReset 733) .a 0 = true ∧
    intervalDue (withDram dramReset 732) .a 0 = false ∧ -8 ≤ ({ dramChannelReset with debt := -8 } : DramChannel).debt ∧ ({ dramChannelReset with debt := 8 } : DramChannel).debt ≤ 8 ∧
    blankLap { live with lap := { lapReset with period := 2400, dropped := true } } = true ∧ chooseRefresh dramChannelReset (min 8 (dramChannelReset.debt + 1)) (.replicate 8 1) = .postpone ∧
    chooseRefresh dramChannelReset (min 8 (dramChannelReset.debt + 1)) (.replicate 8 0) = .take 0 false ∧
    (dramReset.polledAt + cyclesPerMs ≤ (withDram dramReset cyclesPerMs).now ∧ (withDram dramReset 0).now < dramReset.polledAt + cyclesPerMs ∧
      (∃ c : DramChan, 4 < (Vector.replicate 32 5 : Vector Nat 32).get c) ∧ (∃ c : DramChan, 1 < (Vector.replicate 32 2 : Vector Nat 32).get c) ∧
      (∀ c : DramChan, (Vector.replicate 32 2 : Vector Nat 32).get c ≤ 4) ∧ deviceRate dramReset ≤ 1 ∧ dramReset.overRange = false ∧ live.relay.active = some .a ∧ assocWf defaultOf live.regs = true) ∧
    dramReset.hammerWindow ≠ tb3Window (withDram dramReset (32 * cyclesPerMs)) ∧ dramReset.scrubbing = false ∧
    dramReset.hammerWindow = tb3Window (withDram dramReset 0) ∧
    dramReset.driftAt + 16 * cyclesPerMs ≤ (withDram dramReset (16 * cyclesPerMs)).now ∧ (withDram dramReset 0).now < dramReset.driftAt + 16 * cyclesPerMs ∧ (withDram dramReset 0).now < dramReset.latchedAt + 32 * cyclesPerMs ∧
    dramReset.scrubStart + 60 * cyclesPerSec ≤ (withDram dramReset (60 * cyclesPerSec)).now ∧
    ((withDram { dramReset with scrubbing := true, scrubRate := 1 } (60 * cyclesPerSec)).dram.get .a).scrubbing = true ∧
    (withDram { dramReset with scrubbing := true, scrubRate := 1 } (60 * cyclesPerSec)).now <
      0 + scrubCycles (withDram { dramReset with scrubbing := true, scrubRate := 1 } (60 * cyclesPerSec)) .a ∧
    (withDram { dramReset with scrubRate := 1 } 0).now < 0 + 60 * cyclesPerSec ∧ ({ dramReset with scrubRate := 1 } : DramState).scrubRate ≠ 0 ∧
    dramReset.latchedAt + 32 * cyclesPerMs ≤ (withDram dramReset (32 * cyclesPerMs)).now ∧ standbyOf State.reset = none ∧
    standbyOf (withDram { dramReset with refresh := .inside } (50 * cyclesPerMs)) = some .b ∧
    dramReset.recentredAt + 50 * cyclesPerMs ≤ (withDram dramReset (50 * cyclesPerMs)).now := by decide +kernel

theorem witness_SelfRefreshKeepsMemory :
    serveHeld (withDram dramReset 0) .a = withDram dramReset 0 ∧
    (∀ c : DramChan, (dramReset.chan.get c).debt ≤ 8 ∧ (dramReset.chan.get c).refreshed ≠ 0xFF) ∧
    mayRest (withDram dramReset 0) .a = true ∧ mayRest (withDram dramReset 0) .b = true ∧ mayRest (capturing .armed) .a = false ∧
    dramReset.refresh = .active ∧ dramReset.refresh ≠ .entering ∧ dramReset.refresh ≠ .inside ∧
    dramReset.lastRequest + cfg live (kDram 1) * cyclesPerUs ≤ (withDram dramReset (cfg live (kDram 1) * cyclesPerUs)).now ∧
    ({ dramReset with refresh := .entering } : DramState).refresh = .entering ∧
    dramReset.committedAt + 23 ≤ (withDram { dramReset with refresh := .inside } 23).now ∧
    (withDram { dramReset with refresh := .inside } 22).now < dramReset.committedAt + 23 ∧
    (withDram dramReset (100 * cyclesPerMs)).now ≤ dramReset.committedAt + 100 * cyclesPerMs ∧ dramReset.tempChanged = false ∧
    ({ dramReset with tempChanged := true } : DramState).tempChanged = true ∧ dramReset.maskZero = false := by decide +kernel

/-! ### Lap tick, DMA, capture -/

theorem witness_LapTickAdvancesTheLap :
    tickDue { live with now := 15000 } = true ∧ tickDue { live with now := 14999 } = false := by decide

theorem witness_ContextFaultKillsTheTask :
    (dispReset.saved.get 0 = [] ∧ ({ dispReset with saved := .replicate 64 [3] } : DispState).saved.get 0 = 3 :: []) ∧
    dmaActive { dmaReset with mode := .stalled, owner := some 3 } = true ∧ dmaReset.owner ≠ some 3 := by decide +kernel

/-- One element of 4 bytes from address 0 to address 64 of the DRAM, through contexts that map addresses onto themselves. -/
def copyOne : Descriptor :=
  { nextAddr := 0, srcAddr := 0, dstAddr := 64, srcStep := .replicate 3 0, dstStep := .replicate 3 0, count := zeroPos, timestamp := 0,
    rowBase := 0, pktElems := 0, srcCtx := 14, dstCtx := 14, flow := 0, elemBytes := 4, dstKind := 0, markLast := false, fence := false,
    eventDone := false }

/-- The bytes of `copyOne` at address 128, written out from 12_translation_dma.md Table 12-3, and an empty descriptor at 192. -/
def withDescriptors : State := { live with dram := ⟨{ dramReset with mem := [⟨132, 0x80⟩, ⟨134, 0xE0⟩, ⟨135, 0x38⟩, ⟨174, 64⟩] }, dramReset⟩ }

def startAt (addr : Nat) : Dma := { dmaReset with descAddr := addr, ctx := 14, owner := some 3 }

theorem test_descriptor_bytes :
    (fetchedDescriptor (modDma withDescriptors .a 4 fun _ => startAt 128) .a 4).toOption = some copyOne := by decide +kernel

/-- The element's packet: what a readout sends with one element in progress. -/
def packetised (d : Dma) : State := { withFlow (flowReset true 2) with dma := ⟨.replicate 16 d, .replicate 16 d⟩ }

def withDma (d : Dma) : State := { live with dma := ⟨.replicate 16 d, .replicate 16 d⟩ }

theorem witness_DescriptorsAreFetchedAndCompleted :
    (dmaAt withDescriptors .a 4).mode = .idle ∧ (dmaAt withDescriptors .a 4).desc = none ∧ (dmaAt withDescriptors .a 4).awaitLanded = false ∧
    (translate withDescriptors .a (chanContext 4 (startAt 128)) (startAt 128).descAddr false).toOption = some 128 ∧
    (translate withDescriptors .a (chanContext 4 { startAt 128 with ctx := 0 }) (startAt 128).descAddr false).toOption = none ∧
    (startAt 128).descAddr / 64 * 64 = 128 ∧
    (dmaAt (withDma { dmaReset with mode := .stopped, owner := some 3 }) .a 4).mode = .stopped ∧
    (dmaAt (withDma { dmaReset with mode := .stopped, owner := some 3 }) .a 4).owner = some (⟨0, 14, 3, true⟩ : DmaStart).task ∧
    (⟨0, 14, 3, true⟩ : DmaStart).resume = true ∧ (⟨0, 14, 3, false⟩ : DmaStart).resume = false ∧
    descriptorInvalid copyOne = false ∧
    ((fetchedDescriptor (modDma withDescriptors .a 4 fun _ => startAt 192) .a 4).toOption.map descriptorInvalid) = some true ∧
    (fetchedDescriptor (modDma withDescriptors .a 4 fun _ => { startAt 128 with ctx := 0 }) .a 4).toOption = none ∧
    (dmaAt (withDma { dmaReset with mode := .running, desc := some copyOne }) .a 4).desc = some copyOne ∧
    finishedPos { copyOne with count := zeroPos } #v[0, 0, 1] = true ∧
    (dmaAt (withDma { dmaReset with mode := .running, desc := some copyOne }) .a 4).packetElems = 0 ∧
    (dmaAt (withDma { dmaReset with mode := .stalled, desc := some copyOne }) .a 4).mode = .stalled ∧
    flowTakes (packetised { dmaReset with packetElems := 1 }) 252
      [readoutPacket (packetised { dmaReset with packetElems := 1 }) .a 4 { copyOne with flow := 252 } zeroPos true] = true ∧
    flowTakes live 16 [readoutPacket (withDma dmaReset) .a 4 copyOne zeroPos true] = false := by decide +kernel

/-- Channel 4 alone runs. -/
def bursting (x : Descriptor) : State := modDma live .a 4 fun _ => { dmaReset with mode := .running, desc := some x }

theorem witness_BurstCopiesTheElement :
    (dmaAt (withDma dmaReset) .a 4).desc = none ∧ burstTurn (bursting copyOne) .a = some 4 ∧ burstTurn (bursting copyOne) .a ≠ some 5 ∧
    burstTurn (bursting { copyOne with dstKind := 1, elemBytes := 2, flow := 252, pktElems := 1 }) .a = some 4 ∧
    (dmaAt (bursting copyOne) .a 4).desc = some copyOne ∧
    (dmaAt (withDma dmaReset) .a 4).mode ≠ .running ∧ (dmaAt (withDma { dmaReset with mode := .running, desc := some copyOne }) .a 4).mode = .running ∧
    descriptorInvalid copyOne = false ∧ copyOne.dstKind = 0 ∧
    descriptorInvalid { copyOne with dstKind := 1, elemBytes := 2, flow := 252, pktElems := 1 } = false ∧
    copyOne.count = zeroPos ∧ dmaReset.pos = zeroPos ∧ dmaReset.bytePos = 0 ∧ dmaReset.packetElems = 0 ∧
    assocWf unlistedByte (live.dram.get .a).mem = true ∧
    (∀ i : Fin 4, (match translateInt (bursting copyOne) .a (sourceContext 4 copyOne) (copyOne.srcAddr + i.val) false with
      | .ok a => some a | .error _ => none) = some i.val) ∧
    (∀ i : Fin 4, (match translateInt live .a copyOne.dstCtx (copyOne.dstAddr + i.val) true with
      | .ok a => some a | .error _ => none) = some (64 + i.val)) ∧
    ∀ i j : Fin 4, 64 + i.val = 64 + j.val → i = j := by decide +kernel

theorem witness_CaptureFollowsCommandsAndTriggers :
    Served (capturing .idle) 0 0x2900 ∧ anyChannelRunning (capturing .idle) = true ∧ 0 < (capturing .idle).capture.capacity ∧
    anyChannelRunning live = false ∧ (capturing .armed).capture.mode = .armed ∧ (capturing .lost).capture.mode = .lost ∧
    (capturing .armed).capture.mode ≠ .held ∧
    ((applied (withObjects live [(kCapture 4, 0x88)]) (kCapture 4)).testBit (3 : Fin 4).val = true ∧
      (applied (withObjects live [(kCapture 4, 0x88)]) (kCapture 4)).testBit (4 + (3 : Fin 4).val) = true) ∧
    (applied live (kCapture 4)).testBit (0 : Fin 4).val = false ∧
    (capturing .armed).capture.timePending = true ∧ cfg (capturing .armed) (kCapture 5) ≤ tb0Value (capturing .armed) ∧
    live.capture.timePending = false ∧ (1 : BitVec 128) ≠ 0 ∧ (1 : BitVec 128).toNat ≤ tb0Value { live with time := { timeReset with tb0 := 10 ^ 9 * 2 ^ 32 } } := by
  refine ⟨⟨by decide, by decide⟩, ?_⟩
  decide +kernel

/-- One picture of 8 × 16 monochrome samples is held for readout 0 on flow F16. -/
def reading (running : Bool) : State := { withObjects live [(kInput 1, 0), (kInput 2, 8), (kInput 3, 8), (key 0x2500 1, 16), (key 0x2500 3, 1),
    (kReadout 0 1, 16), (kReadout 0 3, 0), (kReadout 0 4, 0), (kReadout 0 5, 0), (kReadout 0 6, 1), (kFlow 16 0x1C, 1), (kFlow 16 0x1B, 1500)] with
  flows := live.flows.set 16 { flowReset false 2 with enabled := true }
  dma := ⟨.replicate 16 { dmaReset with mode := .stopped }, .replicate 16 dmaReset⟩
  capture := { captureReset with
    mode := .held, capacity := 1, slots := [⟨0, 0, 0, 0, 0, true⟩], readouts := .replicate 4 { running := running, todo := [0] } } }

theorem witness_ReadoutsStartAbortAndResume :
    Served (reading false) 0 (0x2901 + (0 : ReadoutId).val) ∧ readoutReason (reading false) 0 = 0 ∧
    (reading false).capture.readouts[(0 : ReadoutId)].running = false ∧ 0 < cfg (reading false) (kReadout 0 6) ∧
    readoutReason live 0 ≠ 0 ∧ (reading true).capture.readouts[(0 : ReadoutId)].running = true ∧
    dmaActive (dmaAt (withDma { dmaReset with mode := .running }) (viewUnit live) (readoutDma 0)) = true ∧
    (dmaAt (reading false) (viewUnit (reading false)) (readoutDma 0)).mode = .stopped ∧
    (reading false).capture.readouts[(0 : ReadoutId)].todo ≠ [] := by
  refine ⟨⟨by decide +kernel, by decide +kernel⟩, ?_⟩
  decide +kernel

/-! ### Relay -/

def withRelay (r : RelayState) : State := { live with now := 60 * cyclesPerSec, relay := r }
def exposedA : RelayState := { relayReset with active := some .a, mode := .exposed }
def readyRegs : Store := [(kRelayStatus, 2 ^ 31)]

theorem witness_RelayCommandsAndReversion :
    Served live 0 0x2010 ∧ Served (withRelay { exposedA with mode := .lockedOut, fault := some 9 }) 0 0x2010 ∧
    live.relay.mode ≠ .lockedOut ∧ ({ exposedA with mode := .lockedOut, fault := some 9 } : RelayState).fault = some 9 ∧
    assocWf defaultOf live.dict.master = true ∧ 1 < 2 ∧
    (withRelay { exposedA with mode := .standbyReady, active := some .b, repairDone := true }).relay.repairDone = true ∧
    (standbyOf (withRelay { exposedA with mode := .standbyReady, active := some .b, repairDone := true }) =
      some (homeUnit (withRelay { exposedA with mode := .standbyReady, active := some .b, repairDone := true }))) ∧
    reversionLocked (withRelay { exposedA with mode := .revertPending, holdOffAt := some 0 }) = false ∧
    (0 ≤ (withRelay exposedA).now ∧ (withRelay exposedA).now < 60 * cyclesPerSec + 1) := by
  refine ⟨⟨by decide, by decide⟩, ⟨by decide, by decide⟩, ?_⟩
  decide +kernel

def held (r : RelayState) : State := { withRelay r with lap := { lapReset with voterHold := true } }

theorem witness_FaultsAreReportedAndLatched :
    live.relay.active = some .a ∧ live.relay.active ≠ some .b ∧ live.relay.mode ≠ .warming ∧ live.relay.mode ≠ .failed ∧
    live.relay.repair = .none ∧ assocWf defaultOf live.regs = true ∧ exposedA.mode ≠ .lockedOut ∧
    ({ exposedA with mode := .lockedOut, fault := some 9 } : RelayState).fault = some 9 ∧
    standbyIsReady { withRelay { exposedA with fault := some 9, forced := true } with regs := readyRegs } = true ∧
    standInsReady { withRelay { exposedA with fault := some 9 } with regs := readyRegs, standIns := ⟨standInsReset, ⟨1, [], false⟩⟩ } = true ∧
    standInsReady (withRelay { exposedA with fault := some 9 }) = false ∧
    standbyIsReady (withRelay { exposedA with fault := some 9 }) = false ∧ live.lap.voterHold = false ∧ exposedA.refusedNow = false ∧
    exposedA.fault = none ∧ exposedA.forced = false ∧ ({ exposedA with forced := true } : RelayState).forced = true ∧
    (held { exposedA with forced := true }).lap.voterHold = true ∧
    (withRelay { exposedA with mode := .warming, switchTick := some 1 }).relay.mode = .warming ∧
    (withRelay { exposedA with mode := .warming, switchTick := some 1 }).relay.switchTick =
      some ((withRelay { exposedA with mode := .warming, switchTick := some 1 }).lap.count + 1) := by decide +kernel

/-- Unit B has just become active; the selectors still stand on A. -/
def switching (hold : Bool) (at_ now : Nat) : State := { live with
  now := now
  lap := { lapReset with voterHold := hold }
  relay := { exposedA with active := some .b, handoverAt := at_ } }

def homeless (now : Nat) : State := { live with relay := relayReset, boot := ⟨bootReset, ⟨.booted, 0, false, false, []⟩⟩, now := now }

theorem witness_SelectorsFollowTheActiveUnit :
    live.relay.active = some .a ∧ live.ports[(0 : PortId)].selected = some .a ∧ (switching false 0 100).relay.active = some .b ∧
    (switching false 0 100).ports[(0 : PortId)].selected ≠ some .b ∧ switchBoundary (switching false 0 100) 0 ≤ (switching false 0 100).now ∧
    (switching false 100 100).now < switchBoundary (switching false 100 100) 0 ∧
    (switching true 0 100).lap.voterHold = true ∧ (switching false 0 100).lap.voterHold = false ∧
    live.now < ({ portReset with busyUntil := 1 } : Port).busyUntil ∧
    ({ switching false 0 100 with mon := { live.mon with selected := some .a } } : State).mon.selected = some .a ∧
    (homeless (2 * cyclesPerSec)).relay.active = none ∧ (homeless (2 * cyclesPerSec)).lap.voterHold = false ∧
    ((homeless (2 * cyclesPerSec)).boot.get (homeUnit (homeless (2 * cyclesPerSec))).other).mode = .booted ∧
    ((homeless (2 * cyclesPerSec)).boot.get (homeUnit (homeless (2 * cyclesPerSec))).other).bootedAt + 2 * cyclesPerSec ≤
      (homeless (2 * cyclesPerSec)).now ∧
    ((homeless (2 * cyclesPerSec)).boot.get (homeUnit (homeless (2 * cyclesPerSec)))).mode ≠ .booted ∧
    ({ bootReset with mode := .bootFault } : UnitBoot).mode = .bootFault := by decide +kernel

/-- The bytes of one pair of a release report. -/
def reportPair : List Byte := [1, 0, 2, 0, 0, 0]

def batonStreamOne : BatonStream :=
  { e := 0, releaseIndex := 0, held := [], cplxI := 0, cplxP := 0, credit := 0, lastQp := 30, rebuild := 0, flags := 0, picsSinceBp := 0, poc := 0,
    picsSinceIrap := 0, picturesCoded := 0, tokenSeq := 0, prevBudget := 0 }

def batonOne : Baton :=
  { alive := 9, unit := .a, lapCount := 3, stateCycle := 0, generation := 1, lapInPicture := 0, streamsOn := 1, counters := .replicate 4 (0, 0, 0),
    capture := (0, 0, 0, 0, 0, 0, 0), streams := .replicate 16 batonStreamOne, flows := .replicate 256 (0, 0) }

/-- A unit whose free slot holds a baton just written. -/
def batonWritten (expected : Option Nat) : BatonState :=
  { batonReset with slots := #v[some batonOne, none], written := true, expected := expected }

theorem witness_BatonsAreCheckedAndKept :
    batonReset.written = false ∧ (batonWritten none).written = true ∧
    (batonWritten none).slots.get (freeSlot (batonWritten none)) = some batonOne ∧ (batonWritten none).expected = none ∧
    ({ batonReset with misses := 1 } : BatonState).misses = 1 ∧ standbyOf State.reset = none ∧ standbyOf live = some .b ∧
    live.relay.active = some .a ∧ (batonWritten (some 7)).expected = some 7 ∧
    reportGood reportPair (leBytes 4 (crc32c reportPair).toNat) = true ∧ reportPairs reportPair = [(1, 2)] ∧ reportGood [1] [] = false ∧
    assocWf defaultOf live.regs = true := by
  decide +kernel

/-- Read as written the record is whole and its ALIVE is 9, neither absent nor 7; with one byte read otherwise its CRC fails. -/
theorem witness_BatonsAreCheckedAndKept_bytes :
    batonCrcOk (damagedBytes (batonBytes batonOne) []) = true ∧ (parseBaton (damagedBytes (batonBytes batonOne) [])).alive = 9 ∧ (9 : Nat) ≠ 7 ∧
    batonCrcOk (damagedBytes (batonBytes batonOne) [(8188, BitVec.ofNat 8 (crc32c (batonBody batonOne)).toNat + 1)]) = false := by
  have full : (batonBody batonOne).length = 8188 := batonBody_length batonOne rfl rfl List.length_replicate
  have alive : (parseBaton (batonBytes batonOne)).alive = 9 := by
    rw [parseBaton_alive]
    decide +kernel
  refine ⟨?_, ?_, by decide, batonBytes_crcBad batonOne _ full ?_⟩
  · simpa [damagedBytes] using batonBytes_crcOk batonOne full
  · simpa [damagedBytes] using alive
  intro h
  exact absurd (congrArg (fun x => x - BitVec.ofNat 8 (crc32c (batonBody batonOne)).toNat) h) (by simp [BitVec.add_comm])

theorem witness_RepairRunsItsAttempts :
    (withRelay { exposedA with repair := .inReset 0 }).relay.repair = .inReset 0 ∧ 0 + 10 * cyclesPerMs ≤ (withRelay exposedA).now ∧
    live.now < 0 + 10 * cyclesPerMs ∧ standbyOf live = some .b ∧ standbyOf State.reset = none ∧
    regGet live (key 0x2010 0x0E) < 3 ∧ 3 ≤ regGet { live with regs := [(key 0x2010 0x0E, 3)] } (key 0x2010 0x0E) ∧
    ({ exposedA with repair := .testing } : RelayState).repair = .testing ∧ live.relay.repair ≠ .testing ∧
    live.relay.repair = .none ∧ live.relay.mode ≠ .warming ∧ live.relay.mode ≠ .failed ∧ (live.selfTest.get .b).step = none ∧
    testable live .b (.pattern 5) = true ∧ testable live .b (.batonSlot 0) = true ∧
    testable { live with baton := ⟨batonReset, { batonReset with last := some 0 }⟩ } .b (.batonSlot 0) = false ∧
    ({ selfTestReset with step := some (.sram 0) } : SelfTestState).step.isSome = true ∧
    passWhole (91 * cyclesPerSec) selfTestReset = false ∧
    (withRelay { exposedA with repair := .waiting 0 }).relay.repair = .waiting 0 ∧
    0 + 60 * cyclesPerSec ≤ (withRelay { exposedA with repair := .waiting 0 }).now ∧ live.now < 0 + 60 * cyclesPerSec ∧
    (serves (withRelay { exposedA with mode := .failed }) 0 0x2010 = true ∧ writeGate (withRelay { exposedA with mode := .failed }) 0 0x2010 = none) ∧
    (withRelay { exposedA with mode := .failed }).relay.mode = .failed ∧
    phasesShort (withRelay { exposedA with mode := .failed }) = false := by decide +kernel

/-- A cycle that has covered every block. -/
theorem witness_RepairRunsItsAttempts_pass : passWhole 0 { selfTestReset with covered := testBlocks } = true := by
  simp [passWhole, selfTestReset]

/-! ### Integrity, the controller's restart -/

theorem witness_UnitMonitorsFaultTheirUnit :
    assocWf defaultOf live.regs = true ∧ live.relay.active = some .a ∧ live.relay.active ≠ some .b ∧ live.relay.repair = .none := by
  decide

theorem witness_ControllerRestartsAlone :
    live.ctrl.mode = .running ∧ ({ live with ctrl := { ctrlReset with mode := .restarting } } : State).ctrl.mode = .restarting ∧
    live.ctrl.mode ≠ .restarting ∧ assocGet defaultOf live.dict.shadowA (key 0x2201 1) % 16 ≠ 0 ∧ viewUnit live = .a ∧
    assocGet defaultOf ({ live.dict with shadowA := [(key 0x2201 1, 0)] } : DictState).shadowA (key 0x2201 1) % 16 = 0 := by decide +kernel

theorem witness_SensorReadingsMoveTheirConditions : live.stage.warn = none ∧ live.sensors.critical.getLsbD 37 = false ∧
    crossed false (sensorLimits 37).2.2 41316 = true := by decide

def record (bytes : List Byte) (expected : BitVec 64) : CvRecord := { bytes := bytes, expected := expected, alive := some 255, owner := none }

theorem witness_ChecksAndMonitorSlots :
    cvExpected live 8 (record [1] 0) = some 0 ∧ (0 : BitVec 64) ≠ cvResult live 8 [1] ∧
    cvExpected live 8 (record [1] (cvResult live 8 [1])) = some (cvResult live 8 [1]) ∧ cvAliveBits 8 = some 8 ∧
    (record [1] 0).alive = some 255 ∧ cvExpected live 0 (record [1] 0) = none ∧
    (serves live 0 (0x5000 + (31 : SlotId).val) = true ∧ writeGate live 0 (0x5000 + (31 : SlotId).val) = none) ∧
    serves State.reset 0 0x5000 = false ∧ (serves live 0 0x5081 = true ∧ writeGate live 0 0x5081 = none) ∧ 1 ≠ 0 := by decide +kernel

/-! ### Reset and bring-up -/

theorem witness_ModuleResetsReachEverything :
    49 < 50 ∧ 100 < 101 ∧ (50 ≤ 100 ∧ 100 ≤ 100) ∧ live.flash.pulse = false ∧ live.flash.erasing = none ∧ live.flash.areaEraseAt = none ∧
    ({ flashReset with writing := .saved } : FlashState).writing = .saved ∧ flashReset.writing ≠ .saved ∧
    ({ flashReset with saved := .replicate 2 (some ⟨true, [], false⟩) } : FlashState).saved.get (1 - flashReset.savedNewest) = some ⟨true, [], false⟩ ∧
    live.rst.asserted.getLsbD 0 = false ∧
    ({ live with flash := { flashReset with pulse := true } } : State).flash.pulse = true ∧
    ({ live with flash := { flashReset with erasing := some 0 } } : State).flash.erasing.isSome = true ∧ live.rst.waiting = none ∧
    ({ live with rst := { rstReset with waiting := some 3 } } : State).rst.waiting = some (3 : Fin 4).val := by decide

def asserted (mask : BitVec 8) (now : Nat) : State := { live with now := now, rst := { rstReset with asserted := mask } }

theorem witness_SourcesAreReleasedInTime :
    isAsserted (asserted 2 0) 1 = true ∧ (asserted 2 0).rst.asserted &&& 0x0D = 0 ∧ (asserted 2 0).rst.heldForever = false ∧
    isAsserted live 1 = false ∧ (isAsserted (asserted 1 0) (0 : Fin 8).val = true ∧ (asserted 1 0).now < 0 + holdTime 0) ∧
    (isAsserted (asserted 128 16) (7 : Fin 8).val = true ∧ 0 + holdTime 7 ≤ (asserted 128 16).now) ∧ (7 : Fin 8).val ≠ 6 ∧
    (isAsserted (asserted 64 (10 * cyclesPerMs)) 6 = true ∧ 0 + holdTime 6 ≤ (asserted 64 (10 * cyclesPerMs)).now) ∧
    live.flash.pulse = false ∧ live.flash.erasing = none ∧ live.flash.areaEraseAt = none ∧ assocWf defaultOf live.regs = true ∧
    isAsserted live 7 = false ∧ live.relay.repair = .none ∧ live.relay.mode ≠ .failed := by decide +kernel

theorem witness_BlockResetsReachTheNamedBlocks :
    (serves live 0 0x2101 = true ∧ writeGate live 0 0x2101 = none) ∧ (0x00001000 : BitVec 32) &&& 0x0CFFF000 ≠ 0 ∧
    blockRefused live 0 0x10 = some .localControl ∧ blockRefused live 0 0xF300010F = none ∧
    (0xF300010F : BitVec 32).getLsbD (3 : Chan).val = true ∧ (0xF300010F : BitVec 32).getLsbD 25 = true ∧
    (0xF300010F : BitVec 32).getLsbD (28 + (3 : PortId).val) = true ∧ (0xF300010F : BitVec 32).getLsbD (8 + (1 : DmaId).val) = false ∧
    (0 : BitVec 32).getLsbD (0 : Chan).val = false ∧ blockRefused live 0 0 = none ∧
    (0 : BitVec 32).getLsbD 25 = false ∧ (0 : BitVec 32).getLsbD 24 = false ∧ (0xF300010F : BitVec 32).getLsbD 24 = true := by
  decide +kernel

def header (ok : Bool) : PackageHeader :=
  { version := 1, rollback := Config.rollbackFloor, stepping := if ok then ownStepping else 0, keyOk := ok, signatureOk := ok, hashOk := ok, lengthOk := ok }

def booting : State := { live with
  ctrl := { ctrlReset with mode := .booting }
  boot := ⟨{ bootReset with mode := .booting }, { bootReset with mode := .imageChecked }⟩ }

theorem witness_BringUpRunsItsSteps :
    (({ rstReset with releasing := true } : ResetState).releasing = true ∧ rstReset.step = 0 ∧ limitGood live.flash.limit = true ∧
      limitGood { live.flash.limit with current := 99 } = false ∧ live.flash.limitOpen = false ∧
      ({ flashReset with limitOpen := true } : FlashState).limitOpen = true) ∧
    (live.rst.releasing = false ∧ live.rst.pendingClock = 0 ∧ live.rst.step.val = 0 ∧ ({ rstReset with step := 6 } : ResetState).step.val = 6 ∧
      ({ rstReset with step := 2 } : ResetState).step.val = 2 ∧ ({ rstReset with step := 4 } : ResetState).step.val = 4 ∧
      ({ rstReset with step := 5 } : ResetState).step.val = 5 ∧ ({ rstReset with pendingClock := 1 } : ResetState).pendingClock ≠ 0) ∧
    booting.ctrl.mode = .booting ∧ bootRegion (readRegions booting (.replicate 2 (header false))).flash.regions = none ∧
    ({ ctrlReset with mode := .imageOk } : CtrlState).mode = .imageOk ∧ (booting.boot.get .a).mode = .booting ∧
    booting.relay.repair ≠ .booting ∧ (booting.boot.get .b).mode = .imageChecked ∧
    (withRelay { exposedA with repair := .booting, repairUnit := .b }).relay.repair = .booting := by decide +kernel

/-- The same image in both regions boots from region 0; a bad newer one leaves the second region. -/
theorem witness_BringUpRunsItsSteps_image :
    bootRegion (readRegions booting (.replicate 2 (header true))).flash.regions = some (0, false) ∧
    bootRegion (readRegions booting #v[header false, header true]).flash.regions = some (1, true) := by
  have good : imageReason (header true) = 0 := by simp [imageReason, header]
  have bad : imageReason (header false) = 1 := rfl
  constructor
  · show (if imageGood ⟨some (header true), false, false⟩ then _ else _) = _
    simp [imageGood, good]
    rfl
  · show (if imageGood ⟨some (header false), false, false⟩ then some ((0 : Fin 2), false)
      else if imageGood ⟨some (header true), false, false⟩ then some ((1 : Fin 2), true) else none) = _
    simp [imageGood, good, bad]

/-! ### Power -/

def withStage (x : StageState) (now : Nat) : State := { live with now := now, stage := x }

theorem witness_PowerFailWarnsStopsAndReturns :
    ({ stageReset with running := false, stopped := true } : StageState).running = false ∧
    0 + 100 * cyclesPerMs ≤ (withStage { stageReset with running := false, stopped := true, criticalStop := true } (100 * cyclesPerMs)).now ∧
    stageReset.hvToggled = true ∧ stageReset.running = true ∧ (1 : Fin 8).val ≠ 0 ∧ (0 : Fin 8).val = 0 ∧ stageReset.warn = none ∧
    ({ stageReset with warn := some 6 } : StageState).warn = some 6 ∧ (6 : Fin 8).val = 6 ∧ (5 : Fin 8).val ≠ 6 ∧
    flag { withStage { stageReset with warn := some 1 } cyclesPerMs with regs := [(kStage, 2 ^ 29)] } kStage 29 = true ∧
    hostRights live 0 = true ∧ 0 + cyclesPerMs ≤ (withStage { stageReset with warn := some 1 } cyclesPerMs).now ∧
    ({ stageReset with flush := true } : StageState).flush = true ∧
    ({ flashReset with areaErased := .replicate 2 false } : FlashState).areaErased.get (1 - flashReset.areaNewest) = false ∧
    flashReset.areaEraseAt = none ∧ 64 ≤ ({ logReset with unsaved := 64 } : LogState).unsaved ∧
    (({ logReset with unsaved := 63 } : LogState).unsaved < 64 ∧ 0 < 0 + cyclesPerSec) := by decide +kernel

def frameWith (alive : BitVec 8) (flags : BitVec 8) : TelemetryFrame :=
  let f : TelemetryFrame := { alive := alive, flags := flags, phases := 0x7F, cause := 0, slowId := 0, slowValue := 0, crc := 0 }
  { f with crc := crc16 0x1D0F#16 (frameBytes f) }

/-- The planner between runs, with a die of the ready standby skipped by the last one. -/
def skippedDie : State := { withRelay exposedA with
  regs := readyRegs
  planner := { plannerReset with lastEnd := some 0, dies := .replicate 3 { dieReset with skipped := true } } }

theorem witness_PhasesTelemetryAndPlanner :
    (planDue skippedDie = false ∧ skippedReady skippedDie = some 1 ∧ skippedDie.stage.warn = none ∧ skippedDie.relay.repair = .none) ∧
    (0x3F : BitVec 7) = 0x7F &&& ~~~ (BitVec.ofNat 7 (1 <<< (6 : Fin 7).val)) ∧ (0x3F : BitVec 7).getLsbD 6 = false ∧
    stageReset.phases.getLsbD 6 = true ∧ phaseCount 0x3F = 6 ∧ phaseCount 0x1F = 5 ∧ phaseCount 0x0F < 5 ∧ stageReset.clampAt = none ∧
    (0 + cyclesPerMs ≤ cyclesPerMs ∧ 0 < 0 + cyclesPerMs) ∧ crc16 0x1D0F#16 (frameBytes (frameWith 4 0)) = (frameWith 4 0).crc ∧
    (frameWith 4 0).alive = 3 + 1 ∧ (frameWith 4 0x80).flags.getLsbD 7 = true ∧ (frameWith 4 0).flags.getLsbD 7 = false ∧
    crc16 0x1D0F#16 (frameBytes { frameWith 4 0 with crc := 0 }) ≠ 0 ∧ (frameWith 4 0).alive ≠ 4 + 1 ∧ stageReset.badFrames < 3 ∧
    3 ≤ ({ stageReset with badFrames := 3 } : StageState).badFrames ∧ ({ stageReset with lost := true } : StageState).lost = true ∧
    stageReset.lost = false ∧ planDue live = true ∧ live.stage.warn = none ∧ live.relay.repair = .none ∧
    (laneAt (lanesIn { laneReset with mode := .locked, eye := 24 }) .a 0).mode = .locked ∧
    24 ≤ (laneAt (lanesIn { laneReset with mode := .locked, eye := 24 }) .a 0).eye ∧
    (laneAt (lanesIn { laneReset with mode := .locked, eye := 23 }) .a 0).eye < 24 ∧
    planDue { live with planner := { plannerReset with lastEnd := some 0 } } = false ∧
    skippedReady { live with planner := { plannerReset with lastEnd := some 0 } } = none ∧
    (serves live 0 0x5C10 = true ∧ writeGate live 0 0x5C10 = none) ∧ dieReset.inUse < ({ dieReset with target := 60 } : DieState).target ∧
    dieReset.target ≤ dieReset.inUse ∧
    dieUnit 1 = some .b ∧ dieUnit 2 = none ∧ dieReset.stepAt = none ∧ ({ dieReset with noticeAt := some 0, worn := true } : DieState).noticeAt = some 0 ∧ (0 : DieId) ≠ 2 ∧
    0 + 4320 ≤ ({ plannerReset with hours := 4320 } : PlannerState).hours ∧ plannerReset.hours < 0 + 4320 := by decide +kernel

/-- A read of 0x1018:01, a whole write of 0x1017:00 and an NMT command by datagrams of the listed source 10.0.0.9:50000. -/
def datagramOf (opcode index sub flags : Nat) (payload : List Byte) : Datagram :=
  let d : Datagram := ⟨0xD1C7, 1, opcode, 7, index, sub, flags, 0, 0, 0, payload, 0⟩
  { d with crc := datagramCrc d }

/-! ### Routes, CAN FD, windows, maintenance -/

def datagramOne : Datagram := datagramOf 1 0x1018 1 0 []

def listed : State := withObjects bridged [(key 0x2003 1, 2 ^ 63 + 2 ^ 62 + 32 * 2 ^ 48 + 0xA000009)]

def withClient (k : Client) (c : ClientSlot) : State := { listed with now := 10 * cyclesPerSec, clients := vmod listed.clients k fun _ => c }

def writtenBy (d : Datagram) (k : Client) : State :=
  serveEnd (stampClient (enterSlot listed k (0xA000009, 50000) 0 true) k) k d.index (takeSegment k d.index d.sub 0 d.payload true)

theorem witness_RoutesServeTheDictionary :
    ({ clientReset with busy := true } : ClientSlot).busy = true ∧ (live.clients.get 0).busy = false ∧ serves live 0 0x1018 = true ∧
    (readObject 0 0x1018 1 (touchRead (stampClient live 0) 0)).toOption.isSome = true ∧
    (readObject 0 0x1FFF 1 (touchRead (stampClient live 0) 0)).toOption.isNone = true ∧
    ((withClient 0 { clientReset with transfer := some ⟨0x5F01, 4, [1, 2], 0⟩ }).clients.get 0).transfer = some ⟨0x5F01, 4, [1, 2], 0⟩ ∧
    (serves (withClient 0 { clientReset with transfer := some ⟨0x5F01, 4, [1, 2], 0⟩ }) 0 0x5F01 = true ∧
      writeGate (withClient 0 { clientReset with transfer := some ⟨0x5F01, 4, [1, 2], 0⟩ }) 0 0x5F01 = none) ∧
    2 + 1 ≤ 2097152 ∧ (live.clients.get 0).transfer = none ∧ 0 + cyclesPerSec ≤ (withClient 0 clientReset).now ∧ 0 < 0 + cyclesPerSec ∧
    dictAnswers State.reset = false ∧ dictAnswers listed = true ∧ portServes listed 0 = true ∧ listed.relay.active.isSome = true ∧
    accessEntry listed 0xA00000A = none ∧ datagramGood { datagramOne with crc := 0 } = false ∧ datagramGood datagramOne = true ∧
    (accessEntry listed 0xA000009).map (fun e => e.testBit 62) = some true ∧ slotFor listed (0xA000009, 50000) = some 1 ∧
    (listed.clients.get 1).source = none ∧
    (readObject 1 datagramOne.index datagramOne.sub (touchRead (stampClient (enterSlot listed 1 (0xA000009, 50000) 0 true) 1) 1)).toOption.isSome = true ∧
    datagramGood (datagramOf 2 0x1017 0 1 [232, 3]) = true ∧ (datagramOf 2 0x1017 0 1 [232, 3]).flags % 2 = 1 ∧ serves listed 1 0x1017 = true ∧
    ((writtenBy (datagramOf 2 0x1017 0 1 [232, 3]) 1).clients.get 1).busy = false ∧
    datagramGood (datagramOf 0x20 0 0 0 [1, 0]) = true ∧
    ((withClient 1 { clientReset with source := some (0xA000009, 50000), lastReply := some datagramOne }).clients.get 1).lastReply =
      some datagramOne ∧
    (1 : Client) ≠ 0 ∧ 0 + 10 * cyclesPerSec ≤ (withClient 1 clientReset).now ∧ 0 < 0 + 10 * cyclesPerSec := by decide +kernel

theorem witness_CanNodeFollowsItsServices :
    nodeHears live = true ∧ nodeHears State.reset = false ∧ anyChannelRunning (capturing .idle) = true ∧ nodeHears (capturing .idle) = true ∧
    cfg live (key 0x2002 5) ≠ 1 ∧ anyChannelRunning live = false ∧ live.flash.pulse = false ∧ live.flash.erasing = none ∧
    live.flash.areaEraseAt = none ∧ ({ canReset with busOff := true } : CanState).busOff = true ∧ canReset.busOff = false ∧
    dictAnswers live = true ∧ cfg (withObjects live [(key 0x1017 0, 1)]) (key 0x1017 0) ≠ 0 ∧
    0 + cfg (withObjects live [(key 0x1017 0, 1)]) (key 0x1017 0) * cyclesPerMs ≤ cyclesPerMs ∧ subscribers live = [] ∧
    cfg (withObjects live [(key 0x1017 0, 0)]) (key 0x1017 0) = 0 ∧
    ({ emcyReset with queue := [⟨0x1000, 0, 0, 0, 0⟩] } : EmcyState).queue = ⟨0x1000, 0, 0, 0, 0⟩ :: [] ∧ emcyFree live = true ∧
    live.emcy.queue = [] ∧ (serves live 0 0x1003 = true ∧ writeGate live 0 0x1003 = none) := by decide +kernel

/-- A package window that has a check list of one record, and one that has none. -/
def verifyingWindow (check : Bool) : State := { live with
  firmware := { firmwareReset with mode := .verifying, window := some 0 }
  windows := .replicate 4 { windowReset with mode := .committing, owner := some 0, check := check, length := 16, pos := 16 } }

/-- Window 1 with a target and a length configured. -/
def windowOn (target length : Nat) (w : Window) : State := { withObjects live [(kWin 0 1, target), (kWin 0 2, length), (kWin 0 6, 0)] with
  windows := .replicate 4 w }

def openWindow (mode : WinMode) (pos : Nat) : Window :=
  { windowReset with mode := mode, owner := some 0, length := 16, pos := pos, target := 0x30200400, content := List.replicate pos 0 }

theorem witness_WindowsAndPackages :
    (serves (windowOn 0x30200400 16 windowReset) 0 (0x5F01 + (0 : WinId).val) = true ∧
      writeGate (windowOn 0x30200400 16 windowReset) 0 (0x5F01 + (0 : WinId).val) = none) ∧
    (openWriteRefused (windowOn 0x30200400 16 windowReset) 0 0).isNone = true ∧ isPackage (winTarget (windowOn 0x30200400 16 windowReset) 0) = false ∧
    (openWriteRefused { windowOn 0x5F001000 100663296 windowReset with maint := { maintReset with owner := some 0 } } 0 0).isNone = true ∧
    isPackage (winTarget (windowOn 0x5F001000 100663296 windowReset) 0) = true ∧
    (openWriteRefused (windowOn 0x5F001000 16 windowReset) 0 0).isSome = true ∧
    winBusy (winAt (windowOn 0x40001300 0 windowReset) 0) = false ∧ flowTarget (winTarget (windowOn 0x40001300 0 windowReset) 0) = some 0 ∧
    winCheck (windowOn 0x40001300 0 windowReset) 0 = false ∧
    (0 + 16 ≤ wordsUp (openWindow .openWrite 0).length ∧ (List.replicate 16 (0 : Byte)).length % 16 = 0) ∧ live.firmware.window ≠ some 0 ∧
    (openWindow .openWrite 0).mode = .openWrite ∧ (openWindow .openWrite 0).owner = some 0 ∧ windowReset.mode ≠ .openWrite ∧
    (openWindow .openRead 0).pos < (openWindow .openRead 0).length ∧ (openWindow .openWrite 16).length ≤ (openWindow .openWrite 16).pos ∧
    (openWindow .openWrite 16).check = false ∧
    mapTarget ((openWindow .openWrite 16).target / 65536, (openWindow .openWrite 16).target / 256 % 256) = some (0, 0) ∧
    (doMapData 0 0 ((openWindow .openWrite 16).content.take 16) (touchClient (withMap .loading 18) 0)).toOption.isSome = true ∧
    ({ firmwareReset with window := some 0, mode := .ready } : FirmwareState).mode = .ready ∧ windowReset.owner ≠ some 0 ∧
    0 + 60 * cyclesPerSec ≤ 60 * cyclesPerSec ∧ 0 < 0 + 60 * cyclesPerSec ∧ windowReset.mode = .closed ∧
    ({ firmwareReset with mode := .erasing } : FirmwareState).mode = .erasing ∧ firmwareReset.mode ≠ .erasing ∧
    ([1, 2] : List Byte).length ≤ (bufferDrain { live with firmware := { firmwareReset with held := some (0, 0, [1, 2]), room := 2 } }).firmware.room ∧
    (bufferDrain { live with firmware := { firmwareReset with held := some (0, 0, [1, 2]), room := 1 } }).firmware.room < 2 ∧
    firmwareReset.held = none ∧ (verifyingWindow true).firmware.mode = .verifying ∧ (verifyingWindow true).firmware.window = some 0 ∧
    (winAt (verifyingWindow true) 0).check = true ∧ (winAt (verifyingWindow false) 0).check = false ∧
    updateReason true true (header true) ≠ 0 ∧ live.firmware.window = none ∧ live.firmware.mode ≠ .verifying := by decide +kernel

theorem witness_WindowsAndPackages_good : updateReason false true (header true) = 0 := by
  simp [updateReason, imageReason, header]

theorem witness_UnlockAndSaving :
    serves live 0 0x5F08 = true ∧ writeGate live 0 0x5F08 = none ∧ responseBarred live 0 = true ∧
    responseBarred { live with maint := { maintReset with challenges := .replicate 9 (some 5) } } 0 = false ∧
    (∃ v, Config.hmac 5 Config.serialNumber = v) ∧ (∃ v, Config.hmac 5 Config.serialNumber ≠ v) ∧
    ({ maintReset with failures := 2 } : MaintState).failures = 2 ∧ maintReset.failures ≠ 2 ∧
    ({ maintReset with owner := some 0 } : MaintState).owner.isSome = true ∧
    (0 + 600 * cyclesPerSec ≤ 600 * cyclesPerSec) ∧ 0 < 0 + 600 * cyclesPerSec ∧ ({ maintReset with blockUntil := some 5 } : MaintState).blockUntil = some 5 ∧
    serves live 0 0x1010 = true ∧ writeGate live 0 0x1010 = none ∧ live.flash.saving = none ∧
    ({ flashReset with saving := some (0, 0, ⟨true, [], false⟩) } : FlashState).saving = some (0, 0, ⟨true, [], false⟩) ∧
    serves live 0 0x1011 = true ∧ writeGate live 0 0x1011 = none := by
  refine ⟨by decide, by decide, by decide, by decide +kernel, ⟨_, rfl⟩, ⟨Config.hmac 5 Config.serialNumber + 1, fun h => ?_⟩, by decide +kernel⟩
  exact absurd (congrArg (fun x => x - Config.hmac 5 Config.serialNumber) h) (by simp [BitVec.add_comm])

theorem witness_EveryStepKeepsTheStores : StoresKept State.reset := by constructor <;> decide

/-! ## Ill-formed commands are refused -/

def ctuGood : CtuContent :=
  { bits := 390, floorBits := 58, residual := false, cycles := 40, stall := 0, predictors := [⟨15, 1, [⟨0, 0⟩], [⟨4, 4⟩]⟩], trials := [⟨0, 0, 16, .merge, .square, 0, 0, 100, 8, 0, false, false, [(0, ⟨4, 4⟩)]⟩] }

def packageList (n : Nat) : StandInCheck := { unit := .a, stream := 0, stripe := 0, decoder := ⟨[⟨0, 0, [n]⟩], []⟩ }

def tickGood (n : Nat) : TickInput :=
  { stall := .replicate 4 0, voter := .agree, batonDone := true, standIns := [packageList n], eyes := [],
    fec := [] }

def entryGood : AtuEntry := { vbase := 0, page := 4096, ubase := 0, readable := true, writable := true, eccBad := false }

def lineGood : LinePacket := { blocks := 1, flags := 0, line := 0, alive := 0, payload := [0], crc := 0, whole := true }

def datagramFine : Datagram :=
  { protocol := 1, version := 1, opcode := 1, sequence := 0, index := 0x2500, sub := 1, flags := 0, offset := 0, abort := 0,
    stamp := 0, payload := [], crc := 0 }

def frameGood : Frame :=
  { dst := 0, src := 0, tagged := false, etherType := 0x0800, len := 64, fcsOk := true, srcIp := 0, dstIp := 0, ipOdd := false,
    srcPort := 0, dstPort := 0, udpSumOk := true, skew := 0, stampError := 0, body := .other }

def requestGood : DramRequest :=
  { ctx := 0, vaddr := 0, size := 64, write := false, data := [], age := 0, user := .otherRealTime, ecc := .clean }

def descriptorGood : Descriptor :=
  { nextAddr := 0, srcAddr := 0, dstAddr := 0, srcStep := .replicate 3 0, dstStep := .replicate 3 0, count := .replicate 3 0,
    timestamp := 0, rowBase := 0, pktElems := 1, srcCtx := 0, dstCtx := 0, flow := 0, elemBytes := 1, dstKind := 0,
    markLast := false, fence := false, eventDone := false }

theorem test_wellFormed_timer :
    wellFormed (.timerInsert .a 1023 5 0) = true ∧ wellFormed (.timerInsert .a 1024 5 0) = false ∧
    wellFormed (.timerInsert .a 1023 (2 ^ 32) 0) = false ∧ wellFormed (.taskRun .a 0 ⟨[(1023, 0)], false⟩) = true ∧
    wellFormed (.taskRun .a 0 ⟨[(1024, 0)], false⟩) = false ∧ wellFormed (.unitImageCheck .a ⟨.replicate 2 (header true), [⟨1023, 0, 0, 0, false⟩]⟩) = true ∧
    wellFormed (.unitImageCheck .a ⟨.replicate 2 (header true), [⟨1024, 0, 0, 0, false⟩]⟩) = false ∧ wellFormed (.lapTick (tickGood 0xFFFF)) = true ∧
    wellFormed (.lapTick (tickGood 0x10000)) = false := by decide

theorem test_wellFormed_coding :
    wellFormed (.ctuCode 0 0 ctuGood) = true ∧ wellFormed (.ctuCode 0 0 { ctuGood with predictors := [⟨16, 0, [], []⟩] }) = false ∧
    wellFormed (.ctuCode 0 0 { ctuGood with trials := [⟨8, 0, 16, .merge, .square, 0, 0, 0, 0, 0, false, false, []⟩] }) = false ∧
    wellFormed (.segmentVerified 0 0 (segmentOne none 0 (side 0xFFFF 0) (side 0 0))) = true ∧
    wellFormed (.segmentVerified 0 0 (segmentOne none 0 (side 0x10000 0) (side 0 0))) = false ∧
    wellFormed (.stripeCoded 0 ⟨[[0]], [(0, side 0 0xFFFF)], []⟩) = true ∧ wellFormed (.stripeCoded 0 ⟨[[0]], [(0, side 0 0x10000)], []⟩) = false ∧
    wellFormed (.channelStart 0 0 [⟨0, [entryGood]⟩]) = true ∧
    wellFormed (.channelStart 0 0 [⟨0, [{ entryGood with vbase := 2 ^ 48 }]⟩]) = false ∧
    wellFormed (.mapData 0 0 0 (.replicate 16 0)) = true ∧ wellFormed (.mapData 0 0 0 [0]) = false := by decide

theorem test_wellFormed_objects :
    wellFormed (.objectWrite 0 0x2500 1 [0]) = true ∧ wellFormed (.objectWrite 0 0x10000 1 [0]) = false ∧
    wellFormed (.objectWrite 0 0x2500 256 [0]) = false ∧ wellFormed (.objectWrite 0 0x2500 1 (.replicate 1025 0)) = false := by
  decide +kernel

theorem test_wellFormed_values :
    wellFormed (.verifyEnableWrite 0 0 255) = true ∧ wellFormed (.verifyEnableWrite 0 0 256) = false ∧
    wellFormed (.returnDecoderEnable 0 256) = false ∧ wellFormed (.reversionLockWrite 0 256) = false ∧
    wellFormed (.monitorClear 0 0 256) = false ∧ wellFormed (.mr4Poll .a (.replicate 32 7) false) = true ∧
    wellFormed (.mr4Poll .a (.replicate 32 8) false) = false := by decide +kernel

theorem test_wellFormed_sensor :
    wellFormed (.linePacketRx .a 0 lineGood) = true ∧ wellFormed (.linePacketRx .a 0 { lineGood with blocks := 2 }) = false ∧
    wellFormed (.linePacketRx .a 0 { lineGood with flags := 8 }) = false ∧
    wellFormed (.pictureDescriptorRx .a 0 ⟨1280, 800, 0, 16⟩) = true ∧
    wellFormed (.pictureDescriptorRx .a 0 ⟨65536, 800, 0, 16⟩) = false := by decide

theorem test_wellFormed_network :
    wellFormed (.frameRx 0 frameGood) = true ∧ wellFormed (.frameRx 0 { frameGood with dst := 2 ^ 48 }) = false ∧
    wellFormed (.frameRx 0 { frameGood with body := .icmpEcho 0 0x10000 [] }) = false ∧
    wellFormed (.arpRetry 0 (2 ^ 32)) = false ∧ wellFormed (.arpRefresh 0 (2 ^ 32)) = false ∧
    wellFormed (.addressAgeing (2 ^ 48)) = false ∧ wellFormed (.addressAgeing 1) = true := by decide

theorem test_wellFormed_memory :
    wellFormed (.dramRequest .a 0 [requestGood]) = true ∧ wellFormed (.dramRequest .a 0 [{ requestGood with size := 0 }]) = false ∧
    wellFormed (.dramRequest .a 0 [{ requestGood with write := true }]) = false ∧
    wellFormed (.descriptorFetch .a 0 (some ⟨64, 14, 1023, false⟩)) = true ∧ wellFormed (.descriptorFetch .a 0 (some ⟨2 ^ 48, 14, 0, false⟩)) = false ∧
    wellFormed (.descriptorFetch .a 0 (some ⟨64, 14, 1024, true⟩)) = false ∧
    wellFormed (.dmaBurst .a 0 [(0, .corrected 8)]) = true ∧ wellFormed (.dmaBurst .a 0 [(0, .corrected 9)]) = false := by decide

theorem test_wellFormed_relay :
    wellFormed (.batonCheck .a [(8191, 0)]) = true ∧ wellFormed (.batonCheck .a [(8192, 0)]) = false ∧
    wellFormed (.releaseReport (.replicate 1488 0) (.replicate 4 0)) = true ∧ wellFormed (.releaseReport (.replicate 1489 0) (.replicate 4 0)) = false ∧
    wellFormed (.releaseReport [] [0]) = false := by
  decide +kernel

theorem test_wellFormed_dictionary :
    wellFormed (.windowData 0 0 true (.replicate 16 0)) = true ∧ wellFormed (.windowData 0 0 true [0]) = false ∧
    wellFormed (.usdoTransfer (.read 0x2500 1)) = true ∧ wellFormed (.usdoTransfer (.read 0x10000 1)) = false ∧
    wellFormed (.dictionaryDatagram 0 0 0 datagramFine) = true ∧
    wellFormed (.dictionaryDatagram 0 0 0x10000 datagramFine) = false ∧
    wellFormed (.dictionaryDatagram 0 0 0 { datagramFine with version := 256 }) = false := by decide

/-! ## The spec's worked examples -/

/-- Camera B: 1280 × 800 at 16 bits monochrome, 25,000 fps, four links of eight lanes (02_lap.md, 03_streams.md,
07_sensor_lanes.md examples). -/
def cameraB : State := withObjects live [(key 0x2500 1, 16), (key 0x2500 2, 50), (key 0x2500 3, 50),
    (key 0x2203 2, 25000), (key 0x2203 3, 1), (key 0x2203 4, 0x10001),
    (key 0x2300 1, 0), (key 0x2300 2, 16), (key 0x2300 3, 1280), (key 0x2300 4, 1),
    (key 0x2310 1, 1), (key 0x2310 2, 0), (key 0x2310 3, 8), (key 0x2310 5, 320),
    (kStream 0 1, 1), (kStream 0 3, 15), (kStream 0 6, 1280), (kStream 0 7, 800), (kStream 0 8, 0), (kStream 0 9, 16),
    (kStream 0 0x0A, 1), (kStream 0 0x10, 25000), (kStream 0 0x11, 1),
    (kPacer 0 2, 40000000000), (kPacer 0 3, 900000), (kFlow 0 1, 1), (kFlow 0 2, 0)]

/-- Camera B on its four links, each channel's window 8 columns wider than its part. -/
def startable : State := withObjects cameraB [(kLink 1 1, 1), (kLink 1 2, 8), (kLink 1 3, 8), (kLink 1 4, 320), (kLink 1 5, 320),
    (kLink 2 1, 1), (kLink 2 2, 16), (kLink 2 3, 8), (kLink 2 4, 640), (kLink 2 5, 320),
    (kLink 3 1, 1), (kLink 3 2, 24), (kLink 3 3, 8), (kLink 3 4, 960), (kLink 3 5, 320),
    (kInput 0x0C, 328), (kInput 0x0D, 312 * 65536 + 336), (kInput 0x0E, 632 * 65536 + 336), (kInput 0x0F, 952 * 65536 + 328)]

/-- A start that the checks admit, and one that they refuse. -/
theorem witness_RunControlAndVerifyEnable_checks :
    Served startable 0 (0x3000 + 0x100 * (0 : Chan).val) ∧ Served cameraB 0 (0x3000 + 0x100 * (0 : Chan).val) ∧
    (startable.chans.get 0).mode = .stopped ∧ (cameraB.chans.get 0).mode = .stopped ∧ startable.relay.active.isSome = true ∧
    (startChecks (takeValues (storeValue (touchClient startable 0) (kChan 0 0x3000 1) 1) 0) 0).2 = true ∧
    (startChecks (takeValues (storeValue (touchClient cameraB 0) (kChan 0 0x3000 1) 1) 0) 0).2 = false := by
  refine ⟨⟨by decide +kernel, by decide +kernel⟩, ⟨by decide +kernel, by decide +kernel⟩, ?_⟩
  decide +kernel

/-- 02_lap.md worked example: L_min 1,199, C 1,060, D 800. -/
theorem test_cameraB_account :
    lapMin cameraB = 1199 ∧ capacity cameraB = 1060 ∧ lapDemand cameraB 0 1 = 800 ∧ lapDemand cameraB 3 50 = 800 := by
  decide +kernel

/-- 03_streams.md worked example: level 8.5, ten slices of two CTUs per channel. -/
theorem test_cameraB_plan :
    (levelOf cameraB 0).map Prod.fst = some 255 ∧ acceptQ cameraB 0 false none = some 16 ∧ partSlices cameraB 0 false 16 1 = 10 := by decide +kernel

/-- 07_sensor_lanes.md worked example: 83 blocks needed, 95 available. -/
theorem test_cameraB_lanes : linkNeeded cameraB 0 = 83 ∧ linkAvailable cameraB 0 = 95 := by decide +kernel

/-- 12_translation_dma.md worked example: stride 2,560 bytes, slots of 2 MiB. -/
theorem test_cameraB_ring : ringStride cameraB = 2560 ∧ ringSlotBytes cameraB = 2097152 := by decide +kernel

/-- Camera A, layout 1: one stream of 16,384 × 12,288 and a proxy (03_streams.md, 04_prediction.md examples). -/
def cameraA : State := withObjects live [(key 0x2500 1, 64), (key 0x2500 2, 192), (key 0x2500 3, 192),
    (key 0x2203 2, 48), (key 0x2203 3, 1), (key 0x2203 4, 0x10001),
    (key 0x2300 1, 3), (key 0x2300 2, 12), (key 0x2300 3, 16384), (key 0x2300 4, 0),
    (kStream 0 1, 1), (kStream 0 3, 15), (kStream 0 6, 16384), (kStream 0 7, 12288), (kStream 0 8, 3), (kStream 0 9, 12),
    (kStream 0 0x10, 48), (kStream 1 1, 1), (kStream 1 2, 1), (kStream 1 3, 1), (kStream 1 6, 16384), (kStream 1 7, 12288),
    (kStream 1 8, 1), (kStream 1 9, 10), (kStream 1 0x10, 48), (kStream 1 0x15, 3), (key 0x3010 1, 256), (key 0x3011 1, 64)]

/-- 02_lap.md R35 as 03_streams.md works it: L_min 162,752, C 152,516; the proxy's level 5 and its plan of 4 slices. -/
theorem test_cameraA_account :
    lapMin cameraA = 162752 ∧ capacity cameraA = 152516 ∧ lapDemand cameraA 0 4 = 110816 ∧
    (levelOf cameraA 1).map Prod.fst = some 150 ∧ acceptQ cameraA 1 false (some 200) = some 4 := by decide +kernel

/-- 04_prediction.md worked example: window footprints of CH0 and CH1. -/
theorem test_cameraA_windows :
    footprint cameraA (planAsked cameraA) 0 = 7471104 ∧ footprint cameraA (planAsked cameraA) 1 = 7077888 := by decide +kernel

/-- Channel 1 of Camera B before CTU 12 of Table 5-9: the budget is 7,400; CTU 12 opens slice 6, and with the slice header
of this state, 96 bits, 5,768 are spent. -/
def tableNine : State := { cameraB with
  chans := cameraB.chans.map fun x => { x with costs := .replicate 5 (.replicate 5 30) }
  streams := (Vector.replicate 16 streamReset).set 0 { streamReset with
    active := true
    q := 16
    coding := some { codingOne with
      qp := 51
      budgetHere := true
      shares := .replicate 4 7400
      parts := .replicate 4 (some { partOne with
        ctus := 20, done := 12, slicesBegun := 6, budget := 7400, spent := 5672, lastQp := 35 }) } } }

/-- 05_pacer.md Table 5-9, CTU 12: QP 37; 5,768 bits with the slice header, 390 bits do not fit, 58 do. -/
theorem test_tableNine :
    (((after (execCtuCode 1 0 ctuGood tableNine)).streams[(0 : StreamId)].coding.bind fun k => k.parts.toList[1]?.join).map
      fun p => (p.spent, p.done, p.lastQp)) = some (5826, 13, 37) := by decide +kernel

/-- 10_time.md worked example: o = -20.7 ns, the integral -0.414, a Sync interval of 1/8 s: 52.99 ppb in 2⁻³² ns per 10 ns. -/
theorem test_servo : servoAdj (-1356595) (-1356595) (-3) = 2275 := by decide +kernel

def digits : List Byte := [0x31, 0x32, 0x33, 0x34, 0x35, 0x36, 0x37, 0x38, 0x39]

/-- What the scrambler of a lane makes of a payload the descrambler of the other end, with the same last 58 bits, reads back, and its state
follows (07_sensor_lanes.md R163). -/
theorem test_scrambler :
    (descramble 0x123456789ABCDEF (scramble 0x123456789ABCDEF 0x0807060504030269).1).1 = 0x0807060504030269 ∧
    (descramble 0x123456789ABCDEF (scramble 0x123456789ABCDEF 0x0807060504030269).1).2 =
      (scramble 0x123456789ABCDEF 0x0807060504030269).2 := by decide +kernel

/-- 14_integrity.md Table 14-5: the check values of the four codes. -/
theorem test_check_values :
    crcOf 0 0 digits = 0xCBF43926 ∧ crcOf 1 0 digits = 0xE3069283 ∧ crcOf 2 0 digits = 0xE5CC ∧
    crcOf 3 0 digits = 0x6C40DF5F0B497347 := by decide +kernel

end Sys2Proof.Tests
end

section
/-! PROOF. The task dispatcher (02_lap.md R45, R47 to R49): what a taken or refused flag write, the delay list, the held flag
writes and a turn of an engine leave of a unit's dispatcher. -/

namespace Sys2Proof.Machine

/-! ## The four commands -/

theorem exec_timerInsert (u : UnitId) (task laps : Nat) (flag : Fin 32) (s : State) :
    exec (.timerInsert u task laps flag) s = execTimerInsert u task laps flag s := rfl

theorem exec_timerExpiry (u : UnitId) (s : State) : exec (.timerExpiry u) s = execTimerExpiry u s := rfl

theorem exec_flagWriteRetry (u : UnitId) (s : State) : exec (.flagWriteRetry u) s = execFlagWriteRetry u s := rfl

theorem exec_taskRun (u : UnitId) (e : EngineId) (x : TaskTurn) (s : State) :
    exec (.taskRun u e x) s = execTaskRun u e x s := rfl

/-! ## Tasks: found by number, changed by number -/

section
variable (d : DispState) (i : Nat) (f : Task → Task)

@[simp] theorem modTask_queues : (modTask d i f).queues = d.queues := rfl
@[simp] theorem modTask_running : (modTask d i f).running = d.running := rfl
@[simp] theorem modTask_timers : (modTask d i f).timers = d.timers := rfl
@[simp] theorem modTask_heldFlags : (modTask d i f).heldFlags = d.heldFlags := rfl

end

/-- A task after a change is one that the change was made to, or another one as it was. -/
theorem mem_modTask {d : DispState} {i : Nat} {f : Task → Task} {y : Task} (h : y ∈ (modTask d i f).tasks) :
    ∃ t ∈ d.tasks, t.ident = i ∧ y = f t ∨ t.ident ≠ i ∧ y = t := by
  obtain ⟨t, ht, rfl⟩ := List.mem_map.1 h
  by_cases hi : t.ident = i
  · exact ⟨t, ht, .inl ⟨hi, if_pos hi⟩⟩
  · exact ⟨t, ht, .inr ⟨hi, if_neg hi⟩⟩

theorem findTask_ident {d : DispState} {i : Nat} {t : Task} (h : findTask d i = some t) : t.ident = i :=
  eq_of_beq (List.find?_some (l := d.tasks) (p := fun t : Task => t.ident == i) h)

theorem ident_ne_of_findTask_none {d : DispState} {i : Nat} (h : findTask d i = none) : ∀ y ∈ d.tasks, y.ident ≠ i :=
  fun y hy => by simpa using List.find?_eq_none.1 h y hy

/-- A change that keeps the task's number leaves every task where it was found. -/
theorem findTask_modTask (d : DispState) (i : Nat) (f : Task → Task) (j : Nat) (hf : ∀ t, t.ident = i → (f t).ident = i) :
    findTask (modTask d i f) j = (findTask d j).map fun t => if t.ident = i then f t else t := by
  have same : ∀ t : Task, (if t.ident = i then f t else t).ident = t.ident := by
    intro t
    split
    · next h => rw [hf t h, h]
    · rfl
  simp only [findTask, modTask, List.find?_map, Function.comp_def, same]

/-! ## A flag write that is taken (R45, R48) -/

/-- Flag f is set in every task numbered i. -/
def FlagSet (d : DispState) (i : Nat) (f : Fin 32) : Prop := ∀ y ∈ d.tasks, y.ident = i → y.flags.getLsbD f.val = true

/-- A change of the task that keeps the flags it has keeps a flag set. -/
theorem flagSet_modTask {d : DispState} {j : Nat} {g : Fin 32} (i : Nat) {f : Task → Task} (h : FlagSet d j g)
    (hi : ∀ t, (f t).ident = t.ident) (hf : ∀ t, (f t).flags = t.flags) : FlagSet (modTask d i f) j g := by
  intro y hy hj
  obtain ⟨t, ht, ⟨-, rfl⟩ | ⟨-, rfl⟩⟩ := mem_modTask hy
  · rw [hf t]
    exact h t ht ((hi t).symm.trans hj)
  · exact h y ht hj

theorem getLsbD_flagBit (f : Fin 32) : (BitVec.ofNat 32 (1 <<< f.val)).getLsbD f.val = true := by
  simp [BitVec.getLsbD_ofNat, Nat.testBit_shiftLeft]

/-- A taken flag write replaces the task it names by one with the flag beside those it had, of the same number and class. -/
theorem flagTaken_tasks {d : DispState} {i : Nat} {t : Task} (lap : Nat) (f : Fin 32) (h : findTask d i = some t) :
    ∃ t' : Task, (flagTaken d lap i f).tasks = (modTask d i fun _ => t').tasks ∧ t'.ident = i ∧ t'.cls = t.cls ∧
      t'.flags = t.flags ||| BitVec.ofNat 32 (1 <<< f.val) := by
  have hi := findTask_ident h
  unfold flagTaken
  simp only [h]
  split
  · exact ⟨_, rfl, hi, rfl, rfl⟩
  · exact ⟨_, rfl, hi, rfl, rfl⟩

theorem flagTaken_none {d : DispState} {i : Nat} (lap : Nat) (f : Fin 32) (h : findTask d i = none) :
    flagTaken d lap i f = d := by
  simp [flagTaken, h]

/-- A flag write leaves the engines' tasks, the delay list and the held writes. -/
@[simp] theorem flagTaken_frame (d : DispState) (lap i : Nat) (f : Fin 32) :
    (flagTaken d lap i f).running = d.running ∧ (flagTaken d lap i f).timers = d.timers ∧
      (flagTaken d lap i f).heldFlags = d.heldFlags := by
  unfold flagTaken
  split
  · dsimp only
    split <;> simp
  · simp

theorem flagSet_flagTaken (d : DispState) (lap i : Nat) (f : Fin 32) : FlagSet (flagTaken d lap i f) i f := by
  intro y hy hyi
  cases h : findTask d i with
  | none =>
    rw [flagTaken_none lap f h] at hy
    exact absurd hyi (ident_ne_of_findTask_none h y hy)
  | some t =>
    obtain ⟨t', htasks, -, -, hflags⟩ := flagTaken_tasks lap f h
    rw [htasks] at hy
    obtain ⟨x, -, ⟨-, rfl⟩ | ⟨hx, rfl⟩⟩ := mem_modTask hy
    · simp [hflags, getLsbD_flagBit]
    · exact absurd hyi hx

/-- A flag write clears no flag. -/
theorem FlagSet.after_flagTaken {d : DispState} {j : Nat} {g : Fin 32} (h : FlagSet d j g) (lap i : Nat) (f : Fin 32) :
    FlagSet (flagTaken d lap i f) j g := by
  intro y hy hyj
  cases hi : findTask d i with
  | none => exact h y (by rwa [flagTaken_none lap f hi] at hy) hyj
  | some t =>
    obtain ⟨t', htasks, hident, -, hflags⟩ := flagTaken_tasks lap f hi
    rw [htasks] at hy
    obtain ⟨x, hx, ⟨-, rfl⟩ | ⟨-, rfl⟩⟩ := mem_modTask hy
    · have ht := h t (List.mem_of_find?_eq_some hi) ((findTask_ident hi).trans (hident.symm.trans hyj))
      simp [hflags, ht]
    · exact h y hx hyj

/-- The class of the task on an engine survives a flag write. -/
theorem runningClass_flagTaken (d : DispState) (lap i : Nat) (f : Fin 32) (e : EngineId) :
    runningClass (flagTaken d lap i f) e = runningClass d e := by
  cases h : findTask d i with
  | none => rw [flagTaken_none lap f h]
  | some t =>
    obtain ⟨t', htasks, hident, hcls, -⟩ := flagTaken_tasks lap f h
    have found : ∀ j, (findTask (flagTaken d lap i f) j).map (·.cls.val) = (findTask d j).map (·.cls.val) := by
      intro j
      have hj : findTask (flagTaken d lap i f) j = findTask (modTask d i fun _ => t') j := by simp only [findTask, htasks]
      rw [hj, findTask_modTask _ _ _ _ fun _ _ => hident, Option.map_map]
      by_cases hij : j = i
      · subst hij
        simp [h, findTask_ident h, hcls]
      · refine Option.map_congr fun x hx => ?_
        simp [findTask_ident hx, hij]
    simp only [runningClass, (flagTaken_frame d lap i f).1, found]

theorem runningClass_modTask (d : DispState) (i : Nat) (f : Task → Task) (e : EngineId)
    (hi : ∀ t, (f t).ident = t.ident) (hc : ∀ t, (f t).cls = t.cls) : runningClass (modTask d i f) e = runningClass d e := by
  have found : ∀ j, (findTask (modTask d i f) j).map (·.cls.val) = (findTask d j).map (·.cls.val) := by
    intro j
    rw [findTask_modTask _ _ _ _ fun t ht => (hi t).trans ht, Option.map_map]
    refine Option.map_congr fun x _ => ?_
    simp only [Function.comp_apply]
    split
    · rw [hc]
    · rfl
  simp only [runningClass, modTask_running, found]

/-! ## The delay list (R47) -/

/-- An insertion into a sorted list lands behind the timers that expire no later, and before those that expire later. -/
theorem timerAdd_place (t : Timer) (l : List Timer) (hl : l.Pairwise fun a b => a.laps ≤ b.laps) :
    ∃ pre post, l = pre ++ post ∧ timerAdd t l = pre ++ t :: post ∧ (∀ y ∈ pre, y.laps ≤ t.laps) ∧
      ∀ y ∈ post, t.laps < y.laps := by
  induction l with
  | nil => exact ⟨[], [], rfl, rfl, by simp, by simp⟩
  | cons x l ih =>
    obtain ⟨hx, hl⟩ := List.pairwise_cons.1 hl
    by_cases hlt : t.laps < x.laps
    · refine ⟨[], x :: l, rfl, by simp [timerAdd, hlt], by simp, fun y hy => ?_⟩
      rcases List.mem_cons.1 hy with rfl | hy
      · exact hlt
      · exact Nat.lt_of_lt_of_le hlt (hx y hy)
    · obtain ⟨pre, post, hl, hadd, hpre, hpost⟩ := ih hl
      refine ⟨x :: pre, post, by simp [hl], by simp [timerAdd, hlt, hadd], fun y hy => ?_, hpost⟩
      rcases List.mem_cons.1 hy with rfl | hy
      · exact Nat.le_of_not_lt hlt
      · exact hpre y hy

/-- The list stays sorted with a timer between those that expire no later and those that expire later. -/
theorem pairwise_laps_insert {t : Timer} {pre post : List Timer} (h : (pre ++ post).Pairwise fun a b => a.laps ≤ b.laps)
    (hpre : ∀ y ∈ pre, y.laps ≤ t.laps) (hpost : ∀ y ∈ post, t.laps < y.laps) :
    (pre ++ t :: post).Pairwise fun a b => a.laps ≤ b.laps := by
  obtain ⟨h1, h2, h12⟩ := List.pairwise_append.1 h
  refine List.pairwise_append.2 ⟨h1, List.pairwise_cons.2 ⟨fun y hy => (hpost y hy).le, h2⟩, fun a ha b hb => ?_⟩
  rcases List.mem_cons.1 hb with rfl | hb
  · exact hpre a ha
  · exact h12 a ha b hb

theorem execTimerInsert_taken {u : UnitId} {laps : Nat} {s : State} (task : Nat) (flag : Fin 32)
    (hroom : (s.disp.get u).timers.length < 1024) (hlaps : laps ≤ 16777215) :
    ∃ d, d.timers = timerAdd ⟨max 1 laps, task, flag⟩ (s.disp.get u).timers ∧
      execTimerInsert u task laps flag s = .next { s with disp := s.disp.set u d } := by
  refine ⟨{ modTask (s.disp.get u) task (fun t => { t with refused := false }) with timers := timerAdd _ _ }, rfl, ?_⟩
  simp [execTimerInsert, Nat.not_le.2 hroom, Nat.not_lt.2 hlaps]

theorem execTimerInsert_refused {u : UnitId} {laps : Nat} {s : State} (task : Nat) (flag : Fin 32)
    (h : 1024 ≤ (s.disp.get u).timers.length ∨ 16777215 < laps) :
    execTimerInsert u task laps flag s =
      .next { s with disp := s.disp.set u (modTask (s.disp.get u) task fun t => { t with refused := true }) } := by
  simp only [execTimerInsert, if_pos h]

/-- R47: an insertion into a list with room. -/
theorem timerInsert_places (u : UnitId) (task laps : Nat) (flag : Fin 32) (s : State)
    (hroom : (s.disp.get u).timers.length < 1024) (hlaps : laps ≤ 16777215) (hsorted : TimersSorted (s.disp.get u)) :
    ∃ t pre post, exec (.timerInsert u task laps flag) s = .next t ∧ (s.disp.get u).timers = pre ++ post ∧
      (t.disp.get u).timers = pre ++ ⟨max 1 laps, task, flag⟩ :: post ∧ (∀ y ∈ pre, y.laps ≤ max 1 laps) ∧
      (∀ y ∈ post, max 1 laps < y.laps) ∧ TimersSorted (t.disp.get u) ∧
      t.disp.get u.other = s.disp.get u.other ∧ t = { s with disp := t.disp } := by
  obtain ⟨pre, post, hsplit, hadd, hpre, hpost⟩ := timerAdd_place ⟨max 1 laps, task, flag⟩ _ hsorted
  obtain ⟨d, htimers, hexec⟩ := execTimerInsert_taken task flag hroom hlaps
  refine ⟨_, pre, post, (exec_timerInsert ..).trans hexec, hsplit, ?_, hpre, hpost, ?_, pair_set_other .., rfl⟩
  · rw [pair_set_get, htimers, hadd]
  · rw [pair_set_get, TimersSorted, htimers, hadd]
    exact pairwise_laps_insert (hsplit ▸ hsorted) hpre hpost

/-- R47, log entry 54: an insertion into a full list, or of too many laps. -/
theorem timerInsert_refuses (u : UnitId) (task laps : Nat) (flag : Fin 32) (s : State)
    (h : 1024 ≤ (s.disp.get u).timers.length ∨ 16777215 < laps) :
    ∃ t, exec (.timerInsert u task laps flag) s = .next t ∧ (t.disp.get u).timers = (s.disp.get u).timers ∧
      t.disp.get u.other = s.disp.get u.other ∧ t = { s with disp := t.disp } :=
  ⟨_, (exec_timerInsert ..).trans (execTimerInsert_refused task flag h), by simp, pair_set_other .., rfl⟩

theorem setTaskFlag_taken {s : State} {u : UnitId} {i : Nat} {f : Fin 32} (h : flagRefused (s.disp.get u) i f = false) :
    setTaskFlag s u i f = { s with disp := s.disp.set u (flagTaken (s.disp.get u) s.lap.count i f) } := by
  simp [setTaskFlag, h]

theorem execTimerExpiry_expired {u : UnitId} {x : Timer} {rest : List Timer} {s : State}
    (h : (s.disp.get u).timers = x :: rest) (hx : x.laps = 0) :
    execTimerExpiry u s =
      .next (setTaskFlag { s with disp := s.disp.set u { s.disp.get u with timers := rest } } u x.task x.flag) := by
  simp [execTimerExpiry, expireTimers, h, hx]

/-- R47: the first expired timer leaves the list and sets its flag. -/
theorem timerExpiry_sets_flag (u : UnitId) (x : Timer) (rest : List Timer) (s : State)
    (h : (s.disp.get u).timers = x :: rest) (hx : x.laps = 0) (hflag : flagRefused (s.disp.get u) x.task x.flag = false) :
    ∃ t, exec (.timerExpiry u) s = .next t ∧ (t.disp.get u).timers = rest ∧
      (∀ y ∈ (t.disp.get u).tasks, y.ident = x.task → y.flags.getLsbD x.flag.val = true) ∧
      t.disp.get u.other = s.disp.get u.other ∧ t = { s with disp := t.disp } := by
  refine ⟨_, (exec_timerExpiry ..).trans (execTimerExpiry_expired h hx), ?_⟩
  rw [setTaskFlag_taken (by rw [pair_set_get]; exact hflag)]
  refine ⟨by simp, ?_, by simp, rfl⟩
  rw [pair_set_get]
  exact flagSet_flagTaken _ s.lap.count x.task x.flag

/-! ## Held flag writes (R48) -/

theorem offerFlag_taken {d : DispState} {w : Nat × Fin 32} (lap : Nat) (h : flagRefused d w.1 w.2 = false) :
    offerFlag lap d w = flagTaken d lap w.1 w.2 := by
  simp [offerFlag, h]

theorem offerFlag_refused {d : DispState} {w : Nat × Fin 32} (lap : Nat) (h : flagRefused d w.1 w.2 = true) :
    offerFlag lap d w = { d with heldFlags := d.heldFlags ++ [w] } := by
  simp [offerFlag, h]

/-- The writes offered again join those held, each one that is refused, in order. -/
theorem foldl_offerFlag_held (lap : Nat) (l : List (Nat × Fin 32)) (d : DispState) :
    ∃ kept, kept.Sublist l ∧ (l.foldl (offerFlag lap) d).heldFlags = d.heldFlags ++ kept := by
  induction l generalizing d with
  | nil => exact ⟨[], .slnil, by simp⟩
  | cons w l ih =>
    obtain ⟨kept, hsub, hheld⟩ := ih (offerFlag lap d w)
    cases h : flagRefused d w.1 w.2 with
    | false => exact ⟨kept, hsub.cons w, by simpa [offerFlag_taken lap h] using hheld⟩
    | true => exact ⟨w :: kept, hsub.cons_cons w, by simpa [offerFlag_refused lap h] using hheld⟩

theorem foldl_offerFlag_timers (lap : Nat) (l : List (Nat × Fin 32)) (d : DispState) :
    (l.foldl (offerFlag lap) d).timers = d.timers := by
  induction l generalizing d with
  | nil => rfl
  | cons w l ih =>
    rw [List.foldl_cons, ih]
    cases h : flagRefused d w.1 w.2 with
    | false => simp [offerFlag_taken lap h]
    | true => simp [offerFlag_refused lap h]

theorem FlagSet.after_foldl_offerFlag {d : DispState} {j : Nat} {g : Fin 32} (h : FlagSet d j g) (lap : Nat) (l : List (Nat × Fin 32)) :
    FlagSet (l.foldl (offerFlag lap) d) j g := by
  induction l generalizing d with
  | nil => exact h
  | cons w l ih =>
    refine ih ?_
    cases hw : flagRefused d w.1 w.2 with
    | false => exact offerFlag_taken lap hw ▸ h.after_flagTaken lap w.1 w.2
    | true => exact offerFlag_refused lap hw ▸ h

/-- R48: the first held flag write is taken where its queue has room, else it stays the first one held. -/
theorem flagWriteRetry_offers (u : UnitId) (i : Nat) (f : Fin 32) (rest : List (Nat × Fin 32)) (s : State)
    (h : (s.disp.get u).heldFlags = (i, f) :: rest) :
    ∃ t, exec (.flagWriteRetry u) s = .next t ∧
      (flagRefused (s.disp.get u) i f = false → (t.disp.get u).heldFlags.Sublist rest ∧
        ∀ y ∈ (t.disp.get u).tasks, y.ident = i → y.flags.getLsbD f.val = true) ∧
      (flagRefused (s.disp.get u) i f = true → (t.disp.get u).heldFlags.head? = some (i, f)) ∧
      (t.disp.get u).timers = (s.disp.get u).timers ∧ t.disp.get u.other = s.disp.get u.other ∧ t = { s with disp := t.disp } := by
  refine ⟨_, exec_flagWriteRetry u s, ?_, ?_, ?_, pair_set_other .., rfl⟩ <;> rw [pair_set_get, h]
  · intro hfree
    rw [List.foldl_cons, offerFlag_taken s.lap.count (w := (i, f)) (d := { s.disp.get u with heldFlags := [] }) hfree]
    obtain ⟨kept, hsub, hheld⟩ := foldl_offerFlag_held s.lap.count rest
      (flagTaken { s.disp.get u with heldFlags := [] } s.lap.count i f)
    refine ⟨?_, (flagSet_flagTaken _ s.lap.count i f).after_foldl_offerFlag s.lap.count rest⟩
    rw [hheld]
    simpa using hsub
  · intro hfull
    rw [List.foldl_cons, offerFlag_refused s.lap.count (w := (i, f)) (d := { s.disp.get u with heldFlags := [] }) hfull]
    obtain ⟨kept, -, hheld⟩ := foldl_offerFlag_held s.lap.count rest { s.disp.get u with heldFlags := [] ++ [(i, f)] }
    rw [hheld]
    rfl
  · exact foldl_offerFlag_timers ..

/-! ## The endpoint's refused datagrams (09_flows.md Table 9-2) -/

/-- Only the registers, the ports, the flows and the units' counts may differ. -/
def OnlyEndpoint (s t : State) : Prop :=
  ∃ regs ports flows counts, t = { s with regs := regs, ports := ports, flows := flows, counts := counts }

theorem OnlyEndpoint.refl (s : State) : OnlyEndpoint s s := ⟨_, _, _, _, rfl⟩

theorem OnlyEndpoint.trans {s t v : State} (h : OnlyEndpoint s t) (h' : OnlyEndpoint t v) : OnlyEndpoint s v := by
  obtain ⟨_, _, _, _, rfl⟩ := h
  obtain ⟨_, _, _, _, rfl⟩ := h'
  exact ⟨_, _, _, _, rfl⟩

theorem onlyEndpoint_forEach {α : Type} {f : State → α → State} (hf : ∀ s a, OnlyEndpoint s (f s a)) (l : List α) (s : State) :
    OnlyEndpoint s (forEach l f s) := by
  induction l generalizing s with
  | nil => exact .refl s
  | cons a l ih => exact (hf s a).trans (ih (f s a))

theorem onlyEndpoint_enqueue (s : State) (f : FlowId) (l : List Packet) : OnlyEndpoint s (enqueue s f l) := by
  unfold enqueue noteDepth
  split <;> exact ⟨_, _, _, _, rfl⟩

theorem onlyEndpoint_offerDatagram (s : State) (p : PortId) (pk : Packet) : OnlyEndpoint s (offerDatagram s p pk) := by
  unfold offerDatagram
  split
  · exact ⟨_, _, _, _, rfl⟩
  · split
    · exact onlyEndpoint_enqueue ..
    · exact ⟨_, _, _, _, rfl⟩

theorem onlyEndpoint_retryDatagrams (s : State) : OnlyEndpoint s (retryDatagrams s) :=
  onlyEndpoint_forEach (fun x p => .trans (t := { x with ports := vmod x.ports p fun z => { z with refused := [] } })
    ⟨_, _, _, _, rfl⟩ (onlyEndpoint_forEach (fun y pk => onlyEndpoint_offerDatagram y p pk) _ _)) _ _

/-! ## A turn of an engine (R45, R48, R49) -/

/-- On an engine without a task only the dispatch is left. -/
theorem execTaskRun_free {u : UnitId} {e : EngineId} {s : State} (x : TaskTurn) (h : (s.disp.get u).running.get e = none) :
    ∃ t, OnlyEndpoint s t ∧ (s.relay.active ≠ some u → t = s) ∧
      execTaskRun u e x s = .next { t with disp := s.disp.set u (dispatchEngine (s.disp.get u) e) } := by
  have hend : ∀ lap, endTask (s.disp.get u) lap e = s.disp.get u := fun lap => by simp [endTask, h]
  by_cases ha : s.relay.active = some u
  · obtain ⟨_, _, _, _, ht⟩ := onlyEndpoint_retryDatagrams s
    exact ⟨_, onlyEndpoint_retryDatagrams s, fun hn => absurd ha hn, by simp [execTaskRun, h, ha, ht, hend]⟩
  · exact ⟨s, .refl s, fun _ => rfl, by simp [execTaskRun, h, ha, hend]⟩

/-- On the standby, the task on the engine sets its flags, and then the engine is dispatched. -/
theorem execTaskRun_standby {u : UnitId} {e : EngineId} {i : Nat} {s v : State} {x : TaskTurn}
    (h : (s.disp.get u).running.get e = some i) (ha : s.relay.active ≠ some u)
    (hv : forEach x.sets (fun y w => taskFlag y u i w) s = v) :
    execTaskRun u e x s = .next { v with
      disp := v.disp.set u
        (dispatchEngine (if x.yielded then endTask (v.disp.get u) v.lap.count e else v.disp.get u) e) } := by
  subst hv
  simp only [execTaskRun, h, if_neg ha]

theorem dispatchEngine_free {d : DispState} {e : EngineId} {i : Nat} (hready : firstReady d e 0 = some i)
    (hrun : d.running.get e = none) : dispatchEngine d e = startTask d e 0 i := by
  simp [dispatchEngine, runningClass, hready, hrun]

theorem dispatchEngine_idle {d : DispState} {e : EngineId} (hready : ∀ k, k < 3 → firstReady d e k = none)
    (hrun : d.running.get e = none) (hsaved : d.saved.get e = []) : dispatchEngine d e = d := by
  simp [dispatchEngine, hready 0, hready 1, hready 2, hrun, hsaved]

/-- A lap-deadline task keeps its engine. -/
theorem dispatchEngine_lapDeadline {d : DispState} {e : EngineId} (h : runningClass d e = some 0) : dispatchEngine d e = d := by
  unfold dispatchEngine
  split
  · simp [h]
  · have hrun : (d.running.get e).isSome := by
      cases hr : d.running.get e with
      | none => simp [runningClass, hr] at h
      | some i => rfl
    rw [if_pos hrun]

/-- R48: a ready lap-deadline task runs on a free engine. -/
theorem taskRun_starts_ready (u : UnitId) (e : EngineId) (i : Nat) (x : TaskTurn) (s : State)
    (hready : firstReady (s.disp.get u) e 0 = some i) (hrun : (s.disp.get u).running.get e = none) :
    ∃ t, exec (.taskRun u e x) s = .next t ∧ (t.disp.get u).running.get e = some i ∧
      (t.disp.get u).timers = (s.disp.get u).timers ∧ t.disp.get u.other = s.disp.get u.other ∧
      (s.relay.active ≠ some u → t = { s with disp := t.disp }) ∧
      t = { s with regs := t.regs, overflow := t.overflow, disp := t.disp, ports := t.ports, flows := t.flows, counts := t.counts } := by
  obtain ⟨v, ⟨_, _, _, _, hv⟩, hsame, hexec⟩ := execTaskRun_free x hrun
  refine ⟨_, (exec_taskRun ..).trans hexec, ?_, ?_, pair_set_other .., fun ha => by rw [hsame ha], by rw [hv]⟩
  · rw [pair_set_get, dispatchEngine_free hready hrun]
    exact vmod_get_same ..
  · rw [pair_set_get, dispatchEngine_free hready hrun]
    rfl

/-- The first ready task of a class stays the first through a change that keeps the task's number and engine. -/
theorem firstReady_modTask (d : DispState) (i : Nat) (f : Task → Task) (e : EngineId) (cls : Nat)
    (hi : ∀ t, (f t).ident = t.ident) (he : ∀ t, (f t).engine = t.engine) :
    firstReady (modTask d i f) e cls = firstReady d e cls := by
  simp only [firstReady, modTask_queues]
  congr 1
  funext j
  rw [findTask_modTask _ _ _ _ fun t ht => (hi t).trans ht]
  cases findTask d j with
  | none => rfl
  | some t =>
    simp only [Option.map_some]
    split
    · rw [he]
    · rfl

/-- The dispatcher once task i has given up engine e. -/
def givenUp (d : DispState) (e : EngineId) (i : Nat) : DispState :=
  { modTask d i (fun t => { t with status := .waiting }) with running := vmod d.running e fun _ => none }

/-- A task without a raised flag of its mask waits, and its engine is free. -/
theorem endTask_waits {d : DispState} {e : EngineId} {x : Task} (lap : Nat) (hrun : d.running.get e = some x.ident)
    (hfind : findTask d x.ident = some x) (hflags : raisedFlags x = []) : endTask d lap e = givenUp d e x.ident := by
  have hfound : findTask (givenUp d e x.ident) x.ident = some { x with status := .waiting } := by
    refine (findTask_modTask d x.ident (fun t => { t with status := .waiting }) x.ident fun _ ht => ht).trans ?_
    simp [hfind]
  have hnone : raisedFlags { x with status := .waiting } = [] := hflags
  unfold givenUp at hfound ⊢
  simp only [endTask, hrun, hfound, Option.bind_some, hnone, List.head?_nil]

/-- R48, R49: a task that gives up its engine with nothing ready waits, and the engine stands idle. -/
theorem taskRun_yields (u : UnitId) (e : EngineId) (x : Task) (s : State)
    (hrun : (s.disp.get u).running.get e = some x.ident) (hfind : findTask (s.disp.get u) x.ident = some x)
    (hflags : raisedFlags x = []) (hready : ∀ k, k < 3 → firstReady (s.disp.get u) e k = none)
    (hsaved : (s.disp.get u).saved.get e = []) (ha : s.relay.active ≠ some u) :
    ∃ t, exec (.taskRun u e ⟨[], true⟩) s = .next t ∧ (t.disp.get u).running.get e = none ∧
      (∀ y ∈ (t.disp.get u).tasks, y.ident = x.ident → y.status = .waiting) ∧
      t.disp.get u.other = s.disp.get u.other ∧ t = { s with disp := t.disp } := by
  have hfree : (givenUp (s.disp.get u) e x.ident).running.get e = none := vmod_get_same ..
  have hidle : dispatchEngine (givenUp (s.disp.get u) e x.ident) e = givenUp (s.disp.get u) e x.ident :=
    dispatchEngine_idle (fun k hk => (firstReady_modTask (s.disp.get u) x.ident
      (fun t => { t with status := .waiting }) e k (fun _ => rfl) fun _ => rfl).trans (hready k hk)) hfree hsaved
  refine ⟨_, (exec_taskRun ..).trans (execTaskRun_standby (v := s) (x := ⟨[], true⟩) hrun ha rfl), ?_⟩
  simp only [if_true, endTask_waits s.lap.count hrun hfind hflags, hidle, pair_set_get]
  refine ⟨hfree, fun y hy hyi => ?_, pair_set_other .., trivial⟩
  obtain ⟨t, -, ⟨-, rfl⟩ | ⟨hne, rfl⟩⟩ := mem_modTask hy
  · rfl
  · exact absurd hyi hne

/-- The dispatcher after a task's flag write: the flag where it is taken, and the refusal status of the writer. -/
def flagAnswered (d : DispState) (lap writer : Nat) (w : Nat × Fin 32) : DispState :=
  if flagRefused d w.1 w.2 then modTask d writer fun t => { t with refused := true }
  else modTask (flagTaken d lap w.1 w.2) writer fun t => { t with refused := false }

theorem taskFlag_eq (s : State) (u : UnitId) (writer : Nat) (w : Nat × Fin 32) :
    ∃ regs, taskFlag s u writer w =
      { s with regs := regs, disp := s.disp.set u (flagAnswered (s.disp.get u) s.lap.count writer w) } := by
  unfold taskFlag flagAnswered
  dsimp only
  split
  · split
    · split <;> exact ⟨_, rfl⟩
    · exact ⟨_, rfl⟩
  · exact ⟨_, rfl⟩

theorem flagAnswered_running (d : DispState) (lap writer : Nat) (w : Nat × Fin 32) :
    (flagAnswered d lap writer w).running = d.running := by
  unfold flagAnswered
  split <;> simp

theorem runningClass_flagAnswered (d : DispState) (lap writer : Nat) (w : Nat × Fin 32) (e : EngineId) :
    runningClass (flagAnswered d lap writer w) e = runningClass d e := by
  unfold flagAnswered
  split
  · exact runningClass_modTask d writer (fun t => { t with refused := true }) e (fun _ => rfl) fun _ => rfl
  · exact (runningClass_modTask _ writer (fun t => { t with refused := false }) e (fun _ => rfl) fun _ => rfl).trans
      (runningClass_flagTaken ..)

theorem modTask_refused {d : DispState} {i : Nat} {b : Bool} {y : Task}
    (hy : y ∈ (modTask d i fun t => { t with refused := b }).tasks) (hi : y.ident = i) : y.refused = b := by
  obtain ⟨t, -, ⟨-, rfl⟩ | ⟨hne, rfl⟩⟩ := mem_modTask hy
  · rfl
  · exact absurd hi hne

/-- R45, R48: a lap-deadline task on its engine writes a flag of a task. -/
theorem taskRun_writes_flag (u : UnitId) (e : EngineId) (x : Task) (i : Nat) (f : Fin 32) (s : State)
    (hrun : (s.disp.get u).running.get e = some x.ident) (hfind : findTask (s.disp.get u) x.ident = some x) (hcls : x.cls = 0)
    (ha : s.relay.active ≠ some u) :
    ∃ t, exec (.taskRun u e ⟨[(i, f)], false⟩) s = .next t ∧ (t.disp.get u).running = (s.disp.get u).running ∧
      (flagRefused (s.disp.get u) i f = false →
        (∀ y ∈ (t.disp.get u).tasks, y.ident = i → y.flags.getLsbD f.val = true) ∧
        (∀ y ∈ (t.disp.get u).tasks, y.ident = x.ident → y.refused = false)) ∧
      (flagRefused (s.disp.get u) i f = true → ∀ y ∈ (t.disp.get u).tasks, y.ident = x.ident → y.refused = true) ∧
      t = { s with regs := t.regs, disp := t.disp } := by
  have hclass : runningClass (s.disp.get u) e = some 0 := by simp [runningClass, hrun, hfind, hcls]
  have hstays := dispatchEngine_lapDeadline
    ((runningClass_flagAnswered (s.disp.get u) s.lap.count x.ident (i, f) e).trans hclass)
  obtain ⟨regs, hwrite⟩ := taskFlag_eq s u x.ident (i, f)
  refine ⟨_, (exec_taskRun ..).trans (execTaskRun_standby (x := ⟨[(i, f)], false⟩) hrun ha hwrite), ?_⟩
  simp only [pair_set_get, Bool.false_eq_true, if_false, hstays]
  refine ⟨flagAnswered_running .., fun hfree => ?_, fun hfull => ?_, trivial⟩
  · simp only [flagAnswered, hfree, Bool.false_eq_true, if_false]
    exact ⟨flagSet_modTask _ (flagSet_flagTaken _ s.lap.count i f) (fun _ => rfl) fun _ => rfl, fun y => modTask_refused⟩
  · simp only [flagAnswered, hfull, if_true]
    exact fun y => modTask_refused

/-- Settles O2: timers take their place and expire into flags, held flag writes and ready tasks are taken, each by the lemma of
its command. -/
theorem timersAndTasksRun : Obligations.TimersAndTasksRun :=
  ⟨fun u task laps flag s => ⟨timerInsert_places u task laps flag s, timerInsert_refuses u task laps flag s⟩,
    timerExpiry_sets_flag, flagWriteRetry_offers, taskRun_starts_ready, taskRun_yields, taskRun_writes_flag⟩

end Sys2Proof.Machine
end

section
/-! PROOF. Refused object writes (17_dictionary.md R403) and the Pacer's value checks (05_pacer.md R130): what a write that a
rule of its chapter refuses leaves, and which rows and rules the Pacer's objects 05 to 08 have. -/

namespace Sys2Proof.Machine

/-! ## Answers -/

theorem answered_answer (s : State) (k : Client) (a : Answer) : answered (answer s k a) k = some a := by
  simp [answered, answer]

/-- An answer with the time of the request changes the clients' slots and the unlocking client's time alone. -/
theorem answer_touchClient_frame (s : State) (k : Client) (a : Answer) :
    answer (touchClient s k) k a =
      { s with clients := (answer (touchClient s k) k a).clients, maint := (answer (touchClient s k) k a).maint } := rfl

theorem serveEnd_abort {s : State} {k : Client} {i : Nat} {a : Abort} {f : State → State × WriteEnd} (h : Served s k i)
    (hf : f (touchClient s k) = (touchClient s k, .abort a)) : serveEnd s k i f = answer (touchClient s k) k (.abort a) := by
  obtain ⟨hserves, hgate⟩ := h
  simp only [serveEnd, hserves, hgate, hf, endWrite, if_true]

/-! ## Writes of a plain value -/

theorem exec_objectWrite (k : Client) (i sub : Nat) (data : List Byte) (s : State) :
    exec (.objectWrite k i sub data) s = .next (serveEnd s k i (writeObject k i sub data)) := rfl

theorem leNat_lt (data : List Byte) : leNat data < 256 ^ data.length := by
  induction data with
  | nil => simp [leNat]
  | cons b rest ih =>
    have hb : b.toNat < 256 := b.isLt
    simp only [leNat, List.length_cons, Nat.pow_succ]
    omega

theorem rowsOf_ne_nil_of_rowOf {i sub : Nat} {r : ObjRow} (h : rowOf i sub = some r) : rowsOf i ≠ [] := by
  intro hnil
  simp [rowOf, hnil] at h

theorem writeAccess_eq_none {r : ObjRow} (i sub : Nat) (h : r.acc ≠ .ro) : writeAccess i sub r = none := by
  unfold writeAccess
  split
  · next hro => exact absurd hro h
  · rfl

/-- A write of an object that may be written, whose data is a value of its type, is a write of that value. -/
theorem writeObject_eq_writeValue {k : Client} {i sub : Nat} {r : ObjRow} {data : List Byte} {s : State}
    (hrow : rowOf i sub = some r) (hacc : r.acc ≠ .ro) (hbulk : isBulk i sub r = false) :
    writeObject k i sub data s = writeValue k i sub r data s := by
  simp [writeObject, rowsOf_ne_nil_of_rowOf hrow, hrow, writeAccess_eq_none i sub hacc, hbulk]

theorem writeValue_of_valueRefused {k : Client} {i sub : Nat} {r : ObjRow} {data : List Byte} {s : State} {a : Abort}
    (hlen : data.length = r.ty.bytes) (hbits : leNat data < 2 ^ r.ty.bits) (hrng : r.rng.holds r.ty.bits (leNat data) = true)
    (hbad : valueRefused s k i sub (leNat data) = some a) : writeValue k i sub r data s = (s, .abort a) := by
  simp [writeValue, hlen, Nat.not_le.2 hbits, hrng, hbad]

/-- R403: a value that a rule of its chapter refuses leaves the time of the request and the answer. -/
theorem objectWrite_of_valueRefused {k : Client} {i sub : Nat} {r : ObjRow} {data : List Byte} {s : State} {a : Abort}
    (h : Served s k i) (hrow : rowOf i sub = some r) (hacc : r.acc ≠ .ro) (hbulk : isBulk i sub r = false)
    (hlen : data.length = r.ty.bytes) (hbits : leNat data < 2 ^ r.ty.bits) (hrng : r.rng.holds r.ty.bits (leNat data) = true)
    (hbad : valueRefused (touchClient s k) k i sub (leNat data) = some a) :
    exec (.objectWrite k i sub data) s = .next (answer (touchClient s k) k (.abort a)) := by
  have hwrite : writeObject k i sub data (touchClient s k) = (touchClient s k, .abort a) :=
    (writeObject_eq_writeValue hrow hacc hbulk).trans (writeValue_of_valueRefused hlen hbits hrng hbad)
  rw [exec_objectWrite, serveEnd_abort h hwrite]

/-! ## The Pacer's objects (05_pacer.md Table 5-8) -/

theorem rowsOf_pacer (n : StreamId) : rowsOf (0x3800 + n.val) = rows3800 := by
  have hbase : baseIndex (0x3800 + n.val) = 0x3800 := by
    have hn := n.isLt
    unfold baseIndex
    rw [if_neg (by omega), if_neg (by omega), if_pos (by omega)]
  rw [rowsOf, hbase]
  rfl

/-- 0x3800:05 to 08 are 16-bit RWS objects that take every value of their type. -/
theorem rowOf_pacer (n : StreamId) {sub : Nat} (hlo : 5 ≤ sub) (hhi : sub ≤ 8) :
    ∃ r, rowOf (0x3800 + n.val) sub = some r ∧ r.ty = .u16 ∧ r.acc = .rws ∧ r.rng = .any := by
  have hn := n.isLt
  have hfix : accessFix (0x3800 + n.val) sub = id := by
    funext r
    exact if_neg (by omega)
  rw [rowOf, rowsOf_pacer, hfix, Option.map_id_fun, id_eq]
  interval_cases sub <;> exact ⟨_, rfl, rfl, rfl, rfl⟩

theorem finOf_val {m : Nat} (hm : 0 < m) (n : Fin m) : finOf m hm n.val = n := Fin.ext (Nat.mod_eq_of_lt n.isLt)

/-- No rule comes before the Pacer's own for an object of the Pacer. -/
theorem valueRefused_of_pacerBad {s : State} {k : Client} {n : StreamId} {sub v : Nat} (h : pacerBad s k n sub v = true) :
    valueRefused s k (0x3800 + n.val) sub v = some .presentState := by
  have hn := n.isLt
  have hstream : finOf 16 (by decide) (0x3800 + n.val - 0x3800) = n := by
    rw [Nat.add_sub_cancel_left]
    exact finOf_val _ n
  unfold valueRefused
  rw [if_neg (by omega), if_neg (by omega), if_neg (by omega), if_pos ⟨by omega, by omega, by rw [hstream]; exact h⟩]

/-- A request's time does not enter the Pacer's checks. -/
theorem pacerBad_touchClient (s : State) (k : Client) (n : StreamId) (sub v : Nat) :
    pacerBad (touchClient s k) k n sub v = pacerBad s k n sub v := rfl

/-- R130: a write of 0x3800:05 to 08 that the Pacer's checks refuse is an access error and changes the client's slot alone. -/
theorem pacerWrite_refused {k : Client} {n : StreamId} {sub : Nat} {data : List Byte} {s : State}
    (h : Served s k (0x3800 + n.val)) (hlen : data.length = 2) (hlo : 5 ≤ sub) (hhi : sub ≤ 8)
    (hbad : pacerBad s k n sub (leNat data) = true) :
    ∃ t, exec (.objectWrite k (0x3800 + n.val) sub data) s = .next t ∧ answered t k = some (.abort .presentState) ∧
      t = { s with clients := t.clients, maint := t.maint } := by
  obtain ⟨r, hrow, hty, hacc, hrng⟩ := rowOf_pacer n hlo hhi
  have hbulk : isBulk (0x3800 + n.val) sub r = false := by
    have hn := n.isLt
    simp only [isBulk, hty, Bool.or_eq_false_iff, decide_eq_false_iff_not]
    exact ⟨by decide, by omega⟩
  have hbits : leNat data < 2 ^ r.ty.bits := by
    have hlt := leNat_lt data
    rw [hlen] at hlt
    rw [hty]
    exact hlt
  have hexec := objectWrite_of_valueRefused h hrow (by simp [hacc]) hbulk (by rw [hlen, hty]; rfl) hbits (by rw [hrng]; rfl)
    (valueRefused_of_pacerBad ((pacerBad_touchClient s k n sub _).trans hbad))
  exact ⟨_, hexec, answered_answer .., answer_touchClient_frame ..⟩

/-- Settles O10: each of the four conditions is the Pacer's check of its object. -/
theorem pacerValuesAreChecked : Obligations.PacerValuesAreChecked := by
  intro k n data s hserved hlen
  refine ⟨fun hqp => ?_, fun hbrim => ?_, fun hreserve => ?_, fun hgoal => ?_⟩
  · exact pacerWrite_refused hserved hlen (by decide) (by decide) (by simpa [pacerBad] using hqp)
  · exact pacerWrite_refused hserved hlen (by decide) (by decide) (by simpa [pacerBad] using hbrim)
  · exact pacerWrite_refused hserved hlen (by decide) (by decide) (by simpa [pacerBad] using hreserve)
  · exact pacerWrite_refused hserved hlen (by decide) (by decide) (by simpa [pacerBad] using hgoal)

end Sys2Proof.Machine
end

section
/-! PROOF. The relay's commands and reversion (13_relay.md R325, R328, R329, R331): what each command of 0x2010:02 leaves, what
a write of the reversion lock makes of the hold-off, and what the hold-off run out starts. -/

namespace Sys2Proof.Machine

/-! ## The commands of 0x2010:02 -/

theorem exec_plannedSwitch (k : Client) (s : State) : exec (.plannedSwitch k) s = .next (serveWrite s k 0x2010 doPlanned) := rfl

theorem exec_forcedSwitch (k : Client) (s : State) : exec (.forcedSwitch k) s = .next (serveWrite s k 0x2010 doForced) := rfl

theorem exec_lockout (k : Client) (s : State) : exec (.lockout k) s = .next (serveWrite s k 0x2010 doLockout) := rfl

theorem exec_endLockout (k : Client) (s : State) : exec (.endLockout k) s = .next (serveWrite s k 0x2010 doEndLockout) := rfl

theorem exec_abandonPlannedSwitch (k : Client) (s : State) :
    exec (.abandonPlannedSwitch k) s = .next (serveWrite s k 0x2010 doAbandon) := rfl

theorem exec_retryRepair (k : Client) (s : State) : exec (.retryRepair k) s = .next (serveWrite s k 0x2010 doRetry) := rfl

/-- A command that serves a write is acknowledged where the write is taken. -/
theorem exec_acknowledged {c : Instr} {s t : State} {k : Client} {i : Nat} {f : State → Except Abort State}
    (hexec : exec c s = .next (serveWrite s k i f)) (h : Served s k i) (hf : f (touchClient s k) = .ok t) :
    exec c s = .next (answer t k .ack) := by
  rw [hexec, serveWrite_ok h hf]

/-- A command that serves a write answers its abort where the write is refused. -/
theorem exec_refused {c : Instr} {s : State} {k : Client} {i : Nat} {a : Abort} {f : State → Except Abort State}
    (hexec : exec c s = .next (serveWrite s k i f)) (h : Served s k i) (hf : f (touchClient s k) = .error a) :
    exec c s = .next (answer s k (.abort a)) := by
  rw [hexec, serveWrite_error h hf]

/-- R325: command 1 waits for its tick. -/
theorem plannedSwitch_taken {k : Client} {s : State} (h : Served s k 0x2010) (hmode : s.relay.mode ≠ .lockedOut) :
    exec (.plannedSwitch k) s = .next (answer { touchClient s k with relay := { s.relay with planned := true } } k .ack) :=
  exec_acknowledged (exec_plannedSwitch k s) h (if_neg hmode)

/-- R328: command 2 waits for its tick. -/
theorem forcedSwitch_taken {k : Client} {s : State} (h : Served s k 0x2010) (hmode : s.relay.mode ≠ .lockedOut) :
    exec (.forcedSwitch k) s = .next (answer { touchClient s k with relay := { s.relay with forced := true } } k .ack) :=
  exec_acknowledged (exec_forcedSwitch k s) h (if_neg hmode)

/-- R329: command 3 abandons a pending switch of either kind and a hold-off, and keeps the active unit. -/
theorem lockout_taken {k : Client} {s : State} (h : Served s k 0x2010) (hmode : s.relay.mode ≠ .lockedOut) :
    ∃ t, exec (.lockout k) s = .next t ∧ answered t k = some .ack ∧ t.relay.mode = .lockedOut ∧ t.relay.planned = false ∧
      t.relay.forced = false ∧ t.relay.switchTick = none ∧ t.relay.holdOffAt = none ∧ t.relay.active = s.relay.active ∧
      t = { s with relay := t.relay, clients := t.clients, maint := t.maint } := by
  exact ⟨_, exec_acknowledged (exec_lockout k s) h (if_neg hmode), answered_answer .., rfl, rfl, rfl, rfl, rfl, rfl, rfl⟩

/-- R329: in LOCKED_OUT commands 1, 2, 3 and 6 are refused with an access error. -/
theorem commands_refused_lockedOut {k : Client} {s : State} (h : Served s k 0x2010) (hmode : s.relay.mode = .lockedOut) :
    exec (.plannedSwitch k) s = .next (answer s k (.abort .presentState)) ∧
      exec (.forcedSwitch k) s = .next (answer s k (.abort .presentState)) ∧
      exec (.lockout k) s = .next (answer s k (.abort .presentState)) ∧
      exec (.retryRepair k) s = .next (answer s k (.abort .presentState)) :=
  ⟨exec_refused (exec_plannedSwitch k s) h (if_pos hmode), exec_refused (exec_forcedSwitch k s) h (if_pos hmode),
    exec_refused (exec_lockout k s) h (if_pos hmode), exec_refused (exec_retryRepair k s) h (if_pos hmode)⟩

/-- R329: command 4 leaves LOCKED_OUT for the state that readiness gives, and the hold-off starts where it may. -/
theorem endLockout_by_readiness {k : Client} {s : State} (h : Served s k 0x2010) (hmode : s.relay.mode = .lockedOut) :
    exec (.endLockout k) s =
      .next (answer (startHoldOff { touchClient s k with relay := { s.relay with mode := modeByReadiness s } }) k .ack) := by
  have htaken : doEndLockout (touchClient s k) =
      .ok (startHoldOff { touchClient s k with relay := { s.relay with mode := modeByReadiness s } }) :=
    congrArg Except.ok (if_pos hmode)
  exact exec_acknowledged (exec_endLockout k s) h htaken

/-- R326: a switch in DRAINING or WARMING is left for STANDBY_READY, any other state is kept. -/
theorem dropSwitch_mode (s : State) :
    (dropSwitch s).relay.mode =
      if s.relay.mode = .draining ∨ s.relay.mode = .warming then .standbyReady else s.relay.mode := by
  cases hmode : s.relay.mode <;> simp [dropSwitch, hmode]

/-- R326: command 5 is taken in every state and abandons the planned switch. -/
theorem abandonPlannedSwitch_taken {k : Client} {s : State} (h : Served s k 0x2010) :
    ∃ t, exec (.abandonPlannedSwitch k) s = .next t ∧ answered t k = some .ack ∧ t.relay.planned = false ∧
      t.relay.switchTick = none ∧
      t.relay.mode = (if s.relay.mode = .draining ∨ s.relay.mode = .warming then .standbyReady else s.relay.mode) ∧
      t = { s with relay := t.relay, clients := t.clients, maint := t.maint } := by
  refine ⟨_, exec_acknowledged (exec_abandonPlannedSwitch k s) h rfl, answered_answer .., rfl, rfl, ?_, rfl⟩
  rw [answer_relay]
  exact dropSwitch_mode _

/-! ## A fault in LOCKED_OUT (R319, R329) -/

/-- A hand-over that is refused is noted in the relay and changes nothing else of it. -/
theorem refuseHandover_relay (s : State) : (refuseHandover s).relay = { s.relay with refusedNow := true } := by
  unfold refuseHandover
  split
  · next hnoted => rw [← hnoted]
  · simp

theorem exec_arbiterLatch (s : State) : exec .arbiterLatch s = execArbiterLatch s := rfl

/-- R329: with a fault waiting, the arbiter latches no hand-over in LOCKED_OUT. -/
theorem arbiterLatch_lockedOut {s : State} {src : Nat} (hmode : s.relay.mode = .lockedOut) (hfault : s.relay.fault = some src) :
    exec .arbiterLatch s = .next (refuseHandover s) := by
  simp [exec_arbiterLatch, execArbiterLatch, hfault, hmode]

/-! ## Values of the dictionary after a commit -/

theorem cfg_commitValue_same {s : State} {k : Nat} (v : Nat) (a b : Bool) (hwf : assocWf defaultOf s.dict.master = true)
    (hnow : waitsForStart (k / 256) (k % 256) = false) : cfg (commitValue s k v a b) k = v := by
  rw [cfg, hnow]
  exact assocGet_put_same _ _ _ _ hwf

theorem cfg_commitValue_other {s : State} {j k : Nat} (v : Nat) (a b : Bool) (h : j ≠ k) :
    cfg (commitValue s k v a b) j = cfg s j := by
  have hwritten : written (commitValue s k v a b) j = written s j := assocGet_put_other _ _ _ _ _ h
  rw [cfg, hwritten]
  rfl

theorem reversionLocked_commitValue {s : State} (v : Nat) (a b : Bool) (hwf : assocWf defaultOf s.dict.master = true) :
    reversionLocked (commitValue s (key 0x2010 4) v a b) = decide (v = 1) := by
  rw [reversionLocked, cfg_commitValue_same v a b hwf (by decide)]

theorem homeUnit_commitValue (s : State) (v : Nat) (a b : Bool) :
    homeUnit (commitValue s (key 0x2010 4) v a b) = homeUnit s := by
  rw [homeUnit, cfg_commitValue_other v a b (by decide)]
  rfl

/-! ## Reversion (R331) -/

/-- The hold-off moves the relay alone. -/
theorem startHoldOff_frame (s : State) : startHoldOff s = { s with relay := (startHoldOff s).relay } := by
  unfold startHoldOff
  split <;> rfl

/-- R331: the hold-off starts where the home unit is the ready standby back from repair and the lock is clear. -/
theorem startHoldOff_starts {s : State} (hdone : s.relay.repairDone = true) (hhome : standbyOf s = some (homeUnit s))
    (hfree : reversionLocked s = false) (hmode : s.relay.mode = .standbyReady) :
    (startHoldOff s).relay.mode = .revertPending ∧
      (startHoldOff s).relay.holdOffAt = some (s.now + cfg s (key 0x2010 5) * cyclesPerSec) := by
  rw [startHoldOff, if_pos ⟨hdone, hhome, by simp [hfree], hmode⟩]
  exact ⟨rfl, rfl⟩

theorem exec_reversionLockWrite (k : Client) (v : Nat) (s : State) :
    exec (.reversionLockWrite k v) s = .next (serveWrite s k 0x2010 (doReversionLock v)) := rfl

/-- A commit of the reversion lock as client k's write makes it: to the master copy and the shadows of the units present. -/
def lockCommitted (s : State) (k : Client) (v : Nat) : State :=
  commitValue (touchClient s k) (key 0x2010 4) v (unitPresent s .a) (unitPresent s .b)

theorem reversionLock_outOfRange {k : Client} {v : Nat} {s : State} (h : Served s k 0x2010) (hv : 1 < v) :
    exec (.reversionLockWrite k v) s = .next (answer s k (.abort .outOfRange)) :=
  exec_refused (exec_reversionLockWrite k v s) h (if_pos hv)

/-- R331: setting the lock ends the hold-off, and REVERT_PENDING is left for STANDBY_READY. -/
theorem reversionLock_set {k : Client} {s : State} (h : Served s k 0x2010) (hwf : assocWf defaultOf s.dict.master = true) :
    ∃ t, exec (.reversionLockWrite k 1) s = .next t ∧ answered t k = some .ack ∧ reversionLocked t = true ∧
      t.relay.holdOffAt = none ∧
      t.relay.mode = (if s.relay.mode = .revertPending then .standbyReady else s.relay.mode) ∧
      t = { s with dict := t.dict, relay := t.relay, clients := t.clients, maint := t.maint } := by
  have hlocked : reversionLocked (lockCommitted s k 1) = true := reversionLocked_commitValue 1 _ _ hwf
  exact ⟨_, exec_acknowledged (exec_reversionLockWrite k 1 s) h rfl, answered_answer .., hlocked, rfl, rfl, rfl⟩

/-- R331: clearing the lock starts the hold-off again where the home unit is the ready standby back from repair. -/
theorem reversionLock_cleared {k : Client} {s : State} (h : Served s k 0x2010)
    (hwf : assocWf defaultOf s.dict.master = true) :
    ∃ t, exec (.reversionLockWrite k 0) s = .next t ∧ answered t k = some .ack ∧ reversionLocked t = false ∧
      (s.relay.repairDone = true → standbyOf s = some (homeUnit s) → s.relay.mode = .standbyReady →
        t.relay.mode = .revertPending ∧ t.relay.holdOffAt = some (s.now + cfg s (key 0x2010 5) * cyclesPerSec)) ∧
      t = { s with dict := t.dict, relay := t.relay, clients := t.clients, maint := t.maint } := by
  have hfree : reversionLocked (lockCommitted s k 0) = false := reversionLocked_commitValue 0 _ _ hwf
  have hholdOff : cfg (lockCommitted s k 0) (key 0x2010 5) = cfg s (key 0x2010 5) := cfg_commitValue_other 0 _ _ (by decide)
  refine ⟨_, exec_acknowledged (t := startHoldOff (lockCommitted s k 0)) (exec_reversionLockWrite k 0 s) h rfl,
    answered_answer .., ?_, fun hdone hhome hmode => ?_, ?_⟩
  · rw [startHoldOff_frame]
    exact hfree
  · have hhome' : standbyOf (lockCommitted s k 0) = some (homeUnit (lockCommitted s k 0)) :=
      hhome.trans (congrArg some (homeUnit_commitValue (touchClient s k) 0 _ _).symm)
    obtain ⟨hmode', hat⟩ := startHoldOff_starts (s := lockCommitted s k 0) hdone hhome' hfree hmode
    rw [hholdOff] at hat
    exact ⟨hmode', hat⟩
  · rw [startHoldOff_frame]
    rfl

theorem exec_holdOffExpiry (s : State) : exec .holdOffExpiry s = execHoldOffExpiry s := rfl

/-- The hold-off run out starts a planned switch; before its instant nothing happens. -/
theorem holdOffExpiry_outcome {instant : Nat} {s : State} (h : s.relay.holdOffAt = some instant) :
    (instant ≤ s.now → s.relay.mode = .revertPending → reversionLocked s = false →
      exec .holdOffExpiry s = .next { s with relay := { s.relay with planned := true, holdOffAt := none } }) ∧
    (s.now < instant → exec .holdOffExpiry s = .next s) := by
  rw [exec_holdOffExpiry, execHoldOffExpiry, h]
  refine ⟨fun hdue hmode hfree => ?_, fun hearly => ?_⟩
  · exact if_pos ⟨hdue, hmode, by simp [hfree]⟩
  · exact if_neg fun hrun => Nat.not_le.2 hearly hrun.1

/-- Settles O39: each command of the relay, each value written to the reversion lock and the hold-off's end by its own lemma. -/
theorem relayCommandsAndReversion : Obligations.RelayCommandsAndReversion := by
  refine ⟨fun k s h => ⟨fun hmode => ?_, fun hmode => ?_, abandonPlannedSwitch_taken h⟩, fun k v s h hwf => ⟨?_, ?_, ?_⟩,
    fun instant s => holdOffExpiry_outcome⟩
  · exact ⟨plannedSwitch_taken h hmode, forcedSwitch_taken h hmode, lockout_taken h hmode⟩
  · obtain ⟨hplanned, hforced, hlockout, hretry⟩ := commands_refused_lockedOut h hmode
    refine ⟨hplanned, hforced, hlockout, hretry, endLockout_by_readiness h hmode, fun src hfault => ?_⟩
    refine ⟨_, arbiterLatch_lockedOut hmode hfault, ?_⟩
    rw [refuseHandover_relay]
    exact ⟨rfl, rfl⟩
  · exact reversionLock_outOfRange h
  · rintro rfl
    exact reversionLock_set h hwf
  · rintro rfl
    exact reversionLock_cleared h hwf

end Sys2Proof.Machine
end

section
/-! PROOF. What an operation leaves of State, as the list of the parts that it may change: `Only l s t`. It composes along a chain
of operations, and for a list written out it is the equation `t = { s with ... }` of the statements. -/

namespace Sys2Proof.Machine

-- One declaration at a time: elaborated side by side they wait for each other, a thread each, past the check's memory.
set_option Elab.async false

/-- The parts of State, one a field. -/
inductive StatePart where
  | now | free | pending | dict | regs | overflow | emcy | log | lap | disp | chans | streams | rois | lanes |
  links | input | phase | ret | mon | ports | bridge | flows | meters | watch | counts | time | dram | atu |
  dma | capture | relay | baton | selfTest | standIns | boot | slots | snaps | cv | rst | flash | ctrl | stage
  | sensors | planner | can | clients | windows | firmware | maint | pins
  deriving DecidableEq

/-- The part reads in t as in s. -/
def StatePart.same (s t : State) : StatePart → Prop
  | .now => t.now = s.now
  | .free => t.free = s.free
  | .pending => t.pending = s.pending
  | .dict => t.dict = s.dict
  | .regs => t.regs = s.regs
  | .overflow => t.overflow = s.overflow
  | .emcy => t.emcy = s.emcy
  | .log => t.log = s.log
  | .lap => t.lap = s.lap
  | .disp => t.disp = s.disp
  | .chans => t.chans = s.chans
  | .streams => t.streams = s.streams
  | .rois => t.rois = s.rois
  | .lanes => t.lanes = s.lanes
  | .links => t.links = s.links
  | .input => t.input = s.input
  | .phase => t.phase = s.phase
  | .ret => t.ret = s.ret
  | .mon => t.mon = s.mon
  | .ports => t.ports = s.ports
  | .bridge => t.bridge = s.bridge
  | .flows => t.flows = s.flows
  | .meters => t.meters = s.meters
  | .watch => t.watch = s.watch
  | .counts => t.counts = s.counts
  | .time => t.time = s.time
  | .dram => t.dram = s.dram
  | .atu => t.atu = s.atu
  | .dma => t.dma = s.dma
  | .capture => t.capture = s.capture
  | .relay => t.relay = s.relay
  | .baton => t.baton = s.baton
  | .selfTest => t.selfTest = s.selfTest
  | .standIns => t.standIns = s.standIns
  | .boot => t.boot = s.boot
  | .slots => t.slots = s.slots
  | .snaps => t.snaps = s.snaps
  | .cv => t.cv = s.cv
  | .rst => t.rst = s.rst
  | .flash => t.flash = s.flash
  | .ctrl => t.ctrl = s.ctrl
  | .stage => t.stage = s.stage
  | .sensors => t.sensors = s.sensors
  | .planner => t.planner = s.planner
  | .can => t.can = s.can
  | .clients => t.clients = s.clients
  | .windows => t.windows = s.windows
  | .firmware => t.firmware = s.firmware
  | .maint => t.maint = s.maint
  | .pins => t.pins = s.pins

/-- Nothing but the listed parts changes from s to t. -/
structure Only (l : List StatePart) (s t : State) : Prop where
  part : ∀ p, p ∉ l → p.same s t

/-- s with the listed parts of t. -/
def withParts (l : List StatePart) (s t : State) : State where
  now := bif l.contains .now then t.now else s.now
  free := bif l.contains .free then t.free else s.free
  pending := bif l.contains .pending then t.pending else s.pending
  dict := bif l.contains .dict then t.dict else s.dict
  regs := bif l.contains .regs then t.regs else s.regs
  overflow := bif l.contains .overflow then t.overflow else s.overflow
  emcy := bif l.contains .emcy then t.emcy else s.emcy
  log := bif l.contains .log then t.log else s.log
  lap := bif l.contains .lap then t.lap else s.lap
  disp := bif l.contains .disp then t.disp else s.disp
  chans := bif l.contains .chans then t.chans else s.chans
  streams := bif l.contains .streams then t.streams else s.streams
  rois := bif l.contains .rois then t.rois else s.rois
  lanes := bif l.contains .lanes then t.lanes else s.lanes
  links := bif l.contains .links then t.links else s.links
  input := bif l.contains .input then t.input else s.input
  phase := bif l.contains .phase then t.phase else s.phase
  ret := bif l.contains .ret then t.ret else s.ret
  mon := bif l.contains .mon then t.mon else s.mon
  ports := bif l.contains .ports then t.ports else s.ports
  bridge := bif l.contains .bridge then t.bridge else s.bridge
  flows := bif l.contains .flows then t.flows else s.flows
  meters := bif l.contains .meters then t.meters else s.meters
  watch := bif l.contains .watch then t.watch else s.watch
  counts := bif l.contains .counts then t.counts else s.counts
  time := bif l.contains .time then t.time else s.time
  dram := bif l.contains .dram then t.dram else s.dram
  atu := bif l.contains .atu then t.atu else s.atu
  dma := bif l.contains .dma then t.dma else s.dma
  capture := bif l.contains .capture then t.capture else s.capture
  relay := bif l.contains .relay then t.relay else s.relay
  baton := bif l.contains .baton then t.baton else s.baton
  selfTest := bif l.contains .selfTest then t.selfTest else s.selfTest
  standIns := bif l.contains .standIns then t.standIns else s.standIns
  boot := bif l.contains .boot then t.boot else s.boot
  slots := bif l.contains .slots then t.slots else s.slots
  snaps := bif l.contains .snaps then t.snaps else s.snaps
  cv := bif l.contains .cv then t.cv else s.cv
  rst := bif l.contains .rst then t.rst else s.rst
  flash := bif l.contains .flash then t.flash else s.flash
  ctrl := bif l.contains .ctrl then t.ctrl else s.ctrl
  stage := bif l.contains .stage then t.stage else s.stage
  sensors := bif l.contains .sensors then t.sensors else s.sensors
  planner := bif l.contains .planner then t.planner else s.planner
  can := bif l.contains .can then t.can else s.can
  clients := bif l.contains .clients then t.clients else s.clients
  windows := bif l.contains .windows then t.windows else s.windows
  firmware := bif l.contains .firmware then t.firmware else s.firmware
  maint := bif l.contains .maint then t.maint else s.maint
  pins := bif l.contains .pins then t.pins else s.pins

namespace Only

variable {l l' : List StatePart} {s t u : State}

theorem refl (l : List StatePart) (s : State) : Only l s s where
  part p _ := by cases p <;> rfl

theorem of_eq (h : t = withParts l s t) : Only l s t := by
  refine ⟨fun p hp => ?_⟩
  have hc : l.contains p = false := by simpa using hp
  rw [h]
  cases p <;> simp only [StatePart.same, withParts, hc, cond_false]

/-- With the list written out, the right side is `{ s with ... }`. -/
theorem eq (h : Only l s t) : t = withParts l s t := by
  have pick : ∀ {α : Type} (p : StatePart) (x y : α), (p ∉ l → y = x) → y = bif l.contains p then y else x := by
    intro α p x y hxy
    cases hc : l.contains p
    · exact hxy (by simpa using hc)
    · rfl
  cases t
  simp only [withParts, State.mk.injEq]
  exact ⟨pick .now _ _ (h.part .now), pick .free _ _ (h.part .free), pick .pending _ _ (h.part .pending), pick .dict _ _ (h.part .dict), pick .regs _ _ (h.part .regs), pick .overflow _ _ (h.part .overflow), pick .emcy _ _ (h.part .emcy), pick .log _ _ (h.part .log), pick .lap _ _ (h.part .lap), pick .disp _ _ (h.part .disp), pick .chans _ _ (h.part .chans), pick .streams _ _ (h.part .streams), pick .rois _ _ (h.part .rois), pick .lanes _ _ (h.part .lanes), pick .links _ _ (h.part .links), pick .input _ _ (h.part .input), pick .phase _ _ (h.part .phase), pick .ret _ _ (h.part .ret), pick .mon _ _ (h.part .mon), pick .ports _ _ (h.part .ports), pick .bridge _ _ (h.part .bridge), pick .flows _ _ (h.part .flows), pick .meters _ _ (h.part .meters), pick .watch _ _ (h.part .watch), pick .counts _ _ (h.part .counts), pick .time _ _ (h.part .time), pick .dram _ _ (h.part .dram), pick .atu _ _ (h.part .atu), pick .dma _ _ (h.part .dma), pick .capture _ _ (h.part .capture), pick .relay _ _ (h.part .relay), pick .baton _ _ (h.part .baton), pick .selfTest _ _ (h.part .selfTest), pick .standIns _ _ (h.part .standIns), pick .boot _ _ (h.part .boot), pick .slots _ _ (h.part .slots), pick .snaps _ _ (h.part .snaps), pick .cv _ _ (h.part .cv), pick .rst _ _ (h.part .rst), pick .flash _ _ (h.part .flash), pick .ctrl _ _ (h.part .ctrl), pick .stage _ _ (h.part .stage), pick .sensors _ _ (h.part .sensors), pick .planner _ _ (h.part .planner), pick .can _ _ (h.part .can), pick .clients _ _ (h.part .clients), pick .windows _ _ (h.part .windows), pick .firmware _ _ (h.part .firmware), pick .maint _ _ (h.part .maint), pick .pins _ _ (h.part .pins)⟩

theorem trans (h : Only l s t) (h' : Only l t u) : Only l s u := by
  refine ⟨fun p hp => ?_⟩
  have h1 := h.part p hp
  have h2 := h'.part p hp
  cases p <;> exact Eq.trans h2 h1

theorem mono (h : Only l s t) (hl : ∀ p ∈ l, p ∈ l') : Only l' s t :=
  ⟨fun p hp => h.part p fun hmem => hp (hl p hmem)⟩

/-- An operation that changes the parts of `l'` follows one that changes those of `l`. -/
theorem step (h : Only l s t) (h' : Only l' t u) (hl : (l'.all fun p => l.contains p) = true := by decide) : Only l s u :=
  h.trans (h'.mono fun p hp => by simpa using List.all_eq_true.1 hl p hp)

end Only

theorem Only.ite {l : List StatePart} {s t u : State} {c : Prop} [Decidable c] (ht : c → Only l s t) (hu : ¬ c → Only l s u) :
    Only l s (if c then t else u) := by
  split
  · next hc => exact ht hc
  · next hc => exact hu hc

theorem Only.foldl {α : Type} {l : List StatePart} {s : State} {f : State → α → State} (hf : ∀ t a, Only l t (f t a))
    (xs : List α) {t : State} (h : Only l s t) : Only l s (xs.foldl f t) := by
  induction xs generalizing t with
  | nil => exact h
  | cons a xs ih => exact ih (h.trans (hf t a))

theorem forEach_only {α : Type} {l : List StatePart} {f : State → α → State} (hf : ∀ t a, Only l t (f t a)) (xs : List α)
    (s : State) : Only l s (forEach xs f s) := Only.foldl hf xs (Only.refl l s)

/-! ## Register words and counters -/

theorem regPut_only (s : State) (k v : Nat) : Only [.regs] s (regPut s k v) := .of_eq rfl

theorem setFlag_only (s : State) (k b : Nat) : Only [.regs] s (setFlag s k b) := regPut_only ..

theorem clearFlag_only (s : State) (k b : Nat) : Only [.regs] s (clearFlag s k b) := regPut_only ..

theorem putFlag_only (s : State) (k b : Nat) (v : Bool) : Only [.regs] s (putFlag s k b v) :=
  .ite (fun _ => setFlag_only ..) fun _ => clearFlag_only ..

theorem putField_only (s : State) (k hi lo v : Nat) : Only [.regs] s (putField s k hi lo v) := regPut_only ..

theorem regMax_only (s : State) (k v : Nat) : Only [.regs] s (regMax s k v) := regPut_only ..

theorem overflowEnter_only (s : State) (k part : Nat) : Only [.regs, .overflow] s (overflowEnter s k part) :=
  .ite (fun _ => .of_eq rfl) fun _ => (Only.refl _ _).step (setFlag_only ..)

theorem bumpBy_only (s : State) (k n : Nat) : Only [.regs, .overflow] s (bumpBy s k n) := by
  have put : ∀ v, Only [.regs, .overflow] s (regPut s k v) := fun v => (Only.refl _ _).step (regPut_only s k v)
  refine .ite (fun _ => put _) fun _ => .ite (fun _ => put _) fun _ => .ite (fun _ => ?_) fun _ => .refl ..
  exact (put _).step (overflowEnter_only ..)

theorem bump_only (s : State) (k : Nat) : Only [.regs, .overflow] s (bump s k) := bumpBy_only ..

theorem bumpHalf_only (s : State) (k : Nat) (high : Bool) : Only [.regs, .overflow] s (bumpHalf s k high) := by
  have put : ∀ hi lo v, Only [.regs, .overflow] s (putField s k hi lo v) :=
    fun hi lo v => (Only.refl _ _).step (putField_only s k hi lo v)
  exact .ite (fun _ => put ..) fun _ => .ite (fun _ => (put ..).step (overflowEnter_only ..)) fun _ => .refl ..

/-! ## The event log and EMCY -/

theorem logPush_only (s : State) (r : LogRecord) : Only [.regs, .overflow, .log] s (logPush s r) := by
  have hbump : Only [.regs, .overflow, .log] s (if decide (1024 ≤ s.log.records.length) then bump s (key 0x5082 2) else s) :=
    .ite (fun _ => (Only.refl _ _).step (bump_only ..)) fun _ => .refl ..
  exact hbump.step (l' := [.log]) (.of_eq rfl)

theorem emcyEnqueue_only (s : State) (e : Emcy) : Only [.regs, .overflow, .emcy, .log] s (emcyEnqueue s e) := by
  have hflag : Only [.regs, .overflow, .emcy, .log] s (setFlag s (key 0x2002 8) 29) := (Only.refl _ _).step (setFlag_only ..)
  refine .ite (fun _ => .of_eq rfl) fun _ => .ite (fun _ => hflag) fun _ => ?_
  exact (hflag.step (l' := [.emcy]) (.of_eq rfl)).step (logPush_only ..)

theorem emcyPost_only (s : State) (code level unit detail : Nat) :
    Only [.regs, .overflow, .emcy, .log] s (emcyPost s code level unit detail) :=
  (((Only.refl _ s).step (logPush_only ..)).step (l' := [.emcy]) (.of_eq rfl)).step (emcyEnqueue_only ..)

theorem raiseEmcyWith_only (s : State) (code level unit detail : Nat) :
    Only [.regs, .overflow, .emcy, .log] s (raiseEmcyWith s code level unit detail) :=
  .ite (fun _ => .of_eq rfl) fun _ => emcyPost_only ..

theorem raiseEmcy_only (s : State) (code k inst : Nat) : Only [.regs, .overflow, .emcy, .log] s (raiseEmcy s code k inst) :=
  raiseEmcyWith_only ..

theorem raiseEmcyOf_only (s : State) (u : UnitId) (code k inst : Nat) :
    Only [.regs, .overflow, .emcy, .log] s (raiseEmcyOf s u code k inst) :=
  raiseEmcyWith_only ..

theorem logNote_only (s : State) (source k inst : Nat) : Only [.regs, .overflow, .log] s (logNote s source k inst) :=
  logPush_only ..

theorem logNoteLimited_only (s : State) (source k inst : Nat) :
    Only [.regs, .overflow, .emcy, .log] s (logNoteLimited s source k inst) := by
  refine .ite (fun _ => .refl ..) fun _ => ?_
  exact ((Only.refl _ s).step (logNote_only s source k inst)).step (l' := [.emcy]) (.of_eq rfl)

/-! ## Counts, samples, clients -/

theorem countUnit_only (s : State) (k : Nat) (half : Option Bool) (n : Nat) : Only [.counts] s (countUnit s k half n) := .of_eq rfl

theorem countPort_only (s : State) (p : PortId) (sub n : Nat) : Only [.counts] s (countPort s p sub n) := .of_eq rfl

theorem monitorSample_only (s : State) (u : UnitId) (source inst v : Nat) : Only [.slots] s (monitorSample s u source inst v) :=
  .of_eq rfl

theorem monitorBoth_only (s : State) (source inst v : Nat) : Only [.slots] s (monitorBoth s source inst v) := .of_eq rfl

theorem cvEnd_only (s : State) (i : CvId) (result : Nat) (good : Bool) : Only [.regs, .overflow] s (cvEnd s i result good) := by
  have hend : Only [.regs, .overflow] s (bump (regPut s (kCv i 5) result) (kCv i 6)) :=
    ((Only.refl _ s).step (regPut_only ..)).step (bump_only ..)
  exact .ite (fun _ => hend) fun _ => (hend.step (bump_only ..)).step (setFlag_only ..)

theorem cvGap_only (s : State) (i : CvId) : Only [.regs, .overflow] s (cvGap s i) :=
  ((Only.refl _ s).step (bump_only ..)).step (setFlag_only ..)

theorem answer_only (s : State) (k : Client) (a : Answer) : Only [.clients] s (answer s k a) := .of_eq rfl

theorem touchClient_only (s : State) (k : Client) : Only [.clients, .maint] s (touchClient s k) := .of_eq rfl

theorem touchRead_only (s : State) (k : Client) : Only [.clients] s (touchRead s k) := .of_eq rfl

/-! ## Vectors by index, streams by number -/

@[simp] theorem getElem_vmod_same {α : Type} {n : Nat} (v : Vector α n) (i : Fin n) (f : α → α) : (vmod v i f)[i] = f v[i] :=
  vmod_get_same v i f

theorem getElem_vmod_other {α : Type} {n : Nat} (v : Vector α n) {i j : Fin n} (f : α → α) (h : j ≠ i) : (vmod v i f)[j] = v[j] :=
  vmod_get_other v i j f h

@[simp] theorem modStream_same (s : State) (n : StreamId) (f : Stream → Stream) : (modStream s n f).streams[n] = f s.streams[n] :=
  getElem_vmod_same ..

theorem modStream_other (s : State) {n m : StreamId} (f : Stream → Stream) (h : m ≠ n) :
    (modStream s n f).streams[m] = s.streams[m] :=
  getElem_vmod_other _ f h

theorem modStream_only (s : State) (n : StreamId) (f : Stream → Stream) : Only [.streams] s (modStream s n f) := .of_eq rfl

end Sys2Proof.Machine
end

section
/-! PROOF. The whole block: every command answers a next state that keeps the base (the queue and the clock; the stores where
they are asked for), so every step keeps the stores; what a step and the power-on reset leave (00_scope.md R6, 10_time.md R243,
14_integrity.md R348, R353; 17_dictionary.md R422). -/

namespace Sys2Proof.Machine

set_option Elab.async false

/-! ## Every command -/

/-- Every command answers a next state that keeps what it was held against: one case a command, each by its own lemma. -/
theorem exec_kept {B : Base} (c : Instr) (s : State) (hkept : Kept B s) : OutKept B (exec c s) := by
  cases c with
  | lapTick j => exact execLapTick_kept j s hkept
  | timerExpiry u => exact execTimerExpiry_kept u s hkept
  | timerInsert u task laps flag => exact execTimerInsert_kept u task laps flag s hkept
  | taskRun u e x => exact execTaskRun_kept u e x s hkept
  | flagWriteRetry u => exact execFlagWriteRetry_kept u s hkept
  | contextSaveFault u e => exact execContextSaveFault_kept u e s hkept
  | stripeJobFire c => exact execStripeJobFire_kept c s hkept
  | operandDeadline => exact execOperandDeadline_kept s hkept
  | ctuCode c n x => exact execCtuCode_kept c n x s hkept
  | budgetStep n => exact execBudgetStep_kept n s hkept
  | stripeCoded n x => exact execStripeCoded_kept n x s hkept
  | windowFetchDone c n => exact execWindowFetchDone_kept c n s hkept
  | segmentVerified c n x => exact execSegmentVerified_kept c n x s hkept
  | egressByteCheck c n stripe slice verifier egress => exact execEgressByteCheck_kept c n stripe slice verifier egress s hkept
  | globalVectorEstimate n => exact execGlobalVectorEstimate_kept n s hkept
  | roiTrackUpdate n => exact execRoiTrackUpdate_kept n s hkept
  | channelStart k c loads => exact execChannelStart_kept k c loads s hkept
  | channelBegin => exact execChannelBegin_kept s hkept
  | channelStop k c => exact execChannelStop_kept k c s hkept
  | channelStopped c => exact execChannelStopped_kept c s hkept
  | groupOpen k => exact execGroupOpen_kept k s hkept
  | groupCommit k => exact execGroupCommit_kept k s hkept
  | groupAbandon k => exact execGroupAbandon_kept k s hkept
  | groupTimeout => exact execGroupTimeout_kept s hkept
  | mapLoadBegin k c n => exact execMapLoadBegin_kept k c n s hkept
  | mapData k c n data => exact execMapData_kept k c n data s hkept
  | mapCommit k c n => exact execMapCommit_kept k c n s hkept
  | mapDiscard k c n => exact execMapDiscard_kept k c n s hkept
  | verifyEnableWrite k c v => exact execVerifyEnableWrite_kept k c v s hkept
  | objectWrite k index sub data => exact execObjectWrite_kept k index sub data s hkept
  | mirrorTimeout u => exact execMirrorTimeout_kept u s hkept
  | returnDecoderEnable k v => exact execReturnDecoderEnable_kept k v s hkept
  | pictureClose => exact execPictureClose_kept s hkept
  | presentationTime => exact execPresentationTime_kept s hkept
  | returnTimeLimit => exact execReturnTimeLimit_kept s hkept
  | pathSkewExpiry => exact execPathSkewExpiry_kept s hkept
  | tb1PictureStart => exact execTb1PictureStart_kept s hkept
  | losAssert u l => exact execLosAssert_kept u l s hkept
  | losRelease u l => exact execLosRelease_kept u l s hkept
  | lolAssert u l => exact execLolAssert_kept u l s hkept
  | blockRx u l b => exact execBlockRx_kept u l b s hkept
  | signalDetect u l => exact execSignalDetect_kept u l s hkept
  | wakeTimeout u l => exact execWakeTimeout_kept u l s hkept
  | linePacketRx u l p => exact execLinePacketRx_kept u l p s hkept
  | pictureDescriptorRx u l d => exact execPictureDescriptorRx_kept u l d s hkept
  | phaseFaultClear => exact execPhaseFaultClear_kept s hkept
  | portLinkUp p => exact execPortLinkUp_kept p s hkept
  | portLinkDown p => exact execPortLinkDown_kept p s hkept
  | frameRx p f => exact execFrameRx_kept p f s hkept
  | arpRetry p ip => exact execArpRetry_kept p ip s hkept
  | arpRefresh p ip => exact execArpRefresh_kept p ip s hkept
  | addressAgeing mac => exact execAddressAgeing_kept mac s hkept
  | receiveBufferEnqueue p => exact execReceiveBufferEnqueue_kept p s hkept
  | frameTxStart p => exact execFrameTxStart_kept p s hkept
  | shaperAdmit f => exact execShaperAdmit_kept f s hkept
  | flowDrained f => exact execFlowDrained_kept f s hkept
  | tokenReoffer f => exact execTokenReoffer_kept f s hkept
  | sessionDescriptionRead k f => exact execSessionDescriptionRead_kept k f s hkept
  | genlockEdge => exact execGenlockEdge_kept s hkept
  | genlockEdgeMissing => exact execGenlockEdgeMissing_kept s hkept
  | tb0Second => exact execTb0Second_kept s hkept
  | syncOutPulse n => exact execSyncOutPulse_kept n s hkept
  | ptpSyncRx p m => exact execPtpSyncRx_kept p m s hkept
  | ptpFollowUpRx p m => exact execPtpFollowUpRx_kept p m s hkept
  | ptpDelayReqSend p stampError => exact execPtpDelayReqSend_kept p stampError s hkept
  | ptpDelayRespRx p m => exact execPtpDelayRespRx_kept p m s hkept
  | ptpAnnounceRx p m => exact execPtpAnnounceRx_kept p m s hkept
  | announceReceiptTimeout p => exact execAnnounceReceiptTimeout_kept p s hkept
  | clockFault m => exact execClockFault_kept m s hkept
  | dramRequest u ch waiting => exact execDramRequest_kept u ch waiting s hkept
  | refreshInterval u ch queued => exact execRefreshInterval_kept u ch queued s hkept
  | mr4Poll u rate tempChanged => exact execMr4Poll_kept u rate tempChanged s hkept
  | hammerWindowClear u => exact execHammerWindowClear_kept u s hkept
  | scrubPassStart u => exact execScrubPassStart_kept u s hkept
  | selfRefreshEntry u => exact execSelfRefreshEntry_kept u s hkept
  | selfRefreshCommit u => exact execSelfRefreshCommit_kept u s hkept
  | selfRefreshExit u heldSince => exact execSelfRefreshExit_kept u heldSince s hkept
  | zqLatch u => exact execZqLatch_kept u s hkept
  | driftMeasure u drifted => exact execDriftMeasure_kept u drifted s hkept
  | standbyRecentre => exact execStandbyRecentre_kept s hkept
  | descriptorFetch u d start => exact execDescriptorFetch_kept u d start s hkept
  | dmaBurst u d found => exact execDmaBurst_kept u d found s hkept
  | descriptorComplete u d => exact execDescriptorComplete_kept u d s hkept
  | landed u d => exact execLanded_kept u d s hkept
  | dmaStallResume u d => exact execDmaStallResume_kept u d s hkept
  | arm k => exact execArm_kept k s hkept
  | trigger k => exact execTrigger_kept k s hkept
  | release k => exact execRelease_kept k s hkept
  | disarm k => exact execDisarm_kept k s hkept
  | trigPinEdge n falling => exact execTrigPinEdge_kept n falling s hkept
  | triggerTimeReached => exact execTriggerTimeReached_kept s hkept
  | triggerTimeWrite k v => exact execTriggerTimeWrite_kept k v s hkept
  | readoutStart k r => exact execReadoutStart_kept k r s hkept
  | readoutAbort k r => exact execReadoutAbort_kept k r s hkept
  | readoutResume k r => exact execReadoutResume_kept k r s hkept
  | plannedSwitch k => exact execPlannedSwitch_kept k s hkept
  | forcedSwitch k => exact execForcedSwitch_kept k s hkept
  | lockout k => exact execLockout_kept k s hkept
  | endLockout k => exact execEndLockout_kept k s hkept
  | abandonPlannedSwitch k => exact execAbandonPlannedSwitch_kept k s hkept
  | retryRepair k => exact execRetryRepair_kept k s hkept
  | reversionLockWrite k v => exact execReversionLockWrite_kept k v s hkept
  | unitFault u src => exact execUnitFault_kept u src s hkept
  | arbiterLatch => exact execArbiterLatch_kept s hkept
  | selectorSwitch p => exact execSelectorSwitch_kept p s hkept
  | batonCheck u bytes => exact execBatonCheck_kept u bytes s hkept
  | releaseReport pairs crc => exact execReleaseReport_kept pairs crc s hkept
  | selfTestStep r => exact execSelfTestStep_kept r s hkept
  | repairResetRelease => exact execRepairResetRelease_kept s hkept
  | repairRetry => exact execRepairRetry_kept s hkept
  | holdOffExpiry => exact execHoldOffExpiry_kept s hkept
  | homeBootTimeout => exact execHomeBootTimeout_kept s hkept
  | engineWatchdogExpiry u e => exact execEngineWatchdogExpiry_kept u e s hkept
  | controllerWatchdogExpiry => exact execControllerWatchdogExpiry_kept s hkept
  | unitRailFault u rail => exact execUnitRailFault_kept u rail s hkept
  | unitClockFault u => exact execUnitClockFault_kept u s hkept
  | sensorRead values => exact execSensorRead_kept values s hkept
  | checkValueRecord j r => exact execCheckValueRecord_kept j r s hkept
  | monitorClear k m v => exact execMonitorClear_kept k m v s hkept
  | monitorSnapshot k m => exact execMonitorSnapshot_kept k m s hkept
  | overflowListEmpty k => exact execOverflowListEmpty_kept k s hkept
  | controllerRestart => exact execControllerRestart_kept s hkept
  | powerOnReset => exact execPowerOnReset_kept s hkept
  | rstNAssert ns => exact execRstNAssert_kept ns s hkept
  | rstNRelease => exact execRstNRelease_kept s hkept
  | resetSourceRelease code => exact execResetSourceRelease_kept code s hkept
  | blockReset k mask => exact execBlockReset_kept k mask s hkept
  | clockStable => exact execClockStable_kept s hkept
  | clockStableTimeout where_ => exact execClockStableTimeout_kept where_ s hkept
  | releaseStepDone => exact execReleaseStepDone_kept s hkept
  | programPulseEnd => exact execProgramPulseEnd_kept s hkept
  | eraseSuspendDone => exact execEraseSuspendDone_kept s hkept
  | limitRecordCheck => exact execLimitRecordCheck_kept s hkept
  | controllerImageCheck regions => exact execControllerImageCheck_kept regions s hkept
  | dictionaryLoad => exact execDictionaryLoad_kept s hkept
  | unitImageCheck u x => exact execUnitImageCheck_kept u x s hkept
  | bootComplete u => exact execBootComplete_kept u s hkept
  | stageStart => exact execStageStart_kept s hkept
  | powerFailWarning cause => exact execPowerFailWarning_kept cause s hkept
  | stageStop => exact execStageStop_kept s hkept
  | inputReturn => exact execInputReturn_kept s hkept
  | flushComplete => exact execFlushComplete_kept s hkept
  | powerFailAreaErase => exact execPowerFailAreaErase_kept s hkept
  | logSave => exact execLogSave_kept s hkept
  | phaseFault j => exact execPhaseFault_kept j s hkept
  | currentClamp => exact execCurrentClamp_kept s hkept
  | telemetryFrameRx f => exact execTelemetryFrameRx_kept f s hkept
  | telemetryLost => exact execTelemetryLost_kept s hkept
  | plannerRun m => exact execPlannerRun_kept m s hkept
  | planNow k m => exact execPlanNow_kept k m s hkept
  | voltageStep die => exact execVoltageStep_kept die s hkept
  | usdoTransfer r => exact execUsdoTransfer_kept r s hkept
  | dictionaryDatagram p srcIp srcPort d => exact execDictionaryDatagram_kept p srcIp srcPort d s hkept
  | transferTimeout k => exact execTransferTimeout_kept k s hkept
  | clientSlotTimeout k => exact execClientSlotTimeout_kept k s hkept
  | nmtStart => exact execNmtStart_kept s hkept
  | nmtStop => exact execNmtStop_kept s hkept
  | nmtEnterPreOperational => exact execNmtEnterPreOperational_kept s hkept
  | resetNode => exact execResetNode_kept s hkept
  | resetCommunication => exact execResetCommunication_kept s hkept
  | busOffRecovery => exact execBusOffRecovery_kept s hkept
  | canSyncRx => exact execCanSyncRx_kept s hkept
  | heartbeat => exact execHeartbeat_kept s hkept
  | emcySend => exact execEmcySend_kept s hkept
  | windowOpenWrite k w => exact execWindowOpenWrite_kept k w s hkept
  | windowOpenRead k w => exact execWindowOpenRead_kept k w s hkept
  | windowCommit k w => exact execWindowCommit_kept k w s hkept
  | windowAbandon k w => exact execWindowAbandon_kept k w s hkept
  | windowData k w write data => exact execWindowData_kept k w write data s hkept
  | windowTimeout w => exact execWindowTimeout_kept w s hkept
  | firmwareEraseDone => exact execFirmwareEraseDone_kept s hkept
  | programBufferRoom failed => exact execProgramBufferRoom_kept failed s hkept
  | firmwareVerifyDone h => exact execFirmwareVerifyDone_kept h s hkept
  | challengeRead k => exact execChallengeRead_kept k s hkept
  | responseWrite k v => exact execResponseWrite_kept k v s hkept
  | maintenanceLock k => exact execMaintenanceLock_kept k s hkept
  | unlockAttemptBlockExpiry => exact execUnlockAttemptBlockExpiry_kept s hkept
  | unlockExpiry => exact execUnlockExpiry_kept s hkept
  | save k => exact execSave_kept k s hkept
  | load k => exact execLoad_kept k s hkept
  | errorListEmpty k => exact execErrorListEmpty_kept k s hkept
  | lolRelease u l => exact execLolRelease_kept u l s hkept
  | canBusOff => exact execCanBusOff_kept s hkept
  | saveComplete => exact execSaveComplete_kept s hkept
  | controllerRestartDone => exact execControllerRestartDone_kept s hkept
  | wornDutyEnd die => exact execWornDutyEnd_kept die s hkept

/-- The stores' invariant is what is kept where the stores are asked for. -/
theorem kept_of_storesKept {s : State} (h : StoresKept s) : Kept ⟨s.now, s.pending, True⟩ s :=
  ⟨rfl, rfl, fun _ => h.regs, fun _ => h.master, fun _ => h.shadowA, fun _ => h.shadowB, fun _ => h.applied, fun _ => h.memA,
    fun _ => h.memB, fun _ => h.lastAt, fun _ => h.noteAt, fun _ => h.overflow, fun _ => h.records, fun _ => h.errors,
    fun _ => h.inUse⟩

theorem Kept.regs {B : Base} {s : State} (h : Kept B s) : B.stores → assocWf defaultOf s.regs = true := by
  obtain ⟨-, -, hregs, -⟩ := h
  exact hregs

theorem Kept.storesKept {B : Base} {s : State} (h : Kept B s) (hB : B.stores) : StoresKept s where
  regs := h.regs hB
  master := h.master hB
  shadowA := h.shadowA hB
  shadowB := h.shadowB hB
  applied := h.applied hB
  inUse := h.inUse hB
  memA := h.memA hB
  memB := h.memB hB
  lastAt := h.lastAt hB
  noteAt := h.noteAt hB
  overflow := h.overflow hB
  records := h.records hB
  errors := h.errors hB

/-- The queue is no part of the stores. -/
theorem StoresKept.withPending {s : State} (h : StoresKept s) (rest : List Instr) : StoresKept { s with pending := rest } :=
  ⟨h.regs, h.master, h.shadowA, h.shadowB, h.applied, h.inUse, h.memA, h.memB, h.lastAt, h.noteAt, h.overflow, h.records,
    h.errors⟩

theorem exec_storesKept {c : Instr} {s t : State} (h : StoresKept s) (hexec : exec c s = .next t) : StoresKept t := by
  obtain ⟨t', hnext, hkept⟩ := exec_kept c s (kept_of_storesKept h)
  obtain rfl : t' = t := by rw [hexec] at hnext; injection hnext with hnext; exact hnext.symm
  exact hkept.storesKept trivial

theorem idleCycle_storesKept {s : State} (h : StoresKept s) : StoresKept (idleCycle s) :=
  (idleCycle_kept s (kept_of_storesKept h)).storesKept trivial

theorem step_of_cons {c : Instr} {rest : List Instr} {s : State} (h : s.pending = c :: rest) :
    step s = exec c { s with pending := rest } := by
  rw [step, h]

theorem step_of_nil {s : State} (h : s.pending = []) : step s = .next (idleCycle s) := by
  rw [step, h]

/-- Settles O60: a step is a command or a core cycle, and each keeps the stores. -/
theorem everyStepKeepsTheStores : Obligations.EveryStepKeepsTheStores := by
  intro s t h hstep
  cases hpending : s.pending with
  | nil =>
    rw [step_of_nil hpending] at hstep
    injection hstep with hstep
    exact hstep ▸ idleCycle_storesKept h
  | cons c rest =>
    rw [step_of_cons hpending] at hstep
    exact exec_storesKept (h.withPending rest) hstep

/-- Without asking for the stores a state is kept against itself. -/
theorem kept_self (s : State) : Kept ⟨s.now, s.pending, False⟩ s :=
  ⟨rfl, rfl, False.elim, False.elim, False.elim, False.elim, False.elim, False.elim, False.elim, False.elim, False.elim,
    False.elim, False.elim, False.elim, False.elim⟩

/-- Settles O58: held against its own queue and clock, without asking for the stores. -/
theorem everyCommandCompletes : Obligations.EveryCommandCompletes := by
  intro c s
  obtain ⟨t, hexec, hnow, hpending, -⟩ := exec_kept c s (kept_self s)
  exact ⟨t, hexec, hpending, hnow⟩

/-! ## A core cycle -/

theorem finishScrub_only (s : State) (u : UnitId) : Only [.regs, .counts, .dram] s (finishScrub s u) := by
  refine .ite (fun _ => ?_) fun _ => .refl ..
  have hdram : Only [.regs, .counts, .dram] s (setDram s u fun x => { x with scrubbing := false, scrubRaised := false }) := .of_eq rfl
  exact .ite (fun _ => (hdram.step (regPut_only ..)).step (countUnit_only ..)) fun _ => hdram

theorem endTimed_only (s : State) : Only [.regs, .counts, .dram, .pins, .flash] s (endTimed s) := by
  have hpins : Only [.regs, .counts, .dram, .pins, .flash] s (fallPins s) := .of_eq rfl
  exact ((hpins.step (finishScrub_only ..)).step (finishScrub_only ..)).step (l' := [.flash]) (.of_eq rfl)

/-- The parts that a core cycle without a command may change. -/
def idleParts : List StatePart := [.now, .regs, .ports, .flows, .meters, .counts, .time, .dram, .flash, .planner, .pins]

theorem idleCycle_only (s : State) : Only idleParts s (idleCycle s) := by
  have hnow : Only idleParts s { s with now := s.now + 1 } := .of_eq rfl
  have href : Only idleParts s (if (s.now + 1 - s.time.tb3Start) % cyclesPerRef = 0 then referenceCycle { s with now := s.now + 1 }
      else { s with now := s.now + 1 }) :=
    .ite (fun _ => hnow.step (l' := [.time, .flows, .ports, .meters]) (.of_eq rfl)) fun _ => hnow
  have hour : ∀ t, Only [.planner] t (countHour t) := fun t => .ite (fun _ => .of_eq rfl) fun _ => .refl ..
  exact (href.step (hour _)).step (endTimed_only _)

/-- Settles O1: the front command runs on the state with the queue's rest; an empty queue lets one core cycle pass. -/
theorem stepRunsFrontCommand : Obligations.StepRunsFrontCommand := by
  refine ⟨fun c rest s h => step_of_cons h, fun s h => ⟨idleCycle s, step_of_nil h, ?_⟩⟩
  have hidle := idleCycle_only s
  obtain ⟨hnow, -⟩ := idleCycle_kept s (kept_self s)
  exact ⟨hnow, (hidle.part .pending (by decide)).trans h, hidle.part .dict (by decide), hidle.part .lap (by decide)⟩

/-! ## After power-on reset (15_reset.md Table 15-5) -/

theorem storesKept_reset : StoresKept State.reset where
  regs := rfl
  master := rfl
  shadowA := rfl
  shadowB := rfl
  applied := rfl
  inUse := rfl
  memA := rfl
  memB := rfl
  lastAt := rfl
  noteAt := rfl
  overflow := by decide
  records := by decide
  errors := by decide

theorem cfg_reset (k : Nat) : cfg State.reset k = defaultOf k := by
  unfold cfg
  split <;> rfl

/-- A flow at reset is an always enabled one from F248 on (09_flows.md R221). -/
theorem flow_reset (f : FlowId) : ∃ b, State.reset.flows.get f = flowReset (decide (248 ≤ f.val)) b := by
  obtain ⟨i, hi⟩ := f
  change ∃ b, (Vector.replicate 16 (flowReset false 3000) ++ Vector.replicate 232 (flowReset false 2) ++
    Vector.replicate 8 (flowReset true 2) : Vector Flow (16 + 232 + 8))[i]'hi = flowReset (decide (248 ≤ i)) b
  simp only [Vector.getElem_append, Vector.getElem_replicate]
  split
  · split
    · exact ⟨3000, by rw [decide_eq_false (by omega)]⟩
    · exact ⟨2, by rw [decide_eq_false (by omega)]⟩
  · exact ⟨2, by rw [decide_eq_true (by omega)]⟩

theorem atu_reset_enabled (u : UnitId) :
    ∀ c : Fin 64, ((State.reset.atu.get u).get c).enabled = decide (c.val = 14 ∨ c.val = 15) := by
  cases u <;> decide

theorem dram_reset_chan (u : UnitId) (c : DramChan) : (State.reset.dram.get u).chan.get c = dramChannelReset := by
  cases u <;> exact Vector.getElem_replicate ..

/-- Settles O59: each part of the reset state as its own definition gives it. -/
theorem resetState : Obligations.ResetState := by
  refine ⟨rfl, rfl, rfl, rfl, by decide, cfg_reset, fun _ => rfl, rfl, rfl, rfl, fun f => ?_, fun f => ?_, rfl,
    rfl, atu_reset_enabled, fun u c => ?_, fun u c => ?_, fun u => ?_, fun u => ?_, by decide, storesKept_reset⟩
  · obtain ⟨b, hf⟩ := flow_reset f
    rw [hf]
    rfl
  · obtain ⟨b, hf⟩ := flow_reset f
    rw [hf]
    rfl
  · rw [dram_reset_chan]
    rfl
  · rw [dram_reset_chan]
    rfl
  · cases u <;> rfl
  · cases u <;> exact ⟨rfl, rfl⟩

end Sys2Proof.Machine
end

section
/-! PROOF. The matching store (02_lap.md R39, R46, R88): a posted operand is in the store or held by its producer, a window that
arrives posts its operand, and the first complete job leaves the store. -/

namespace Sys2Proof.Machine

set_option Elab.async false

/-! ## Operands posted -/

/-- Channel c's job of the stripe has its window operand: in the matching store, or held by its producer (R46). -/
def WindowPosted (d : DispState) (c : Chan) (n : StreamId) (stripe : Nat) : Prop :=
  (∃ j ∈ d.jobs.get c, j.stream = n ∧ j.stripe = stripe ∧ j.window = true) ∨
    ∃ h ∈ d.heldJobs, h.1 = c ∧ h.2.stream = n ∧ h.2.stripe = stripe ∧ h.2.window = true

theorem postOperand_window (d : DispState) (c : Chan) (n : StreamId) (stripe : Nat) :
    WindowPosted (postOperand d c n stripe .window) c n stripe := by
  unfold postOperand
  dsimp only
  split
  · next hmem =>
    obtain ⟨j, hj, hjob⟩ := List.any_eq_true.1 hmem
    have hjob : j.stream = n ∧ j.stripe = stripe := of_decide_eq_true hjob
    refine .inl ⟨markOperand .window j, ?_, hjob.1, hjob.2, rfl⟩
    rw [vmod_get_same]
    exact List.mem_map.2 ⟨j, hj, if_pos hjob⟩
  · split
    · refine .inl ⟨markOperand .window (emptyJob n stripe), ?_, rfl, rfl, rfl⟩
      rw [vmod_get_same]
      exact List.mem_append_right _ (List.mem_singleton_self _)
    · exact .inr ⟨(c, markOperand .window (emptyJob n stripe)), List.mem_append_right _ (List.mem_singleton_self _), rfl, rfl, rfl, rfl⟩

theorem postJob_only (s : State) (c : Chan) (n : StreamId) (stripe : Nat) (o : Operand) : Only [.disp] s (postJob s c n stripe o) :=
  .of_eq rfl

theorem postJob_window (s : State) (c : Chan) (n : StreamId) (stripe : Nat) :
    WindowPosted ((postJob s c n stripe .window).disp.get (jobUnit s n)) c n stripe := by
  rw [postJob, pair_mod_get]
  exact postOperand_window ..

/-! ## A window arrives (R88) -/

theorem exec_windowFetchDone (c : Chan) (n : StreamId) (s : State) :
    exec (.windowFetchDone c n) s = execWindowFetchDone c n s := rfl

theorem windowFetchDone_spoiled {c : Chan} {n : StreamId} {s : State} (h : s.streams[n].search.spoiled[c] = true) :
    execWindowFetchDone c n s = .next s := if_pos h

theorem windowFetchDone_asked {c : Chan} {n : StreamId} {s : State} (h : s.streams[n].search.spoiled[c] = false)
    (hlate : s.streams[n].search.late[c] = false) :
    execWindowFetchDone c n s = .next (modStream s n fun y => { y with search := takeAsked s n y.search c }) := by
  simp only [execWindowFetchDone, h, hlate, Bool.false_eq_true, if_false]

/-- The rows of earlier laps have entered the ring. -/
def owedTaken (s : State) (c : Chan) (n : StreamId) : State :=
  modStream s n fun y => { y with search := takeOwed s n y.search c }

/-- Whether the stripe in coding waits for the window of channel c and has it now. -/
def windowAwaited (s : State) (c : Chan) (n : StreamId) (k : Coding) : Prop :=
  k.kind = .inter ∧ carries s c n = true ∧ windowReady (owedTaken s c n) n k.pic k.row c = true

theorem windowFetchDone_late {c : Chan} {n : StreamId} {s : State} (h : s.streams[n].search.spoiled[c] = false)
    (hlate : s.streams[n].search.late[c] = true) :
    (∃ k, s.streams[n].coding = some k ∧ windowAwaited s c n k ∧
      execWindowFetchDone c n s = .next (postJob (owedTaken s c n) c n k.stripe .window)) ∨
    (∀ k, s.streams[n].coding = some k → ¬ windowAwaited s c n k) ∧ execWindowFetchDone c n s = .next (owedTaken s c n) := by
  simp only [execWindowFetchDone, h, hlate, Bool.false_eq_true, if_false, if_true]
  cases hcoding : s.streams[n].coding with
  | none => exact .inr ⟨fun k hk => (nomatch hk), rfl⟩
  | some k =>
    by_cases hwait : windowAwaited s c n k
    · exact .inl ⟨k, rfl, hwait, congrArg _ (if_pos hwait)⟩
    · refine .inr ⟨fun k' hk => ?_, congrArg _ (if_neg hwait)⟩
      cases hk
      exact hwait

theorem jobUnit_owedTaken (s : State) (c : Chan) (n : StreamId) : jobUnit (owedTaken s c n) n = jobUnit s n := by
  have hcoding : (owedTaken s c n).streams[n].coding = s.streams[n].coding := by
    rw [owedTaken, modStream_same]
  simp only [jobUnit, hcoding]
  rfl

/-- R88: each outcome of a window's arrival. -/
theorem windowFetchDone_arrives (c : Chan) (n : StreamId) (s : State) :
    ∃ t, exec (.windowFetchDone c n) s = .next t ∧
      (s.streams[n].search.spoiled[c] = true → t = s) ∧
      (s.streams[n].search.spoiled[c] = false → s.streams[n].search.late[c] = true →
        t.streams[n].search = takeOwed s n s.streams[n].search c ∧
        ∀ k, s.streams[n].coding = some k → k.kind = .inter → carries s c n = true → windowReady t n k.pic k.row c = true →
          WindowPosted (t.disp.get (jobUnit s n)) c n k.stripe) ∧
      (s.streams[n].search.spoiled[c] = false → s.streams[n].search.late[c] = false →
        t.streams[n].search = takeAsked s n s.streams[n].search c ∧ t.disp = s.disp) ∧
      t.streams[n].coding = s.streams[n].coding ∧ (∀ m, m ≠ n → t.streams[m] = s.streams[m]) ∧
      t = { s with streams := t.streams, disp := t.disp } := by
  rw [exec_windowFetchDone]
  have hother : ∀ f m, m ≠ n → (modStream s n f).streams[m] = s.streams[m] := fun f m hm => modStream_other s f hm
  cases hspoiled : s.streams[n].search.spoiled[c] with
  | true => exact ⟨s, windowFetchDone_spoiled hspoiled, by simp, by simp, by simp, rfl, fun _ _ => rfl, rfl⟩
  | false =>
    cases hlate : s.streams[n].search.late[c] with
    | false =>
      refine ⟨_, windowFetchDone_asked hspoiled hlate, by simp, by simp, ?_, ?_, hother _, rfl⟩
      · exact fun _ _ => ⟨by rw [modStream_same], rfl⟩
      · rw [modStream_same]
    | true =>
      have htaken : (owedTaken s c n).streams[n].search = takeOwed s n s.streams[n].search c := by
        rw [owedTaken, modStream_same]
      have hcoding : (owedTaken s c n).streams[n].coding = s.streams[n].coding := by rw [owedTaken, modStream_same]
      obtain ⟨k, hk, hwait, hexec⟩ | ⟨hnone, hexec⟩ := windowFetchDone_late hspoiled hlate
      · refine ⟨_, hexec, by simp, fun _ _ => ⟨htaken, fun k' hk' _ _ _ => ?_⟩, by simp, hcoding, hother _, rfl⟩
        obtain rfl : k = k' := Option.some.inj (hk.symm.trans hk')
        have hposted := postJob_window (owedTaken s c n) c n k.stripe
        rwa [jobUnit_owedTaken] at hposted
      · refine ⟨_, hexec, by simp, fun _ _ => ⟨htaken, fun k hk hkind hcarries hready => ?_⟩, by simp, hcoding, hother _, rfl⟩
        exact absurd ⟨hkind, hcarries, hready⟩ (hnone k hk)

/-! ## A job fires (R39) -/

theorem setTaskFlag_only (s : State) (u : UnitId) (ident : Nat) (f : Fin 32) : Only [.regs, .disp] s (setTaskFlag s u ident f) := by
  have hheld : ∀ d, Only [.regs, .disp] s { s with disp := d } := fun d => .of_eq rfl
  refine .ite (fun _ => ?_) fun _ => hheld _
  split
  · exact .ite (fun _ => (hheld _).step (setFlag_only ..)) fun _ => hheld _
  · exact hheld _

theorem setFireFlags_only (s : State) (u : UnitId) (c : Chan) : Only [.regs, .disp] s (setFireFlags s u c) :=
  forEach_only (fun _ _ => setTaskFlag_only ..) _ s

theorem flagTaken_jobs (d : DispState) (lap i : Nat) (f : Fin 32) : (flagTaken d lap i f).jobs = d.jobs := by
  unfold flagTaken
  split
  · dsimp only
    split <;> rfl
  · rfl

/-- A flag write leaves the matching stores. -/
theorem setTaskFlag_jobs (s : State) (u : UnitId) (i : Nat) (f : Fin 32) (v : UnitId) :
    ((setTaskFlag s u i f).disp.get v).jobs = (s.disp.get v).jobs := by
  have hset : ∀ d : DispState, d.jobs = (s.disp.get u).jobs → ((s.disp.set u d).get v).jobs = (s.disp.get v).jobs := by
    intro d hd
    cases u <;> cases v <;> first | exact hd | rfl
  unfold setTaskFlag
  dsimp only
  split
  · split
    · split
      · exact hset _ rfl
      · exact hset _ rfl
    · exact hset _ rfl
  · exact hset _ (flagTaken_jobs ..)

theorem setFireFlags_jobs (s : State) (u : UnitId) (c : Chan) (v : UnitId) :
    ((setFireFlags s u c).disp.get v).jobs = (s.disp.get v).jobs := by
  unfold setFireFlags forEach
  generalize (s.disp.get u).tasks.filter _ = l
  induction l generalizing s with
  | nil => rfl
  | cons x l ih => exact (ih _).trans (setTaskFlag_jobs ..)

/-- With no held operand nothing is offered again. -/
theorem reofferJobs_of_none {d : DispState} (h : d.heldJobs = []) : reofferJobs d = d := by
  cases d
  cases h
  rfl

/-- The job is gone from the store of a unit. -/
def jobLeft (d : DispState) (c : Chan) (j : Job) : DispState :=
  reofferJobs { d with jobs := vmod d.jobs c fun l => l.filter fun i => decide (i.stream ≠ j.stream ∨ i.stripe ≠ j.stripe) }

theorem jobLeft_jobs {d : DispState} (c : Chan) (j : Job) (h : d.heldJobs = []) :
    (jobLeft d c j).jobs.get c = (d.jobs.get c).filter fun i => decide (i.stream ≠ j.stream ∨ i.stripe ≠ j.stripe) := by
  have hleft : jobLeft d c j =
      { d with jobs := vmod d.jobs c fun l => l.filter fun i => decide (i.stream ≠ j.stream ∨ i.stripe ≠ j.stripe) } :=
    reofferJobs_of_none h
  rw [hleft, vmod_get_same]

/-- A job has left both stores and its flags are set; its part has not begun. -/
def jobTaken (s : State) (c : Chan) (j : Job) : State :=
  setFireFlags { s with disp := ⟨jobLeft s.disp.a c j, jobLeft s.disp.b c j⟩ } (jobUnit s j.stream) c

theorem jobTaken_only (s : State) (c : Chan) (j : Job) : Only [.regs, .disp] s (jobTaken s c j) := by
  have hleft : Only [.regs, .disp] s { s with disp := ⟨jobLeft s.disp.a c j, jobLeft s.disp.b c j⟩ } := .of_eq rfl
  exact hleft.step (setFireFlags_only ..)

/-- What a job's firing makes of its stream's stripe. -/
theorem fireJob_cases (s : State) (c : Chan) (j : Job) :
    (∃ k, s.streams[j.stream].coding = some k ∧ k.stripe = j.stripe ∧
      fireJob s c j = modCoding (jobTaken s c j) j.stream fun y => beginPart y c (newPart s j.stream k c j.window)) ∨
    (∀ k, s.streams[j.stream].coding = some k → k.stripe ≠ j.stripe) ∧ fireJob s c j = jobTaken s c j := by
  cases hcoding : s.streams[j.stream].coding with
  | none => exact .inr ⟨fun k hk => (nomatch hk), by simp only [fireJob, hcoding]; rfl⟩
  | some k =>
    by_cases hk : k.stripe = j.stripe
    · exact .inl ⟨k, rfl, hk, by simp only [fireJob, hcoding, if_pos hk]; rfl⟩
    · refine .inr ⟨fun k' hk' => ?_, by simp only [fireJob, hcoding, if_neg hk]; rfl⟩
      cases hk'
      exact hk

theorem viewUnit_fireJob (s : State) (c : Chan) (j : Job) : viewUnit (fireJob s c j) = viewUnit s := by
  have hrelay : (jobTaken s c j).relay = s.relay := (jobTaken_only s c j).part .relay (by decide)
  obtain ⟨k, -, -, hfire⟩ | ⟨-, hfire⟩ := fireJob_cases s c j
  · rw [hfire]
    exact congrArg (fun r : RelayState => r.active.getD .a) hrelay
  · rw [hfire]
    exact congrArg (fun r : RelayState => r.active.getD .a) hrelay

theorem fireJob_jobs {s : State} (c : Chan) (j : Job) (ha : s.disp.a.heldJobs = []) (hb : s.disp.b.heldJobs = []) (v : UnitId) :
    ((fireJob s c j).disp.get v).jobs.get c =
      ((s.disp.get v).jobs.get c).filter fun i => decide (i.stream ≠ j.stream ∨ i.stripe ≠ j.stripe) := by
  have htaken : ((jobTaken s c j).disp.get v).jobs.get c =
      ((s.disp.get v).jobs.get c).filter fun i => decide (i.stream ≠ j.stream ∨ i.stripe ≠ j.stripe) := by
    rw [jobTaken, setFireFlags_jobs]
    cases v
    · exact jobLeft_jobs c j ha
    · exact jobLeft_jobs c j hb
  obtain ⟨k, -, -, hfire⟩ | ⟨-, hfire⟩ := fireJob_cases s c j
  · rw [hfire]
    exact htaken
  · rw [hfire]
    exact htaken

theorem exec_stripeJobFire (c : Chan) (s : State) : exec (.stripeJobFire c) s = execStripeJobFire c s := rfl

/-- R39: the first complete job fires. -/
theorem stripeJobFire_fires {c : Chan} {j : Job} {s : State} (h : (jobsOf s c).find? jobReady = some j) :
    ∃ t, exec (.stripeJobFire c) s = .next t ∧
      (s.disp.a.heldJobs = [] → s.disp.b.heldJobs = [] →
        jobsOf t c = (jobsOf s c).filter (fun i => decide (i.stream ≠ j.stream ∨ i.stripe ≠ j.stripe))) ∧
      (∀ k, s.streams[j.stream].coding = some k → k.stripe = j.stripe →
        ∃ k' p, t.streams[j.stream].coding = some k' ∧ k'.stripe = k.stripe ∧ k'.parts.get c = some p ∧ p.done = 0 ∧
          p.ctus = partCols s j.stream c ∧ p.budget = k.shares.get c ∧ p.lastQp = k.qp ∧ p.window = j.window ∧
          ∀ d, d ≠ c → k'.parts.get d = k.parts.get d) ∧
      (∀ m, m ≠ j.stream → t.streams[m] = s.streams[m]) ∧
      t = { s with regs := t.regs, streams := t.streams, disp := t.disp } := by
  have htaken : Only [.regs, .streams, .disp] s (jobTaken s c j) := (Only.refl _ s).step (jobTaken_only s c j)
  have hstreams : (jobTaken s c j).streams = s.streams := (jobTaken_only s c j).part .streams (by decide)
  refine ⟨fireJob s c j, by rw [exec_stripeJobFire, execStripeJobFire, h], fun ha hb => ?_, fun k hk hstripe => ?_, fun m hm => ?_, ?_⟩
  · simp only [jobsOf, viewUnit_fireJob, fireJob_jobs c j ha hb, List.filter_append]
  · obtain ⟨k', hk', -, hfire⟩ | ⟨hnone, -⟩ := fireJob_cases s c j
    · obtain rfl : k = k' := Option.some.inj (hk.symm.trans hk')
      refine ⟨beginPart k c (newPart s j.stream k c j.window), newPart s j.stream k c j.window, ?_, rfl, vmod_get_same .., rfl, rfl,
        rfl, rfl, rfl, fun d hd => vmod_get_other _ _ _ _ hd⟩
      rw [hfire, modCoding, modStream_same, hstreams, hk]
      rfl
    · exact absurd hstripe (hnone k hk)
  · obtain ⟨k, -, -, hfire⟩ | ⟨-, hfire⟩ := fireJob_cases s c j
    · rw [hfire, modCoding, modStream_other _ _ hm, hstreams]
    · rw [hfire, hstreams]
  · obtain ⟨k, -, -, hfire⟩ | ⟨-, hfire⟩ := fireJob_cases s c j
    · rw [hfire]
      exact (htaken.step (modStream_only ..)).eq
    · rw [hfire]
      exact htaken.eq

/-- Settles O3: the window's arrival, the job that fires, and no job that could. -/
theorem operandsArriveAndJobsFire : Obligations.OperandsArriveAndJobsFire := by
  refine ⟨windowFetchDone_arrives, fun c j s h => stripeJobFire_fires h, fun c s h => ?_⟩
  rw [exec_stripeJobFire, execStripeJobFire, h]

end Sys2Proof.Machine
end

section
/-! PROOF. The CTU allowance (05_pacer.md R117, R118): the bits a CTU is planned to spend leave what the part may still need. -/

namespace Sys2Proof.Machine

set_option Elab.async false

/-! ## The plan of a CTU -/

theorem headBits_le (h : SliceHead) : headBits h ≤ 192 := Nat.min_le_left ..

/-- The slices begun with a CTU: one more where it opens one. -/
def begunWith (s : State) (c : Chan) (n : StreamId) (p : Part) : Nat :=
  p.slicesBegun + if opensSlice (sliceList s n c) p.done then 1 else 0

/-- What is spent before a CTU's own bits: with the head of the slice it opens. -/
theorem ctuPlan_spent_le (s : State) (c : Chan) (n : StreamId) (k : Coding) (p : Part) (x : CtuContent) :
    (ctuPlan s c n k p x).spent ≤ p.spent + if opensSlice (sliceList s n c) p.done then 192 else 0 := by
  have hhead : ∀ o : Option SliceHead, o.elim 0 headBits ≤ 192 := fun o => by
    cases o with
    | none => exact Nat.zero_le _
    | some h => exact headBits_le h
  simp only [ctuPlan]
  split
  · exact Nat.add_le_add_left (hhead _) _
  · exact le_refl _

/-- A CTU that is coded as it is stays within its allowance, one that is floor-coded or replaced spends at most 120 bits (R118). -/
theorem ctuPlan_bits_le {s : State} {c : Chan} {n : StreamId} {k : Coding} {p : Part} {x : CtuContent} :
    (ctuPlan s c n k p x).bits ≤ 120 ∨
      ((ctuPlan s c n k p x).bits : Int) ≤ p.budget - (ctuPlan s c n k p x).spent - ctuReserve s c n p (begunWith s c n p) := by
  by_cases h : ((ctuPlan s c n k p x).floor || (ctuPlan s c n k p x).replaced) = true
  · refine .inl ?_
    have hbits : (ctuPlan s c n k p x).bits = min 120 x.floorBits := if_pos h
    omega
  · refine .inr ?_
    have hbits : (ctuPlan s c n k p x).bits = x.bits := if_neg h
    rw [Bool.or_eq_true, not_or] at h
    obtain ⟨hfloor, hreplaced⟩ := h
    have hcut : ¬ ((p.budget : Int) - (ctuPlan s c n k p x).spent - ctuReserve s c n p (begunWith s c n p) < x.bits) := by
      intro hlt
      refine hreplaced ?_
      have hnot : (!(ctuPlan s c n k p x).floor) = true := by simpa using hfloor
      exact Bool.and_eq_true_iff.2 ⟨hnot, decide_eq_true hlt⟩
    omega

/-- With what the part may still need inside its budget, it stays so behind the CTU. -/
theorem ctuPlan_keeps_budget {s : State} {c : Chan} {n : StreamId} {k : Coding} {p : Part} {x : CtuContent}
    (hleft : p.done < p.ctus) (hopen : opensSlice (sliceList s n c) p.done = true → p.slicesBegun < slicesNow s n c)
    (hneed : p.spent + partNeed (slicesNow s n c) p ≤ p.budget) :
    (ctuPlan s c n k p x).spent + (ctuPlan s c n k p x).bits + ctuReserve s c n p (begunWith s c n p) ≤ p.budget := by
  have hspent := ctuPlan_spent_le s c n k p x
  have hbits := ctuPlan_bits_le (s := s) (c := c) (n := n) (k := k) (p := p) (x := x)
  simp only [partNeed] at hneed
  simp only [ctuReserve, begunWith] at hbits ⊢
  split at hspent
  · next hopens =>
    have hslices := hopen hopens
    simp only [hopens, if_true] at hbits ⊢
    omega
  · next hopens =>
    simp only [hopens, Bool.false_eq_true, if_false] at hbits ⊢
    omega

/-- What the part behind the CTU may still need is what the CTU's allowance held back. -/
theorem partNeed_partAfter (s : State) (c : Chan) (n : StreamId) (k : Coding) (p : Part) (x : CtuContent) (cus : List CuTrial) :
    partNeed (slicesNow s n c) (partAfter p (ctuPlan s c n k p x) cus) = ctuReserve s c n p (begunWith s c n p) := by
  simp only [partNeed, ctuReserve, Nat.sub_sub]
  rfl

theorem partAfter_keeps_budget {s : State} {c : Chan} {n : StreamId} {k : Coding} {p : Part} {x : CtuContent} (cus : List CuTrial)
    (hleft : p.done < p.ctus) (hopen : opensSlice (sliceList s n c) p.done = true → p.slicesBegun < slicesNow s n c)
    (hneed : p.spent + partNeed (slicesNow s n c) p ≤ p.budget) :
    (partAfter p (ctuPlan s c n k p x) cus).spent + partNeed (slicesNow s n c) (partAfter p (ctuPlan s c n k p x) cus) ≤ p.budget := by
  rw [partNeed_partAfter]
  exact ctuPlan_keeps_budget hleft hopen hneed

/-! ## What else a CTU changes -/

theorem countCtu_only (s : State) (c : Chan) (n : StreamId) (g : CtuPlan) : Only [.regs, .overflow] s (countCtu s c n g) := by
  have hbump : ∀ {t : State} (b : Prop) [Decidable b] (k : Nat), Only [.regs, .overflow] s t →
      Only [.regs, .overflow] s (if b then bump t k else t) :=
    fun b _ k h => .ite (fun _ => h.step (bump_only ..)) fun _ => h
  exact hbump _ _ (hbump _ _ (hbump _ _ ((Only.refl _ s).step (putField_only ..))))

theorem noteLapStall_only (s : State) (c : Chan) (v : Nat) : Only [.dram] s (noteLapStall s c v) := .of_eq rfl

theorem dramSame_noteLapStall (s : State) (c : Chan) (v : Nat) : DramSame s (noteLapStall s c v) := by
  unfold DramSame DramKept noteLapStall modStall setDram
  cases viewUnit s <;> exact ⟨fun _ => rfl, fun _ => rfl⟩

theorem modChan_only (s : State) (c : Chan) (f : Channel → Channel) : Only [.chans] s (modChan s c f) := .of_eq rfl

/-- The plan of the next CTU of channel c's part, with the stalls of its lap. -/
def planNow (s : State) (c : Chan) (n : StreamId) (k : Coding) (p : Part) (x : CtuContent) : CtuPlan :=
  ctuPlan (noteLapStall s c x.stall) c n k p x

/-- The part behind its next CTU. -/
def partNow (s : State) (c : Chan) (n : StreamId) (k : Coding) (p : Part) (x : CtuContent) : Part :=
  partAfter p (planNow s c n k p x) (ctuCus (noteLapStall s c x.stall) c n k p x (planNow s c n k p x))

/-- The inter blocks of the CTU. -/
def blocksNow (s : State) (c : Chan) (n : StreamId) (k : Coding) (p : Part) (x : CtuContent) : List InterBlock :=
  interBlocks (noteLapStall s c x.stall) (ctuPlace (noteLapStall s c x.stall) c n k p (planNow s c n k p x).qp)
    (ctuCus (noteLapStall s c x.stall) c n k p x (planNow s c n k p x))

/-- The CTU is counted, in both units' words and its stall. -/
def ctuCounted (s : State) (c : Chan) (n : StreamId) (k : Coding) (p : Part) (x : CtuContent) : State :=
  countCtu (noteLapStall s c x.stall) c n (planNow s c n k p x)

/-- The CTU is in its part, its cost noted and its blocks kept. -/
def ctuCoded (s : State) (c : Chan) (n : StreamId) (k : Coding) (p : Part) (x : CtuContent) : State :=
  modStream
    (modChan (modCoding (ctuCounted s c n k p x) n fun y => { y with parts := vmod y.parts c fun _ => some (partNow s c n k p x) }) c
      fun y => noteCost y (planNow s c n k p x) x.cycles (ctuWords s n)) n
    fun y => { y with search := { y.search with blocks := y.search.blocks ++ blocksNow s c n k p x } }

section
variable (s : State) (c : Chan) (n : StreamId) (k : Coding) (p : Part) (x : CtuContent)

theorem ctuCounted_only : Only [.regs, .overflow, .dram] s (ctuCounted s c n k p x) :=
  ((Only.refl _ s).step (noteLapStall_only ..)).step (countCtu_only ..)

theorem ctuCoded_only : Only [.regs, .overflow, .chans, .streams, .dram] s (ctuCoded s c n k p x) :=
  ((((Only.refl _ s).step (ctuCounted_only ..)).step (modStream_only ..)).step (modChan_only ..)).step (modStream_only ..)

theorem ctuCoded_coding (hk : s.streams[n].coding = some k) :
    (ctuCoded s c n k p x).streams[n].coding = some { k with parts := vmod k.parts c fun _ => some (partNow s c n k p x) } := by
  have hstreams : (ctuCounted s c n k p x).streams = s.streams := (ctuCounted_only ..).part .streams (by decide)
  rw [ctuCoded, modStream_same, modChan_streams, modCoding, modStream_same, hstreams, hk]
  rfl

theorem ctuCoded_streams_other {m : StreamId} (hm : m ≠ n) : (ctuCoded s c n k p x).streams[m] = s.streams[m] := by
  have hstreams : (ctuCounted s c n k p x).streams = s.streams := (ctuCounted_only ..).part .streams (by decide)
  rw [ctuCoded, modStream_other _ _ hm, modChan_streams, modCoding, modStream_other _ _ hm, hstreams]

theorem modChan_get_other (s : State) {c d : Chan} (f : Channel → Channel) (h : d ≠ c) :
    (modChan s c f).chans.get d = s.chans.get d :=
  vmod_get_other s.chans c d f h

theorem ctuCoded_chans_other {d : Chan} (hd : d ≠ c) : (ctuCoded s c n k p x).chans.get d = s.chans.get d := by
  have hchans : (ctuCounted s c n k p x).chans = s.chans := (ctuCounted_only ..).part .chans (by decide)
  rw [ctuCoded, modStream_chans, modChan_get_other _ _ hd, modCoding, modStream_chans, hchans]

theorem dramSame_ctuCoded : DramSame s (ctuCoded s c n k p x) := by
  have hdram : (ctuCoded s c n k p x).dram = (noteLapStall s c x.stall).dram := by
    rw [ctuCoded, modStream_dram, modChan_dram, modCoding, modStream_dram]
    exact (countCtu_only ..).part .dram (by decide)
  unfold DramSame DramKept
  rw [hdram]
  exact dramSame_noteLapStall s c x.stall

end

theorem exec_ctuCode (c : Chan) (n : StreamId) (x : CtuContent) (s : State) : exec (.ctuCode c n x) s = execCtuCode c n x s := rfl

theorem execCtuCode_of_part {c : Chan} {n : StreamId} (x : CtuContent) {k : Coding} {p : Part} {s : State}
    (hk : s.streams[n].coding = some k) (hp : k.parts.get c = some p) (hleft : p.done < p.ctus) :
    execCtuCode c n x s = .next (ctuCoded s c n k p x) := by
  have hp' : k.parts[c] = some p := hp
  simp only [execCtuCode, hk, hp', if_neg (Nat.not_le.2 hleft)]
  rfl

/-- Settles O5: the allowance of R118 keeps what the part may still need within its budget. -/
theorem ctuKeepsPartWithinBudget : Obligations.CtuKeepsPartWithinBudget := by
  intro c n x k p s hk hp hleft hopen hneed
  have hbudget : (partNow s c n k p x).spent + partNeed (slicesNow s n c) (partNow s c n k p x) ≤ p.budget :=
    partAfter_keeps_budget (s := noteLapStall s c x.stall) _ hleft hopen hneed
  exact ⟨_, _, partNow s c n k p x, (exec_ctuCode ..).trans (execCtuCode_of_part x hk hp hleft), ctuCoded_coding s c n k p x hk,
    vmod_get_same .., rfl, rfl, rfl, hbudget, fun d hd => vmod_get_other _ _ _ _ hd,
    fun m hm => ctuCoded_streams_other s c n k p x hm, fun d hd => ctuCoded_chans_other s c n k p x hd,
    dramSame_ctuCoded s c n k p x, (ctuCoded_only s c n k p x).eq⟩

end Sys2Proof.Machine
end

section
/-! PROOF. The coded stripe (02_lap.md R33, 05_pacer.md R120): what a whole stripe's completion leaves of its stream and of the
rest of the state. -/

namespace Sys2Proof.Machine

set_option Elab.async false

/-! ## What the completion's steps change -/

theorem modFlow_only (s : State) (f : FlowId) (g : Flow → Flow) : Only [.flows] s (modFlow s f g) := .of_eq rfl

theorem reserveIn_only (s : State) (n : StreamId) (add sub : Nat) : Only [.flows] s (reserveIn s n add sub) := by
  unfold reserveIn
  split
  · exact modFlow_only ..
  · exact .refl ..

theorem noteCoders_only (s : State) (n : StreamId) : Only [.chans] s (noteCoders s n) := forEach_only (fun _ _ => .of_eq rfl) _ s

theorem noteHashes_only (s : State) (l : List LineCrc) : Only [.regs, .overflow] s (noteHashes s l) :=
  forEach_only (fun _ _ => cvEnd_only ..) l s

/-- The state whose channels, counters and reservation have taken the stripe; its stream has not. -/
def stripeNoted (s : State) (n : StreamId) (k : Coding) (x : CodedStripe) : State :=
  noteHashes (noteCoders (forEach (streamChans s n) noteDone
    (reserveIn s n (if k.withheld then 0 else (stripeOf s n k x).bits / 8) k.reserved)) n) x.crcs

theorem stripeNoted_only (s : State) (n : StreamId) (k : Coding) (x : CodedStripe) :
    Only [.regs, .overflow, .chans, .flows] s (stripeNoted s n k x) := by
  have hdone : ∀ t, Only [.chans] t (forEach (streamChans s n) noteDone t) := forEach_only (fun _ _ => .of_eq rfl) _
  exact ((((Only.refl _ s).step (reserveIn_only ..)).step (hdone _)).step (noteCoders_only ..)).step (noteHashes_only ..)

/-- The stream's part in the completion: its stripe leaves coding and joins the stripes in flight. -/
def takeStripe (s : State) (n : StreamId) (k : Coding) (x : CodedStripe) (y : Stream) : Stream :=
  { y with
    coding := none
    flight := y.flight ++ [stripeOf s n k x]
    hashNow := hashAfter s n k.row x.crcs
    ownFrom := y.ownFrom <|> some k.row
    pacer := pacerAfter s n k (stripeOf s n k x).last y.pacer
    search := addRecon k.pic.number (joinedLines s n x)
      (if (stripeOf s n k x).last then finishBlocks k.pic.number y.search else y.search) }

theorem completeStripe_eq (s : State) (n : StreamId) (k : Coding) (x : CodedStripe) :
    completeStripe s n k x =
      if (stripeOf s n k x).last then countPicture (modStream (stripeNoted s n k x) n (takeStripe s n k x)) n k.unit k.pic.number
      else modStream (stripeNoted s n k x) n (takeStripe s n k x) := rfl

/-! ## The picture's last stripe -/

/-- What its last stripe makes of the stream: the monitor output may show the picture's rows. -/
def showPicture (s : State) (n : StreamId) (u : UnitId) (picture : Nat) (x : Stream) : Stream :=
  { x with
    ownFrom := none
    shownFrom := x.ownFrom.getD (ctbRows s n)
    shown := some (u, ⟨regGet (bump s (kStream n 0x1F)) (kStream n 0x1F),
      (x.search.refs.find? fun p => decide (p.number = picture)).elim [] fun p => p.lines⟩) }

theorem countPicture_eq (s : State) (n : StreamId) (u : UnitId) (picture : Nat) :
    countPicture s n u picture = forEach (streamChans s n) (fun y c => bump y (kChan c 0x3000 8))
      (modStream (bump s (kStream n 0x1F)) n (showPicture s n u picture)) := rfl

/-- A picture's last stripe counts it; its stream keeps its coding and its flight, and the others theirs. -/
theorem countPicture_frame (s : State) (n : StreamId) (u : UnitId) (picture : Nat) :
    Only [.regs, .overflow, .streams] s (countPicture s n u picture) ∧
      (countPicture s n u picture).streams[n].coding = s.streams[n].coding ∧
      (countPicture s n u picture).streams[n].flight = s.streams[n].flight ∧
      ∀ m, m ≠ n → (countPicture s n u picture).streams[m] = s.streams[m] := by
  have hcount : ∀ t : State, Only [.regs, .overflow] t (forEach (streamChans s n) (fun y c => bump y (kChan c 0x3000 8)) t) :=
    forEach_only (fun _ _ => bump_only ..) _
  have hbump : (bump s (kStream n 0x1F)).streams = s.streams := (bump_only ..).part .streams (by decide)
  have hstreams : (countPicture s n u picture).streams =
      (modStream (bump s (kStream n 0x1F)) n (showPicture s n u picture)).streams := by
    rw [countPicture_eq]
    exact (hcount _).part .streams (by decide)
  refine ⟨?_, ?_, ?_, fun m hm => ?_⟩
  · rw [countPicture_eq]
    exact (((Only.refl _ s).step (bump_only ..)).step (modStream_only ..)).step (hcount _)
  · rw [hstreams, modStream_same, hbump]
    rfl
  · rw [hstreams, modStream_same, hbump]
    rfl
  · rw [hstreams, modStream_other _ _ hm, hbump]

/-! ## The completed stripe -/

theorem completeStripe_joins (s : State) (n : StreamId) (k : Coding) (x : CodedStripe) :
    (completeStripe s n k x).streams[n].coding = none ∧
      (completeStripe s n k x).streams[n].flight = s.streams[n].flight ++ [stripeOf s n k x] ∧
      (∀ m, m ≠ n → (completeStripe s n k x).streams[m] = s.streams[m]) ∧
      Only [.regs, .overflow, .chans, .streams, .flows] s (completeStripe s n k x) := by
  have hnoted := stripeNoted_only s n k x
  have hstreams : (stripeNoted s n k x).streams = s.streams := hnoted.part .streams (by decide)
  have hcoding : (modStream (stripeNoted s n k x) n (takeStripe s n k x)).streams[n].coding = none := by
    rw [modStream_same]
    rfl
  have hflight : (modStream (stripeNoted s n k x) n (takeStripe s n k x)).streams[n].flight =
      s.streams[n].flight ++ [stripeOf s n k x] := by
    rw [modStream_same, hstreams]
    rfl
  have hother : ∀ m, m ≠ n → (modStream (stripeNoted s n k x) n (takeStripe s n k x)).streams[m] = s.streams[m] := fun m hm => by
    rw [modStream_other _ _ hm, hstreams]
  have honly : Only [.regs, .overflow, .chans, .streams, .flows] s (modStream (stripeNoted s n k x) n (takeStripe s n k x)) :=
    ((Only.refl _ s).step hnoted).step (modStream_only ..)
  rw [completeStripe_eq]
  split
  · obtain ⟨hcount, hc, hf, ho⟩ := countPicture_frame (modStream (stripeNoted s n k x) n (takeStripe s n k x)) n k.unit k.pic.number
    exact ⟨hc.trans hcoding, hf.trans hflight, fun m hm => (ho m hm).trans (hother m hm), honly.step hcount⟩
  · exact ⟨hcoding, hflight, hother, honly⟩

theorem exec_stripeCoded (n : StreamId) (x : CodedStripe) (s : State) : exec (.stripeCoded n x) s = execStripeCoded n x s := rfl

theorem stripeCoded_whole {n : StreamId} {k : Coding} {x : CodedStripe} {s : State} (hk : s.streams[n].coding = some k)
    (hwhole : stripeWhole s n k x = true) : execStripeCoded n x s = .next (completeStripe s n k x) := by
  simp only [execStripeCoded, hk, hwhole, if_true]

theorem stripeCoded_unfinished {n : StreamId} {x : CodedStripe} {s : State}
    (h : ∀ k, s.streams[n].coding = some k → stripeWhole s n k x = false) : execStripeCoded n x s = .next s := by
  unfold execStripeCoded
  split
  · next k hk =>
    rw [h k hk]
    rfl
  · rfl

/-- Settles O6: the whole stripe is completed, any other stays in coding. -/
theorem codedStripeJoinsFlight : Obligations.CodedStripeJoinsFlight := by
  refine ⟨fun n k x s hk hwhole => ?_, fun n x s h => stripeCoded_unfinished h⟩
  obtain ⟨hcoding, hflight, hother, honly⟩ := completeStripe_joins s n k x
  have hbits : unitBits (unitSizes k.lead) + unitBits (x.slices.map List.length) + unitBits (stripeOf s n k x).tail +
      8 * (stripeOf s n k x).filler = (stripeOf s n k x).bits := rfl
  exact ⟨_, stripeOf s n k x, (exec_stripeCoded ..).trans (stripeCoded_whole hk hwhole), hcoding, hflight, rfl, rfl, rfl, hbits.symm,
    rfl, rfl, rfl, hother, honly.eq⟩

end Sys2Proof.Machine
end

section
/-! PROOF. The vectors of a finished picture (04_prediction.md R94, R105): the estimates wait for the second picture after it, and
each tracking rectangle takes its displacement. -/

namespace Sys2Proof.Machine

set_option Elab.async false

/-! ## Estimates (R94) -/

theorem exec_globalVectorEstimate (n : StreamId) (s : State) :
    exec (.globalVectorEstimate n) s = execGlobalVectorEstimate n s := rfl

/-- The picture in question has none, or its estimates wait already. -/
def noEstimates (s : State) (n : StreamId) : Prop :=
  intraOnly s n = true ∨ s.streams[n].search.finishedPicture = 0 ∨
    (s.streams[n].search.pending.any fun p => decide (p.1 = s.streams[n].search.finishedPicture + 2)) = true

/-- The estimates of the finished picture, with the picture that they count from. -/
def estimatesOf (s : State) (n : StreamId) : Nat × Option Mv × Option Mv :=
  (s.streams[n].search.finishedPicture + 2, estimateVectors s.streams[n].search.finished.length
    ((firstRefBlocks s.streams[n].search.finished).map intVector))

theorem globalVectorEstimate_none {n : StreamId} {s : State} (h : noEstimates s n) :
    execGlobalVectorEstimate n s = .next s := if_pos h

theorem globalVectorEstimate_some {n : StreamId} {s : State} (h : ¬ noEstimates s n) :
    execGlobalVectorEstimate n s = .next (modStream s n fun y => { y with
      search := { y.search with pending := y.search.pending ++ [estimatesOf s n] } }) := if_neg h

theorem globalVectorEstimate_completes (n : StreamId) (s : State) :
    ∃ t, exec (.globalVectorEstimate n) s = .next t ∧ t = { s with streams := t.streams } ∧
      (∀ m, m ≠ n → t.streams[m] = s.streams[m]) ∧
      t.streams[n] = { s.streams[n] with search := { s.streams[n].search with pending := t.streams[n].search.pending } } ∧
      (intraOnly s n = false → s.streams[n].search.finishedPicture ≠ 0 →
        (s.streams[n].search.pending.any fun p => decide (p.1 = s.streams[n].search.finishedPicture + 2)) = false →
        t.streams[n].search.pending = s.streams[n].search.pending ++ [estimatesOf s n]) ∧
      (noEstimates s n → t = s) := by
  rw [exec_globalVectorEstimate]
  by_cases h : noEstimates s n
  · refine ⟨s, globalVectorEstimate_none h, rfl, fun _ _ => rfl, rfl, fun hinter hpicture hwaits => ?_, fun _ => rfl⟩
    rcases h with h | h | h
    · exact absurd h (by simp [hinter])
    · exact absurd h hpicture
    · exact absurd (h.symm.trans hwaits) (by decide)
  · refine ⟨_, globalVectorEstimate_some h, rfl, fun m hm => modStream_other _ _ hm, ?_, fun _ _ _ => ?_, fun hnone => absurd hnone h⟩
    · rw [modStream_same]
    · rw [modStream_same]

/-! ## Tracking rectangles (R105) -/

theorem mem_allRects (r : RectId) : r ∈ allRects :=
  List.mem_map.2 ⟨r.val, List.mem_range.2 r.isLt, finOf_val _ r⟩

/-- A rectangle's displacement as the picture's blocks in it give it: null where they are fewer than 4, else with the move that it begins. -/
def Tracked (s : State) (n : StreamId) (c : Chan) (r : RectId) (y : Rect) : Prop :=
  ((blocksIn s n c r s.streams[n].search.finished).length < 4 → y.displacement = ⟨0, 0⟩) ∧
    (4 ≤ (blocksIn s n c r s.streams[n].search.finished).length →
      (s.streams[n].search.finishedPicture + 2, y.displacement) ∈ y.moves)

/-- Channel c's rectangles of t stand where those of s do, and nothing else but rectangles of c differs. -/
structure SamePlaces (s t : State) (c : Chan) : Prop where
  only : Only [.rois] s t
  others : ∀ d, d ≠ c → t.rois.get d = s.rois.get d
  pos : ∀ r, ((t.rois.get c).get r).pos = ((s.rois.get c).get r).pos

theorem SamePlaces.refl (s : State) (c : Chan) : SamePlaces s s c := ⟨.refl .., fun _ _ => rfl, fun _ => rfl⟩

theorem SamePlaces.trans {s t u : State} {c : Chan} (h : SamePlaces s t c) (h' : SamePlaces t u c) : SamePlaces s u c :=
  ⟨h.only.trans h'.only, fun d hd => (h'.others d hd).trans (h.others d hd), fun r => (h'.pos r).trans (h.pos r)⟩

/-- A rectangle's blocks are those at its place. -/
theorem SamePlaces.blocksIn {s t : State} {c : Chan} (h : SamePlaces s t c) (n : StreamId) (r : RectId) (l : List InterBlock) :
    Machine.blocksIn t n c r l = Machine.blocksIn s n c r l := by
  have hsize : codedSize t n = codedSize s n := by
    rw [h.only.eq]
    rfl
  have happlied : applied t (kRect c r 4) = applied s (kRect c r 4) := by
    rw [applied, h.only.part .dict (by decide), applied]
  have hrect : ((t.rois[c]).get r).pos = ((s.rois[c]).get r).pos := h.pos r
  have harea : rectArea t c r n = rectArea s c r n := by simp only [rectArea, hsize, happlied, hrect]
  unfold Machine.blocksIn inRect
  rw [harea]

theorem SamePlaces.search {s t : State} {c : Chan} (h : SamePlaces s t c) (n : StreamId) :
    t.streams[n].search = s.streams[n].search := by
  rw [h.only.part .streams (by decide)]

theorem SamePlaces.tracked {s t : State} {n : StreamId} {c : Chan} {r : RectId} {y : Rect} (h : SamePlaces s t c)
    (hy : Tracked t n c r y) : Tracked s n c r y := by
  simpa only [Tracked, h.blocksIn, h.search] using hy

theorem trackRect_rois (s : State) (n : StreamId) (c : Chan) (r : RectId) :
    ∃ f : Rect → Rect, (trackRect s n c r).rois = (vmod s.rois c fun v => vmod v r f) ∧
      ∀ y, (f y).pos = y.pos ∧ Tracked s n c r (f y) := by
  refine ⟨_, rfl, fun y => ?_⟩
  split
  · next hfew => exact ⟨rfl, fun _ => rfl, fun hmany => absurd hfew (Nat.not_lt.2 hmany)⟩
  · next hmany => exact ⟨rfl, fun hfew => absurd hfew hmany, fun _ => List.mem_append_right _ (List.mem_singleton_self _)⟩

theorem trackRect_tracks (s : State) (n : StreamId) (c : Chan) (r : RectId) :
    SamePlaces s (trackRect s n c r) c ∧ Tracked s n c r (((trackRect s n c r).rois.get c).get r) ∧
      ∀ q, q ≠ r → ((trackRect s n c r).rois.get c).get q = (s.rois.get c).get q := by
  obtain ⟨f, hrois, hf⟩ := trackRect_rois s n c r
  have hother : ∀ q, q ≠ r → ((trackRect s n c r).rois.get c).get q = (s.rois.get c).get q := fun q hq => by
    rw [hrois, vmod_get_same, vmod_get_other _ _ _ _ hq]
  have hself : ((trackRect s n c r).rois.get c).get r = f ((s.rois.get c).get r) := by
    rw [hrois, vmod_get_same, vmod_get_same]
  refine ⟨⟨.of_eq rfl, fun d hd => ?_, fun q => ?_⟩, ?_, hother⟩
  · rw [hrois, vmod_get_other _ _ _ _ hd]
  · by_cases hq : q = r
    · rw [hq, hself, (hf _).1]
    · rw [hother q hq]
  · rw [hself]
    exact (hf _).2

/-- Every rectangle of the list is tracked as its own blocks ask for, one after the other. -/
theorem forEach_trackRect (n : StreamId) (c : Chan) (l : List RectId) (s : State) :
    SamePlaces s (forEach l (fun x r => trackRect x n c r) s) c ∧
      (∀ r ∈ l, Tracked s n c r (((forEach l (fun x r => trackRect x n c r) s).rois.get c).get r)) ∧
      ∀ r, r ∉ l → ((forEach l (fun x r => trackRect x n c r) s).rois.get c).get r = (s.rois.get c).get r := by
  induction l generalizing s with
  | nil => exact ⟨.refl s c, fun _ hr => absurd hr List.not_mem_nil, fun _ _ => rfl⟩
  | cons q l ih =>
    obtain ⟨hplaces, hq, hother⟩ := trackRect_tracks s n c q
    obtain ⟨hplaces', htracked, hrest⟩ := ih (trackRect s n c q)
    refine ⟨hplaces.trans hplaces', fun r hr => ?_, fun r hr => ?_⟩
    · by_cases hl : r ∈ l
      · exact hplaces.tracked (htracked r hl)
      · obtain rfl : r = q := (List.mem_cons.1 hr).resolve_right hl
        exact (hrest r hl).symm ▸ hq
    · exact (hrest r fun hl => hr (List.mem_cons_of_mem _ hl)).trans (hother r fun heq => hr (heq ▸ List.mem_cons_self))

theorem exec_roiTrackUpdate (n : StreamId) (s : State) : exec (.roiTrackUpdate n) s = execRoiTrackUpdate n s := rfl

/-- The rectangles of stream n that track. -/
def trackingRects (s : State) (n : StreamId) : List RectId :=
  allRects.filter fun r => decide (applied s (kRect (leadChan s n) r 1) = 1 ∧ applied s (kRect (leadChan s n) r 7) = 1) &&
    decide (rectStream s (leadChan s n) r = some n)

theorem roiTrackUpdate_none {n : StreamId} {s : State} (h : intraOnly s n = true ∨ s.streams[n].search.finishedPicture = 0) :
    execRoiTrackUpdate n s = .next s := if_pos h

theorem roiTrackUpdate_some {n : StreamId} {s : State} (h : ¬ (intraOnly s n = true ∨ s.streams[n].search.finishedPicture = 0)) :
    execRoiTrackUpdate n s = .next (forEach (trackingRects s n) (fun x r => trackRect x n (leadChan s n) r) s) := if_neg h

theorem roiTrackUpdate_completes (n : StreamId) (s : State) :
    ∃ t, exec (.roiTrackUpdate n) s = .next t ∧ t = { s with rois := t.rois } ∧
      (∀ c, c ≠ leadChan s n → t.rois.get c = s.rois.get c) ∧
      (∀ r, ((t.rois.get (leadChan s n)).get r).pos = ((s.rois.get (leadChan s n)).get r).pos) ∧
      (∀ r, intraOnly s n = false → s.streams[n].search.finishedPicture ≠ 0 →
        applied s (kRect (leadChan s n) r 1) = 1 → applied s (kRect (leadChan s n) r 7) = 1 → rectStream s (leadChan s n) r = some n →
        Tracked s n (leadChan s n) r ((t.rois.get (leadChan s n)).get r)) ∧
      (intraOnly s n = true ∨ s.streams[n].search.finishedPicture = 0 → t = s) := by
  rw [exec_roiTrackUpdate]
  by_cases h : intraOnly s n = true ∨ s.streams[n].search.finishedPicture = 0
  · refine ⟨s, roiTrackUpdate_none h, rfl, fun _ _ => rfl, fun _ => rfl, fun r hinter hpicture _ _ _ => ?_, fun _ => rfl⟩
    rcases h with h | h
    · exact absurd (h.symm.trans hinter) (by decide)
    · exact absurd h hpicture
  · obtain ⟨hplaces, htracked, -⟩ := forEach_trackRect n (leadChan s n) (trackingRects s n) s
    refine ⟨_, roiTrackUpdate_some h, hplaces.only.eq, hplaces.others, hplaces.pos, fun r _ _ hon htracks hstream => ?_,
      fun hnone => absurd hnone h⟩
    exact htracked r (List.mem_filter.2 ⟨mem_allRects r, by simp [hon, htracks, hstream]⟩)

/-- Settles O8: the estimates by their picture, the rectangles one after the other. -/
theorem vectorsOfFinishedPicture : Obligations.VectorsOfFinishedPicture :=
  ⟨globalVectorEstimate_completes, roiTrackUpdate_completes⟩

end Sys2Proof.Machine
end

section
/-! PROOF. What the endpoint's datagrams, PTP's choice of a master and the map's report leave of State (08_network.md R193, R194;
10_time.md R250, R254; 04_prediction.md R101). -/

namespace Sys2Proof.Machine

set_option Elab.async false

/-! ## The endpoint -/

theorem OnlyEndpoint.toOnly {s t : State} (h : OnlyEndpoint s t) : Only [.regs, .ports, .flows, .counts] s t := by
  obtain ⟨_, _, _, _, rfl⟩ := h
  exact .of_eq rfl

theorem enqueue_only (s : State) (f : FlowId) (l : List Packet) : Only [.flows] s (enqueue s f l) :=
  .ite (fun _ => .of_eq rfl) fun _ => .of_eq rfl

theorem refuseFlow_only (s : State) (f : FlowId) : Only [.regs, .flows, .counts] s (refuseFlow s f) := .of_eq rfl

theorem endpointSend_only (s : State) (p : PortId) (kind : PacketKind) (dest : PacketDest) (frame : Nat) (payload : Payload) :
    Only [.regs, .ports, .flows, .counts] s (endpointSend s p kind dest frame payload) :=
  (onlyEndpoint_offerDatagram ..).toOnly

theorem sendReport_only (s : State) (p : PortId) (groups : List Nat) :
    Only [.regs, .ports, .flows, .counts] s (sendReport s p groups) :=
  .ite (fun _ => .refl ..) fun _ => endpointSend_only ..

theorem announcePort_only (s : State) (p : PortId) : Only [.regs, .ports, .flows, .counts] s (announcePort s p) :=
  .ite (fun _ => (endpointSend_only ..).step (sendReport_only ..)) fun _ => .refl ..

theorem announceJoins_only (old t : State) : Only [.regs, .ports, .flows, .counts] t (announceJoins old t) :=
  forEach_only (fun _ _ => sendReport_only ..) _ t

theorem linkDown_only (s : State) (p : PortId) : Only [.regs, .ports, .counts] s (linkDown s p) := .of_eq rfl

/-! ## PTP's choice of a master -/

theorem settleTraceable_only (s : State) : Only [.regs] s (settleTraceable s) := putFlag_only ..

theorem enterHoldover_only (s : State) : Only [.regs, .time] s (enterHoldover s) := .ite (fun _ => .refl ..) fun _ => .of_eq rfl

theorem dropMaster_only (s : State) : Only [.regs, .time] s (dropMaster s) := by
  have hnone : Only [.regs, .time] s { s with time := { s.time with selected := none } } := .of_eq rfl
  exact .ite (fun _ => hnone.step (enterHoldover_only _)) fun _ => hnone

theorem takeMaster_only (s : State) (p : PortId) (a : PtpAnnounce) : Only [.regs, .time] s (takeMaster s p a) := by
  refine Only.step ?_ (settleTraceable_only _)
  refine Only.step ?_ (regPut_only ..)
  exact .ite (fun _ => .of_eq rfl) fun _ => .of_eq rfl

theorem reselect_only (s : State) : Only [.regs, .time] s (reselect s) := by
  have hbest : Only [.regs, .time] s (match bestPort s allPorts with
      | some x => takeMaster s x.1 x.2.announce
      | none => dropMaster s) := by
    split
    · exact takeMaster_only ..
    · exact dropMaster_only s
  unfold reselect
  dsimp only
  split
  · exact hbest
  · split
    · exact hbest
    · split
      · exact takeMaster_only ..
      · exact takeMaster_only ..

theorem settlePtp_only (s : State) : Only [.regs, .time] s (settlePtp s) := by
  refine .ite (fun _ => ?_) fun _ => ?_
  · refine Only.step (l' := [.regs]) ?_ (settleTraceable_only _)
    exact .of_eq rfl
  · have hports : Only [.regs, .time] s { s with time := { s.time with
        masters := s.time.masters.mapFinIdx fun i m hi => if ptpOn s ⟨i, hi⟩ then m else ⟨[], 0⟩ } } := .of_eq rfl
    exact .ite (fun _ => hports.step (reselect_only _)) fun _ => hports

theorem settleDomain_only (s : State) : Only [.regs, .time] s (settleDomain s) := by
  refine Only.step (t := { s with time := { s.time with masters := .replicate 4 ⟨[], 0⟩, sync := none, request := none } }) ?_
    (reselect_only _)
  exact .of_eq rfl

/-! ## The map's report -/

theorem reportMap_only (s : State) (n : StreamId) : Only [.regs] s (reportMap s n) :=
  forEach_only (fun t c => ((regPut_only ..).step (regPut_only ..)).step (regPut_only ..)) _ s

theorem modMap_only (s : State) (n : StreamId) (f : MapState → MapState) : Only [.streams] s (modMap s n f) := .of_eq rfl

theorem settleMapSize_only (s : State) (n : StreamId) : Only [.regs, .streams] s (settleMapSize s n) := by
  refine Only.step ?_ (reportMap_only ..)
  exact (Only.refl _ s).step (modMap_only ..)

end Sys2Proof.Machine
end

section
/-! PROOF. Object writes (17_dictionary.md R403 to R405, R425; 02_lap.md R51): each refusal's abort, and what a plain value's write
stores or counts. -/

namespace Sys2Proof.Machine

set_option Elab.async false

/-! ## Refused writes (R403, R425) -/

theorem objectWrite_of_abort {k : Client} {i sub : Nat} {data : List Byte} {s : State} {a : Abort} (h : Served s k i)
    (hwrite : writeObject k i sub data (touchClient s k) = (touchClient s k, .abort a)) :
    exec (.objectWrite k i sub data) s = .next (answer (touchClient s k) k (.abort a)) := by
  rw [exec_objectWrite, serveEnd_abort h hwrite]

theorem writeObject_noObject {k : Client} {i sub : Nat} {data : List Byte} {s : State} (h : rowsOf i = []) :
    writeObject k i sub data s = (s, .abort .noObject) := by
  simp [writeObject, h]

theorem writeObject_noSub {k : Client} {i sub : Nat} {data : List Byte} {s : State} (h : rowsOf i ≠ []) (hrow : rowOf i sub = none) :
    writeObject k i sub data s = (s, .abort .noSub) := by
  simp [writeObject, h, hrow]

theorem writeObject_readOnly {k : Client} {i sub : Nat} {data : List Byte} {s : State} {r : ObjRow} (h : rowsOf i ≠ [])
    (hrow : rowOf i sub = some r) (hacc : r.acc = .ro) (hi : i < 0x5800 ∨ 0x5810 ≤ i) :
    writeObject k i sub data s = (s, .abort .readOnly) := by
  have haccess : writeAccess i sub r = some .readOnly := by
    simp only [writeAccess, hacc]
    rw [if_neg (by omega)]
  simp [writeObject, h, hrow, haccess]

theorem writeValue_length {k : Client} {i sub : Nat} {r : ObjRow} {data : List Byte} {s : State} (hlen : data.length ≠ r.ty.bytes) :
    writeValue k i sub r data s = (s, .abort .lengthMismatch) := if_pos hlen

theorem writeValue_range {k : Client} {i sub : Nat} {r : ObjRow} {data : List Byte} {s : State} (hlen : data.length = r.ty.bytes)
    (hrng : r.rng.holds r.ty.bits (leNat data) = false) : writeValue k i sub r data s = (s, .abort .outOfRange) := by
  simp [writeValue, hlen, hrng]

/-- Settles O9: each refusal is a first branch of the write. -/
theorem refusedWritesChangeNothing : Obligations.RefusedWritesChangeNothing := by
  intro k i sub data s h
  refine ⟨fun hnone => objectWrite_of_abort h (writeObject_noObject hnone),
    fun hsome hrow => objectWrite_of_abort h (writeObject_noSub hsome hrow), fun r hsome hrow => ⟨fun hacc hi => ?_,
      fun hacc hbulk hlen => ?_, fun hacc hbulk hlen hrng => ?_⟩⟩
  · exact objectWrite_of_abort h (writeObject_readOnly hsome hrow hacc hi)
  · exact objectWrite_of_abort h ((writeObject_eq_writeValue hrow hacc hbulk).trans (writeValue_length hlen))
  · exact objectWrite_of_abort h ((writeObject_eq_writeValue hrow hacc hbulk).trans (writeValue_range hlen hrng))

/-! ## Plain writes (R51, R404, R405) -/

/-- The parts that a plain value's settling may change. -/
def settledParts : List StatePart := [.regs, .streams, .ports, .flows, .meters, .counts, .time, .can]

theorem settleWrite_only (s : State) (i sub : Nat) : Only settledParts s (settleWrite s i sub) := by
  have hself : Only settledParts s s := .refl ..
  refine .ite (fun _ => hself.step (settlePtp_only s)) fun _ => .ite (fun _ => hself.step (settleDomain_only s)) fun _ =>
    .ite (fun _ => .of_eq rfl) fun _ => .ite (fun _ => hself.step (announcePort_only ..)) fun _ =>
    .ite (fun _ => ?_) fun _ => .ite (fun _ => hself.step (settleMapSize_only ..)) fun _ =>
    .ite (fun _ => ?_) fun _ => .ite (fun _ => .of_eq rfl) fun _ => hself
  · exact .ite (fun _ => hself.step (linkDown_only ..)) fun _ => hself
  · exact hself.step (forEach_only (fun _ _ => settleMapSize_only ..) _ s)

theorem storeSettled_only (s : State) (i sub v : Nat) :
    Only settledParts (storeValue s (key i sub) v) (storeSettled s i sub v) := by
  have hsettled := settleWrite_only (storeValue s (key i sub) v) i sub
  exact .ite (fun _ => hsettled.step (announceJoins_only ..)) fun _ => hsettled

theorem written_storeValue_same {s : State} (k v : Nat) (hwf : assocWf defaultOf s.dict.master = true) :
    written (storeValue s k v) k = v := assocGet_put_same _ _ _ _ hwf

theorem written_storeValue_other (s : State) {j k : Nat} (v : Nat) (h : j ≠ k) : written (storeValue s k v) j = written s j :=
  assocGet_put_other _ _ _ _ _ h

/-- A write that nothing refuses and that commands nothing is a plain value's. -/
theorem objectWrite_plain {k : Client} {i sub : Nat} {data : List Byte} {r : ObjRow} {s : State} {t : State} {e : WriteEnd}
    (h : Served s k i) (hrow : rowOf i sub = some r) (hacc : r.acc ≠ .ro) (hbulk : isBulk i sub r = false)
    (hlen : data.length = r.ty.bytes) (hbits : leNat data < 2 ^ r.ty.bits) (hrng : r.rng.holds r.ty.bits (leNat data) = true)
    (hok : valueRefused (touchClient s k) k i sub (leNat data) = none)
    (hplain : commandWrite k i sub (leNat data) data (touchClient s k) = none)
    (hstore : storePlain k i sub (leNat data) r (touchClient s k) = (t, e)) :
    exec (.objectWrite k i sub data) s = .next (endWrite t k e) := by
  obtain ⟨hserves, hgate⟩ := h
  have hvalue : writeValue k i sub r data (touchClient s k) = (t, e) := by
    simp [writeValue, hlen, Nat.not_le.2 hbits, hrng, hok, hplain, hstore]
  rw [exec_objectWrite, serveEnd, if_pos hserves, hgate, writeObject_eq_writeValue hrow hacc hbulk, hvalue]

theorem rwlBusy_touchClient (s : State) (k : Client) (i sub : Nat) : rwlBusy (touchClient s k) i sub = rwlBusy s i sub := by
  have hmask : ∀ m, maskBusy (touchClient s k) m = maskBusy s m := fun _ => rfl
  have hwritten : ∀ n, writtenMask (touchClient s k) n = writtenMask s n := fun _ => rfl
  have hflow : ∀ f, flowBusy (touchClient s k) f sub = flowBusy s f sub := fun _ => rfl
  have hany : anyChannelBusy (touchClient s k) = anyChannelBusy s := rfl
  simp only [rwlBusy, hmask, hwritten, hflow, hany]

theorem storePlain_stored {k : Client} {i sub v : Nat} {r : ObjRow} {s : State} (hclear : r.clear = 0)
    (h : r.acc = .rw ∨ (r.acc = .rwl ∧ rwlBusy s i sub = false)) :
    storePlain k i sub v r s = (storeSettled s i sub v, .ack) := by
  rcases h with hacc | ⟨hacc, hbusy⟩
  · simp [storePlain, hclear, hacc]
  · simp [storePlain, hclear, hacc, hbusy]

theorem storePlain_busy {k : Client} {i sub v : Nat} {r : ObjRow} {s : State} (hclear : r.clear = 0) (hacc : r.acc = .rwl)
    (hbusy : rwlBusy s i sub = true) : storePlain k i sub v r s = (s, .abort .presentState) := by
  simp [storePlain, hclear, hacc, hbusy]

theorem storePlain_counted {k : Client} {i sub v : Nat} {r : ObjRow} {s : State} (hclear : r.clear = 0) (hacc : r.acc = .rws)
    (hgroup : s.dict.group = none) : storePlain k i sub v r s = (countWrite s (key i sub) v false, .ack) := by
  simp [storePlain, hclear, hacc, liftWrite, shadowWrite, groupOf, hgroup]

/-- Settles O11: what each access type makes of the value. -/
theorem plainWritesAreStoredOrCounted : Obligations.PlainWritesAreStoredOrCounted := by
  intro k i sub data r s h _ hrow hbulk hlen hbits hrng hok hplain hclear
  have hexec : r.acc ≠ .ro → ∀ {t e}, storePlain k i sub (leNat data) r (touchClient s k) = (t, e) →
      exec (.objectWrite k i sub data) s = .next (endWrite t k e) :=
    fun hacc _ _ hstore => objectWrite_plain h hrow hacc hbulk hlen hbits hrng hok hplain hstore
  refine ⟨fun hacc => ?_, fun hacc hbusy => ?_, fun hacc hgroup => ?_⟩
  · have hsettled := storeSettled_only (touchClient s k) i sub (leNat data)
    have hdict : (storeSettled (touchClient s k) i sub (leNat data)).dict = (storeValue (touchClient s k) (key i sub) (leNat data)).dict :=
      hsettled.part .dict (by decide)
    have hchans : (storeSettled (touchClient s k) i sub (leNat data)).chans = s.chans := hsettled.part .chans (by decide)
    have hne : r.acc ≠ .ro := by
      rcases hacc with hacc | ⟨hacc, -⟩ <;> simp [hacc]
    have hack : exec (.objectWrite k i sub data) s =
        .next (answer (storeSettled (touchClient s k) i sub (leNat data)) k .ack) := hexec hne (storePlain_stored hclear (hacc.imp_right fun ⟨hrwl, hfree⟩ => ⟨hrwl, (rwlBusy_touchClient ..).trans hfree⟩))
    refine ⟨_, hack, answered_answer .., fun hwf => ?_, fun j hj => ?_, ?_, ?_, ?_, hchans⟩
    · exact (congrArg (fun d : DictState => assocGet defaultOf d.master (key i sub)) hdict).trans (written_storeValue_same _ _ hwf)
    · exact (congrArg (fun d : DictState => assocGet defaultOf d.master j) hdict).trans (written_storeValue_other _ _ hj)
    · exact (congrArg DictState.inUse hdict).trans rfl
    · exact (congrArg DictState.counted hdict).trans rfl
    · exact (congrArg DictState.applied hdict).trans rfl
  · exact hexec (by simp [hacc]) (storePlain_busy hclear hacc ((rwlBusy_touchClient ..).trans hbusy))
  · refine ⟨_, hexec (by simp [hacc]) (storePlain_counted hclear hacc hgroup), answered_answer .., rfl, fun hwf => ?_, rfl, rfl⟩
    exact written_storeValue_same (s := touchClient s k) _ _ hwf

end Sys2Proof.Machine
end

section
/-! PROOF. The register words of an event (14_integrity.md R348, R353, R354; 17_dictionary.md R409): an EMCY, a note or a count
leaves every other word, and clears no flag. -/

namespace Sys2Proof.Machine

set_option Elab.async false

/-! ## Words left alone -/

namespace RegsExcept

variable {s t u : State} {l l' : List Nat}

theorem refl (s : State) (l : List Nat) : RegsExcept s s l := fun _ _ => rfl

theorem trans (h : RegsExcept s t l) (h' : RegsExcept t u l) : RegsExcept s u l :=
  fun k hk => (h' k hk).trans (h k hk)

theorem mono (h : RegsExcept s t l) (hl : ∀ k ∈ l, k ∈ l') : RegsExcept s t l' := fun k hk => h k fun hmem => hk (hl k hmem)

theorem of_regs (h : t.regs = s.regs) (l : List Nat) : RegsExcept s t l := fun k _ => congrArg (assocGet defaultOf · k) h

theorem step (h : RegsExcept s t l) (h' : RegsExcept t u l') (hl : (l'.all fun k => l.contains k) = true := by decide) :
    RegsExcept s u l :=
  h.trans (h'.mono fun k hk => by simpa using List.all_eq_true.1 hl k hk)

theorem emcy (h : RegsExcept s t l) (e : EmcyState) : RegsExcept s { t with emcy := e } l := h

theorem flag (h : RegsExcept s t l) (k b : Nat) (hk : k ∉ l := by decide) : flag t k b = flag s k b :=
  congrArg (Nat.testBit · b) (h k hk)

end RegsExcept

theorem regPut_except (s : State) (k v : Nat) : RegsExcept s (regPut s k v) [k] :=
  fun _ hj => regGet_regPut_other _ _ _ _ (List.ne_of_not_mem_cons hj)

theorem setFlag_except (s : State) (k b : Nat) : RegsExcept s (setFlag s k b) [k] := regPut_except s k _

theorem overflowEnter_except (s : State) (k part : Nat) : RegsExcept s (overflowEnter s k part) [kIntegrity] := by
  unfold overflowEnter
  split
  · exact .of_regs rfl _
  · exact setFlag_except s _ _

theorem bumpBy_except (s : State) (k n : Nat) : RegsExcept s (bumpBy s k n) [k, kIntegrity] := by
  have hput : ∀ v, RegsExcept s (regPut s k v) [k, kIntegrity] := fun v => (regPut_except s k v).mono (by simp)
  unfold bumpBy
  dsimp only
  split
  · exact hput _
  · split
    · exact hput _
    · split
      · exact (hput _).trans ((overflowEnter_except _ k 0).mono (by simp))
      · exact .refl s _

theorem bump_except (s : State) (k : Nat) : RegsExcept s (bump s k) [k, kIntegrity] := bumpBy_except s k 1

theorem logPush_except (s : State) (r : LogRecord) : RegsExcept s (logPush s r) eventKeys := by
  have hbump : RegsExcept s (if decide (1024 ≤ s.log.records.length) then bump s (key 0x5082 2) else s) eventKeys := by
    split
    · exact (RegsExcept.refl s _).step (bump_except s (key 0x5082 2))
    · exact .refl s _
  exact hbump.trans (.of_regs rfl _)

theorem emcyEnqueue_except (s : State) (e : Emcy) : RegsExcept s (emcyEnqueue s e) eventKeys := by
  have hflag : RegsExcept s (setFlag s (key 0x2002 8) 29) eventKeys := (RegsExcept.refl s _).step (setFlag_except s (key 0x2002 8) 29)
  unfold emcyEnqueue
  dsimp only
  split
  · exact .of_regs rfl _
  · split
    · exact hflag
    · exact RegsExcept.trans (RegsExcept.emcy hflag _) (logPush_except _ _)

theorem emcyPost_except (s : State) (code level unit detail : Nat) : RegsExcept s (emcyPost s code level unit detail) eventKeys := by
  exact RegsExcept.trans (RegsExcept.emcy (logPush_except s _) _) (emcyEnqueue_except _ _)

theorem raiseEmcyWith_except (s : State) (code level unit detail : Nat) :
    RegsExcept s (raiseEmcyWith s code level unit detail) eventKeys := by
  unfold raiseEmcyWith
  dsimp only
  split
  · exact .of_regs rfl _
  · exact emcyPost_except s _ _ _ _

theorem raiseEmcy_except (s : State) (code k inst : Nat) : RegsExcept s (raiseEmcy s code k inst) eventKeys :=
  raiseEmcyWith_except s _ _ _ _

theorem raiseEmcyOf_except (s : State) (u : UnitId) (code k inst : Nat) : RegsExcept s (raiseEmcyOf s u code k inst) eventKeys :=
  raiseEmcyWith_except s _ _ _ _

/-! ## Flags that stay raised -/

/-- The words stay in canonical form, and a raised flag of a word other than the listed ones, inside its word, stays raised. -/
structure FlagsStay (l : List Nat) (s t : State) : Prop where
  wf : assocWf defaultOf s.regs = true → assocWf defaultOf t.regs = true
  stay : assocWf defaultOf s.regs = true → ∀ k b, k ∉ l → b < widthOf k → flag s k b = true → flag t k b = true

namespace FlagsStay

variable {s t u : State} {l l' : List Nat}

theorem refl (l : List Nat) (s : State) : FlagsStay l s s := ⟨id, fun _ _ _ _ _ h => h⟩

theorem trans (h : FlagsStay l s t) (h' : FlagsStay l t u) : FlagsStay l s u :=
  ⟨fun hwf => h'.wf (h.wf hwf), fun hwf k b hk hb hflag => h'.stay (h.wf hwf) k b hk hb (h.stay hwf k b hk hb hflag)⟩

theorem mono (h : FlagsStay l s t) (hl : ∀ k ∈ l, k ∈ l') : FlagsStay l' s t :=
  ⟨h.wf, fun hwf k b hk => h.stay hwf k b fun hmem => hk (hl k hmem)⟩

theorem step (h : FlagsStay l s t) (h' : FlagsStay l' t u) (hl : (l'.all fun k => l.contains k) = true := by decide) :
    FlagsStay l s u :=
  h.trans (h'.mono fun k hk => by simpa using List.all_eq_true.1 hl k hk)

theorem emcy (h : FlagsStay l s t) (e : EmcyState) : FlagsStay l s { t with emcy := e } := ⟨h.wf, h.stay⟩

theorem of_regs (l : List Nat) (h : t.regs = s.regs) : FlagsStay l s t :=
  ⟨fun hwf => h ▸ hwf, fun _ k b _ _ hflag => by rwa [flag, regGet, h]⟩

end FlagsStay

theorem regPut_flagsStay (s : State) (k v : Nat) : FlagsStay [k] s (regPut s k v) :=
  ⟨regPut_wf s k v, fun _ j b hj _ hflag => ((regPut_except s k v).flag j b hj).trans hflag⟩

/-- Raising a flag lowers none. -/
theorem setFlag_flagsStay (s : State) (k b : Nat) : FlagsStay [] s (setFlag s k b) := by
  refine ⟨regPut_wf s k _, fun hwf j c _ hc hflag => ?_⟩
  by_cases hj : j = k
  · subst hj
    simp [flag_setFlag s j b c hwf, hflag, hc]
  · exact ((setFlag_except s k b).flag j c (by simpa using hj)).trans hflag

theorem flag_setFlag_same {s : State} {k b : Nat} (hwf : assocWf defaultOf s.regs = true) (hb : b < widthOf k) :
    flag (setFlag s k b) k b = true := by
  simp [flag_setFlag s k b b hwf, hb]

theorem overflowEnter_flagsStay (s : State) (k part : Nat) : FlagsStay [] s (overflowEnter s k part) := by
  unfold overflowEnter
  split
  · exact .of_regs _ rfl
  · exact setFlag_flagsStay ..

theorem bumpBy_flagsStay (s : State) (k n : Nat) : FlagsStay [k] s (bumpBy s k n) := by
  unfold bumpBy
  dsimp only
  split
  · exact regPut_flagsStay ..
  · split
    · exact regPut_flagsStay ..
    · split
      · exact (regPut_flagsStay ..).trans ((overflowEnter_flagsStay ..).mono (by simp))
      · exact .refl ..

theorem bump_flagsStay (s : State) (k : Nat) : FlagsStay [k] s (bump s k) := bumpBy_flagsStay ..

/-- The words that an event counts in: the records lost (0x5082:02). -/
def lostKeys : List Nat := [key 0x5082 2]

theorem logPush_flagsStay (s : State) (r : LogRecord) : FlagsStay lostKeys s (logPush s r) := by
  have hbump : FlagsStay lostKeys s (if decide (1024 ≤ s.log.records.length) then bump s (key 0x5082 2) else s) := by
    split
    · exact bump_flagsStay ..
    · exact .refl ..
  exact hbump.trans (.of_regs _ rfl)

theorem emcyEnqueue_flagsStay (s : State) (e : Emcy) : FlagsStay lostKeys s (emcyEnqueue s e) := by
  have hflag : FlagsStay lostKeys s (setFlag s (key 0x2002 8) 29) := (setFlag_flagsStay ..).mono (by simp)
  unfold emcyEnqueue
  dsimp only
  split
  · exact .of_regs _ rfl
  · split
    · exact hflag
    · exact FlagsStay.trans (hflag.emcy _) (logPush_flagsStay ..)

theorem emcyPost_flagsStay (s : State) (code level unit detail : Nat) : FlagsStay lostKeys s (emcyPost s code level unit detail) := by
  exact FlagsStay.trans (FlagsStay.emcy (logPush_flagsStay s _) _) (emcyEnqueue_flagsStay ..)

theorem raiseEmcyWith_flagsStay (s : State) (code level unit detail : Nat) :
    FlagsStay lostKeys s (raiseEmcyWith s code level unit detail) := by
  unfold raiseEmcyWith
  dsimp only
  split
  · exact .of_regs _ rfl
  · exact emcyPost_flagsStay ..

theorem raiseEmcy_flagsStay (s : State) (code k inst : Nat) : FlagsStay lostKeys s (raiseEmcy s code k inst) :=
  raiseEmcyWith_flagsStay ..

theorem raiseEmcyOf_flagsStay (s : State) (u : UnitId) (code k inst : Nat) : FlagsStay lostKeys s (raiseEmcyOf s u code k inst) :=
  raiseEmcyWith_flagsStay ..

/-- A status flag raised with its EMCY reads as raised. -/
theorem flag_raiseEmcy_setFlag {s : State} {k b : Nat} (code k' inst : Nat) (hwf : assocWf defaultOf s.regs = true)
    (hk : k ∉ lostKeys := by decide) (hb : b < widthOf k := by decide) :
    flag (raiseEmcy (setFlag s k b) code k' inst) k b = true :=
  (raiseEmcy_flagsStay ..).stay (regPut_wf s k _ hwf) k b hk hb (flag_setFlag_same hwf hb)

end Sys2Proof.Machine
end

section
/-! PROOF. Commit groups (02_lap.md R53, R54): opened, committed, abandoned, refused, timed out. -/

namespace Sys2Proof.Machine

set_option Elab.async false

theorem exec_groupOpen (k : Client) (s : State) : exec (.groupOpen k) s = .next (serveWrite s k 0x2500 (doGroupOpen k)) := rfl

theorem exec_groupCommit (k : Client) (s : State) : exec (.groupCommit k) s = .next (serveWrite s k 0x2500 (doGroupCommit k)) := rfl

theorem exec_groupAbandon (k : Client) (s : State) : exec (.groupAbandon k) s = .next (serveWrite s k 0x2500 (doGroupAbandon k)) := rfl

theorem exec_groupTimeout (s : State) : exec .groupTimeout s = execGroupTimeout s := rfl

theorem doGroupOpen_closed {k : Client} {s : State} (h : s.dict.group = none) :
    doGroupOpen k s = .ok { s with dict := { s.dict with group := some ⟨k, s.now, []⟩ } } := by
  simp [doGroupOpen, h]

theorem doGroupOpen_open {k : Client} {s : State} (h : s.dict.group.isSome = true) : doGroupOpen k s = .error .presentState := by
  obtain ⟨g, hg⟩ := Option.isSome_iff_exists.1 h
  simp [doGroupOpen, hg]

theorem groupOf_own {k : Client} {g : Group} {s : State} (h : s.dict.group = some g) (howner : g.owner = k) :
    groupOf s k = some g := by
  simp [groupOf, h, howner]

theorem groupOf_other {k : Client} {g : Group} {s : State} (h : s.dict.group = some g) (howner : g.owner ≠ k) :
    groupOf s k = none := by
  simp [groupOf, h, howner]

/-- A group's writes, counted in their order. -/
def countAll (s : State) (l : List (Nat × Nat)) : State :=
  forEach l (fun x w => countWrite x w.1 w.2 (isPerPicture w.1)) s

/-- Committed writes count from now, each after the one before; no value is applied and no group opened (R53). -/
theorem countAll_counts (l : List (Nat × Nat)) (s : State) :
    (countAll s l).dict.counted = s.dict.counted ++ l.map (fun w => ⟨w.1, w.2, s.now, isPerPicture w.1⟩) ∧
      (countAll s l).dict.group = s.dict.group ∧ (countAll s l).dict.applied = s.dict.applied ∧ Only [.dict] s (countAll s l) := by
  unfold countAll forEach
  induction l generalizing s with
  | nil => exact ⟨(List.append_nil _).symm, rfl, rfl, .refl ..⟩
  | cons w l ih =>
    obtain ⟨hcounted, hgroup, happlied, honly⟩ := ih (countWrite s w.1 w.2 (isPerPicture w.1))
    have hwrite : Only [.dict] s (countWrite s w.1 w.2 (isPerPicture w.1)) := .of_eq rfl
    refine ⟨?_, hgroup, happlied, hwrite.trans honly⟩
    rw [List.foldl_cons, hcounted]
    simp only [List.map_cons]
    exact List.append_assoc _ [_] _

theorem doGroupCommit_own {k : Client} {g : Group} {s : State} (h : s.dict.group = some g) (howner : g.owner = k) :
    doGroupCommit k s = .ok (countAll { s with dict := { s.dict with group := none } } g.writes) := by
  simp only [doGroupCommit, groupOf_own h howner]
  rfl

theorem doGroupAbandon_own {k : Client} {g : Group} {s : State} (h : s.dict.group = some g) (howner : g.owner = k) :
    doGroupAbandon k s = .ok { s with dict := { s.dict with group := none } } := by
  simp only [doGroupAbandon, groupOf_own h howner]

theorem doGroupCommit_other {k : Client} {g : Group} {s : State} (h : s.dict.group = some g) (howner : g.owner ≠ k) :
    doGroupCommit k s = .error .presentState := by
  simp only [doGroupCommit, groupOf_other h howner]

theorem doGroupAbandon_other {k : Client} {g : Group} {s : State} (h : s.dict.group = some g) (howner : g.owner ≠ k) :
    doGroupAbandon k s = .error .presentState := by
  simp only [doGroupAbandon, groupOf_other h howner]

/-- R53: a commit by its owner. -/
theorem groupCommit_counts {k : Client} {g : Group} {s : State} (hserved : Served s k 0x2500) (h : s.dict.group = some g)
    (howner : g.owner = k) :
    ∃ t, exec (.groupCommit k) s = .next t ∧ answered t k = some .ack ∧ t.dict.group = none ∧
      t.dict.counted = s.dict.counted ++ g.writes.map (fun w => ⟨w.1, w.2, s.now, isPerPicture w.1⟩) ∧
      t.dict.applied = s.dict.applied ∧ t = { s with dict := t.dict, clients := t.clients, maint := t.maint } := by
  have hcommit := doGroupCommit_own (s := touchClient s k) h howner
  obtain ⟨hcounted, hgroup, happlied, honly⟩ :=
    countAll_counts g.writes { touchClient s k with dict := { s.dict with group := none } }
  have hopen : Only [.dict, .clients, .maint] s { touchClient s k with dict := { s.dict with group := none } } := .of_eq rfl
  exact ⟨_, exec_acknowledged (exec_groupCommit k s) hserved hcommit, answered_answer .., hgroup, hcounted, happlied,
    ((hopen.step honly).step (answer_only ..)).eq⟩

/-- R54: a group not committed in time is abandoned with its note and EMCY. -/
theorem groupTimeout_abandons {g : Group} {s : State} (h : s.dict.group = some g) (hlate : g.openedAt + 10 * cyclesPerSec ≤ s.now) :
    ∃ t, exec .groupTimeout s = .next t ∧ t.dict = { s.dict with group := none } ∧
      (assocWf defaultOf s.regs = true → flag t (key 0x2500 0x0E) 29 = true) ∧
      t = { s with dict := t.dict, regs := t.regs, overflow := t.overflow, emcy := t.emcy, log := t.log } := by
  have hnext : exec .groupTimeout s = .next (raiseEmcy (setFlag { s with dict := { s.dict with group := none } } (key 0x2500 0x0E) 29)
      0x6200 (key 0x2500 0x0E) 0) := by
    simp only [exec_groupTimeout, execGroupTimeout, h, if_pos hlate]
  have hnone : Only [.dict, .regs, .overflow, .emcy, .log] s { s with dict := { s.dict with group := none } } := .of_eq rfl
  refine ⟨_, hnext, (raiseEmcy_only ..).part .dict (by decide), fun hwf => ?_, ((hnone.step (setFlag_only ..)).step (raiseEmcy_only ..)).eq⟩
  exact flag_raiseEmcy_setFlag (s := { s with dict := { s.dict with group := none } }) _ _ _ hwf

/-- Settles O12: each command by the group that is open and its owner, the time-out by its time. -/
theorem commitGroupsCommitAbandonOrTimeOut : Obligations.CommitGroupsCommitAbandonOrTimeOut := by
  refine ⟨fun k s hserved => ⟨fun hnone => ?_, fun hsome => ?_, fun g hg howner => ⟨groupCommit_counts hserved hg howner, ?_⟩,
    fun g hg howner => ⟨?_, ?_⟩⟩, fun g s hg => ⟨fun hlate => groupTimeout_abandons hg hlate, fun hearly => ?_⟩⟩
  · exact exec_acknowledged (exec_groupOpen k s) hserved (doGroupOpen_closed hnone)
  · exact exec_refused (exec_groupOpen k s) hserved (doGroupOpen_open hsome)
  · exact exec_acknowledged (exec_groupAbandon k s) hserved (doGroupAbandon_own (s := touchClient s k) hg howner)
  · exact exec_refused (exec_groupCommit k s) hserved (doGroupCommit_other (s := touchClient s k) hg howner)
  · exact exec_refused (exec_groupAbandon k s) hserved (doGroupAbandon_other (s := touchClient s k) hg howner)
  · simp only [exec_groupTimeout, execGroupTimeout, hg, if_neg (Nat.not_le.2 hearly)]

end Sys2Proof.Machine
end

section
/-! PROOF. QP maps (04_prediction.md R101, R106): begun, filled, committed and discarded through the lead channel's copy. -/

namespace Sys2Proof.Machine

set_option Elab.async false

theorem exec_mapLoadBegin (k : Client) (c : Chan) (n : StreamId) (s : State) :
    exec (.mapLoadBegin k c n) s = .next (serveWrite s k (mapIndex c n) (doMapBegin c n)) := rfl

theorem exec_mapData (k : Client) (c : Chan) (n : StreamId) (data : List Byte) (s : State) :
    exec (.mapData k c n data) s = .next (serveWrite s k (mapIndex c n) (doMapData c n data)) := rfl

theorem exec_mapCommit (k : Client) (c : Chan) (n : StreamId) (s : State) :
    exec (.mapCommit k c n) s = .next (serveWrite s k (mapIndex c n) (doMapCommit c n)) := rfl

theorem exec_mapDiscard (k : Client) (c : Chan) (n : StreamId) (s : State) :
    exec (.mapDiscard k c n) s = .next (serveWrite s k (mapIndex c n) (doMapDiscard c n)) := rfl

section
variable {k : Client} {c : Chan} {n : StreamId} {s : State}

theorem mapWrite_ok {ok : MapState → Option Abort} (f : MapState → MapState) (hlead : writtenLead s n = c)
    (hok : ok s.streams[n].map = none) : mapWrite s c n ok f = .ok (reportMap (modMap s n f) n) := by
  rw [mapWrite, if_pos (show mapCopyOk s c n = true from decide_eq_true hlead), hok]

theorem mapWrite_error {ok : MapState → Option Abort} {a : Abort} (f : MapState → MapState) (hlead : writtenLead s n = c)
    (hok : ok s.streams[n].map = some a) : mapWrite s c n ok f = .error a := by
  rw [mapWrite, if_pos (show mapCopyOk s c n = true from decide_eq_true hlead), hok]

/-- A map write answers its client, and the map is that of the change. -/
def MapWritten (k : Client) (n : StreamId) (o : Out) (m : MapState) : Prop :=
  ∃ t, o = .next t ∧ answered t k = some .ack ∧ t.streams[n].map = m

/-- The map that a served, allowed write of the lead copy leaves. -/
theorem mapWritten_of_ok {i : Instr} {ok : MapState → Option Abort} {f : MapState → MapState}
    {g : State → Except Abort State} (hs : Served s k (mapIndex c n)) (hlead : writtenLead s n = c)
    (hexec : exec i s = .next (serveWrite s k (mapIndex c n) g)) (hg : g (touchClient s k) = mapWrite (touchClient s k) c n ok f)
    (hok : ok s.streams[n].map = none) : MapWritten k n (exec i s) (f s.streams[n].map) := by
  have hmap : (reportMap (modMap (touchClient s k) n f) n).streams[n].map = f s.streams[n].map := by
    rw [(reportMap_only _ n).part .streams (by decide), modMap, modStream_same]
    rfl
  exact ⟨_, exec_acknowledged hexec hs (hg.trans (mapWrite_ok f hlead hok)), answered_answer .., hmap⟩

theorem mapDataOk_allowed {m : MapState} {data : List Byte} (hmode : m.mode = .loading)
    (hlen : m.back.length + data.length ≤ 2097152) (hall : (data.all fun b => decide (b.toNat ≤ 115)) = true) :
    mapDataOk m data = none := by
  rw [mapDataOk, if_neg (not_not_intro hmode), if_neg (Nat.not_lt.2 hlen), if_pos hall]

theorem discardMap_early {late : Bool} {m : MapState} (h : late = false ∨ m.mode ≠ .commitPending) :
    discardMap late m = { m with mode := if m.front.isSome then .inUse else .none, back := [] } := by
  refine if_neg fun ⟨hmode, hlate⟩ => ?_
  rcases h with h | h
  · exact Bool.noConfusion (h.symm.trans hlate)
  · exact h hmode

theorem discardMap_late {m : MapState} (h : m.mode = .commitPending) : discardMap true m = { m with dropBack := true } :=
  if_pos ⟨h, rfl⟩

end

/-- Settles O14: each map write is `mapWrite` of the lead copy; its test passes or names the abort. -/
theorem qpMapLoads : Obligations.QpMapLoads := by
  intro k c n s hs hlead
  refine ⟨fun hmode => ?_, fun data hmode hlen hall => ?_, fun hmode hlen => ?_, fun hmode hlen => ?_, fun hwhen => ?_,
    fun hlate hmode => ?_⟩
  · exact mapWritten_of_ok hs hlead (exec_mapLoadBegin ..) rfl (if_neg hmode)
  · exact mapWritten_of_ok hs hlead (exec_mapData ..) rfl (mapDataOk_allowed hmode hlen hall)
  · exact mapWritten_of_ok hs hlead (exec_mapCommit ..) rfl (if_pos ⟨hmode, hlen⟩)
  · exact exec_refused (exec_mapCommit ..) hs (mapWrite_error _ hlead (if_neg fun h => hlen h.2))
  · obtain ⟨t, hexec, hack, hmap⟩ : MapWritten k n (exec (.mapDiscard k c n) s) (discardMap (exchangeImminent s n) _) :=
      mapWritten_of_ok hs hlead (exec_mapDiscard ..) rfl rfl
    rw [discardMap_early hwhen] at hmap
    exact ⟨t, hexec, hack, (congrArg MapState.back hmap).trans rfl, (congrArg MapState.front hmap).trans rfl,
      (congrArg MapState.mode hmap).trans rfl⟩
  · obtain ⟨t, hexec, hack, hmap⟩ : MapWritten k n (exec (.mapDiscard k c n) s) (discardMap (exchangeImminent s n) _) :=
      mapWritten_of_ok hs hlead (exec_mapDiscard ..) rfl rfl
    rw [hlate, discardMap_late hmode] at hmap
    exact ⟨t, hexec, hack, hmap⟩

end Sys2Proof.Machine
end

section
/-! PROOF. The return decoder (06_decoders.md R149, R151 to R153, R160): enabled and stopped, its pictures close, leave and are given up. -/

namespace Sys2Proof.Machine

set_option Elab.async false

theorem exec_returnDecoderEnable (k : Client) (v : Nat) (s : State) :
    exec (.returnDecoderEnable k v) s = .next (serveWrite s k 0x4800 (doReturnEnable v)) := rfl

theorem exec_pictureClose (s : State) : exec .pictureClose s = .next (if pictureDue s then closePicture s else s) := rfl

theorem exec_presentationTime (s : State) : exec .presentationTime s = execPresentationTime s := rfl

theorem exec_returnTimeLimit (s : State) : exec .returnTimeLimit s = execReturnTimeLimit s := rfl

theorem exec_pathSkewExpiry (s : State) : exec .pathSkewExpiry s = execPathSkewExpiry s := rfl

/-! ## The enable -/

/-- The value written to the enable. -/
def enableWritten (v : Nat) (s : State) : State := commitValue s (kReturn 1) v (unitPresent s .a) (unitPresent s .b)

theorem enableWritten_only (v : Nat) (s : State) : Only [.dict] s (enableWritten v s) := .of_eq rfl

/-- The decoder as its enable leaves it: empty, with the written settings. -/
def retStarted (s : State) : State :=
  { s with ret := { retReset with enabled := true, setting := returnSettings s, waitIrap := false } }

/-- The state in which the decoder starts: the flow of each path then joins its group. -/
def startedFeed (s : State) : State := announceJoins s (retStarted (enableWritten 1 s))

theorem doReturnEnable_start {s : State} (h : s.ret.enabled = false) : doReturnEnable 1 s = .ok (startedFeed s) :=
  (if_neg (by decide)).trans ((if_neg (by decide)).trans (if_neg (by
    show ¬ s.ret.enabled = true
    rw [h]; decide)))

theorem doReturnEnable_again {s : State} (h : s.ret.enabled = true) : doReturnEnable 1 s = .ok (enableWritten 1 s) :=
  (if_neg (by decide)).trans ((if_neg (by decide)).trans (if_pos h))

theorem doReturnEnable_stop (s : State) :
    doReturnEnable 0 s = .ok { enableWritten 0 s with ret := { retReset with lastClass := s.ret.lastClass } } := rfl

theorem doReturnEnable_range {v : Nat} {s : State} (h : 1 < v) : doReturnEnable v s = .error .outOfRange := if_pos h

/-- The settings in effect are those written, not the enable. -/
theorem returnSettings_enableWritten (v : Nat) (s : State) : returnSettings (enableWritten v s) = returnSettings s := by
  have hcfg : ∀ sub, sub ≠ 1 → cfg (enableWritten v s) (kReturn sub) = cfg s (kReturn sub) := fun sub h =>
    cfg_commitValue_other _ _ _ fun heq => h (Nat.add_left_cancel heq)
  simp [returnSettings, hcfg]

theorem startedFeed_only (s : State) : Only [.dict, .ret, .regs, .ports, .flows, .counts] s (startedFeed s) :=
  (((Only.refl _ s).step (enableWritten_only 1 s)).step (l' := [.ret]) (.of_eq rfl)).step (announceJoins_only ..)

theorem startedFeed_ret (s : State) : (startedFeed s).ret = (retStarted (enableWritten 1 s)).ret :=
  (announceJoins_only s _).part .ret (by decide)

/-- Settles O15: the three values of the enable, one branch of the write each. -/
theorem returnDecoderEnableStartsEmpty : Obligations.ReturnDecoderEnableStartsEmpty := by
  intro k s hs
  refine ⟨fun hoff => ?_, fun hon => ?_, ?_, fun v hv => exec_refused (exec_returnDecoderEnable ..) hs (doReturnEnable_range hv)⟩
  · have hret := startedFeed_ret (touchClient s k)
    refine ⟨_, exec_acknowledged (exec_returnDecoderEnable ..) hs (doReturnEnable_start hoff), answered_answer ..,
      congrArg RetState.enabled hret, ?_, congrArg RetState.decoded hret, congrArg RetState.current hret,
      congrArg RetState.sets hret, congrArg RetState.reorder hret, congrArg RetState.bumped hret, ?_⟩
    · exact (congrArg RetState.setting hret).trans (returnSettings_enableWritten 1 (touchClient s k))
    · exact ((((Only.refl [.dict, .regs, .overflow, .ret, .ports, .flows, .counts, .clients, .maint] s).step
        (touchClient_only s k)).step (startedFeed_only _)).step (answer_only ..)).eq
  · exact ⟨_, exec_acknowledged (exec_returnDecoderEnable ..) hs (doReturnEnable_again hon), answered_answer .., rfl⟩
  · exact ⟨_, exec_acknowledged (exec_returnDecoderEnable ..) hs (doReturnEnable_stop _), answered_answer .., rfl, rfl⟩

/-! ## What the decoder's operations leave -/

theorem returnError_only (s : State) (c : ErrClass) : Only [.regs, .overflow, .ret] s (returnError s c) := by
  have hcount : ∀ n : Nat × Nat, Only [.regs, .overflow, .ret] s
      (if n.2 = 6 then bumpHalf s (kReturn 0x12) true else bump s (kReturn n.1)) := fun n =>
    .ite (fun _ => (Only.refl _ s).step (bumpHalf_only ..)) fun _ => (Only.refl _ s).step (bump_only ..)
  exact (hcount _).step (l' := [.ret]) (.of_eq rfl)

/-- What LAST_CLASS reads after an error of a class (Table 6-10). -/
def classCode : ErrClass → Nat
  | .e1 => 1
  | .e2 => 2
  | .e3 => 3
  | .e4 => 4
  | .e5 => 5
  | .e6 => 6

theorem returnError_ret (s : State) (c : ErrClass) : (returnError s c).ret = { s.ret with lastClass := classCode c } := by
  cases c <;> simp [returnError, classCode]

/-! ## A picture closes -/

/-- Bumping touches the buffer and what it has output, and keeps every picture that is referred to, but for its waiting. -/
structure Bumped (r r' : RetState) : Prop where
  rest : r' = { r with decoded := r'.decoded, bumped := r'.bumped }
  kept : ∀ q ∈ r.decoded, q.reference = true → ∃ w, { q with waiting := w } ∈ r'.decoded

theorem Bumped.refl (r : RetState) : Bumped r r := ⟨rfl, fun q hq _ => ⟨q.waiting, hq⟩⟩

theorem Bumped.trans {r r' r'' : RetState} (h : Bumped r r') (h' : Bumped r' r'') : Bumped r r'' := by
  refine ⟨?_, fun q hq href => ?_⟩
  · rw [h'.rest, h.rest]
  · obtain ⟨w, hw⟩ := h.kept q hq href
    obtain ⟨v, hv⟩ := h'.kept _ hw href
    exact ⟨v, hv⟩

theorem bumpOne_bumped (r : RetState) : Bumped r (bumpOne r) := by
  unfold bumpOne
  split
  · exact .refl r
  next p _ =>
    refine ⟨rfl, fun q hq href => ?_⟩
    have hkept : ∀ w, keptPicture { q with waiting := w } = true := fun w => by simp [keptPicture, href]
    by_cases hqp : q = p
    · exact ⟨false, List.mem_filter.2 ⟨List.mem_map.2 ⟨q, hq, if_pos hqp⟩, hkept _⟩⟩
    · exact ⟨q.waiting, List.mem_filter.2 ⟨List.mem_map.2 ⟨q, hq, if_neg hqp⟩, hkept _⟩⟩

theorem bumpWhile_bumped (c : RetState → Bool) (fuel : Nat) (r : RetState) : Bumped r (bumpWhile c fuel r) := by
  induction fuel generalizing r with
  | zero => exact .refl r
  | succ fuel ih =>
    rw [bumpWhile]
    split
    · exact (bumpOne_bumped r).trans (ih _)
    · exact .refl r

/-- The picture that closes, as it enters the buffer. -/
def closedPicture (p : RetPicture) : RetPicture := { p with concealed := p.concealed || !p.missing.isEmpty, reference := true }

/-- The counts of a picture that closes. -/
def closeCounted (s : State) (p : RetPicture) : State :=
  let s2 := bump (if !p.missing.isEmpty then returnError s .e5 else s) (kReturn 0x0B)
  if (closedPicture p).concealed || (closedPicture p).derived then bump s2 (kReturn 0x0C) else s2

theorem closePicture_some {s : State} {p : RetPicture} (h : s.ret.current = some p) :
    closePicture s = { closeCounted s p with
      ret := enterBuffer { (closeCounted s p).ret with current := none, closedTs := some p.timestamp } (closedPicture p) } := by
  simp only [closePicture, h]
  rfl

theorem closePicture_none {s : State} (h : s.ret.current = none) : closePicture s = s := by
  simp only [closePicture, h]

theorem closeCounted_only (s : State) (p : RetPicture) : Only [.regs, .overflow, .ret] s (closeCounted s p) := by
  have herror : Only [.regs, .overflow, .ret] s (if !p.missing.isEmpty then returnError s .e5 else s) :=
    .ite (fun _ => returnError_only ..) fun _ => .refl ..
  exact .ite (fun _ => (herror.step (bump_only ..)).step (bump_only ..)) fun _ => herror.step (bump_only ..)

theorem closeCounted_ret (s : State) (p : RetPicture) :
    (closeCounted s p).ret = { s.ret with lastClass := if p.missing = [] then s.ret.lastClass else 5 } := by
  have hbump : ∀ x k, (bump x k).ret = x.ret := fun x k => (bump_only x k).part .ret (by decide)
  have herror : (if !p.missing.isEmpty then returnError s .e5 else s).ret =
      { s.ret with lastClass := if p.missing = [] then s.ret.lastClass else 5 } := by
    cases p.missing
    · rfl
    · exact returnError_ret s .e5
  unfold closeCounted
  dsimp only
  split <;> simp only [hbump, herror]

theorem closePicture_only (s : State) : Only [.regs, .overflow, .ret] s (closePicture s) := by
  cases h : s.ret.current with
  | none => rw [closePicture_none h]; exact .refl ..
  | some p =>
    rw [closePicture_some h]
    exact (closeCounted_only s p).step (l' := [.ret]) (.of_eq rfl)

/-- The buffer takes a closed picture, and nothing but the buffer and what it outputs changes. -/
theorem enterBuffer_bumped (r : RetState) (p : RetPicture) :
    enterBuffer r p = { r with decoded := (enterBuffer r p).decoded, bumped := (enterBuffer r p).bumped } ∧
      (p.reference = true → ∃ w, { p with waiting := w } ∈ (enterBuffer r p).decoded) := by
  have h : Bumped _ (enterBuffer r p) := bumpWhile_bumped ..
  exact ⟨h.rest, fun href => h.kept p (List.mem_cons_self ..) href⟩

theorem closePicture_ret {s : State} {p : RetPicture} (h : s.ret.current = some p) :
    (closePicture s).ret = { s.ret with
      lastClass := if p.missing = [] then s.ret.lastClass else 5, current := none, closedTs := some p.timestamp
      decoded := (closePicture s).ret.decoded, bumped := (closePicture s).ret.bumped } := by
  rw [closePicture_some h]
  refine (enterBuffer_bumped _ _).1.trans ?_
  rw [closeCounted_ret]

theorem closePicture_enters {s : State} {p : RetPicture} (h : s.ret.current = some p) :
    ∃ w, { closedPicture p with waiting := w } ∈ (closePicture s).ret.decoded := by
  rw [closePicture_some h]
  exact (enterBuffer_bumped _ _).2 rfl

theorem pictureDue_of_current {s : State} {p : RetPicture} (h : s.ret.current = some p) :
    pictureDue s = decide (p.presentAt ≤ tb0NsNow s) := by
  rw [pictureDue, h]; rfl

theorem current_of_pictureDue {s : State} (h : pictureDue s = true) : ∃ p, s.ret.current = some p := by
  obtain ⟨p, hp, -⟩ := (Option.any_eq_true ..).1 h
  exact ⟨p, hp⟩

/-! ## The decoder's packets, while a unit is active -/

/-- What a step changes while a unit is active, which stays the active one: faults then wait for the arbiter. -/
structure ActiveStep (l : List StatePart) (s t : State) : Prop where
  active : s.relay.active.isSome = true → Only l s t ∧ t.relay.active = s.relay.active

namespace ActiveStep

variable {l l' : List StatePart} {s t u : State}

theorem refl (l : List StatePart) (s : State) : ActiveStep l s s := ⟨fun _ => ⟨.refl .., rfl⟩⟩

theorem trans (h : ActiveStep l s t) (h' : ActiveStep l t u) : ActiveStep l s u := by
  refine ⟨fun ha => ?_⟩
  obtain ⟨honly, hactive⟩ := h.active ha
  obtain ⟨honly', hactive'⟩ := h'.active (hactive ▸ ha)
  exact ⟨honly.trans honly', hactive'.trans hactive⟩

/-- An operation that leaves the relay. -/
theorem of_only (h : Only l' s t) (hl : (l'.all fun p => l.contains p && decide (p ≠ .relay)) = true := by decide) :
    ActiveStep l s t := by
  have hmem : ∀ p ∈ l', p ∈ l ∧ p ≠ .relay := fun p hp => by simpa using List.all_eq_true.1 hl p hp
  have hrelay : StatePart.relay ∉ l' := fun hp => (hmem _ hp).2 rfl
  exact ⟨fun _ => ⟨h.mono fun p hp => (hmem p hp).1, congrArg RelayState.active (h.part .relay hrelay)⟩⟩

theorem mono (h : ActiveStep l' s t) (hl : (l'.all fun p => l.contains p) = true := by decide) : ActiveStep l s t := by
  refine ⟨fun ha => ?_⟩
  obtain ⟨honly, hactive⟩ := h.active ha
  exact ⟨honly.mono fun p hp => by simpa using List.all_eq_true.1 hl p hp, hactive⟩

theorem ite {c : Prop} [Decidable c] (ht : ActiveStep l s t) (hu : ActiveStep l s u) : ActiveStep l s (if c then t else u) := by
  split <;> assumption

theorem forEach {α : Type} {f : State → α → State} (hf : ∀ t a, ActiveStep l t (f t a)) (xs : List α) (s : State) :
    ActiveStep l s (Machine.forEach xs f s) := by
  induction xs generalizing s with
  | nil => exact .refl l s
  | cons a xs ih => exact (hf s a).trans (ih _)

end ActiveStep

/-- A step of the feed: the decoder and what counts and reports its errors. -/
abbrev FeedStep (s t : State) : Prop := ActiveStep [.regs, .overflow, .emcy, .log, .ret, .relay] s t

/-- What the decoder's own record becomes is free. -/
theorem ActiveStep.ret {s t : State} (h : FeedStep s t) (r : RetState) : FeedStep s { t with ret := r } :=
  h.trans (.of_only (l' := [.ret]) (.of_eq rfl))

theorem reportUnitFault_active {s : State} {u : UnitId} (h : s.relay.active = some u) (source : Nat) :
    reportUnitFault s u source = { s with relay := { s.relay with fault := s.relay.fault <|> some source } } := if_pos h

theorem reportUnitFault_activeStep {s : State} (source : Nat) : ActiveStep [.relay] s (reportUnitFault s (viewUnit s) source) := by
  refine ⟨fun ha => ?_⟩
  obtain ⟨u, hu⟩ := Option.isSome_iff_exists.1 ha
  have hview : viewUnit s = u := by rw [viewUnit, hu]; rfl
  rw [reportUnitFault_active (hview ▸ hu)]
  exact ⟨.of_eq rfl, rfl⟩

theorem returnError_feed (s : State) (c : ErrClass) : FeedStep s (returnError s c) := .of_only (returnError_only s c)

theorem closePicture_feed (s : State) : FeedStep s (closePicture s) := .of_only (closePicture_only s)

theorem waitIrap_feed (s : State) : FeedStep s (waitIrap s) := ((closePicture_feed s).trans (returnError_feed ..)).ret _

theorem dropParams_feed (s : State) : FeedStep s (dropParams s) := (waitIrap_feed s).ret _

theorem outOfLimits_feed (s : State) : FeedStep s (outOfLimits s) := (waitIrap_feed s).trans (.of_only (setFlag_only ..))

theorem returnSuppressed_feed (s : State) (count : Nat) : FeedStep s (returnSuppressed s count) := by
  refine .ite (.refl _ s) ?_
  have hcount : Only [.regs, .overflow] s (forEach (List.range count) (fun x _ => bumpHalf x (kReturn 0x12) false) s) :=
    forEach_only (fun t _ => bumpHalf_only t ..) _ s
  have hraised : Only [.regs, .overflow, .emcy, .log] s (raiseEmcy (setFlag
      (forEach (List.range count) (fun x _ => bumpHalf x (kReturn 0x12) false) s) (kReturn 0x0A) 27) 0x5012 (kReturn 0x0A) 0) :=
    (((Only.refl _ s).step hcount).step (setFlag_only ..)).step (raiseEmcy_only ..)
  have hview : viewUnit s = viewUnit _ := (congrArg (fun r : RelayState => r.active.getD .a) (hraised.part .relay (by decide))).symm
  refine (ActiveStep.of_only hraised).trans ?_
  rw [hview]
  exact (reportUnitFault_activeStep 11).mono

theorem addSlice_feed (s : State) (x : ReturnSlice) : FeedStep s (addSlice s x) := by
  unfold addSlice
  split
  · exact .refl _ s
  · refine .ite (((ActiveStep.refl _ s).ret _).trans (outOfLimits_feed _)) (ActiveStep.ret (.trans (.ite ?_ ?_) (returnSuppressed_feed ..)) _)
    · exact returnError_feed ..
    · exact .refl _ s

theorem substitute_feed (f : ReturnFormat) (g : TileGrid) (ts : Nat) (s : State) (poc : Int) : FeedStep s (substitute f g ts s poc) :=
  .ite (.refl _ s) ((returnError_feed ..).ret _)

theorem openPicture_feed (s : State) (f : ReturnFormat) (g : TileGrid) (ts : Nat) (x : ReturnSlice) :
    FeedStep s (openPicture s f g ts x) :=
  (((closePicture_feed s).ret _).trans (ActiveStep.forEach (fun t a => substitute_feed f g ts t a) _ _)).ret _

theorem noteFormat_feed (s : State) (f : ReturnFormat) (ty : Nat) : FeedStep s (noteFormat s f ty) :=
  .ite ((ActiveStep.of_only (regPut_only ..)).trans (.of_only (regPut_only ..))) (.refl _ s)

theorem refuseSlice_feed (s : State) (x : ReturnSlice) (outside : Bool) : FeedStep s (refuseSlice s x outside) :=
  .ite (.ite (outOfLimits_feed s) (waitIrap_feed s)) (.refl _ s)

theorem takeGoodSlice_feed (s : State) (f : ReturnFormat) (g : TileGrid) (ts : Nat) (x : ReturnSlice) :
    FeedStep s (takeGoodSlice s f g ts x) := by
  refine .ite (.refl _ s) (.ite (.ite (.refl _ s) ?_) (addSlice_feed ..))
  exact ((openPicture_feed s f g ts x).trans (noteFormat_feed ..)).trans (addSlice_feed ..)

theorem takeSlice_feed (s : State) (ts : Nat) (x : ReturnSlice) : FeedStep s (takeSlice s ts x) := by
  unfold takeSlice
  split
  · exact refuseSlice_feed ..
  · exact .ite (refuseSlice_feed ..) (.ite (refuseSlice_feed ..) (takeGoodSlice_feed ..))

theorem takeNal_feed (s : State) (ts : Nat) (n : NalInfo) : FeedStep s (takeNal s ts n) := by
  cases n with
  | other => exact .refl _ s
  | endOfSequence => exact (closePicture_feed s).ret _
  | params x => exact (ActiveStep.refl _ s).ret _
  | slice x => exact takeSlice_feed ..

theorem takeNals_feed (s : State) (r : RtpPacket) : FeedStep s (takeNals s r) :=
  ActiveStep.forEach (fun t n => takeNal_feed t r.ts n) _ s

theorem cutFragment_feed (s : State) : FeedStep s (cutFragment s) := (ActiveStep.ite (returnError_feed ..) (.refl _ s)).ret _

theorem lostStart_feed (s : State) : FeedStep s (lostStart s) := (ActiveStep.ite (.refl _ s) (returnError_feed ..)).ret _

theorem takePacket_feed (s : State) (r : RtpPacket) : FeedStep s (takePacket s r) := by
  unfold takePacket
  split
  · exact (cutFragment_feed s).trans (dropParams_feed _)
  · exact (cutFragment_feed s).trans (takeNals_feed ..)
  · exact (cutFragment_feed s).trans (takeNals_feed ..)
  · exact (cutFragment_feed s).ret _
  · exact .ite (.refl _ s) (lostStart_feed s)
  · exact .ite (((ActiveStep.refl _ s).ret _).trans (takeNals_feed ..)) ((lostStart_feed s).ret _)

theorem drainHeld_feed (fuel : Nat) (s : State) : FeedStep s (drainHeld fuel s) := by
  induction fuel generalizing s with
  | zero => exact (ActiveStep.refl _ s).ret _
  | succ fuel ih =>
    rw [drainHeld]
    split
    · exact (ActiveStep.refl _ s).ret _
    · exact (((ActiveStep.refl _ s).ret _).trans (takePacket_feed ..)).trans (ih _)

/-- Once no held packet follows in sequence, the wait counts from the first of those still held. -/
theorem drainHeld_gapAt (fuel : Nat) (s : State) : (drainHeld fuel s).ret.gapAt = heldSince (drainHeld fuel s).ret := by
  induction fuel generalizing s with
  | zero => rfl
  | succ fuel ih =>
    rw [drainHeld]
    split
    · rfl
    · exact ih _

/-! ## The events -/

/-- The next picture that bumping has output is eligible. -/
def pictureShown (s : State) (p : RetPicture) : State :=
  { s with ret := { s.ret with
      output := some { p with waiting := false, shown := true }, outputs := s.ret.outputs + 1, bumped := s.ret.bumped.drop 1 } }

theorem execPresentationTime_shown {s : State} {p : RetPicture} (hdue : pictureDue s = false) (h : nextOutput s = some p) :
    execPresentationTime s = .next (pictureShown s p) := by
  simp only [execPresentationTime, hdue, Bool.false_eq_true, if_false, h]
  rfl

theorem execPresentationTime_closes {s : State} (hdue : pictureDue s = true) :
    ∃ t, execPresentationTime s = .next t ∧ t.ret.current = (closePicture s).ret.current ∧ Only [.ret] (closePicture s) t := by
  simp only [execPresentationTime, hdue, if_true]
  split
  · exact ⟨_, rfl, rfl, .refl ..⟩
  · exact ⟨_, rfl, rfl, .of_eq rfl⟩

theorem execReturnTimeLimit_some {s : State} {p : RetPicture} (h : s.ret.current = some p) :
    execReturnTimeLimit s = if p.openedAt + returnLimit p ≤ s.now then .next (closePicture (returnError s .e6)) else .next s := by
  simp only [execReturnTimeLimit, h]

/-- A gap that is given up: the decoder goes on from the first packet behind it. -/
def gapGivenUp (s : State) (n : Nat) : State :=
  { returnError s .e1 with ret := { (returnError s .e1).ret with
      nextSeq := (nextHeld s n) <|> some n, fuOpen := false, fuLost := true } }

theorem execPathSkewExpiry_some {a n : Nat} {s : State} (ha : s.ret.gapAt = some a) (hn : s.ret.nextSeq = some n) :
    execPathSkewExpiry s =
      if gapOver s a then .next (drainHeld (returnError s .e1).ret.reorder.length (gapGivenUp s n)) else .next s := by
  simp only [execPathSkewExpiry, ha, hn]
  rfl

theorem gapGivenUp_feed (s : State) (n : Nat) : FeedStep s (gapGivenUp s n) := (returnError_feed s .e1).ret _

/-- Settles O16: a close enters the buffer, whose bumping keeps what is referred to; each event is one branch of its time test. -/
theorem returnPicturesCloseAndLeave : Obligations.ReturnPicturesCloseAndLeave := by
  refine ⟨fun p s hp hdue => ?_, fun s hdue => ?_, fun p s hdue hnext => ?_, fun s hdue => ?_, fun p s hp => ⟨fun hlimit => ?_, fun hlimit => ?_⟩,
    fun a n s ha hn => ⟨fun hover => ?_, fun hover => ?_⟩⟩
  · have hexec : exec .pictureClose s = .next (closePicture s) := by
      rw [exec_pictureClose, if_pos ((pictureDue_of_current hp).trans (decide_eq_true hdue))]
    obtain ⟨w, hw⟩ := closePicture_enters hp
    have hret := closePicture_ret hp
    exact ⟨_, hexec, (congrArg RetState.current hret).trans rfl, (congrArg RetState.closedTs hret).trans rfl,
      ⟨_, hw, rfl, rfl, rfl, rfl⟩, (closePicture_only s).eq⟩
  · rw [exec_pictureClose, hdue]; rfl
  · exact ⟨_, execPresentationTime_shown hdue hnext, rfl, rfl, rfl, rfl⟩
  · obtain ⟨p, hp⟩ := current_of_pictureDue hdue
    obtain ⟨t, hexec, hcurrent, honly⟩ := execPresentationTime_closes hdue
    exact ⟨t, hexec, hcurrent.trans ((congrArg RetState.current (closePicture_ret hp)).trans rfl),
      ((closePicture_only s).step honly).eq⟩
  · have herr : (returnError s .e6).ret.current = some p := (congrArg RetState.current (returnError_ret s .e6)).trans hp
    have hret := closePicture_ret herr
    refine ⟨_, (execReturnTimeLimit_some hp).trans (if_pos hlimit), (congrArg RetState.current hret).trans rfl, ?_, ?_⟩
    · rw [hret, returnError_ret]; rfl
    · exact ((returnError_only s .e6).step (closePicture_only _)).eq
  · exact (execReturnTimeLimit_some hp).trans (if_neg (Nat.not_le.2 hlimit))
  · refine ⟨_, (execPathSkewExpiry_some ha hn).trans (if_pos hover), drainHeld_gapAt .., fun hactive => ?_⟩
    exact (((gapGivenUp_feed s n).trans (drainHeld_feed ..)).active hactive).1.eq
  · exact (execPathSkewExpiry_some ha hn).trans (if_neg (by rw [hover]; decide))

end Sys2Proof.Machine
end

section
/-! PROOF. Sensor lanes (07_sensor_lanes.md R165, R166, Table 7-3): one lane takes a new value, and its link settles. -/

namespace Sys2Proof.Machine

set_option Elab.async false

section
variable (u : UnitId) (n : LaneId) (s : State)

theorem exec_losAssert : exec (.losAssert u n) s = .next (laneStep s u n losLane) := rfl

theorem exec_losRelease : exec (.losRelease u n) s = .next (laneStep s u n fun x => leaveDown { x with los := false }) := rfl

theorem exec_lolAssert : exec (.lolAssert u n) s = .next (laneStep s u n lolLane) := rfl

theorem exec_lolRelease : exec (.lolRelease u n) s = .next (laneStep s u n fun x => leaveDown { x with lol := false }) := rfl

theorem exec_signalDetect : exec (.signalDetect u n) s = .next (laneStep s u n (wakeLane s.now)) := rfl

theorem exec_wakeTimeout : exec (.wakeTimeout u n) s = .next (laneStep s u n (lateWake s.now)) := rfl

theorem exec_blockRx (b : Block66) :
    exec (.blockRx u n b) s = .next (laneStep s u n (blockLane s.now (flipBlock (laneInverted s n) b))) := rfl

end

theorem settleLink_only (s : State) (u : UnitId) (l : LinkId) : Only [.cv, .links] s (settleLink s u l) := .of_eq rfl

theorem laneAt_setLane_same (s : State) (u : UnitId) (n : LaneId) (x : Lane) : laneAt (setLane s u n x) u n = x := by
  rw [laneAt, setLane, pair_mod_get, vmod_get_same]

theorem laneAt_setLane_other (s : State) (u : UnitId) {m n : LaneId} (x : Lane) (h : m ≠ n) :
    laneAt (setLane s u n x) u m = laneAt s u m := by
  rw [laneAt, setLane, pair_mod_get, vmod_get_other _ _ _ _ h]
  rfl

/-- A step of a lane in use: the lane takes its new value, and nothing else but links and check-value units may change. -/
theorem laneStep_used {u : UnitId} {n : LaneId} {s : State} (h : laneUsed s n = true) (f : Lane → Lane) :
    laneAt (laneStep s u n f) u n = f (laneAt s u n) ∧ OnlyLane s (laneStep s u n f) u n := by
  obtain ⟨l, hl⟩ := Option.isSome_iff_exists.1 h
  have hstep : laneStep s u n f = settleLink (setLane s u n (f (laneAt s u n))) u l := by rw [laneStep, hl]
  rw [hstep]
  refine ⟨laneAt_setLane_same .., fun m hm => laneAt_setLane_other s u _ hm, pair_mod_other .., rfl⟩

/-- The next state of a lane event, with what it makes of its lane. -/
theorem lane_event {i : Instr} {u : UnitId} {n : LaneId} {s : State} {f : Lane → Lane} (hexec : exec i s = .next (laneStep s u n f))
    (h : laneUsed s n = true) : ∃ t, exec i s = .next t ∧ laneAt t u n = f (laneAt s u n) ∧ OnlyLane s t u n :=
  ⟨_, hexec, laneStep_used h f⟩

/-! ## Lane values -/

section
variable {x : Lane}

theorem losLane_los (x : Lane) : (losLane x).los = true := by
  unfold losLane
  split <;> rfl

theorem losLane_down (hi : x.mode ≠ .idle) (hd : x.mode ≠ .disabled) : (losLane x).mode = .down := by
  rw [losLane, if_neg (not_or.2 ⟨hi, hd⟩)]

theorem losLane_idle (h : x.mode = .idle) : (losLane x).mode = .idle := by
  rw [losLane, if_pos (.inl h)]; exact h

theorem leaveDown_hunt (hmode : x.mode = .down) (hlos : x.los = false) (hlol : x.lol = false) : leaveDown x = toHunt x :=
  if_pos ⟨hmode, by rw [hlos]; decide, by rw [hlol]; decide⟩

theorem leaveDown_los (x : Lane) : (leaveDown x).los = x.los := by
  unfold leaveDown
  split <;> rfl

theorem leaveDown_lol (x : Lane) : (leaveDown x).lol = x.lol := by
  unfold leaveDown
  split <;> rfl

theorem lolLane_lol (x : Lane) : (lolLane x).lol = true := by
  unfold lolLane
  split <;> rfl

theorem lolLane_locked (h : x.mode = .locked) : lolLane x = loseLock { x with lol := true } := if_pos h

theorem wakeLane_idle (now : Nat) (h : x.mode = .idle) :
    wakeLane now x = { x with mode := .wake, valid := 0, wakeSeen := false, wakeAt := now, los := false, lol := false } := if_pos h

theorem wakeLane_other (now : Nat) (h : x.mode ≠ .idle) : wakeLane now x = x := if_neg h

theorem lateWake_late {now : Nat} (hmode : x.mode = .wake) (hlate : x.wakeAt + 150 ≤ now) : lateWake now x = slowExit x :=
  if_pos ⟨hmode, hlate⟩

theorem lateWake_early {now : Nat} (h : x.mode ≠ .wake ∨ now < x.wakeAt + 150) : lateWake now x = x :=
  if_neg fun ⟨hmode, hlate⟩ => h.elim (fun hne => hne hmode) fun hlt => Nat.not_le.2 hlt hlate

end

/-- Settles O18: each event is one step of its lane. -/
theorem laneEventsFollowTable : Obligations.LaneEventsFollowTable := by
  intro u n s hused
  refine ⟨?_, ?_, ?_, ?_, ?_, ?_⟩
  · obtain ⟨t, hexec, hlane, honly⟩ := lane_event (exec_losAssert u n s) hused
    refine ⟨t, hexec, ?_, fun hi hd => ?_, fun hi => ?_, honly⟩ <;> rw [hlane]
    · exact losLane_los _
    · exact losLane_down hi hd
    · exact losLane_idle hi
  · obtain ⟨t, hexec, hlane, honly⟩ := lane_event (exec_losRelease u n s) hused
    refine ⟨t, hexec, ?_, fun hmode hlol => ?_, honly⟩ <;> rw [hlane]
    · exact leaveDown_los _
    · rw [leaveDown_hunt (x := { laneAt s u n with los := false }) hmode rfl hlol]
      exact ⟨rfl, rfl⟩
  · obtain ⟨t, hexec, hlane, honly⟩ := lane_event (exec_lolRelease u n s) hused
    refine ⟨t, hexec, ?_, fun hmode hlos => ?_, honly⟩ <;> rw [hlane]
    · exact leaveDown_lol _
    · rw [leaveDown_hunt (x := { laneAt s u n with lol := false }) hmode hlos rfl]
      rfl
  · obtain ⟨t, hexec, hlane, honly⟩ := lane_event (exec_lolAssert u n s) hused
    refine ⟨t, hexec, ?_, fun hmode => ?_, honly⟩ <;> rw [hlane]
    · exact lolLane_lol _
    · rw [lolLane_locked hmode]
      exact ⟨rfl, rfl⟩
  · obtain ⟨t, hexec, hlane, honly⟩ := lane_event (exec_signalDetect u n s) hused
    refine ⟨t, hexec, honly, fun hidle => ?_, fun hidle => ?_⟩ <;> rw [hlane]
    · rw [wakeLane_idle _ hidle]
      exact ⟨rfl, rfl⟩
    · exact wakeLane_other _ hidle
  · obtain ⟨t, hexec, hlane, honly⟩ := lane_event (exec_wakeTimeout u n s) hused
    refine ⟨t, hexec, honly, fun hmode hlate => ?_, fun hother => ?_⟩ <;> rw [hlane]
    · rw [lateWake_late hmode hlate]
      exact ⟨rfl, rfl⟩
    · exact lateWake_early hother

/-! ## Blocks -/

/-- Inverting both bits of a sync header keeps its validity (R169). -/
theorem validHeader_flipBlock (inverted : Bool) (b : Block66) : validHeader (flipBlock inverted b) = validHeader b := by
  have hnot : ∀ y : BitVec 2, decide (~~~y = 1 ∨ ~~~y = 2) = decide (y = 1 ∨ y = 2) := by decide
  cases inverted
  · rfl
  · exact hnot b.sync

theorem validHeader_of_sync {b : Block66} (h : b.sync = 1 ∨ b.sync = 2) : validHeader b = true := decide_eq_true h

theorem invalidHeader_of_sync {b : Block66} (h1 : b.sync ≠ 1) (h2 : b.sync ≠ 2) : validHeader b = false :=
  decide_eq_false fun h => h.elim h1 h2

section
variable {now : Nat} {b : Block66} {x : Lane}

theorem blockLane_hunt (hmode : x.mode = .hunt) (hok : validHeader b = true) :
    (127 ≤ x.valid → (blockLane now b x).mode = .locked) ∧
      (x.valid < 127 → (blockLane now b x).mode = .hunt ∧ (blockLane now b x).valid = x.valid + 1) := by
  simp only [blockLane, hmode, hok, if_true]
  refine ⟨fun h => ?_, fun h => ?_⟩
  · rw [if_pos (by omega)]
  · rw [if_neg (by omega)]
    exact ⟨rfl, rfl⟩

theorem blockLane_slip (hmode : x.mode = .hunt) (hok : validHeader b = false) :
    (blockLane now b x).mode = .hunt ∧ (blockLane now b x).valid = 0 ∧ (blockLane now b x).slips = (x.slips + 1) % 66 := by
  simp only [blockLane, hmode, hok, Bool.false_eq_true, if_false, and_self]

theorem blockLane_lost (hmode : x.mode = .locked) (hok : validHeader b = false) (hpop : 16 ≤ popCount ((x.window <<< 1) ||| 1#64)) :
    (blockLane now b x).mode = .hunt ∧ (blockLane now b x).lockLosses = min 255 (x.lockLosses + 1) := by
  simp only [blockLane, hmode, hok, Bool.false_eq_true, if_false, if_pos hpop]
  exact ⟨rfl, rfl⟩

/-- A valid block of a locked lane whose window holds few invalid headers (R166). -/
theorem blockLane_locked {d : BitVec 64 × BitVec 58} (hd : d = descramble x.scrambler b.payload) (hmode : x.mode = .locked)
    (hok : validHeader b = true) (hpop : popCount (x.window <<< 1) < 16) :
    (isControl b = false → blockLane now b x = { x with window := x.window <<< 1, scrambler := d.2 }) ∧
      (isControl b = true → d.1.toNat % 256 = 0x69 → (blockLane now b x).mode = .idle) ∧
      (isControl b = true → d.1.toNat % 256 = 0xA5 → (blockLane now b x).mode = .locked ∧
        (blockLane now b x).marker = some (BitVec.ofNat 16 (d.1.toNat >>> 8)) ∧ (blockLane now b x).markerAt = now) := by
  subst hd
  simp only [blockLane, hmode, hok, if_true, BitVec.or_zero, if_neg (Nat.not_le.2 hpop)]
  refine ⟨fun hc => ?_, fun hc hty => ?_, fun hc hty => ?_⟩
  · simp only [hc, Bool.false_and, Bool.false_eq_true, if_false]
  · simp only [hc, hty, decide_true, Bool.and_self, if_true]
  · simp [hc, hty]

theorem blockLane_wake (hmode : x.mode = .wake) (hok : validHeader b = true) (hc : isControl b = true)
    (hwake : wakeBlock (descramble x.scrambler b.payload).1 = true) :
    (15 ≤ x.valid → (blockLane now b x).mode = .locked) ∧
      (x.valid < 15 → (blockLane now b x).mode = .wake ∧ (blockLane now b x).valid = x.valid + 1) := by
  simp only [blockLane, hmode, hok, hc, hwake, Bool.not_true, Bool.false_eq_true, if_false, Bool.and_self, if_true]
  refine ⟨fun h => ?_, fun h => ?_⟩
  · rw [if_pos (by omega)]
  · rw [if_neg (by omega)]
    exact ⟨rfl, rfl⟩

end

/-- Settles O19: by the lane's state and the block's header; an inverted header is as valid as the header. -/
theorem blocksLockAndLoseLanes : Obligations.BlocksLockAndLoseLanes := by
  intro u n b s hused
  obtain ⟨t, hexec, hlane, honly⟩ := lane_event (exec_blockRx u n s b) hused
  have hheader := validHeader_flipBlock (laneInverted s n) b
  refine ⟨fun hmode hsync => ?_, fun hmode h1 h2 => ?_, fun hmode h1 h2 hpop => ?_, fun c d hc hd hsync =>
    ⟨fun hmode hpop => ?_, fun hmode hcontrol hwake => ?_⟩⟩
  · refine ⟨t, hexec, honly, ?_⟩
    rw [hlane]
    exact blockLane_hunt hmode (hheader.trans (validHeader_of_sync hsync))
  · refine ⟨t, hexec, honly, ?_⟩
    rw [hlane]
    exact blockLane_slip hmode (hheader.trans (invalidHeader_of_sync h1 h2))
  · refine ⟨t, hexec, honly, ?_⟩
    rw [hlane]
    exact blockLane_lost hmode (hheader.trans (invalidHeader_of_sync h1 h2)) hpop
  · refine ⟨t, hexec, honly, ?_⟩
    rw [hlane, ← hc]
    exact blockLane_locked hd hmode (hc ▸ hheader.trans (validHeader_of_sync hsync)) hpop
  · refine ⟨t, hexec, honly, ?_⟩
    rw [hlane, ← hc]
    exact blockLane_wake hmode (hc ▸ hheader.trans (validHeader_of_sync hsync)) hcontrol (hd ▸ hwake)

end Sys2Proof.Machine
end

section
/-! PROOF. Accesses to DRAM and their faults: what they leave (11_dram.md R264, R268, R272; 12_translation_dma.md R287). -/

namespace Sys2Proof.Machine

set_option Elab.async false

theorem setDram_only (s : State) (u : UnitId) (f : DramState → DramState) : Only [.dram] s (setDram s u f) := .of_eq rfl

theorem activate1_only (s : State) (u : UnitId) (ch : DramChan) (bank : Fin 16) (row : Nat) :
    Only [.regs, .dram, .counts] s (activate1 s u ch bank row) := by
  have hset : ∀ f, Only [.regs, .dram, .counts] s (setDram s u f) := fun f => (Only.refl _ s).step (setDram_only s u f)
  exact .ite (fun _ => ((hset _).step (countUnit_only ..)).step (setFlag_only ..)) fun _ => hset _

theorem touchBlock_only (s : State) (u : UnitId) (a : Nat) : Only [.regs, .dram, .counts] s (touchBlock s u a) := by
  have hopen : Only [.regs, .dram, .counts] s
      (if rowOpen s u a then s else activate1 s u (channelOf a) (bankOf a) (dramRow a)) :=
    .ite (fun _ => .refl ..) fun _ => activate1_only ..
  exact hopen.step (setDram_only ..)

theorem touchBytes_only (s : State) (u : UnitId) (a n : Nat) : Only [.regs, .dram, .counts] s (touchBytes s u a n) :=
  forEach_only (fun t b => touchBlock_only t u b) _ s

theorem noteFault_only (s : State) (u : UnitId) (ctx : Fin 64) (v kind : Nat) (write : Bool) :
    Only [.regs, .overflow] s (noteFault s u ctx v kind write) := by
  refine .ite (fun _ => ?_) fun _ => .refl ..
  have hput : ∀ w, Only [.regs, .overflow] s (regPut (bump s (kAtu 2)) (kAtu 3) w) :=
    fun w => ((Only.refl _ s).step (bump_only ..)).step (regPut_only ..)
  exact .ite (fun _ => (hput _).step (setFlag_only ..)) fun _ => hput _

/-- A memory fault of the active unit is reported, and waits for the arbiter. -/
theorem memoryFault_active {s : State} {u : UnitId} (h : s.relay.active = some u) :
    Only [.regs, .overflow, .emcy, .log, .relay] s (memoryFault s u) ∧ (memoryFault s u).relay.active = some u := by
  have hraise := raiseEmcyOf_only s u 0x5012 (kDram 0x10) 0
  have hrelay : (raiseEmcyOf s u 0x5012 (kDram 0x10) 0).relay = s.relay := hraise.part .relay (by decide)
  have hactive : (raiseEmcyOf s u 0x5012 (kDram 0x10) 0).relay.active = some u := (congrArg RelayState.active hrelay).trans h
  rw [memoryFault, reportUnitFault_active hactive]
  exact ⟨((Only.refl _ s).step hraise).step (l' := [.relay]) (.of_eq rfl), hactive⟩

/-! ## The capture ring -/

/-- The ring is written by the active unit: its memory, and the reports of a fault (12_translation_dma.md R298). -/
theorem ringWrite_active (u : UnitId) (s : State) (v : Nat) (l : List (BitVec 8)) (h : s.relay.active = some u) :
    Only [.regs, .overflow, .emcy, .log, .relay, .dram] s (ringWrite u s v l) ∧ (ringWrite u s v l).relay.active = some u := by
  induction l generalizing s v with
  | nil => exact ⟨.refl .., h⟩
  | cons b t ih =>
    rw [ringWrite]
    split
    next k _ =>
      have hnote := noteFault_only s u 9 v k true
      have hrelay : (noteFault s u 9 v k true).relay = s.relay := hnote.part .relay (by decide)
      obtain ⟨honly, hactive⟩ := memoryFault_active (u := u) ((congrArg RelayState.active hrelay).trans h)
      exact ⟨((Only.refl _ s).step hnote).step honly, hactive⟩
    next a _ =>
      obtain ⟨honly, hactive⟩ := ih (setDram s u fun d => putByte d a b) (v + 1) h
      exact ⟨((Only.refl _ s).step (setDram_only ..)).step honly, hactive⟩

theorem ringStore_active (s : State) (u : UnitId) (v : Nat) (l : List (BitVec 8)) (h : s.relay.active = some u) :
    Only [.regs, .overflow, .emcy, .log, .relay, .dram, .counts] s (ringStore s u v l) ∧
      (ringStore s u v l).relay.active = some u := by
  unfold ringStore
  cases (translate s u 9 v true).toOption with
  | none =>
    obtain ⟨honly, hactive⟩ := ringWrite_active u s v l h
    exact ⟨(Only.refl _ s).step honly, hactive⟩
  | some a =>
    have htouch := touchBytes_only s u a l.length
    have hrelay : (touchBytes s u a l.length).relay = s.relay := htouch.part .relay (by decide)
    obtain ⟨honly, hactive⟩ := ringWrite_active u (touchBytes s u a l.length) v l ((congrArg RelayState.active hrelay).trans h)
    exact ⟨((Only.refl _ s).step htouch).step honly, hactive⟩

/-- The parts that a write to the ring may change. -/
abbrev ringParts : List StatePart := [.regs, .overflow, .emcy, .log, .relay, .dram, .counts]

theorem ringRuns_active (u : UnitId) (v : State → Nat × List Nat → Nat) (g : List Nat → List (BitVec 8)) (l : List (Nat × List Nat))
    (s : State) (h : s.relay.active = some u) :
    Only ringParts s (forEach l (fun x r => ringStore x u (v x r) (g r.2)) s) := by
  induction l generalizing s with
  | nil => exact .refl ..
  | cons r l ih =>
    obtain ⟨honly, hactive⟩ := ringStore_active s u (v s r) (g r.2) h
    exact honly.trans (ih _ hactive)

theorem ringLine_only (s : State) (u : UnitId) (b : BufLine) : Only ringParts s (ringLine s u b) := by
  unfold ringLine
  split
  next w _ => exact .ite (fun ⟨_, hactive⟩ => ringRuns_active u _ (fun r => r.flatMap fun v => leBytes 2 v) _ s hactive) fun _ => .refl ..
  · exact .refl ..

theorem ringLine_idle {s : State} {u : UnitId} (b : BufLine) (h : s.relay.active ≠ some u ∨ s.capture.writing = none) :
    ringLine s u b = s := by
  unfold ringLine
  split
  next w hw =>
    refine if_neg fun ⟨_, hactive⟩ => ?_
    rcases h with h | h
    · exact h hactive
    · exact nomatch h.symm.trans hw
  · rfl

/-! ## Line packets (07_sensor_lanes.md R173 to R176) -/

theorem exec_linePacketRx (u : UnitId) (l : LinkId) (p : LinePacket) (s : State) :
    exec (.linePacketRx u l p) s = execLinePacketRx u l p s := rfl

theorem noteHeader_only (s : State) (u : UnitId) (l : LinkId) (p : LinePacket) :
    Only [.regs, .overflow, .phase] s (noteHeader s u l p) := by
  have hcount : ∀ (c : Bool) (x : PhaseState → PhaseState),
      Only [.regs, .overflow, .phase] s { (if c then bump s (kInput 0x0A) else s) with
        phase := x (if c then bump s (kInput 0x0A) else s).phase } := fun c x => by
    have hbump : Only [.regs, .overflow, .phase] s (if c then bump s (kInput 0x0A) else s) :=
      .ite (fun _ => (Only.refl _ s).step (bump_only ..)) fun _ => .refl ..
    exact hbump.step (l' := [.phase]) (.of_eq rfl)
  refine .ite (fun _ => .ite (fun _ => .ite (fun _ => ?_) fun _ => .refl ..) fun _ => .ite (fun _ => ?_) fun _ => .refl ..)
    fun _ => .refl ..
  · exact hcount _ fun y => { y with ahead := _ }
  · exact hcount _ fun y => { y with arrival := _, linkOf := _ }

theorem countLine_only (s : State) (l : LinkId) (c : LineClass) : Only [.regs, .overflow] s (countLine s l c) := by
  cases c with
  | accepted gap => exact .ite (fun _ => (bump_only ..).trans (bump_only ..)) fun _ => bump_only ..
  | late => exact bump_only ..
  | repeated => exact bump_only ..
  | stale => exact bump_only ..
  | early => exact .refl ..
  | bad => exact .refl ..

theorem checkLine_only (s : State) (l : LinkId) (c : LineClass) (p : LinePacket) : Only [.regs, .overflow] s (checkLine s l c p) := by
  unfold checkLine
  dsimp only
  split
  · exact (cvEnd_only ..).trans (cvGap_only ..)
  · exact cvEnd_only ..

section
variable (u : UnitId) (l : LinkId) (p : LinePacket) (s : State) (c : LineClass) (q : Nat)

/-- The state after a packet of a class: its header's phase, its link, and the active unit's counts. -/
def lineNoted : State :=
  let s1 : State := { noteHeader s u l p with links := (noteHeader s u l p).links.mod u fun v => vmod v l (linkAfter c q p) }
  if s.relay.active = some u then checkLine (countLine s1 l c) l c p else s1

/-- The link of a packet after it. -/
def linkNoted : State :=
  { noteHeader s u l p with links := (noteHeader s u l p).links.mod u fun v => vmod v l (linkAfter c q p) }

theorem linkNoted_only : Only [.regs, .overflow, .phase, .links] s (linkNoted u l p s c q) :=
  ((Only.refl _ s).step (noteHeader_only ..)).step (l' := [.links]) (.of_eq rfl)

theorem lineNoted_of_linkNoted : Only [.regs, .overflow] (linkNoted u l p s c q) (lineNoted u l p s c q) :=
  .ite (fun _ => (countLine_only ..).trans (checkLine_only ..)) fun _ => .refl ..

theorem lineNoted_only : Only [.regs, .overflow, .phase, .links] s (lineNoted u l p s c q) :=
  (linkNoted_only ..).step (lineNoted_of_linkNoted ..)

theorem lineNoted_link : ((lineNoted u l p s c q).links.get u).get l = linkAfter c q p ((s.links.get u).get l) := by
  have hlinks : (noteHeader s u l p).links = s.links := (noteHeader_only ..).part .links (by decide)
  rw [show (lineNoted u l p s c q).links = (linkNoted u l p s c q).links from (lineNoted_of_linkNoted ..).part .links (by decide),
    linkNoted, pair_mod_get, hlinks]
  exact vmod_get_same ..

theorem execLinePacketRx_down (h : ((s.links.get u).get l).up = false) : execLinePacketRx u l p s = .next s :=
  if_neg (by rw [h]; decide)

variable {u l p s c q}

theorem execLinePacketRx_lost (hup : ((s.links.get u).get l).up = true) (hq : q = packetPicture s ((s.links.get u).get l) p.line (opensPicture p))
    (hc : classifyLine s l ((s.links.get u).get l) p = c) (hlost : ∀ gap, c ≠ .accepted gap) :
    execLinePacketRx u l p s = .next (lineNoted u l p s c q) := by
  simp only [execLinePacketRx, hup, if_true, hc, ← hq]
  cases c with
  | accepted gap => exact absurd rfl (hlost gap)
  | late => rfl
  | early => rfl
  | bad => rfl
  | repeated => rfl
  | stale => rfl

theorem execLinePacketRx_accepted {gap : Bool} (hup : ((s.links.get u).get l).up = true)
    (hq : q = packetPicture s ((s.links.get u).get l) p.line (opensPicture p))
    (hc : classifyLine s l ((s.links.get u).get l) p = .accepted gap) :
    execLinePacketRx u l p s =
      .next (ringLine (storeLine (lineNoted u l p s (.accepted gap) q) u (bufferLine s l q p)) u (bufferLine s l q p)) := by
  simp only [execLinePacketRx, hup, if_true, hc, ← hq]
  rfl

end

section
variable {s : State} {l : LinkId} {x : Link} {p : LinePacket} {q : Nat}

/-- Table 7-8's last row: a good packet in its window, neither repeated nor stale. -/
theorem classifyLine_accepted (hq : q = packetPicture s x p.line (opensPicture p))
    (hwindow : windowOf s (linkOpened s x) q p.line = .here) (hcrc : lineCrc p = p.crc) (hlen : p.blocks = bandBlocks s l p.line)
    (hwhole : p.whole = true) (hlast : x.lastLine ≠ some (p.line, p.alive))
    (hexp : x.expLine ≤ p.line ∨ (opensPicture p = true ∧ x.picture < q)) (hline : p.line < activeLines s) :
    ∃ gap, classifyLine s l x p = .accepted gap := by
  have hstale : ¬ (p.line < x.expLine ∧ ¬ (opensPicture p = true ∧ x.picture < q)) := fun ⟨hlt, hnot⟩ =>
    hexp.elim (fun h => Nat.not_lt.2 h hlt) hnot
  refine ⟨decide (x.expAlive ≠ none ∧ x.expAlive ≠ some (BitVec.ofNat 8 p.alive)), ?_⟩
  simp only [classifyLine, ← hq, hwindow, if_neg (show ¬ (p.line < activeLines s ∧ WindowPlace.here = .late) from fun h => nomatch h.2),
    if_neg (not_not_intro hcrc), if_neg (show ¬ (p.blocks ≠ bandBlocks s l p.line ∨ ¬ p.whole = true) from
      not_or.2 ⟨not_not_intro hlen, not_not_intro hwhole⟩), if_neg hlast, if_neg hstale, if_neg (Nat.not_le.2 hline),
    if_neg (show ¬ WindowPlace.here = .early from nofun)]

/-- The rows of Table 7-8 before the link's state counts: a closed window, or a CRC that does not hold. -/
theorem classifyLine_late_or_bad (hq : q = packetPicture s x p.line (opensPicture p))
    (h : (windowOf s (linkOpened s x) q p.line = .here ∧ lineCrc p ≠ p.crc) ∨
      (windowOf s (linkOpened s x) q p.line = .late ∧ p.line < activeLines s)) :
    classifyLine s l x p = .late ∨ classifyLine s l x p = .bad := by
  simp only [classifyLine, ← hq]
  rcases h with ⟨hwindow, hcrc⟩ | ⟨hwindow, hline⟩
  · rw [hwindow, if_neg (fun h => nomatch h.2), if_pos hcrc]
    exact .inr rfl
  · rw [if_pos ⟨hline, hwindow⟩]
    exact .inl rfl

end

/-- A unit's line store with a line in its place. -/
def storedInput (i : InputState) (b : BufLine) : InputState :=
  { i with lines := (i.lines.filter fun x => decide (x.picture ≠ b.picture ∨ x.link ≠ b.link ∨ x.line ≠ b.line)) ++ [b] }

theorem storeLine_input (s : State) (u : UnitId) (b : BufLine) :
    (storeLine s u b).input = s.input.mod u fun i => storedInput i b := rfl

/-- Settles O20: the class decides; an accepted line enters the buffer and, of the active unit, the ring. -/
theorem linePacketsAreAcceptedOrLost : Obligations.LinePacketsAreAcceptedOrLost := by
  intro u l p s x q hx hq
  subst hx
  refine ⟨execLinePacketRx_down u l p s, fun hup hwindow hcrc hlen hwhole hlast hexp hline => ?_, fun hup hlost => ?_⟩
  · obtain ⟨gap, hc⟩ := classifyLine_accepted hq hwindow hcrc hlen hwhole hlast hexp hline
    refine ⟨_, execLinePacketRx_accepted hup hq hc, ?_⟩
    have hnoted := lineNoted_only u l p s (.accepted gap) q
    have hlink := lineNoted_link u l p s (.accepted gap) q
    generalize lineNoted u l p s (.accepted gap) q = a at hnoted hlink ⊢
    have hstored : Only [.regs, .overflow, .phase, .links, .input] s (storeLine a u (bufferLine s l q p)) :=
      ((Only.refl _ s).step hnoted).step (l' := [.input]) (.of_eq rfl)
    have hring := ringLine_only (storeLine a u (bufferLine s l q p)) u (bufferLine s l q p)
    have hinput : (ringLine (storeLine a u (bufferLine s l q p)) u (bufferLine s l q p)).input =
        s.input.mod u fun i => storedInput i (bufferLine s l q p) := by
      rw [hring.part .input (by decide), storeLine_input, hnoted.part .input (by decide)]
    have hlinks : (ringLine (storeLine a u (bufferLine s l q p)) u (bufferLine s l q p)).links = a.links :=
      hring.part .links (by decide)
    refine ⟨by rw [hinput, pair_mod_get]; rfl, by rw [hinput]; exact pair_mod_other .., by rw [hlinks, hlink]; rfl,
      by rw [hlinks, hlink]; rfl, by rw [hlinks, hlink]; rfl, fun hidle => ?_, ?_⟩
    · rw [ringLine_idle _ (by
        rw [show (storeLine a u (bufferLine s l q p)).relay = s.relay from hstored.part .relay (by decide),
          show (storeLine a u (bufferLine s l q p)).capture = s.capture from hstored.part .capture (by decide)]
        exact hidle)]
      exact ((Only.refl [.regs, .overflow, .links, .input, .phase] s).step hstored).eq
    · exact (((Only.refl [.regs, .overflow, .emcy, .log, .links, .input, .phase, .counts, .dram, .relay] s).step hstored).step hring).eq
  · have hc := classifyLine_late_or_bad (l := l) hq hlost
    have hnotGap : ∀ gap, classifyLine s l ((s.links.get u).get l) p ≠ .accepted gap := fun gap h =>
      hc.elim (fun h' => nomatch h.symm.trans h') fun h' => nomatch h.symm.trans h'
    refine ⟨_, execLinePacketRx_lost hup hq rfl hnotGap, ?_,
      ((Only.refl [.regs, .overflow, .links, .phase] s).step (lineNoted_only ..)).eq⟩
    rw [lineNoted_link]
    rcases hc with hc | hc <;> rw [hc] <;> rfl

/-! ## Picture descriptors and the phase fault (R173, R183) -/

theorem exec_pictureDescriptorRx (u : UnitId) (l : LinkId) (d : PictureDescriptor) (s : State) :
    exec (.pictureDescriptorRx u l d) s = execPictureDescriptorRx u l d s := rfl

theorem exec_phaseFaultClear (s : State) : exec .phaseFaultClear s = execPhaseFaultClear s := rfl

/-- Whether a descriptor agrees with a link's configuration. -/
def descriptorAgrees (s : State) (l : LinkId) (d : PictureDescriptor) : Bool :=
  decide (d.width = bandWidth s l ∧ d.height = activeLines s ∧ d.chroma = inputChroma s ∧ d.depth = inputDepth s)

/-- The link notes whether its descriptor agrees. -/
def descriptorNoted (u : UnitId) (l : LinkId) (d : PictureDescriptor) (s : State) : State :=
  { s with links := s.links.mod u fun v => vmod v l fun x => { x with descriptorOk := descriptorAgrees s l d } }

theorem descriptorNoted_ok (u : UnitId) (l : LinkId) (d : PictureDescriptor) (s : State) :
    (((descriptorNoted u l d s).links.get u).get l).descriptorOk = descriptorAgrees s l d := by
  rw [descriptorNoted, pair_mod_get, vmod_get_same]

theorem execPictureDescriptorRx_eq (u : UnitId) (l : LinkId) (d : PictureDescriptor) (s : State) :
    execPictureDescriptorRx u l d s = .next (if descriptorAgrees s l d ∨ s.relay.active ≠ some u then descriptorNoted u l d s
      else setFlag (descriptorNoted u l d s) (kInput 8) 28) :=
  (apply_ite Host.Outcome.next _ _ _).symm

theorem execPhaseFaultClear_early {s : State} (h : s.phase.cleanPictures < 64) : execPhaseFaultClear s = .next s :=
  if_neg fun hc => Nat.not_le.2 h hc.2

theorem maskOff_testBit_cleared (w b : Nat) : (maskOff w (1 <<< b)).testBit b = false := by
  simp [maskOff, Nat.testBit_xor, Nat.testBit_and, Nat.testBit_shiftLeft]

theorem flag_clearFlag_same {s : State} {k : Nat} (b : Nat) (hwf : assocWf defaultOf s.regs = true) :
    flag (clearFlag s k b) k b = false := by
  rw [flag, clearFlag, regGet_regPut_same _ _ _ hwf, Nat.testBit_mod_two_pow, maskOff_testBit_cleared, Bool.and_false]

/-- Settles O21: one branch for a descriptor that agrees, one for one that differs; the phase fault clears at its count. -/
theorem descriptorAndPhaseFlags : Obligations.DescriptorAndPhaseFlags := by
  refine ⟨fun u l d s => ?_, fun s hfault => ⟨fun hclean => ?_, execPhaseFaultClear_early⟩⟩
  · refine ⟨_, execPictureDescriptorRx_eq u l d s, ?_⟩
    have hok := descriptorNoted_ok u l d s
    split
    next hsame =>
      refine ⟨hok, fun _ => rfl, fun hdiffers hactive _ => ?_, rfl⟩
      rw [← hok, hdiffers] at hsame
      exact absurd hactive (hsame.resolve_left Bool.false_ne_true)
    next hdiffers =>
      refine ⟨hok, fun h => absurd (.inl (hok.symm.trans h)) hdiffers, fun _ _ hwf => ?_, ?_⟩
      · exact flag_setFlag_same (s := descriptorNoted u l d s) hwf (by decide)
      · exact ((Only.refl [.regs, .links] s).step (l' := [.links]) (.of_eq rfl) |>.step (setFlag_only ..)).eq
  · refine ⟨_, if_pos ⟨hfault, hclean⟩, rfl, fun hwf => ?_, rfl⟩
    exact flag_clearFlag_same (s := { s with phase := { s.phase with fault := false } }) 31 hwf

end Sys2Proof.Machine
end

section
/-! PROOF. Ports and addresses (08_network.md R187, R189, R193 to R198): frames received, links that come and go, addresses asked for
and aged. -/

namespace Sys2Proof.Machine

set_option Elab.async false

theorem exec_portLinkUp (p : PortId) (s : State) : exec (.portLinkUp p) s = execPortLinkUp p s := rfl

theorem exec_portLinkDown (p : PortId) (s : State) : exec (.portLinkDown p) s = .next (linkDown s p) := rfl

theorem exec_arpRetry (p : PortId) (ip : Nat) (s : State) : exec (.arpRetry p ip) s = execArpRetry p ip s := rfl

theorem exec_arpRefresh (p : PortId) (ip : Nat) (s : State) : exec (.arpRefresh p ip) s = execArpRefresh p ip s := rfl

theorem exec_addressAgeing (mac : Nat) (s : State) : exec (.addressAgeing mac) s = execAddressAgeing mac s := rfl

theorem exec_frameRx (p : PortId) (f : Frame) (s : State) : exec (.frameRx p f) s = execFrameRx p f s := rfl

/-! ## Links -/

/-- Of the ports only p may change, and it only in the datagrams that it keeps. -/
structure OnlyRefused (p : PortId) (s t : State) : Prop where
  others : ∀ q, q ≠ p → t.ports.get q = s.ports.get q
  same : t.ports.get p = { s.ports.get p with refused := (t.ports.get p).refused }

namespace OnlyRefused

theorem refl (p : PortId) (s : State) : OnlyRefused p s s := ⟨fun _ _ => rfl, rfl⟩

theorem of_ports {p : PortId} {s t : State} (h : t.ports = s.ports) : OnlyRefused p s t :=
  ⟨fun _ _ => by rw [h], by rw [h]⟩

theorem trans {p : PortId} {s t v : State} (h : OnlyRefused p s t) (h' : OnlyRefused p t v) : OnlyRefused p s v := by
  refine ⟨fun q hq => (h'.others q hq).trans (h.others q hq), ?_⟩
  rw [h'.same, h.same]

end OnlyRefused

theorem keepDatagram_onlyRefused (s : State) (p : PortId) (pk : Packet) : OnlyRefused p s (keepDatagram s p pk) := by
  refine ⟨fun q hq => vmod_get_other _ _ _ _ hq, ?_⟩
  rw [show (keepDatagram s p pk).ports.get p = { s.ports.get p with refused := (s.ports.get p).refused ++ [pk] } from vmod_get_same ..]

theorem offerDatagram_onlyRefused (s : State) (p : PortId) (pk : Packet) : OnlyRefused p s (offerDatagram s p pk) := by
  unfold offerDatagram
  split
  · exact keepDatagram_onlyRefused ..
  · split
    · exact .of_ports ((enqueue_only ..).part .ports (by decide))
    · have hrefuse : OnlyRefused p s (refuseFlow s (endpointFlow p)) := .of_ports ((refuseFlow_only ..).part .ports (by decide))
      exact hrefuse.trans (keepDatagram_onlyRefused ..)

theorem sendReport_onlyRefused (s : State) (p : PortId) (groups : List Nat) : OnlyRefused p s (sendReport s p groups) := by
  unfold sendReport
  split
  · exact .refl ..
  · exact offerDatagram_onlyRefused ..

theorem announcePort_onlyRefused (s : State) (p : PortId) : OnlyRefused p s (announcePort s p) := by
  unfold announcePort
  split
  · exact (offerDatagram_onlyRefused ..).trans (sendReport_onlyRefused ..)
  · exact .refl ..

/-- A port whose link has come up, before it announces itself. -/
def linkedPort (s : State) (p : PortId) : State :=
  { s with ports := vmod s.ports p fun x =>
      { x with up := true, fecLocked := fecOn s p, lanes := 0xFFFFF, pcs := pcsLock s true x.pcs } }

theorem linkedPort_same (s : State) (p : PortId) : (linkedPort s p).ports.get p =
    { s.ports.get p with up := true, fecLocked := fecOn s p, lanes := 0xFFFFF, pcs := pcsLock s true (s.ports.get p).pcs } :=
  vmod_get_same ..

theorem linkDown_same (s : State) (p : PortId) : (linkDown s p).ports.get p =
    { s.ports.get p with up := false, fecLocked := false, lanes := 0, pcs := pcsLock s false (s.ports.get p).pcs } :=
  vmod_get_same ..

theorem pcsLock_locked (s : State) (up : Bool) (x : Pair PortPcs) (u : UnitId) :
    ((pcsLock s up x).get u).locked = (up && decide ((s.boot.get u).mode = .booted)) := by
  cases u <;> rfl

/-- Settles O23: a link that comes up is announced, which changes only what the port keeps. -/
theorem portLinksComeAndGo : Obligations.PortLinksComeAndGo := by
  intro p s
  constructor
  · have hannounce := announcePort_onlyRefused (linkedPort s p) p
    have hport := hannounce.same
    rw [linkedPort_same] at hport
    refine ⟨announcePort (linkedPort s p) p, exec_portLinkUp p s, (congrArg Port.up hport).trans rfl,
      (congrArg Port.lanes hport).trans rfl, (congrArg Port.fecLocked hport).trans rfl, fun u => ?_, fun q hq => ?_, ?_⟩
    · rw [hport]
      exact (pcsLock_locked s true _ u).trans (Bool.true_and _)
    · exact (hannounce.others q hq).trans (vmod_get_other _ _ _ _ hq)
    · have hlinked : Only [.regs, .overflow, .ports, .flows, .counts] s (linkedPort s p) := .of_eq rfl
      exact (hlinked.step (announcePort_only ..)).eq
  · have hport := linkDown_same s p
    refine ⟨linkDown s p, exec_portLinkDown p s, (congrArg Port.up hport).trans rfl, (congrArg Port.lanes hport).trans rfl,
      fun u => ?_, fun q hq => vmod_get_other _ _ _ _ hq, rfl, ?_⟩
    · rw [hport]
      exact (pcsLock_locked s false _ u).trans (Bool.false_and _)
    · exact ((Only.refl [.regs, .overflow, .ports, .flows, .counts] s).step (linkDown_only s p)).eq

/-! ## Addresses -/

/-- Both caches note that an address is asked for now. -/
def arpAsked (s : State) (p : PortId) (ip : Nat) : State :=
  { s with bridge := ⟨arpAsk s.bridge.a p ip s.now, arpAsk s.bridge.b p ip s.now⟩ }

theorem arpAsk_asked (b : BridgeState) (p : PortId) (ip now : Nat) :
    ∃ e ∈ (arpAsk b p ip now).arp, e.port = p ∧ e.ip = ip ∧ e.askedAt = now := by
  unfold arpAsk
  split
  next hany =>
    obtain ⟨e, he, hmatch⟩ := List.any_eq_true.1 hany
    have hmatch : e.port = p ∧ e.ip = ip := of_decide_eq_true hmatch
    exact ⟨{ e with askedAt := now }, List.mem_map.2 ⟨e, he, if_pos hmatch⟩, hmatch.1, hmatch.2, rfl⟩
  · exact ⟨⟨p, ip, none, now⟩, List.mem_append_right _ (List.mem_singleton.2 rfl), rfl, rfl, rfl⟩

theorem arpSend_only (s : State) (p : PortId) (ip : Nat) : Only [.regs, .bridge, .ports, .flows, .counts] s (arpSend s p ip) := by
  have hasked : Only [.regs, .bridge, .ports, .flows, .counts] s (arpAsked s p ip) := .of_eq rfl
  exact hasked.step (endpointSend_only ..)

theorem arpSend_asks (s : State) (p : PortId) (ip : Nat) (u : UnitId) :
    ∃ e ∈ ((arpSend s p ip).bridge.get u).arp, e.port = p ∧ e.ip = ip ∧ e.askedAt = s.now := by
  have hbridge : (arpSend s p ip).bridge = (arpAsked s p ip).bridge := (endpointSend_only (arpAsked s p ip) ..).part .bridge (by decide)
  rw [hbridge]
  cases u <;> exact arpAsk_asked ..

theorem execArpRetry_due {s : State} {p : PortId} {ip : Nat} (hactive : activeUnit s = true) (hneeds : needsAddress s p ip = true)
    (h : arpEntry s p ip = none ∨ ∃ e, arpEntry s p ip = some e ∧ e.mac = none ∧ e.askedAt + cyclesPerSec ≤ s.now) :
    execArpRetry p ip s = .next (arpSend s p ip) := by
  rw [execArpRetry, if_pos ⟨hactive, hneeds⟩]
  rcases h with h | ⟨e, h, hmac, hdue⟩
  · simp only [h]
  · simp only [h]
    exact if_pos ⟨Option.isNone_iff_eq_none.2 hmac, hdue⟩

theorem execArpRefresh_due {s : State} {p : PortId} {ip : Nat} {e : ArpEntry} (h : arpEntry s p ip = some e)
    (hactive : activeUnit s = true) (hmac : e.mac.isSome = true) (hdue : e.askedAt + 60 * cyclesPerSec ≤ s.now) :
    execArpRefresh p ip s = .next (arpSend s p ip) := by
  simp only [execArpRefresh, h]
  exact if_pos ⟨hactive, hmac, hdue⟩

theorem mem_ageIn {b : BridgeState} {mac now limit : Nat} {e : Learned} :
    e ∈ (ageIn b mac now limit).learned ↔ e ∈ b.learned ∧ ¬ (e.mac = mac ∧ e.seenAt + limit ≤ now) := by
  rw [ageIn, List.mem_filter]
  refine and_congr_right fun _ => ?_
  rw [Bool.not_eq_true', Bool.and_eq_false_iff, beq_eq_false_iff_ne, decide_eq_false_iff_not, not_and_or]

/-- Settles O24: an address is asked for where it is due, in both caches; ageing filters what was learned. -/
theorem addressesAreAskedAndAged : Obligations.AddressesAreAskedAndAged := by
  refine ⟨fun p ip s hactive hneeds h => ?_, fun p ip e s h hactive hmac hdue => ?_, fun mac s => ?_⟩
  · exact ⟨_, execArpRetry_due hactive hneeds h, arpSend_asks s p ip, (arpSend_only s p ip).eq⟩
  · exact ⟨_, execArpRefresh_due h hactive hmac hdue, arpSend_asks s p ip, (arpSend_only s p ip).eq⟩
  · refine ⟨_, rfl, fun u e => ?_, fun u => ?_, rfl⟩
    · cases u <;> exact mem_ageIn
    · cases u <;> rfl

/-! ## Received frames -/

/-- The parts that a frame delivered to the endpoint may change, by its body. -/
def bodyParts : FrameBody → List StatePart
  | .rtp _ => [.regs, .overflow, .emcy, .log, .ret, .relay, .counts]
  | .ptpMetadata _ => [.time, .counts]
  | _ => [.regs, .ports, .flows, .counts, .bridge]

theorem endpointDiscard_only (s : State) (p : PortId) : Only [.counts] s (endpointDiscard s p) := countPort_only ..

theorem arpLearnBoth_only (s : State) (p : PortId) (ip mac : Nat) : Only [.bridge] s (arpLearnBoth s p ip mac) := .of_eq rfl

/-- A packet that a feed in progress takes: with a unit active its faults wait for the arbiter. -/
theorem takeRtp_feed (s : State) (r : RtpPacket) : FeedStep s (takeRtp s r) := by
  unfold takeRtp
  split
  · exact ((ActiveStep.refl _ s).ret _).trans (takePacket_feed ..)
  · refine .ite ?_ (.ite (.ite (.refl _ s) ((ActiveStep.refl _ s).ret _)) (.refl _ s))
    exact (((ActiveStep.refl _ s).ret _).trans (takePacket_feed ..)).trans (drainHeld_feed ..)

theorem returnPacket_feed (s : State) (p : PortId) (len : Nat) (r : RtpPacket) : FeedStep s (returnPacket s p len r) :=
  ((ActiveStep.ite (((ActiveStep.refl _ s).ret _).trans (outOfLimits_feed _)) ((ActiveStep.refl _ s).ret _))).trans (takeRtp_feed ..)

theorem endpointTake_only (s : State) (p : PortId) (f : Frame) : Only (bodyParts f.body) s (endpointTake s p f) := by
  have hdiscard : Only (bodyParts f.body) s (endpointDiscard s p) :=
    (endpointDiscard_only s p).mono fun q hq => by
      rw [List.mem_singleton.1 hq]
      cases f.body <;> simp [bodyParts]
  unfold endpointTake
  refine .ite (fun _ => hdiscard) fun _ => ?_
  revert hdiscard
  cases f.body with
  | arpRequest mac ip target =>
    intro _
    have hlearn := (Only.refl [.regs, .ports, .flows, .counts, .bridge] s).step (arpLearnBoth_only s p ip mac)
    exact .ite (fun _ => hlearn.step (endpointSend_only ..)) fun _ => hlearn
  | arpReply mac ip target => exact fun _ => (Only.refl [.regs, .ports, .flows, .counts, .bridge] s).step (arpLearnBoth_only ..)
  | icmpEcho ident seq data =>
    exact fun _ => .ite (fun _ => (Only.refl [.regs, .ports, .flows, .counts, .bridge] s).step (endpointSend_only ..)) fun _ => .refl ..
  | igmpQuery g => exact fun _ => (Only.refl [.regs, .ports, .flows, .counts, .bridge] s).step (sendReport_only ..)
  | ptp e c => exact fun _ => .refl ..
  | ptpMetadata v => exact fun _ => .ite (fun _ => .of_eq rfl) fun _ => .refl ..
  | datagram d => exact fun _ => .refl ..
  | rtp r =>
    refine fun hdiscard => .ite (fun _ => .ite (fun hactive => ?_) fun _ => .refl ..) fun _ => hdiscard
    exact (Only.refl [.regs, .overflow, .emcy, .log, .ret, .relay, .counts] s).step ((returnPacket_feed s p f.len r).active hactive).1
  | flowControl => exact id
  | other => exact id

/-- What the bridge has learned stays; resolved addresses may change. -/
structure LearnedKept (s t : State) : Prop where
  learned : ∀ u, (t.bridge.get u).learned = (s.bridge.get u).learned

theorem LearnedKept.trans {s t v : State} (h : LearnedKept s t) (h' : LearnedKept t v) : LearnedKept s v :=
  ⟨fun u => (h'.learned u).trans (h.learned u)⟩

theorem LearnedKept.of_only {l : List StatePart} {s t : State} (h : Only l s t) (hl : StatePart.bridge ∉ l := by decide) :
    LearnedKept s t :=
  ⟨fun u => by rw [show t.bridge = s.bridge from h.part .bridge hl]⟩

theorem LearnedKept.refl (s : State) : LearnedKept s s := ⟨fun _ => rfl⟩

theorem arpLearnBoth_learned (s : State) (p : PortId) (ip mac : Nat) : LearnedKept s (arpLearnBoth s p ip mac) := by
  refine ⟨fun u => ?_⟩
  cases u <;> rfl

theorem endpointTake_learned (s : State) (p : PortId) (f : Frame) : LearnedKept s (endpointTake s p f) := by
  have honly := endpointTake_only s p f
  revert honly
  unfold endpointTake
  split
  · exact fun _ => .of_only (endpointDiscard_only ..)
  · cases f.body with
    | arpRequest mac ip target =>
      intro _
      dsimp only
      split
      · exact (arpLearnBoth_learned ..).trans (.of_only (endpointSend_only ..))
      · exact arpLearnBoth_learned ..
    | arpReply mac ip target => exact fun _ => arpLearnBoth_learned ..
    | icmpEcho ident seq data =>
      intro _
      dsimp only
      split
      · exact .of_only (endpointSend_only ..)
      · exact .refl s
    | igmpQuery g => exact fun _ => .of_only (sendReport_only ..)
    | ptp e c => exact fun _ => .refl s
    | ptpMetadata v => exact fun honly => .of_only honly (by simp [bodyParts])
    | datagram d => exact fun _ => .refl s
    | rtp r => exact fun honly => .of_only honly (by simp [bodyParts])
    | flowControl => exact fun _ => .of_only (endpointDiscard_only ..)
    | other => exact fun _ => .of_only (endpointDiscard_only ..)

/-! ### Forwarding -/

theorem drainOne_only (s : State) (w : Waiting) : Only [.flows] s (drainOne s w).1 := by
  have hfold : ∀ (l : List PortId) (x : State × List PortId), Only [.flows] s x.1 → Only [.flows] s (l.foldl (fun x q =>
      if flowTakes x.1 (bridgedFlow q) [w.packet] then (enqueue x.1 (bridgedFlow q) [w.packet], x.2)
      else (x.1, x.2 ++ [q])) x).1 := by
    intro l
    induction l with
    | nil => exact fun _ h => h
    | cons q l ih =>
      intro x h
      rw [List.foldl_cons]
      refine ih _ ?_
      split
      · exact h.trans (enqueue_only ..)
      · exact h
  exact hfold _ _ (.refl ..)

theorem drainList_only (s : State) (l : List Waiting) (held : List PortId) : Only [.flows] s (drainList s l held).1 := by
  induction l generalizing s held with
  | nil => exact .refl ..
  | cons w l ih => exact (drainOne_only ..).trans (ih ..)

theorem drainReceive_only (s : State) (p : PortId) : Only [.flows, .ports] s (drainReceive s p) :=
  ((Only.refl _ s).step (drainList_only ..)).step (l' := [.ports]) (.of_eq rfl)

theorem forward_only (s : State) (p : PortId) (f : Frame) (out : List PortId) :
    Only [.regs, .ports, .flows, .counts] s (forward s p f out) := by
  refine .ite (fun _ => .refl ..) fun _ => .ite (fun _ => (Only.refl _ s).step (countPort_only ..)) fun _ => ?_
  have hdrain : ∀ x : Port → Port, Only [.regs, .ports, .flows, .counts] s (drainReceive { s with ports := vmod s.ports p x } p) :=
    fun x => ((Only.refl _ s).step (l' := [.ports]) (.of_eq rfl)).step (drainReceive_only ..)
  dsimp only
  split
  · exact .ite (fun _ => (hdrain _).step (forEach_only (fun t q => refuseFlow_only t _) _ _)) fun _ => hdrain _
  · exact hdrain _

/-! ### The bridge learns -/

theorem learnSource_only (s : State) (p : PortId) (mac : Nat) : Only [.regs, .overflow, .bridge] s (learnSource s p mac) := by
  refine .ite (fun _ => ?_) fun _ => .refl ..
  have hfull : ∀ c : Bool, Only [.regs, .overflow, .bridge] s (if c then bump s (key 0x2400 4) else s) := fun c =>
    .ite (fun _ => (Only.refl _ s).step (bump_only ..)) fun _ => .refl ..
  exact (hfull _).step (l' := [.bridge]) (.of_eq rfl)

theorem learnIn_learned {b : BridgeState} {mac : Nat} (now : Nat) (p : PortId)
    (h : b.learned.length < 4096 ∨ (b.learned.any fun e => e.mac == mac) = true) :
    ∃ e ∈ (learnIn b mac now p).learned, e.mac = mac ∧ e.port = p ∧ e.seenAt = now := by
  unfold learnIn
  split
  next hany =>
    obtain ⟨e, he, hmac⟩ := List.any_eq_true.1 hany
    have hmac : e.mac = mac := eq_of_beq hmac
    exact ⟨{ e with port := p, seenAt := now }, List.mem_map.2 ⟨e, he, if_pos hmac⟩, hmac, rfl, rfl⟩
  next hany =>
    rw [if_pos (h.resolve_right hany)]
    exact ⟨⟨mac, p, now⟩, List.mem_append_right _ (List.mem_singleton.2 rfl), rfl, rfl, rfl⟩

theorem learnSource_learns {s : State} {p : PortId} {mac : Nat} (hmember : isMember s p = true) (hon : cfg s (key 0x2400 1) = 1)
    (u : UnitId) (h : (s.bridge.get u).learned.length < 4096 ∨ ((s.bridge.get u).learned.any fun e => e.mac == mac) = true) :
    ∃ e ∈ ((learnSource s p mac).bridge.get u).learned, e.mac = mac ∧ e.port = p ∧ e.seenAt = s.now := by
  have hbump : ∀ c : Bool, (if c then bump s (key 0x2400 4) else s).bridge = s.bridge ∧ (if c then bump s (key 0x2400 4) else s).now = s.now :=
    fun c => by split <;> exact ⟨by simp, by simp⟩
  unfold learnSource
  rw [if_pos ⟨hmember, hon⟩]
  dsimp only
  simp only [(hbump _).1, (hbump _).2]
  cases u <;> exact learnIn_learned _ _ h

/-! ### A frame's way -/

/-- The parts that a good frame of a member port may change. -/
def frameParts (b : FrameBody) : List StatePart := [.regs, .overflow, .bridge, .counts, .ports, .flows] ++ bodyParts b

section
variable {s : State} {p : PortId} {f : Frame}

/-- The bridge has learned the source of a frame, and a frame that no rule takes is counted. -/
def frameLearned (s : State) (p : PortId) (f : Frame) : State :=
  if (routeOf s p f).counted then countPort (learnSource s p f.src) p 0x12 1 else learnSource s p f.src

/-- The frame has been delivered to the endpoint where its route says so. -/
def frameTaken (s : State) (p : PortId) (f : Frame) : State :=
  if (routeOf s p f).endpoint then toEndpoint (frameLearned s p f) p f else frameLearned s p f

theorem routeFrame_learning (hbody : f.body ≠ .flowControl) (hdst : f.dst / 16 ≠ 0x0180C200000)
    (hsrc : s.flash.limit.macs.toList.contains f.src = false) :
    routeFrame s p f = forward (frameTaken s p f) p f (routeOf s p f).ports := by
  have hours : ¬ (f.dst / 16 = 0x0180C200000 ∨ s.flash.limit.macs.toList.contains f.src = true) := by
    rw [hsrc]
    exact not_or.2 ⟨hdst, Bool.false_ne_true⟩
  simp only [routeFrame, if_neg hbody, if_neg hours]
  rfl

theorem frameLearned_only (s : State) (p : PortId) (f : Frame) : Only [.regs, .overflow, .bridge, .counts] s (frameLearned s p f) := by
  have hlearn : Only [.regs, .overflow, .bridge, .counts] s (learnSource s p f.src) := (Only.refl _ s).step (learnSource_only ..)
  exact .ite (fun _ => hlearn.step (countPort_only ..)) fun _ => hlearn

theorem toEndpoint_only (s : State) (p : PortId) (f : Frame) : Only (.counts :: bodyParts f.body) s (toEndpoint s p f) :=
  .ite (fun _ => (endpointTake_only s p f).mono fun _ => List.mem_cons_of_mem _) fun _ =>
    (endpointDiscard_only s p).mono fun _ hq => List.mem_singleton.1 hq ▸ List.mem_cons_self ..

theorem frameRouted_only (s : State) (p : PortId) (f : Frame) (out : List PortId) :
    Only (frameParts f.body) s (forward (frameTaken s p f) p f out) := by
  have hlearned : Only (frameParts f.body) s (frameLearned s p f) :=
    (frameLearned_only s p f).mono fun q hq => List.mem_append_left _ (by revert q; decide)
  have htaken : Only (frameParts f.body) s (frameTaken s p f) := by
    refine .ite (fun _ => hlearned.trans ((toEndpoint_only ..).mono fun q hq => ?_)) fun _ => hlearned
    rcases List.mem_cons.1 hq with rfl | hq
    · exact List.mem_append_left _ (by decide)
    · exact List.mem_append_right _ hq
  exact htaken.trans ((forward_only ..).mono fun q hq => List.mem_append_left _ (by revert q; decide))

theorem frameRouted_learned (s : State) (p : PortId) (f : Frame) (out : List PortId) :
    LearnedKept (learnSource s p f.src) (forward (frameTaken s p f) p f out) := by
  have hlearned : LearnedKept (learnSource s p f.src) (frameLearned s p f) := by
    unfold frameLearned
    split
    · exact .of_only (countPort_only ..)
    · exact .refl _
  have htaken : LearnedKept (frameLearned s p f) (frameTaken s p f) := by
    unfold frameTaken toEndpoint
    split
    · split
      · exact endpointTake_learned ..
      · exact .of_only (endpointDiscard_only ..)
    · exact .refl _
  exact (hlearned.trans htaken).trans (.of_only (forward_only ..))

/-- A frame as its port has counted it. -/
def frameCounted (s : State) (p : PortId) (f : Frame) : State := countPort (countPort s p 0x0E 1) p 0x0F f.len

theorem execFrameRx_bad (hserves : portServes s p = true) (h : f.fcsOk = false ∨ f.len < 64 ∨ s.flash.limit.frameLimit.get p < f.len) :
    execFrameRx p f s = .next (countPort (frameCounted s p f) p 0x11 1) := by
  have hbad : ¬ f.fcsOk = true ∨ f.len < 64 ∨ s.flash.limit.frameLimit.get p < f.len := by
    rw [Bool.not_eq_true]
    exact h
  rw [execFrameRx, if_pos hserves]
  dsimp only
  rw [if_pos hbad, ← frameCounted]

theorem execFrameRx_good (hserves : portServes s p = true) (hfcs : f.fcsOk = true) (hmin : 64 ≤ f.len)
    (hmax : f.len ≤ s.flash.limit.frameLimit.get p) (hmeter : meterOf s p f = none) :
    execFrameRx p f s = .next (routeFrame (frameCounted s p f) p f) := by
  have hgood : ¬ (¬ f.fcsOk = true ∨ f.len < 64 ∨ s.flash.limit.frameLimit.get p < f.len) := by
    rw [hfcs]
    exact not_or.2 ⟨not_not_intro rfl, not_or.2 ⟨Nat.not_lt.2 hmin, Nat.not_lt.2 hmax⟩⟩
  have hmeter' : meterFrame (frameCounted s p f) p f = (frameCounted s p f, true) := by
    rw [meterFrame, show meterOf (frameCounted s p f) p f = none from hmeter]
  rw [execFrameRx, if_pos hserves]
  dsimp only
  rw [if_neg hgood, ← frameCounted, hmeter']
  rfl

end

/-- Settles O22: Table 8-3 rule by rule; after the bridge has learned the source nothing unlearns it. -/
theorem receivedFramesCountAndTeach : Obligations.ReceivedFramesCountAndTeach := by
  intro p f s
  refine ⟨fun hserves => if_neg (by rw [hserves]; decide), fun hserves hbad => execFrameRx_bad hserves hbad,
    fun hserves hfcs hmin hmax hmeter => ⟨fun hbody => ?_, fun hbody hmember hon hdst hsrc => ?_⟩⟩
  · rw [exec_frameRx, execFrameRx_good hserves hfcs hmin hmax hmeter, routeFrame, if_pos hbody]
    rfl
  · have honly : Only (frameParts f.body) s (forward (frameTaken (frameCounted s p f) p f) p f (routeOf (frameCounted s p f) p f).ports) :=
      .trans (t := frameCounted s p f) (.mono (l := [.counts]) (.of_eq rfl) fun q hq => List.mem_append_left _ (by revert q; decide))
        (frameRouted_only ..)
    refine ⟨_, (execFrameRx_good hserves hfcs hmin hmax hmeter).trans (congrArg _ (routeFrame_learning hbody hdst hsrc)),
      fun u hroom => ?_, honly.part .meters ?_, honly.part .dram ?_, honly.part .dict ?_, honly.part .chans ?_,
      honly.part .streams ?_, fun hmeta => honly.part .time ?_, fun hrtp => ⟨honly.part .ret ?_, honly.part .relay ?_,
        honly.part .emcy ?_, honly.part .log ?_⟩⟩
    · rw [(frameRouted_learned _ p f _).learned u]
      exact learnSource_learns (s := frameCounted s p f) hmember hon u hroom
    all_goals cases hb : f.body <;> simp_all [frameParts, bodyParts]

end Sys2Proof.Machine
end

section
/-! PROOF. TB1 (10_time.md R241, R245, R246): its picture starts, its period, and the picture that the monitor output then sends. -/

namespace Sys2Proof.Machine

set_option Elab.async false

theorem exec_tb1PictureStart (s : State) : exec .tb1PictureStart s = execTb1PictureStart s := rfl

/-! ## The period -/

/-- The period in use lies within ±50 ppm of nominal (R246). -/
theorem tb1PeriodNow_bounds (s : State) :
    tb1Nominal s - tb1Nominal s * 50 / 1000000 ≤ tb1PeriodNow s ∧ tb1PeriodNow s ≤ tb1Nominal s + tb1Nominal s * 50 / 1000000 := by
  unfold tb1PeriodNow
  dsimp only
  generalize tb1Nominal s * 50 / 1000000 = off
  split <;> omega

/-- The next period keeps both limits where the last one keeps the first. -/
theorem tb1Clamp_bounds {n old : Nat} (step target : Nat) (hlow : n - n * 50 / 1000000 ≤ old) (hhigh : old ≤ n + n * 50 / 1000000) :
    (n - n * 50 / 1000000 ≤ tb1Clamp n old step target ∧ tb1Clamp n old step target ≤ n + n * 50 / 1000000) ∧
      tb1Clamp n old step target ≤ old + step ∧ old ≤ tb1Clamp n old step target + step := by
  unfold tb1Clamp
  dsimp only
  generalize n * 50 / 1000000 = off at hlow hhigh ⊢
  omega

/-! ## The monitor output -/

theorem monitorSend_only (s : State) (m : MonPicture) (id : Option Int) (f : MonFrame) :
    Only [.regs, .overflow, .mon] s (monitorSend s m id f) := by
  have hflag : ∀ (c : Prop) [Decidable c], Only [.regs, .overflow, .mon] s
      (if c then setFlag (bump s (kMonitor 6)) (kMonitor 5) 30 else bump s (kMonitor 6)) := fun c _ =>
    .ite (fun _ => ((Only.refl _ s).step (bump_only ..)).step (setFlag_only ..)) fun _ => (Only.refl _ s).step (bump_only ..)
  exact (hflag _).step (l' := [.mon]) (.of_eq rfl)

theorem monitorRepeat_only (s : State) (id : Option Int) : Only [.regs, .overflow, .mon] s (monitorRepeat s id) :=
  .ite (fun _ => .refl ..) fun _ => (monitorSend_only ..).step (bump_only ..)

theorem monitorShow_only (s : State) (src : Nat) : Only [.regs, .overflow, .mon] s (monitorShow s src) := by
  unfold monitorShow
  dsimp only
  split
  · exact .ite (fun _ => monitorSend_only ..) fun _ => monitorRepeat_only ..
  · have hgrey : Only [.regs, .overflow, .mon] s { s with mon := { s.mon with grey := false } } := .of_eq rfl
    exact (hgrey.step (monitorSend_only ..)).step (bumpBy_only ..)

theorem monitorPattern_only (s : State) (refused : Bool) : Only [.regs, .overflow, .mon] s (monitorPattern s refused) :=
  ((Only.refl _ s).step (putFlag_only ..)).step (monitorSend_only ..)

theorem monitorPicture_only (s : State) : Only [.regs, .overflow, .mon] s (monitorPicture s) := by
  have hup : Only [.regs, .overflow, .mon] s { s with mon := bringUp s } := .of_eq rfl
  refine .ite (fun _ => ?_) fun _ => .ite (fun _ => hup.step (monitorPattern_only ..)) fun _ =>
    (hup.step (clearFlag_only ..)).step (monitorShow_only ..)
  exact (hup.step (clearFlag_only ..)).step (l' := [.mon]) (.of_eq rfl)

theorem monitorPattern_last (s : State) (refused : Bool) :
    (monitorPattern s refused).mon.last = .pattern (cfg s (kMonitor 3) / 65536) (cfg s (kMonitor 3) % 65536) := rfl

/-- Source 3 is the test pattern (06_decoders.md R154). -/
theorem monitorPicture_pattern {s : State} (h : cfg s (kMonitor 1) = 3) :
    (monitorPicture s).mon.last = .pattern (cfg s (kMonitor 3) / 65536) (cfg s (kMonitor 3) % 65536) := by
  have h' : cfg { s with mon := bringUp s } (kMonitor 1) = 3 := h
  unfold monitorPicture
  dsimp only
  rw [if_neg (by rw [h']; decide), if_pos (.inl h')]
  exact monitorPattern_last ..

/-! ## A picture start -/

theorem tb1Advance_only (s : State) : Only [.regs, .time] s (tb1Advance s) := by
  refine Only.step (l' := [.regs]) ?_ (putFlag_only ..)
  exact .of_eq rfl

/-- What the picture start makes of the time bases: its flag is a register's. -/
theorem tb1Advance_time (s : State) : (tb1Advance s).time = { s.time with
    tb1Start := tb1Due s
    tb1Period := tb1Clamp (tb1Nominal s) (tb1PeriodNow s) (tb1Step (tb1Nominal s) (tb1PeriodNow s) s.time.tb1Rest).1
      (tb1Target s (tb1Due s))
    tb1Rest := (tb1Step (tb1Nominal s) (tb1PeriodNow s) s.time.tb1Rest).2
    tb1Index := tb1Number s (tb1Due s)
    tb1Limited := (tb1Advance s).time.tb1Limited
    groupStart := (tb1Advance s).time.groupStart } := by
  unfold tb1Advance
  simp only [show ∀ x k b v, (putFlag x k b v).time = x.time from fun x k b v => (putFlag_only x k b v).part .time (by decide)]

/-- The state after a picture start that has come. -/
def tb1Started (s : State) : State := if (tb1Advance s).relay.active.isSome then monitorPicture (tb1Advance s) else tb1Advance s

theorem tb1Started_only (s : State) : Only [.regs, .overflow, .mon] (tb1Advance s) (tb1Started s) :=
  .ite (fun _ => monitorPicture_only _) fun _ => .refl ..

/-- Settles O17: the clamp of R246 keeps both limits; the monitor output then sends its picture. -/
theorem tb1PeriodStaysWithinLimits : Obligations.Tb1PeriodStaysWithinLimits := by
  refine ⟨fun s hdue => ?_, fun s hearly => if_neg (Nat.not_le.2 hearly)⟩
  have hstarted := tb1Started_only s
  have hadvance := tb1Advance_only s
  have htime : (tb1Started s).time = _ := (hstarted.part .time (by decide)).trans (tb1Advance_time s)
  have hrelay : (tb1Advance s).relay = s.relay := hadvance.part .relay (by decide)
  have hdict : (tb1Advance s).dict = s.dict := hadvance.part .dict (by decide)
  obtain ⟨hnowLow, hnowHigh⟩ := tb1PeriodNow_bounds s
  obtain ⟨⟨hlow, hhigh⟩, hup, hdown⟩ :=
    tb1Clamp_bounds (tb1Step (tb1Nominal s) (tb1PeriodNow s) s.time.tb1Rest).1 (tb1Target s (tb1Due s)) hnowLow hnowHigh
  refine ⟨tb1Started s, if_pos hdue, ?_, ?_, ?_, ?_, ?_, ?_, ?_, fun hnone => ?_, fun hactive hsource => ?_,
    ((Only.refl [.regs, .overflow, .mon, .time] s).step hadvance |>.step hstarted).eq⟩
  · rw [htime]; rfl
  · rw [htime]
  · rw [htime]; exact hlow
  · rw [htime]; exact hhigh
  · rw [htime]; exact hup
  · rw [htime]; exact hdown
  · rw [htime]; rfl
  · have hidle : (tb1Advance s).relay.active.isSome = false := by rw [hrelay, hnone]; rfl
    rw [tb1Started, hidle]
    exact hadvance.part .mon (by decide)
  · have hcfg : ∀ k, cfg (tb1Advance s) k = cfg s k := fun k => by
      unfold cfg written
      rw [hdict]
    have hrun : (tb1Advance s).relay.active.isSome = true := by rw [hrelay]; exact hactive
    rw [tb1Started, if_pos hrun, monitorPicture_pattern ((hcfg _).trans hsource), hcfg]

end Sys2Proof.Machine
end

section
/-! PROOF. Flow queues and the shaper (09_flows.md R217 to R224): packets that enter a flow's queue and leave it for its paths. -/

namespace Sys2Proof.Machine

set_option Elab.async false

theorem exec_shaperAdmit (f : FlowId) (s : State) : exec (.shaperAdmit f) s = .next (admitHead s f) := rfl

/-! ## One flow's queue -/

/-- Of the flows only f may change. -/
structure OnlyFlow (f : FlowId) (s t : State) : Prop where
  others : ∀ g, g ≠ f → t.flows[g] = s.flows[g]

namespace OnlyFlow

variable {f : FlowId} {s t v : State}

theorem refl (f : FlowId) (s : State) : OnlyFlow f s s := ⟨fun _ _ => rfl⟩

theorem trans (h : OnlyFlow f s t) (h' : OnlyFlow f t v) : OnlyFlow f s v := ⟨fun g hg => (h'.others g hg).trans (h.others g hg)⟩

theorem of_flows (h : t.flows = s.flows) : OnlyFlow f s t := ⟨fun _ _ => by rw [h]⟩

theorem of_only {l : List StatePart} (h : Only l s t) (hl : StatePart.flows ∉ l := by decide) : OnlyFlow f s t :=
  of_flows (h.part .flows hl)

theorem mod (s : State) (f : FlowId) (g : Flow → Flow) : OnlyFlow f s { s with flows := vmod s.flows f g } :=
  ⟨fun _ hg => getElem_vmod_other _ _ hg⟩

end OnlyFlow

theorem noteDepth_only (s : State) (f : FlowId) : Only [.flows] s (noteDepth s f) := .ite (fun _ => .of_eq rfl) fun _ => .refl ..

theorem noteDepth_onlyFlow (s : State) (f : FlowId) : OnlyFlow f s (noteDepth s f) := by
  unfold noteDepth
  split
  · exact .mod ..
  · exact .refl ..

/-- The high-water mark alone follows a change of depth. -/
theorem noteDepth_flow (s : State) (f : FlowId) :
    (noteDepth s f).flows[f] = { s.flows[f] with highDepth := (noteDepth s f).flows[f].highDepth } := by
  unfold noteDepth
  split
  · rw [getElem_vmod_same]
  · rfl

/-- A packet as the queue numbers it: the i-th of those that enter together. -/
def numbered (fl : Flow) (i : Nat) (p : Packet) : Packet :=
  { p with seq := (fl.packets + i) % 2 ^ 16, high := (fl.packets + i) / 2 ^ 16 % 2 ^ 16 }

/-- A flow after packets have joined its queue. -/
def joined (l : List Packet) (fl : Flow) : Flow :=
  { fl with queue := fl.queue ++ l.mapIdx (numbered fl), packets := (fl.packets + l.length) % 2 ^ 32, refusing := false }

theorem enqueue_eq (s : State) (f : FlowId) (l : List Packet) :
    enqueue s f l = noteDepth { s with flows := vmod s.flows f (joined l) } f := rfl

theorem enqueue_onlyFlow (s : State) (f : FlowId) (l : List Packet) : OnlyFlow f s (enqueue s f l) := by
  rw [enqueue_eq]
  exact (OnlyFlow.mod s f (joined l)).trans (noteDepth_onlyFlow ..)

theorem enqueue_flow (s : State) (f : FlowId) (l : List Packet) :
    (enqueue s f l).flows[f] = { joined l s.flows[f] with highDepth := (enqueue s f l).flows[f].highDepth } := by
  rw [enqueue_eq, noteDepth_flow, getElem_vmod_same]

/-- Whether a flow takes packets is a matter of that flow, as far as the flows go. -/
theorem flowTakes_congr {s t : State} {f : FlowId} (h : Only [.flows] s t) (hf : t.flows[f] = s.flows[f]) (l : List Packet) :
    flowTakes t f l = flowTakes s f l := by
  have ht : t = { s with flows := t.flows } := h.eq
  generalize t.flows = v at ht hf
  subst ht
  simp only [flowTakes, freeSpace, queueSize, hf]
  rfl

/-! ## Path queues -/

theorem pathOf_setPath_same (fl : Flow) (b : Bool) (x : PathState) : pathOf (setPath fl b x) b = x := by
  cases b <;> rfl

theorem pathOf_setPath_other (fl : Flow) {b c : Bool} (x : PathState) (h : c ≠ b) : pathOf (setPath fl b x) c = pathOf fl c := by
  cases b <;> cases c <;> first | rfl | exact absurd rfl h

theorem setPath_queue (fl : Flow) (b : Bool) (x : PathState) : (setPath fl b x).queue = fl.queue ∧ (setPath fl b x).tokens = fl.tokens := by
  cases b <;> exact ⟨rfl, rfl⟩

/-- A path once a packet has joined its queue. -/
def pushed (s : State) (f : FlowId) (p : PortId) (pk : Packet) (x : PathState) : PathState :=
  let y := if x.queue.isEmpty then stampTags s f p pk x else x
  { y with queue := y.queue ++ [pathCopy s p pk] }

theorem pushed_queue (s : State) (f : FlowId) (p : PortId) (pk : Packet) (x : PathState) :
    (pushed s f p pk x).queue = x.queue ++ [pathCopy s p pk] := by
  unfold pushed
  dsimp only
  split <;> rfl

theorem pathPush_eq (s : State) (f : FlowId) (p : PortId) (b : Bool) (pk : Packet) :
    pathPush s f p b pk = { s with flows := vmod s.flows f fun fl => setPath fl b (pushed s f p pk (pathOf s.flows[f] b)) } := rfl

theorem pathPush_only (s : State) (f : FlowId) (p : PortId) (b : Bool) (pk : Packet) : Only [.flows] s (pathPush s f p b pk) := .of_eq rfl

theorem pathPush_flow (s : State) (f : FlowId) (p : PortId) (b : Bool) (pk : Packet) :
    (pathPush s f p b pk).flows[f] = setPath s.flows[f] b (pushed s f p pk (pathOf s.flows[f] b)) := by
  rw [pathPush_eq, getElem_vmod_same]

/-- The copies of a packet for some paths of its flow. -/
def pushAll (s : State) (f : FlowId) (pk : Packet) (l : List (PortId × Bool)) : State :=
  forEach l (fun y x => pathPush y f x.1 x.2 pk) s

theorem pushAll_only (s : State) (f : FlowId) (pk : Packet) (l : List (PortId × Bool)) : Only [.flows] s (pushAll s f pk l) :=
  forEach_only (fun _ _ => pathPush_only ..) l s

theorem pushAll_onlyFlow (s : State) (f : FlowId) (pk : Packet) (l : List (PortId × Bool)) : OnlyFlow f s (pushAll s f pk l) := by
  induction l generalizing s with
  | nil => exact .refl ..
  | cons x l ih => exact (OnlyFlow.mod s f _).trans (ih (pathPush s f x.1 x.2 pk))

theorem pushAll_flow (s : State) (f : FlowId) (pk : Packet) (l : List (PortId × Bool)) :
    (pushAll s f pk l).flows[f].queue = s.flows[f].queue ∧ (pushAll s f pk l).flows[f].tokens = s.flows[f].tokens := by
  induction l generalizing s with
  | nil => exact ⟨rfl, rfl⟩
  | cons x l ih =>
    obtain ⟨hqueue, htokens⟩ := ih (pathPush s f x.1 x.2 pk)
    obtain ⟨hset, hset'⟩ := setPath_queue s.flows[f] x.2 (pushed s f x.1 pk (pathOf s.flows[f] x.2))
    rw [pathPush_flow] at hqueue htokens
    exact ⟨hqueue.trans hset, htokens.trans hset'⟩

theorem pushAll_path_other (s : State) (f : FlowId) (pk : Packet) {l : List (PortId × Bool)} {b : Bool} (h : b ∉ l.map Prod.snd) :
    pathOf (pushAll s f pk l).flows[f] b = pathOf s.flows[f] b := by
  induction l generalizing s with
  | nil => rfl
  | cons x l ih =>
    obtain ⟨hne, hl⟩ := not_or.1 (mt List.mem_cons.2 h)
    refine (ih (pathPush s f x.1 x.2 pk) hl).trans ?_
    rw [pathPush_flow, pathOf_setPath_other _ _ hne]

/-- Every path given takes its copy, behind what waits there. -/
theorem pushAll_path (s : State) (f : FlowId) (pk : Packet) {l : List (PortId × Bool)} (hl : (l.map Prod.snd).Nodup)
    {x : PortId × Bool} (hx : x ∈ l) :
    (pathOf (pushAll s f pk l).flows[f] x.2).queue = (pathOf s.flows[f] x.2).queue ++ [pathCopy s x.1 pk] := by
  induction l generalizing s with
  | nil => exact absurd hx (List.not_mem_nil)
  | cons y l ih =>
    obtain ⟨hy, hl⟩ := List.nodup_cons.1 hl
    rcases List.mem_cons.1 hx with rfl | hx
    · refine (congrArg PathState.queue (pushAll_path_other (pathPush s f x.1 x.2 pk) f pk hy)).trans ?_
      rw [pathPush_flow, pathOf_setPath_same, pushed_queue]
    · have hne : x.2 ≠ y.2 := fun h => hy (h ▸ List.mem_map_of_mem hx)
      refine (ih (pathPush s f y.1 y.2 pk) hl hx).trans ?_
      rw [pathPush_flow, pathOf_setPath_other _ _ hne]
      rfl

/-! ## Admission (R206, R224) -/

theorem dropCopy_only (s : State) (f : FlowId) : Only [.regs, .overflow] s (dropCopy s f) := by
  have hput : ∀ (c : Prop) [Decidable c] (v : Nat), Only [.regs, .overflow] s (if c then putField s (kTransport f) 29 0 v else s) :=
    fun c _ v => .ite (fun _ => (Only.refl _ s).step (putField_only ..)) fun _ => .refl ..
  exact .ite (fun _ => (hput ..).step (overflowEnter_only ..)) fun _ => hput ..

/-- The paths of a flow are its primary one and at most its secondary one. -/
theorem servingPaths_nodup (s : State) (f : FlowId) : ((servingPaths s f).map Prod.snd).Nodup := by
  have hpaths : ((flowPaths s f).map Prod.snd).Nodup := by
    unfold flowPaths
    cases flowSecondary s f <;> simp
  exact hpaths.sublist (List.filter_sublist.map _)

/-- The head has left the flow's queue and been charged. -/
def headCharged (s : State) (f : FlowId) (pk : Packet) (rest : List Packet) : State :=
  { s with flows := vmod s.flows f fun x => { x with
      queue := rest
      tokens := if flowRate s f = 0 then x.tokens else x.tokens - chargeOf s f pk * 2 ^ 24 } }

/-- The head has joined the queues of its paths; a path that does not serve has lost its copy. -/
def headCopied (s : State) (f : FlowId) (pk : Packet) (rest : List Packet) : State :=
  let t := pushAll (headCharged s f pk rest) f pk (servingPaths s f)
  if (servingPaths s f).length < (flowPaths s f).length then dropCopy t f else t

section
variable {s : State} {f : FlowId} {pk : Packet} {rest : List Packet}

theorem admitHead_empty (h : s.flows[f].queue = []) : admitHead s f = s := by
  simp only [admitHead, h]

theorem admitHead_held (h : s.flows[f].queue = pk :: rest)
    (hheld : s.flows[f].tokens < chargeOf s f pk * 2 ^ 24 ∨ servingPaths s f = []) : admitHead s f = s := by
  have hcond : (servingPaths s f).isEmpty = true ∨ ¬ ((servingPaths s f).all fun x =>
      decide ((pathOf s.flows[f] x.2).queue.length < 4)) = true ∨ s.flows[f].tokens < chargeOf s f pk * 2 ^ 24 :=
    hheld.elim (fun h => .inr (.inr h)) fun h => .inl (List.isEmpty_iff.2 h)
  simp only [admitHead, h]
  exact if_pos hcond

theorem admitHead_admits (h : s.flows[f].queue = pk :: rest) (hlive : servingPaths s f ≠ [])
    (hroom : ((servingPaths s f).all fun x => decide ((pathOf s.flows[f] x.2).queue.length < 4)) = true)
    (htokens : chargeOf s f pk * 2 ^ 24 ≤ s.flows[f].tokens) : admitHead s f = noteDepth (headCopied s f pk rest) f := by
  have hcond : ¬ ((servingPaths s f).isEmpty = true ∨ ¬ ((servingPaths s f).all fun x =>
      decide ((pathOf s.flows[f] x.2).queue.length < 4)) = true ∨ s.flows[f].tokens < chargeOf s f pk * 2 ^ 24) :=
    not_or.2 ⟨fun h => hlive (List.isEmpty_iff.1 h), not_or.2 ⟨not_not_intro hroom, Nat.not_lt.2 htokens⟩⟩
  simp only [admitHead, h]
  exact if_neg hcond

theorem headCopied_flows : (headCopied s f pk rest).flows = (pushAll (headCharged s f pk rest) f pk (servingPaths s f)).flows := by
  unfold headCopied
  dsimp only
  split
  · exact (dropCopy_only ..).part .flows (by decide)
  · rfl

theorem headCharged_flow : (headCharged s f pk rest).flows[f] = { s.flows[f] with
    queue := rest
    tokens := if flowRate s f = 0 then s.flows[f].tokens else s.flows[f].tokens - chargeOf s f pk * 2 ^ 24 } :=
  getElem_vmod_same ..

theorem headCopied_only : Only [.regs, .overflow, .flows] s (headCopied s f pk rest) := by
  have hcharged : Only [.regs, .overflow, .flows] s (headCharged s f pk rest) := .of_eq rfl
  have hpushed := hcharged.step (pushAll_only (headCharged s f pk rest) f pk (servingPaths s f))
  exact .ite (fun _ => hpushed.step (dropCopy_only ..)) fun _ => hpushed

end

/-- Settles O25: the head leaves its queue, is charged once and joins each serving path's queue. -/
theorem shaperAdmitsConformingPackets : Obligations.ShaperAdmitsConformingPackets := by
  refine ⟨fun f pk rest s hqueue => ⟨fun hlive hroom htokens => ?_, fun hheld => ?_⟩, fun f s hempty => ?_⟩
  · have hflows := headCopied_flows (s := s) (f := f) (pk := pk) (rest := rest)
    have hnoted := noteDepth_flow (headCopied s f pk rest) f
    obtain ⟨hq, ht⟩ := pushAll_flow (headCharged s f pk rest) f pk (servingPaths s f)
    rw [← hflows, headCharged_flow] at hq ht
    refine ⟨_, (exec_shaperAdmit f s).trans (congrArg _ (admitHead_admits hqueue hlive hroom htokens)), ?_, ?_, fun x hx => ?_,
      fun g hg => ?_, ?_⟩
    · rw [hnoted]; exact hq
    · rw [hnoted]; exact ht
    · have hpath := pushAll_path (headCharged s f pk rest) f pk (servingPaths_nodup s f) hx
      rw [← hflows, headCharged_flow] at hpath
      have hsame : pathOf (noteDepth (headCopied s f pk rest) f).flows[f] x.2 = pathOf (headCopied s f pk rest).flows[f] x.2 := by
        rw [hnoted]; rfl
      rw [hsame]
      exact hpath
    · have hcharged : OnlyFlow f s (headCharged s f pk rest) := .mod ..
      exact (((hcharged.trans (pushAll_onlyFlow ..)).trans (.of_flows hflows)).trans (noteDepth_onlyFlow ..)).others g hg
    · exact (headCopied_only.step (noteDepth_only ..)).eq
  · rw [exec_shaperAdmit, admitHead_held hqueue hheld]
  · rw [exec_shaperAdmit, admitHead_empty hempty]

end Sys2Proof.Machine
end

section
/-! PROOF. Ports that send and queues that drain (08_network.md R199, R210, R212; 09_flows.md R220, R221, R227). -/

namespace Sys2Proof.Machine

set_option Elab.async false

theorem exec_frameTxStart (p : PortId) (s : State) : exec (.frameTxStart p) s = execFrameTxStart p s := rfl

theorem exec_flowDrained (f : FlowId) (s : State) : exec (.flowDrained f) s = execFlowDrained f s := rfl

theorem exec_tokenReoffer (f : FlowId) (s : State) : exec (.tokenReoffer f) s = execTokenReoffer f s := rfl

theorem exec_receiveBufferEnqueue (p : PortId) (s : State) : exec (.receiveBufferEnqueue p) s = .next (drainReceive s p) := rfl

theorem exec_sessionDescriptionRead (k : Client) (f : FlowId) (s : State) :
    exec (.sessionDescriptionRead k f) s = execSessionDescriptionRead k f s := rfl

/-! ## A frame meets the MAC (R210) -/

section
variable (s : State) (p : PortId) (c : Nat) (f : FlowId) (rounds : Nat) (pk : Packet)

theorem pathPop_only : Only [.flows] s (pathPop s f p rounds) := .of_eq rfl

theorem pathPop_onlyFlow : OnlyFlow f s (pathPop s f p rounds) := .mod ..

theorem addRounds_only : Only [.flows] s (addRounds s p c rounds f) := .ite (fun _ => .refl ..) fun _ => .of_eq rfl

theorem countPacket_only : Only [.counts, .slots, .flows] s (countPacket s f pk) := by
  refine .ite (fun _ => .refl ..) fun _ => ?_
  exact (((Only.refl _ s).step (countUnit_only ..)).step (monitorSample_only ..)).step (l' := [.flows]) (.of_eq rfl)

theorem countSent_only (bytes : Nat) : Only [.counts, .slots, .flows] s (countSent s p f c bytes pk) := by
  have hport : Only [.counts, .slots, .flows] s (countPort (countPort s p 0x0C 1) p 0x0D bytes) :=
    ((Only.refl _ s).step (countPort_only ..)).step (countPort_only ..)
  have hsent := (hport.step (countUnit_only _ (kSched p (7 + c)) none 1)).step (countPacket_only _ f pk)
  exact .ite (fun _ => hsent.step (l' := [.flows]) (.of_eq rfl)) fun _ => hsent

/-- A frame that its port does not send, for its source: counted, and its path goes on. -/
def frameSuppressed : State := pathPop (setFlag (countPort s p 0x17 1) (kPort p 0x0B) 27) f p rounds

theorem sendFrame_suppressed (h : sourceLocked s p pk = true) : sendFrame s p c f rounds pk = frameSuppressed s p f rounds := if_pos h

theorem frameSuppressed_only : Only [.regs, .flows, .counts] s (frameSuppressed s p f rounds) :=
  (((Only.refl _ s).step (countPort_only ..)).step (setFlag_only ..)).step (pathPop_only ..)

theorem frameSuppressed_onlyFlow : OnlyFlow f s (frameSuppressed s p f rounds) := by
  have hcount : Only [.regs, .counts] s (setFlag (countPort s p 0x17 1) (kPort p 0x0B) 27) :=
    ((Only.refl _ s).step (countPort_only ..)).step (setFlag_only ..)
  exact (OnlyFlow.of_only hcount).trans (pathPop_onlyFlow ..)

/-- A frame that waits for its port's ceiling: counted once. -/
def frameHeld : State :=
  if s.ports[p].ceilHeld then s
  else { setFlag (countPort s p 0x15 1) (kPort p 0x0B) 27 with
    ports := vmod (setFlag (countPort s p 0x15 1) (kPort p 0x0B) 27).ports p fun x => { x with ceilHeld := true } }

theorem frameHeld_only : Only [.regs, .ports, .counts] s (frameHeld s p) := by
  refine .ite (fun _ => .refl ..) fun _ => ?_
  exact (((Only.refl _ s).step (countPort_only ..)).step (setFlag_only ..)).step (l' := [.ports]) (.of_eq rfl)

theorem frameHeld_held : ((frameHeld s p).ports.get p).ceilHeld = true := by
  unfold frameHeld
  split
  next h => exact h
  · exact congrArg Port.ceilHeld (vmod_get_same ..)

variable {pk}

theorem sendFrame_held (hlock : sourceLocked s p pk = false) (h : (s.ports.get p).bucket < (frameCut s p pk + 20) * 2 ^ 24) :
    sendFrame s p c f rounds pk = frameHeld s p :=
  (if_neg (by rw [hlock]; decide)).trans (if_pos h)

variable (pk)

/-- What is counted as a frame leaves its path. -/
def frameNoted : State :=
  countSent (pathPop (addRounds (if frameCut s p pk < pk.frame then setFlag (countPort s p 0x16 1) (kPort p 0x0B) 27 else s) p c rounds f)
    f p rounds) p f c (frameCut s p pk) pk

/-- The port as the frame starts on it. -/
def portSending (x : Port) : Port :=
  let bytes := frameCut s p pk
  let header := wireHeader s f p (sideOn s f p) pk
  { x with
    bucket := x.bucket - (bytes + 20) * 2 ^ 24
    ceilHeld := false
    busyUntil := s.now + lineCycles bytes
    lastTx := some { pk with kind := residence s p pk.kind, frame := bytes }
    wire := some ⟨header, pk.payload, bytes, decide (bytes < pk.frame), isEvent s pk.kind,
      if isBridged pk.kind then none else frameFcs header pk.payload bytes (decide (bytes < pk.frame))⟩
    vt := if s.ports[p].creditMode then s.ports[p].vt
      else vmod s.ports[p].vt (finOf 4 (by decide) c) fun _ => (pathOn s f p).startTag
    roundPos := vmod x.roundPos (finOf 4 (by decide) c) fun _ => f.val }

/-- The state after a frame has started. -/
def frameStarted : State :=
  { stampRequest (frameNoted s p c f rounds pk) p pk.kind with
    ports := vmod (stampRequest (frameNoted s p c f rounds pk) p pk.kind).ports p (portSending s p c f pk) }

variable {pk}

theorem sendFrame_starts (hlock : sourceLocked s p pk = false) (h : (frameCut s p pk + 20) * 2 ^ 24 ≤ (s.ports.get p).bucket) :
    sendFrame s p c f rounds pk = frameStarted s p c f rounds pk :=
  (if_neg (by rw [hlock]; decide)).trans (if_neg (Nat.not_lt.2 h))

variable (pk)

theorem frameNoted_only : Only [.regs, .flows, .counts, .slots] s (frameNoted s p c f rounds pk) := by
  have hcut : Only [.regs, .flows, .counts, .slots] s
      (if frameCut s p pk < pk.frame then setFlag (countPort s p 0x16 1) (kPort p 0x0B) 27 else s) :=
    .ite (fun _ => ((Only.refl _ s).step (countPort_only ..)).step (setFlag_only ..)) fun _ => .refl ..
  exact ((hcut.step (addRounds_only ..)).step (pathPop_only ..)).step (countSent_only ..)

theorem stampRequest_only (k : PacketKind) : Only [.time] s (stampRequest s p k) := .ite (fun _ => .of_eq rfl) fun _ => .refl ..

theorem frameStarted_ports : (frameStarted s p c f rounds pk).ports = vmod s.ports p (portSending s p c f pk) := by
  have hports : (stampRequest (frameNoted s p c f rounds pk) p pk.kind).ports = s.ports :=
    ((stampRequest_only _ p pk.kind).part .ports (by decide)).trans ((frameNoted_only ..).part .ports (by decide))
  rw [← hports]
  rfl

theorem frameStarted_time : (frameStarted s p c f rounds pk).time = (stampRequest (frameNoted s p c f rounds pk) p pk.kind).time := rfl

theorem frameStarted_only : Only [.regs, .ports, .flows, .counts, .time, .slots] s (frameStarted s p c f rounds pk) :=
  (((Only.refl _ s).step (frameNoted_only s p c f rounds pk)).step (stampRequest_only _ p pk.kind)).step (l' := [.ports]) (.of_eq rfl)

/-- The stamp of a frame that leaves does not depend on what its port counts. -/
theorem stampOut_frameNoted (u : UnitId) (e : Int) : stampOut (frameNoted s p c f rounds pk) u p e = stampOut s u p e := by
  rw [(frameNoted_only s p c f rounds pk).eq]
  rfl

theorem frameStarted_time_other (h : pk.kind ≠ .delayReq) : (frameStarted s p c f rounds pk).time = s.time := by
  rw [frameStarted_time, stampRequest, if_neg h]
  exact (frameNoted_only ..).part .time (by decide)

theorem frameStarted_request {r : DelayRequest} (h : pk.kind = .delayReq) (hr : s.time.request = some r) (hp : r.port = p) :
    (frameStarted s p c f rounds pk).time.request = some { r with t3 := some (stampOut s (viewUnit s) p r.stampError) } := by
  have hnoted := frameNoted_only s p c f rounds pk
  have htime : (frameNoted s p c f rounds pk).time = s.time := hnoted.part .time (by decide)
  have hview : viewUnit (frameNoted s p c f rounds pk) = viewUnit s := by
    rw [viewUnit, show (frameNoted s p c f rounds pk).relay = s.relay from hnoted.part .relay (by decide)]
    rfl
  rw [frameStarted_time, stampRequest, if_pos h]
  simp only [htime, hr, Option.map_some, if_pos hp, hview, stampOut_frameNoted]

end

section
variable {s : State} {p : PortId}

theorem execFrameTxStart_chosen {c : Nat} {f : FlowId} {rounds : Nat} {pk : Packet} (hcan : canStart s p = true)
    (htop : topClass s p = some c) (hpick : pickFlow s p c = some (f, rounds)) (hhead : headOn s p f = some pk) :
    execFrameTxStart p s = .next (sendFrame s p c f rounds pk) := by
  simp only [execFrameTxStart, hcan, if_true, htop, hpick, hhead]

theorem execFrameTxStart_idle (hcan : canStart s p = false) : execFrameTxStart p s = .next s := if_neg (by rw [hcan]; decide)

end

/-! ## Held tokens (R144, R220) -/

/-- The tokens of a tick that a flow's streams hold. -/
def heldTokens (s : State) (f : FlowId) (k : Nat) : List (BitVec 256) :=
  (tokenStreams s f).flatMap fun n => (s.streams[n].tokenStore.filter fun x => x.1 == k).flatMap fun x => x.2

/-- The streams once the tokens of a tick have left their stores. -/
def tokensLeft (s : State) (f : FlowId) (k : Nat) : Vector Stream 16 :=
  s.streams.mapFinIdx fun i x hi =>
    if (tokenStreams s f).contains ⟨i, hi⟩ then { x with tokenStore := x.tokenStore.filter fun y => y.1 != k } else x

/-- The tokens of the oldest tick enter the flow. -/
def tokensEntered (s : State) (f : FlowId) (k : Nat) : State :=
  { enqueue s f ((tokenPackets s f (heldTokens s f k)).map fun p => { p with entered := k }) with streams := tokensLeft s f k }

theorem execTokenReoffer_enters {s : State} {f : FlowId} {k : Nat} (hold : oldestTick s f = some k) (htoken : tokenFlow f = true)
    (htakes : flowTakes s f (tokenPackets s f (heldTokens s f k)) = true) :
    execTokenReoffer f s = .next (tokensEntered s f k) := by
  have hcond : (tokenFlow f && flowTakes s f (tokenPackets s f (heldTokens s f k))) = true := by rw [htoken, htakes]; rfl
  simp only [execTokenReoffer, hold]
  exact if_pos hcond

theorem tokensLeft_of (s : State) (f : FlowId) (k : Nat) {n : StreamId} (h : n ∈ tokenStreams s f) :
    (tokensLeft s f k)[n] = { s.streams[n] with tokenStore := s.streams[n].tokenStore.filter fun y => y.1 != k } := by
  simp [tokensLeft, h]

theorem tokensLeft_other (s : State) (f : FlowId) (k : Nat) {n : StreamId} (h : n ∉ tokenStreams s f) :
    (tokensLeft s f k)[n] = s.streams[n] := by
  simp [tokensLeft, h]

/-! ## Frames that wait for a bridged flow (R199) -/

/-- Packets join the queues of a state and none leaves. -/
structure QueuesGrow (s t : State) : Prop where
  grows : ∀ g : FlowId, ∃ more, t.flows[g].queue = s.flows[g].queue ++ more

namespace QueuesGrow

variable {s t v : State}

theorem refl (s : State) : QueuesGrow s s := ⟨fun _ => ⟨[], (List.append_nil _).symm⟩⟩

theorem trans (h : QueuesGrow s t) (h' : QueuesGrow t v) : QueuesGrow s v := by
  refine ⟨fun g => ?_⟩
  obtain ⟨l, hl⟩ := h.grows g
  obtain ⟨m, hm⟩ := h'.grows g
  exact ⟨l ++ m, by rw [hm, hl, List.append_assoc]⟩

end QueuesGrow

theorem enqueue_grows (s : State) (f : FlowId) (l : List Packet) : QueuesGrow s (enqueue s f l) := by
  refine ⟨fun g => ?_⟩
  by_cases hg : g = f
  · subst hg
    exact ⟨_, congrArg Flow.queue (enqueue_flow s g l)⟩
  · exact ⟨[], by rw [(enqueue_onlyFlow s f l).others g hg, List.append_nil]⟩

/-- A waiting frame is offered to one bridged flow more. -/
def offerWaiting (w : Waiting) (x : State × List PortId) (q : PortId) : State × List PortId :=
  if flowTakes x.1 (bridgedFlow q) [w.packet] then (enqueue x.1 (bridgedFlow q) [w.packet], x.2) else (x.1, x.2 ++ [q])

theorem drainOne_eq (s : State) (w : Waiting) : drainOne s w = w.ports.foldl (offerWaiting w) (s, []) := rfl

theorem offersWaiting_grows (w : Waiting) (l : List PortId) (x : State × List PortId) : QueuesGrow x.1 (l.foldl (offerWaiting w) x).1 := by
  induction l generalizing x with
  | nil => exact .refl _
  | cons q l ih =>
    have hstep : QueuesGrow x.1 (offerWaiting w x q).1 := by
      unfold offerWaiting
      split
      · exact enqueue_grows ..
      · exact .refl _
    exact hstep.trans (ih _)

theorem bridgedFlow_injective {p q : PortId} (h : p ≠ q) : bridgedFlow p ≠ bridgedFlow q := by
  revert p q
  decide

/-- A frame that every flow of its ports takes enters them all, and waits for none. -/
theorem offersWaiting_all (w : Waiting) {l : List PortId} (hl : l.Nodup) (s : State)
    (htakes : ∀ q ∈ l, flowTakes s (bridgedFlow q) [w.packet] = true) :
    (l.foldl (offerWaiting w) (s, [])).2 = [] ∧ ∀ q ∈ l, ∃ more, (l.foldl (offerWaiting w) (s, [])).1.flows[bridgedFlow q].queue =
      s.flows[bridgedFlow q].queue ++ numbered s.flows[bridgedFlow q] 0 w.packet :: more := by
  induction l generalizing s with
  | nil => exact ⟨rfl, fun q hq => absurd hq List.not_mem_nil⟩
  | cons a l ih =>
    obtain ⟨ha, hl⟩ := List.nodup_cons.1 hl
    have hstep : offerWaiting w (s, []) a = (enqueue s (bridgedFlow a) [w.packet], []) := if_pos (htakes a (List.mem_cons_self ..))
    have hother : ∀ q ∈ l, (enqueue s (bridgedFlow a) [w.packet]).flows[bridgedFlow q] = s.flows[bridgedFlow q] := fun q hq =>
      (enqueue_onlyFlow ..).others _ (bridgedFlow_injective fun h => ha (h ▸ hq))
    obtain ⟨hnone, hqueues⟩ := ih hl (enqueue s (bridgedFlow a) [w.packet]) fun q hq => by
      rw [flowTakes_congr (enqueue_only ..) (hother q hq)]
      exact htakes q (List.mem_cons_of_mem _ hq)
    rw [List.foldl_cons, hstep]
    refine ⟨hnone, fun q hq => ?_⟩
    rcases List.mem_cons.1 hq with rfl | hq
    · obtain ⟨more, hmore⟩ := (offersWaiting_grows w l (enqueue s (bridgedFlow q) [w.packet], [])).grows (bridgedFlow q)
      refine ⟨more, hmore.trans ?_⟩
      rw [show (enqueue s (bridgedFlow q) [w.packet]).flows[bridgedFlow q].queue = _ from congrArg Flow.queue (enqueue_flow ..)]
      exact List.append_assoc ..
    · obtain ⟨more, hmore⟩ := hqueues q hq
      rw [hother q hq] at hmore
      exact ⟨more, hmore⟩

theorem drainOne_grows (s : State) (w : Waiting) : QueuesGrow s (drainOne s w).1 := offersWaiting_grows w w.ports (s, [])

theorem drainList_grows (s : State) (l : List Waiting) (held : List PortId) : QueuesGrow s (drainList s l held).1 := by
  induction l generalizing s held with
  | nil => exact .refl s
  | cons w l ih => exact (drainOne_grows ..).trans (ih ..)

theorem drainList_length (s : State) (l : List Waiting) (held : List PortId) : (drainList s l held).2.length ≤ l.length := by
  induction l generalizing s held with
  | nil => exact Nat.le_refl _
  | cons w l ih =>
    unfold drainList
    dsimp only
    split
    · exact Nat.le_succ_of_le (ih ..)
    · exact Nat.succ_le_succ (ih ..)

theorem drainList_head {s : State} {w : Waiting} {rest : List Waiting} (h : (drainOne s w).2 = []) :
    drainList s (w :: rest) [] = drainList (drainOne s w).1 rest [] := by
  have hports : (w.ports.filter fun q => !([] : List PortId).contains q) = w.ports := by simp
  have hheld : (w.ports.filter fun q => ([] : List PortId).contains q) = [] := by simp
  rw [drainList]
  simp only [hports, hheld, h, List.append_nil, List.isEmpty_nil, if_true]

theorem drainReceive_ports (s : State) (p : PortId) : (drainReceive s p).ports =
    vmod s.ports p fun x => { x with receive := (drainList s s.ports[p].receive []).2 } := by
  have hports : (drainList s s.ports[p].receive []).1.ports = s.ports := (drainList_only ..).part .ports (by decide)
  exact congrArg (fun v => vmod v p fun x => { x with receive := (drainList s s.ports[p].receive []).2 }) hports

theorem drainReceive_flows (s : State) (p : PortId) :
    (drainReceive s p).flows = (drainList s s.ports[p].receive []).1.flows := rfl

theorem drainReceive_empty {s : State} {p : PortId} (h : s.ports[p].receive = []) : drainReceive s p = s := by
  have hsame : vmod s.ports p (fun x => { x with receive := [] }) = s.ports := by
    refine Vector.ext fun i hi => ?_
    by_cases hip : (⟨i, hi⟩ : PortId) = p
    · subst hip
      refine (getElem_vmod_same s.ports ⟨i, hi⟩ _).trans ?_
      rw [← h]
      rfl
    · exact getElem_vmod_other s.ports _ hip
  have hlist : drainList s s.ports[p].receive [] = (s, []) := by rw [h]; rfl
  rw [drainReceive, hlist, hsame]

/-- Settles O26: what the scheduler chose meets the MAC; each queue's drain is that of its first frames. -/
theorem framesStartAndQueuesDrain : Obligations.FramesStartAndQueuesDrain := by
  refine ⟨⟨fun p c f rounds pk s hcan htop hpick hhead => ⟨fun hlock hroom => ?_, fun hlock => ?_⟩,
    fun p c f rounds pk s hcan htop hpick hhead hlock hfull => ?_, fun p s => execFrameTxStart_idle⟩,
    fun f s hdrain hempty => ?_, fun f s h => ?_, fun f k s hold htoken htakes => ?_, fun p w rest s hreceive hnodup htakes => ?_,
    fun p s hempty => ?_, fun k f s hserves => if_pos hserves⟩
  · have hports := frameStarted_ports s p c f rounds pk
    have hport : (frameStarted s p c f rounds pk).ports.get p = portSending s p c f pk (s.ports.get p) := by
      rw [hports]; exact vmod_get_same ..
    refine ⟨_, (execFrameTxStart_chosen hcan htop hpick hhead).trans (congrArg _ (sendFrame_starts s p c f rounds hlock hroom)),
      ?_, ?_, ?_, ?_, fun q hq => ?_, frameStarted_time_other s p c f rounds pk, fun hkind r hr hp => ?_,
      (frameStarted_only s p c f rounds pk).eq⟩
    · rw [hport]; rfl
    · rw [hport]; exact Nat.sub_add_cancel hroom
    · exact ⟨_, by rw [hport]; rfl, rfl, Nat.min_le_right ..⟩
    · exact ⟨_, by rw [hport]; rfl, rfl, rfl⟩
    · rw [hports]; exact vmod_get_other _ _ _ _ hq
    · exact frameStarted_request s p c f rounds pk hkind hr hp
  · exact ⟨_, (execFrameTxStart_chosen hcan htop hpick hhead).trans (congrArg _ (sendFrame_suppressed s p c f rounds pk hlock)),
      (frameSuppressed_only s p f rounds).part .ports (by decide), (frameSuppressed_onlyFlow s p f rounds).others,
      (frameSuppressed_only s p f rounds).eq⟩
  · exact ⟨_, (execFrameTxStart_chosen hcan htop hpick hhead).trans (congrArg _ (sendFrame_held s p c f rounds hlock hfull)),
      frameHeld_held s p, (frameHeld_only s p).part .flows (by decide), (frameHeld_only s p).eq⟩
  · exact ⟨_, if_pos ⟨hdrain, hempty⟩, congrArg Flow.draining (getElem_vmod_same ..), (OnlyFlow.mod s f _).others, rfl⟩
  · refine if_neg fun ⟨hdrain, hempty⟩ => ?_
    rcases h with h | h
    · exact Bool.noConfusion (h.symm.trans hdrain)
    · exact h hempty
  · refine ⟨tokensEntered s f k, execTokenReoffer_enters hold htoken htakes, fun n hn => ?_, fun n hn => tokensLeft_other s f k hn,
      (enqueue_onlyFlow ..).others, ?_⟩
    · exact congrArg Stream.tokenStore (tokensLeft_of s f k hn)
    · exact (((Only.refl [.streams, .flows] s).step (enqueue_only ..)).step (l' := [.streams]) (.of_eq rfl)).eq
  · obtain ⟨hnone, hqueues⟩ := offersWaiting_all w hnodup s htakes
    have hlist : drainList s s.ports[p].receive [] = drainList (drainOne s w).1 rest [] := by
      rw [hreceive]; exact drainList_head hnone
    refine ⟨drainReceive s p, exec_receiveBufferEnqueue p s, ?_, fun q hq => ?_, fun q hq => ?_,
      ((Only.refl [.ports, .flows] s).step (drainReceive_only s p)).eq⟩
    · rw [drainReceive_ports, getElem_vmod_same, hlist]
      exact drainList_length ..
    · obtain ⟨first, hfirst⟩ := hqueues q hq
      obtain ⟨more, hmore⟩ := (drainList_grows (drainOne s w).1 rest []).grows (bridgedFlow q)
      refine ⟨first ++ more, ?_⟩
      rw [drainReceive_flows, hlist, hmore, drainOne_eq, hfirst]
      exact List.append_assoc ..
    · rw [drainReceive_ports]; exact getElem_vmod_other _ _ hq
  · rw [exec_receiveBufferEnqueue, drainReceive_empty hempty]

end Sys2Proof.Machine
end

section
/-! PROOF. Genlock and the output pins (10_time.md R245, R261). -/

namespace Sys2Proof.Machine

set_option Elab.async false

theorem exec_genlockEdge (s : State) : exec .genlockEdge s = execGenlockEdge s := rfl

theorem exec_genlockEdgeMissing (s : State) : exec .genlockEdgeMissing s = execGenlockEdgeMissing s := rfl

theorem exec_tb0Second (s : State) : exec .tb0Second s = execTb0Second s := rfl

theorem exec_syncOutPulse (n : Fin 4) (s : State) : exec (.syncOutPulse n) s = execSyncOutPulse n s := rfl

/-! ## Genlock -/

/-- The parts that the loss of the genlock may change. -/
abbrev genParts : List StatePart := [.regs, .overflow, .emcy, .log, .time]

section
variable {s : State}

/-- The flags and the EMCY of a genlock that is lost. -/
def genlockReported (s : State) : State := raiseEmcy (setFlag (clearFlag s (kTime 6) 30) (kTime 6) 29) 0x9003 (kTime 6) 0

theorem genlockReported_only (s : State) : Only [.regs, .overflow, .emcy, .log] s (genlockReported s) :=
  (((Only.refl _ s).step (clearFlag_only ..)).step (setFlag_only ..)).step (raiseEmcy_only ..)

theorem loseGenlock_time (s : State) : (loseGenlock s).time = { s.time with genLocked := false, genEdges := 0, genMisses := 0 } := by
  rw [← show (genlockReported s).time = s.time from (genlockReported_only s).part .time (by decide)]
  rfl

theorem loseGenlock_only (s : State) : Only genParts s (loseGenlock s) :=
  ((Only.refl _ s).step (genlockReported_only s)).step (l' := [.time]) (.of_eq rfl)

theorem genlockMiss_only (s : State) : Only genParts s (genlockMiss s) :=
  .ite (fun _ => .ite (fun _ => loseGenlock_only s) fun _ => .of_eq rfl) fun _ => .of_eq rfl

/-- A third miss in a row loses the lock. -/
theorem genlockMiss_third (hlocked : s.time.genLocked = true) (h : 2 ≤ s.time.genMisses) :
    (genlockMiss s).time = { s.time with genLocked := false, genEdges := 0, genMisses := 0 } := by
  rw [genlockMiss, if_pos hlocked, if_pos (Nat.succ_le_succ h)]
  exact loseGenlock_time s

theorem genlockMiss_counted (hlocked : s.time.genLocked = true) (h : s.time.genMisses < 2) :
    genlockMiss s = { s with time := { s.time with genMisses := s.time.genMisses + 1 } } := by
  rw [genlockMiss, if_pos hlocked, if_neg (by omega)]

theorem genlockMiss_unlocked (hlocked : s.time.genLocked = false) :
    genlockMiss s = { s with time := { s.time with genEdges := 0 } } := by
  rw [genlockMiss, if_neg (by rw [hlocked]; decide)]

/-- A miss keeps TB1's period. -/
theorem genlockMiss_period (s : State) : (genlockMiss s).time.tb1Period = s.time.tb1Period := by
  unfold genlockMiss
  split
  · split
    · rw [loseGenlock_time]
    · rfl
  · rfl

theorem genlockHit_only (s : State) : Only [.regs, .time] s (genlockHit s) := by
  refine .ite (fun _ => .of_eq rfl) fun _ => .ite (fun _ => ?_) fun _ => .of_eq rfl
  refine Only.step (l' := [.regs]) ?_ (setFlag_only ..)
  exact .of_eq rfl

theorem genlockHit_locked (hlocked : s.time.genLocked = true) :
    genlockHit s = { s with time := { s.time with genMisses := 0 } } := if_pos hlocked

/-- The eighth edge in a row locks TB1, whose pictures count from it. -/
theorem genlockHit_eighth (hlocked : s.time.genLocked = false) (h : 7 ≤ s.time.genEdges) :
    (genlockHit s).time.genLocked = true ∧
      (genlockHit s).time.tb1Index = 2 * ratioK s - (if 2 * tb1Due s < (2 * s.now + genPeriod s) * 256 then 2 else 1) := by
  rw [genlockHit, if_neg (by rw [hlocked]; decide), if_pos (Nat.succ_le_succ h)]
  refine ⟨rfl, ?_⟩
  simp only [setFlag_time, decide_eq_true_eq]

theorem genlockHit_counted (hlocked : s.time.genLocked = false) (h : s.time.genEdges < 7) :
    genlockHit s = { s with time := { s.time with genEdges := s.time.genEdges + 1 } } := by
  rw [genlockHit, if_neg (by rw [hlocked]; decide), if_neg (by omega)]

/-- The next edge is expected at a time; whether the present one has been counted as missing. -/
def expectEdge (t : State) (at_ : Nat) (counted : Bool) : State :=
  { t with time := { t.time with genExpected := some at_, genCounted := counted } }

theorem expectEdge_only (t : State) (at_ : Nat) (counted : Bool) : Only [.time] t (expectEdge t at_ counted) := .of_eq rfl

variable {e : Nat}

theorem execGenlockEdge_hit (hsource : cfg s (key 0x2203 1) = 1) (he : s.time.genExpected = some e) (hlate : s.now ≤ e + genWindow)
    (hearly : e ≤ s.now + genWindow) : execGenlockEdge s = .next (expectEdge (genlockHit s) (s.now + genPeriod s) false) := by
  simp only [execGenlockEdge, if_pos hsource, he, if_pos (And.intro hlate hearly)]
  rfl

theorem execGenlockEdge_outside (hsource : cfg s (key 0x2203 1) = 1) (he : s.time.genExpected = some e)
    (hout : e + genWindow < s.now ∨ s.now + genWindow < e) :
    execGenlockEdge s = .next (expectEdge (if lateEdge s e then s else genlockMiss s) (s.now + genPeriod s) false) := by
  have hwindow : ¬ (s.now ≤ e + genWindow ∧ e ≤ s.now + genWindow) := by omega
  simp only [execGenlockEdge, if_pos hsource, he, if_neg hwindow]
  rfl

theorem execGenlockEdge_first (hsource : cfg s (key 0x2203 1) = 1) (he : s.time.genExpected = none) :
    execGenlockEdge s = .next (expectEdge s (s.now + genPeriod s) false) := by
  simp only [execGenlockEdge, if_pos hsource, he]
  rfl

theorem execGenlockEdgeMissing_missed (hsource : cfg s (key 0x2203 1) = 1) (he : s.time.genExpected = some e)
    (hmissed : e + genWindow < s.now) :
    execGenlockEdgeMissing s = .next (expectEdge (genlockMiss s) (e + genPeriod s) true) := by
  simp only [execGenlockEdgeMissing, he, if_pos (And.intro hsource hmissed)]
  rfl

theorem execGenlockEdge_other (h : cfg s (key 0x2203 1) ≠ 1) : execGenlockEdge s = .next s ∧ execGenlockEdgeMissing s = .next s := by
  refine ⟨if_neg h, ?_⟩
  unfold execGenlockEdgeMissing
  split
  · exact if_neg fun hc => h hc.1
  · rfl

end

/-! ## A counter below its top -/

/-- A counter below its top gains 1, whether or not it wraps. -/
theorem regGet_bump {s : State} {k : Nat} (hwf : assocWf defaultOf s.regs = true) (hv : regGet s k < 2 ^ widthOf k - 1)
    (hk : k ≠ kIntegrity) : regGet (bump s k) k = regGet s k + 1 := by
  have hput : regGet (regPut s k (regGet s k + 1)) k = regGet s k + 1 := by
    rw [regGet_regPut_same _ _ _ hwf, Nat.mod_eq_of_lt (by omega)]
  unfold bump bumpBy
  dsimp only
  split
  · exact hput
  · split
    · exact hput
    next htop =>
      rw [show 2 ^ widthOf k - 1 = regGet s k + 1 by omega]
      exact (overflowEnter_except _ k 0 k (by simpa using hk)).trans hput

/-! ## The output pins -/

/-- PPS_OUT rises. -/
def secondTaken (s : State) : State :=
  { s with
    pins := { s.pins with pps := true, ppsFall := s.now + cfg s (key 0x2204 9) * cyclesPerUs }
    time := { s.time with second := tb0SecondNow s } }

theorem execTb0Second_due {s : State} (h : secondDue s = true) :
    execTb0Second s = .next (if s.time.servo = .holdover then bump (secondTaken s) (kTime 0x0E) else secondTaken s) := if_pos h

/-- A pin of SYNC_OUT at an event of its source. -/
def syncPulsed (n : Fin 4) (w period : Nat) (s : State) : State :=
  { s with pins := { s.pins with
      syncOut := vmod s.pins.syncOut n fun _ => !w.testBit 31
      syncWord := vmod s.pins.syncWord n fun _ => w
      syncFall := vmod s.pins.syncFall n fun _ =>
        s.now + (if period ≤ fieldOf w 23 0 * 3 / 2 then period / 2 else fieldOf w 23 0 * 3 / 2) } }

/-- A pin of SYNC_OUT without a source. -/
def syncLow (n : Fin 4) (w : Nat) (s : State) : State :=
  { s with pins := { s.pins with
      syncOut := vmod s.pins.syncOut n fun _ => false
      syncWord := vmod s.pins.syncWord n fun _ => w } }

section
variable {n : Fin 4} {w src : Nat} {s : State}

theorem execSyncOutPulse_low (hw : w = cfg s (key 0x2204 (1 + n.val))) (hsrc : src = fieldOf w 26 24) (h : src = 0 ∨ 4 < src) :
    execSyncOutPulse n s = .next (syncLow n w s) := by
  subst hw hsrc
  exact if_pos (by omega)

theorem execSyncOutPulse_due (hw : w = cfg s (key 0x2204 (1 + n.val))) (hsrc : src = fieldOf w 26 24) (h1 : 1 ≤ src) (h4 : src ≤ 4)
    (hdue : syncDue s src (cfgSigned s (key 0x2204 (5 + n.val))) = true) :
    execSyncOutPulse n s = .next (syncPulsed n w (syncPeriod s src / 256) s) := by
  subst hw hsrc
  exact (if_neg (by omega)).trans (if_pos hdue)

theorem execSyncOutPulse_between (hw : w = cfg s (key 0x2204 (1 + n.val))) (hsrc : src = fieldOf w 26 24) (h1 : 1 ≤ src) (h4 : src ≤ 4)
    (hdue : syncDue s src (cfgSigned s (key 0x2204 (5 + n.val))) = false) : execSyncOutPulse n s = .next s := by
  subst hw hsrc
  exact (if_neg (by omega)).trans (if_neg (by rw [hdue]; decide))

theorem syncPulsed_fall (period : Nat) : s.now ≤ (syncPulsed n w period s).pins.syncFall.get n ∧
    (syncPulsed n w period s).pins.syncFall.get n ≤ s.now + fieldOf w 23 0 * 3 / 2 := by
  rw [show (syncPulsed n w period s).pins.syncFall.get n =
    s.now + (if period ≤ fieldOf w 23 0 * 3 / 2 then period / 2 else fieldOf w 23 0 * 3 / 2) from vmod_get_same ..]
  split <;> omega

end

/-- Settles O27: an edge is a hit or a miss by its window; the pins follow their events. -/
theorem genlockAndOutputPins : Obligations.GenlockAndOutputPins := by
  refine ⟨⟨fun e s hsource he hlate hearly => ?_, fun e s hsource he hmissed hlocked => ?_, fun e s hsource he hmissed hlocked => ?_,
    fun e s hsource he hout hlate => ?_, fun e s hsource he hout hlate => ?_, fun s => execGenlockEdge_first,
    fun s => execGenlockEdge_other⟩, fun s hdue => ?_, fun s hdue => if_neg (by rw [hdue]; decide),
    fun n w src s hw hsrc => ⟨fun h1 h4 hdue => ?_, execSyncOutPulse_between hw hsrc, fun hnone => ?_⟩⟩
  · refine ⟨_, execGenlockEdge_hit hsource he hlate hearly, fun hlocked => ?_, genlockHit_eighth, fun hlocked hedges => ?_, rfl, rfl,
      ((genlockHit_only s).step (expectEdge_only ..)).eq⟩
    · rw [genlockHit_locked hlocked]
      exact ⟨hlocked, rfl⟩
    · rw [genlockHit_counted hlocked hedges]
      exact ⟨hlocked, rfl⟩
  · refine ⟨_, execGenlockEdgeMissing_missed hsource he hmissed, fun hthird => ?_, fun hmisses => ?_, genlockMiss_period s, rfl, rfl,
      ((genlockMiss_only s).step (expectEdge_only ..)).eq⟩
    · exact congrArg TimeState.genLocked (genlockMiss_third hlocked hthird)
    · rw [genlockMiss_counted hlocked hmisses]
      exact ⟨hlocked, rfl⟩
  · refine ⟨_, execGenlockEdgeMissing_missed hsource he hmissed, ?_⟩
    rw [genlockMiss_unlocked hlocked]
    exact ⟨rfl, hlocked, rfl, rfl, rfl⟩
  · have hmiss : (if lateEdge s e then s else genlockMiss s) = genlockMiss s := if_neg (by rw [hlate]; decide)
    refine ⟨_, execGenlockEdge_outside hsource he hout, rfl, ?_⟩
    rw [hmiss]
    refine ⟨fun hlocked => ?_, fun hlocked hmisses => ?_, fun hlocked hthird => ?_,
      ((genlockMiss_only s).step (expectEdge_only ..)).eq⟩
    · rw [genlockMiss_unlocked hlocked]
      exact ⟨hlocked, rfl⟩
    · rw [genlockMiss_counted hlocked hmisses]
      exact ⟨hlocked, rfl⟩
    · exact congrArg TimeState.genLocked (genlockMiss_third hlocked hthird)
  · refine (execGenlockEdge_outside hsource he (.inr hout)).trans ?_
    rw [if_pos hlate]
    rfl
  · refine ⟨_, execTb0Second_due hdue, ?_⟩
    have htaken : Only [.regs, .overflow, .pins, .time] s (secondTaken s) := .of_eq rfl
    split
    next hholdover =>
      have hbump := bump_only (secondTaken s) (kTime 0x0E)
      refine ⟨hbump.part .pins (by decide), hbump.part .time (by decide), fun h => absurd hholdover h, fun _ hwf hv => ?_,
        (htaken.step hbump).eq⟩
      exact regGet_bump (s := secondTaken s) hwf hv (by decide)
    next hother => exact ⟨rfl, rfl, fun _ => rfl, fun h => absurd h hother, htaken.eq⟩
  · obtain ⟨hnow, hwidth⟩ := syncPulsed_fall (n := n) (w := w) (s := s) (syncPeriod s src / 256)
    exact ⟨_, execSyncOutPulse_due hw hsrc h1 h4 hdue, vmod_get_same .., hnow, hwidth, vmod_get_same ..,
      fun m hm => ⟨vmod_get_other _ _ _ _ hm, vmod_get_other _ _ _ _ hm⟩, rfl, rfl⟩
  · exact ⟨_, execSyncOutPulse_low hw hsrc hnone, vmod_get_same .., vmod_get_same ..,
      fun m hm => ⟨vmod_get_other _ _ _ _ hm, vmod_get_other _ _ _ _ hm⟩, rfl, rfl⟩

end Sys2Proof.Machine
end

section
/-! PROOF. PTP (10_time.md R249 to R255): exchanges that make a sample, masters that come and go. -/

namespace Sys2Proof.Machine

set_option Elab.async false

theorem exec_ptpSyncRx (p : PortId) (m : PtpSync) (s : State) : exec (.ptpSyncRx p m) s = execPtpSyncRx p m s := rfl

theorem exec_ptpFollowUpRx (p : PortId) (m : PtpFollowUp) (s : State) : exec (.ptpFollowUpRx p m) s = execPtpFollowUpRx p m s := rfl

theorem exec_ptpDelayReqSend (p : PortId) (e : Int) (s : State) : exec (.ptpDelayReqSend p e) s = execPtpDelayReqSend p e s := rfl

theorem exec_ptpDelayRespRx (p : PortId) (m : PtpDelayResp) (s : State) : exec (.ptpDelayRespRx p m) s = execPtpDelayRespRx p m s := rfl

theorem exec_ptpAnnounceRx (p : PortId) (m : PtpAnnounce) (s : State) : exec (.ptpAnnounceRx p m) s = execPtpAnnounceRx p m s := rfl

theorem exec_announceReceiptTimeout (p : PortId) (s : State) :
    exec (.announceReceiptTimeout p) s = execAnnounceReceiptTimeout p s := rfl

/-! ## A sample (R252, R253) -/

/-- What a sample has written stays as the servo and TB0 follow it. -/
structure SampleKept (a b : TimeState) : Prop where
  samples : b.samples = a.samples
  offset : b.offset = a.offset
  meanDelay : b.meanDelay = a.meanDelay
  sync : b.sync = a.sync

theorem SampleKept.trans {a b c : TimeState} (h : SampleKept a b) (h' : SampleKept b c) : SampleKept a c :=
  ⟨h'.samples.trans h.samples, h'.offset.trans h.offset, h'.meanDelay.trans h.meanDelay, h'.sync.trans h.sync⟩

theorem servoNext_kept (s : State) (o : Int) : SampleKept s.time (servoNext s o) ∧ (servoNext s o).lastSample = s.now := by
  unfold servoNext
  generalize decide ((o.natAbs : Int) < nsUnits 1000) = small
  generalize decide (nsUnits 10000 < (o.natAbs : Int)) = big
  dsimp only
  split
  · exact ⟨⟨rfl, rfl, rfl, rfl⟩, rfl⟩
  · split_ifs <;> exact ⟨⟨rfl, rfl, rfl, rfl⟩, rfl⟩
  · split_ifs <;> exact ⟨⟨rfl, rfl, rfl, rfl⟩, rfl⟩
  · split_ifs <;> exact ⟨⟨rfl, rfl, rfl, rfl⟩, rfl⟩

/-- TB0 stepped, before it is reported. -/
def tb0Stepped (s : State) (o : Int) : State :=
  { s with time := { s.time with tb0 := ((s.time.tb0 : Int) - o * 65536).toNat, integral := 0, stepPending := false, stepSamples := 0 } }

/-- A step's report: its pending flag is cleared, STEPPED set, an EMCY raised. -/
def stepReported (s : State) : State := raiseEmcy (setFlag (clearFlag s (kTime 6) 27) (kTime 6) 26) 0xFF08 (kTime 6) 0

theorem stepReported_only (s : State) : Only [.regs, .overflow, .emcy, .log] s (stepReported s) :=
  (((Only.refl _ _).step (clearFlag_only ..)).step (setFlag_only ..)).step (raiseEmcy_only ..)

theorem stepTb0_eq (s : State) (o : Int) : stepTb0 s o = stepReported (tb0Stepped s o) := by
  simp only [stepTb0, stepReported, tb0Stepped]

/-- The parts that a sample may change. -/
abbrev sampleParts : List StatePart := [.regs, .overflow, .emcy, .log, .time, .slots]

/-- TB0 follows a sample: what the sample has written stays, and so does the time of the last one. -/
structure SampleFollowed (s t : State) : Prop where
  only : Only sampleParts s t
  kept : SampleKept s.time t.time
  last : t.time.lastSample = s.time.lastSample

namespace SampleFollowed

variable {s t v : State}

theorem trans (h : SampleFollowed s t) (h' : SampleFollowed t v) : SampleFollowed s v :=
  ⟨h.only.trans h'.only, h.kept.trans h'.kept, h'.last.trans h.last⟩

theorem of_only {l : List StatePart} (h : Only l s t)
    (hl : (l.all fun p => [StatePart.regs, .overflow, .emcy, .log, .slots].contains p) = true := by decide) : SampleFollowed s t := by
  have h' : Only [.regs, .overflow, .emcy, .log, .slots] s t := (Only.refl _ s).step h hl
  have htime : t.time = s.time := h'.part .time (by decide)
  exact ⟨h'.mono (by decide), by rw [htime]; exact ⟨rfl, rfl, rfl, rfl⟩, by rw [htime]⟩

end SampleFollowed

theorem stepTb0_followed (s : State) (o : Int) : SampleFollowed s (stepTb0 s o) :=
  stepTb0_eq s o ▸ SampleFollowed.trans (t := tb0Stepped s o) ⟨.of_eq rfl, ⟨rfl, rfl, rfl, rfl⟩, rfl⟩ (.of_only (stepReported_only _))

/-- A state with another record of the time bases, and a register's flag with it. -/
theorem putFlag_followed {s : State} {x : TimeState} (k b : Nat) (v : Bool) (hkept : SampleKept s.time x)
    (hlast : x.lastSample = s.time.lastSample) : SampleFollowed s (putFlag { s with time := x } k b v) :=
  SampleFollowed.trans (t := { s with time := x }) ⟨.of_eq rfl, hkept, hlast⟩ (.of_only (putFlag_only ..))

theorem steerTb0_followed (s : State) (o log : Int) : SampleFollowed s (steerTb0 s o log) :=
  putFlag_followed _ _ _ ⟨rfl, rfl, rfl, rfl⟩ rfl

theorem putSigned_only (s : State) (k : Nat) (v : Int) : Only [.regs] s (putSigned s k v) := regPut_only ..

theorem addDelay_kept (t : TimeState) (d : Int) : (addDelay t d).samples = t.samples ∧ (addDelay t d).sync = t.sync := by
  unfold addDelay
  dsimp only
  split <;> exact ⟨rfl, rfl⟩

section
variable (s : State) (p : PortId) (t1 t2 c log : Int)

/-- The sample is counted, and a waiting exchange of a delay joins the mean at each 16th. -/
def delayTaken : TimeState :=
  let time := { s.time with samples := s.time.samples + 1 }
  if (s.time.samples + 1) % 16 = 0 then
    match time.exchangeReady with
    | some (t3, t4, cr) => addDelay time ((t2 - t1 - c + (t4 - t3 - cr)) / 2)
    | none => time
  else time

/-- The offset of the sample. -/
def sampleOffset : Int := t2 - t1 - c - (delayTaken s t1 t2 c).meanDelay - asymmetry s p

/-- The sample is written and the servo has taken its next state. -/
def sampleWritten : State :=
  let s1 : State := { s with time := { delayTaken s t1 t2 c with offset := sampleOffset s p t1 t2 c } }
  { s1 with time := servoNext s1 (sampleOffset s p t1 t2 c) }

theorem delayTaken_kept : (delayTaken s t1 t2 c).samples = s.time.samples + 1 ∧ (delayTaken s t1 t2 c).sync = s.time.sync := by
  unfold delayTaken
  dsimp only
  split
  · split
    · exact addDelay_kept ..
    · exact ⟨rfl, rfl⟩
  · exact ⟨rfl, rfl⟩

theorem takeSample_followed : SampleFollowed (sampleWritten s p t1 t2 c) (takeSample s p t1 t2 c log) := by
  have hfollow : ∀ (x : Prop) [Decidable x], SampleFollowed (sampleWritten s p t1 t2 c)
      (if x then stepTb0 (sampleWritten s p t1 t2 c) (sampleOffset s p t1 t2 c)
        else steerTb0 (sampleWritten s p t1 t2 c) (sampleOffset s p t1 t2 c) log) := fun x _ => by
    split
    · exact stepTb0_followed ..
    · exact steerTb0_followed ..
  have hput : ∀ (x : State) (v w z : Int) (y : Nat), Only [.regs, .slots] x
      (settleTraceable (monitorSample (putSigned (putSigned (putSigned x (kTime 8) v) (kTime 9) w) (kTime 7) z)
        (viewUnit (putSigned (putSigned (putSigned x (kTime 8) v) (kTime 9) w) (kTime 7) z)) 11 0 y)) := fun x v w z y =>
    (((((Only.refl _ x).step (putSigned_only ..)).step (putSigned_only ..)).step (putSigned_only ..)).step (monitorSample_only ..)).step
      (settleTraceable_only _)
  exact (hfollow _).trans (.of_only (hput ..))

/-- What a sample leaves (R252): counted, its offset less the mean delay and the cable's asymmetry. -/
theorem takeSample_time : (takeSample s p t1 t2 c log).time.samples = s.time.samples + 1 ∧
    (takeSample s p t1 t2 c log).time.offset = t2 - t1 - c - (takeSample s p t1 t2 c log).time.meanDelay - asymmetry s p ∧
    (takeSample s p t1 t2 c log).time.lastSample = s.now ∧ (takeSample s p t1 t2 c log).time.sync = s.time.sync := by
  obtain ⟨-, hkept, hlast⟩ := takeSample_followed s p t1 t2 c log
  obtain ⟨hservo, hnow⟩ := servoNext_kept { s with time := { delayTaken s t1 t2 c with offset := sampleOffset s p t1 t2 c } }
    (sampleOffset s p t1 t2 c)
  obtain ⟨hsamples, hsync⟩ := delayTaken_kept s t1 t2 c
  obtain ⟨ksamples, koffset, kmean, ksync⟩ := hservo.trans hkept
  refine ⟨ksamples.trans hsamples, koffset.trans ?_, hlast.trans hnow, ksync.trans hsync⟩
  rw [kmean]
  rfl

theorem takeSample_only : Only sampleParts s (takeSample s p t1 t2 c log) := by
  have hwritten : Only sampleParts s (sampleWritten s p t1 t2 c) := .of_eq rfl
  exact hwritten.trans (takeSample_followed s p t1 t2 c log).only

end

section
variable {p : PortId} {s : State}

theorem execPtpSyncRx_twoStep {m : PtpSync} (hruns : ptpRuns s p = true) (hfrom : fromMaster s p m.domain m.sourceId = true)
    (hlog : syncInterval m.logInterval = true) (htwo : m.twoStep = true) :
    execPtpSyncRx p m s = .next { s with time := { s.time with
      sync := some ⟨p, m, ⟨stampIn s .a p m.stampError m.skew, stampIn s .b p m.stampError m.skew⟩, viewUnit s⟩ } } := by
  rw [execPtpSyncRx, if_pos ⟨hruns, hfrom, hlog⟩]
  exact if_pos htwo

theorem execPtpSyncRx_oneStep {m : PtpSync} (hruns : ptpRuns s p = true) (hfrom : fromMaster s p m.domain m.sourceId = true)
    (hlog : syncInterval m.logInterval = true) (hone : m.twoStep = false) :
    execPtpSyncRx p m s =
      .next (takeSample s p (ptpUnits m.t1) (stampIn s (viewUnit s) p m.stampError m.skew) m.correction m.logInterval) := by
  rw [execPtpSyncRx, if_pos ⟨hruns, hfrom, hlog⟩]
  exact if_neg (by rw [hone]; decide)

theorem execPtpSyncRx_other {m : PtpSync}
    (h : ptpRuns s p = false ∨ fromMaster s p m.domain m.sourceId = false ∨ syncInterval m.logInterval = false) :
    execPtpSyncRx p m s = .next s := by
  refine if_neg fun ⟨hruns, hfrom, hlog⟩ => ?_
  rw [hruns, hfrom, hlog] at h
  revert h
  decide

/-- The waiting Sync is done with. -/
def syncDone (s : State) : State := { s with time := { s.time with sync := none } }

theorem execPtpFollowUpRx_takes {m : PtpFollowUp} {y : WaitingSync} (hy : s.time.sync = some y) (hruns : ptpRuns s p = true)
    (hfrom : fromMaster s p m.domain m.sourceId = true) (hport : y.port = p) (hseq : y.sync.seqId = m.seqId)
    (hsource : y.sync.sourceId = m.sourceId) :
    execPtpFollowUpRx p m s = .next (takeSample (syncDone s) p (ptpUnits m.t1) (y.stamps.get y.unit)
      (y.sync.correction + m.correction) y.sync.logInterval) := by
  simp only [execPtpFollowUpRx, hy]
  exact if_pos ⟨hruns, hport, hseq, hsource, hfrom⟩

theorem execPtpFollowUpRx_other {m : PtpFollowUp} {y : WaitingSync} (hy : s.time.sync = some y)
    (h : ptpRuns s p = false ∨ fromMaster s p m.domain m.sourceId = false ∨ y.port ≠ p ∨ y.sync.seqId ≠ m.seqId ∨
      y.sync.sourceId ≠ m.sourceId) : execPtpFollowUpRx p m s = .next s := by
  simp only [execPtpFollowUpRx, hy]
  refine if_neg fun ⟨hruns, hport, hseq, hsource, hfrom⟩ => ?_
  rw [hruns, hfrom] at h
  simp [hport, hseq, hsource] at h

/-- A Delay_Req is noted as the module's request. -/
def requestNoted (p : PortId) (e : Int) (s : State) : State :=
  { s with time := { s.time with
      request := some ⟨p, s.time.seqId, e, none⟩, requestAt := some s.now, seqId := (s.time.seqId + 1) % 65536 } }

theorem execPtpDelayReqSend_due {e : Int} (hruns : ptpRuns s p = true) (hselected : s.time.selected = some p)
    (hdue : requestDue s = true) :
    execPtpDelayReqSend p e s = .next (endpointSend (requestNoted p e s) p .delayReq (ipDest none (requestDest s p) 17 319 319) 90
      (.datagram (delayReqBytes s p s.time.seqId))) := if_pos ⟨hruns, hselected, hdue⟩

theorem execPtpDelayReqSend_other {e : Int} (h : requestDue s = false ∨ s.time.selected ≠ some p) :
    execPtpDelayReqSend p e s = .next s := by
  refine if_neg fun ⟨_, hselected, hdue⟩ => ?_
  rcases h with h | h
  · exact Bool.noConfusion (h.symm.trans hdue)
  · exact h hselected

theorem execPtpDelayRespRx_takes {m : PtpDelayResp} {r : DelayRequest} {t3 : Int} (hr : s.time.request = some r) (ht3 : r.t3 = some t3)
    (hruns : ptpRuns s p = true) (hfrom : fromMaster s p m.domain m.sourceId = true) (hport : r.port = p) (hseq : r.seqId = m.seqId)
    (hus : m.forUs = true) :
    execPtpDelayRespRx p m s = .next { s with time := { s.time with
      request := none, respLog := some m.logInterval, exchangeReady := some (t3, ptpUnits m.t4, m.correction) } } := by
  simp only [execPtpDelayRespRx, hr, ht3]
  exact if_pos ⟨hruns, hport, hseq, hus, hfrom⟩

theorem execPtpDelayRespRx_other {m : PtpDelayResp} {r : DelayRequest} (hr : s.time.request = some r)
    (h : r.t3 = none ∨ fromMaster s p m.domain m.sourceId = false ∨ r.port ≠ p ∨ r.seqId ≠ m.seqId ∨ m.forUs = false) :
    execPtpDelayRespRx p m s = .next s := by
  cases ht3 : r.t3 with
  | none => simp only [execPtpDelayRespRx, hr, ht3]
  | some t3 =>
    simp only [execPtpDelayRespRx, hr, ht3]
    refine if_neg fun ⟨_, hport, hseq, hus, hfrom⟩ => ?_
    rw [hfrom, hus] at h
    simp [hport, hseq, ht3] at h

end

/-- Settles O28: each message is taken in one case, and then makes a sample or the next step of an exchange. -/
theorem ptpExchangesMakeSamples : Obligations.PtpExchangesMakeSamples := by
  refine ⟨fun p m s hruns hfrom hlog => ⟨execPtpSyncRx_twoStep hruns hfrom hlog, fun hone => ?_⟩, fun p m s => execPtpSyncRx_other,
    fun p m y s hy => ⟨fun hruns hfrom hport hseq hsource => ?_, execPtpFollowUpRx_other hy⟩, fun p m s hnone => ?_,
    fun p e s hruns hselected hdue => ?_, fun p e s => execPtpDelayReqSend_other,
    fun p m r s hr => ⟨fun t3 => execPtpDelayRespRx_takes hr, execPtpDelayRespRx_other hr⟩⟩
  · obtain ⟨hsamples, hoffset, hlast, hsync⟩ := takeSample_time s p (ptpUnits m.t1) (stampIn s (viewUnit s) p m.stampError m.skew)
      m.correction m.logInterval
    exact ⟨_, execPtpSyncRx_oneStep hruns hfrom hlog hone, hsamples, hoffset, hlast, hsync, (takeSample_only ..).eq⟩
  · obtain ⟨hsamples, hoffset, -, hsync⟩ := takeSample_time (syncDone s) p (ptpUnits m.t1) (y.stamps.get y.unit)
      (y.sync.correction + m.correction) y.sync.logInterval
    have hdone : Only sampleParts s (syncDone s) := .of_eq rfl
    exact ⟨_, execPtpFollowUpRx_takes hy hruns hfrom hport hseq hsource, hsync, hsamples, hoffset,
      (hdone.trans (takeSample_only ..)).eq⟩
  · rw [exec_ptpFollowUpRx]
    simp only [execPtpFollowUpRx, hnone]
  · have hsend := endpointSend_only (requestNoted p e s) p .delayReq (ipDest none (requestDest s p) 17 319 319) 90
      (.datagram (delayReqBytes s p s.time.seqId))
    have htime := hsend.part .time (by decide)
    have hnoted : Only [.regs, .ports, .flows, .counts, .time] s (requestNoted p e s) := .of_eq rfl
    exact ⟨_, execPtpDelayReqSend_due hruns hselected hdue, congrArg TimeState.request htime, congrArg TimeState.seqId htime,
      congrArg TimeState.requestAt htime, (hnoted.step hsend).eq⟩

end Sys2Proof.Machine
end

section
/-! PROOF. The masters that PTP hears and the one that it follows (10_time.md R250, R251, R254). -/

namespace Sys2Proof.Machine

set_option Elab.async false

/-! ## The best master -/

/-- The better of the best so far and a master. -/
def betterMaster (best : Option Master) (m : Master) : Option Master :=
  match best with
  | none => some m
  | some b => if ranksBetter m.announce b.announce then some m else some b

theorem betterMaster_isSome (best : Option Master) (m : Master) : (betterMaster best m).isSome = true := by
  unfold betterMaster
  split
  · rfl
  · split <;> rfl

theorem bestOf_eq (l : List Master) : bestOf l = l.foldl betterMaster none := rfl

theorem bestOf_append (l : List Master) (m : Master) : (bestOf (l ++ [m])).isSome = true := by
  rw [bestOf_eq, List.foldl_append]
  exact betterMaster_isSome ..

/-- The better of the best so far and the best master of a port. -/
def betterPort (s : State) (best : Option (PortId × Master)) (p : PortId) : Option (PortId × Master) :=
  match portMaster s p with
  | none => best
  | some m =>
    if !ptpOn s p then best
    else
      match best with
      | none => some (p, m)
      | some b => if ranksBetter m.announce b.2.announce then some (p, m) else best

theorem bestPort_eq (s : State) (ps : List PortId) : bestPort s ps = ps.foldl (betterPort s) none := rfl

theorem betterPort_none {s : State} {p : PortId} (best : Option (PortId × Master)) (h : portMaster s p = none) :
    betterPort s best p = best := by
  simp only [betterPort, h]

theorem betterPort_isSome {s : State} {best : Option (PortId × Master)} (p : PortId) (h : best.isSome = true) :
    (betterPort s best p).isSome = true := by
  obtain ⟨b, rfl⟩ := Option.isSome_iff_exists.1 h
  unfold betterPort
  split
  · rfl
  · split
    · rfl
    · dsimp only
      split <;> rfl

theorem betterPort_heard {s : State} {p : PortId} (best : Option (PortId × Master)) (h : (portMaster s p).isSome = true)
    (hon : ptpOn s p = true) : (betterPort s best p).isSome = true := by
  obtain ⟨m, hm⟩ := Option.isSome_iff_exists.1 h
  cases best with
  | none => simp [betterPort, hm, hon]
  | some b => exact betterPort_isSome p rfl

theorem bestPort_isSome {s : State} {p : PortId} {ps : List PortId} (hp : p ∈ ps) (h : (portMaster s p).isSome = true)
    (hon : ptpOn s p = true) : (bestPort s ps).isSome = true := by
  have hkeep : ∀ (l : List PortId) (best : Option (PortId × Master)), best.isSome = true → (l.foldl (betterPort s) best).isSome = true := by
    intro l
    induction l with
    | nil => exact fun _ h => h
    | cons q l ih => exact fun best hbest => ih _ (betterPort_isSome q hbest)
  have hfold : ∀ (l : List PortId) (best : Option (PortId × Master)), p ∈ l → (l.foldl (betterPort s) best).isSome = true := by
    intro l
    induction l with
    | nil => exact fun _ hp => absurd hp List.not_mem_nil
    | cons q l ih =>
      intro best hp
      rcases List.mem_cons.1 hp with rfl | hp
      · exact hkeep l _ (betterPort_heard best h hon)
      · exact ih _ hp
  exact hfold ps none hp

theorem bestPort_none {s : State} {ps : List PortId} (h : ∀ p ∈ ps, portMaster s p = none) : bestPort s ps = none := by
  rw [bestPort_eq]
  induction ps with
  | nil => rfl
  | cons q l ih =>
    rw [List.foldl_cons, betterPort_none none (h q (List.mem_cons_self ..))]
    exact ih fun p hp => h p (List.mem_cons_of_mem _ hp)

/-- The master named is that of its port. -/
theorem bestPort_master {s : State} {ps : List PortId} {x : PortId × Master} (h : bestPort s ps = some x) :
    portMaster s x.1 = some x.2 := by
  have hfold : ∀ (l : List PortId) (best : Option (PortId × Master)), (∀ y, best = some y → portMaster s y.1 = some y.2) →
      ∀ y, l.foldl (betterPort s) best = some y → portMaster s y.1 = some y.2 := by
    intro l
    induction l with
    | nil => exact fun _ h => h
    | cons q l ih =>
      intro best hbest
      refine ih _ fun y hy => ?_
      unfold betterPort at hy
      split at hy
      · exact hbest y hy
      next m hm =>
        split at hy
        · exact hbest y hy
        · split at hy
          · obtain rfl := Option.some.inj hy
            exact hm
          · split at hy
            · obtain rfl := Option.some.inj hy
              exact hm
            · exact hbest y hy
  exact hfold ps none (fun y hy => nomatch hy) x h

/-! ## The selected port -/

/-- What the time bases are once a port's master is taken. -/
def masterTaken (s : State) (p : PortId) (a : PtpAnnounce) : TimeState :=
  let change := decide (s.time.grandmaster ≠ a.gmId)
  { s.time with
    selected := some p
    grandmaster := a.gmId
    traceable := a.timeTraceable
    metadata := if change then none else s.time.metadata
    respLog := if change then none else s.time.respLog
    utcOffset := if change then a.utcOffset else s.time.metadata.getD a.utcOffset
    servo := if change then .acquiring else s.time.servo
    bigSamples := if change then 0 else s.time.bigSamples
    smallSamples := if change then 0 else s.time.smallSamples
    lastSample := if change then s.now else s.time.lastSample }

theorem takeMaster_time (s : State) (p : PortId) (a : PtpAnnounce) : (takeMaster s p a).time = masterTaken s p a := by
  have hregs : ∀ (x : State) (c : Bool) (v : Nat),
      Only [.regs] x (settleTraceable (regPut (if c then setFlag x (kTime 6) 25 else x) (kTime 0x0C) v)) := fun x c v => by
    have hflag : Only [.regs] x (if c then setFlag x (kTime 6) 25 else x) := .ite (fun _ => setFlag_only ..) fun _ => .refl ..
    exact (hflag.step (regPut_only ..)).step (settleTraceable_only _)
  exact (hregs { s with time := masterTaken s p a } _ _).part .time (by decide)

/-- What stays of the time bases as the selected port changes. -/
structure MastersKept (s t : State) : Prop where
  masters : t.time.masters = s.time.masters
  tb0 : t.time.tb0 = s.time.tb0

theorem takeMaster_mastersKept (s : State) (p : PortId) (a : PtpAnnounce) : MastersKept s (takeMaster s p a) :=
  ⟨(congrArg TimeState.masters (takeMaster_time s p a)).trans rfl, (congrArg TimeState.tb0 (takeMaster_time s p a)).trans rfl⟩

theorem enterHoldover_mastersKept (s : State) : MastersKept s (enterHoldover s) := by
  unfold enterHoldover
  split <;> exact ⟨rfl, rfl⟩

theorem dropMaster_mastersKept (s : State) : MastersKept s (dropMaster s) := by
  unfold dropMaster
  dsimp only
  split
  · obtain ⟨hmasters, htb0⟩ := enterHoldover_mastersKept { s with time := { s.time with selected := none } }
    exact ⟨hmasters, htb0⟩
  · exact ⟨rfl, rfl⟩

/-- The best master of all ports is taken, or none is left. -/
def selectBest (s : State) : State :=
  match bestPort s allPorts with
  | some x => takeMaster s x.1 x.2.announce
  | none => dropMaster s

theorem selectBest_mastersKept (s : State) : MastersKept s (selectBest s) := by
  unfold selectBest
  split
  · exact takeMaster_mastersKept ..
  · exact dropMaster_mastersKept s

/-- A port's master while PTP runs there. -/
def livingMaster (s : State) (q : PortId) : Option Master := if ptpOn s q then portMaster s q else none

/-- The ports other than q whose masters have ranked better for 4 intervals. -/
def betterPorts (s : State) (q : PortId) : List PortId :=
  allPorts.filter fun p => decide (p ≠ q ∧ 4 ≤ (s.time.masters[p]).better)

section
variable {s : State} {q : PortId}

theorem reselect_none (h : s.time.selected = none) : reselect s = selectBest s := by
  simp only [reselect, h]
  rfl

theorem reselect_lost (h : s.time.selected = some q) (hlost : livingMaster s q = none) : reselect s = selectBest s := by
  simp only [reselect, h, show (if ptpOn s q then portMaster s q else none) = none from hlost]
  rfl

theorem reselect_living {n : Master} (h : s.time.selected = some q) (hn : livingMaster s q = some n) :
    reselect s = match bestPort s (betterPorts s q) with
      | some x => takeMaster s x.1 x.2.announce
      | none => takeMaster s q n.announce := by
  simp only [reselect, h, show (if ptpOn s q then portMaster s q else none) = some n from hn]
  rfl

end

theorem reselect_mastersKept (s : State) : MastersKept s (reselect s) := by
  cases h : s.time.selected with
  | none => rw [reselect_none h]; exact selectBest_mastersKept s
  | some q =>
    cases hn : livingMaster s q with
    | none => rw [reselect_lost h hn]; exact selectBest_mastersKept s
    | some n =>
      rw [reselect_living h hn]
      split <;> exact takeMaster_mastersKept ..

theorem mem_allPorts (p : PortId) : p ∈ allPorts := by
  revert p
  decide

/-- With a master heard on an enabled port some port is selected. -/
theorem reselect_selects {s : State} {p : PortId} (hheard : (portMaster s p).isSome = true) (hon : ptpOn s p = true) :
    (reselect s).time.selected.isSome = true := by
  have htake : ∀ q a, (takeMaster s q a).time.selected.isSome = true := fun q a => by rw [takeMaster_time]; rfl
  have hbest : (selectBest s).time.selected.isSome = true := by
    obtain ⟨x, hx⟩ := Option.isSome_iff_exists.1 (bestPort_isSome (ps := allPorts) (mem_allPorts p) hheard hon)
    unfold selectBest
    rw [hx]
    exact htake ..
  cases h : s.time.selected with
  | none => rw [reselect_none h]; exact hbest
  | some q =>
    cases hn : livingMaster s q with
    | none => rw [reselect_lost h hn]; exact hbest
    | some n =>
      rw [reselect_living h hn]
      split <;> exact htake ..

/-- A selected port with a master stays while none has ranked better for 4 intervals. -/
theorem reselect_stays {s : State} {q : PortId} (h : s.time.selected = some q) (hon : ptpOn s q = true)
    (hmaster : (portMaster s q).isSome = true) (hbetter : ∀ r, r ≠ q → (s.time.masters.get r).better < 4) :
    (reselect s).time.selected = some q := by
  obtain ⟨n, hn⟩ := Option.isSome_iff_exists.1 hmaster
  have hempty : betterPorts s q = [] := List.filter_eq_nil_iff.2 fun r _ hr =>
    let ⟨hne, hr⟩ := of_decide_eq_true hr
    Nat.not_lt.2 hr (hbetter r hne)
  rw [reselect_living h ((if_pos hon).trans hn), hempty]
  exact congrArg TimeState.selected (takeMaster_time ..)

/-! ## The events -/

theorem ptpOn_of_ptpRuns {s : State} {p : PortId} (h : ptpRuns s p = true) : ptpOn s p = true := by
  by_contra hoff
  unfold ptpRuns ptpState at h
  split_ifs at h

/-- The interval count of a port whose masters have been heard anew. -/
def heardCount (p : PortId) (m : PtpAnnounce) (s : State) : Nat :=
  if (bestOf (hearMaster (s.time.masters[p]).heard ⟨m, s.now⟩)).any fun b => b.announce.sourceId == m.sourceId then
    betterCount s p m (s.time.masters[p]).better
  else (s.time.masters[p]).better

/-- A port has heard a master. -/
def masterHeard (p : PortId) (m : PtpAnnounce) (s : State) : State :=
  { s with time := { s.time with
      masters := vmod s.time.masters p fun _ => ⟨hearMaster (s.time.masters[p]).heard ⟨m, s.now⟩, heardCount p m s⟩ } }

theorem execPtpAnnounceRx_heard {s : State} {p : PortId} {m : PtpAnnounce} (hruns : ptpRuns s p = true)
    (hdomain : m.domain = cfg s (key 0x2201 2)) : execPtpAnnounceRx p m s = .next (reselect (masterHeard p m s)) :=
  if_pos ⟨hruns, hdomain⟩

theorem execPtpAnnounceRx_other {s : State} {p : PortId} {m : PtpAnnounce}
    (h : m.domain ≠ cfg s (key 0x2201 2) ∨ ptpRuns s p = false) : execPtpAnnounceRx p m s = .next s := by
  refine if_neg fun ⟨hruns, hdomain⟩ => ?_
  rcases h with h | h
  · exact h hdomain
  · exact Bool.noConfusion (h.symm.trans hruns)

theorem masterHeard_same (p : PortId) (m : PtpAnnounce) (s : State) : ((masterHeard p m s).time.masters.get p).heard =
    ((s.time.masters.get p).heard.filter fun x => decide (x.announce.sourceId ≠ m.sourceId)) ++ [⟨m, s.now⟩] :=
  congrArg PtpPort.heard (vmod_get_same ..)

theorem masterHeard_other {p q : PortId} (m : PtpAnnounce) (s : State) (h : q ≠ p) :
    (masterHeard p m s).time.masters.get q = s.time.masters.get q := vmod_get_other _ _ _ _ h

theorem portMaster_eq (s : State) (p : PortId) : portMaster s p = bestOf (s.time.masters.get p).heard := rfl

theorem portMaster_masterHeard (p : PortId) (m : PtpAnnounce) (s : State) : (portMaster (masterHeard p m s) p).isSome = true := by
  rw [portMaster_eq, masterHeard_same]
  exact bestOf_append ..

/-- Where p alone has heard a master, it is the one. -/
theorem bestPort_only {s : State} {p : PortId} {m : Master} (hm : portMaster s p = some m) (hon : ptpOn s p = true)
    (hothers : ∀ q, q ≠ p → portMaster s q = none) : bestPort s allPorts = some (p, m) := by
  obtain ⟨⟨q, n⟩, hx⟩ := Option.isSome_iff_exists.1 (bestPort_isSome (mem_allPorts p) (by rw [hm]; rfl) hon)
  have hn : portMaster s q = some n := bestPort_master hx
  have hq : q = p := by
    by_contra hne
    exact nomatch (hothers q hne).symm.trans hn
  subst hq
  rw [hx, Option.some.inj (hm.symm.trans hn)]

/-- The masters of a port whose timeouts have not passed. -/
def masterForgot (p : PortId) (s : State) : State :=
  { s with time := { s.time with masters := vmod s.time.masters p fun _ => forgetOld s (s.time.masters[p]) } }

/-- The state once a port's old masters are forgotten. -/
def forgotten (p : PortId) (s : State) : State :=
  if forgetOld s (s.time.masters[p]) = s.time.masters[p] then s else reselect (masterForgot p s)

theorem execAnnounceReceiptTimeout_some {s : State} {p : PortId} {m : Master} (h : portMaster s p = some m) :
    execAnnounceReceiptTimeout p s =
      if decide ((forgotten p s).time.lastSample + announceTimeout s m.announce ≤ (forgotten p s).now) ∧ s.time.selected = some p ∧
          ((forgotten p s).time.servo = .locked ∨ (forgotten p s).time.servo = .acquiring) then
        .next (enterHoldover (forgotten p s))
      else .next (forgotten p s) := by
  simp only [execAnnounceReceiptTimeout, h]
  rfl

theorem masterForgot_same (p : PortId) (s : State) : ((masterForgot p s).time.masters.get p).heard =
    (s.time.masters.get p).heard.filter (fun x => decide (s.now < x.heardAt + announceTimeout s x.announce)) :=
  congrArg PtpPort.heard (vmod_get_same ..)

/-- What is left once old masters are forgotten: of p those heard lately, of the others all. -/
structure Forgot (p : PortId) (s t : State) : Prop where
  heard : (t.time.masters.get p).heard =
    (s.time.masters.get p).heard.filter (fun x => decide (s.now < x.heardAt + announceTimeout s x.announce))
  others : ∀ q, q ≠ p → t.time.masters.get q = s.time.masters.get q
  tb0 : t.time.tb0 = s.time.tb0
  only : Only [.regs, .time] s t

theorem forgotten_forgot (p : PortId) (s : State) : Forgot p s (forgotten p s) := by
  unfold forgotten
  split
  next hsame => exact ⟨(congrArg PtpPort.heard hsame).symm, fun _ _ => rfl, rfl, .refl ..⟩
  · obtain ⟨hmasters, htb0⟩ := reselect_mastersKept (masterForgot p s)
    refine ⟨by rw [hmasters]; exact masterForgot_same p s, fun q hq => ?_, htb0, ?_⟩
    · rw [hmasters]
      exact vmod_get_other _ _ _ _ hq
    · exact Only.trans (t := masterForgot p s) (.of_eq rfl) (reselect_only _)

theorem Forgot.step {p : PortId} {s t v : State} (h : Forgot p s t) (hkept : MastersKept t v) (honly : Only [.regs, .time] t v) :
    Forgot p s v :=
  ⟨by rw [hkept.masters]; exact h.heard, fun q hq => by rw [hkept.masters]; exact h.others q hq, hkept.tb0.trans h.tb0,
    h.only.trans honly⟩

/-- The last master lost with the servo locked brings HOLDOVER. -/
theorem dropMaster_locked {s : State} (h : s.time.servo = .locked) :
    (dropMaster s).time.selected = none ∧ (dropMaster s).time.servo = .holdover ∧ (dropMaster s).time.holdoverAt = s.now := by
  have hservo : ({ s with time := { s.time with selected := none } } : State).time.servo = .locked := h
  rw [dropMaster, if_pos (.inr hservo), enterHoldover, if_neg (by rw [hservo]; decide)]
  exact ⟨rfl, rfl, rfl⟩

/-- Settles O29: the masters heard change as told, and the selected port follows by `reselect`. -/
theorem mastersComeAndGo : Obligations.MastersComeAndGo := by
  refine ⟨fun p m s hruns hdomain hmasters hselected hother => ?_, fun p m s hruns hdomain => ?_, fun p m s => execPtpAnnounceRx_other,
    fun p s hmaster => ?_, fun p s hnone => ?_, fun p x s hheard hothers hselected hold hlocked => ?_⟩
  · have hon : ptpOn (masterHeard p m s) p = true := ptpOn_of_ptpRuns (s := s) hruns
    have hnobody : ∀ q : PortId, (s.time.masters.get q).heard = [] := fun q => by rw [hmasters]; revert q; decide
    have hbest : bestPort (masterHeard p m s) allPorts = some (p, ⟨m, s.now⟩) := by
      refine bestPort_only ?_ hon fun q hq => ?_
      · rw [portMaster_eq, masterHeard_same, hnobody]
        rfl
      · rw [portMaster_eq, masterHeard_other m s hq, hnobody]
        rfl
    have htaken : (reselect (masterHeard p m s)).time = masterTaken (masterHeard p m s) p m := by
      rw [reselect_none (s := masterHeard p m s) hselected, selectBest, hbest]
      exact takeMaster_time ..
    have hchange : decide ((masterHeard p m s).time.grandmaster ≠ m.gmId) = true := decide_eq_true hother
    have hheard : Only [.regs, .time] s (masterHeard p m s) := .of_eq rfl
    refine ⟨_, execPtpAnnounceRx_heard hruns hdomain, ?_, ?_, ?_, ?_, (hheard.trans (reselect_only _)).eq⟩
    · rw [htaken]; rfl
    · rw [htaken]; rfl
    · rw [htaken, masterTaken, hchange]; rfl
    · rw [htaken, masterTaken, hchange]; rfl
  · have hon : ptpOn (masterHeard p m s) p = true := ptpOn_of_ptpRuns (s := s) hruns
    obtain ⟨hmasters, htb0⟩ := reselect_mastersKept (masterHeard p m s)
    have hheard : Only [.regs, .time] s (masterHeard p m s) := .of_eq rfl
    refine ⟨_, execPtpAnnounceRx_heard hruns hdomain, ?_, fun q hq => ?_,
      reselect_selects (portMaster_masterHeard p m s) hon, htb0, fun q hselected hon hmaster hbetter => ?_,
      (hheard.trans (reselect_only _)).eq⟩
    · rw [hmasters]; exact masterHeard_same p m s
    · rw [hmasters]; exact masterHeard_other m s hq
    · rw [hmasters] at hbetter
      refine reselect_stays (s := masterHeard p m s) hselected hon ?_ hbetter
      by_cases hqp : q = p
      · subst hqp
        exact portMaster_masterHeard ..
      · rw [portMaster_eq, masterHeard_other m s hqp]
        exact hmaster
  · obtain ⟨m, hm⟩ := Option.isSome_iff_exists.1 hmaster
    have hforgot := forgotten_forgot p s
    rw [exec_announceReceiptTimeout, execAnnounceReceiptTimeout_some hm]
    split
    · have hheld := hforgot.step (enterHoldover_mastersKept _) (enterHoldover_only _)
      exact ⟨_, rfl, hheld.heard, hheld.others, hheld.tb0, hheld.only.eq⟩
    · exact ⟨_, rfl, hforgot.heard, hforgot.others, hforgot.tb0, hforgot.only.eq⟩
  · have hnobody : portMaster s p = none := by rw [portMaster_eq, hnone]; rfl
    rw [exec_announceReceiptTimeout]
    simp only [execAnnounceReceiptTimeout, hnobody]
  · have hx : portMaster s p = some x := by rw [portMaster_eq, hheard]; rfl
    have hforgot := forgotten_forgot p s
    have hempty : (forgetOld s (s.time.masters[p])).heard = [] := by
      show (s.time.masters.get p).heard.filter _ = []
      rw [hheard]
      simp [Nat.not_lt.2 hold]
    have hnobody : ∀ q, portMaster (masterForgot p s) q = none := fun q => by
      by_cases hq : q = p
      · subst hq
        rw [portMaster_eq, show ((masterForgot q s).time.masters.get q).heard = [] from (masterForgot_same q s).trans hempty]
        rfl
      · rw [portMaster_eq, show (masterForgot p s).time.masters.get q = _ from vmod_get_other _ _ _ _ hq, hothers q hq]
        rfl
    have hlost : livingMaster (masterForgot p s) p = none := by
      unfold livingMaster
      rw [hnobody, ite_self]
    have hdrop : forgotten p s = dropMaster (masterForgot p s) := by
      have hne : forgetOld s (s.time.masters[p]) ≠ s.time.masters[p] := fun h =>
        nomatch (congrArg PtpPort.heard h).symm.trans hempty |>.symm.trans hheard
      rw [forgotten, if_neg hne, reselect_lost (s := masterForgot p s) hselected hlost, selectBest,
        bestPort_none fun q _ => hnobody q]
    obtain ⟨hnone, hservo, hat⟩ := dropMaster_locked (s := masterForgot p s) hlocked
    rw [← hdrop] at hnone hservo hat
    rw [exec_announceReceiptTimeout, execAnnounceReceiptTimeout_some hx, if_neg (by rw [hservo]; simp)]
    refine ⟨_, rfl, ?_, hnone, hservo, hat, hforgot.tb0, hforgot.only.eq⟩
    rw [hforgot.heard]
    exact hempty

end Sys2Proof.Machine
end

section
/-! PROOF. Run control of the channels (03_streams.md R81 to R83; 06_decoders.md R138): started, begun, stopped. -/

namespace Sys2Proof.Machine

set_option Elab.async false

theorem exec_channelStart (k : Client) (c : Chan) (loads : List AtuLoad) (s : State) :
    exec (.channelStart k c loads) s = .next (serveTrace s k (0x3000 + 0x100 * c.val) (doChannelStart c loads)) := rfl

theorem exec_channelBegin (s : State) : exec .channelBegin s = execChannelBegin s := rfl

theorem exec_channelStop (k : Client) (c : Chan) (s : State) :
    exec (.channelStop k c) s = .next (serveWrite s k (0x3000 + 0x100 * c.val) (doChannelStop c)) := rfl

theorem exec_channelStopped (c : Chan) (s : State) : exec (.channelStopped c) s = execChannelStopped c s := rfl

theorem exec_verifyEnableWrite (k : Client) (c : Chan) (v : Nat) (s : State) :
    exec (.verifyEnableWrite k c v) s = .next (serveWrite s k (0x3002 + 0x100 * c.val) (doVerifyEnable k c v)) := rfl

/-! ## What the checks and the start change -/

section
variable (s : State) (n : StreamId) (p : Plan) (c : Chan)

theorem reportInput_only (r : Nat) : Only [.regs] s (reportInput s r) :=
  (regPut_only ..).trans (forEach_only (fun _ _ => regPut_only ..) _ _)

theorem reportFlows_only (f : Option (FlowId × Nat)) : Only [.regs] s (reportFlows s f) := by
  have hcleared : Only [.regs] s (forEach allFlows (fun x f => putField x (kFlow f 0x0A) 31 28 0) s) :=
    forEach_only (fun _ _ => putField_only ..) _ s
  unfold reportFlows
  split
  · exact hcleared.trans (putField_only ..)
  · exact hcleared

theorem reportTraffic_only : Only [.regs] s (reportTraffic s p) :=
  forEach_only (fun _ _ => ((regPut_only ..).trans (regPut_only ..)).trans (regPut_only ..)) _ s

theorem latchStream_only : Only [.streams] s (latchStream s p n) := .of_eq rfl

theorem latchPacer_only : Only [.streams, .regs] s (latchPacer s n) := by
  refine Only.step (l' := [.regs]) ?_ (((((((regPut_only ..).trans (regPut_only ..)).trans (regPut_only ..)).trans (regPut_only ..)).trans
    (clearFlag_only ..)).trans (clearFlag_only ..)).trans (regPut_only ..))
  exact .of_eq rfl

theorem reportGlobal_only : Only [.regs] s (reportGlobal s n) := regPut_only ..

theorem startStream_only : Only [.streams, .regs] s (startStream s p n) := by
  have hfresh : Only [.streams, .regs] s (modStream (latchPacer s n) n freshStream) := (latchPacer_only s n).step (modStream_only ..)
  have hregs : ∀ (x : State) (h v m e : Nat), Only [.regs] x (reportGlobal
      (regPut (regPut (regPut (regPut x (kSearch (leadChan s n) n 3) h) (kSearch (leadChan s n) n 4) v) (kSearch (leadChan s n) n 8) m)
        (kSearch (leadChan s n) n 9) e) n) := fun x h v m e =>
    ((((regPut_only ..).trans (regPut_only ..)).trans (regPut_only ..)).trans (regPut_only ..)).trans (reportGlobal_only ..)
  exact (hfresh.step (hregs ..)).step (settleMapSize_only ..)

theorem carryFlow_only (f : FlowId) : Only [.flows] s (carryFlow s c f) := .ite (fun _ => modFlow_only ..) fun _ => modFlow_only ..

theorem reportCarried_only : Only [.regs] s (reportCarried s c) := (regPut_only ..).trans (regPut_only ..)

theorem openRect_only (r : RectId) (reset : Bool) : Only [.rois, .regs] s (openRect s c r reset) := by
  refine Only.step (l' := [.regs]) ?_ ((regPut_only ..).trans (regPut_only ..))
  exact .of_eq rfl

theorem freshRects_only : Only [.rois, .regs] s (freshRects s c) := forEach_only (fun t r => openRect_only t c r true) _ s

theorem reportClass3_only (slices : StreamId → Nat) : Only [.regs, .overflow, .emcy, .log] s (reportClass3 s slices) := by
  refine forEach_only (fun t p => ?_) _ s
  have hput : ∀ v, Only [.regs, .overflow, .emcy, .log] t (regPut t (kSched p 4) v) := fun v => (Only.refl _ t).step (regPut_only ..)
  exact .ite (fun _ => (((hput _).step (setFlag_only ..)).step (setFlag_only ..)).step (raiseEmcy_only ..)) fun _ =>
    (hput _).step (clearFlag_only ..)

theorem showWatch_only (cause : Fin 4) : Only [.regs, .watch] s (showWatch s cause) := by
  have hshown : Only [.regs, .watch] s { s with watch := { s.watch with watch := decide (cause ≠ 0), cause := cause } } := .of_eq rfl
  exact hshown.step (forEach_only (fun _ _ => putField_only ..) _ _)

theorem beginWatch_only (cause : Fin 4) : Only [.regs, .watch, .flows] s (beginWatch s cause) := by
  refine Only.step (l' := [.regs, .watch]) ?_ (showWatch_only ..)
  exact .of_eq rfl

theorem loadContext_only (u : UnitId) (l : AtuLoad) : Only [.atu, .regs] s (loadContext s u l) := by
  refine .ite (fun _ => (Only.refl _ s).step (setFlag_only ..)) fun _ => ?_
  dsimp only
  split
  · exact Only.step (l' := [.regs]) (.of_eq rfl) (setFlag_only ..)
  · exact .ite (fun _ => Only.step (l' := [.regs]) (.of_eq rfl) (setFlag_only ..)) fun _ => .of_eq rfl

theorem loadContexts_only (l : List AtuLoad) : Only [.atu, .regs] s (loadContexts s l) := by
  have hall : Only [.atu, .regs] s (forEach l (fun x c => loadContext (loadContext x .a c) .b c) s) :=
    forEach_only (fun _ _ => (loadContext_only ..).trans (loadContext_only ..)) l s
  exact hall.step (regPut_only ..)

theorem settleLanes_only : Only [.lanes, .links, .cv] s (settleLanes s) := by
  have hset : ∀ x : Pair (Vector Lane 64), Only [.lanes, .links, .cv] s { s with lanes := x } := fun x => .of_eq rfl
  have hlinks : ∀ t, Only [.cv, .links] t (forEach allLinks (fun x l => settleLink (settleLink x .a l) .b l) t) :=
    fun t => forEach_only (fun _ _ => (settleLink_only ..).trans (settleLink_only ..)) _ t
  exact (hset _).step (hlinks _)

theorem settleConfiguration_only : Only [.lanes, .links, .cv, .lap, .phase, .time] s (settleConfiguration s) := by
  refine Only.step (l' := [.lanes, .links, .cv]) ?_ (settleLanes_only _)
  exact .of_eq rfl

theorem setMode_only (m : ChanMode) : Only [.chans, .regs] s (setMode s c m) :=
  ((Only.refl _ s).step (modChan_only ..)).step (regPut_only ..)

end

/-! ## What a start keeps -/

/-- The channels and the values in effect stay. -/
structure RunKept (s t : State) : Prop where
  chans : t.chans = s.chans
  inUse : t.dict.inUse = s.dict.inUse

namespace RunKept

theorem refl (s : State) : RunKept s s := ⟨rfl, rfl⟩

theorem trans {s t v : State} (h : RunKept s t) (h' : RunKept t v) : RunKept s v :=
  ⟨h'.chans.trans h.chans, h'.inUse.trans h.inUse⟩

theorem of_only {l : List StatePart} {s t : State} (h : Only l s t)
    (hl : decide (StatePart.chans ∉ l ∧ StatePart.dict ∉ l) = true := by decide) : RunKept s t :=
  ⟨h.part .chans (of_decide_eq_true hl).1, congrArg DictState.inUse (h.part .dict (of_decide_eq_true hl).2)⟩

end RunKept

theorem modChan_get_same (s : State) (c : Chan) (f : Channel → Channel) : (modChan s c f).chans.get c = f (s.chans.get c) :=
  vmod_get_same s.chans c f

theorem setMode_chans (s : State) (c : Chan) (m : ChanMode) :
    (setMode s c m).chans = (modChan s c fun x => { x with mode := m }).chans := rfl

theorem setMode_same (s : State) (c : Chan) (m : ChanMode) : ((setMode s c m).chans.get c).mode = m := by
  rw [setMode_chans, modChan_get_same]

theorem setMode_other (s : State) {c d : Chan} (m : ChanMode) (h : d ≠ c) : (setMode s c m).chans.get d = s.chans.get d := by
  rw [setMode_chans, modChan_get_other _ _ h]

/-- A ring that is configured commits and applies its written counts; no value that waits for a start changes. -/
theorem ringConfigure_runKept (s : State) : RunKept s (ringConfigure s) := by
  unfold ringConfigure
  dsimp only
  split
  · exact ⟨rfl, rfl⟩
  · exact ⟨rfl, rfl⟩

/-- Of the channels only c may change, and no value in effect does. -/
structure StartKept (c : Chan) (s t : State) : Prop where
  others : ∀ d, d ≠ c → t.chans.get d = s.chans.get d
  inUse : t.dict.inUse = s.dict.inUse

namespace StartKept

variable {c : Chan} {s t v : State}

theorem trans (h : StartKept c s t) (h' : StartKept c t v) : StartKept c s v :=
  ⟨fun d hd => (h'.others d hd).trans (h.others d hd), h'.inUse.trans h.inUse⟩

theorem of_kept (h : RunKept s t) : StartKept c s t := ⟨fun _ _ => by rw [h.chans], h.inUse⟩

theorem modChan (s : State) (f : Channel → Channel) : StartKept c s (modChan s c f) :=
  ⟨fun _ hd => modChan_get_other s f hd, rfl⟩

end StartKept

/-- The streams of an admitted channel have started, with its flows and its reports. -/
def streamsStarted (s : State) (c : Chan) : State :=
  let ns := streamsOn s c
  let p := windowPlan s
  let s1 := reportTraffic (forEach ns (fun x n => latchStream x p n) s) p
  let s2 := forEach ns (fun x n => startStream x p n) s1
  let s3 := forEach allFlows startCount (forEach (allFlows.take 16) (fun x f => carryFlow x c f) s2)
  forEach allChans reportCarried s3

theorem streamsStarted_runKept (s : State) (c : Chan) : RunKept s (streamsStarted s c) := by
  have hlatch : ∀ t l p, RunKept t (forEach l (fun x n => latchStream x p n) t) := fun t l p =>
    .of_only (forEach_only (fun _ _ => latchStream_only ..) l t)
  have hstart : ∀ t l p, RunKept t (forEach l (fun x n => startStream x p n) t) := fun t l p =>
    .of_only (forEach_only (fun _ _ => startStream_only ..) l t)
  have hcarry : ∀ t (l : List FlowId), RunKept t (forEach l (fun x f => carryFlow x c f) t) := fun t l =>
    .of_only (forEach_only (fun _ _ => carryFlow_only ..) l t)
  have hcount : ∀ t, RunKept t (forEach allFlows startCount t) := fun t => .of_only (forEach_only (fun _ _ => modFlow_only ..) _ t)
  have hreport : ∀ t, RunKept t (forEach allChans reportCarried t) := fun t =>
    .of_only (forEach_only (fun _ _ => reportCarried_only ..) _ t)
  exact (((((hlatch ..).trans (.of_only (reportTraffic_only ..))).trans (hstart ..)).trans (hcarry ..)).trans (hcount _)).trans (hreport _)

/-- The rectangles, the ring and the watch of a start, after its channel's ladder is new. -/
def startWatched (s : State) (c : Chan) : State :=
  beginWatch (ringConfigure (reportClass3 (freshRects s c) (slicesPerStripe (freshRects s c)))) 1

theorem startWatched_runKept (s : State) (c : Chan) : RunKept s (startWatched s c) :=
  (((RunKept.of_only (freshRects_only s c)).trans (.of_only (reportClass3_only ..))).trans (ringConfigure_runKept _)).trans
    (.of_only (beginWatch_only ..))

/-- The state of an admitted channel before its mode is set. -/
def startLoaded (s : State) (c : Chan) (loads : List AtuLoad) : State :=
  let w := startWatched (modChan (streamsStarted s c) c freshLadder) c
  modChan (loadContexts w loads) c fun x => { x with startedAt := s.now }

theorem beginStart_eq (s : State) (c : Chan) (loads : List AtuLoad) :
    beginStart s c loads = setMode (startLoaded s c loads) c .starting := by
  unfold beginStart startLoaded startWatched streamsStarted
  rfl

theorem beginStart_startKept (s : State) (c : Chan) (loads : List AtuLoad) : StartKept c s (beginStart s c loads) := by
  rw [beginStart_eq]
  have hloaded : StartKept c s (startLoaded s c loads) :=
    ((((StartKept.of_kept (streamsStarted_runKept s c)).trans (.modChan ..)).trans (.of_kept (startWatched_runKept ..))).trans
      (.of_kept (.of_only (loadContexts_only ..)))).trans (.modChan ..)
  exact hloaded.trans ⟨fun d hd => setMode_other _ _ hd, rfl⟩

theorem beginStart_mode (s : State) (c : Chan) (loads : List AtuLoad) : ((beginStart s c loads).chans.get c).mode = .starting := by
  rw [beginStart_eq]
  exact setMode_same ..

/-! ## The checks -/

theorem Only.fst_ite {l : List StatePart} {s : State} {p : Prop} [Decidable p] {a : State} {x : Bool}
    {b : State × Bool} (ha : Only l s a) (hb : Only l s b.1) : Only l s (if p then (a, x) else b).1 := by
  split
  · exact ha
  · exact hb

/-- The reports of the checks, in their order: the input's, the streams', the Pacers', the flows'. -/
def inputReported (s : State) : State := reportInput s (inputCheck s (windowShort s) (inputMismatch s))

def streamsReported (s : State) (c : Chan) : State :=
  forEach (streamsOn s c) (fun x n => regPut x (kStream n 0x1E) (streamStatus s n)) (inputReported s)

def checksLatched (s : State) (c : Chan) : State :=
  forEach (streamsOn s c) (fun x n => latchStream x (windowPlan s) n) (streamsReported s c)

def pacersReported (s : State) (c : Chan) : State :=
  forEach (streamsOn s c) (fun x n => putField x (kPacer n 0x12) 31 28 (pacerReason (checksLatched s c) n)) (streamsReported s c)

def flowsReported (s : State) (c : Chan) : State :=
  reportFlows (pacersReported s c) (flowFailure (plannedPacers (checksLatched s c) (streamsOn s c)))

theorem startChecks_eq (s : State) (c : Chan) : startChecks s c =
    if inputCheck s (windowShort s) (inputMismatch s) ≠ 0 then (inputReported s, false)
    else if (streamsOn s c).any fun n => decide (streamReason s n ≠ 0) then (streamsReported s c, false)
    else if (streamsOn s c).any fun n => decide (pacerReason (checksLatched s c) n ≠ 0) then (pacersReported s c, false)
    else if (flowFailure (plannedPacers (checksLatched s c) (streamsOn s c))).isSome then (flowsReported s c, false)
    else (regPut (flowsReported s c) (key 0x2500 0x10) (admission s), decide (admission s = 0)) := rfl

theorem startChecks_only (s : State) (c : Chan) : Only [.regs] s (startChecks s c).1 := by
  have h1 : Only [.regs] s (inputReported s) := reportInput_only ..
  have h2 : Only [.regs] s (streamsReported s c) := h1.trans (forEach_only (fun _ _ => regPut_only ..) _ _)
  have h3 : Only [.regs] s (pacersReported s c) := h2.trans (forEach_only (fun _ _ => putField_only ..) _ _)
  have h4 : Only [.regs] s (flowsReported s c) := h3.trans (reportFlows_only ..)
  rw [startChecks_eq]
  refine .fst_ite h1 (.fst_ite h2 (.fst_ite h3 (.fst_ite h4 ?_)))
  exact h4.trans (regPut_only ..)

theorem storeValue_only (s : State) (k v : Nat) : Only [.dict] s (storeValue s k v) := .of_eq rfl

theorem takeValues_only (s : State) (c : Chan) : Only [.dict] s (takeValues s c) := by
  have htaken : Only [.dict] s { s with dict := { s.dict with inUse := takenValues s c } } := .of_eq rfl
  exact htaken.trans (forEach_only (fun _ _ => .of_eq rfl) _ _)

/-- The written values as a start of channel c takes them. -/
def valuesTaken (s : State) (c : Chan) : State := takeValues (storeValue s (kChan c 0x3000 1) 1) c

theorem valuesTaken_only (s : State) (c : Chan) : Only [.dict] s (valuesTaken s c) := (storeValue_only ..).trans (takeValues_only ..)

/-- An admitted start. -/
def startAdmitted (s : State) (c : Chan) (loads : List AtuLoad) : State :=
  let r := startChecks (valuesTaken s c) c
  beginStart (if newConfiguration s (valuesTaken s c) then settleConfiguration r.1 else r.1) c loads

/-- A refused start: the values in effect are those of before. -/
def startRefused (s : State) (c : Chan) : State :=
  let r := startChecks (valuesTaken s c) c
  setMode { r.1 with dict := { r.1.dict with inUse := s.dict.inUse } } c .refused

section
variable {s : State} {c : Chan} (loads : List AtuLoad)

theorem doChannelStart_busy (h : (s.chans.get c).mode = .starting ∨ (s.chans.get c).mode = .running) :
    doChannelStart c loads s = (s, none) := by
  rcases h with h | h <;> simp only [doChannelStart, h]

theorem doChannelStart_cannot
    (h : (s.chans.get c).mode = .stopping ∨ ((s.chans.get c).mode = .stopped ∧ s.relay.active = none)) :
    doChannelStart c loads s = (s, some .presentState) := by
  rcases h with h | ⟨h, hactive⟩
  · simp only [doChannelStart, h]
  · simp only [doChannelStart, h, hactive]

theorem doChannelStart_checked (h : (s.chans.get c).mode = .stopped ∨ (s.chans.get c).mode = .refused)
    (hactive : s.relay.active.isSome = true) : doChannelStart c loads s =
      (if (startChecks (valuesTaken s c) c).2 then startAdmitted s c loads else startRefused s c, none) := by
  obtain ⟨u, hu⟩ := Option.isSome_iff_exists.1 hactive
  rcases h with h | h
  all_goals
    simp only [doChannelStart, h, hu]
    split
    next hpass => rw [if_pos (show (startChecks (valuesTaken s c) c).2 = true from hpass)]; rfl
    next hfail => rw [if_neg (show ¬ (startChecks (valuesTaken s c) c).2 = true from hfail)]; rfl

theorem checked_kept (s : State) (c : Chan) : RunKept (valuesTaken s c) (startChecks (valuesTaken s c) c).1 :=
  .of_only (startChecks_only ..)

theorem valuesTaken_chans (s : State) (c : Chan) : (valuesTaken s c).chans = s.chans := (valuesTaken_only s c).part .chans (by decide)

theorem startAdmitted_startKept (s : State) (c : Chan) (loads : List AtuLoad) : StartKept c (valuesTaken s c) (startAdmitted s c loads) := by
  have hsettled : RunKept (valuesTaken s c) (if newConfiguration s (valuesTaken s c) then
      settleConfiguration (startChecks (valuesTaken s c) c).1 else (startChecks (valuesTaken s c) c).1) := by
    split
    · exact (checked_kept s c).trans (.of_only (settleConfiguration_only _))
    · exact checked_kept s c
  exact (StartKept.of_kept hsettled).trans (beginStart_startKept ..)

theorem startRefused_only (s : State) (c : Chan) : Only [.dict, .regs, .chans] s (startRefused s c) := by
  have hchecked : Only [.dict, .regs, .chans] s (startChecks (valuesTaken s c) c).1 :=
    ((Only.refl _ s).step (valuesTaken_only s c)).step (startChecks_only ..)
  exact (hchecked.step (l' := [.dict]) (.of_eq rfl)).step (setMode_only ..)

theorem startRefused_other {s : State} {c d : Chan} (h : d ≠ c) : (startRefused s c).chans.get d = s.chans.get d := by
  refine (setMode_other _ _ h).trans ?_
  rw [← valuesTaken_chans s c, ← (checked_kept s c).chans]

end

/-! ## The begin and the stop -/

theorem makeIrap_only (s : State) (n : StreamId) : Only [.streams] s (makeIrap s n) := modStream_only ..

theorem beginPicture_only (s : State) (n : StreamId) (irap : Bool) : Only [.streams, .regs] s (beginPicture s n irap) := by
  refine Only.step (l' := [.regs]) ?_ (putFlag_only ..)
  exact .of_eq rfl

theorem beginStream_only (s : State) (n : StreamId) : Only [.streams, .regs] s (beginStream s n) := by
  have hbegun : Only [.streams, .regs] s (beginPicture (modStream s n fun x => { x with active := true }) n true) :=
    ((Only.refl _ s).step (modStream_only ..)).step (beginPicture_only ..)
  exact hbegun.step (forEach_only (fun _ _ => makeIrap_only ..) _ _)

/-- The channels whose start has been admitted before the last tick. -/
def beginningChans (s : State) : List Chan :=
  allChans.filter fun c => decide ((s.chans.get c).mode = .starting ∧ (s.chans.get c).startedAt < s.lap.lastTick)

/-- They run. -/
def chansBegun (s : State) : State := forEach (beginningChans s) (fun x c => setMode x c .running) s

/-- The streams whose whole gang runs begin. -/
def streamsBegun (t : State) : State := forEach ((enabledStreams t).filter fun n => !t.streams[n].active && gangRuns t n) beginStream t

theorem execChannelBegin_runs {s : State} (hlap : inFirstLap s = true) (hdropped : s.lap.dropped = false) (hphase : phaseSettled s = true)
    (hactive : s.relay.active.isSome = true) : execChannelBegin s = .next (streamsBegun (chansBegun s)) :=
  if_pos ⟨hlap, by rw [hdropped]; decide, hphase, hactive⟩

/-- Once a channel's mode is set to m by every step that touches it, it is m. -/
theorem forEach_setMode (l : List Chan) (m : ChanMode) {c : Chan} (s : State) (h : c ∈ l ∨ (s.chans.get c).mode = m) :
    ((forEach l (fun x d => setMode x d m) s).chans.get c).mode = m := by
  induction l generalizing s with
  | nil => exact h.resolve_left List.not_mem_nil
  | cons d l ih =>
    refine ih (setMode s d m) ?_
    by_cases hd : c = d
    · subst hd
      exact .inr (setMode_same ..)
    · rw [setMode_other s m hd]
      exact h.imp_left fun h => (List.mem_cons.1 h).resolve_left hd

theorem mem_allChans (c : Chan) : c ∈ allChans := by
  revert c
  decide

/-- The mode of a channel whose gang stops. -/
def stoppedMode : ChanMode → ChanMode
  | .running => .stopping
  | .starting => .stopped
  | .refused => .stopped
  | m => m

theorem stopChannel_same (s : State) (c : Chan) : ((stopChannel s c).chans.get c).mode = stoppedMode (s.chans.get c).mode := by
  unfold stopChannel
  cases h : (s.chans.get c).mode with
  | running => exact setMode_same ..
  | starting => exact setMode_same ..
  | refused => exact setMode_same ..
  | stopped => exact h
  | stopping => exact h

theorem stopChannel_other (s : State) {c d : Chan} (h : d ≠ c) : (stopChannel s c).chans.get d = s.chans.get d := by
  unfold stopChannel
  split
  · exact setMode_other _ _ h
  · exact setMode_other _ _ h
  · exact setMode_other _ _ h
  · rfl

theorem stopChannel_only (s : State) (c : Chan) : Only [.chans, .regs] s (stopChannel s c) := by
  unfold stopChannel
  split
  · exact setMode_only ..
  · exact setMode_only ..
  · exact setMode_only ..
  · exact .refl ..

theorem stoppedMode_twice (m : ChanMode) : stoppedMode (stoppedMode m) = stoppedMode m := by
  cases m <;> rfl

theorem forEach_stopChannel_other (l : List Chan) {c : Chan} (s : State) (h : c ∉ l) :
    (forEach l stopChannel s).chans.get c = s.chans.get c := by
  induction l generalizing s with
  | nil => rfl
  | cons d l ih =>
    obtain ⟨hne, hl⟩ := not_or.1 (mt List.mem_cons.2 h)
    exact (ih (stopChannel s d) hl).trans (stopChannel_other s hne)

theorem forEach_stopChannel (l : List Chan) {c : Chan} (s : State) (m : ChanMode)
    (h : c ∈ l ∧ stoppedMode (s.chans.get c).mode = m ∨ (s.chans.get c).mode = m) (hm : stoppedMode m = m) :
    ((forEach l stopChannel s).chans.get c).mode = m := by
  induction l generalizing s with
  | nil => exact h.resolve_left fun h => List.not_mem_nil h.1
  | cons d l ih =>
    refine ih (stopChannel s d) ?_
    by_cases hd : c = d
    · subst hd
      refine .inr ((stopChannel_same s c).trans ?_)
      rcases h with ⟨-, h⟩ | h
      · exact h
      · rw [h, hm]
    · rw [stopChannel_other s hd]
      exact h.imp_left fun ⟨hc, h⟩ => ⟨(List.mem_cons.1 hc).resolve_left hd, h⟩

theorem mem_gangOf (s : State) (c : Chan) : c ∈ gangOf s c := by
  have hgrow : ∀ (l : List Chan) (g : List Chan → Chan → Bool), c ∈ l → c ∈ allChans.filter fun d => l.contains d || g l d :=
    fun l g hc => List.mem_filter.2 ⟨mem_allChans c, by simp [hc]⟩
  let g : List Chan → Chan → Bool := fun l d => (enabledStreams s).any fun n => carries s d n && l.any fun e => carries s e n
  exact hgrow _ g (hgrow _ g (hgrow _ g (List.mem_singleton.2 rfl)))

/-- The gang of a channel has been told to stop. -/
def gangStopped (s : State) (c : Chan) : State := forEach (gangOf s c) stopChannel (storeValue s (kChan c 0x3000 1) 0)

theorem doChannelStop_eq (s : State) (c : Chan) : doChannelStop c s = .ok (gangStopped s c) := rfl

theorem gangStopped_mode (s : State) (c : Chan) : ((gangStopped s c).chans.get c).mode = stoppedMode (s.chans.get c).mode :=
  forEach_stopChannel _ _ _ (.inl ⟨mem_gangOf s c, rfl⟩) (stoppedMode_twice _)

theorem gangStopped_other {s : State} {c d : Chan} (h : d ∉ gangOf s c) : (gangStopped s c).chans.get d = s.chans.get d :=
  forEach_stopChannel_other _ _ h

theorem gangStopped_only (s : State) (c : Chan) : Only [.dict, .chans, .regs] s (gangStopped s c) :=
  ((Only.refl _ s).step (storeValue_only ..)).step (forEach_only (fun _ _ => stopChannel_only ..) _ _)

/-! ## The end of a stop -/

theorem reportHeld_only (s : State) : Only [.regs] s (reportHeld s) := regPut_only ..

theorem captureLastStop_only (s : State) : Only [.capture, .regs] s (captureLastStop s) := by
  unfold captureLastStop
  split
  · refine Only.step (l' := [.regs]) ?_ (((clearFlag_only ..).trans (clearFlag_only ..)).trans (reportHeld_only _))
    exact .of_eq rfl
  · refine Only.step (l' := [.regs]) ?_ (reportHeld_only _)
    exact .ite (fun _ => Only.step (l' := [.regs]) (.of_eq rfl) (setFlag_only ..)) fun _ => .of_eq rfl
  · exact .refl ..

/-- A stream has ended with its channel. -/
def endStream (x : State) (n : StreamId) : State := reportGlobal (modStream x n fun y => { y with active := false }) n

theorem endStream_only (s : State) (n : StreamId) : Only [.streams, .regs] s (endStream s n) :=
  ((Only.refl _ s).step (modStream_only ..)).step (reportGlobal_only ..)

theorem endStream_streams (s : State) (n : StreamId) :
    (endStream s n).streams = (modStream s n fun y => { y with active := false }).streams := rfl

theorem forEach_endStream (l : List StreamId) {n : StreamId} (s : State) (h : n ∈ l ∨ s.streams[n].active = false) :
    (forEach l endStream s).streams[n].active = false := by
  induction l generalizing s with
  | nil => exact h.resolve_left List.not_mem_nil
  | cons m l ih =>
    refine ih (endStream s m) ?_
    by_cases hm : n = m
    · subst hm
      exact .inr (by rw [endStream_streams, modStream_same])
    · refine h.imp (fun h => (List.mem_cons.1 h).resolve_left hm) fun h => ?_
      rw [endStream_streams, modStream_other _ _ hm]
      exact h

theorem mem_allStreams (n : StreamId) : n ∈ allStreams := by
  revert n
  decide

theorem mem_streamsOn {s : State} {c : Chan} {n : StreamId} (h : carries s c n = true) : n ∈ streamsOn s c :=
  List.mem_filter.2 ⟨mem_allStreams n, h⟩

/-- The streams of a channel that has stopped have ended. -/
def chanEnded (s : State) (c : Chan) : State := forEach (streamsOn s c) endStream (setMode s c .stopped)

/-- Capture ends with the last channel. -/
def lastStopped (t : State) : State := if anyChannelRunning t then t else captureLastStop t

theorem lastStopped_only (t : State) : Only [.capture, .regs] t (lastStopped t) := .ite (fun _ => .refl ..) fun _ => captureLastStop_only t

theorem execChannelStopped_done {s : State} {c : Chan} (h : (s.chans.get c).mode = .stopping) (hdone : channelDone s c = true) :
    execChannelStopped c s = .next (lastStopped (chanEnded s c)) := if_pos ⟨h, hdone⟩

theorem execChannelStopped_not {s : State} {c : Chan} (h : (s.chans.get c).mode ≠ .stopping ∨ channelDone s c = false) :
    execChannelStopped c s = .next s := by
  refine if_neg fun ⟨hmode, hdone⟩ => ?_
  rcases h with h | h
  · exact h hmode
  · exact Bool.noConfusion (h.symm.trans hdone)

/-! ## The verification enable -/

/-- The verification enable of a channel as it is written. -/
def verifyWritten (s : State) (c : Chan) (v : Nat) : State :=
  modChan (storeValue s (kChan c 0x3002 8) v) c fun x => { x with verifyOn := decide (v = 1) }

theorem doVerifyEnable_unlocked {s : State} {k : Client} {c : Chan} {v : Nat} (h : s.maint.owner = some k) (hv : v ≤ 1) :
    doVerifyEnable k c v s = .ok (verifyWritten s c v) :=
  (if_neg (not_not_intro (show unlocked s k = true from decide_eq_true h))).trans (if_neg (Nat.not_lt.2 hv))

theorem doVerifyEnable_locked {s : State} {k : Client} {c : Chan} {v : Nat} (h : s.maint.owner ≠ some k) :
    doVerifyEnable k c v s = .error .localControl :=
  if_pos (show ¬ unlocked s k = true by rw [unlocked, decide_eq_true_eq]; exact h)

theorem touchClient_owner (s : State) (k : Client) : (touchClient s k).maint.owner = s.maint.owner := by
  unfold touchClient
  dsimp only
  split <;> rfl

/-- Settles O13: a start by its checks, a begin and a stop by the channels they name. -/
theorem runControlAndVerifyEnable : Obligations.RunControlAndVerifyEnable := by
  refine ⟨⟨fun k c loads s x hs hx hmode hactive => ?_, fun k c loads s hs => ⟨fun hbusy => ?_, fun hcannot => ?_⟩,
    fun c s hlap hdropped hphase hactive hmode hat => ?_, fun k c s hs hmode => ?_, fun k c s hs hmode => ?_, fun s hlap => ?_,
    fun c s => execChannelStopped_not, fun c s hmode hdone => ?_⟩, fun k c v s hs => ⟨fun howner hv => ?_, fun howner => ?_⟩⟩
  · have hx : x = valuesTaken (touchClient s k) c := hx
    have hstart := doChannelStart_checked (s := touchClient s k) (c := c) loads hmode hactive
    have hexec : exec (.channelStart k c loads) s = .next (answer (doChannelStart c loads (touchClient s k)).1 k .ack) := by
      rw [exec_channelStart, serveTrace_ok hs (by rw [hstart])]
    rw [hstart, ← hx] at hexec
    refine ⟨_, hexec, answered_answer .., ?_⟩
    subst hx
    have htouch : Only [.clients, .maint] s (touchClient s k) := touchClient_only s k
    split
    next hpass =>
      obtain ⟨hothers, hinUse⟩ := startAdmitted_startKept (touchClient s k) c loads
      refine ⟨beginStart_mode .., hinUse, fun d hd => (hothers d hd).trans ?_, fun h => absurd hpass (by rw [h]; decide)⟩
      rw [valuesTaken_chans]
      rfl
    next => exact ⟨setMode_same .., rfl, fun d hd => startRefused_other hd, fun _ =>
        ((((Only.refl [.dict, .regs, .chans, .streams, .clients, .maint] s).step htouch).step (startRefused_only ..)).step
          (answer_only ..)).eq⟩
  · have hstart := doChannelStart_busy (s := touchClient s k) (c := c) loads hbusy
    rw [exec_channelStart, serveTrace_ok hs (by rw [hstart]), hstart]
  · have hstart := doChannelStart_cannot (s := touchClient s k) (c := c) loads hcannot
    rw [exec_channelStart, serveTrace_error hs (by rw [hstart]), hstart]
  · refine ⟨_, execChannelBegin_runs hlap hdropped hphase hactive, ?_⟩
    rw [show (streamsBegun (chansBegun s)).chans = (chansBegun s).chans from
      (forEach_only (fun _ _ => beginStream_only ..) _ _).part .chans (by decide)]
    exact forEach_setMode _ _ _ (.inl (List.mem_filter.2 ⟨mem_allChans c, decide_eq_true ⟨hmode, hat⟩⟩))
  · refine ⟨_, exec_acknowledged (exec_channelStop ..) hs (doChannelStop_eq ..), answered_answer .., ?_, fun d hd => ?_, ?_⟩
    · exact (gangStopped_mode (touchClient s k) c).trans (congrArg stoppedMode hmode)
    · exact gangStopped_other (s := touchClient s k) hd
    · exact ((((Only.refl [.dict, .regs, .chans, .clients, .maint] s).step (touchClient_only s k)).step (gangStopped_only ..)).step
        (answer_only ..)).eq
  · exact ⟨_, exec_acknowledged (exec_channelStop ..) hs (doChannelStop_eq ..), answered_answer ..,
      (gangStopped_mode (touchClient s k) c).trans (congrArg stoppedMode hmode)⟩
  · exact if_neg fun h => Bool.noConfusion (hlap.symm.trans h.1)
  · have hlast := lastStopped_only (chanEnded s c)
    have hended : Only [.streams, .regs] (setMode s c .stopped) (chanEnded s c) := forEach_only (fun _ _ => endStream_only ..) _ _
    refine ⟨_, execChannelStopped_done hmode hdone, ?_, fun n hn => ?_⟩
    · rw [hlast.part .chans (by decide), hended.part .chans (by decide)]
      exact setMode_same ..
    · rw [hlast.part .streams (by decide)]
      exact forEach_endStream _ _ (.inl (mem_streamsOn hn))
  · have howner' : (touchClient s k).maint.owner = some k := (touchClient_owner s k).trans howner
    refine ⟨_, exec_acknowledged (exec_verifyEnableWrite ..) hs (doVerifyEnable_unlocked howner' hv), answered_answer .., ?_,
      fun d hd => ?_, ?_⟩
    · exact congrArg Channel.verifyOn (modChan_get_same ..)
    · exact modChan_get_other _ _ hd
    · have hwritten : Only [.dict, .chans] (touchClient s k) (verifyWritten (touchClient s k) c v) := .of_eq rfl
      exact ((((Only.refl [.dict, .chans, .clients, .maint] s).step (touchClient_only s k)).step hwritten).step (answer_only ..)).eq
  · exact exec_refused (exec_verifyEnableWrite ..) hs (doVerifyEnable_locked (by rw [touchClient_owner]; exact howner))

end Sys2Proof.Machine
end

section
/-! PROOF. The DMA channels of a unit stop (12_translation_dma.md R295, R297), and a fault in a context save (02_lap.md R50). -/

namespace Sys2Proof.Machine

set_option Elab.async false

/-! ## A channel changes alone -/

section
variable (s : State) (u : UnitId) (d : DmaId)

theorem dmaAt_modDma_same (f : Dma → Dma) : dmaAt (modDma s u d f) u d = f (dmaAt s u d) := by
  unfold dmaAt modDma
  rw [pair_mod_get, vmod_get_same]

theorem dmaAt_modDma_other {d' : DmaId} (f : Dma → Dma) (h : d' ≠ d) : dmaAt (modDma s u d f) u d' = dmaAt s u d' := by
  unfold dmaAt modDma
  rw [pair_mod_get, vmod_get_other _ _ _ _ h]

theorem modDma_otherUnit (f : Dma → Dma) : (modDma s u d f).dma.get u.other = s.dma.get u.other := pair_mod_other ..

theorem modDma_only (f : Dma → Dma) : Only [.dma] s (modDma s u d f) := .of_eq rfl

theorem settleReading_only : Only [.capture] s (settleReading s) := .of_eq rfl

theorem dmaEvent_only (flag : Fin 32) : Only [.regs, .overflow, .disp] s (dmaEvent s u d flag) := by
  have hbump : Only [.regs, .overflow, .disp] s (if u = viewUnit s then bump s (kDma d 5) else s) :=
    .ite (fun _ => (Only.refl _ s).step (bump_only ..)) fun _ => .refl ..
  unfold dmaEvent
  split
  · exact .refl ..
  · split
    · exact .ite (fun _ => hbump) fun _ => (Only.refl _ s).step (setTaskFlag_only ..)
    · exact hbump

/-- The event of a channel whose task is killed is counted and leaves the dispatcher as it is. -/
theorem dmaEvent_killed {i : Nat} (flag : Fin 32) (howner : (dmaAt s u d).owner = some i)
    (hkilled : ∀ y ∈ (s.disp.get u).tasks, y.ident = i → y.status = .killed) : (dmaEvent s u d flag).disp = s.disp := by
  have hbump : (if u = viewUnit s then bump s (kDma d 5) else s).disp = s.disp :=
    (Only.ite (l := [.regs, .overflow]) (fun _ => bump_only ..) fun _ => .refl ..).part .disp (by decide)
  unfold dmaEvent
  rw [howner]
  dsimp only
  split
  next y hfind =>
    have hident : y.ident = i := by simpa using List.find?_some hfind
    rw [if_pos (hkilled y (List.mem_of_find?_eq_some hfind) hident)]
    exact hbump
  · exact hbump

/-- A stopped channel's record. -/
def stopped (cause side addr ctx : Nat) (x : Dma) : Dma :=
  let y : Dma := { x with mode := .stopped, cause := cause, faultSide := side, faultAddr := addr, faultCtx := ctx,
                          stalledAt := none, packetElems := 0, packetData := [] }
  { y with status := statusRecord y 3 }

/-- The count of faults or aborts goes up in the unit in view. -/
def stopCounted (cause : Nat) : State := if u = viewUnit s then bumpHalf s (kDma d 4) (decide (2 < cause)) else s

theorem stopCounted_only (cause : Nat) : Only [.regs, .overflow] s (stopCounted s u d cause) :=
  .ite (fun _ => bumpHalf_only ..) fun _ => .refl ..

theorem stopDma_eq (cause side addr ctx : Nat) : stopDma s u d cause side addr ctx =
    settleReading (dmaEvent (stopCounted (modDma s u d (stopped cause side addr ctx)) u d cause) u d 31) := rfl

/-- What a stop leaves after its record stands. -/
theorem stopDma_after (cause side addr ctx : Nat) :
    Only [.regs, .overflow, .disp, .capture] (modDma s u d (stopped cause side addr ctx)) (stopDma s u d cause side addr ctx) := by
  rw [stopDma_eq]
  exact (((Only.refl _ _).step (stopCounted_only ..)).step (dmaEvent_only ..)).step (settleReading_only _)

theorem stopDma_dma (cause side addr ctx : Nat) :
    (stopDma s u d cause side addr ctx).dma = (modDma s u d (stopped cause side addr ctx)).dma :=
  (stopDma_after ..).part .dma (by decide)

theorem stopDma_only (cause side addr ctx : Nat) :
    Only [.dma, .regs, .overflow, .disp, .capture] s (stopDma s u d cause side addr ctx) :=
  ((Only.refl _ s).step (modDma_only s u d (stopped cause side addr ctx))).step (stopDma_after ..)

theorem dmaAt_stopDma_same (cause side addr ctx : Nat) :
    dmaAt (stopDma s u d cause side addr ctx) u d = stopped cause side addr ctx (dmaAt s u d) := by
  rw [dmaAt, stopDma_dma]
  exact dmaAt_modDma_same ..

theorem dmaAt_stopDma_other {d' : DmaId} (cause side addr ctx : Nat) (h : d' ≠ d) :
    dmaAt (stopDma s u d cause side addr ctx) u d' = dmaAt s u d' := by
  rw [dmaAt, stopDma_dma]
  exact dmaAt_modDma_other _ _ _ _ h

theorem stopDma_disp {i : Nat} (cause side addr ctx : Nat) (howner : (dmaAt s u d).owner = some i)
    (hkilled : ∀ y ∈ (s.disp.get u).tasks, y.ident = i → y.status = .killed) :
    (stopDma s u d cause side addr ctx).disp = s.disp := by
  have hcounted := stopCounted_only (modDma s u d (stopped cause side addr ctx)) u d cause
  have hdisp : (stopCounted (modDma s u d (stopped cause side addr ctx)) u d cause).disp = s.disp := hcounted.part .disp (by decide)
  rw [stopDma_eq]
  refine (dmaEvent_killed (i := i) _ u d 31 ?_ (by rw [hdisp]; exact hkilled)).trans hdisp
  rw [dmaAt, hcounted.part .dma (by decide)]
  exact (congrArg Dma.owner (dmaAt_modDma_same ..)).trans howner

/-! ## An abort -/

/-- The position an abort records. -/
def abortPlaced (z : Dma) : Dma := { z with pos := z.stalledAt.getD (abortDma.packetFirstOr z), bytePos := z.bytePos }

theorem abortDma_active {d : DmaId} (cause : Nat) (h : dmaActive (dmaAt s u d) = true) :
    abortDma s u d cause = stopDma (modDma s u d abortPlaced) u d cause 0 0 0 := if_pos h

theorem abortDma_idle {d : DmaId} (cause : Nat) (h : dmaActive (dmaAt s u d) = false) : abortDma s u d cause = s :=
  if_neg (by rw [h]; decide)

theorem abortDma_only (cause : Nat) : Only [.dma, .regs, .overflow, .disp, .capture] s (abortDma s u d cause) := by
  refine .ite (fun _ => ?_) fun _ => .refl ..
  exact ((Only.refl _ s).step (modDma_only s u d abortPlaced)).step (stopDma_only ..)

theorem dmaAt_abortDma_other {d' : DmaId} (cause : Nat) (h : d' ≠ d) : dmaAt (abortDma s u d cause) u d' = dmaAt s u d' := by
  cases hactive : dmaActive (dmaAt s u d) with
  | false => rw [abortDma_idle s u cause hactive]
  | true => rw [abortDma_active s u cause hactive, dmaAt_stopDma_other _ _ _ _ _ _ _ h, dmaAt_modDma_other _ _ _ _ h]

theorem dmaAt_abortDma_same {d : DmaId} (cause : Nat) (h : dmaActive (dmaAt s u d) = true) :
    dmaAt (abortDma s u d cause) u d = stopped cause 0 0 0 (abortPlaced (dmaAt s u d)) := by
  rw [abortDma_active s u cause h, dmaAt_stopDma_same, dmaAt_modDma_same]

theorem abortDma_otherUnit (cause : Nat) : (abortDma s u d cause).dma.get u.other = s.dma.get u.other := by
  cases hactive : dmaActive (dmaAt s u d) with
  | false => rw [abortDma_idle s u cause hactive]
  | true => rw [abortDma_active s u cause hactive, stopDma_dma, modDma_otherUnit, modDma_otherUnit]

theorem abortDma_owner (d' : DmaId) (cause : Nat) : (dmaAt (abortDma s u d cause) u d').owner = (dmaAt s u d').owner := by
  by_cases h : d' = d
  · subst h
    cases hactive : dmaActive (dmaAt s u d') with
    | false => rw [abortDma_idle s u cause hactive]
    | true => rw [dmaAt_abortDma_same s u cause hactive]; rfl
  · rw [dmaAt_abortDma_other s u d cause h]

theorem abortDma_disp {i : Nat} (cause : Nat) (howner : (dmaAt s u d).owner = some i)
    (hkilled : ∀ y ∈ (s.disp.get u).tasks, y.ident = i → y.status = .killed) : (abortDma s u d cause).disp = s.disp := by
  cases hactive : dmaActive (dmaAt s u d) with
  | false => rw [abortDma_idle s u cause hactive]
  | true =>
    rw [abortDma_active s u cause hactive]
    refine stopDma_disp (i := i) _ u d _ _ _ _ ?_ hkilled
    exact (congrArg Dma.owner (dmaAt_modDma_same ..)).trans howner

end

/-- Channels of a list are aborted. -/
def abortAll (l : List DmaId) (u : UnitId) (cause : Nat) (s : State) : State := forEach l (fun x d => abortDma x u d cause) s

section
variable (l : List DmaId) (u : UnitId) (cause : Nat) (s : State)

theorem abortAll_only : Only [.dma, .regs, .overflow, .disp, .capture] s (abortAll l u cause s) :=
  forEach_only (fun _ _ => abortDma_only ..) l s

theorem abortAll_otherUnit : (abortAll l u cause s).dma.get u.other = s.dma.get u.other := by
  induction l generalizing s with
  | nil => rfl
  | cons d l ih => exact (ih (abortDma s u d cause)).trans (abortDma_otherUnit ..)

theorem abortAll_notMem {d : DmaId} (h : d ∉ l) : dmaAt (abortAll l u cause s) u d = dmaAt s u d := by
  induction l generalizing s with
  | nil => rfl
  | cons d' l ih =>
    obtain ⟨hne, hl⟩ := not_or.1 (mt List.mem_cons.2 h)
    exact (ih (abortDma s u d' cause) hl).trans (dmaAt_abortDma_other s u d' cause hne)

theorem abortAll_stopped {d : DmaId} (h : (dmaAt s u d).mode = .stopped ∧ (dmaAt s u d).cause = cause ∨
    d ∈ l ∧ dmaActive (dmaAt s u d) = true) :
    (dmaAt (abortAll l u cause s) u d).mode = .stopped ∧ (dmaAt (abortAll l u cause s) u d).cause = cause := by
  induction l generalizing s with
  | nil => exact h.resolve_right fun h => List.not_mem_nil h.1
  | cons d' l ih =>
    refine ih (abortDma s u d' cause) ?_
    by_cases hd : d = d'
    · subst hd
      left
      cases hactive : dmaActive (dmaAt s u d) with
      | false =>
        rw [abortDma_idle s u cause hactive]
        exact h.resolve_right fun h => Bool.noConfusion (hactive.symm.trans h.2)
      | true =>
        rw [dmaAt_abortDma_same s u cause hactive]
        exact ⟨rfl, rfl⟩
    · rw [dmaAt_abortDma_other s u d' cause hd]
      exact h.imp_right fun h => ⟨(List.mem_cons.1 h.1).resolve_left hd, h.2⟩

theorem abortAll_disp {i : Nat} (howner : ∀ d ∈ l, (dmaAt s u d).owner = some i)
    (hkilled : ∀ y ∈ (s.disp.get u).tasks, y.ident = i → y.status = .killed) : (abortAll l u cause s).disp = s.disp := by
  induction l generalizing s with
  | nil => rfl
  | cons d l ih =>
    have hstep : (abortDma s u d cause).disp = s.disp := abortDma_disp s u d cause (howner d List.mem_cons_self) hkilled
    refine (ih (abortDma s u d cause) (fun d' hd' => ?_) (by rw [hstep]; exact hkilled)).trans hstep
    rw [abortDma_owner]
    exact howner d' (List.mem_cons_of_mem _ hd')

end

/-! ## A fault in a context save -/

theorem exec_contextSaveFault (u : UnitId) (e : EngineId) (s : State) :
    exec (.contextSaveFault u e) s = execContextSaveFault u e s := rfl

/-- The task whose context was written is killed; the rest of the engine's saved tasks stays. -/
def savedTaskKilled (s : State) (u : UnitId) (e : EngineId) (i : Nat) (rest : List Nat) : State :=
  { s with disp := s.disp.mod u fun d =>
    { modTask d i (fun x => { x with status := .killed }) with saved := vmod d.saved e fun _ => rest } }

/-- The channels of a task. -/
def channelsOf (s : State) (u : UnitId) (i : Nat) : List DmaId := allDma.filter fun d => decide ((dmaAt s u d).owner = some i)

theorem execContextSaveFault_saved {s : State} {u : UnitId} {e : EngineId} {i : Nat} {rest : List Nat}
    (h : (s.disp.get u).saved.get e = i :: rest) : execContextSaveFault u e s =
      .next (logNote (abortAll (channelsOf s u i) u 2 (savedTaskKilled s u e i rest)) 10 (key 0x2500 9) e.val) := by
  simp only [execContextSaveFault, h]
  rfl

theorem savedTaskKilled_tasks (s : State) (u : UnitId) (e : EngineId) (i : Nat) (rest : List Nat) :
    ∀ y ∈ ((savedTaskKilled s u e i rest).disp.get u).tasks, y.ident = i → y.status = .killed := by
  intro y hy hident
  rw [savedTaskKilled, pair_mod_get] at hy
  obtain ⟨x, -, rfl⟩ := List.mem_map.1 hy
  split at hident
  next hx => rw [if_pos hx]
  next hx => exact absurd hident hx

theorem mem_channelsOf {s : State} {u : UnitId} {i : Nat} {d : DmaId} : d ∈ channelsOf s u i ↔ (dmaAt s u d).owner = some i := by
  have hall : ∀ d : DmaId, d ∈ allDma := by decide
  rw [channelsOf, List.mem_filter, decide_eq_true_eq]
  exact ⟨fun h => h.2, fun h => ⟨hall d, h⟩⟩

/-- Settles O34: the task killed first, its channels abort without it. -/
theorem contextFaultKillsTheTask : Obligations.ContextFaultKillsTheTask := by
  refine fun u e s => ⟨fun h => ?_, fun i rest h => ?_⟩
  · rw [exec_contextSaveFault, execContextSaveFault, h]
  let k := savedTaskKilled s u e i rest
  let t := abortAll (channelsOf s u i) u 2 k
  have hnote := logNote_only t 10 (key 0x2500 9) e.val
  have hdisp : (logNote t 10 (key 0x2500 9) e.val).disp = k.disp :=
    (hnote.part .disp (by decide)).trans (abortAll_disp _ u 2 k (fun d hd => mem_channelsOf.1 hd) (savedTaskKilled_tasks s u e i rest))
  have hdma : (logNote t 10 (key 0x2500 9) e.val).dma = t.dma := hnote.part .dma (by decide)
  have hat : ∀ d, dmaAt (logNote t 10 (key 0x2500 9) e.val) u d = dmaAt t u d := fun d => by rw [dmaAt, hdma]; rfl
  have hframe : Only [.dma, .regs, .overflow, .disp, .capture, .log] s (logNote t 10 (key 0x2500 9) e.val) :=
    ((Only.refl _ s).step (l' := [.disp]) (.of_eq rfl) |>.step (abortAll_only (channelsOf s u i) u 2 k)).step hnote
  refine ⟨_, (exec_contextSaveFault ..).trans (execContextSaveFault_saved h), ?_, ?_, fun d howner hactive => ?_, fun d howner => ?_, ?_, ?_,
    hframe.eq⟩
  · rw [hdisp]
    exact (congrArg (fun d : DispState => d.saved.get e) (pair_mod_get ..)).trans (vmod_get_same ..)
  · rw [hdisp]
    exact savedTaskKilled_tasks s u e i rest
  · rw [hat]
    exact abortAll_stopped _ u 2 k (.inr ⟨mem_channelsOf.2 howner, hactive⟩)
  · rw [hat]
    exact abortAll_notMem _ u 2 k (mt mem_channelsOf.1 howner)
  · rw [hdisp]
    exact pair_mod_other ..
  · rw [hdma]
    exact abortAll_otherUnit ..

end Sys2Proof.Machine
end

section
/-! PROOF. Unit faults, repair and the arbiter's latch (13_relay.md R318, R319, R327, R328, R330; 14_integrity.md R335, R336). -/

namespace Sys2Proof.Machine

set_option Elab.async false

/-! ## What a unit's repair changes -/

/-- The parts that a unit's cold start empties or a repair records. -/
abbrev repairParts : List StatePart :=
  [.disp, .lanes, .links, .input, .bridge, .meters, .dram, .atu, .dma, .baton, .selfTest, .standIns, .slots, .ports, .free, .regs, .relay,
    .rst, .boot]

/-- The parts of a fault's report: those of a repair and those of its EMCY. -/
abbrev faultParts : List StatePart := .overflow :: .emcy :: .log :: repairParts

section
variable (s : State) (u : UnitId)

theorem unitCold_only : Only repairParts s (unitCold s u) := .of_eq rfl

theorem assertSource_only (c : Nat) : Only [.rst] s (assertSource s c) := .of_eq rfl

theorem loseReady_only : Only [.regs, .relay] s (loseReady s) := by
  have hflag : Only [.regs, .relay] s (clearFlag s kRelayStatus 31) := (Only.refl _ s).step (clearFlag_only ..)
  exact hflag.step (l' := [.relay]) (.of_eq rfl)

theorem noteBypass_only : Only [.regs] s (noteBypass s) := .ite (fun _ => setFlag_only ..) fun _ => .refl ..

/-- A unit held in reset, its attempt not yet counted. -/
def unitHeld : State := unitCold (loseReady (assertSource s 6)) u

/-- The attempt is counted. -/
def attemptCounted (x : State) : State := noteBypass (regPut x (key 0x2010 0x0E) (regGet x (key 0x2010 0x0E) + 1))

/-- The repair stands in the relay and in the unit's boot state. -/
def repairStands (x : State) : State :=
  { x with
    relay := { x.relay with
      repair := .inReset s.now
      repairUnit := u
      repairDone := false
      holdOffAt := none
      mode := match x.relay.mode with
        | .lockedOut => .lockedOut
        | .failed => .failed
        | .starting => .starting
        | _ => .repairing }
    boot := x.boot.mod u fun b => { b with mode := .inReset } }

theorem startRepair_eq : startRepair s u = repairStands s u (attemptCounted (unitHeld s u)) := rfl

theorem unitHeld_only : Only repairParts s (unitHeld s u) :=
  (((Only.refl _ s).step (assertSource_only ..)).step (loseReady_only _)).step (unitCold_only ..)

theorem attemptCounted_only (x : State) : Only [.regs] x (attemptCounted x) := (regPut_only ..).trans (noteBypass_only _)

theorem repairStands_only (x : State) : Only [.relay, .boot] x (repairStands s u x) := .of_eq rfl

theorem startRepair_only : Only repairParts s (startRepair s u) :=
  ((unitHeld_only s u).step (attemptCounted_only _)).step (repairStands_only ..)

theorem enterRepair_only : Only repairParts s (enterRepair s u) := by
  refine .ite (fun _ => .refl ..) fun _ => ?_
  exact ((Only.refl _ s).step (regPut_only s (key 0x2010 0x0E) 0)).step (startRepair_only ..)

theorem reportUnitFault_only (source : Nat) : Only faultParts s (reportUnitFault s u source) := by
  have hdrop : Only faultParts s (if s.relay.mode = .warming then setFlag (dropSwitch s) kRelayStatus 26 else s) :=
    .ite (fun _ => Only.step (l' := [.regs]) (.of_eq rfl) (setFlag_only (dropSwitch s) ..)) fun _ => .refl ..
  have hraise : ∀ x, Only faultParts s x → Only faultParts s (if s.relay.mode = .warming then raiseEmcy x 0xFF03 kRelayStatus 0 else x) :=
    fun x hx => .ite (fun _ => hx.step (raiseEmcy_only ..)) fun _ => hx
  exact .ite (fun _ => .of_eq rfl) fun _ => (hraise _ hdrop).step (enterRepair_only ..)

/-! ## A repair that starts -/

theorem attemptCounted_relay (x : State) : (attemptCounted x).relay = x.relay := (attemptCounted_only x).part .relay (by decide)

theorem startRepair_repair : (startRepair s u).relay.repair = .inReset s.now := rfl

theorem startRepair_unit : (startRepair s u).relay.repairUnit = u := rfl

theorem startRepair_activeUnit : (startRepair s u).relay.active = s.relay.active := by
  have hrelay := attemptCounted_relay (unitHeld s u)
  exact (congrArg RelayState.active hrelay).trans rfl

theorem startRepair_disp : (startRepair s u).disp = s.disp.set u dispReset :=
  ((attemptCounted_only (unitHeld s u)).part .disp (by decide)).trans rfl

theorem startRepair_dram : (startRepair s u).dram.get u.other = s.dram.get u.other := by
  have hdram : (startRepair s u).dram = (unitHeld s u).dram := (attemptCounted_only (unitHeld s u)).part .dram (by decide)
  rw [hdram]
  exact pair_set_other ..

theorem startRepair_boot : (startRepair s u).boot = s.boot.mod u fun b => { b with mode := .inReset } := by
  have hboot : (attemptCounted (unitHeld s u)).boot = s.boot := (attemptCounted_only (unitHeld s u)).part .boot (by decide)
  exact congrArg (fun b : Pair UnitBoot => b.mod u fun b => { b with mode := .inReset }) hboot

/-- The flags that a repair may lower, and the attempts. -/
def repairKeys : List Nat := [kRelayStatus, key 0x2010 0x0E]

theorem attemptCounted_flagsStay (x : State) : FlagsStay repairKeys x (attemptCounted x) := by
  have hput : FlagsStay repairKeys x (regPut x (key 0x2010 0x0E) (regGet x (key 0x2010 0x0E) + 1)) :=
    (FlagsStay.refl _ x).step (regPut_flagsStay ..)
  unfold attemptCounted noteBypass
  split
  · exact hput.step (setFlag_flagsStay ..)
  · exact hput

theorem startRepair_flagsStay : FlagsStay repairKeys s (startRepair s u) := by
  have hheld : FlagsStay repairKeys s (unitHeld s u) :=
    (FlagsStay.of_regs _ rfl).trans (((FlagsStay.refl _ _).step (regPut_flagsStay ..)).trans (.of_regs _ rfl))
  exact (hheld.trans (attemptCounted_flagsStay _)).trans (.of_regs _ rfl)

theorem startRepair_attempts (hwf : assocWf defaultOf s.regs = true) :
    regGet (startRepair s u) (key 0x2010 0x0E) = (regGet s (key 0x2010 0x0E) + 1) % 2 ^ widthOf (key 0x2010 0x0E) := by
  have hheld : regGet (unitHeld s u) (key 0x2010 0x0E) = regGet s (key 0x2010 0x0E) :=
    (regGet_regPut_other _ _ _ _ (by decide)).trans rfl
  have hbypass : ∀ x, regGet (noteBypass x) (key 0x2010 0x0E) = regGet x (key 0x2010 0x0E) := fun x => by
    unfold noteBypass
    split
    · exact setFlag_except _ _ _ _ (by decide)
    · rfl
  have hcounted : regGet (startRepair s u) (key 0x2010 0x0E) = regGet (attemptCounted (unitHeld s u)) (key 0x2010 0x0E) := rfl
  have hwfHeld : assocWf defaultOf (unitHeld s u).regs = true := regPut_wf _ _ _ hwf
  rw [hcounted, attemptCounted, hbypass, regGet_regPut_same _ _ _ hwfHeld, hheld]

end

/-! ## The unit that is faulted -/

section
variable {s : State} {u : UnitId}

theorem enterRepair_started (hrepair : s.relay.repair = .none) (hfailed : s.relay.mode ≠ .failed) :
    enterRepair s u = startRepair (regPut s (key 0x2010 0x0E) 0) u := if_neg (by simp [hrepair, hfailed])

theorem reportUnitFault_standby (source : Nat) (hactive : s.relay.active ≠ some u) (hwarming : s.relay.mode ≠ .warming)
    (hfailed : s.relay.mode ≠ .failed) (hrepair : s.relay.repair = .none) :
    reportUnitFault s u source = startRepair (regPut s (key 0x2010 0x0E) 0) u := by
  rw [reportUnitFault, if_neg hactive, if_neg hwarming]
  dsimp only
  rw [if_neg hwarming, enterRepair_started hrepair hfailed]

theorem reportUnitFault_flagsStay (s : State) (u : UnitId) (source : Nat) :
    FlagsStay (lostKeys ++ repairKeys) s (reportUnitFault s u source) := by
  have hdrop : FlagsStay (lostKeys ++ repairKeys) s (if s.relay.mode = .warming then setFlag (dropSwitch s) kRelayStatus 26 else s) := by
    split
    · exact (FlagsStay.of_regs (s := s) (t := dropSwitch s) (lostKeys ++ repairKeys) rfl).step (setFlag_flagsStay ..)
    · exact .refl ..
  have hraise : ∀ x, FlagsStay (lostKeys ++ repairKeys) x (if s.relay.mode = .warming then raiseEmcy x 0xFF03 kRelayStatus 0 else x) := by
    intro x
    split
    · exact (FlagsStay.refl _ x).step (raiseEmcy_flagsStay ..)
    · exact .refl ..
  have henter : ∀ x, FlagsStay (lostKeys ++ repairKeys) x (enterRepair x u) := by
    intro x
    unfold enterRepair
    dsimp only
    split
    · exact .refl ..
    · exact ((FlagsStay.refl _ x).step (regPut_flagsStay ..)).step (startRepair_flagsStay ..)
  unfold reportUnitFault
  dsimp only
  split
  · exact .of_regs _ rfl
  · exact (hdrop.trans (hraise _)).trans (henter _)

/-- A fault reported after its own report: of the active unit it waits, of the other one it starts the repair. -/
theorem faultTaken_of {v : State} (code : Nat) (h : Only [.regs, .overflow, .emcy, .log, .boot] s v) :
    FaultTaken s (reportUnitFault v u code) u code := by
  have hrelay : v.relay = s.relay := h.part .relay (by decide)
  have hafter := (h.mono (l' := faultParts) (by decide)).trans (reportUnitFault_only v u code)
  refine ⟨fun hactive => ?_, fun hactive hwarming hfailed hrepair => ?_, hafter.part .dict (by decide), hafter.part .chans (by decide),
    hafter.part .streams (by decide), hafter.part .flows (by decide)⟩
  · have hset : Only [.relay] v (reportUnitFault v u code) := by
      rw [reportUnitFault_active (hrelay ▸ hactive)]
      exact .of_eq rfl
    refine ⟨?_, ((h.mono (l' := [.regs, .overflow, .emcy, .log, .relay, .boot]) (by decide)).step hset).eq⟩
    rw [reportUnitFault_active (hrelay ▸ hactive), hrelay]
  · rw [← hrelay] at hactive hwarming hfailed hrepair
    rw [reportUnitFault_standby code hactive hwarming hfailed hrepair]
    refine ⟨congrArg RepairPhase.inReset (h.part .now (by decide)), rfl, ?_, ?_, ?_⟩
    · rw [startRepair_activeUnit]
      exact congrArg RelayState.active hrelay
    · rw [startRepair_disp, pair_set_other]
      exact congrArg (·.get u.other) (h.part .disp (by decide))
    · rw [startRepair_dram]
      exact congrArg (·.get u.other) (h.part .dram (by decide))

end

/-! ## The fault's report -/

/-- The status bit and the EMCY of a fault, before it reaches the arbiter. -/
def faultShown (s : State) (u : UnitId) (src : UnitFaultSource) : State :=
  raiseEmcyOf (if src = .clockOrRail then s else setFlag s (faultRow src).1 (faultRow src).2.1) u (faultRow src).2.2.1 (faultRow src).1 0

theorem unitFaultOf_eq (s : State) (u : UnitId) (src : UnitFaultSource) :
    unitFaultOf s u src = reportUnitFault (faultShown s u src) u (faultRow src).2.2.2 := rfl

theorem faultShown_only (s : State) (u : UnitId) (src : UnitFaultSource) : Only [.regs, .overflow, .emcy, .log] s (faultShown s u src) := by
  have hflag : Only [.regs, .overflow, .emcy, .log] s
      (if src = .clockOrRail then s else setFlag s (faultRow src).1 (faultRow src).2.1) :=
    .ite (fun _ => .refl ..) fun _ => (Only.refl _ s).step (setFlag_only ..)
  exact hflag.step (raiseEmcyOf_only ..)

/-- The word of a fault source's status bit holds it and is not one that a report counts in. -/
theorem faultRow_bit (src : UnitFaultSource) : (faultRow src).2.1 < widthOf (faultRow src).1 ∧ (faultRow src).1 ∉ lostKeys ++ repairKeys := by
  have hchan : ∀ c : Chan, 30 < widthOf (key (0x3002 + 0x100 * c.val) 0x0A) ∧ key (0x3002 + 0x100 * c.val) 0x0A ∉ lostKeys ++ repairKeys := by
    decide
  cases src with
  | verdict c => exact hchan c
  | egress c => exact hchan c
  | hurdle => decide
  | lane => decide
  | memory => decide
  | watchdog => decide
  | clockOrRail => decide
  | thermal => decide

theorem faultShown_flag {s : State} (u : UnitId) {src : UnitFaultSource} (hsrc : src ≠ .clockOrRail) (hwf : assocWf defaultOf s.regs = true) :
    flag (faultShown s u src) (faultRow src).1 (faultRow src).2.1 = true := by
  obtain ⟨hbit, hkey⟩ := faultRow_bit src
  rw [faultShown, if_neg hsrc]
  exact (raiseEmcyOf_flagsStay ..).stay (regPut_wf _ _ _ hwf) _ _ (fun h => hkey (List.mem_append_left _ h)) hbit (flag_setFlag_same hwf hbit)

theorem faultShown_wf {s : State} (u : UnitId) (src : UnitFaultSource) (hwf : assocWf defaultOf s.regs = true) :
    assocWf defaultOf (faultShown s u src).regs = true := by
  refine (raiseEmcyOf_flagsStay _ u _ _ _).wf ?_
  split
  · exact hwf
  · exact regPut_wf _ _ _ hwf

theorem unitFaultOf_flag {s : State} (u : UnitId) {src : UnitFaultSource} (hsrc : src ≠ .clockOrRail) (hwf : assocWf defaultOf s.regs = true) :
    flag (unitFaultOf s u src) (faultRow src).1 (faultRow src).2.1 = true := by
  obtain ⟨hbit, hkey⟩ := faultRow_bit src
  rw [unitFaultOf_eq]
  exact (reportUnitFault_flagsStay ..).stay (faultShown_wf u src hwf) _ _ hkey hbit (faultShown_flag u hsrc hwf)

theorem unitFaultOf_taken {s v : State} {u : UnitId} (src : UnitFaultSource) (h : Only [.regs, .overflow, .emcy, .log, .boot] s v) :
    FaultTaken s (unitFaultOf v u src) u (faultRow src).2.2.2 := by
  rw [unitFaultOf_eq]
  exact faultTaken_of _ (h.step (faultShown_only v u src))

/-! ## The unit's monitors -/

theorem exec_engineWatchdogExpiry (u : UnitId) (e : EngineId) (s : State) :
    exec (.engineWatchdogExpiry u e) s = .next (unitFaultOf s u .watchdog) := rfl

/-- A monitor of unit u has fallen. -/
def railFell (s : State) (u : UnitId) : State := { s with boot := s.boot.mod u fun b => { b with railFault := true } }

def clockFell (s : State) (u : UnitId) : State := { s with boot := s.boot.mod u fun b => { b with clockFault := true } }

theorem exec_unitRailFault (u : UnitId) (rail : Fin 7) (s : State) :
    exec (.unitRailFault u rail) s = .next (unitFaultOf (railFell s u) u .clockOrRail) := rfl

theorem exec_unitClockFault (u : UnitId) (s : State) :
    exec (.unitClockFault u) s = .next (unitFaultOf (clockFell s u) u .clockOrRail) := rfl

theorem exec_mirrorTimeout (u : UnitId) (s : State) :
    exec (.mirrorTimeout u) s = .next (reportUnitFault (logNote s 0 (key 0x2011 1) u.bit) u 0) := rfl

/-- A report of unit u's fault leaves its boot state but for its mode. -/
theorem unitFaultOf_boot (s : State) (u : UnitId) (src : UnitFaultSource) :
    (unitFaultOf s u src).boot = s.boot ∨ (unitFaultOf s u src).boot = s.boot.mod u fun b => { b with mode := .inReset } := by
  have hshown : (faultShown s u src).boot = s.boot := (faultShown_only s u src).part .boot (by decide)
  have henter : ∀ x, x.boot = s.boot → (enterRepair x u).boot = s.boot ∨
      (enterRepair x u).boot = s.boot.mod u fun b => { b with mode := .inReset } := by
    intro x hx
    unfold enterRepair
    dsimp only
    split
    · exact .inl hx
    · right
      rw [startRepair_boot, ← hx]
      rfl
  rw [unitFaultOf_eq, ← hshown]
  generalize faultShown s u src = v at hshown henter
  rw [← hshown] at henter
  unfold reportUnitFault
  dsimp only
  split
  · exact .inl rfl
  · refine henter _ ?_
    split
    · exact ((raiseEmcy_only ..).part .boot (by decide)).trans ((setFlag_only (dropSwitch v) kRelayStatus 26).part .boot (by decide))
    · rfl

theorem unitFaultOf_railFault (s : State) (u w : UnitId) (src : UnitFaultSource) :
    ((unitFaultOf s u src).boot.get w).railFault = (s.boot.get w).railFault ∧
      ((unitFaultOf s u src).boot.get w).clockFault = (s.boot.get w).clockFault := by
  rcases unitFaultOf_boot s u src with h | h <;> rw [h]
  · exact ⟨rfl, rfl⟩
  · cases u <;> cases w <;> exact ⟨rfl, rfl⟩

/-- Settles O44: every monitor reports a fault of its unit with its source. -/
theorem unitMonitorsFaultTheirUnit : Obligations.UnitMonitorsFaultTheirUnit := by
  refine ⟨fun u e s => ⟨_, exec_engineWatchdogExpiry .., unitFaultOf_taken .watchdog (.refl _ s), unitFaultOf_flag u (by decide)⟩,
    fun u rail s => ⟨_, exec_unitRailFault .., unitFaultOf_taken .clockOrRail (.of_eq rfl), ?_, ?_⟩,
    fun u s => ⟨_, exec_unitClockFault .., unitFaultOf_taken .clockOrRail (.of_eq rfl), ?_, ?_⟩,
    fun u s => ⟨_, exec_mirrorTimeout .., faultTaken_of 0 ((Only.refl _ s).step (logNote_only ..))⟩⟩
  · rw [(unitFaultOf_railFault ..).1, railFell, pair_mod_get]
  · rw [(unitFaultOf_railFault ..).1, railFell, pair_mod_other]
  · rw [(unitFaultOf_railFault ..).2, clockFell, pair_mod_get]
  · rw [(unitFaultOf_railFault ..).2, clockFell, pair_mod_other]

/-! ## The arbiter -/

theorem exec_unitFault (u : UnitId) (src : UnitFaultSource) (s : State) : exec (.unitFault u src) s = .next (unitFaultOf s u src) := rfl

/-- The readiness that the arbiter latches with its decision. -/
def latchReady (s : State) : Bool := standbyIsReady s && standInsReady s && !s.lap.voterHold

theorem latchReady_true {s : State} (h1 : standbyIsReady s = true) (h2 : standInsReady s = true) (h3 : s.lap.voterHold = false) :
    latchReady s = true := by
  rw [latchReady, h1, h2, h3]
  rfl

theorem latchReady_hold {s : State} (h : s.lap.voterHold = true) : latchReady s = false := by
  rw [latchReady, h, Bool.not_true, Bool.and_false]

theorem arbiterLatch_fault {s : State} {src : Nat} (hfault : s.relay.fault = some src) : execArbiterLatch s =
    if latchReady s = true ∧ s.relay.mode ≠ .lockedOut then
      .next { s with relay := { s.relay with latched := some { planned := false, source := src } } }
    else .next (refuseHandover s) := by
  simp only [execArbiterLatch, hfault, latchReady]

theorem arbiterLatch_forced {s : State} (hfault : s.relay.fault = none) (hforced : s.relay.forced = true) : execArbiterLatch s =
    .next { s with relay := { s.relay with
      forced := false
      latched := if latchReady s then some { planned := false, source := 0 } else none } } := by
  simp only [execArbiterLatch, hfault, hforced, latchReady]
  exact if_pos trivial

theorem arbiterLatch_unforced {s : State} (hfault : s.relay.fault = none) (hforced : s.relay.forced = false) : execArbiterLatch s =
    if s.relay.mode = .warming ∧ s.relay.switchTick = some (s.lap.count + 1) then
      .next { s with relay := { s.relay with latched := if latchReady s then some { planned := true, source := 0 } else none } }
    else .next s := by
  simp only [execArbiterLatch, hfault, hforced, latchReady]
  exact if_neg Bool.false_ne_true

/-- The report of a hand-over that is refused. -/
def refusalShown (s : State) : State := raiseEmcy (setFlag (setFlag s kRelayStatus 28) kIntegrity 29) 0xFF01 kRelayStatus 0

theorem refusalShown_only (s : State) : Only [.regs, .overflow, .emcy, .log] s (refusalShown s) :=
  (((Only.refl _ s).step (setFlag_only ..)).step (setFlag_only ..)).step (raiseEmcy_only ..)

theorem refuseHandover_first {s : State} (h : s.relay.refusedNow = false) : refuseHandover s =
    { refusalShown s with relay := { (refusalShown s).relay with refusedNow := true } } := if_neg (by rw [h]; decide)

theorem refuseHandover_only (s : State) : Only [.regs, .overflow, .emcy, .log, .relay] s (refuseHandover s) := by
  refine .ite (fun _ => .refl ..) fun _ => ?_
  exact ((Only.refl _ s).step (refusalShown_only s)).step (l' := [.relay]) (.of_eq rfl)

theorem refuseHandover_flags {s : State} (h : s.relay.refusedNow = false) (hwf : assocWf defaultOf s.regs = true) :
    flag (refuseHandover s) kRelayStatus 28 = true ∧ flag (refuseHandover s) kIntegrity 29 = true := by
  rw [refuseHandover_first h]
  have hwf1 := regPut_wf s kRelayStatus (regGet s kRelayStatus ||| 1 <<< 28) hwf
  have hsecond : FlagsStay lostKeys (setFlag s kRelayStatus 28) (refusalShown s) :=
    ((FlagsStay.refl _ _).step (setFlag_flagsStay ..)).trans (raiseEmcy_flagsStay ..)
  exact ⟨hsecond.stay hwf1 _ _ (by decide) (by decide) (flag_setFlag_same hwf (by decide)),
    flag_raiseEmcy_setFlag (s := setFlag s kRelayStatus 28) 0xFF01 kRelayStatus 0 hwf1⟩

/-- Settles O40: a fault by the unit it is of, the latch by what waits for it. -/
theorem faultsAreReportedAndLatched : Obligations.FaultsAreReportedAndLatched := by
  refine ⟨fun u src s => ⟨fun hactive => ?_, fun hactive hwarming hfailed hrepair => ?_⟩,
    fun s => ⟨fun src hfault hready hins hhold hmode => ?_, fun src hfault hnot => ?_, fun hfault hforced hmode htick => ?_,
      fun hfault hforced hmode => ?_, fun hfault hforced hhold => ?_, fun hfault hforced hhold => ?_⟩⟩
  · have hshown := faultShown_only s u src
    have hrelay : (faultShown s u src).relay = s.relay := hshown.part .relay (by decide)
    have hset := reportUnitFault_active (s := faultShown s u src) (u := u) (hrelay ▸ hactive) (faultRow src).2.2.2
    refine ⟨_, exec_unitFault .., ?_, fun hsrc hwf => unitFaultOf_flag u hsrc hwf, ?_⟩
    · rw [unitFaultOf_eq, hset, hrelay]
    · rw [unitFaultOf_eq, hset]
      exact (((Only.refl [.regs, .overflow, .emcy, .log, .relay] s).step hshown).step (l' := [.relay]) (.of_eq rfl)).eq
  · have hshown := faultShown_only s u src
    have hrelay : (faultShown s u src).relay = s.relay := hshown.part .relay (by decide)
    obtain ⟨-, htaken, hdict, hchans, hstreams, hflows⟩ := unitFaultOf_taken (u := u) src (.refl _ s)
    obtain ⟨hphase, hunit, hkept, hother, -⟩ := htaken hactive hwarming hfailed hrepair
    have hstart : unitFaultOf s u src = startRepair (regPut (faultShown s u src) (key 0x2010 0x0E) 0) u := by
      rw [← hrelay] at hactive hwarming hfailed hrepair
      exact reportUnitFault_standby _ hactive hwarming hfailed hrepair
    refine ⟨_, exec_unitFault .., hphase, hunit, hkept, ?_, ?_, hother, hchans, hstreams, hflows, hdict, fun hwf => ?_⟩
    · rw [hstart, startRepair_boot, pair_mod_get]
    · rw [hstart, startRepair_disp, pair_set_get]
    · have hwf' := faultShown_wf u src hwf
      rw [hstart, startRepair_attempts _ _ (regPut_wf _ _ _ hwf'), regGet_regPut_same _ _ _ hwf']
      decide
  · rw [exec_arbiterLatch, arbiterLatch_fault hfault, if_pos ⟨latchReady_true hready hins hhold, hmode⟩]
  · have hrefused : ¬ (latchReady s = true ∧ s.relay.mode ≠ .lockedOut) := by
      rintro ⟨hready, hmode⟩
      simp only [latchReady, Bool.and_eq_true, Bool.not_eq_true'] at hready
      simp_all
    refine ⟨_, ?_, refuseHandover_relay s, refuseHandover_flags, (refuseHandover_only s).eq⟩
    rw [exec_arbiterLatch, arbiterLatch_fault hfault, if_neg hrefused]
  · rw [exec_arbiterLatch, arbiterLatch_unforced hfault hforced, if_pos ⟨hmode, htick⟩]
    rfl
  · rw [exec_arbiterLatch, arbiterLatch_unforced hfault hforced, if_neg fun h => hmode h.1]
  · rw [exec_arbiterLatch, arbiterLatch_forced hfault hforced, latchReady_hold hhold]
    rfl
  · rw [exec_arbiterLatch, arbiterLatch_forced hfault hforced, latchReady, hhold, Bool.not_false, Bool.and_true]

end Sys2Proof.Machine
end

section
/-! PROOF. The selectors follow the active unit (08_network.md R190, R191; 13_relay.md R308), and the controller restarts alone (01_module.md R19). -/

namespace Sys2Proof.Machine

set_option Elab.async false

/-! ## The selectors -/

theorem exec_selectorSwitch (p : PortId) (s : State) : exec (.selectorSwitch p) s = execSelectorSwitch p s := rfl

theorem exec_homeBootTimeout (s : State) : exec .homeBootTimeout s = .next (homeLateAct s) := rfl

/-- A frame of the port is in transmission at the switch. -/
def switchCuts (s : State) (p : PortId) : Bool := decide (s.now < s.ports[p].busyUntil)

/-- A port that has passed to unit u. -/
def portPassed (s : State) (p : PortId) (u : UnitId) : Port :=
  { s.ports[p] with
    selected := some u
    busyUntil := if switchCuts s p then s.now else s.ports[p].busyUntil
    lastTx := if switchCuts s p then none else s.ports[p].lastTx
    wire := if switchCuts s p then none else s.ports[p].wire }

/-- The selectors of port p have switched, before the port announces itself. -/
def selectorsPassed (s : State) (p : PortId) (u : UnitId) : State :=
  let delay := switchCuts s p && (s.ports[p].lastTx.any fun x => decide (x.kind = .delayReq))
  { s with
    ports := vmod s.ports p fun x => { x with
      selected := some u
      busyUntil := if switchCuts s p then s.now else x.busyUntil
      lastTx := if switchCuts s p then none else x.lastTx
      wire := if switchCuts s p then none else x.wire }
    mon := monitorSwitch s u
    time := if delay then { s.time with request := none } else s.time }

theorem selectorsPassed_same (s : State) (p : PortId) (u : UnitId) : (selectorsPassed s p u).ports.get p = portPassed s p u := vmod_get_same ..

theorem selectorsPassed_other (s : State) {p q : PortId} (u : UnitId) (h : q ≠ p) : (selectorsPassed s p u).ports.get q = s.ports.get q :=
  vmod_get_other _ _ _ _ h

theorem selectorsPassed_only (s : State) (p : PortId) (u : UnitId) : Only [.ports, .mon, .time] s (selectorsPassed s p u) := .of_eq rfl

section
variable {s : State} {p : PortId} {u : UnitId}

theorem execSelectorSwitch_stays (hactive : s.relay.active = some u)
    (h : s.ports[p].selected = some u ∨ s.lap.voterHold = true ∨ s.now < switchBoundary s p) : execSelectorSwitch p s = .next s := by
  simp only [execSelectorSwitch, hactive]
  exact if_pos h

theorem execSelectorSwitch_passes (hactive : s.relay.active = some u) (hsel : s.ports[p].selected ≠ some u)
    (hhold : s.lap.voterHold = false) (hat : switchBoundary s p ≤ s.now) :
    execSelectorSwitch p s = .next (announcePort (selectorsPassed s p u) p) := by
  have hnot : ¬ (s.ports[p].selected = some u ∨ s.lap.voterHold = true ∨ s.now < switchBoundary s p) := by
    rintro (h | h | h)
    · exact hsel h
    · exact Bool.noConfusion (hhold.symm.trans h)
    · exact Nat.not_lt.2 hat h
  simp only [execSelectorSwitch, hactive]
  exact if_neg hnot

end

theorem monitorSwitch_selected (s : State) (u : UnitId) : (monitorSwitch s u).selected = some u := by
  cases h : s.mon.selected with
  | none => simp only [monitorSwitch, h]
  | some old =>
    by_cases hold : old = u
    · simp only [monitorSwitch, h, if_pos hold]
      exact congrArg some hold
    · simp only [monitorSwitch, h, if_neg hold]

theorem monitorSwitch_grey {s : State} {u o : UnitId} (h : s.mon.selected = some o) (ho : o ≠ u) : (monitorSwitch s u).grey = true := by
  simp only [monitorSwitch, h, if_neg ho]

theorem portPassed_busyUntil (s : State) (p : PortId) (u : UnitId) : (portPassed s p u).busyUntil ≤ max s.now s.ports[p].busyUntil := by
  unfold portPassed
  dsimp only
  split
  · exact Nat.le_max_left ..
  · exact Nat.le_max_right ..

theorem portPassed_cut {s : State} {p : PortId} (u : UnitId) (h : s.now < s.ports[p].busyUntil) :
    (portPassed s p u).busyUntil = s.now ∧ (portPassed s p u).wire = none := by
  have hcuts : switchCuts s p = true := decide_eq_true h
  unfold portPassed
  rw [hcuts]
  exact ⟨rfl, rfl⟩

/-! ## The home unit that does not come -/

/-- A port that announces itself stays with its unit. -/
theorem announcePort_selected (s : State) (p q : PortId) : ((announcePort s p).ports.get q).selected = (s.ports.get q).selected := by
  obtain ⟨hothers, hsame⟩ := announcePort_onlyRefused s p
  by_cases h : q = p
  · subst h
    exact (congrArg Port.selected hsame).trans rfl
  · rw [hothers q h]

theorem forEach_announcePort_selected (l : List PortId) (s : State) (q : PortId) :
    ((forEach l announcePort s).ports.get q).selected = (s.ports.get q).selected := by
  induction l generalizing s with
  | nil => rfl
  | cons p l ih => exact (ih (announcePort s p)).trans (announcePort_selected ..)

/-- The boot's report, and a channel of unit u's memory that has not trained. -/
def bootReported (s : State) (u : UnitId) : State :=
  regPut (if (s.dram.get u).chan.toList.all fun c => c.trained then s else setFlag s (key 0x2800 0x10) 26) (key 0x2100 4)
    ((s.now - s.rst.releasedAt) / cyclesPerMs)

theorem bootReported_only (s : State) (u : UnitId) : Only [.regs] s (bootReported s u) :=
  (Only.ite (fun _ => .refl ..) fun _ => setFlag_only ..).trans (regPut_only ..)

/-- Unit u is active, with every selector. -/
def unitActive (s1 : State) (u : UnitId) : State :=
  { s1 with
    relay := { s1.relay with active := some u, mode := if s1.relay.mode = .lockedOut then .lockedOut else .exposed }
    ports := s1.ports.map fun p => { p with selected := some u, txIdle := flag s1 kIntegrity 30 }
    mon := { s1.mon with selected := some u } }

theorem activate_eq (s : State) (u : UnitId) : activate s u = forEach allPorts announcePort (unitActive (bootReported s u) u) := rfl

theorem unitActive_only (s : State) (u : UnitId) : Only [.relay, .ports, .mon] s (unitActive s u) := .of_eq rfl

theorem activate_announced (s : State) (u : UnitId) :
    Only [.regs, .ports, .flows, .counts] (unitActive (bootReported s u) u) (activate s u) :=
  forEach_only (fun _ _ => announcePort_only ..) _ _

theorem activate_only (s : State) (u : UnitId) : Only [.regs, .relay, .ports, .mon, .flows, .counts] s (activate s u) :=
  (((Only.refl _ s).step (bootReported_only s u)).step (unitActive_only ..)).step (activate_announced s u)

theorem activate_relay (s : State) (u : UnitId) : (activate s u).relay =
    { s.relay with active := some u, mode := if s.relay.mode = .lockedOut then .lockedOut else .exposed } := by
  have hreported : (bootReported s u).relay = s.relay := (bootReported_only s u).part .relay (by decide)
  rw [(activate_announced s u).part .relay (by decide), unitActive, hreported]

theorem activate_selected (s : State) (u : UnitId) (q : PortId) : ((activate s u).ports.get q).selected = some u := by
  rw [activate_eq, forEach_announcePort_selected, unitActive, vector_get_eq, Vector.getElem_map]

/-- Settles O41: the switch by its branches, the late home unit by the other unit's activation. -/
theorem selectorsFollowTheActiveUnit : Obligations.SelectorsFollowTheActiveUnit := by
  refine ⟨fun p u s hactive => ⟨execSelectorSwitch_stays hactive, fun hsel hhold hat => ?_⟩, fun s hhold => ?_,
    fun s hactive hhold hbooted hlate => ?_⟩
  · obtain ⟨hothers, hsame⟩ := announcePort_onlyRefused (selectorsPassed s p u) p
    have hannounce := announcePort_only (selectorsPassed s p u) p
    rw [selectorsPassed_same] at hsame
    have hmon : (announcePort (selectorsPassed s p u) p).mon = monitorSwitch s u := hannounce.part .mon (by decide)
    refine ⟨_, execSelectorSwitch_passes hactive hsel hhold hat, (congrArg Port.selected hsame).trans rfl, ?_, fun o ho hne => ?_, ?_,
      fun hcut => ?_, fun q hq => (hothers q hq).trans (selectorsPassed_other s u hq), ?_⟩
    · rw [hmon]
      exact monitorSwitch_selected s u
    · rw [hmon]
      exact monitorSwitch_grey ho hne
    · rw [show (announcePort (selectorsPassed s p u) p).ports[p].busyUntil = _ from congrArg Port.busyUntil hsame]
      exact portPassed_busyUntil s p u
    · obtain ⟨hbusy, hwire⟩ := portPassed_cut u hcut
      exact ⟨(congrArg Port.busyUntil hsame).trans hbusy, (congrArg Port.wire hsame).trans hwire⟩
    · exact (((Only.refl [.regs, .mon, .ports, .flows, .counts, .time] s).step (selectorsPassed_only s p u)).step hannounce).eq
  · have hstays : homeLateAct s = s := if_neg fun ⟨_, hfree, _⟩ => Bool.noConfusion (hfree.symm.trans hhold)
    rw [exec_homeBootTimeout, hstays]
  · have hnot : (s.boot.get (homeUnit s)).mode ≠ .booted := by
      rcases hlate with ⟨-, h⟩ | h
      · exact h
      · rw [h]
        decide
    have hwhen : (s.boot.get (homeUnit s).other).bootedAt + 2 * cyclesPerSec ≤ s.now ∨ (s.boot.get (homeUnit s)).mode = .bootFault :=
      hlate.imp_left And.left
    have hact : homeLateAct s = activate s (homeUnit s).other :=
      if_pos ⟨by rw [hactive]; rfl, hhold, hbooted, hnot, hwhen⟩
    refine ⟨_, by rw [exec_homeBootTimeout, hact], ?_, activate_selected s _, fun hmode => ?_, ?_⟩
    · rw [activate_relay]
    · rw [activate_relay]
      exact if_neg hmode
    · exact ((activate_only s _).mono (l' := [.regs, .overflow, .relay, .ports, .mon, .flows, .counts]) (by decide)).eq

/-! ## The controller -/

theorem exec_controllerRestart (s : State) : exec .controllerRestart s = .next (restartRunning s) := rfl

theorem exec_controllerWatchdogExpiry (s : State) : exec .controllerWatchdogExpiry s =
    .next (restartRunning (raiseEmcy (setFlag s kIntegrity 25) 0x6100 kIntegrity 0)) := rfl

theorem exec_controllerRestartDone (s : State) : exec .controllerRestartDone s = execControllerRestartDone s := rfl

section
variable (s : State)

theorem closeWindow_only (w : WinId) (mode : WinMode) (reason : Nat) : Only [.windows] s (closeWindow s w mode reason) := .of_eq rfl

theorem abandonFirmware_only : Only [.windows, .firmware, .flash] s (abandonFirmware s) := by
  unfold abandonFirmware
  split
  · exact .refl ..
  · exact ((Only.refl [.windows, .firmware, .flash] s).step (closeWindow_only ..)).step (l' := [.firmware, .flash]) (.of_eq rfl)

theorem watchTick_only : Only [.regs, .watch] s (watchTick s) := by
  have hset : ∀ w : WatchState, Only [.regs, .watch] s { s with watch := w } := fun w => .of_eq rfl
  refine .ite (fun _ => .refl ..) fun _ => .ite (fun _ => hset _) fun _ => ?_
  exact (hset _).step (showWatch_only ..)

/-- The unlock is ended, its package and its watch not yet. -/
def unlockDropped : State := { s with maint := { s.maint with owner := none }, ctrl := { s.ctrl with lockUnit := true } }

theorem endUnlock_locked {s : State} (h : s.maint.owner = none) : endUnlock s = s := by
  simp only [endUnlock, h]

theorem endUnlock_unlocked {s : State} (h : s.maint.owner.isSome = true) : endUnlock s = watchTick (abandonFirmware (unlockDropped s)) := by
  obtain ⟨k, hk⟩ := Option.isSome_iff_exists.1 h
  simp only [endUnlock, hk, unlockDropped]

theorem unlockDropped_only : Only [.maint, .ctrl] s (unlockDropped s) := .of_eq rfl

theorem unlock_cases : s.maint.owner = none ∨ s.maint.owner.isSome = true := by
  cases s.maint.owner
  · exact .inl rfl
  · exact .inr rfl

theorem endUnlock_only : Only [.windows, .firmware, .flash, .maint, .ctrl, .regs, .watch] s (endUnlock s) := by
  rcases unlock_cases s with h | h
  · rw [endUnlock_locked h]
    exact .refl ..
  · rw [endUnlock_unlocked h]
    exact (((Only.refl _ s).step (unlockDropped_only s)).step (abandonFirmware_only _)).step (watchTick_only _)

theorem endUnlock_owner : (endUnlock s).maint.owner = none := by
  rcases unlock_cases s with h | h
  · rw [endUnlock_locked h, h]
  · rw [endUnlock_unlocked h, (watchTick_only _).part .maint (by decide), (abandonFirmware_only _).part .maint (by decide)]
    rfl

end

/-- The words that show the watch. -/
def watchKeys : List Nat := allPorts.map fun p => kSched p 6

theorem forEach_flagsStay {α : Type} {l : List Nat} {f : State → α → State} (hf : ∀ t a, FlagsStay l t (f t a)) (xs : List α)
    (s : State) : FlagsStay l s (forEach xs f s) := by
  induction xs generalizing s with
  | nil => exact .refl ..
  | cons a xs ih => exact (hf s a).trans (ih (f s a))

/-- The words of a state before are those of the step's start. -/
theorem FlagsStay.before {l : List Nat} {s t u : State} (h : FlagsStay l t u) (hregs : t.regs = s.regs) : FlagsStay l s u :=
  (FlagsStay.of_regs l hregs).trans h

theorem showWatch_flagsStay (s : State) (cause : Fin 4) : FlagsStay watchKeys s (showWatch s cause) := by
  unfold showWatch
  refine (forEach_flagsStay (fun t p => ?_) allPorts _).before rfl
  exact (regPut_flagsStay t (kSched p 6) _).mono fun k hk => by
    rw [List.mem_singleton.1 hk]
    exact List.mem_map_of_mem (mem_allPorts p)

theorem watchTick_flagsStay (s : State) : FlagsStay watchKeys s (watchTick s) := by
  unfold watchTick
  dsimp only
  split
  · exact .refl ..
  · split
    · exact .of_regs _ rfl
    · exact (showWatch_flagsStay ..).before rfl

theorem endUnlock_flagsStay (s : State) : FlagsStay watchKeys s (endUnlock s) := by
  rcases unlock_cases s with h | h
  · rw [endUnlock_locked h]
    exact .refl ..
  · rw [endUnlock_unlocked h]
    exact (watchTick_flagsStay _).before ((abandonFirmware_only (unlockDropped s)).part .regs (by decide))

theorem enterHoldover_flagsStay (s : State) : FlagsStay [key 0x2200 0x0E, key 0x2200 6] s (enterHoldover s) := by
  unfold enterHoldover
  split
  · exact .refl ..
  · have hput : FlagsStay [key 0x2200 0x0E, key 0x2200 6] s (regPut s (key 0x2200 0x0E) 0) :=
      (FlagsStay.refl _ s).step (regPut_flagsStay ..)
    have hclear : ∀ x, FlagsStay [key 0x2200 0x0E, key 0x2200 6] x (clearFlag x (key 0x2200 6) 31) := fun x =>
      (FlagsStay.refl _ x).step (regPut_flagsStay ..)
    exact hput.trans ((hclear _).before rfl)

theorem enterHoldover_servo (s : State) : (enterHoldover s).time.servo = .holdover := by
  unfold enterHoldover
  split
  next h => exact h
  next => rfl

/-- What a restart clears, at cycle `now`, once the unlock has ended. -/
def restartCleared (now : Nat) (s1 : State) : State :=
  { s1 with
    ctrl := { s1.ctrl with mode := .restarting, restartAt := now }
    clients := s1.clients.map fun c => { c with transfer := none, snapshot := none, busy := false, request := none }
    flash := { s1.flash with saving := none }
    maint := { s1.maint with challenges := .replicate 9 none } }

section
variable (s : State)

theorem restartController_eq : restartController s = assertSource (enterHoldover (restartCleared s.now (endUnlock s))) 4 := rfl

theorem restartCleared_only (now : Nat) : Only [.ctrl, .clients, .flash, .maint] s (restartCleared now s) := .of_eq rfl

theorem restartController_only :
    Only [.regs, .time, .rst, .flash, .ctrl, .clients, .windows, .firmware, .maint, .watch] s (restartController s) := by
  rw [restartController_eq]
  exact (((((Only.refl _ s).step (endUnlock_only s)).step (restartCleared_only ..)).step (enterHoldover_only _))).step (assertSource_only ..)

theorem restartController_flagsStay :
    FlagsStay (watchKeys ++ [key 0x2200 0x0E, key 0x2200 6]) s (restartController s) := by
  rw [restartController_eq]
  have hended : FlagsStay (watchKeys ++ [key 0x2200 0x0E, key 0x2200 6]) s (restartCleared s.now (endUnlock s)) :=
    ((FlagsStay.refl _ s).step (endUnlock_flagsStay s)).trans (.of_regs _ rfl)
  exact (hended.step (enterHoldover_flagsStay _)).trans (.of_regs _ rfl)

/-- A restarted controller: no answer, no transfer, no unlock, the servo in HOLDOVER. -/
theorem restartController_restarted : (restartController s).ctrl.mode = .restarting ∧ (restartController s).ctrl.restartAt = s.now ∧
    dictAnswers (restartController s) = false ∧ (restartController s).maint.owner = none ∧ (restartController s).time.servo = .holdover ∧
    (restartController s).rst.asserted.getLsbD 4 = true ∧
    ∀ k, ((restartController s).clients.get k).transfer = none ∧ ((restartController s).clients.get k).busy = false := by
  have hheld := enterHoldover_only (restartCleared s.now (endUnlock s))
  rw [restartController_eq]
  have hctrl : (enterHoldover (restartCleared s.now (endUnlock s))).ctrl = (restartCleared s.now (endUnlock s)).ctrl :=
    hheld.part .ctrl (by decide)
  have hclients : (enterHoldover (restartCleared s.now (endUnlock s))).clients = (restartCleared s.now (endUnlock s)).clients :=
    hheld.part .clients (by decide)
  have hmaint : (enterHoldover (restartCleared s.now (endUnlock s))).maint = (restartCleared s.now (endUnlock s)).maint :=
    hheld.part .maint (by decide)
  generalize hv : enterHoldover (restartCleared s.now (endUnlock s)) = v at hctrl hclients hmaint
  refine ⟨congrArg CtrlState.mode hctrl, congrArg CtrlState.restartAt hctrl, ?_, ?_, ?_, ?_, fun k => ?_⟩
  · rw [dictAnswers, show (assertSource v 4).ctrl.mode = .restarting from congrArg CtrlState.mode hctrl]
    rfl
  · exact (congrArg MaintState.owner hmaint).trans (endUnlock_owner s)
  · rw [← hv]
    exact enterHoldover_servo _
  · exact (BitVec.getLsbD_or ..).trans (by rw [show (BitVec.ofNat 8 (1 <<< 4)).getLsbD 4 = true by decide, Bool.or_true])
  · rw [show (assertSource v 4).clients = (restartCleared s.now (endUnlock s)).clients from hclients, restartCleared, vector_get_eq,
      Vector.getElem_map]
    exact ⟨rfl, rfl⟩

end

theorem restartRunning_runs {s : State} (h : s.ctrl.mode = .running) : restartRunning s = restartController s := by
  simp only [restartRunning, h]

/-- The image of the active unit's shadow. -/
def shadowInView (s : State) : Store := match viewUnit s with
  | .a => s.dict.shadowA
  | .b => s.dict.shadowB

/-- The controller is back, its report not yet made. -/
def controllerBack (s : State) : State :=
  { s with
    ctrl := { s.ctrl with mode := .running }
    dict := { s.dict with master := shadowInView s }
    time := if assocGet defaultOf (shadowInView s) (key 0x2201 1) % 16 = 0 then { s.time with servo := .freeRun, adj := 0, recentAdj := [] }
      else s.time }

theorem execControllerRestartDone_back {s : State} (h : s.ctrl.mode = .restarting) :
    execControllerRestartDone s = .next (raiseEmcy (controllerBack s) 0x1000 (key 0x1001 0) 0) := by
  simp only [execControllerRestartDone, h]
  rfl

theorem execControllerRestartDone_stays {s : State} (h : s.ctrl.mode ≠ .restarting) : execControllerRestartDone s = .next s := by
  unfold execControllerRestartDone
  split
  next hmode => exact absurd hmode h
  next => rfl

/-- Settles O45: the restart clears what R19 names, its end loads the shadow in view. -/
theorem controllerRestartsAlone : Obligations.ControllerRestartsAlone := by
  refine ⟨fun s hmode => ?_, fun s hmode => ?_, fun s hmode => ?_, fun s hmode => ?_⟩
  · obtain ⟨h1, h2, h3, h4, h5, h6, h7⟩ := restartController_restarted s
    refine ⟨_, exec_controllerRestart s, ?_⟩
    rw [restartRunning_runs hmode]
    exact ⟨h1, h2, h3, h4, h5, h6, h7, (restartController_only s).eq⟩
  · have hraised : Only [.regs, .overflow, .emcy, .log] s (raiseEmcy (setFlag s kIntegrity 25) 0x6100 kIntegrity 0) :=
      ((Only.refl _ s).step (setFlag_only ..)).step (raiseEmcy_only ..)
    have hflag := flag_raiseEmcy_setFlag (s := s) (k := kIntegrity) (b := 25) 0x6100 kIntegrity 0
    have hwf : assocWf defaultOf s.regs = true → assocWf defaultOf (raiseEmcy (setFlag s kIntegrity 25) 0x6100 kIntegrity 0).regs = true :=
      fun hwf => (raiseEmcy_flagsStay ..).wf (regPut_wf _ _ _ hwf)
    refine ⟨_, exec_controllerWatchdogExpiry s, ?_⟩
    generalize raiseEmcy (setFlag s kIntegrity 25) 0x6100 kIntegrity 0 = v at hraised hflag hwf
    have hrestart := restartController_only v
    rw [restartRunning_runs ((congrArg CtrlState.mode (hraised.part .ctrl (by decide))).trans hmode)]
    obtain ⟨h1, -, h3, h4, h5, -, -⟩ := restartController_restarted v
    have hkept : ∀ p : StatePart, p ∉ [StatePart.regs, .time, .rst, .flash, .ctrl, .clients, .windows, .firmware, .maint, .watch, .overflow,
        .emcy, .log] → p.same s (restartController v) := fun p hp =>
      ((hraised.mono (l' := [.regs, .time, .rst, .flash, .ctrl, .clients, .windows, .firmware, .maint, .watch, .overflow, .emcy, .log])
        (by decide)).step hrestart).part p hp
    exact ⟨h1, h3, h4, h5,
      fun hwf0 => (restartController_flagsStay v).stay (hwf hwf0) _ _ (by decide) (by decide) (hflag hwf0),
      ⟨hkept .dict (by decide), hkept .chans (by decide), hkept .streams (by decide), hkept .flows (by decide)⟩,
      hkept .relay (by decide), hkept .lap (by decide)⟩
  · have hraise := raiseEmcy_only (controllerBack s) 0x1000 (key 0x1001 0) 0
    have hctrl : (raiseEmcy (controllerBack s) 0x1000 (key 0x1001 0) 0).ctrl = (controllerBack s).ctrl := hraise.part .ctrl (by decide)
    have hdict : (raiseEmcy (controllerBack s) 0x1000 (key 0x1001 0) 0).dict = (controllerBack s).dict := hraise.part .dict (by decide)
    have htime : (raiseEmcy (controllerBack s) 0x1000 (key 0x1001 0) 0).time = (controllerBack s).time := hraise.part .time (by decide)
    have hback : Only [.dict, .regs, .overflow, .emcy, .log, .ctrl, .time] s (controllerBack s) := .of_eq rfl
    refine ⟨_, (exec_controllerRestartDone s).trans (execControllerRestartDone_back hmode), congrArg CtrlState.mode hctrl, ?_, hdict,
      fun hoff => ?_, fun hon => ?_, (hback.step hraise).eq⟩
    · rw [dictAnswers, hctrl]
      rfl
    · rw [hdict] at hoff
      exact htime.trans (if_pos hoff)
    · rw [hdict] at hon
      exact htime.trans (if_neg hon)
  · exact (exec_controllerRestartDone s).trans (execControllerRestartDone_stays hmode)

end Sys2Proof.Machine
end

section
/-! PROOF. Reset sources and module resets (15_reset.md Table 15-1, R357, R363, R364): released in time, and what a module reset leaves. -/

namespace Sys2Proof.Machine

set_option Elab.async false

/-! ## A module reset -/

/-- Every subsystem cold, with the log as the first of the sources found it. -/
def coldStart (s : State) : State :=
  if decide (s.rst.asserted &&& 0x0F ≠ 0) then keepLog s (moduleCold s false) else moduleCold s false

/-- The reset's own record from source c. -/
def resetRecord (s : State) (c : Nat) : ResetState :=
  { s.rst with
    asserted := (s.rst.asserted &&& 0x0B) ||| BitVec.ofNat 8 (1 <<< c)
    assertedAt := s.rst.assertedAt.set (c % 8) s.now (Nat.mod_lt _ (by decide))
    causes := (if decide (s.rst.asserted &&& 0x0F ≠ 0) then s.rst.causes else 0) ||| BitVec.ofNat 8 (1 <<< c)
    step := 0
    releasing := false
    blocks := 0
    pendingClock := 0
    bypass := s.chans.toList.any fun ch => decide (ch.mode = .stopped)
    limitChecked := false
    clockRuns := if c = 3 then s.rst.clockRuns else 0
    waiting := none }

/-- The reset's words: its count, its causes, the clock's flags. -/
def resetShown (again bypass : Bool) (causes : BitVec 8) (t1 : State) : State :=
  let t2 := if again then t1 else bump t1 (key 0x2100 3)
  let t3 := clearFlag (regPut t2 (key 0x2100 1) causes.toNat) kReset 31
  let t4 := if causes.getLsbD 3 then setFlag (setFlag t3 kIntegrity 27) (key 0x2200 6) 24 else t3
  if bypass then setFlag t4 kReset 30 else t4

theorem applyReset_eq (s : State) (c : Nat) : applyReset s c =
    resetShown (decide (s.rst.asserted &&& 0x0F ≠ 0)) (resetRecord s c).bypass (resetRecord s c).causes
      { coldStart s with rst := resetRecord s c } := rfl

theorem resetShown_only (again bypass : Bool) (causes : BitVec 8) (t : State) : Only [.regs, .overflow] t (resetShown again bypass causes t) := by
  have h2 : Only [.regs, .overflow] t (if again then t else bump t (key 0x2100 3)) := .ite (fun _ => .refl ..) fun _ => bump_only ..
  have h3 := (h2.step (regPut_only _ (key 0x2100 1) causes.toNat)).step (clearFlag_only _ kReset 31)
  have h4 : Only [.regs, .overflow] t (if causes.getLsbD 3 then setFlag (setFlag _ kIntegrity 27) (key 0x2200 6) 24 else _) :=
    .ite (fun _ => (h3.step (setFlag_only _ kIntegrity 27)).step (setFlag_only ..)) fun _ => h3
  exact .ite (fun _ => h4.step (setFlag_only ..)) fun _ => h4

theorem applyReset_only (s : State) (c : Nat) :
    Only [.regs, .overflow] { coldStart s with rst := resetRecord s c } (applyReset s c) := by
  rw [applyReset_eq]
  exact resetShown_only ..

theorem applyReset_rst (s : State) (c : Nat) : (applyReset s c).rst = resetRecord s c := (applyReset_only s c).part .rst (by decide)

/-- The words of a state stay in canonical form. -/
theorem FlagsStay.wfAfter {l : List Nat} {s t : State} (h : FlagsStay l s t) (hwf : assocWf defaultOf s.regs = true) :
    assocWf defaultOf t.regs = true := h.wf hwf

theorem resetShown_wf (again bypass : Bool) (causes : BitVec 8) {t : State} (hwf : assocWf defaultOf t.regs = true) :
    assocWf defaultOf (resetShown again bypass causes t).regs = true := by
  have h2 : assocWf defaultOf (if again then t else bump t (key 0x2100 3)).regs = true := by
    split
    · exact hwf
    · exact (bump_flagsStay ..).wf hwf
  have h3 : assocWf defaultOf (clearFlag (regPut (if again then t else bump t (key 0x2100 3)) (key 0x2100 1) causes.toNat) kReset 31).regs = true :=
    regPut_wf _ _ _ (regPut_wf _ _ _ h2)
  have h4 : ∀ x : State, assocWf defaultOf x.regs = true →
      assocWf defaultOf (if causes.getLsbD 3 then setFlag (setFlag x kIntegrity 27) (key 0x2200 6) 24 else x).regs = true := by
    intro x hx
    split
    · exact regPut_wf _ _ _ (regPut_wf _ _ _ hx)
    · exact hx
  unfold resetShown
  dsimp only
  split
  · exact regPut_wf _ _ _ (h4 _ h3)
  · exact h4 _ h3

theorem coldStart_wf {s : State} (hwf : assocWf defaultOf s.regs = true) : assocWf defaultOf (coldStart s).regs = true := by
  unfold coldStart
  split <;> exact assocWf_filter _ _ _ hwf

theorem applyReset_wf {s : State} (c : Nat) (hwf : assocWf defaultOf s.regs = true) : assocWf defaultOf (applyReset s c).regs = true := by
  rw [applyReset_eq]
  exact resetShown_wf _ _ _ (coldStart_wf hwf)

theorem sourceBit (c : Fin 4) : (BitVec.ofNat 8 (1 <<< c.val)).getLsbD c.val = true := by
  revert c
  decide

theorem resetRecord_asserted (s : State) (c : Fin 4) : (resetRecord s c.val).asserted.getLsbD c.val = true := by
  refine (BitVec.getLsbD_or ..).trans ?_
  rw [sourceBit, Bool.or_true]

theorem resetRecord_causes (s : State) (c : Fin 4) : (resetRecord s c.val).causes.getLsbD c.val = true := by
  refine (BitVec.getLsbD_or ..).trans ?_
  rw [sourceBit, Bool.or_true]

/-- What a cold start has in common, whether a further source found the module in reset or not. -/
theorem coldStart_log {s : State} (h : s.rst.asserted &&& 0x0F = 0) : (coldStart s).log.previous = s.log.records.take 1024 := by
  rw [coldStart, if_neg (by rw [h]; decide)]
  rfl

theorem coldStart_only (s : State) : Only [.log, .flash] (moduleCold s false) (coldStart s) :=
  .ite (fun _ => .of_eq rfl) fun _ => .refl ..

theorem coldStart_flash (s : State) : (coldStart s).flash.limit = s.flash.limit ∧ (coldStart s).flash.saved = s.flash.saved := by
  unfold coldStart
  split <;> exact ⟨rfl, rfl⟩

theorem applyReset_moduleReset (s : State) (c : Fin 4) : ModuleReset s (applyReset s c.val) c := by
  have hcold := coldStart_only s
  have hset : Only [.rst] (coldStart s) { coldStart s with rst := resetRecord s c.val } := .of_eq rfl
  have hall : Only [.log, .flash, .rst, .regs, .overflow] (moduleCold s false) (applyReset s c.val) :=
    ((hcold.mono (by decide)).step hset).step (applyReset_only s c.val)
  have hlog : (applyReset s c.val).log = (coldStart s).log := (applyReset_only s c.val).part .log (by decide)
  have hflash : (applyReset s c.val).flash = (coldStart s).flash := (applyReset_only s c.val).part .flash (by decide)
  have hrst := applyReset_rst s c.val
  unfold ModuleReset
  rw [hrst, hlog, hflash]
  exact ⟨resetRecord_asserted s c, resetRecord_causes s c, rfl, rfl, hall.part .dict (by decide), hall.part .chans (by decide),
    hall.part .streams (by decide), hall.part .flows (by decide), hall.part .relay (by decide), hall.part .ctrl (by decide),
    hall.part .clients (by decide), hall.part .boot (by decide), hall.part .emcy (by decide), hall.part .atu (by decide),
    hall.part .dma (by decide), hall.part .maint (by decide), coldStart_log, (coldStart_flash s).1, (coldStart_flash s).2,
    hall.part .stage (by decide), hall.part .planner (by decide), hall.part .now (by decide), hall.part .pending (by decide)⟩

/-- A reset that no write or erase of the flash delays is applied at once. -/
theorem assertModuleReset_now {s : State} (c : Nat) (hpulse : s.flash.pulse = false) (herase : s.flash.erasing = none)
    (harea : s.flash.areaEraseAt = none) : assertModuleReset s c = applyReset s c := by
  simp [assertModuleReset, hpulse, herase, harea]

/-! ## The reset from a clock -/

/-- How many resets from source 3 have run in succession. -/
def clockRunsOf (s : State) : Nat :=
  if s.rst.asserted.getLsbD 3 then s.rst.clockRuns
  else if s.now < s.rst.releasedAt + cyclesPerSec ∨ s.rst.releasing then s.rst.clockRuns + 1
  else 1

/-- The reset with its runs counted. -/
def runsCounted (runs : Nat) (t : State) : State :=
  { t with rst := { t.rst with clockRuns := runs, heldForever := t.rst.heldForever || decide (3 ≤ runs) } }

section
variable {s : State} (hpulse : s.flash.pulse = false) (herase : s.flash.erasing = none) (harea : s.flash.areaEraseAt = none)
include hpulse herase harea

theorem assertClockReset_eq : assertClockReset s = setFlag (runsCounted (clockRunsOf s) (applyReset s 3)) kIntegrity 27 := by
  have h : assertClockReset s = setFlag (runsCounted (clockRunsOf s) (assertModuleReset s 3)) kIntegrity 27 := rfl
  rw [h, assertModuleReset_now 3 hpulse herase harea]

theorem assertClockReset_moduleReset : ModuleReset s (assertClockReset s) 3 := by
  rw [assertClockReset_eq hpulse herase harea]
  exact applyReset_moduleReset s 3

theorem assertClockReset_held : (assertClockReset s).rst.heldForever = true ∨ (assertClockReset s).rst.clockRuns < 3 := by
  rw [assertClockReset_eq hpulse herase harea]
  refine (Nat.lt_or_ge (clockRunsOf s) 3).symm.imp_left fun h => ?_
  exact (congrArg ((applyReset s 3).rst.heldForever || ·) (decide_eq_true h)).trans (Bool.or_true _)

theorem assertClockReset_wf (hwf : assocWf defaultOf s.regs = true) : assocWf defaultOf (assertClockReset s).regs = true := by
  rw [assertClockReset_eq hpulse herase harea]
  exact regPut_wf _ _ _ (applyReset_wf 3 hwf)

end

theorem exec_clockFault (m : ClockMonitor) (s : State) : exec (.clockFault m) s =
    .next (setFlag (assertClockReset (raiseEmcy (setFlag s (kTime 6) 24) 0x5001 (kTime 6) 0)) (kTime 6) 24) := rfl

theorem exec_clockStable (s : State) : exec .clockStable s = execClockStable s := rfl

theorem exec_clockStableTimeout_module (s : State) : exec (.clockStableTimeout none) s = .next (assertClockReset s) := rfl

theorem exec_clockStableTimeout_unit (u : UnitId) (s : State) :
    exec (.clockStableTimeout (some u)) s = .next (enterRepair (raiseEmcyOf s u 0x5013 kReset u.bit) u) := rfl

/-! ## Sources are released -/

theorem exec_rstNRelease (s : State) : exec .rstNRelease s = .next (if isAsserted s 1 then releaseSource s 1 else s) := rfl

theorem exec_resetSourceRelease (c : Fin 8) (s : State) : exec (.resetSourceRelease c) s = execResetSourceRelease c s := rfl

theorem exec_repairResetRelease (s : State) : exec .repairResetRelease s = .next (releaseRepair s) := rfl

theorem releaseSource_only (s : State) (c : Nat) : Only [.rst] s (releaseSource s c) := .of_eq rfl

theorem releaseSource_released (s : State) (c : Fin 8) : isAsserted (releaseSource s c.val) c.val = false := by
  have hbit : (~~~(BitVec.ofNat 8 (1 <<< c.val))).getLsbD c.val = false := by
    revert c
    decide
  refine (BitVec.getLsbD_and ..).trans ?_
  rw [hbit, Bool.and_false]

theorem releaseSource_blocks (s : State) (c : Nat) : (releaseSource s c).rst.blocks = s.rst.blocks := rfl

/-- With no other module source asserted the release begins. -/
theorem releaseSource_begins {s : State} (h : isAsserted s 1 = true) (hlast : s.rst.asserted &&& 0x0D = 0) (hheld : s.rst.heldForever = false) :
    (releaseSource s 1).rst.releasing = true ∧ (releaseSource s 1).rst.releasedAt = s.now := by
  have hleft : s.rst.asserted &&& ~~~(BitVec.ofNat 8 (1 <<< 1)) &&& 0x0F = 0 := by
    rw [BitVec.and_assoc]
    exact hlast
  have hin : s.rst.asserted &&& 0x0F ≠ 0 := by
    intro hzero
    have hbit : (s.rst.asserted &&& 0x0F).getLsbD 1 = true := by
      rw [BitVec.getLsbD_and, show s.rst.asserted.getLsbD 1 = true from h]
      decide
    rw [hzero] at hbit
    exact absurd hbit (by decide)
  have hbegin : (decide (1 < 4) && decide (s.rst.asserted &&& ~~~(BitVec.ofNat 8 (1 <<< 1)) &&& 0x0F = 0) &&
      decide (s.rst.asserted &&& 0x0F ≠ 0) && !s.rst.heldForever) = true := by
    rw [decide_eq_true hleft, decide_eq_true hin, hheld]
    decide
  exact ⟨(congrArg (s.rst.releasing || ·) hbegin).trans (Bool.or_true _), if_pos hbegin⟩

/-- The pins' voltage is sampled as power-on ends. -/
def voltageSampled (s : State) : State := drawFree { s with pins := { s.pins with iovHigh := decide (freeWord s 1 = 1) } }

section
variable {c : Fin 8} {s : State}

theorem execResetSourceRelease_waits (h : isAsserted s c.val = false ∨ s.now < s.rst.assertedAt.get c + holdTime c.val) :
    execResetSourceRelease c s = .next s := by
  have hnot : (isAsserted s c.val && decide (s.rst.assertedAt.get c + holdTime c.val ≤ s.now)) = false := by
    rcases h with h | h
    · rw [h, Bool.false_and]
    · rw [decide_eq_false (Nat.not_le.2 h), Bool.and_false]
  exact if_neg (by rw [hnot]; decide)

theorem execResetSourceRelease_due (h : isAsserted s c.val = true) (hat : s.rst.assertedAt.get c + holdTime c.val ≤ s.now) :
    execResetSourceRelease c s =
      if c.val = 6 then .next (releaseRepair s)
      else if c.val = 7 then .next (releaseBlocks (releaseSource s 7))
      else if c.val = 0 then .next (releaseSource (voltageSampled s) 0)
      else .next (releaseSource s c.val) :=
  if_pos (by rw [h, decide_eq_true hat]; rfl)

end

theorem enterRepair_codingKept {s v : State} (u : UnitId) (h : Only faultParts s v) : CodingKept s (enterRepair v u) := by
  have hall := h.step (enterRepair_only v u)
  exact ⟨hall.part .dict (by decide), hall.part .chans (by decide), hall.part .streams (by decide), hall.part .flows (by decide)⟩

/-- Settles O49: each source by its own branch, the clock's resets by the module reset. -/
theorem sourcesAreReleasedInTime : Obligations.SourcesAreReleasedInTime := by
  refine ⟨fun s h => ⟨_, (exec_rstNRelease s).trans (by rw [if_pos h]; rfl), releaseSource_released s 1, releaseSource_begins h, rfl⟩,
    fun s h => (exec_rstNRelease s).trans (by rw [h]; rfl), fun c s h => execResetSourceRelease_waits h, fun c s h hat hne => ?_,
    fun s h hat => ?_, fun s => ⟨_, exec_clockStable s, rfl, rfl, fun h => if_neg (by rw [h]; decide), rfl⟩,
    fun m s hpulse herase harea => ?_,
    fun s hpulse herase harea => ⟨_, exec_clockStableTimeout_module s, assertClockReset_moduleReset hpulse herase harea⟩,
    fun u s hrepair hfailed => ?_⟩
  · rw [exec_resetSourceRelease, execResetSourceRelease_due h hat, if_neg hne]
    by_cases h7 : c.val = 7
    · rw [if_pos h7]
      exact ⟨_, rfl, by rw [h7]; exact releaseSource_released s 7, fun _ => rfl, fun h => absurd h7 h, rfl⟩
    · rw [if_neg h7]
      by_cases h0 : c.val = 0
      · rw [if_pos h0]
        exact ⟨_, rfl, by rw [h0]; exact releaseSource_released (voltageSampled s) 0, fun h => absurd h h7, fun _ => rfl, rfl⟩
      · rw [if_neg h0]
        exact ⟨_, rfl, releaseSource_released s c, fun h => absurd h h7, fun _ => rfl, rfl⟩
  · rw [exec_resetSourceRelease, execResetSourceRelease_due h hat, exec_repairResetRelease]
    rfl
  · have hraised : Only [.regs, .overflow, .emcy, .log] s (raiseEmcy (setFlag s (kTime 6) 24) 0x5001 (kTime 6) 0) :=
      ((Only.refl _ s).step (setFlag_only ..)).step (raiseEmcy_only ..)
    have hwf : assocWf defaultOf s.regs = true → assocWf defaultOf (raiseEmcy (setFlag s (kTime 6) 24) 0x5001 (kTime 6) 0).regs = true :=
      fun hwf => (raiseEmcy_flagsStay ..).wf (regPut_wf _ _ _ hwf)
    refine ⟨_, exec_clockFault m s, ?_⟩
    generalize raiseEmcy (setFlag s (kTime 6) 24) 0x5001 (kTime 6) 0 = v at hraised hwf
    have hflash : v.flash = s.flash := hraised.part .flash (by decide)
    rw [← hflash] at hpulse herase harea
    obtain ⟨hasserted, -, -, -, hdict, hchans, -⟩ := assertClockReset_moduleReset hpulse herase harea
    exact ⟨hasserted, hdict, hchans, assertClockReset_held hpulse herase harea,
      fun h => flag_setFlag_same (assertClockReset_wf hpulse herase harea (hwf h)) (by decide)⟩
  · have hraised := raiseEmcyOf_only s u 0x5013 kReset u.bit
    have hcoding : CodingKept s (enterRepair (raiseEmcyOf s u 0x5013 kReset u.bit) u) :=
      enterRepair_codingKept u (hraised.mono (by decide))
    refine ⟨_, exec_clockStableTimeout_unit u s, ?_⟩
    have hrelay : (raiseEmcyOf s u 0x5013 kReset u.bit).relay = s.relay := hraised.part .relay (by decide)
    have hnow : (raiseEmcyOf s u 0x5013 kReset u.bit).now = s.now := hraised.part .now (by decide)
    rw [enterRepair_started (by rw [hrelay]; exact hrepair) (by rw [hrelay]; exact hfailed)] at hcoding ⊢
    exact ⟨congrArg RepairPhase.inReset hnow, rfl, hcoding⟩

end Sys2Proof.Machine
end

section
/-! PROOF. The temperature sensors (16_power_ageing.md R393, R394) and the power-fail warning that a critical one raises (R378). -/

namespace Sys2Proof.Machine

set_option Elab.async false

theorem exec_sensorRead (values : Vector Nat 38) (s : State) : exec (.sensorRead values) s = execSensorRead values s := rfl

/-! ## The conditions of the sensors -/

/-- A sum of distinct powers of two has the bits of its terms. -/
theorem foldl_bits (f : Nat → Bool) (m : Nat) :
    (List.range m).foldl (fun a n => if f n then a + 2 ^ n else a) 0 < 2 ^ m ∧
      ∀ i, i < m → ((List.range m).foldl (fun a n => if f n then a + 2 ^ n else a) 0).testBit i = f i := by
  induction m with
  | zero => exact ⟨Nat.one_pos, fun i hi => absurd hi (Nat.not_lt_zero i)⟩
  | succ m ih =>
    obtain ⟨hlt, hbits⟩ := ih
    rw [List.range_succ, List.foldl_concat]
    generalize (List.range m).foldl (fun a n => if f n then a + 2 ^ n else a) 0 = a at hlt hbits
    have hpow : 2 ^ (m + 1) = 2 ^ m + 2 ^ m := by rw [Nat.pow_succ, Nat.mul_two]
    cases hf : f m with
    | true =>
      rw [if_pos rfl]
      refine ⟨by omega, fun i hi => ?_⟩
      rw [Nat.add_comm]
      rcases Nat.lt_succ_iff_lt_or_eq.1 hi with hi | rfl
      · rw [Nat.testBit_two_pow_add_gt hi]
        exact hbits i hi
      · rw [Nat.testBit_two_pow_add_eq, Nat.testBit_lt_two_pow hlt, hf]
        rfl
    | false =>
      rw [if_neg Bool.false_ne_true]
      refine ⟨by omega, fun i hi => ?_⟩
      rcases Nat.lt_succ_iff_lt_or_eq.1 hi with hi | rfl
      · exact hbits i hi
      · rw [Nat.testBit_lt_two_pow hlt, hf]

theorem crossings_bit (old : BitVec 38) (values : Vector Nat 38) (limit : Nat → Nat) (n : Fin 38) :
    (crossings old values limit).getLsbD n.val = crossed (old.getLsbD n.val) (limit n.val) (values.get n) := by
  unfold crossings
  rw [BitVec.getLsbD_ofNat, (foldl_bits _ 38).2 n.val n.isLt, finOf_val]
  exact (congrArg (· && _) (decide_eq_true n.isLt)).trans (Bool.true_and _)

/-! ## The warning -/

section
variable (s : State)

theorem suspendErase_only : Only [.flash] s (suspendErase s) := .of_eq rfl

theorem drawFree_only : Only [.free] s (drawFree s) := .of_eq rfl

/-- The flags, the count and the EMCY of a warning. -/
def warnShown (cause : Fin 8) : State := raiseEmcy (bump (setFlag (setFlag s kStage 31) kStage 30) (key 0x5C00 0x0B)) 0x3100 kStage cause.val

/-- A planner run in progress ends. -/
def plannerStopped (now : Nat) : State :=
  if flag s (key 0x5C10 5) 31 then
    setFlag (clearFlag { s with planner := { s.planner with lastEnd := some now } } (key 0x5C10 5) 31) (key 0x5C10 5) 28 else s

/-- The warning stands in the stage, with its record and the flush that may follow. -/
def warnStands (now : Nat) (cause : Fin 8) : State :=
  let other : Fin 2 := 1 - s.flash.areaNewest
  let ready := s.flash.areaErased.get other && s.flash.areaEraseAt.isNone
  let r : PfRecord := { seconds := s.time.tb0 / 2 ^ 32 / 1000000000, vin := regGet s (key 0x5C00 2) % 65536,
                        hold := regGet s (key 0x5C00 5) / 10, cause := cause.val, flushed := false, skipped := !ready,
                        returned := false, flushTime := 0, logRecords := 0 }
  { s with
    stage := { s.stage with
      warn := some cause
      warnAt := now
      flush := ready
      record := some r }
    flash := if ready then s.flash else { s.flash with pfRecord := some r } }

theorem warnActions_eq (cause : Fin 8) : warnActions s cause = suspendErase (warnStands (plannerStopped (warnShown s cause) s.now) s.now cause) := by
  unfold warnActions warnStands plannerStopped warnShown
  rfl

theorem warnShown_only (cause : Fin 8) : Only [.regs, .overflow, .emcy, .log] s (warnShown s cause) :=
  ((((Only.refl _ s).step (setFlag_only ..)).step (setFlag_only ..)).step (bump_only ..)).step (raiseEmcy_only ..)

theorem plannerStopped_only (now : Nat) : Only [.regs, .planner] s (plannerStopped s now) := by
  have hset : ∀ p : PlannerState, Only [.regs, .planner] s { s with planner := p } := fun p => .of_eq rfl
  exact .ite (fun _ => ((hset _).step (clearFlag_only ..)).step (setFlag_only ..)) fun _ => .refl ..

theorem warnStands_only (now : Nat) (cause : Fin 8) : Only [.stage, .flash] s (warnStands s now cause) := .of_eq rfl

theorem warnActions_only (cause : Fin 8) : Only [.regs, .overflow, .emcy, .log, .planner, .stage, .flash] s (warnActions s cause) := by
  rw [warnActions_eq]
  exact ((((Only.refl _ s).step (warnShown_only s cause)).step (plannerStopped_only ..)).step (warnStands_only ..)).step (suspendErase_only _)

theorem warnActions_warn (cause : Fin 8) : (warnActions s cause).stage.warn = some cause := by
  rw [warnActions_eq]
  rfl

/-- A warning of the input's causes holds the stage. -/
def warnHeld (cause : Fin 8) : State :=
  if decide (cause.val = 1 ∨ cause.val = 3 ∨ cause.val = 4 ∨ cause.val = 7) then setFlag s kStage 29 else s

theorem warnHeld_only (cause : Fin 8) : Only [.regs] s (warnHeld s cause) := .ite (fun _ => setFlag_only ..) fun _ => .refl ..

/-- A warning that is taken. -/
def warnTaken (cause : Fin 8) : State :=
  let x := warnHeld (warnActions s cause) cause
  { x with stage := { x.stage with criticalStop := x.stage.criticalStop || decide (cause.val = 5) } }

theorem powerFailWarning_eq (cause : Fin 8) : powerFailWarning s cause =
    if s.stage.warn.any fun c => decide (c.val ≠ 6 ∨ cause.val = 6) then s else warnTaken s cause := rfl

theorem warnTaken_only (cause : Fin 8) : Only [.regs, .overflow, .emcy, .log, .planner, .stage, .flash] s (warnTaken s cause) :=
  ((warnActions_only s cause).step (warnHeld_only _ cause)).step (l' := [.stage]) (.of_eq rfl)

theorem powerFailWarning_only (cause : Fin 8) :
    Only [.regs, .overflow, .emcy, .log, .planner, .stage, .flash] s (powerFailWarning s cause) :=
  .ite (fun _ => .refl ..) fun _ => warnTaken_only ..

theorem warnTaken_warn (cause : Fin 8) : (warnTaken s cause).stage.warn = some cause := by
  have hstage : (warnHeld (warnActions s cause) cause).stage = (warnActions s cause).stage := (warnHeld_only _ cause).part .stage (by decide)
  exact (congrArg StageState.warn hstage).trans (warnActions_warn s cause)

theorem powerFailWarning_taken {s : State} (cause : Fin 8) (h : s.stage.warn = none) : powerFailWarning s cause = warnTaken s cause := by
  rw [powerFailWarning_eq, h]
  exact if_neg Bool.false_ne_true

end

/-! ## The reading -/

section
variable (s : State)

theorem showSensors_only (values : Vector Nat 38) : Only [.regs] s (showSensors s values) := forEach_only (fun _ _ => regPut_only ..) _ s

theorem unitFaultOf_only (u : UnitId) (src : UnitFaultSource) : Only faultParts s (unitFaultOf s u src) := by
  rw [unitFaultOf_eq]
  exact ((faultShown_only s u src).mono (by decide)).step (reportUnitFault_only ..)

theorem powerFault_only : Only [.regs] s (powerFault s) := setFlag_only ..

theorem thermalFault_only (n : Nat) : Only faultParts s (thermalFault s n) := by
  have hpower : Only faultParts s (if n < 36 then s else powerFault s) :=
    .ite (fun _ => .refl ..) fun _ => (Only.refl _ s).step (powerFault_only s)
  exact .ite (fun _ => unitFaultOf_only ..) fun _ => .ite (fun _ => unitFaultOf_only ..) fun _ =>
    (hpower.step (setFlag_only ..)).step (raiseEmcy_only ..)

theorem railMeasure_only (n : Nat) : Only [.regs, .free] s (railMeasure s n) := by
  have hput : ∀ k v, Only [.regs, .free] s (regPut s k v) := fun k v => (Only.refl _ s).step (regPut_only ..)
  exact .ite (fun _ => hput ..) fun _ => .ite (fun _ => hput ..) fun _ => .ite (fun _ => hput ..) fun _ => (hput ..).step (drawFree_only _)

/-- The samples of the monitors, before the reading's time is noted. -/
def monitorsSampled : State :=
  let t1 := forEach (List.range 38) (fun x n => monitorBoth x 7 n (regGet x (key 0x5C01 (n + 1)))) s
  let t2 := forEach railNumbers (fun x n =>
    let y := railMeasure x n
    monitorBoth y 8 n (regGet y (key 0x5C02 (n + 1)))) t1
  let t3 := forEach allLanes (fun x n =>
    let y := monitorSample x .a 9 n.val ((x.lanes.get .a).get n).eye
    monitorSample y .b 9 n.val ((y.lanes.get .b).get n).eye) t2
  forEach (List.range 16) (fun x n => drawFree (monitorBoth x 9 (64 + n) (freeWord x 7))) t3

theorem monitorsSampled_only : Only [.regs, .free, .slots] s (monitorsSampled s) := by
  have hboth : ∀ t source inst v, Only [.regs, .free, .slots] t (monitorBoth t source inst v) := fun t _ _ _ =>
    (Only.refl _ t).step (monitorBoth_only ..)
  have hrail : ∀ t n, Only [.regs, .free, .slots] t (railMeasure t n) := fun t n => (Only.refl _ t).step (railMeasure_only t n)
  have hlane : ∀ t inst v w, Only [.regs, .free, .slots] t (monitorSample (monitorSample t .a 9 inst v) .b 9 inst w) := fun t _ _ _ =>
    ((Only.refl _ t).step (monitorSample_only ..)).step (monitorSample_only ..)
  unfold monitorsSampled
  refine .trans ?_ (forEach_only (fun t n => (hboth ..).step (drawFree_only _)) _ _)
  refine .trans ?_ (forEach_only (fun t n => hlane ..) _ _)
  refine .trans ?_ (forEach_only (fun t n => (hrail t n).trans (hboth ..)) _ _)
  exact forEach_only (fun t n => hboth ..) _ s

theorem sampleMonitors_eq : sampleMonitors s =
    { monitorsSampled s with sensors := { (monitorsSampled s).sensors with sampledMs := s.now } } := rfl

/-- The conditions of the sensors as a reading of them leaves them. -/
def conditionsRead (values : Vector Nat 38) : SensorState :=
  { s.sensors with
    warn := crossings s.sensors.warn values fun n => (sensorLimits n).1
    fault := crossings s.sensors.fault values fun n => (sensorLimits n).2.1
    critical := crossings s.sensors.critical values fun n => (sensorLimits n).2.2 }

/-- The sensors newly in fault. -/
def newlyFaulted (values : Vector Nat 38) : List Nat :=
  (List.range 38).filter fun n => (conditionsRead s values).fault.getLsbD n && !s.sensors.fault.getLsbD n

/-- The words of a reading. -/
def readingShown (values : Vector Nat 38) : State :=
  let t := showSensors { s with sensors := conditionsRead s values } values
  putFlag t kStage 22 (thermalWarning t)

/-- The reading, its warnings and its faults, but for the critical warning. -/
def readingReported (values : Vector Nat 38) : State :=
  let t1 := readingShown s values
  let t2 := if (conditionsRead s values).warn &&& ~~~s.sensors.warn ≠ 0 then raiseEmcy (setFlag t1 kIntegrity 24) 0x4201 kStage 0 else t1
  putFlag (forEach (newlyFaulted s values) thermalFault t2) kIntegrity 21
    ((List.range 4).any fun n => (conditionsRead s values).fault.getLsbD (32 + n))

/-- The reading with the warning of a newly critical sensor. -/
def readingWarned (values : Vector Nat 38) : State :=
  if (conditionsRead s values).critical &&& ~~~s.sensors.critical ≠ 0 then powerFailWarning (readingReported s values) 5
  else readingReported s values

theorem execSensorRead_eq (values : Vector Nat 38) : execSensorRead values s = .next
    (if s.sensors.sampledMs + cyclesPerMs ≤ s.now then sampleMonitors (readingWarned s values)
      else readingWarned s values) := by
  unfold execSensorRead readingWarned readingReported readingShown newlyFaulted conditionsRead
  rfl

theorem readingReported_only (values : Vector Nat 38) :
    Only faultParts { s with sensors := conditionsRead s values } (readingReported s values) := by
  have h1 : Only faultParts { s with sensors := conditionsRead s values } (readingShown s values) :=
    ((Only.refl _ _).step (showSensors_only ..)).step (putFlag_only ..)
  have h2 : Only faultParts { s with sensors := conditionsRead s values }
      (if (conditionsRead s values).warn &&& ~~~s.sensors.warn ≠ 0 then raiseEmcy (setFlag (readingShown s values) kIntegrity 24) 0x4201 kStage 0
        else readingShown s values) :=
    .ite (fun _ => (h1.step (setFlag_only ..)).step (raiseEmcy_only ..)) fun _ => h1
  exact (h2.trans (forEach_only (fun _ _ => thermalFault_only ..) _ _)).step (putFlag_only ..)

/-- The parts of a reading but for the sensors themselves. -/
abbrev readingParts : List StatePart := .planner :: .stage :: .flash :: faultParts

theorem readingWarned_only (values : Vector Nat 38) :
    Only readingParts { s with sensors := conditionsRead s values } (readingWarned s values) := by
  have hreported : Only readingParts { s with sensors := conditionsRead s values } (readingReported s values) :=
    (readingReported_only s values).mono (by decide)
  exact .ite (fun _ => hreported.step (powerFailWarning_only ..)) fun _ => hreported

/-- The samples leave what the reading left, but for the time of the last sample. -/
theorem sampled_kept (t : State) (p : Prop) [Decidable p] : Only [.regs, .free, .slots, .sensors] t (if p then sampleMonitors t else t) ∧
    (if p then sampleMonitors t else t).sensors = { t.sensors with sampledMs := (if p then sampleMonitors t else t).sensors.sampledMs } := by
  split
  · rw [sampleMonitors_eq, (monitorsSampled_only t).part .sensors (by decide)]
    refine ⟨?_, rfl⟩
    exact ((monitorsSampled_only t).mono (by decide)).step (l' := [.sensors]) (.of_eq rfl)
  · exact ⟨.refl .., rfl⟩

end

/-- A condition that comes up is a new one. -/
theorem newBit {a b : BitVec 38} {n : Nat} (ha : a.getLsbD n = true) (hb : b.getLsbD n = false) (hn : n < 38) : a &&& ~~~b ≠ 0 := by
  intro hzero
  have hbit : (a &&& ~~~b).getLsbD n = true := by
    rw [BitVec.getLsbD_and, BitVec.getLsbD_not, ha, hb, decide_eq_true hn]
    rfl
  rw [hzero] at hbit
  exact absurd hbit (by simp)

/-- Settles O46: each condition by its own limit, the critical one's warning by the warning's own rule. -/
theorem sensorReadingsMoveTheirConditions : Obligations.SensorReadingsMoveTheirConditions := by
  intro values s
  have hwarned := readingWarned_only s values
  obtain ⟨hsampled, hsensors⟩ := sampled_kept (readingWarned s values)
    (s.sensors.sampledMs + cyclesPerMs ≤ s.now)
  refine ⟨_, (exec_sensorRead values s).trans (execSensorRead_eq s values), ?_⟩
  generalize (if s.sensors.sampledMs + cyclesPerMs ≤ s.now then sampleMonitors (readingWarned s values)
    else readingWarned s values) = t at hsampled hsensors
  rw [show (readingWarned s values).sensors = conditionsRead s values from hwarned.part .sensors (by decide)] at hsensors
  have hcritical : t.sensors.critical = (conditionsRead s values).critical := congrArg SensorState.critical hsensors |>.trans rfl
  have hkept : ∀ p : StatePart, p ∉ StatePart.free :: .sensors :: readingParts → p.same { s with sensors := conditionsRead s values } t :=
    fun p hp => ((hwarned.mono (l' := StatePart.free :: .sensors :: readingParts) (by decide)).step hsampled).part p hp
  refine ⟨fun n => ?_, fun n => ?_, fun n => ?_, fun n hnone hold hnew => ?_,
    ⟨hkept .dict (by decide), hkept .chans (by decide), hkept .streams (by decide), hkept .flows (by decide)⟩, hkept .pending (by decide),
    hkept .now (by decide)⟩
  · rw [hsensors]
    exact crossings_bit ..
  · rw [hsensors]
    exact crossings_bit ..
  · rw [hcritical]
    exact crossings_bit ..
  · rw [hcritical] at hnew
    have hstage : (readingReported s values).stage = s.stage := (readingReported_only s values).part .stage (by decide)
    have hcrit : readingWarned s values = powerFailWarning (readingReported s values) 5 := if_pos (newBit hnew hold n.isLt)
    rw [hsampled.part .stage (by decide), hcrit]
    rw [powerFailWarning_taken 5 (hstage ▸ hnone)]
    exact warnTaken_warn ..

end Sys2Proof.Machine
end

section
/-! PROOF. Check-value records, monitor slots and the overflow list (14_integrity.md R344, R348, R351). -/

namespace Sys2Proof.Machine

set_option Elab.async false

theorem exec_checkValueRecord (i : CvId) (r : CvRecord) (s : State) : exec (.checkValueRecord i r) s = .next (endRecord s i r) := rfl

theorem exec_monitorClear (k : Client) (m : SlotId) (v : Nat) (s : State) :
    exec (.monitorClear k m v) s = .next (serveWrite s k (0x5000 + m.val) (doMonitorClear m v)) := rfl

theorem exec_monitorSnapshot (k : Client) (m : SlotId) (s : State) : exec (.monitorSnapshot k m) s = execMonitorSnapshot k m s := rfl

theorem exec_overflowListEmpty (k : Client) (s : State) :
    exec (.overflowListEmpty k) s = .next (serveWrite s k 0x5081 doOverflowEmpty) := rfl

/-! ## The end of a record -/

/-- The words that a record's end writes after its result. -/
def recordKeys (i : CvId) : List Nat := [kCv i 6, kCv i 7, kCv i 8, kCv i 9, kIntegrity, key 0x2500 9]

theorem result_notMem_recordKeys (i : CvId) : kCv i 5 ∉ recordKeys i := by
  revert i
  decide

theorem mismatch_keys (i : CvId) : kCv i 9 ∉ [key 0x2500 9] ∧ 31 < widthOf (kCv i 9) ∧ widthOf (kCv i 5) = 64 := by
  revert i
  decide

/-- The result stands in its word, the records and the mismatches are counted. -/
theorem cvEnd_except (s : State) (i : CvId) (v : Nat) (good : Bool) : RegsExcept (regPut s (kCv i 5) v) (cvEnd s i v good) (recordKeys i) := by
  have hbump : ∀ k x, k ∈ recordKeys i → RegsExcept x (bump x k) (recordKeys i) := fun k x hk =>
    (bump_except x k).mono fun j hj => by
      rcases List.mem_cons.1 hj with rfl | hj
      · exact hk
      · rw [List.mem_singleton.1 hj]
        simp [recordKeys]
  have hcounted := hbump (kCv i 6) (regPut s (kCv i 5) v) (by simp [recordKeys])
  unfold cvEnd
  dsimp only
  split
  · exact hcounted
  · exact (hcounted.trans (hbump (kCv i 7) _ (by simp [recordKeys]))).trans ((setFlag_except _ (kCv i 9) 31).mono (by simp [recordKeys]))

theorem cvGap_except (s : State) (i : CvId) : RegsExcept s (cvGap s i) (recordKeys i) := by
  have hbump : RegsExcept s (bump s (kCv i 8)) (recordKeys i) := (bump_except s (kCv i 8)).mono (by simp [recordKeys])
  exact hbump.trans ((setFlag_except _ (kCv i 9) 30).mono (by simp [recordKeys]))

theorem setTaskFlag_except (s : State) (u : UnitId) (ident : Nat) (f : Fin 32) : RegsExcept s (setTaskFlag s u ident f) [key 0x2500 9] := by
  unfold setTaskFlag
  dsimp only
  split
  · split
    · split
      · exact setFlag_except _ (key 0x2500 9) 10
      · exact .of_regs rfl _
    · exact .of_regs rfl _
  · exact .of_regs rfl _

theorem cvMismatch_except (s : State) (o : Option Nat) : RegsExcept s (cvMismatch s o) [key 0x2500 9] := by
  cases o
  · exact .refl s _
  · exact setTaskFlag_except s _ _ _

theorem cvMismatch_only (s : State) (o : Option Nat) : Only [.regs, .disp] s (cvMismatch s o) := by
  cases o
  · exact .refl ..
  · exact setTaskFlag_only ..

/-- The alive value of the record is behind the one expected: a gap is counted. -/
def gapCounted (s : State) (i : CvId) (w a : Nat) : State :=
  match (s.cv.get i).alive with
  | some e => if e = a % 2 ^ w then s else cvGap s i
  | none => s

theorem gapCounted_only (s : State) (i : CvId) (w a : Nat) : Only [.regs, .overflow] s (gapCounted s i w a) := by
  unfold gapCounted
  split
  · exact .ite (fun _ => .refl ..) fun _ => cvGap_only ..
  · exact .refl ..

theorem gapCounted_except (s : State) (i : CvId) (w a : Nat) : RegsExcept s (gapCounted s i w a) (recordKeys i) := by
  unfold gapCounted
  split
  · split
    · exact .refl s _
    · exact cvGap_except s i
  · exact .refl s _

/-- The alive value expected next is one on. -/
def aliveNext (s : State) (i : CvId) (w a : Nat) : State :=
  { gapCounted s i w a with cv := vmod (gapCounted s i w a).cv i fun _ => { alive := some ((a + 1) % 2 ^ w) } }

theorem cvAlive_some {s : State} {i : CvId} {r : CvRecord} {w a : Nat} (hw : cvAliveBits i = some w) (ha : r.alive = some a) :
    cvAlive s i r = aliveNext s i w a := by
  simp only [cvAlive, hw, ha]
  rfl

theorem cvAlive_cases (s : State) (i : CvId) (r : CvRecord) : cvAlive s i r = s ∨ ∃ w a, cvAlive s i r = aliveNext s i w a := by
  cases hw : cvAliveBits i with
  | none => exact .inl (by simp only [cvAlive, hw])
  | some w =>
    cases ha : r.alive with
    | none => exact .inl (by simp only [cvAlive, hw, ha])
    | some a => exact .inr ⟨w, a, cvAlive_some hw ha⟩

theorem aliveNext_only (s : State) (i : CvId) (w a : Nat) : Only [.regs, .overflow, .cv] s (aliveNext s i w a) :=
  ((Only.refl _ s).step (gapCounted_only s i w a)).step (l' := [.cv]) (.of_eq rfl)

/-- Only unit i's alive value may change, in the result's word nothing. -/
structure RecordEnds (i : CvId) (s t : State) : Prop where
  only : Only [.regs, .overflow, .disp, .cv] s t
  result : regGet t (kCv i 5) = regGet s (kCv i 5)
  others : ∀ j, j ≠ i → t.cv.get j = s.cv.get j

theorem cvAlive_ends (s : State) (i : CvId) (r : CvRecord) : RecordEnds i s (cvAlive s i r) := by
  rcases cvAlive_cases s i r with h | ⟨w, a, h⟩ <;> rw [h]
  · exact ⟨.refl .., rfl, fun _ _ => rfl⟩
  · have hcv : (gapCounted s i w a).cv = s.cv := (gapCounted_only s i w a).part .cv (by decide)
    refine ⟨(aliveNext_only s i w a).mono (by decide), gapCounted_except s i w a _ (result_notMem_recordKeys i), fun j hj => ?_⟩
    exact (vmod_get_other _ _ _ _ hj).trans (congrArg (·.get j) hcv)

theorem cvMismatch_ends (s : State) (i : CvId) (o : Option Nat) : RecordEnds i s (cvMismatch s o) :=
  ⟨(cvMismatch_only s o).mono (by decide), cvMismatch_except s o _ (fun h => result_notMem_recordKeys i (by
    rw [List.mem_singleton.1 h]
    simp [recordKeys])), fun j _ => by rw [(cvMismatch_only s o).part .cv (by decide)]⟩

/-- The three ends of a record: compared and equal, compared and different, not compared. -/
theorem endRecord_cases (s : State) (i : CvId) (r : CvRecord) :
    (∀ e, cvExpected s i r = some e → e = cvResult s i r.bytes →
      endRecord s i r = cvAlive (cvEnd s i (cvResult s i r.bytes).toNat true) i r) ∧
    (∀ e, cvExpected s i r = some e → e ≠ cvResult s i r.bytes →
      endRecord s i r = cvMismatch (cvEnd s i (cvResult s i r.bytes).toNat false) r.owner) ∧
    (cvExpected s i r = none → endRecord s i r = cvEnd s i (cvResult s i r.bytes).toNat true) := by
  refine ⟨fun e he heq => ?_, fun e he hne => ?_, fun he => ?_⟩
  · simp only [endRecord, he, if_pos heq]
  · simp only [endRecord, he, if_neg hne]
  · simp only [endRecord, he]

theorem endRecord_ends (s : State) (i : CvId) (r : CvRecord) :
    ∃ good, RecordEnds i (cvEnd s i (cvResult s i r.bytes).toNat good) (endRecord s i r) := by
  obtain ⟨hequal, hdiffers, hfree⟩ := endRecord_cases s i r
  cases he : cvExpected s i r with
  | none => exact ⟨true, by rw [hfree he]; exact ⟨.refl .., rfl, fun _ _ => rfl⟩⟩
  | some e =>
    by_cases h : e = cvResult s i r.bytes
    · exact ⟨true, by rw [hequal e he h]; exact cvAlive_ends ..⟩
    · exact ⟨false, by rw [hdiffers e he h]; exact cvMismatch_ends ..⟩

theorem cvEnd_wf {s : State} (i : CvId) (v : Nat) (hwf : assocWf defaultOf s.regs = true) :
    assocWf defaultOf (bump (bump (regPut s (kCv i 5) v) (kCv i 6)) (kCv i 7)).regs = true :=
  (bump_flagsStay ..).wf ((bump_flagsStay ..).wf (regPut_wf _ _ _ hwf))

/-! ## Monitor slots and the overflow list -/

/-- A slot emptied in both units. -/
def slotCleared (s : State) (m : SlotId) : State := { s with slots := ⟨vmod s.slots.a m fun _ => slotEmpty, vmod s.slots.b m fun _ => slotEmpty⟩ }

theorem slotCleared_same (s : State) (m : SlotId) (u : UnitId) : ((slotCleared s m).slots.get u).get m = slotEmpty := by
  cases u
  · exact vmod_get_same s.slots.a m (fun _ => slotEmpty)
  · exact vmod_get_same s.slots.b m (fun _ => slotEmpty)

theorem slotCleared_other (s : State) {m n : SlotId} (u : UnitId) (h : n ≠ m) :
    ((slotCleared s m).slots.get u).get n = (s.slots.get u).get n := by
  cases u
  · exact vmod_get_other s.slots.a m n (fun _ => slotEmpty) h
  · exact vmod_get_other s.slots.b m n (fun _ => slotEmpty) h

/-- The overflow list empty, its flag not yet lowered. -/
def overflowDropped (s : State) : State := { s with overflow := [] }

theorem clearFlag_except (s : State) (k b : Nat) : RegsExcept s (clearFlag s k b) [k] := regPut_except s k _

/-- Settles O47: a record by its three ends, a slot and the list by their commands. -/
theorem checksAndMonitorSlots : Obligations.ChecksAndMonitorSlots := by
  refine ⟨fun i r s => ?_, fun k m v s hs => ⟨?_, fun hv => exec_refused (exec_monitorClear ..) hs (if_pos hv)⟩, fun k m s => ⟨fun h => ?_, fun h => ?_⟩,
    fun k s hs => ?_⟩
  · obtain ⟨hequal, hdiffers, hfree⟩ := endRecord_cases s i r
    obtain ⟨good, honly, hresult, hothers⟩ := endRecord_ends s i r
    have hend := cvEnd_only s i (cvResult s i r.bytes).toNat
    have hcv : ∀ good, (cvEnd s i (cvResult s i r.bytes).toNat good).cv = s.cv := fun good => (hend good).part .cv (by decide)
    refine ⟨_, exec_checkValueRecord i r s, fun hwf => ?_, fun e he hne => ⟨fun hwf => ?_, ?_⟩, fun e w a he heq hw ha => ?_, fun he => ?_,
      fun j hj => (hothers j hj).trans (congrArg (·.get j) (hcv good)), (((Only.refl [.regs, .overflow, .disp, .cv] s).step (hend good)).step honly).eq⟩
    · rw [hresult, cvEnd_except _ _ _ _ _ (result_notMem_recordKeys i), regGet_regPut_same _ _ _ hwf, (mismatch_keys i).2.2]
      exact Nat.mod_eq_of_lt (BitVec.isLt _)
    · obtain ⟨hkey, hbit, -⟩ := mismatch_keys i
      rw [hdiffers e he hne, (cvMismatch_except _ _).flag _ _ hkey]
      exact flag_setFlag_same (s := bump (bump (regPut s (kCv i 5) _) (kCv i 6)) (kCv i 7)) (cvEnd_wf i _ hwf) hbit
    · rw [hdiffers e he hne, (cvMismatch_only ..).part .cv (by decide), hcv]
    · rw [hequal e he heq, cvAlive_some hw ha]
      exact congrArg CvUnit.alive (vmod_get_same ..)
    · rw [hfree he, hcv]
  · rintro rfl
    refine ⟨_, exec_acknowledged (t := slotCleared (touchClient s k) m) (exec_monitorClear ..) hs rfl, answered_answer ..,
      fun u => slotCleared_same .., fun u n hn => slotCleared_other (touchClient s k) u hn, rfl⟩
  · refine ⟨_, (exec_monitorSnapshot k m s).trans (if_pos h), vmod_get_same .., ?_, fun n hn => vmod_get_other _ _ _ _ hn, rfl⟩
    rw [answered_answer, snapOf, takeSnapshot, vmod_get_same]
    rfl
  · exact (exec_monitorSnapshot k m s).trans (if_neg (by rw [h]; decide))
  · refine ⟨_, exec_acknowledged (t := clearFlag (overflowDropped (touchClient s k)) kIntegrity 22) (exec_overflowListEmpty k s) hs rfl,
      answered_answer .., rfl, fun hwf => ?_, fun j hj => ?_, rfl⟩
    · exact flag_clearFlag_same (s := overflowDropped (touchClient s k)) 22 hwf
    · exact clearFlag_except (overflowDropped (touchClient s k)) kIntegrity 22 j (fun h => hj (List.mem_singleton.1 h))

end Sys2Proof.Machine
end

section
/-! PROOF. The DRAM of a unit (11_dram.md): what a byte reads as, and the refresh, upkeep and self-refresh that keep it (R269 to R272, R278 to R282). -/

namespace Sys2Proof.Machine

set_option Elab.async false

/-! ## Memory that is kept -/

/-- The written bytes and the undefined ranges of a DRAM are as before. -/
structure SameCells (d d' : DramState) : Prop where
  mem : d'.mem = d.mem
  undef : d'.undef = d.undef

namespace SameCells

theorem refl (d : DramState) : SameCells d d := ⟨rfl, rfl⟩

theorem trans {d e f : DramState} (h : SameCells d e) (h' : SameCells e f) : SameCells d f :=
  ⟨h'.mem.trans h.mem, h'.undef.trans h.undef⟩

theorem byte {d d' : DramState} (h : SameCells d d') (a : Nat) : dramByte d' a = dramByte d a := by
  rw [dramByte, undefTag, h.undef, h.mem]
  rfl

end SameCells

/-- The cells of both units are as before. -/
structure CellsKept (s t : State) : Prop where
  cells : ∀ u, SameCells (s.dram.get u) (t.dram.get u)

namespace CellsKept

theorem refl (s : State) : CellsKept s s := ⟨fun _ => .refl _⟩

theorem trans {s t v : State} (h : CellsKept s t) (h' : CellsKept t v) : CellsKept s v := ⟨fun u => (h.cells u).trans (h'.cells u)⟩

theorem of_dram {s t : State} (h : t.dram = s.dram) : CellsKept s t := ⟨fun u => by rw [h]; exact .refl _⟩

theorem of_only {l : List StatePart} {s t : State} (h : Only l s t) (hl : decide (StatePart.dram ∉ l) = true := by decide) : CellsKept s t :=
  .of_dram (h.part .dram (of_decide_eq_true hl))

theorem setDram (s : State) (u : UnitId) {f : DramState → DramState} (h : SameCells (s.dram.get u) (f (s.dram.get u))) :
    CellsKept s (setDram s u f) := by
  refine ⟨fun w => ?_⟩
  by_cases hw : w = u
  · subst hw
    rw [Machine.setDram, pair_mod_get]
    exact h
  · have hother : w = u.other := by
      cases w <;> cases u
      · exact absurd rfl hw
      · rfl
      · rfl
      · exact absurd rfl hw
    rw [hother, Machine.setDram, pair_mod_other]
    exact .refl _

theorem ite {s t u : State} {p : Prop} [Decidable p] (ht : CellsKept s t) (hu : CellsKept s u) : CellsKept s (if p then t else u) := by
  split
  · exact ht
  · exact hu

theorem forEach {α : Type} {f : State → α → State} (hf : ∀ t a, CellsKept t (f t a)) (l : List α) (s : State) : CellsKept s (forEach l f s) := by
  induction l generalizing s with
  | nil => exact .refl s
  | cons a l ih => exact (hf s a).trans (ih (f s a))

theorem byte {s t : State} (h : CellsKept s t) (u : UnitId) (a : Nat) : dramByte (t.dram.get u) a = dramByte (s.dram.get u) a :=
  (h.cells u).byte a

theorem same {s t : State} (h : CellsKept s t) : DramSame s t := ⟨h.byte .a, h.byte .b⟩

end CellsKept

section
variable (s : State) (u : UnitId)

theorem setDram_get (f : DramState → DramState) : (setDram s u f).dram.get u = f (s.dram.get u) := pair_mod_get ..

theorem setDram_other (f : DramState → DramState) : (setDram s u f).dram.get u.other = s.dram.get u.other := pair_mod_other ..

theorem modChannel_same (d : DramState) (ch : DramChan) (f : DramChannel → DramChannel) : (modChannel d ch f).chan.get ch = f (d.chan.get ch) :=
  vmod_get_same ..

theorem modChannel_other (d : DramState) {ch c : DramChan} (f : DramChannel → DramChannel) (h : c ≠ ch) :
    (modChannel d ch f).chan.get c = d.chan.get c := vmod_get_other _ _ _ _ h

end

/-! ## Refresh of a channel -/

section
variable (c : DramChannel) (p : BankPair)

theorem refreshPair_debt : (refreshPair c p).debt = max (-8) (c.debt - 1) := rfl

theorem refreshPair_refreshed : (refreshPair c p).refreshed ≠ 0xFF := by
  unfold refreshPair
  dsimp only
  split
  · decide
  next hbits => exact hbits

/-- What no refresh of a channel touches: its intervals. -/
structure IntervalsKept (c c' : DramChannel) : Prop where
  intervalAt : c'.intervalAt = c.intervalAt
  multiplier : c'.multiplier = c.multiplier

theorem refreshPair_intervals : IntervalsKept c (refreshPair c p) := ⟨rfl, rfl⟩

theorem refreshAhead_intervals (floor : Int) (n : Nat) (c : DramChannel) : IntervalsKept c (refreshAhead floor n c) := by
  induction n generalizing c with
  | zero => exact ⟨rfl, rfl⟩
  | succ n ih =>
    unfold refreshAhead
    split
    · split
      next p _ => exact ⟨(ih (refreshPair c p)).intervalAt, (ih (refreshPair c p)).multiplier⟩
      next => exact ⟨rfl, rfl⟩
    · exact ⟨rfl, rfl⟩

/-- Refreshes that run ahead lower the debt, never below -8. -/
theorem refreshAhead_debt (floor : Int) (n : Nat) (c : DramChannel) (h : -8 ≤ c.debt) :
    -8 ≤ (refreshAhead floor n c).debt ∧ (refreshAhead floor n c).debt ≤ c.debt := by
  induction n generalizing c with
  | zero => exact ⟨h, Int.le_refl _⟩
  | succ n ih =>
    unfold refreshAhead
    split
    · split
      next p _ =>
        have hpair : -8 ≤ (refreshPair c p).debt ∧ (refreshPair c p).debt ≤ c.debt := by
          rw [refreshPair_debt]
          omega
        obtain ⟨hlo, hhi⟩ := ih (refreshPair c p) hpair.1
        exact ⟨hlo, hhi.trans hpair.2⟩
      next => exact ⟨h, Int.le_refl _⟩
    · exact ⟨h, Int.le_refl _⟩

/-- A round that is not full has a pair to refresh. -/
theorem pair_left (bits : BitVec 8) (h : bits ≠ 0xFF) : ((allPairs.filter fun p => !bits.getLsbD p.val).head?).isSome = true := by
  revert bits
  decide

/-- Enough refreshes pay the whole debt. -/
theorem refreshAhead_paid (n : Nat) (c : DramChannel) (hround : c.refreshed ≠ 0xFF) (hdebt : c.debt ≤ n) : (refreshAhead 0 n c).debt ≤ 0 := by
  induction n generalizing c with
  | zero => exact hdebt
  | succ n ih =>
    unfold refreshAhead
    split
    · obtain ⟨p, hp⟩ := Option.isSome_iff_exists.1 (pair_left c.refreshed hround)
      rw [hp]
      refine ih (refreshPair c p) (refreshPair_refreshed c p) ?_
      rw [refreshPair_debt]
      omega
    next h => exact Int.not_lt.1 h

end

/-! ## The end of a refresh interval -/

theorem exec_refreshInterval (u : UnitId) (ch : DramChan) (q : RefreshQueue) (s : State) :
    exec (.refreshInterval u ch q) s = execRefreshInterval u ch q s := rfl

theorem noteDebt_only (s : State) (u : UnitId) (debt : Int) : Only [.regs] s (noteDebt s u debt) :=
  .ite (fun _ => putSigned_only ..) fun _ => .refl ..

/-- Channel ch of unit u becomes c, and the debt is noted. -/
def channelNoted (v : State) (u : UnitId) (ch : DramChan) (c : DramChannel) (debt : Int) : State :=
  noteDebt (setDram v u fun d => modChannel d ch fun _ => c) u debt

/-- A refresh of a busy pair is counted. -/
def splitCounted (v t : State) (u : UnitId) (split : Bool) : State :=
  if split ∧ u = viewUnit v then setFlag (countUnit t (kDram 7) none 1) (kDram 0x10) 30 else t

/-- Whether refreshes may run ahead: a blank lap and no request queued. -/
def mayRunAhead (v : State) (q : RefreshQueue) : Bool :=
  blankLap v && decide (q.others = 0) && q.realTime.toList.all fun x => x == 0

/-- The channel behind the refresh of pair p. -/
def channelRefreshed (v : State) (q : RefreshQueue) (c : DramChannel) (p : BankPair) : DramChannel :=
  { (if mayRunAhead v q then refreshAhead (-8) (refreshesFit v c - 1) (refreshPair c p) else refreshPair c p) with refreshedAt := v.now }

section
variable {u : UnitId} {ch : DramChan} {q : RefreshQueue} {s v : State}

theorem execRefreshInterval_waits (hv : v = serveHeld s u) (h : (v.dram.get u).refresh = .inside ∨ intervalDue v u ch = false) :
    execRefreshInterval u ch q s = .next v := by
  subst hv
  exact if_pos (h.imp_right fun h => by rw [h]; decide)

theorem execRefreshInterval_due (hv : v = serveHeld s u) (hin : (v.dram.get u).refresh ≠ .inside) (hdue : intervalDue v u ch = true) :
    execRefreshInterval u ch q s =
      match chooseRefresh (nextInterval v u ch ((v.dram.get u).chan.get ch)) (nextInterval v u ch ((v.dram.get u).chan.get ch)).debt q.realTime with
      | .postpone => .next (channelNoted v u ch (nextInterval v u ch ((v.dram.get u).chan.get ch)) (nextInterval v u ch ((v.dram.get u).chan.get ch)).debt)
      | .take p split => .next (splitCounted v (channelNoted v u ch
          (channelRefreshed v q (nextInterval v u ch ((v.dram.get u).chan.get ch)) p) (nextInterval v u ch ((v.dram.get u).chan.get ch)).debt) u split) := by
  subst hv
  refine (if_neg ?_).trans rfl
  rintro (h | h)
  · exact hin h
  · exact h hdue

end

theorem channelNoted_only (v : State) (u : UnitId) (ch : DramChan) (c : DramChannel) (debt : Int) :
    Only [.regs, .dram] v (channelNoted v u ch c debt) :=
  ((Only.refl _ v).step (setDram_only ..)).step (noteDebt_only ..)

theorem splitCounted_only (v t : State) (u : UnitId) (split : Bool) : Only [.regs, .counts] t (splitCounted v t u split) :=
  .ite (fun _ => ((Only.refl _ t).step (countUnit_only ..)).step (setFlag_only ..)) fun _ => .refl ..

/-- Channel ch of unit u is c, every other channel and every byte as before. -/
structure ChannelSet (v t : State) (u : UnitId) (ch : DramChan) (c : DramChannel) : Prop where
  same : (t.dram.get u).chan.get ch = c
  others : ∀ c', c' ≠ ch → (t.dram.get u).chan.get c' = (v.dram.get u).chan.get c'
  cells : CellsKept v t
  only : Only [.regs, .counts, .dram] v t

theorem channelNoted_set (v : State) (u : UnitId) (ch : DramChan) (c : DramChannel) (debt : Int) :
    ChannelSet v (channelNoted v u ch c debt) u ch c := by
  have hdram : (channelNoted v u ch c debt).dram = (setDram v u fun d => modChannel d ch fun _ => c).dram :=
    (noteDebt_only ..).part .dram (by decide)
  refine ⟨?_, fun c' hc' => ?_, (CellsKept.setDram v u ⟨rfl, rfl⟩).trans (.of_dram hdram), (channelNoted_only ..).mono (by decide)⟩
  · rw [hdram, setDram_get, modChannel_same]
  · rw [hdram, setDram_get, modChannel_other _ _ hc']

theorem ChannelSet.splitCounted {v t : State} {u : UnitId} {ch : DramChan} {c : DramChannel} (h : ChannelSet v t u ch c) (split : Bool) :
    ChannelSet v (splitCounted v t u split) u ch c := by
  have honly := splitCounted_only v t u split
  have hdram : (Machine.splitCounted v t u split).dram = t.dram := honly.part .dram (by decide)
  exact ⟨by rw [hdram]; exact h.same, fun c' hc' => by rw [hdram]; exact h.others c' hc', h.cells.trans (.of_dram hdram), h.only.step honly⟩

theorem nextInterval_debt (v : State) (u : UnitId) (ch : DramChan) (c : DramChannel) : (nextInterval v u ch c).debt = min 8 (c.debt + 1) := rfl

theorem channelRefreshed_debt (v : State) (q : RefreshQueue) (c : DramChannel) (p : BankPair) (h : c.debt ≤ 8) :
    -8 ≤ (channelRefreshed v q c p).debt ∧ (channelRefreshed v q c p).debt ≤ 8 := by
  have hpair : -8 ≤ (refreshPair c p).debt ∧ (refreshPair c p).debt ≤ 8 := by
    rw [refreshPair_debt]
    omega
  unfold channelRefreshed
  dsimp only
  split
  · obtain ⟨hlo, hhi⟩ := refreshAhead_debt (-8) (refreshesFit v c - 1) (refreshPair c p) hpair.1
    exact ⟨hlo, hhi.trans hpair.2⟩
  · exact hpair

theorem channelRefreshed_intervals (v : State) (q : RefreshQueue) (c : DramChannel) (p : BankPair) : IntervalsKept c (channelRefreshed v q c p) := by
  have hahead := refreshAhead_intervals (-8) (refreshesFit v c - 1) (refreshPair c p)
  unfold channelRefreshed
  dsimp only
  split
  · exact ⟨hahead.intervalAt, hahead.multiplier⟩
  · exact ⟨rfl, rfl⟩

theorem mayRunAhead_false {v : State} {q : RefreshQueue} (h : blankLap v = false ∨ 0 < q.others ∨ ∃ i : BankPair, 0 < q.realTime.get i) :
    mayRunAhead v q = false := by
  unfold mayRunAhead
  rcases h with h | h | ⟨i, hi⟩
  · rw [h, Bool.false_and, Bool.false_and]
  · rw [decide_eq_false (Nat.ne_of_gt h), Bool.and_false, Bool.false_and]
  · have hsome : (q.realTime.toList.all fun x => x == 0) = false := by
      rw [List.all_eq_false]
      refine ⟨q.realTime.get i, ?_, by simp; omega⟩
      rw [vector_get_eq]
      exact Vector.mem_toList_iff.2 (Vector.getElem_mem i.isLt)
    rw [hsome, Bool.and_false]

end Sys2Proof.Machine
end

section
/-! PROOF. Refresh and upkeep keep memory (11_dram.md R269 to R272, R278, R282), and self-refresh keeps what it states (R279 to R281). -/

namespace Sys2Proof.Machine

set_option Elab.async false

/-! ## MR4 -/

theorem exec_mr4Poll (u : UnitId) (rates : Vector Nat 32) (changed : Bool) (s : State) :
    exec (.mr4Poll u rates changed) s = execMr4Poll u rates changed s := rfl

theorem foldl_max_le (l : List Nat) (a b : Nat) : l.foldl max a ≤ b ↔ a ≤ b ∧ ∀ x ∈ l, x ≤ b := by
  induction l generalizing a with
  | nil => simp
  | cons x l ih => simp [ih, and_assoc]

/-- The devices of a unit request 1 where every channel does. -/
theorem deviceRate_le (d : DramState) (b : Nat) (hb : 1 ≤ b) : deviceRate d ≤ b ↔ ∀ c : DramChan, (d.chan.get c).rate ≤ b := by
  rw [deviceRate, foldl_max_le]
  constructor
  · rintro ⟨-, h⟩ c
    refine h _ (List.mem_map_of_mem ?_)
    rw [vector_get_eq]
    exact Vector.mem_toList_iff.2 (Vector.getElem_mem c.isLt)
  · intro h
    refine ⟨hb, fun x hx => ?_⟩
    obtain ⟨c, hc, rfl⟩ := List.mem_map.1 hx
    obtain ⟨i, hi, rfl⟩ := Vector.mem_iff_getElem.1 (Vector.mem_toList_iff.1 hc)
    exact h ⟨i, hi⟩

/-- A temperature above the range of the refresh multipliers. -/
def ratesBeyond (rates : Vector Nat 32) : Bool := rates.toList.any fun r => decide (4 < r)

theorem ratesBeyond_iff (rates : Vector Nat 32) : ratesBeyond rates = true ↔ ∃ c : DramChan, 4 < rates.get c := by
  rw [ratesBeyond, List.any_eq_true]
  constructor
  · rintro ⟨r, hr, h⟩
    obtain ⟨i, hi, rfl⟩ := Vector.mem_iff_getElem.1 (Vector.mem_toList_iff.1 hr)
    exact ⟨⟨i, hi⟩, of_decide_eq_true h⟩
  · rintro ⟨c, h⟩
    refine ⟨rates.get c, ?_, decide_eq_true h⟩
    rw [vector_get_eq]
    exact Vector.mem_toList_iff.2 (Vector.getElem_mem c.isLt)

/-- The unit's DRAM behind a poll. -/
def mr4Dram (now : Nat) (rates : Vector Nat 32) (changed : Bool) (d : DramState) : DramState :=
  { d with
    chan := d.chan.mapFinIdx fun i c hi => { c with rate := mr4Rate rates[i] }
    polledAt := now
    overRange := ratesBeyond rates
    tempChanged := d.tempChanged || changed }

/-- The poll with the multiplier that reads in view. -/
def mr4Shown (s : State) (u : UnitId) (rates : Vector Nat 32) (changed : Bool) : State :=
  let t := setDram s u (mr4Dram s.now rates changed)
  if u = viewUnit s then regPut t (kDram 4) (refreshMultiplier t u) else t

section
variable {s : State} {u : UnitId} {rates : Vector Nat 32} {changed : Bool}

theorem execMr4Poll_early (h : s.now < (s.dram.get u).polledAt + cyclesPerMs) : execMr4Poll u rates changed s = .next s := if_pos h

theorem execMr4Poll_due (h : (s.dram.get u).polledAt + cyclesPerMs ≤ s.now) : execMr4Poll u rates changed s =
    .next (dramThermal (mr4Shown s u rates changed) u
      (decide (deviceRate (s.dram.get u) ≤ 1 ∧ 1 < deviceRate (mr4Dram s.now rates changed (s.dram.get u))))
      (ratesBeyond rates && !(s.dram.get u).overRange)) := by
  refine (if_neg (Nat.not_lt.2 h)).trans ?_
  rw [← setDram_get s u (mr4Dram s.now rates changed)]
  rfl

end

theorem mr4Shown_after (s : State) (u : UnitId) (rates : Vector Nat 32) (changed : Bool) :
    Only [.regs] (setDram s u (mr4Dram s.now rates changed)) (mr4Shown s u rates changed) :=
  .ite (fun _ => regPut_only ..) fun _ => .refl ..

theorem mr4Shown_only (s : State) (u : UnitId) (rates : Vector Nat 32) (changed : Bool) : Only [.regs, .dram] s (mr4Shown s u rates changed) :=
  ((Only.refl _ s).step (setDram_only ..)).step (mr4Shown_after ..)

theorem mr4Shown_get (s : State) (u : UnitId) (rates : Vector Nat 32) (changed : Bool) :
    (mr4Shown s u rates changed).dram.get u = mr4Dram s.now rates changed (s.dram.get u) := by
  rw [(mr4Shown_after s u rates changed).part .dram (by decide), setDram_get]

theorem mr4Shown_cells (s : State) (u : UnitId) (rates : Vector Nat 32) (changed : Bool) : CellsKept s (mr4Shown s u rates changed) :=
  (CellsKept.setDram s u ⟨rfl, rfl⟩).trans (.of_only (mr4Shown_after ..))

theorem mr4Dram_rate (now : Nat) (rates : Vector Nat 32) (changed : Bool) (d : DramState) (c : DramChan) :
    ((mr4Dram now rates changed d).chan.get c).rate = mr4Rate (rates.get c) := by
  rw [mr4Dram, vector_get_eq, Vector.getElem_mapFinIdx]
  rfl

/-- A rate newly above 1 is shown and warned of. -/
def thermalShown (s : State) (u : UnitId) (hot : Bool) : State :=
  let t := putFlag s kStage 22 (thermalWarning s)
  if hot then raiseEmcyOf (setFlag t kIntegrity 24) u 0x4201 kStage u.bit else t

theorem dramThermal_eq (s : State) (u : UnitId) (hot beyond : Bool) :
    dramThermal s u hot beyond = if beyond then unitFaultOf (thermalShown s u hot) u .thermal else thermalShown s u hot := rfl

theorem thermalShown_only (s : State) (u : UnitId) (hot : Bool) : Only [.regs, .overflow, .emcy, .log] s (thermalShown s u hot) := by
  have hput : Only [.regs, .overflow, .emcy, .log] s (putFlag s kStage 22 (thermalWarning s)) := (Only.refl _ s).step (putFlag_only ..)
  exact .ite (fun _ => (hput.step (setFlag_only ..)).step (raiseEmcyOf_only ..)) fun _ => hput

theorem thermalShown_cold (s : State) (u : UnitId) : Only [.regs] s (thermalShown s u false) := putFlag_only ..

theorem putFlag_wf {s : State} (k b : Nat) (v : Bool) (hwf : assocWf defaultOf s.regs = true) : assocWf defaultOf (putFlag s k b v).regs = true := by
  unfold putFlag
  split <;> exact regPut_wf _ _ _ hwf

theorem thermalShown_hot {s : State} (u : UnitId) (hwf : assocWf defaultOf s.regs = true) :
    flag (thermalShown s u true) kIntegrity 24 = true := by
  have hput := putFlag_wf kStage 22 (thermalWarning s) hwf
  exact (raiseEmcyOf_flagsStay ..).stay (regPut_wf _ _ _ hput) _ _ (by decide) (by decide) (flag_setFlag_same hput (by decide))

theorem mr4Shown_wf {s : State} (u : UnitId) (rates : Vector Nat 32) (changed : Bool) (hwf : assocWf defaultOf s.regs = true) :
    assocWf defaultOf (mr4Shown s u rates changed).regs = true := by
  unfold mr4Shown
  dsimp only
  split
  · exact regPut_wf _ _ _ hwf
  · exact hwf

/-! ## Visits and self-refresh -/

theorem unit_eq_or_other (u w : UnitId) : w = u ∨ w = u.other := by
  cases u <;> cases w
  · exact .inl rfl
  · exact .inr rfl
  · exact .inr rfl
  · exact .inl rfl

/-- Segment 0 of every unit reads as before. -/
structure SegmentZeroKept (s t : State) : Prop where
  byte : ∀ u a, a < segmentBytes → dramByte (t.dram.get u) a = dramByte (s.dram.get u) a

theorem CellsKept.segmentZero {s t : State} (h : CellsKept s t) : SegmentZeroKept s t := ⟨fun u a _ => h.byte u a⟩

theorem SegmentZeroKept.trans {s t v : State} (h : SegmentZeroKept s t) (h' : SegmentZeroKept t v) : SegmentZeroKept s v :=
  ⟨fun u a ha => (h'.byte u a ha).trans (h.byte u a ha)⟩

/-- A range taken out of the undefined ones leaves the tag of every address outside it. -/
theorem find_defineRange (l : List (Nat × Nat × Nat)) {lo hi a : Nat} (hlt : lo < hi) (ha : a < lo ∨ hi ≤ a) :
    ((defineRange l lo hi).find? fun r => decide (r.1 ≤ a ∧ a < r.2.1)).map (fun r => r.2.2) =
      (l.find? fun r => decide (r.1 ≤ a ∧ a < r.2.1)).map fun r => r.2.2 := by
  induction l with
  | nil => rfl
  | cons r l ih =>
    rw [defineRange, List.flatMap_cons, ← defineRange, List.find?_append, List.find?_cons]
    by_cases hr : r.1 ≤ a ∧ a < r.2.1
    · rw [decide_eq_true hr]
      rcases ha with ha | ha
      · rw [if_pos (by omega), List.cons_append, List.nil_append, List.find?_cons, decide_eq_true (by dsimp only; omega)]
        rfl
      · rw [if_pos (show max r.1 hi < r.2.1 by omega), List.find?_append]
        split
        · rw [List.find?_cons, decide_eq_false (by dsimp only; omega), List.find?_cons, decide_eq_true (by dsimp only; omega)]
          rfl
        · rw [List.find?_cons, decide_eq_true (by dsimp only; omega)]
          rfl
    · rw [decide_eq_false hr]
      have hnone : List.find? (fun r => decide (r.1 ≤ a ∧ a < r.2.1))
          ((if r.1 < min r.2.1 lo then [(r.1, min r.2.1 lo, r.2.2)] else []) ++
            if max r.1 hi < r.2.1 then [(max r.1 hi, r.2.1, r.2.2)] else []) = none := by
        rw [List.find?_eq_none]
        intro x hx
        rw [List.mem_append, List.mem_ite_nil_right, List.mem_ite_nil_right, List.mem_singleton, List.mem_singleton] at hx
        rw [decide_eq_true_eq]
        rcases hx with ⟨_, rfl⟩ | ⟨_, rfl⟩ <;> dsimp only <;> omega
      rw [hnone]
      exact ih

/-- A defined range reads its written bytes; outside it nothing changes. -/
theorem undefTag_defineRange {d d' : DramState} {lo hi a : Nat} (hlt : lo < hi) (h : d'.undef = defineRange d.undef lo hi) (ha : a < lo ∨ hi ≤ a) :
    undefTag d' a = undefTag d a := by
  rw [undefTag, h]
  exact find_defineRange d.undef hlt ha

theorem undefTag_append {d d' : DramState} {r : Nat × Nat × Nat} {a : Nat} (h : d'.undef = d.undef ++ [r]) (ha : ¬ (r.1 ≤ a ∧ a < r.2.1)) :
    undefTag d' a = undefTag d a := by
  rw [undefTag, h, List.find?_append, List.find?_cons, decide_eq_false ha, List.find?_nil, Option.or_none]
  rfl

theorem assocGet_filter_kept {α : Type} (d : Nat → α) (p : Nat × α → Bool) (l : List (Nat × α)) (k : Nat) (hk : ∀ x, p (k, x) = true) :
    assocGet d (l.filter p) k = assocGet d l k := by
  induction l with
  | nil => rfl
  | cons y l ih =>
    obtain ⟨j, x⟩ := y
    by_cases hj : k = j
    · subst hj
      rw [List.filter_cons_of_pos (hk x), assocGet, assocGet, if_pos rfl, if_pos rfl]
    · rw [List.filter_cons, assocGet, if_neg hj]
      split
      · rw [assocGet, if_neg hj]
        exact ih
      · exact ih

/-- The bytes of a range are lost: outside it every byte reads as before. -/
theorem dramByte_rangeLost {d d' : DramState} {lo hi tag a : Nat} (hlt : lo < hi) (hundef : d'.undef = defineRange d.undef lo hi ++ [(lo, hi, tag)])
    (hmem : assocGet unlistedByte d'.mem a = assocGet unlistedByte d.mem a) (ha : a < lo ∨ hi ≤ a) : dramByte d' a = dramByte d a := by
  have htag : undefTag d' a = undefTag d a :=
    (undefTag_append (d := { d with undef := defineRange d.undef lo hi }) hundef (by dsimp only; omega)).trans
      (undefTag_defineRange hlt rfl ha)
  rw [dramByte, dramByte, htag, hmem]

theorem loseSegments_byte (d : DramState) (tag : Nat) {a : Nat} (ha : a < segmentBytes) : dramByte (loseSegments d tag) a = dramByte d a :=
  dramByte_rangeLost (d := d) (lo := segmentBytes) (hi := usableBytes) (tag := tag) (by decide) rfl
    (assocGet_filter_kept _ _ _ _ fun _ => decide_eq_true ha) (.inl ha)

/-- A DRAM on its way out of self-refresh, debts and rounds fresh. -/
def wokenDram (now wait : Nat) (x : DramState) : DramState :=
  { x with
    refresh := .exiting
    refreshAt := now + wait
    lastRequest := now
    maskZero := false
    chan := x.chan.map fun c => { c with debt := 0, refreshed := 0, intervalAt := (now + wait) * 32 } }

/-- A masked DRAM loses segments 1 to 7 as it wakes. -/
def dramWoken (now wait tag : Nat) (x : DramState) : DramState :=
  if x.maskZero then loseSegments (wokenDram now wait x) tag else wokenDram now wait x

section
variable (s : State) (u : UnitId) (wait : Nat)

theorem wakeDram_eq : wakeDram s u wait = drawFree (setDram s u (dramWoken s.now wait s.free)) := rfl

theorem wakeDram_only : Only [.free, .dram] s (wakeDram s u wait) := by
  rw [wakeDram_eq]
  exact ((Only.refl _ s).step (setDram_only ..)).step (drawFree_only _)

theorem wakeDram_get : (wakeDram s u wait).dram.get u = dramWoken s.now wait s.free (s.dram.get u) := setDram_get ..

theorem wakeDram_otherUnit : (wakeDram s u wait).dram.get u.other = s.dram.get u.other := setDram_other ..

theorem dramWoken_chan (now wait tag : Nat) (x : DramState) : (dramWoken now wait tag x).chan = (wokenDram now wait x).chan := by
  unfold dramWoken
  split <;> rfl

theorem dramWoken_exiting (now wait tag : Nat) (x : DramState) :
    (dramWoken now wait tag x).refresh = .exiting ∧ (dramWoken now wait tag x).refreshAt = now + wait := by
  unfold dramWoken
  split <;> exact ⟨rfl, rfl⟩

theorem dramWoken_byte (now wait tag : Nat) (x : DramState) {a : Nat} (ha : a < segmentBytes) :
    dramByte (dramWoken now wait tag x) a = dramByte x a := by
  have hwoken : SameCells x (wokenDram now wait x) := ⟨rfl, rfl⟩
  unfold dramWoken
  split
  · rw [loseSegments_byte _ _ ha, hwoken.byte]
  · exact hwoken.byte a

theorem wakeDram_segmentZero : SegmentZeroKept s (wakeDram s u wait) := by
  refine ⟨fun w a ha => ?_⟩
  rcases unit_eq_or_other u w with rfl | rfl
  · rw [wakeDram_get]
    exact dramWoken_byte _ _ _ _ ha
  · rw [wakeDram_otherUnit]

theorem wakeDram_cells (h : (s.dram.get u).maskZero = false) : CellsKept s (wakeDram s u wait) := by
  have hset : CellsKept s (setDram s u (dramWoken s.now wait s.free)) := by
    refine .setDram s u ?_
    rw [dramWoken, h]
    exact ⟨rfl, rfl⟩
  exact hset.trans (.of_dram rfl)

/-- How long the exit takes. -/
def exitWait : Nat := 432 + if longRefresh s.now (s.dram.get u) then 1800 else 0

/-- The re-centre of a long exit has run. -/
def recentred (now : Nat) (x : DramState) : DramState := { x with recentredAt := now, chan := x.chan.map fun c => { c with recentre := 0 } }

theorem leaveRefresh_eq : leaveRefresh s u =
    if longRefresh s.now (s.dram.get u) then setDram (wakeDram s u (exitWait s u)) u (recentred s.now) else wakeDram s u (exitWait s u) := rfl

theorem leaveRefresh_after : Only [.dram] (wakeDram s u (exitWait s u)) (leaveRefresh s u) := by
  rw [leaveRefresh_eq]
  exact .ite (fun _ => setDram_only ..) fun _ => .refl ..

theorem leaveRefresh_only : Only [.free, .dram] s (leaveRefresh s u) := (wakeDram_only ..).step (leaveRefresh_after s u)

theorem leaveRefresh_cellsAfter : CellsKept (wakeDram s u (exitWait s u)) (leaveRefresh s u) := by
  rw [leaveRefresh_eq]
  exact .ite (.setDram _ u ⟨rfl, rfl⟩) (.refl _)

theorem leaveRefresh_segmentZero : SegmentZeroKept s (leaveRefresh s u) :=
  (wakeDram_segmentZero ..).trans (leaveRefresh_cellsAfter s u).segmentZero

theorem leaveRefresh_exiting : ((leaveRefresh s u).dram.get u).refresh = .exiting ∧
    ((leaveRefresh s u).dram.get u).refreshAt = s.now + exitWait s u := by
  have hwoken := dramWoken_exiting s.now (exitWait s u) s.free (s.dram.get u)
  rw [← wakeDram_get] at hwoken
  rw [leaveRefresh_eq]
  split
  · rw [setDram_get]
    exact hwoken
  · exact hwoken

theorem leaveRefresh_debt (c : DramChan) : (((leaveRefresh s u).dram.get u).chan.get c).debt = 0 := by
  have hwoken : (((wakeDram s u (exitWait s u)).dram.get u).chan.get c).debt = 0 := by
    rw [wakeDram_get, dramWoken_chan, wokenDram, vector_get_eq, Vector.getElem_map]
  rw [leaveRefresh_eq]
  split
  · rw [setDram_get, recentred, vector_get_eq, Vector.getElem_map, ← vector_get_eq]
    exact hwoken
  · exact hwoken

theorem leaveRefresh_otherUnit : (leaveRefresh s u).dram.get u.other = s.dram.get u.other := by
  rw [leaveRefresh_eq]
  split
  · rw [setDram_other, wakeDram_otherUnit]
  · exact wakeDram_otherUnit ..

end

end Sys2Proof.Machine
end

section
/-! PROOF. The refresh intervals, the upkeep and the self-refresh of a unit's DRAM (11_dram.md R269 to R272, R278 to R282), command by command. -/

namespace Sys2Proof.Machine

set_option Elab.async false

theorem exec_hammerWindowClear (u : UnitId) (s : State) : exec (.hammerWindowClear u) s = execHammerWindowClear u s := rfl

theorem exec_scrubPassStart (u : UnitId) (s : State) : exec (.scrubPassStart u) s = execScrubPassStart u s := rfl

theorem exec_zqLatch (u : UnitId) (s : State) : exec (.zqLatch u) s = execZqLatch u s := rfl

theorem exec_driftMeasure (u : UnitId) (bits : BitVec 32) (s : State) : exec (.driftMeasure u bits) s = execDriftMeasure u bits s := rfl

theorem exec_standbyRecentre (s : State) : exec .standbyRecentre s = execStandbyRecentre s := rfl

theorem exec_selfRefreshEntry (u : UnitId) (s : State) : exec (.selfRefreshEntry u) s = execSelfRefreshEntry u s := rfl

theorem exec_selfRefreshCommit (u : UnitId) (s : State) : exec (.selfRefreshCommit u) s = execSelfRefreshCommit u s := rfl

theorem exec_selfRefreshExit (u : UnitId) (since : Nat) (s : State) : exec (.selfRefreshExit u since) s = execSelfRefreshExit u since s := rfl

/-! ## The row-hammer tables, ZQ and the drift -/

/-- The tables of a new window. -/
def tablesCleared (window threshold : Nat) (d : DramState) : DramState :=
  { d with chan := d.chan.map fun c => { c with hammer := .replicate 16 [] }, hammerWindow := window, threshold := threshold }

theorem tablesCleared_hammer (window threshold : Nat) (d : DramState) (c : DramChan) (b : Fin 16) :
    ((tablesCleared window threshold d).chan.get c).hammer.get b = [] := by
  simp [tablesCleared, vector_get_eq]

/-- The drift as it is measured. -/
def driftMeasured (now : Nat) (bits : BitVec 32) (d : DramState) : DramState :=
  { d with driftAt := now, chan := d.chan.mapFinIdx fun i c _ => { c with recentre := if bits.getLsbD i then 1800 else c.recentre } }

theorem driftMeasured_recentre (now : Nat) (bits : BitVec 32) (d : DramState) (c : DramChan) :
    ((driftMeasured now bits d).chan.get c).recentre = if bits.getLsbD c.val then 1800 else (d.chan.get c).recentre := by
  rw [driftMeasured, vector_get_eq, Vector.getElem_mapFinIdx]
  rfl

/-! ## The scrub -/

/-- A pass that begins. -/
def scrubBegun (s : State) (x : DramState) : DramState := { x with scrubbing := true, scrubStart := s.now, scrubRate := cfg s (kDram 3) }

section
variable {s : State} {u : UnitId}

theorem finishScrub_running (h : (s.dram.get u).scrubbing = false ∨ s.now < (s.dram.get u).scrubStart + scrubCycles s u) : finishScrub s u = s := by
  refine if_neg fun ⟨hscrub, hend⟩ => ?_
  rcases h with h | h
  · exact Bool.noConfusion (h.symm.trans hscrub)
  · exact Nat.not_le.2 h hend

/-- The visit of a pass takes the unit out of self-refresh. -/
def scrubVisited (s : State) (u : UnitId) : State := if (s.dram.get u).refresh = .inside then leaveRefresh s u else s

theorem scrubVisited_inside (h : (s.dram.get u).refresh = .inside) : scrubVisited s u = leaveRefresh s u := if_pos h

theorem scrubVisited_awake (h : (s.dram.get u).refresh ≠ .inside) : scrubVisited s u = s := if_neg h

theorem execScrubPassStart_begins (hidle : (s.dram.get u).scrubbing = false) (hdue : (s.dram.get u).scrubStart + 60 * cyclesPerSec ≤ s.now) :
    execScrubPassStart u s =
      .next (setDram (scrubVisited s u) u (scrubBegun s)) := by
  have hnot : ¬ (s.dram.get u).scrubbing = true := by rw [hidle]; decide
  unfold execScrubPassStart
  rw [finishScrub_running (.inl hidle)]
  exact (if_pos (.inl hdue)).trans (if_neg hnot)

theorem execScrubPassStart_raises (hrun : (s.dram.get u).scrubbing = true) (hdue : (s.dram.get u).scrubStart + 60 * cyclesPerSec ≤ s.now)
    (hlate : s.now < (s.dram.get u).scrubStart + scrubCycles s u) : execScrubPassStart u s =
      .next (if u = viewUnit s then setFlag (setDram s u fun x => { x with scrubRaised := true }) (kDram 0x10) 28
        else setDram s u fun x => { x with scrubRaised := true }) := by
  unfold execScrubPassStart
  rw [finishScrub_running (.inr hlate)]
  exact (if_pos (.inl hdue)).trans (if_pos hrun)

theorem execScrubPassStart_early (hidle : (s.dram.get u).scrubbing = false) (hearly : s.now < (s.dram.get u).scrubStart + 60 * cyclesPerSec)
    (hrate : (s.dram.get u).scrubRate ≠ 0) : execScrubPassStart u s = .next s := by
  have hnot : ¬ ((s.dram.get u).scrubStart + 60 * cyclesPerSec ≤ s.now ∨ (s.dram.get u).scrubRate = 0) :=
    not_or.2 ⟨Nat.not_le.2 hearly, hrate⟩
  unfold execScrubPassStart
  rw [finishScrub_running (.inl hidle)]
  exact if_neg hnot

end

/-! ## The re-centre of the standby -/

/-- The standby's DRAM behind its re-centre. -/
def standbyRecentred (now : Nat) (x : DramState) : DramState :=
  { x with recentredAt := now, tempChanged := false, chan := x.chan.map fun c => { c with recentre := 0 } }

theorem standbyRecentred_cells (now : Nat) (x : DramState) : SameCells x (standbyRecentred now x) := ⟨rfl, rfl⟩

theorem execStandbyRecentre_due {s : State} {u : UnitId} (hu : standbyOf s = some u) (hin : (s.dram.get u).refresh = .inside)
    (hdue : (s.dram.get u).recentredAt + 50 * cyclesPerMs ≤ s.now) :
    execStandbyRecentre s = .next (setDram (wakeDram s u (432 + 1800)) u (standbyRecentred s.now)) := by
  simp only [execStandbyRecentre, hu]
  exact if_pos ⟨hin, .inr hdue⟩

theorem execStandbyRecentre_none {s : State} (h : standbyOf s = none) : execStandbyRecentre s = .next s := by
  simp only [execStandbyRecentre, h]

theorem recentre_map (v : Vector DramChannel 32) (c : DramChan) : ((v.map fun c : DramChannel => { c with recentre := 0 }).get c).recentre = 0 := by
  rw [vector_get_eq, Vector.getElem_map]

/-! ## O31 -/

/-- What an upkeep command leaves: bytes and everything but the DRAM's own state. -/
theorem setDram_upkeep (s : State) (u : UnitId) {f : DramState → DramState} (h : SameCells (s.dram.get u) (f (s.dram.get u))) :
    DramSame s (setDram s u f) := (CellsKept.setDram s u h).same

/-- R269 to R271: an interval that has ended raises the debt, and refreshes, ahead or not, within the bounds. -/
theorem refreshInterval_due {u : UnitId} {ch : DramChan} {q : RefreshQueue} {x : DramChannel} {s v : State} (hv : v = serveHeld s u)
    (hx : x = (v.dram.get u).chan.get ch) (hin : (v.dram.get u).refresh ≠ .inside) (hdue : intervalDue v u ch = true) (hlo : -8 ≤ x.debt) :
    ∃ t c, exec (.refreshInterval u ch q) s = .next t ∧ ChannelSet v t u ch c ∧ -8 ≤ c.debt ∧ c.debt ≤ 8 ∧
      IntervalsKept (nextInterval v u ch x) c ∧
      (chooseRefresh (nextInterval v u ch x) (min 8 (x.debt + 1)) q.realTime = .postpone → c = nextInterval v u ch x) ∧
      ∀ p split, chooseRefresh (nextInterval v u ch x) (min 8 (x.debt + 1)) q.realTime = .take p split →
        c = channelRefreshed v q (nextInterval v u ch x) p := by
  have hexec := execRefreshInterval_due (q := q) hv hin hdue
  rw [← hx, ← exec_refreshInterval, nextInterval_debt] at hexec
  rw [hexec]
  cases hchoice : chooseRefresh (nextInterval v u ch x) (min 8 (x.debt + 1)) q.realTime with
  | postpone =>
    refine ⟨_, nextInterval v u ch x, rfl, channelNoted_set .., ?_, ?_, ⟨rfl, rfl⟩, fun _ => rfl, fun p split h => nomatch h⟩ <;>
      rw [nextInterval_debt] <;> omega
  | take p split =>
    have hdebt := channelRefreshed_debt v q (nextInterval v u ch x) p (by rw [nextInterval_debt]; omega)
    refine ⟨_, channelRefreshed v q (nextInterval v u ch x) p, rfl, (channelNoted_set ..).splitCounted split, hdebt.1, hdebt.2,
      channelRefreshed_intervals .., (fun h => nomatch h), fun p' split' h => ?_⟩
    injection h with hp
    rw [hp]

/-- R269: a poll within the range of the multipliers, and one above it in the active unit. -/
theorem mr4Poll_due {u : UnitId} {rates : Vector Nat 32} {changed : Bool} {s : State} (hdue : (s.dram.get u).polledAt + cyclesPerMs ≤ s.now) :
    ∃ t, exec (.mr4Poll u rates changed) s = .next t ∧
      ((∀ c : DramChan, rates.get c ≤ 4) → (t.dram.get u).overRange = false ∧ (t.dram.get u).polledAt = s.now ∧ DramSame s t ∧
        (∀ c, ((t.dram.get u).chan.get c).rate = (if rates.get c ≤ 1 then 1 else if rates.get c = 2 then 2 else 4)) ∧
        t = { s with regs := t.regs, overflow := t.overflow, emcy := t.emcy, log := t.log, dram := t.dram } ∧
        ((∀ c : DramChan, rates.get c ≤ 1) ∨ 1 < deviceRate (s.dram.get u) → t = { s with regs := t.regs, dram := t.dram }) ∧
        ((∃ c : DramChan, 1 < rates.get c) → deviceRate (s.dram.get u) ≤ 1 → assocWf defaultOf s.regs = true → flag t kIntegrity 24 = true)) ∧
      ((∃ c : DramChan, 4 < rates.get c) → (s.dram.get u).overRange = false → s.relay.active = some u → t.relay.fault.isSome = true) := by
  have hrate : ∀ c, ((mr4Dram s.now rates changed (s.dram.get u)).chan.get c).rate = mr4Rate (rates.get c) := fun c => mr4Dram_rate _ _ _ _ c
  have hshown := mr4Shown_only s u rates changed
  refine ⟨_, (exec_mr4Poll ..).trans (execMr4Poll_due hdue), fun hrange => ?_, fun hbeyond hold hactive => ?_⟩
  · have hbeyond : ratesBeyond rates = false := by
      rw [Bool.eq_false_iff, Ne, ratesBeyond_iff]
      rintro ⟨c, hc⟩
      exact Nat.not_lt.2 (hrange c) hc
    rw [hbeyond, Bool.false_and, dramThermal_eq, if_neg Bool.false_ne_true]
    generalize hhot : decide (deviceRate (s.dram.get u) ≤ 1 ∧ 1 < deviceRate (mr4Dram s.now rates changed (s.dram.get u))) = hot
    have hthermal := thermalShown_only (mr4Shown s u rates changed) u hot
    have hdram : (thermalShown (mr4Shown s u rates changed) u hot).dram.get u = mr4Dram s.now rates changed (s.dram.get u) := by
      rw [hthermal.part .dram (by decide), mr4Shown_get]
    rw [hdram]
    refine ⟨hbeyond, rfl, ((mr4Shown_cells s u rates changed).trans (.of_only hthermal)).same, fun c => hrate c,
      ((hshown.mono (l' := [.regs, .overflow, .emcy, .log, .dram]) (by decide)).step hthermal).eq, fun hcold => ?_, fun hwarm hold hwf => ?_⟩
    · have hoff : hot = false := by
        rw [← hhot, decide_eq_false_iff_not]
        rintro ⟨hle, hlt⟩
        rcases hcold with h | h
        · refine Nat.not_le.2 hlt ((deviceRate_le _ 1 (Nat.le_refl 1)).2 fun c => ?_)
          rw [hrate, mr4Rate, if_pos (h c)]
        · exact Nat.not_le.2 h hle
      rw [hoff]
      exact (hshown.step (thermalShown_cold ..)).eq
    · have hon : hot = true := by
        rw [← hhot, decide_eq_true_eq]
        refine ⟨hold, Nat.lt_of_not_le fun hle => ?_⟩
        obtain ⟨c, hc⟩ := hwarm
        have := (deviceRate_le _ 1 (Nat.le_refl 1)).1 hle c
        rw [hrate, mr4Rate, if_neg (Nat.not_le.2 hc)] at this
        split at this <;> omega
      rw [hon]
      exact thermalShown_hot u (mr4Shown_wf u rates changed hwf)
  · have hover : (ratesBeyond rates && !(s.dram.get u).overRange) = true := by
      rw [(ratesBeyond_iff rates).2 hbeyond, hold]
      rfl
    rw [hover, dramThermal_eq, if_pos rfl, unitFaultOf_eq]
    generalize decide (deviceRate (s.dram.get u) ≤ 1 ∧ 1 < deviceRate (mr4Dram s.now rates changed (s.dram.get u))) = hot
    have hrelay : (faultShown (thermalShown (mr4Shown s u rates changed) u hot) u .thermal).relay = s.relay :=
      ((faultShown_only ..).part .relay (by decide)).trans (((thermalShown_only ..).part .relay (by decide)).trans (hshown.part .relay (by decide)))
    rw [reportUnitFault_active (by rw [hrelay]; exact hactive)]
    cases (faultShown (thermalShown (mr4Shown s u rates changed) u hot) u .thermal).relay.fault <;> rfl

section
variable {s : State} {u : UnitId}

theorem execHammerWindowClear_new (h : (s.dram.get u).hammerWindow ≠ tb3Window s) :
    execHammerWindowClear u s = .next (setDram s u (tablesCleared (tb3Window s) (cfg s (kDram 2)))) := if_neg h

theorem execHammerWindowClear_stands (h : (s.dram.get u).hammerWindow = tb3Window s) : execHammerWindowClear u s = .next s := if_pos h

/-- R272: the tables of a new window are empty. -/
theorem hammerWindowClear_clears (h : (s.dram.get u).hammerWindow ≠ tb3Window s) :
    ∃ t, exec (.hammerWindowClear u) s = .next t ∧ (t.dram.get u).hammerWindow = tb3Window s ∧
      (∀ c b, ((t.dram.get u).chan.get c).hammer.get b = []) ∧ (t.dram.get u).threshold = cfg s (kDram 2) ∧ DramSame s t ∧
      t = { s with dram := t.dram } := by
  have hget := setDram_get s u (tablesCleared (tb3Window s) (cfg s (kDram 2)))
  refine ⟨_, (exec_hammerWindowClear u s).trans (execHammerWindowClear_new h), congrArg DramState.hammerWindow hget, fun c b => ?_,
    congrArg DramState.threshold hget, setDram_upkeep s u (f := tablesCleared (tb3Window s) (cfg s (kDram 2))) ⟨rfl, rfl⟩, rfl⟩
  exact (congrArg (fun d : DramState => (d.chan.get c).hammer.get b) hget).trans (tablesCleared_hammer ..)

theorem scrubBegun_cells (v : State) (x : DramState) : SameCells x (scrubBegun v x) := ⟨rfl, rfl⟩

/-- R278, R279: a pass that begins wakes a unit in self-refresh. -/
theorem scrubPassStart_begins (hidle : (s.dram.get u).scrubbing = false) (hdue : (s.dram.get u).scrubStart + 60 * cyclesPerSec ≤ s.now) :
    ∃ t, exec (.scrubPassStart u) s = .next t ∧ (t.dram.get u).scrubbing = true ∧ (t.dram.get u).scrubStart = s.now ∧
      ((s.dram.get u).refresh ≠ .inside → DramSame s t ∧ t = { s with dram := t.dram }) ∧
      ((s.dram.get u).refresh = .inside → (t.dram.get u).refresh = .exiting) ∧
      (∀ a, a < segmentBytes → dramByte (t.dram.get u) a = dramByte (s.dram.get u) a) ∧ t = { s with free := t.free, dram := t.dram } := by
  have hexec := (exec_scrubPassStart u s).trans (execScrubPassStart_begins hidle hdue)
  have hvisited : Only [.free, .dram] s (scrubVisited s u) := .ite (fun _ => leaveRefresh_only s u) fun _ => .refl ..
  have hawake : (s.dram.get u).refresh ≠ .inside → scrubVisited s u = s := scrubVisited_awake
  have hexiting : (s.dram.get u).refresh = .inside → ((scrubVisited s u).dram.get u).refresh = .exiting := fun hin => by
    rw [scrubVisited_inside hin]
    exact (leaveRefresh_exiting s u).1
  have hzero : SegmentZeroKept s (scrubVisited s u) := by
    unfold scrubVisited
    split
    · exact leaveRefresh_segmentZero s u
    · exact (CellsKept.refl s).segmentZero
  generalize scrubVisited s u = v at hexec hvisited hawake hexiting hzero
  have hget := setDram_get v u (scrubBegun s)
  have hcells : CellsKept v (setDram v u (scrubBegun s)) := .setDram _ u (scrubBegun_cells s _)
  exact ⟨_, hexec, congrArg DramState.scrubbing hget, congrArg DramState.scrubStart hget,
    fun h => ⟨((hawake h ▸ CellsKept.refl s : CellsKept s v).trans hcells).same, by rw [hawake h]; rfl⟩,
    fun hin => (congrArg DramState.refresh hget).trans (hexiting hin), (hzero.trans hcells.segmentZero).byte u, (hvisited.step (setDram_only ..)).eq⟩

/-- R278: a pass that is late is raised. -/
theorem scrubPassStart_raises (hrun : (s.dram.get u).scrubbing = true) (hdue : (s.dram.get u).scrubStart + 60 * cyclesPerSec ≤ s.now)
    (hlate : s.now < (s.dram.get u).scrubStart + scrubCycles s u) :
    ∃ t, exec (.scrubPassStart u) s = .next t ∧ (t.dram.get u).scrubRaised = true ∧ (t.dram.get u).scrubStart = (s.dram.get u).scrubStart ∧
      DramSame s t ∧ t = { s with regs := t.regs, dram := t.dram } := by
  refine ⟨_, (exec_scrubPassStart u s).trans (execScrubPassStart_raises hrun hdue hlate), ?_⟩
  have hafter : Only [.regs] (setDram s u fun x => { x with scrubRaised := true })
      (if u = viewUnit s then setFlag (setDram s u fun x => { x with scrubRaised := true }) (kDram 0x10) 28
        else setDram s u fun x => { x with scrubRaised := true }) := .ite (fun _ => setFlag_only ..) fun _ => .refl ..
  have hget := (congrArg (·.get u) (hafter.part .dram (by decide))).trans (setDram_get ..)
  exact ⟨congrArg DramState.scrubRaised hget, (congrArg DramState.scrubStart hget).trans rfl,
    ((CellsKept.setDram s u ⟨rfl, rfl⟩).trans (.of_only hafter)).same, (((Only.refl [.regs, .dram] s).step (setDram_only ..)).step hafter).eq⟩

theorem execZqLatch_early (h : s.now < (s.dram.get u).latchedAt + 32 * cyclesPerMs) : execZqLatch u s = .next s := if_neg (Nat.not_le.2 h)

/-- ZQ latched on every channel. -/
def zqLatched (now : Nat) (d : DramState) : DramState := { d with latchedAt := now }

theorem execZqLatch_due (h : (s.dram.get u).latchedAt + 32 * cyclesPerMs ≤ s.now) : execZqLatch u s = .next (setDram s u (zqLatched s.now)) :=
  if_pos h

theorem execDriftMeasure_early {bits : BitVec 32} (h : s.now < (s.dram.get u).driftAt + 16 * cyclesPerMs) : execDriftMeasure u bits s = .next s :=
  if_pos h

theorem execDriftMeasure_due {bits : BitVec 32} (h : (s.dram.get u).driftAt + 16 * cyclesPerMs ≤ s.now) :
    execDriftMeasure u bits s = .next (setDram s u (driftMeasured s.now bits)) := if_neg (Nat.not_lt.2 h)

/-- R281: the standby's re-centre wakes it and keeps segment 0. -/
theorem standbyRecentre_due (hu : standbyOf s = some u) (hin : (s.dram.get u).refresh = .inside)
    (hdue : (s.dram.get u).recentredAt + 50 * cyclesPerMs ≤ s.now) :
    ∃ t, exec .standbyRecentre s = .next t ∧ (t.dram.get u).refresh = .exiting ∧ (t.dram.get u).recentredAt = s.now ∧
      (∀ c, ((t.dram.get u).chan.get c).recentre = 0) ∧
      (∀ a, a < segmentBytes → dramByte (t.dram.get u) a = dramByte (s.dram.get u) a) ∧
      t.dram.get u.other = s.dram.get u.other ∧ t = { s with free := t.free, dram := t.dram } := by
  have hget := setDram_get (wakeDram s u (432 + 1800)) u (standbyRecentred s.now)
  have hcells : CellsKept (wakeDram s u (432 + 1800)) (setDram (wakeDram s u (432 + 1800)) u (standbyRecentred s.now)) :=
    .setDram _ u (standbyRecentred_cells ..)
  have hexiting : ((wakeDram s u (432 + 1800)).dram.get u).refresh = .exiting := by
    rw [wakeDram_get]
    exact (dramWoken_exiting ..).1
  exact ⟨_, (exec_standbyRecentre s).trans (execStandbyRecentre_due hu hin hdue), (congrArg DramState.refresh hget).trans hexiting,
    congrArg DramState.recentredAt hget, fun c => (congrArg (fun d : DramState => (d.chan.get c).recentre) hget).trans (recentre_map ..),
    ((wakeDram_segmentZero ..).trans hcells.segmentZero).byte u, (setDram_other ..).trans (wakeDram_otherUnit ..),
    ((wakeDram_only ..).step (setDram_only ..)).eq⟩

end

/-- Settles O31: an interval by the choice of its refresh, the upkeep by its own commands. -/
theorem refreshAndUpkeepKeepMemory : Obligations.RefreshAndUpkeepKeepMemory := by
  refine ⟨fun u ch q x s v hv hx => ⟨fun h => execRefreshInterval_waits hv h, fun hin hdue hlo hhi => ?_⟩,
    fun u rates changed s => ⟨execMr4Poll_early, mr4Poll_due⟩, fun u s => hammerWindowClear_clears, fun u s => scrubPassStart_begins,
    fun u s => scrubPassStart_raises, fun u s => execZqLatch_early, fun u s => execHammerWindowClear_stands,
    fun u s => execScrubPassStart_early, fun u s h => ?_, fun u bits s => execDriftMeasure_early, fun u bits s h => ?_,
    fun s => execStandbyRecentre_none, fun u s => standbyRecentre_due⟩
  · obtain ⟨t, c, hexec, ⟨hsame, hothers, hcells, honly⟩, hdlo, hdhi, ⟨hat, hmul⟩, hpostpone, htake⟩ :=
      refreshInterval_due (q := q) hv hx hin hdue hlo
    refine ⟨t, hexec, ?_⟩
    rw [hsame]
    refine ⟨hdlo, hdhi, hothers, hcells.same, hat, hmul, hpostpone, fun p split hchoice hbusy => ?_, honly.eq⟩
    rw [htake p split hchoice, channelRefreshed, mayRunAhead_false hbusy]
    rfl
  · exact ⟨_, (exec_zqLatch u s).trans (execZqLatch_due h), congrArg DramState.latchedAt (setDram_get s u (zqLatched s.now)),
      setDram_upkeep s u (f := zqLatched s.now) ⟨rfl, rfl⟩, rfl⟩
  · have hget := setDram_get s u (driftMeasured s.now bits)
    exact ⟨_, (exec_driftMeasure u bits s).trans (execDriftMeasure_due h), congrArg DramState.driftAt hget,
      fun c => (congrArg (fun d : DramState => (d.chan.get c).recentre) hget).trans (driftMeasured_recentre ..),
      setDram_upkeep s u (f := driftMeasured s.now bits) ⟨rfl, rfl⟩, rfl⟩

/-! ## O32 -/

/-- The DRAM behind the entry command. -/
def refreshCommitted (s : State) (u : UnitId) (x : DramState) : DramState :=
  { x with
    refresh := .inside
    committedAt := s.now
    tempChanged := false
    maskZero := decide (s.relay.active ≠ some u)
    chan := x.chan.map fun c => { refreshAhead 0 8 c with openRow := .replicate 16 none } }

theorem refreshCommitted_chan (s : State) (u : UnitId) (x : DramState) (c : DramChan) :
    (refreshCommitted s u x).chan.get c = { refreshAhead 0 8 (x.chan.get c) with openRow := .replicate 16 none } := by
  rw [refreshCommitted, vector_get_eq, Vector.getElem_map]
  rfl

/-- The entry begins. -/
def entryBegun (now : Nat) (x : DramState) : DramState := { x with refresh := .entering, refreshAt := now }

section
variable {s v : State} {u : UnitId}

theorem execSelfRefreshEntry_begins (hactive : ((serveHeld s u).dram.get u).refresh = .active) (hrest : mayRest (serveHeld s u) u = true)
    (hidle : ((serveHeld s u).dram.get u).lastRequest + cfg (serveHeld s u) (kDram 1) * cyclesPerUs ≤ (serveHeld s u).now) :
    exec (.selfRefreshEntry u) s = .next (setDram (serveHeld s u) u (entryBegun (serveHeld s u).now)) := by
  have hawake : (decide (((serveHeld s u).dram.get u).refresh = .active) ||
      (decide (((serveHeld s u).dram.get u).refresh = .exiting) && decide (((serveHeld s u).dram.get u).refreshAt ≤ (serveHeld s u).now))) = true := by
    rw [decide_eq_true hactive, Bool.true_or]
  exact if_pos ⟨hawake, hrest, hidle⟩

theorem execSelfRefreshEntry_stays (h : mayRest (serveHeld s u) u = false ∨
    (serveHeld s u).now < ((serveHeld s u).dram.get u).lastRequest + cfg (serveHeld s u) (kDram 1) * cyclesPerUs) :
    exec (.selfRefreshEntry u) s = .next (serveHeld s u) := by
  refine if_neg fun ⟨_, hrest, hidle⟩ => ?_
  rcases h with h | h
  · exact Bool.noConfusion (h.symm.trans hrest)
  · exact Nat.not_le.2 h hidle

theorem execSelfRefreshCommit_entering (h : (s.dram.get u).refresh = .entering) :
    exec (.selfRefreshCommit u) s = .next (setDram s u (refreshCommitted s u)) := if_pos h

end

/-- Settles O32: entry, commit and exit, each by its own branch. -/
theorem selfRefreshKeepsMemory : Obligations.SelfRefreshKeepsMemory := by
  refine ⟨fun u s v hv => ⟨fun hactive hrest hidle => ?_, fun h => ?_⟩, fun u s h => ?_, fun u s h => if_neg h, fun u since s h => ?_,
    fun u since s hin hat => ?_⟩
  · subst hv
    have hget := setDram_get (serveHeld s u) u (entryBegun (serveHeld s u).now)
    exact ⟨_, execSelfRefreshEntry_begins hactive hrest hidle, congrArg DramState.refresh hget, congrArg DramState.refreshAt hget,
      setDram_upkeep _ u (f := entryBegun (serveHeld s u).now) ⟨rfl, rfl⟩, rfl⟩
  · subst hv
    exact execSelfRefreshEntry_stays h
  · have hget := setDram_get s u (refreshCommitted s u)
    refine ⟨_, execSelfRefreshCommit_entering h, congrArg DramState.refresh hget, congrArg DramState.committedAt hget,
      congrArg DramState.maskZero hget, fun c => ⟨?_, fun hdebt hround => ?_⟩, setDram_upkeep s u (f := refreshCommitted s u) ⟨rfl, rfl⟩, rfl⟩
    · exact (congrArg (fun d : DramState => d.chan.get c) hget).trans (refreshCommitted_chan ..)
    · rw [show ((setDram s u (refreshCommitted s u)).dram.get u).chan.get c = _ from
        (congrArg (fun d : DramState => d.chan.get c) hget).trans (refreshCommitted_chan ..)]
      exact refreshAhead_paid 8 _ hround hdebt
  · refine if_neg fun ⟨hin, hat⟩ => ?_
    rcases h with h | h
    · exact h hin
    · exact Nat.not_le.2 h hat
  · have hexec : ∃ t, exec (.selfRefreshExit u since) s = .next t ∧ Only [.regs] (leaveRefresh s u) t := by
      rw [exec_selfRefreshExit, execSelfRefreshExit, if_pos ⟨hin, hat⟩]
      dsimp only
      split
      · exact ⟨_, rfl, regMax_only ..⟩
      · exact ⟨_, rfl, .refl ..⟩
    obtain ⟨t, hexec, hafter⟩ := hexec
    have hdram : t.dram = (leaveRefresh s u).dram := hafter.part .dram (by decide)
    obtain ⟨hexiting, hwait⟩ := leaveRefresh_exiting s u
    have hdebt := leaveRefresh_debt s u
    have hzero := (leaveRefresh_segmentZero s u).byte u
    rw [← hdram] at hexiting hwait hdebt hzero
    rw [exitWait, longRefresh] at hwait
    refine ⟨t, hexec, hexiting, fun hshort hsame => ?_, fun hlong => ?_, hdebt, fun hmask => ?_, hzero, ?_⟩
    · rw [hwait, decide_eq_false (Nat.not_lt.2 hshort), hsame]
      rfl
    · have hyes : (decide ((s.dram.get u).committedAt + 100 * cyclesPerMs < s.now) || (s.dram.get u).tempChanged) = true := by
        rcases hlong with h | h
        · rw [decide_eq_true h, Bool.true_or]
        · rw [h, Bool.or_true]
      rw [hwait, hyes]
      rfl
    · exact (((wakeDram_cells s u _ hmask).trans (leaveRefresh_cellsAfter s u)).trans (.of_only hafter)).same
    · exact (((leaveRefresh_only s u).mono (l' := [.free, .regs, .dram]) (by decide)).step hafter).eq

end Sys2Proof.Machine
end

section
/-! PROOF. The repair of a unit and the self-test of the standby (13_relay.md R309, R310, R330). -/

namespace Sys2Proof.Machine

set_option Elab.async false

theorem exec_repairRetry (s : State) : exec .repairRetry s = execRepairRetry s := rfl

theorem exec_selfTestStep (r : SelfTestResult) (s : State) : exec (.selfTestStep r) s = execSelfTestStep r s := rfl

/-! ## The reset of the unit -/

/-- The repaired unit leaves its reset. -/
def repairReleased (s : State) : State :=
  { s with
    rst := { s.rst with asserted := s.rst.asserted &&& 0xBF }
    relay := { s.relay with repair := .booting }
    boot := s.boot.mod s.relay.repairUnit fun b => { b with mode := .booting } }

section
variable {s : State} {since : Nat}

theorem releaseRepair_due (h : s.relay.repair = .inReset since) (hat : since + 10 * cyclesPerMs ≤ s.now) : releaseRepair s = repairReleased s := by
  simp only [releaseRepair, h]
  exact if_pos hat

theorem releaseRepair_early (h : s.relay.repair = .inReset since) (hat : s.now < since + 10 * cyclesPerMs) : releaseRepair s = s := by
  simp only [releaseRepair, h]
  exact if_neg (Nat.not_le.2 hat)

theorem execRepairRetry_due (h : s.relay.repair = .waiting since) (hat : since + 60 * cyclesPerSec ≤ s.now) :
    execRepairRetry s = .next (startRepair s s.relay.repairUnit) := by
  simp only [execRepairRetry, h]
  exact if_pos hat

theorem execRepairRetry_early (h : s.relay.repair = .waiting since) (hat : s.now < since + 60 * cyclesPerSec) : execRepairRetry s = .next s := by
  simp only [execRepairRetry, h]
  exact if_neg (Nat.not_le.2 hat)

end

theorem startRepair_bootMode (s : State) (u : UnitId) : ((startRepair s u).boot.get u).mode = .inReset := by
  rw [startRepair_boot, pair_mod_get]

theorem startRepair_codingKept (s : State) (u : UnitId) : (startRepair s u).chans = s.chans ∧ (startRepair s u).streams = s.streams ∧
    (startRepair s u).flows = s.flows ∧ (startRepair s u).dict = s.dict := by
  have h := startRepair_only s u
  exact ⟨h.part .chans (by decide), h.part .streams (by decide), h.part .flows (by decide), h.part .dict (by decide)⟩

/-! ## A repair that fails, and its command -/

/-- The attempt has failed and another one follows. -/
def repairWaits (s : State) : State :=
  { setFlag s kRelayStatus 27 with
    relay := { (setFlag s kRelayStatus 27).relay with repair := .waiting s.now }
    boot := s.boot.mod s.relay.repairUnit fun b => { b with mode := .inReset } }

/-- The report of a series that has failed. -/
def seriesShown (s : State) : State := raiseEmcy (setFlag (setFlag s kRelayStatus 27) kIntegrity 26) 0xFF04 kRelayStatus 0

/-- The third attempt has failed. -/
def repairEnds (s2 : State) : State :=
  { s2 with
    relay := { s2.relay with
      repair := .none
      dead := true
      mode := if s2.relay.mode = .lockedOut then .lockedOut else .failed }
    boot := s2.boot.mod s2.relay.repairUnit fun b => { b with mode := .inReset } }

theorem repairFailed_waits {s : State} (h : regGet s (key 0x2010 0x0E) < 3) : repairFailed s = repairWaits s := if_neg (Nat.not_le.2 h)

theorem repairFailed_ends {s : State} (h : 3 ≤ regGet s (key 0x2010 0x0E)) : repairFailed s = repairEnds (seriesShown s) := if_pos h

theorem seriesShown_only (s : State) : Only [.regs, .overflow, .emcy, .log] s (seriesShown s) :=
  (((Only.refl _ s).step (setFlag_only ..)).step (setFlag_only ..)).step (raiseEmcy_only ..)

theorem repairEnds_only (s : State) : Only [.relay, .boot] s (repairEnds s) := .of_eq rfl

theorem repairFailed_only (s : State) : Only [.regs, .overflow, .emcy, .log, .relay, .boot] s (repairFailed s) := by
  rcases Nat.lt_or_ge (regGet s (key 0x2010 0x0E)) 3 with h | h
  · rw [repairFailed_waits h]
    refine Only.step (l' := [.relay, .boot]) ((Only.refl _ s).step (setFlag_only s kRelayStatus 27)) ?_
    exact .of_eq rfl
  · rw [repairFailed_ends h]
    exact ((Only.refl _ s).step (seriesShown_only s)).step (repairEnds_only _)

theorem repairFailed_bootMode (s : State) : ((repairFailed s).boot.get s.relay.repairUnit).mode = .inReset := by
  rcases Nat.lt_or_ge (regGet s (key 0x2010 0x0E)) 3 with h | h
  · rw [repairFailed_waits h, repairWaits, pair_mod_get]
  · have hrelay : (seriesShown s).relay = s.relay := (seriesShown_only s).part .relay (by decide)
    rw [repairFailed_ends h, repairEnds, hrelay, pair_mod_get]

/-- The relay of a retry, its attempts not yet counted. -/
def retryPrepared (s : State) : State :=
  { regPut (clearFlag s kIntegrity 26) (key 0x2010 0x0E) 0 with relay := { s.relay with mode := .repairing, dead := false } }

theorem doRetry_failed {s : State} (hmode : s.relay.mode = .failed) (hphases : phasesShort s = false) :
    doRetry s = .ok (startRepair (retryPrepared s) (s.relay.active.elim s.relay.repairUnit UnitId.other)) := by
  unfold doRetry
  rw [if_neg (by rw [hmode]; decide), if_neg (by rw [hphases]; decide), if_pos hmode]
  rfl

theorem retryPrepared_wf {s : State} (hwf : assocWf defaultOf s.regs = true) : assocWf defaultOf (retryPrepared s).regs = true :=
  regPut_wf _ _ _ (regPut_wf _ _ _ hwf)

theorem regGet_answer (s : State) (k : Client) (a : Answer) (j : Nat) : regGet (answer s k a) j = regGet s j := rfl

theorem retryPrepared_attempts {s : State} (hwf : assocWf defaultOf s.regs = true) : regGet (retryPrepared s) (key 0x2010 0x0E) = 0 := by
  have hput := regGet_regPut_same (clearFlag s kIntegrity 26) (key 0x2010 0x0E) 0 (regPut_wf _ _ _ hwf)
  rw [Nat.zero_mod] at hput
  exact hput

theorem startRepair_repairing {s : State} (u : UnitId) (h : s.relay.mode = .repairing) : (startRepair s u).relay.mode = .repairing := by
  have hheld : (unitHeld s u).relay.mode = .repairing := by
    refine (show (unitHeld s u).relay.mode = match s.relay.mode with
      | .standbyReady => .exposed
      | .revertPending => .exposed
      | m => m from rfl).trans ?_
    rw [h]
  have hcounted := congrArg RelayState.mode (attemptCounted_relay (unitHeld s u))
  refine (show (startRepair s u).relay.mode = match (attemptCounted (unitHeld s u)).relay.mode with
    | .lockedOut => .lockedOut
    | .failed => .failed
    | .starting => .starting
    | _ => .repairing from rfl).trans ?_
  rw [hcounted, hheld]

theorem startRepair_dead (s : State) (u : UnitId) : (startRepair s u).relay.dead = s.relay.dead :=
  (congrArg RelayState.dead (attemptCounted_relay (unitHeld s u))).trans rfl

/-! ## Steps of the self-test -/

/-- The self-test of unit u changed by f. -/
def testNoted (s : State) (u : UnitId) (f : SelfTestState → SelfTestState) : State := { s with selfTest := s.selfTest.mod u f }

theorem testNoted_get (s : State) (u : UnitId) (f : SelfTestState → SelfTestState) : (testNoted s u f).selfTest.get u = f (s.selfTest.get u) :=
  pair_mod_get ..

theorem testNoted_other (s : State) (u : UnitId) (f : SelfTestState → SelfTestState) :
    (testNoted s u f).selfTest.get u.other = s.selfTest.get u.other := pair_mod_other ..

theorem testNoted_only (s : State) (u : UnitId) (f : SelfTestState → SelfTestState) : Only [.selfTest] s (testNoted s u f) := .of_eq rfl

/-- A failed step ends and is noted. -/
def stepFails (x : SelfTestState) : SelfTestState := { endStep true x with stepFailed := true }

/-- The failed block is shown. -/
def failShown (s : State) (u : UnitId) (block : Nat) : State := regPut (testNoted s u stepFails) (key 0x2011 4) block

section
variable {s : State} {u : UnitId}

theorem execSelfTestStep_noStandby (r : SelfTestResult) (h : standbyOf s = none) : execSelfTestStep r s = .next s := by
  simp only [execSelfTestStep, h]

theorem execSelfTestStep_begun (b : SelfTestBlock) (h : standbyOf s = some u) : execSelfTestStep (.begun b) s =
    .next (if (s.selfTest.get u).step.isNone && testable s u b then visitBlock (testNoted s u (beginStep s.now b)) u b else s) := by
  simp only [execSelfTestStep, h]
  rfl

theorem execSelfTestStep_passed (h : standbyOf s = some u) : execSelfTestStep .passed s = .next (testNoted s u (endStep true)) := by
  simp only [execSelfTestStep, h]
  rfl

theorem execSelfTestStep_unfinished (h : standbyOf s = some u) : execSelfTestStep .unfinished s = .next (testNoted s u (endStep false)) := by
  simp only [execSelfTestStep, h]
  rfl

theorem execSelfTestStep_failed (block : Nat) (h : standbyOf s = some u) : execSelfTestStep (.failed block) s =
    if (failShown s u block).relay.repair = .testing then .next (repairFailed (failShown s u block))
    else .next (reportUnitFault (loseReady (failShown s u block)) u 0) := by
  simp only [execSelfTestStep, h]
  rfl

/-- A pass that is complete, with the repair that it ends. -/
def passEnded (now : Nat) (u : UnitId) (s1 : State) : State :=
  { s1 with
    selfTest := s1.selfTest.mod u (passDone now)
    relay := if s1.relay.repair = .testing then { s1.relay with repair := .none, repairDone := true } else s1.relay }

theorem execSelfTestStep_complete (h : standbyOf s = some u) (hwhole : passWhole s.now (s.selfTest.get u) = true) :
    execSelfTestStep .passComplete s = .next (passEnded s.now u (bump s (key 0x2011 2))) := by
  simp only [execSelfTestStep, h]
  exact if_pos hwhole

theorem execSelfTestStep_incomplete (h : standbyOf s = some u) (hpart : passWhole s.now (s.selfTest.get u) = false) :
    execSelfTestStep .passComplete s = .next s := by
  simp only [execSelfTestStep, h]
  exact if_neg (by rw [hpart]; decide)

end

theorem passEnded_only (now : Nat) (u : UnitId) (s : State) : Only [.selfTest, .relay] s (passEnded now u s) := .of_eq rfl

/-- The standby is not the active unit. -/
theorem active_ne_standby {s : State} {u : UnitId} (h : standbyOf s = some u) : s.relay.active ≠ some u := by
  intro hactive
  rw [standbyOf, hactive] at h
  cases u <;> exact nomatch h

theorem failShown_only (s : State) (u : UnitId) (block : Nat) : Only [.regs, .selfTest] s (failShown s u block) :=
  ((Only.refl _ s).step (testNoted_only ..)).step (regPut_only ..)

theorem failShown_attempts (s : State) (u : UnitId) (block : Nat) :
    regGet (failShown s u block) (key 0x2010 0x0E) = regGet s (key 0x2010 0x0E) :=
  (regGet_regPut_other _ _ _ _ (by decide)).trans rfl

/-- A unit whose readiness is lost has no other mode of the named ones. -/
theorem loseReady_mode (s : State) : (loseReady s).relay.mode = match s.relay.mode with
    | .standbyReady => .exposed
    | .revertPending => .exposed
    | m => m := rfl

theorem loseReady_mode_ne {s : State} {m : RelayMode} (h : s.relay.mode ≠ m) (hm : m ≠ .exposed) : (loseReady s).relay.mode ≠ m := by
  rw [loseReady_mode]
  split
  · exact hm.symm
  · exact hm.symm
  · exact h

/-! ## The visit of a block -/

/-- The DRAM out of self-refresh, or out of its entry, for a pattern. -/
def patternWoken (s : State) (u : UnitId) : State :=
  match (s.dram.get u).refresh with
  | .inside => leaveRefresh s u
  | .entering => setDram s u fun x => { payDebt s.now x with refresh := .active, lastRequest := s.now }
  | _ => s

/-- The region of a pattern has lost its bytes. -/
def patternLost (now tag lo : Nat) (d : DramState) : DramState :=
  { d with
    mem := d.mem.filter fun c => decide (c.1 < lo ∨ lo + 0x4000000 ≤ c.1)
    undef := defineRange d.undef lo (lo + 0x4000000) ++ [(lo, lo + 0x4000000, tag)]
    lastRequest := now }

theorem visitBlock_pattern (s : State) (u : UnitId) (r : Fin 784) : visitBlock s u (.pattern r) =
    drawFree (setDram (patternWoken s u) u (patternLost s.now s.free (segmentBytes + r.val * 0x4000000))) := rfl

theorem patternLost_byte (now tag : Nat) (d : DramState) {lo a : Nat} (ha : a < lo) : dramByte (patternLost now tag lo d) a = dramByte d a :=
  dramByte_rangeLost (Nat.lt_add_of_pos_right (by decide)) rfl (assocGet_filter_kept _ _ _ _ fun _ => decide_eq_true (.inl ha)) (.inl ha)

theorem payDebt_cells (now : Nat) (x : DramState) : SameCells x (payDebt now x) := ⟨rfl, rfl⟩

theorem patternWoken_only (s : State) (u : UnitId) : Only [.free, .dram] s (patternWoken s u) := by
  unfold patternWoken
  split
  · exact leaveRefresh_only ..
  · exact (Only.refl _ s).step (setDram_only ..)
  · exact .refl ..

theorem patternWoken_segmentZero (s : State) (u : UnitId) : SegmentZeroKept s (patternWoken s u) := by
  unfold patternWoken
  split
  · exact leaveRefresh_segmentZero ..
  · exact (CellsKept.setDram s u ⟨rfl, rfl⟩).segmentZero
  · exact (CellsKept.refl s).segmentZero

/-- What the visit of a block may change. -/
theorem visitBlock_visits (s : State) (u : UnitId) (b : SelfTestBlock) : Only [.free, .dram, .baton] s (visitBlock s u b) ∧
    (∀ r, b = .pattern r → ∀ a, a < segmentBytes → dramByte ((visitBlock s u b).dram.get u) a = dramByte (s.dram.get u) a) ∧
    ((∀ r, b ≠ .pattern r) → (visitBlock s u b).dram = s.dram) ∧ ((∀ i, b ≠ .batonSlot i) → (visitBlock s u b).baton = s.baton) := by
  cases b with
  | pattern r =>
    have hwoken := patternWoken_only s u
    have hzero := patternWoken_segmentZero s u
    rw [visitBlock_pattern]
    generalize patternWoken s u = v at hwoken hzero
    have honly : Only [.free, .dram] s (drawFree (setDram v u (patternLost s.now s.free (segmentBytes + r.val * 0x4000000)))) :=
      (hwoken.step (setDram_only ..)).step (drawFree_only _)
    refine ⟨honly.mono (by decide), fun _ _ a ha => ?_, fun h => absurd rfl (h r), fun _ => honly.part .baton (by decide)⟩
    rw [show (drawFree (setDram v u (patternLost s.now s.free (segmentBytes + r.val * 0x4000000)))).dram.get u =
      patternLost s.now s.free (segmentBytes + r.val * 0x4000000) (v.dram.get u) from setDram_get ..,
      patternLost_byte _ _ _ (Nat.lt_of_lt_of_le ha (Nat.le_add_right ..)), hzero.byte u a ha]
  | batonSlot i => exact ⟨.of_eq rfl, (fun _ h => nomatch h), fun _ => rfl, fun h => absurd rfl (h i)⟩
  | logic n => exact ⟨.refl .., (fun _ h => nomatch h), fun _ => rfl, fun _ => rfl⟩
  | sram n => exact ⟨.refl .., (fun _ h => nomatch h), fun _ => rfl, fun _ => rfl⟩
  | lineStore n => exact ⟨.refl .., (fun _ h => nomatch h), fun _ => rfl, fun _ => rfl⟩

/-! ## O43 -/

/-- A step that fails in repair. -/
theorem failedInRepair {u : UnitId} {block : Nat} {s : State} (hu : standbyOf s = some u) (htest : s.relay.repair = .testing) :
    ∃ t, exec (.selfTestStep (.failed block)) s = .next t ∧ (t.selfTest.get u).stepFailed = true ∧
      (t.boot.get s.relay.repairUnit).mode = .inReset ∧
      (regGet s (key 0x2010 0x0E) < 3 → t.relay.repair = .waiting s.now ∧ t.relay.mode = s.relay.mode) ∧
      (3 ≤ regGet s (key 0x2010 0x0E) → t.relay.repair = .none ∧ t.relay.dead = true ∧
        t.relay.mode = (if s.relay.mode = .lockedOut then .lockedOut else .failed)) ∧
      t = { s with regs := t.regs, overflow := t.overflow, emcy := t.emcy, log := t.log, relay := t.relay,
                   selfTest := t.selfTest, boot := t.boot } := by
  have hattempts := failShown_attempts s u block
  have hfailed := repairFailed_only (failShown s u block)
  refine ⟨_, (exec_selfTestStep ..).trans ((execSelfTestStep_failed block hu).trans (if_pos htest)), ?_, repairFailed_bootMode (failShown s u block),
    fun hfew => ?_, fun hmany => ?_,
    (((failShown_only s u block).mono (l' := [.regs, .overflow, .emcy, .log, .relay, .selfTest, .boot]) (by decide)).step hfailed).eq⟩
  · rw [hfailed.part .selfTest (by decide)]
    exact congrArg SelfTestState.stepFailed (testNoted_get s u stepFails)
  · rw [repairFailed_waits (by rw [hattempts]; exact hfew)]
    exact ⟨rfl, rfl⟩
  · have hrelay : (seriesShown (failShown s u block)).relay = s.relay := (seriesShown_only _).part .relay (by decide)
    rw [repairFailed_ends (by rw [hattempts]; exact hmany), repairEnds, hrelay]
    exact ⟨rfl, rfl, rfl⟩

/-- A step that fails outside a repair begins one. -/
theorem failedOutsideRepair {u : UnitId} {block : Nat} {s : State} (hu : standbyOf s = some u) (hrepair : s.relay.repair = .none)
    (hwarming : s.relay.mode ≠ .warming) (hfailed : s.relay.mode ≠ .failed) :
    ∃ t, exec (.selfTestStep (.failed block)) s = .next t ∧ t.relay.repair = .inReset s.now ∧ t.relay.repairUnit = u ∧
      t.relay.active = s.relay.active ∧ t.chans = s.chans ∧ t.streams = s.streams ∧ t.flows = s.flows ∧ t.dict = s.dict := by
  have hnot : ¬ (failShown s u block).relay.repair = .testing := by
    rw [show (failShown s u block).relay = s.relay from rfl, hrepair]
    decide
  have hstart := reportUnitFault_standby (s := loseReady (failShown s u block)) (u := u) 0 (active_ne_standby hu)
    (loseReady_mode_ne hwarming (by decide)) (loseReady_mode_ne hfailed (by decide)) hrepair
  obtain ⟨hchans, hstreams, hflows, hdict⟩ := startRepair_codingKept (regPut (loseReady (failShown s u block)) (key 0x2010 0x0E) 0) u
  refine ⟨_, (exec_selfTestStep ..).trans ((execSelfTestStep_failed block hu).trans (if_neg hnot)), ?_⟩
  rw [hstart, startRepair_activeUnit]
  exact ⟨rfl, rfl, rfl, hchans, hstreams, hflows, hdict⟩

/-- Settles O43: the reset and the retry by their times, a step by its result, the command by the state FAILED. -/
theorem repairRunsItsAttempts : Obligations.RepairRunsItsAttempts := by
  refine ⟨fun since s h => ⟨fun hat => ?_, fun hat => ?_⟩, fun u block s => failedInRepair, fun u block s => failedOutsideRepair,
    fun u b s hu => ⟨fun hfree htest => ?_, fun h => ?_, ?_, ?_⟩, fun r s h => (exec_selfTestStep ..).trans (execSelfTestStep_noStandby r h),
    fun u s hu hpart => (exec_selfTestStep ..).trans (execSelfTestStep_incomplete hu hpart), fun u s hu hwhole => ?_,
    fun since s h => ⟨fun hat => ?_, fun hat => (exec_repairRetry s).trans (execRepairRetry_early h hat)⟩, fun k s hs hmode hphases => ?_⟩
  · rw [exec_repairResetRelease, releaseRepair_due h hat]
    exact ⟨_, rfl, rfl, congrArg UnitBoot.mode (pair_mod_get ..), rfl, rfl⟩
  · rw [exec_repairResetRelease, releaseRepair_early h hat]
  · obtain ⟨honly, hpattern, hdram, hbaton⟩ := visitBlock_visits (testNoted s u (beginStep s.now b)) u b
    have htests : (visitBlock (testNoted s u (beginStep s.now b)) u b).selfTest = (testNoted s u (beginStep s.now b)).selfTest :=
      honly.part .selfTest (by decide)
    have hmay : ((s.selfTest.get u).step.isNone && testable s u b) = true := by rw [hfree, htest]; rfl
    refine ⟨_, (exec_selfTestStep ..).trans ((execSelfTestStep_begun b hu).trans (by rw [hmay]; rfl)), ?_, ?_, hpattern, hdram, hbaton,
      (((testNoted_only s u _).mono (l' := [.free, .dram, .baton, .selfTest]) (by decide)).step honly).eq⟩
    · rw [htests, testNoted_get]
      rfl
    · rw [htests, testNoted_other]
  · have hmay : ((s.selfTest.get u).step.isNone && testable s u b) = false := by
      rcases h with h | h
      · rw [Option.isNone_eq_false_iff.2 h, Bool.false_and]
      · rw [h, Bool.and_false]
    rw [exec_selfTestStep, execSelfTestStep_begun b hu, hmay]
    rfl
  · exact ⟨_, (exec_selfTestStep ..).trans (execSelfTestStep_passed hu), testNoted_get .., testNoted_other .., rfl⟩
  · exact ⟨_, (exec_selfTestStep ..).trans (execSelfTestStep_unfinished hu), testNoted_get .., testNoted_other .., rfl⟩
  · have hbump := bump_only s (key 0x2011 2)
    have hrelay : (bump s (key 0x2011 2)).relay = s.relay := hbump.part .relay (by decide)
    have htests : (bump s (key 0x2011 2)).selfTest = s.selfTest := hbump.part .selfTest (by decide)
    have hget : (passEnded s.now u (bump s (key 0x2011 2))).selfTest.get u = passDone s.now (s.selfTest.get u) := by
      rw [passEnded, pair_mod_get, htests]
    refine ⟨_, (exec_selfTestStep ..).trans (execSelfTestStep_complete hu hwhole), congrArg SelfTestState.covered hget,
      congrArg SelfTestState.passGood hget, congrArg SelfTestState.stepFailed hget, congrArg SelfTestState.lastPass hget, fun htest => ?_,
      fun htest => ?_, ?_, ((hbump.mono (l' := [.regs, .overflow, .relay, .selfTest]) (by decide)).step (passEnded_only ..)).eq⟩
    · rw [passEnded, hrelay, if_pos htest]
      exact ⟨rfl, rfl⟩
    · rw [passEnded, hrelay, if_neg htest]
    · rw [passEnded, pair_mod_other, htests]
  · exact ⟨_, (exec_repairRetry s).trans (execRepairRetry_due h hat), rfl, rfl, startRepair_bootMode .., startRepair_codingKept ..⟩
  · have htaken := doRetry_failed (s := touchClient s k) hmode hphases
    refine ⟨_, exec_acknowledged (exec_retryRepair k s) hs htaken, answered_answer .., ?_⟩
    rw [answer_relay]
    obtain ⟨hchans, hstreams, hflows, hdict⟩ := startRepair_codingKept (retryPrepared (touchClient s k))
      (s.relay.active.elim s.relay.repairUnit UnitId.other)
    refine ⟨startRepair_repairing _ rfl, startRepair_dead .., rfl, fun hwf => ?_, hchans, hstreams, hflows, hdict⟩
    rw [regGet_answer, startRepair_attempts _ _ (retryPrepared_wf (s := touchClient s k) hwf), retryPrepared_attempts (s := touchClient s k) hwf]
    decide

end Sys2Proof.Machine
end

section
/-! PROOF. The baton's check and the release report (13_relay.md R315 to R317; 14_integrity.md R343, R344). -/

namespace Sys2Proof.Machine

set_option Elab.async false

theorem exec_batonCheck (u : UnitId) (damage : List (Nat × Byte)) (s : State) : exec (.batonCheck u damage) s = execBatonCheck u damage s := rfl

theorem exec_releaseReport (pairs crc : List Byte) (s : State) : exec (.releaseReport pairs crc) s = execReleaseReport pairs crc s := rfl

/-! ## Flags -/

theorem flag_clearFlag_other {s : State} {k b c : Nat} (hwf : assocWf defaultOf s.regs = true) (hbc : b ≠ c) (hc : c < widthOf k)
    (hflag : flag s k c = true) : flag (clearFlag s k b) k c = true := by
  rw [flag] at hflag
  have hbit : (1 <<< b).testBit c = false := by
    rw [Nat.one_shiftLeft, Nat.testBit_two_pow]
    simpa using hbc
  rw [flag, clearFlag, regGet_regPut_same _ _ _ hwf, Nat.testBit_mod_two_pow, maskOff, Nat.testBit_xor, Nat.testBit_and, hflag, hbit]
  simpa using hc

theorem loseReady_flagsStay (s : State) : FlagsStay [kRelayStatus] s (loseReady s) :=
  (regPut_flagsStay s kRelayStatus _).trans (.of_regs _ rfl)

theorem cvEnd_flagsStay (s : State) (i : CvId) (v : Nat) (good : Bool) : FlagsStay [kCv i 5, kCv i 6, kCv i 7] s (cvEnd s i v good) := by
  have hput : FlagsStay [kCv i 5, kCv i 6, kCv i 7] s (regPut s (kCv i 5) v) := (regPut_flagsStay ..).mono (by simp)
  have hend := hput.trans ((bump_flagsStay _ (kCv i 6)).mono (l' := [kCv i 5, kCv i 6, kCv i 7]) (by simp))
  unfold cvEnd
  dsimp only
  split
  · exact hend
  · exact (hend.trans ((bump_flagsStay _ (kCv i 7)).mono (by simp))).trans ((setFlag_flagsStay ..).mono (by simp))

theorem flag_cvEnd_bad {s : State} {i : CvId} (v : Nat) (hwf : assocWf defaultOf s.regs = true) : flag (cvEnd s i v false) (kCv i 9) 31 = true := by
  have hput : assocWf defaultOf (regPut s (kCv i 5) v).regs = true := regPut_wf _ _ _ hwf
  exact flag_setFlag_same ((bump_flagsStay _ _).wf ((bump_flagsStay _ _).wf hput)) (mismatch_keys i).2.1

theorem gap_key (i : CvId) : 30 < widthOf (kCv i 9) := by
  revert i
  decide

theorem flag_cvGap {s : State} {i : CvId} (hwf : assocWf defaultOf s.regs = true) : flag (cvGap s i) (kCv i 9) 30 = true :=
  flag_setFlag_same ((bump_flagsStay _ _).wf hwf) (gap_key i)

/-! ## A baton fault -/

/-- One fault more is counted. -/
def missCounted (s : State) (u : UnitId) : State :=
  { bump s (key 0x2010 0x0F) with
    baton := s.baton.mod u fun b => { b with misses := (s.baton.get u).misses + 1 } }

/-- The baton is stale, and is reported. -/
def staleReported (s : State) : State := raiseEmcy (setFlag s kRelayStatus 30) 0xFF02 kRelayStatus 0

theorem missCounted_only (s : State) (u : UnitId) : Only [.regs, .overflow, .baton] s (missCounted s u) :=
  ((Only.refl _ s).step (bump_only s (key 0x2010 0x0F))).step (l' := [.baton]) (.of_eq rfl)

theorem staleReported_only (s : State) : Only [.regs, .overflow, .emcy, .log] s (staleReported s) :=
  ((Only.refl _ s).step (setFlag_only s kRelayStatus 30)).step (raiseEmcy_only ..)

theorem batonFault_eq (s : State) (u : UnitId) : batonFault s u = if (s.baton.get u).misses + 1 = 2 then
    if s.relay.active = some u then staleReported (missCounted s u) else loseReady (staleReported (missCounted s u)) else missCounted s u := by
  have hbaton : (bump s (key 0x2010 0x0F)).baton = s.baton := (bump_only s _).part .baton (by decide)
  unfold batonFault missCounted staleReported
  dsimp only
  rw [hbaton]

section
variable (s : State) (u : UnitId)

theorem batonFault_only : Only [.regs, .overflow, .emcy, .log, .relay, .baton] s (batonFault s u) := by
  have hcount : Only [.regs, .overflow, .emcy, .log, .relay, .baton] s (missCounted s u) := (missCounted_only s u).mono (by decide)
  have hstale := hcount.step (staleReported_only (missCounted s u))
  rw [batonFault_eq]
  exact .ite (fun _ => .ite (fun _ => hstale) fun _ => hstale.step (loseReady_only _)) fun _ => hcount

theorem batonFault_baton : (batonFault s u).baton = s.baton.mod u fun b => { b with misses := (s.baton.get u).misses + 1 } := by
  have hstale : (staleReported (missCounted s u)).baton = (missCounted s u).baton := (staleReported_only _).part .baton (by decide)
  have hlost : (loseReady (staleReported (missCounted s u))).baton = (missCounted s u).baton :=
    ((loseReady_only _).part .baton (by decide)).trans hstale
  rw [batonFault_eq]
  split
  · split
    · exact hstale
    · exact hlost
  · rfl

theorem batonFault_relay (h : (s.baton.get u).misses ≠ 1 ∨ s.relay.active = some u) : (batonFault s u).relay = s.relay := by
  have hcount : (missCounted s u).relay = s.relay := (missCounted_only s u).part .relay (by decide)
  rw [batonFault_eq]
  split
  next hmiss =>
    rw [if_pos (h.resolve_left fun hne => hne (Nat.succ.inj hmiss))]
    exact ((staleReported_only _).part .relay (by decide)).trans hcount
  next => exact hcount

theorem missCounted_flagsStay : FlagsStay [key 0x2010 0x0F] s (missCounted s u) := (bump_flagsStay s _).trans (.of_regs _ rfl)

theorem staleReported_flagsStay : FlagsStay lostKeys s (staleReported s) :=
  ((FlagsStay.refl lostKeys s).step (setFlag_flagsStay s kRelayStatus 30)).step (raiseEmcy_flagsStay ..)

theorem batonFault_flagsStay : FlagsStay [key 0x2010 0x0F, key 0x5082 2, kRelayStatus] s (batonFault s u) := by
  have hcount : FlagsStay [key 0x2010 0x0F, key 0x5082 2, kRelayStatus] s (missCounted s u) := (missCounted_flagsStay s u).mono (by decide)
  have hstale := hcount.step (staleReported_flagsStay (missCounted s u))
  rw [batonFault_eq]
  split
  · split
    · exact hstale
    · exact hstale.step (loseReady_flagsStay _)
  · exact hcount

theorem flag_staleReported {s : State} (hwf : assocWf defaultOf s.regs = true) : flag (staleReported s) kRelayStatus 30 = true :=
  flag_raiseEmcy_setFlag _ _ _ hwf

theorem flag_batonFault {s : State} {u : UnitId} (hmiss : (s.baton.get u).misses = 1) (hwf : assocWf defaultOf s.regs = true) :
    flag (batonFault s u) kRelayStatus 30 = true := by
  have hcount : assocWf defaultOf (missCounted s u).regs = true := (missCounted_flagsStay s u).wf hwf
  have hstale := flag_staleReported hcount
  rw [batonFault_eq, if_pos (congrArg Nat.succ hmiss)]
  split
  · exact hstale
  · have hlost : flag (clearFlag (staleReported (missCounted s u)) kRelayStatus 31) kRelayStatus 30 = true :=
      flag_clearFlag_other ((staleReported_flagsStay _).wf hcount) (by decide) (by decide) hstale
    exact hlost

end

/-! ## The check of a written baton -/

/-- The baton's record in check-value unit 4. -/
def batonRecord (s : State) (bytes : List Byte) : State := cvEnd s 4 (crc32c (bytes.take 8188)).toNat (batonCrcOk bytes)

/-- A good baton is kept. -/
def batonKept (s : State) (u : UnitId) (bytes : List Byte) : State :=
  { batonRecord s bytes with baton := s.baton.mod u fun b => batonAccept (mirrorNow s u) b (parseBaton bytes) }

/-- A baton whose ALIVE does not hold is left, its successor expected. -/
def batonSkipped (s : State) (u : UnitId) (bytes : List Byte) : State :=
  { cvGap (batonRecord s bytes) 4 with
    baton := s.baton.mod u fun b => { b with written := false, expected := some (((parseBaton bytes).alive + 1) % 65536) } }

/-- A baton whose CRC fails is restored from the mirror. -/
def batonRestored (s : State) (u : UnitId) (bytes : List Byte) : State := { batonRecord s bytes with baton := s.baton.mod u restoreSlot }

section
variable {s : State} {u : UnitId} {damage : List (Nat × Byte)} {bytes : List Byte}

theorem writtenBytes_none (h : (s.baton.get u).written = false) : writtenBytes s u damage = none := by
  simp only [writtenBytes, h, Bool.false_eq_true, if_false]

theorem writtenBytes_some {r : Baton} (h : (s.baton.get u).written = true) (hslot : (s.baton.get u).slots.get (freeSlot (s.baton.get u)) = some r) :
    writtenBytes s u damage = some (damagedBytes (batonBytes r) damage) := by
  simp only [writtenBytes, h, hslot, if_true, Option.map_some]

theorem batonRecord_only (s : State) (bytes : List Byte) : Only [.regs, .overflow] s (batonRecord s bytes) := cvEnd_only ..

theorem batonRecord_baton (s : State) (bytes : List Byte) : (batonRecord s bytes).baton = s.baton :=
  (batonRecord_only s bytes).part .baton (by decide)

theorem batonKept_only (s : State) (u : UnitId) (bytes : List Byte) : Only [.regs, .overflow, .baton] s (batonKept s u bytes) :=
  ((Only.refl _ s).step (batonRecord_only s bytes)).step (l' := [.baton]) (.of_eq rfl)

theorem batonSkipped_only (s : State) (u : UnitId) (bytes : List Byte) : Only [.regs, .overflow, .baton] s (batonSkipped s u bytes) :=
  (((Only.refl _ s).step (batonRecord_only s bytes)).step (cvGap_only _ 4)).step (l' := [.baton]) (.of_eq rfl)

theorem batonRestored_only (s : State) (u : UnitId) (bytes : List Byte) : Only [.regs, .overflow, .baton] s (batonRestored s u bytes) :=
  ((Only.refl _ s).step (batonRecord_only s bytes)).step (l' := [.baton]) (.of_eq rfl)

/-- The gap's flag stands in a skipped baton's state. -/
theorem batonSkipped_flag (hwf : assocWf defaultOf s.regs = true) :
    assocWf defaultOf (batonSkipped s u bytes).regs = true ∧ flag (batonSkipped s u bytes) (kCv 4 9) 30 = true := by
  have hrec : assocWf defaultOf (batonRecord s bytes).regs = true := (cvEnd_flagsStay ..).wf hwf
  have hregs : (batonSkipped s u bytes).regs = (cvGap (batonRecord s bytes) 4).regs := rfl
  rw [flag, regGet, hregs]
  exact ⟨(setFlag_flagsStay _ _ _).wf ((bump_flagsStay _ _).wf hrec), flag_cvGap hrec⟩

theorem execBatonCheck_good (h : writtenBytes s u damage = some bytes) (hcrc : batonCrcOk bytes = true)
    (halive : (s.baton.get u).expected = none ∨ (s.baton.get u).expected = some (parseBaton bytes).alive) :
    execBatonCheck u damage s = .next (batonKept s u bytes) := by
  have hbaton := batonRecord_baton s bytes
  unfold batonRecord at hbaton
  simp only [execBatonCheck, h, hbaton, if_pos hcrc, if_pos halive]
  rfl

theorem execBatonCheck_gap (h : writtenBytes s u damage = some bytes) (hcrc : batonCrcOk bytes = true)
    (halive : ¬ ((s.baton.get u).expected = none ∨ (s.baton.get u).expected = some (parseBaton bytes).alive)) :
    execBatonCheck u damage s = .next (batonFault (batonSkipped s u bytes) u) := by
  have hbaton := batonRecord_baton s bytes
  unfold batonRecord at hbaton
  simp only [execBatonCheck, h, hbaton, if_pos hcrc, if_neg halive]
  rfl

theorem execBatonCheck_bad (h : writtenBytes s u damage = some bytes) (hcrc : batonCrcOk bytes = false) :
    execBatonCheck u damage s = .next (batonFault (batonRestored s u bytes) u) := by
  have hbaton := batonRecord_baton s bytes
  unfold batonRecord at hbaton
  simp only [execBatonCheck, h, hbaton, if_neg (Bool.eq_false_iff.1 hcrc)]
  rfl

end

/-- A fault counts on the state of the unit's baton as the check left it. -/
theorem batonFault_checked {s x : State} {u : UnitId} {f : BatonState → BatonState} (h : x.baton = s.baton.mod u f)
    (hmiss : (f (s.baton.get u)).misses = (s.baton.get u).misses) :
    (batonFault x u).baton.get u = { f (s.baton.get u) with misses := (s.baton.get u).misses + 1 } ∧
      (batonFault x u).baton.get u.other = s.baton.get u.other ∧ (x.baton.get u).misses = (s.baton.get u).misses := by
  have hget : x.baton.get u = f (s.baton.get u) := by rw [h, pair_mod_get]
  refine ⟨?_, ?_, by rw [hget, hmiss]⟩
  · rw [batonFault_baton, pair_mod_get, hget, hmiss]
  · rw [batonFault_baton, pair_mod_other, h, pair_mod_other]

theorem release_report_only (s : State) (pairs crc : List Byte) (u : UnitId) :
    Only [.regs, .overflow, .baton] s { cvEnd s 4 (crc32c pairs).toNat (reportGood pairs crc) with
      baton := s.baton.mod u fun b => { b with report := if reportGood pairs crc then some (reportPairs pairs) else none } } :=
  ((Only.refl _ s).step (cvEnd_only ..)).step (l' := [.baton]) (.of_eq rfl)

/-- Settles O42: a written baton is kept, restored or skipped; what a fault adds is the count, the stale baton and what they report. -/
theorem batonsAreCheckedAndKept : Obligations.BatonsAreCheckedAndKept := by
  refine ⟨fun u damage s h => ?_, fun u damage r bytes s hw hslot hbytes => ?_, fun pairs crc s => ⟨fun h => ?_, fun u h => ?_⟩⟩
  · rw [exec_batonCheck, execBatonCheck, writtenBytes_none h]
  · have hwritten : writtenBytes s u damage = some bytes := (writtenBytes_some hw hslot).trans (congrArg some hbytes.symm)
    refine ⟨fun hcrc halive => ?_, fun hcrc => ?_, fun e hcrc he hne => ?_⟩
    · have hget : (batonKept s u bytes).baton.get u = batonAccept (mirrorNow s u) (s.baton.get u) (parseBaton bytes) := by
        rw [batonKept, pair_mod_get]
      refine ⟨_, (exec_batonCheck ..).trans (execBatonCheck_good hwritten hcrc halive), hget, congrArg BatonState.last hget, ?_, fun i hi => ?_,
        fun hactive => ?_, pair_mod_other .., (batonKept_only ..).eq⟩
      · rw [hget]
        exact vmod_get_same _ _ fun _ => some (parseBaton bytes)
      · rw [hget]
        exact vmod_get_other _ _ _ _ hi
      · have hnow : mirrorNow s u = some s.now := if_pos (.inl hactive)
        rw [hget, hnow]
        rfl
    · obtain ⟨hget, hother, hmisses⟩ := batonFault_checked (x := batonRestored s u bytes) rfl (f := restoreSlot) rfl
      have hrec := batonRestored_only s u bytes
      have hrelay : (batonRestored s u bytes).relay = s.relay := hrec.part .relay (by decide)
      have hput : assocWf defaultOf s.regs = true → assocWf defaultOf (batonRestored s u bytes).regs = true :=
        fun hwf => (cvEnd_flagsStay ..).wf hwf
      refine ⟨_, (exec_batonCheck ..).trans (execBatonCheck_bad hwritten hcrc), hget, ?_, fun hmiss hwf => ?_, fun hwf => ?_, fun h => ?_,
        hother, ((hrec.mono (l' := [.regs, .overflow, .emcy, .log, .relay, .baton]) (by decide)).step (batonFault_only ..)).eq⟩
      · rw [hget]
        exact vmod_get_same _ _ fun _ => (s.baton.get u).mirror.head?
      · exact flag_batonFault (hmisses.trans hmiss) (hput hwf)
      · refine (batonFault_flagsStay ..).stay (hput hwf) (kCv 4 9) 31 (by decide) (by decide) ?_
        rw [show flag (batonRestored s u bytes) (kCv 4 9) 31 = flag (batonRecord s bytes) (kCv 4 9) 31 from rfl, batonRecord, hcrc]
        exact flag_cvEnd_bad _ hwf
      · rw [batonFault_relay _ _ (by rwa [hmisses, hrelay]), hrelay]
    · obtain ⟨hget, hother, hmisses⟩ := batonFault_checked (x := batonSkipped s u bytes) rfl
        (f := fun b => { b with written := false, expected := some (((parseBaton bytes).alive + 1) % 65536) }) rfl
      have hrec := batonSkipped_only s u bytes
      have hrelay : (batonSkipped s u bytes).relay = s.relay := hrec.part .relay (by decide)
      refine ⟨_, (exec_batonCheck ..).trans (execBatonCheck_gap hwritten hcrc (by simp [he, hne])), hget, fun hwf => ?_, fun h => ?_,
        hother, ((hrec.mono (l' := [.regs, .overflow, .emcy, .log, .relay, .baton]) (by decide)).step (batonFault_only ..)).eq⟩
      · obtain ⟨hwf', hflag⟩ := batonSkipped_flag (bytes := bytes) (u := u) hwf
        exact (batonFault_flagsStay (batonSkipped s u bytes) u).stay hwf' (kCv 4 9) 30 (by decide) (by decide) hflag
      · rw [batonFault_relay _ _ (by rwa [hmisses, hrelay]), hrelay]
  · rw [exec_releaseReport, execReleaseReport, h]
  · refine ⟨_, (exec_releaseReport ..).trans ?_, rfl, (release_report_only s pairs crc u).eq⟩
    rw [execReleaseReport, h]

end Sys2Proof.Machine
end

section
/-! PROOF. The software block reset (15_reset.md R366, Table 15-10). -/

namespace Sys2Proof.Machine

set_option Elab.async false

theorem exec_blockReset (k : Client) (mask : BitVec 32) (s : State) :
    exec (.blockReset k mask) s = .next (serveWrite s k 0x2101 (doBlockReset k mask)) := rfl

section
variable (s : State) (k : Client) (mask : BitVec 32)

theorem blockRefused_touchClient : blockRefused (touchClient s k) k mask = blockRefused s k mask := by
  have howner : (touchClient s k).maint.owner = s.maint.owner := touchClient_owner ..
  unfold blockRefused unlocked
  rw [howner]
  rfl

theorem blockRefused_reserved (h : mask &&& 0x0CFFF000 ≠ 0) : blockRefused s k mask = some .outOfRange := if_pos h

/-- The named network ports lose their links. -/
def portsDown : State := forEach allPorts (fun x p => if mask.getLsbD (28 + p.val) then linkDown x p else x) s

theorem portsDown_only : Only [.regs, .ports, .counts] s (portsDown s mask) :=
  forEach_only (fun _ _ => .ite (fun _ => linkDown_only ..) fun _ => .refl ..) ..

theorem linkDown_up (p q : PortId) : ((linkDown s p).ports.get q).up = ((s.ports.get q).up && !decide (q = p)) := by
  by_cases h : q = p
  · subst h
    have hdown : ((linkDown s q).ports.get q).up = false := by rw [linkDown_same]
    rw [hdown, decide_eq_true rfl, Bool.not_true, Bool.and_false]
  · rw [decide_eq_false h, Bool.not_false, Bool.and_true]
    exact congrArg Port.up (vmod_get_other _ _ _ _ h)

/-- Of the ports that a list names, those in the mask lose their link, and no other. -/
theorem forEach_portsDown_up (l : List PortId) (q : PortId) :
    ((forEach l (fun x p => if mask.getLsbD (28 + p.val) then linkDown x p else x) s).ports.get q).up =
      ((s.ports.get q).up && !(decide (q ∈ l) && mask.getLsbD (28 + q.val))) := by
  induction l generalizing s with
  | nil => simp [forEach]
  | cons p l ih =>
    refine (ih _).trans ?_
    dsimp only
    by_cases hbit : mask.getLsbD (28 + p.val) = true
    · rw [if_pos hbit, linkDown_up]
      by_cases hq : q = p
      · subst hq
        simp [hbit]
      · simp [hq]
    · rw [if_neg hbit]
      by_cases hq : q = p
      · subst hq
        simp [hbit]
      · simp [hq]

theorem portsDown_up (q : PortId) : ((portsDown s mask).ports.get q).up = ((s.ports.get q).up && !mask.getLsbD (28 + q.val)) := by
  rw [portsDown, forEach_portsDown_up, decide_eq_true (mem_allPorts q), Bool.true_and]

/-- The reset of the blocks counted, its source and the clocked blocks noted. -/
def blocksAsserted (now : Nat) (x : State) : State :=
  { assertSource x 7 with rst := { (assertSource x 7).rst with
      blocks := x.rst.blocks ||| mask
      blocksAt := now
      pendingClock := x.rst.pendingClock ||| mask &&& 0x0F
      bypass := x.rst.bypass || decide (mask &&& 0x0F ≠ 0) } }

/-- The answer of a block reset that is taken. -/
def blocksReset : State :=
  if mask &&& 0x0F ≠ 0 then setFlag (setFlag (blocksAsserted mask s.now (resetBlocks s mask)) kReset 30) kReset 31
  else blocksAsserted mask s.now (resetBlocks s mask)

theorem doBlockReset_taken (h : blockRefused s k mask = none) : doBlockReset k mask s = .ok (blocksReset s mask) := by
  unfold doBlockReset blocksReset
  rw [h]
  rfl

theorem doBlockReset_refused {a : Abort} (h : blockRefused s k mask = some a) : doBlockReset k mask s = .error a := by
  unfold doBlockReset
  rw [h]

/-- What a block reset leaves: every part but those of the blocks. -/
theorem resetBlocks_only : Only [.regs, .ports, .counts, .slots, .ret, .mon, .dma, .chans, .streams] s (resetBlocks s mask) :=
  ((portsDown_only s mask).mono (by decide)).step (l' := [.ports, .slots, .ret, .mon, .dma, .chans, .streams]) (.of_eq rfl)

theorem blocksReset_marked : Only [.regs] (blocksAsserted mask s.now (resetBlocks s mask)) (blocksReset s mask) :=
  .ite (fun _ => ((Only.refl _ _).step (setFlag_only ..)).step (setFlag_only ..)) fun _ => .refl ..

theorem blocksReset_only :
    Only [.regs, .ports, .counts, .slots, .ret, .mon, .dma, .chans, .streams, .rst] s (blocksReset s mask) := by
  have hblocks : Only [.regs, .ports, .counts, .slots, .ret, .mon, .dma, .chans, .streams, .rst] s (resetBlocks s mask) :=
    (resetBlocks_only s mask).mono (by decide)
  exact (hblocks.step (l' := [.rst]) (.of_eq rfl)).step (blocksReset_marked s mask)


end

section
variable {s : State} {mask : BitVec 32}

theorem blocksReset_chans : (blocksReset s mask).chans = (resetBlocks s mask).chans := (blocksReset_marked s mask).part .chans (by decide)

theorem blocksReset_ports : (blocksReset s mask).ports = (resetBlocks s mask).ports := (blocksReset_marked s mask).part .ports (by decide)

theorem blocksReset_slots : (blocksReset s mask).slots = (resetBlocks s mask).slots := (blocksReset_marked s mask).part .slots (by decide)

theorem blocksReset_ret : (blocksReset s mask).ret = (resetBlocks s mask).ret := (blocksReset_marked s mask).part .ret (by decide)

theorem blocksReset_mon : (blocksReset s mask).mon = (resetBlocks s mask).mon := (blocksReset_marked s mask).part .mon (by decide)

theorem blocksReset_dma : (blocksReset s mask).dma = (resetBlocks s mask).dma := (blocksReset_marked s mask).part .dma (by decide)

theorem blocksReset_rst : (blocksReset s mask).rst = (blocksAsserted mask s.now (resetBlocks s mask)).rst :=
  (blocksReset_marked s mask).part .rst (by decide)

theorem resetBlocks_rst : (resetBlocks s mask).rst = s.rst := (resetBlocks_only s mask).part .rst (by decide)

theorem isAsserted_assertSource_seven (s : State) : isAsserted (assertSource s 7) 7 = true := by
  simp [isAsserted, assertSource]

theorem blocksReset_asserted : isAsserted (blocksReset s mask) 7 = true := by
  rw [isAsserted, blocksReset_rst]
  exact isAsserted_assertSource_seven _

theorem blocksReset_blocks : (blocksReset s mask).rst.blocks = s.rst.blocks ||| mask := by
  rw [blocksReset_rst]
  exact congrArg (ResetState.blocks · ||| mask) resetBlocks_rst

theorem resetBlocks_chan (c : Chan) : (resetBlocks s mask).chans.get c =
    if mask.getLsbD c.val then { chanReset with verifyOn := (s.chans.get c).verifyOn }
    else if mask.getLsbD (4 + c.val) then { s.chans.get c with spoiled := false } else s.chans.get c := by
  have hchans : (portsDown s mask).chans = s.chans := (portsDown_only s mask).part .chans (by decide)
  rw [← hchans]
  exact Vector.getElem_mapFinIdx ..

theorem resetBlocks_port (p : PortId) : (resetBlocks s mask).ports.get p =
    if mask.getLsbD (28 + p.val) then { (portsDown s mask).ports.get p with pcs := ⟨pcsReset, pcsReset⟩ } else (portsDown s mask).ports.get p :=
  Vector.getElem_mapFinIdx ..

theorem resetBlocks_slots : (resetBlocks s mask).slots =
    if mask.getLsbD 25 then ⟨.replicate 32 slotEmpty, .replicate 32 slotEmpty⟩ else s.slots := by
  have hslots : (portsDown s mask).slots = s.slots := (portsDown_only s mask).part .slots (by decide)
  rw [← hslots]
  rfl

theorem resetBlocks_ret : (resetBlocks s mask).ret =
    if mask.getLsbD 24 then { retReset with enabled := s.ret.enabled, setting := s.ret.setting, outputs := s.ret.outputs } else s.ret := by
  have hret : (portsDown s mask).ret = s.ret := (portsDown_only s mask).part .ret (by decide)
  rw [← hret]
  rfl

theorem resetBlocks_mon : (resetBlocks s mask).mon = if mask.getLsbD 24 then { monReset with selected := s.mon.selected } else s.mon := by
  have hmon : (portsDown s mask).mon = s.mon := (portsDown_only s mask).part .mon (by decide)
  rw [← hmon]
  rfl

theorem resetBlocks_dma (u : UnitId) (d : DmaId) : dmaAt (resetBlocks s mask) u d =
    if decide (d.val < 4) && mask.getLsbD (8 + d.val) then dmaReset else dmaAt s u d := by
  have hdma : (portsDown s mask).dma = s.dma := (portsDown_only s mask).part .dma (by decide)
  rw [dmaAt, dmaAt, ← hdma]
  cases u
  · exact Vector.getElem_mapFinIdx (xs := (portsDown s mask).dma.a)
      (f := fun i x _ => if decide (i < 4) && mask.getLsbD (8 + i) then dmaReset else x) d.isLt
  · exact Vector.getElem_mapFinIdx (xs := (portsDown s mask).dma.b)
      (f := fun i x _ => if decide (i < 4) && mask.getLsbD (8 + i) then dmaReset else x) d.isLt

theorem blocksReset_up (p : PortId) : ((blocksReset s mask).ports.get p).up = ((s.ports.get p).up && !mask.getLsbD (28 + p.val)) := by
  rw [← portsDown_up, blocksReset_ports, resetBlocks_port]
  split <;> rfl

theorem blocksReset_dma_kept {u : UnitId} {d : DmaId} (h : mask.getLsbD (8 + d.val) = false ∨ 4 ≤ d.val) :
    dmaAt (blocksReset s mask) u d = dmaAt s u d := by
  have hnot : (decide (d.val < 4) && mask.getLsbD (8 + d.val)) = false := by
    rcases h with h | h
    · rw [h, Bool.and_false]
    · rw [decide_eq_false (Nat.not_lt.2 h), Bool.false_and]
  rw [dmaAt, blocksReset_dma]
  exact (resetBlocks_dma u d).trans (if_neg (Bool.eq_false_iff.1 hnot))

theorem emptySlots_get (u : UnitId) (m : SlotId) :
    ((⟨.replicate 32 slotEmpty, .replicate 32 slotEmpty⟩ : Pair (Vector Slot 32)).get u).get m = slotEmpty := by
  cases u <;> exact Vector.getElem_replicate ..

end

/-- Settles O50: a refused reset answers its abort; a taken one is `blocksReset`, read block by block. -/
theorem blockResetsReachTheNamedBlocks : Obligations.BlockResetsReachTheNamedBlocks := by
  intro k mask s hs
  have hrefused := blockRefused_touchClient s k mask
  refine ⟨fun a h => exec_refused (exec_blockReset k mask s) hs (doBlockReset_refused _ _ _ (hrefused.trans h)),
    blockRefused_reserved s k mask, fun h => ?_⟩
  have htaken := doBlockReset_taken _ _ _ (hrefused.trans h)
  have hframe := ((Only.refl [.regs, .overflow, .chans, .streams, .ret, .mon, .ports, .flows, .counts, .dma, .slots, .rst, .clients, .maint] s).step
    (touchClient_only s k)).step (blocksReset_only (touchClient s k) mask)
  refine ⟨_, exec_acknowledged (exec_blockReset k mask s) hs htaken, answered_answer .., blocksReset_blocks, blocksReset_asserted,
    fun c hc => ?_, fun c hc => ?_, fun p => blocksReset_up p, fun p hp => ?_, fun h25 u m => ?_, fun h25 => ?_, fun h24 => ?_, fun h24 => ?_,
    fun u d hd => blocksReset_dma_kept (s := touchClient s k) hd, (hframe.step (answer_only _ k .ack)).eq⟩
  · rw [answer_chans, blocksReset_chans, resetBlocks_chan, if_pos hc, touchClient_chans]
  · rw [answer_chans, blocksReset_chans, resetBlocks_chan, if_neg (Bool.eq_false_iff.1 hc), touchClient_chans]
  · have hport := (congrArg (fun v : Vector Port 4 => v.get p) (blocksReset_ports (s := touchClient s k) (mask := mask))).trans (resetBlocks_port p)
    rw [if_pos hp] at hport
    exact congrArg Port.pcs hport
  · rw [answer_slots, blocksReset_slots, resetBlocks_slots, if_pos h25, emptySlots_get]
  · rw [answer_slots, blocksReset_slots, resetBlocks_slots, if_neg (Bool.eq_false_iff.1 h25), touchClient_slots]
  · rw [answer_ret, blocksReset_ret, resetBlocks_ret, if_pos h24, touchClient_ret]
  · rw [answer_ret, answer_mon, blocksReset_ret, blocksReset_mon, resetBlocks_ret, resetBlocks_mon, if_neg (Bool.eq_false_iff.1 h24),
      if_neg (Bool.eq_false_iff.1 h24), touchClient_ret, touchClient_mon]
    exact ⟨rfl, rfl⟩

end Sys2Proof.Machine
end

section
/-! PROOF. DMA descriptors are fetched, completed and resumed (12_translation_dma.md R288, R293, R294, R296, R303; 09_flows.md R220). -/

namespace Sys2Proof.Machine

set_option Elab.async false

theorem exec_descriptorFetch (u : UnitId) (d : DmaId) (start : Option DmaStart) (s : State) :
    exec (.descriptorFetch u d start) s = execDescriptorFetch u d start s := rfl

theorem exec_descriptorComplete (u : UnitId) (d : DmaId) (s : State) : exec (.descriptorComplete u d) s = execDescriptorComplete u d s := rfl

theorem exec_landed (u : UnitId) (d : DmaId) (s : State) :
    exec (.landed u d) s = .next (modDma s u d fun x => { x with awaitLanded := false }) := rfl

theorem exec_dmaStallResume (u : UnitId) (d : DmaId) (s : State) : exec (.dmaStallResume u d) s = execDmaStallResume u d s := rfl

/-! ## The fetch -/

/-- A channel with its fetched descriptor. -/
def descriptorTaken (desc : Descriptor) (y : Dma) : Dma :=
  { y with
    mode := .running
    desc := some desc
    pos := zeroPos
    bytePos := 0
    bytesWritten := 0
    packetElems := 0
    packetData := []
    cause := 0
    faultSide := 0
    faultAddr := 0
    faultCtx := 0
    ctx := desc.srcCtx }

/-- A channel without a descriptor. -/
def descriptorDropped (y : Dma) : Dma := { y with desc := none }

/-- A channel at the start of its descriptor. -/
def rewound (y : Dma) : Dma := { y with pos := zeroPos, bytePos := 0 }

/-- A channel that an engine task starts. -/
def startedBy (st : DmaStart) (y : Dma) : Dma := { y with descAddr := st.addr, ctx := st.ctx, owner := some st.task }

/-- A stopped channel that goes on. -/
def resumed (z : Dma) : Dma := { z with mode := .running, cause := 0, faultSide := 0, faultAddr := 0, faultCtx := 0 }

/-- A fetch leaves every other channel, and what is not a channel's. -/
structure FetchKeeps (u : UnitId) (d : DmaId) (s t : State) : Prop where
  others : ∀ e, e ≠ d → dmaAt t u e = dmaAt s u e
  otherUnit : t.dma.get u.other = s.dma.get u.other
  frame : Only [.regs, .overflow, .disp, .dma, .capture] s t

section
variable {s t r : State} {u : UnitId} {d : DmaId}

theorem FetchKeeps.trans (h : FetchKeeps u d s t) (h' : FetchKeeps u d t r) : FetchKeeps u d s r :=
  ⟨fun e he => (h'.others e he).trans (h.others e he), h'.otherUnit.trans h.otherUnit, h.frame.trans h'.frame⟩

theorem FetchKeeps.mod (s : State) (u : UnitId) (d : DmaId) (f : Dma → Dma) : FetchKeeps u d s (modDma s u d f) :=
  ⟨fun _ he => dmaAt_modDma_other _ _ _ _ he, modDma_otherUnit .., (Only.refl _ s).step (modDma_only ..)⟩

theorem FetchKeeps.of_only (h : Only [.regs, .overflow, .disp, .capture] s t) : FetchKeeps u d s t := by
  have hdma : t.dma = s.dma := h.part .dma (by decide)
  exact ⟨fun e _ => by rw [dmaAt, dmaAt, hdma], by rw [hdma], h.mono (by decide)⟩

theorem FetchKeeps.stop (s : State) (u : UnitId) (d : DmaId) (cause side addr ctx : Nat) : FetchKeeps u d s (stopDma s u d cause side addr ctx) :=
  (FetchKeeps.mod s u d (stopped cause side addr ctx)).trans (.of_only (stopDma_after ..))

end

section
variable {s : State} {u : UnitId} {d : DmaId}

theorem takeDescriptor_valid {desc : Descriptor} (h : descriptorInvalid desc = false) :
    takeDescriptor s u d desc = modDma s u d (descriptorTaken desc) := if_neg (Bool.eq_false_iff.1 h)

theorem takeDescriptor_invalid {desc : Descriptor} (h : descriptorInvalid desc = true) :
    takeDescriptor s u d desc = stopDma (modDma (modDma s u d (descriptorTaken desc)) u d descriptorDropped) u d 8 0 0 0 := if_pos h

theorem failFetch_eq (k : Nat) : failFetch s u d k = stopDma (noteFault (modDma s u d rewound) u (chanContext d (dmaAt s u d))
    (dmaAt s u d).descAddr k false) u d (2 + k) 3 (dmaAt s u d).descAddr (chanContext d (dmaAt s u d)).val := rfl

theorem takeDescriptor_keeps (desc : Descriptor) : FetchKeeps u d s (takeDescriptor s u d desc) := by
  have hmod := FetchKeeps.mod s u d (descriptorTaken desc)
  cases h : descriptorInvalid desc with
  | false =>
    rw [takeDescriptor_valid h]
    exact hmod
  | true =>
    rw [takeDescriptor_invalid h]
    exact (hmod.trans (.mod ..)).trans (.stop ..)

theorem noteFault_keeps (x : State) (c : Fin 64) (a k : Nat) (w : Bool) : FetchKeeps u d x (noteFault x u c a k w) :=
  .of_only ((Only.refl _ x).step (noteFault_only ..))

theorem failFetch_keeps (k : Nat) : FetchKeeps u d s (failFetch s u d k) := by
  rw [failFetch_eq]
  exact ((FetchKeeps.mod s u d rewound).trans (noteFault_keeps ..)).trans (.stop ..)

theorem fetchNext_keeps (s : State) (u : UnitId) (d : DmaId) : FetchKeeps u d s (fetchNext s u d) := by
  unfold fetchNext
  split
  · exact takeDescriptor_keeps _
  · exact failFetch_keeps _

theorem dmaAt_noteFault (x : State) (c : Fin 64) (a k : Nat) (w : Bool) (e : DmaId) : dmaAt (noteFault x u c a k w) u e = dmaAt x u e := by
  rw [dmaAt, dmaAt, (noteFault_only x u c a k w).part .dma (by decide)]

theorem dmaAt_failFetch (k : Nat) : dmaAt (failFetch s u d k) u d =
    stopped (2 + k) 3 (dmaAt s u d).descAddr (chanContext d (dmaAt s u d)).val (rewound (dmaAt s u d)) := by
  rw [failFetch_eq, dmaAt_stopDma_same, dmaAt_noteFault, dmaAt_modDma_same]

theorem dmaAt_takeDescriptor_invalid {desc : Descriptor} (h : descriptorInvalid desc = true) : dmaAt (takeDescriptor s u d desc) u d =
    stopped 8 0 0 0 (descriptorDropped (descriptorTaken desc (dmaAt s u d))) := by
  rw [takeDescriptor_invalid h, dmaAt_stopDma_same, dmaAt_modDma_same, dmaAt_modDma_same]

theorem dmaAt_takeDescriptor_valid {desc : Descriptor} (h : descriptorInvalid desc = false) : dmaAt (takeDescriptor s u d desc) u d =
    descriptorTaken desc (dmaAt s u d) := by
  rw [takeDescriptor_valid h, dmaAt_modDma_same]

/-- What the fetch reads: the descriptor where its address translates, else the translation's fault. -/
theorem fetchNext_ok {a : Nat} (h : translate s u (chanContext d (dmaAt s u d)) ((dmaAt s u d).descAddr / 64 * 64) false = .ok a) :
    fetchNext s u d = takeDescriptor s u d (parseDescriptor ((List.range 64).map fun i => homeByte s u (a + i))) := by
  simp only [fetchNext, fetchedDescriptor, h]

theorem fetchNext_error {k : Nat} (h : translate s u (chanContext d (dmaAt s u d)) ((dmaAt s u d).descAddr / 64 * 64) false = .error k) :
    fetchNext s u d = failFetch s u d k := by
  simp only [fetchNext, fetchedDescriptor, h]

end

/-- What a channel's fetch does: it takes a valid descriptor, rejects another, or stops at its fault. -/
structure Fetched (s t : State) (u : UnitId) (d : DmaId) (y : Dma) : Prop where
  ok : ∀ a x, translate s u (chanContext d y) (y.descAddr / 64 * 64) false = .ok a →
    x = parseDescriptor ((List.range 64).map fun i => homeByte s u (a + i)) →
    (descriptorInvalid x = false → dmaAt t u d = descriptorTaken x y ∧ t = { s with dma := t.dma }) ∧
    (descriptorInvalid x = true → dmaAt t u d = stopped 8 0 0 0 (descriptorDropped (descriptorTaken x y)))
  error : ∀ k, translate s u (chanContext d y) (y.descAddr / 64 * 64) false = .error k →
    dmaAt t u d = stopped (2 + k) 3 y.descAddr (chanContext d y).val (rewound y)

/-- The fetch of a channel whose record is `y`, after `f` has prepared it. -/
theorem fetchNext_fetched {s x : State} {u : UnitId} {d : DmaId} {y : Dma} (hdma : dmaAt x u d = y) (hatu : x.atu = s.atu)
    (hbytes : ∀ a, homeByte x u a = homeByte s u a) (hx : x = { s with dma := x.dma }) : Fetched s (fetchNext x u d) u d y := by
  have htr : ∀ v, translate x u (chanContext d (dmaAt x u d)) v false = translate s u (chanContext d y) v false := fun v => by
    rw [translate, translate, hdma, hatu]
  refine ⟨fun a desc ha hdesc => ?_, fun k hk => ?_⟩
  · have hfetch := fetchNext_ok (s := x) (u := u) (d := d) (a := a) (by rw [htr, hdma, ha])
    have hsame : ((List.range 64).map fun i => homeByte x u (a + i)) = (List.range 64).map fun i => homeByte s u (a + i) :=
      List.map_congr_left fun i _ => hbytes (a + i)
    rw [hfetch, hsame, ← hdesc]
    refine ⟨fun hvalid => ⟨?_, ?_⟩, fun hinvalid => ?_⟩
    · rw [dmaAt_takeDescriptor_valid hvalid, hdma]
    · rw [takeDescriptor_valid hvalid, hx]
      rfl
    · rw [dmaAt_takeDescriptor_invalid hinvalid, hdma]
  · rw [fetchNext_error (s := x) (k := k) (by rw [htr, hdma, hk]), dmaAt_failFetch, hdma]

section
variable {s : State} {u : UnitId} {d : DmaId}

theorem execDescriptorFetch_stopped {start : Option DmaStart} (h : (dmaAt s u d).mode = .stopped) :
    execDescriptorFetch u d start s = .next (match start with
      | some st => if st.resume ∧ (dmaAt s u d).owner = some st.task then resumeDma s u d else s
      | none => s) := by
  unfold execDescriptorFetch
  rw [if_pos h]
  cases start <;> rfl

theorem execDescriptorFetch_holds {start : Option DmaStart} (h : (dmaAt s u d).mode ≠ .stopped)
    (hdesc : (dmaAt s u d).desc.isSome = true ∨ (dmaAt s u d).awaitLanded = true) : execDescriptorFetch u d start s = .next s := by
  simp only [execDescriptorFetch, if_neg h, if_pos hdesc]

theorem execDescriptorFetch_running {start : Option DmaStart} (hdesc : (dmaAt s u d).desc = none)
    (hlanded : (dmaAt s u d).awaitLanded = false) (h : (dmaAt s u d).mode = .running) :
    execDescriptorFetch u d start s = .next (fetchNext s u d) := by
  simp [execDescriptorFetch, h, hdesc, hlanded]

theorem execDescriptorFetch_started {st : DmaStart} (hdesc : (dmaAt s u d).desc = none)
    (hlanded : (dmaAt s u d).awaitLanded = false) (h : (dmaAt s u d).mode = .idle ∨ (dmaAt s u d).mode = .done) :
    execDescriptorFetch u d (some st) s = .next (fetchNext (modDma s u d (startedBy st)) u d) := by
  have hstopped : (dmaAt s u d).mode ≠ .stopped := by rcases h with h | h <;> simp [h]
  have hrunning : (dmaAt s u d).mode ≠ .running := by rcases h with h | h <;> simp [h]
  simp only [execDescriptorFetch, if_neg hstopped, hdesc, hlanded, Option.isSome_none, Bool.false_eq_true, or_self, if_false,
    if_neg hrunning, if_pos h]
  rfl

theorem execDescriptorFetch_unstarted (h : (dmaAt s u d).mode = .idle) : execDescriptorFetch u d none s = .next s := by
  simp [execDescriptorFetch, h]

theorem resumeDma_stopped (h : (dmaAt s u d).mode = .stopped) : resumeDma s u d = modDma s u d resumed := if_pos h

end

/-! ## The end of a descriptor -/

/-- A channel whose descriptor has ended. -/
def descriptorEnded (x : Descriptor) (z : Dma) : Dma :=
  let w : Dma := { z with
    doneCount := (z.doneCount + 1) % 65536
    mode := if decide (x.nextAddr = 0) then .done else .running
    awaitLanded := x.fence }
  { w with status := statusRecord w (if decide (x.nextAddr = 0) then 4 else 1), desc := none, descAddr := x.nextAddr }

/-- A packet that waited has entered its queue, its bytes counted. -/
def stallEnded (x : Descriptor) (z : Dma) : Dma :=
  { z with mode := .running, bytesWritten := z.bytesWritten + z.packetElems * x.elemBytes, packetElems := 0, packetData := [], stalledAt := none }

section
variable (s : State) (u : UnitId) (d : DmaId) (x : Descriptor)

/-- The unit in view counts the descriptor. -/
def endCounted : State := if u = viewUnit s then bump s (kDma d 3) else s

/-- A readout's picture is counted at its last descriptor. -/
def pictureCounted : State := if u = viewUnit s ∧ d.val < 4 then (if x.markLast then pictureSent s d else s) else s

/-- The event that the descriptor asks for. -/
def endEvent : State := if x.eventDone then dmaEvent s u d 30 else s

theorem endCounted_only : Only [.regs, .overflow] s (endCounted s u d) := .ite (fun _ => bump_only ..) fun _ => .refl ..

theorem pictureSent_only : Only [.regs, .overflow, .capture] s (pictureSent s d) :=
  ((Only.refl _ s).step (bump_only s (key (0x2901 + d.val) 8))).step (l' := [.capture]) (.of_eq rfl)

theorem pictureCounted_only : Only [.regs, .overflow, .capture] s (pictureCounted s u d x) :=
  .ite (fun _ => .ite (fun _ => pictureSent_only ..) fun _ => .refl ..) fun _ => .refl ..

theorem endEvent_only : Only [.regs, .overflow, .disp] s (endEvent s u d x) := .ite (fun _ => dmaEvent_only ..) fun _ => .refl ..

/-- The state after a descriptor's end: `v` is the state it is in view of. -/
def descriptorDone : State :=
  let t1 := endCounted (modDma s u d (descriptorEnded x)) u d
  settleReading (endEvent (pictureCounted t1 u d x) u d x)

end

section
variable {s : State} {u : UnitId} {d : DmaId} {x : Descriptor}

theorem endCounted_relay : (endCounted s u d).relay = s.relay := (endCounted_only s u d).part .relay (by decide)

theorem descriptorDone_after : Only [.regs, .overflow, .disp, .capture] (modDma s u d (descriptorEnded x)) (descriptorDone s u d x) :=
  ((((Only.refl _ _).step (endCounted_only ..)).step (pictureCounted_only ..)).step (endEvent_only ..)).step (settleReading_only _)

theorem execDescriptorComplete_finished (hdesc : (dmaAt s u d).desc = some x) (hmode : (dmaAt s u d).mode = .running)
    (hfin : finishedPos x (dmaAt s u d).pos = true) (hpacket : (dmaAt s u d).packetElems = 0) :
    execDescriptorComplete u d s = .next (descriptorDone s u d x) := by
  have hview : viewUnit (endCounted (modDma s u d (descriptorEnded x)) u d) = viewUnit s := by
    rw [viewUnit, viewUnit, endCounted_relay]
    rfl
  simp only [execDescriptorComplete, hdesc]
  rw [if_pos ⟨hmode, hfin, hpacket⟩, descriptorDone]
  rw [pictureCounted, hview]
  rfl

theorem execDescriptorComplete_none (h : (dmaAt s u d).desc = none) : execDescriptorComplete u d s = .next s := by
  simp only [execDescriptorComplete, h]

theorem execDmaStallResume_none (h : (dmaAt s u d).desc = none) : execDmaStallResume u d s = .next s := by
  simp only [execDmaStallResume, h]

/-- The packet of a stalled channel. -/
def stalledPacket (s : State) (u : UnitId) (d : DmaId) (x : Descriptor) : Packet :=
  readoutPacket s u d x ((dmaAt s u d).stalledAt.getD zeroPos) (finishedPos x (dmaAt s u d).pos)

theorem execDmaStallResume_stalled (hdesc : (dmaAt s u d).desc = some x) (hmode : (dmaAt s u d).mode = .stalled) :
    execDmaStallResume u d s = .next (if flowTakes s (finOf 256 (by decide) x.flow) [stalledPacket s u d x] then
      modDma (enqueue s (finOf 256 (by decide) x.flow) [stalledPacket s u d x]) u d (stallEnded x) else s) := by
  simp only [execDmaStallResume, hdesc, if_pos hmode]
  exact (apply_ite Host.Outcome.next _ _ _).symm

end

theorem fetch_settled {s t : State} {u : UnitId} {d : DmaId} {y : Dma} (hy : y.desc = none) (hf : Fetched s t u d y) (hk : FetchKeeps u d s t) :
    (∀ a x, translate s u (chanContext d y) (y.descAddr / 64 * 64) false = .ok a →
      x = parseDescriptor ((List.range 64).map fun i => homeByte s u (a + i)) →
      (descriptorInvalid x = false →
        (dmaAt t u d).desc = some x ∧ (dmaAt t u d).mode = .running ∧ (dmaAt t u d).pos = zeroPos ∧ (dmaAt t u d).bytePos = 0 ∧
        (dmaAt t u d).bytesWritten = 0 ∧ (dmaAt t u d).owner = y.owner ∧ t = { s with dma := t.dma }) ∧
      (descriptorInvalid x = true → (dmaAt t u d).desc = none ∧ (dmaAt t u d).mode = .stopped ∧ (dmaAt t u d).cause = 8)) ∧
    (∀ k, translate s u (chanContext d y) (y.descAddr / 64 * 64) false = .error k →
      (dmaAt t u d).desc = none ∧ (dmaAt t u d).mode = .stopped ∧ (dmaAt t u d).cause = 2 + k ∧ (dmaAt t u d).faultSide = 3 ∧
      (dmaAt t u d).faultAddr = y.descAddr) ∧
    (∀ e, e ≠ d → dmaAt t u e = dmaAt s u e) ∧ t.dma.get u.other = s.dma.get u.other ∧
    t = { s with regs := t.regs, overflow := t.overflow, disp := t.disp, dma := t.dma, capture := t.capture } := by
  refine ⟨fun a x ha hx => ?_, fun k hk => ?_, hk.others, hk.otherUnit, hk.frame.eq⟩
  · obtain ⟨hvalid, hinvalid⟩ := hf.ok a x ha hx
    refine ⟨fun h => ?_, fun h => ?_⟩
    · obtain ⟨hat, hframe⟩ := hvalid h
      rw [hat]
      exact ⟨rfl, rfl, rfl, rfl, rfl, rfl, hframe⟩
    · rw [hinvalid h]
      exact ⟨rfl, rfl, rfl⟩
  · rw [hf.error k hk]
    exact ⟨hy, rfl, rfl, rfl, rfl⟩

/-- Settles O35: each fetch through `fetch_settled`; a descriptor's end, LANDED and a stall's end change their channel's record. -/
theorem descriptorsAreFetchedAndCompleted : Obligations.DescriptorsAreFetchedAndCompleted := by
  refine ⟨⟨fun u d start y s hdesc hlanded h => ?_, fun u d st s hmode => ⟨fun hres howner => ?_, fun h => ?_⟩, fun u d start s h => ?_⟩,
    fun u d x s hdesc hmode hfin hpacket => ?_, fun u d s => ?_, fun u d s h => ?_, fun u d x s hdesc hmode => ?_⟩
  · rcases h with ⟨hmode, rfl⟩ | ⟨hmode, st, rfl, rfl⟩
    · exact ⟨_, (exec_descriptorFetch ..).trans (execDescriptorFetch_running hdesc hlanded hmode),
        fetch_settled hdesc (fetchNext_fetched rfl rfl (fun _ => rfl) rfl) (fetchNext_keeps s u d)⟩
    · exact ⟨_, (exec_descriptorFetch ..).trans (execDescriptorFetch_started hdesc hlanded hmode),
        fetch_settled hdesc (fetchNext_fetched (dmaAt_modDma_same s u d (startedBy st)) rfl (fun _ => rfl) rfl)
          ((FetchKeeps.mod s u d (startedBy st)).trans (fetchNext_keeps _ u d))⟩
  · refine ⟨_, (exec_descriptorFetch ..).trans (execDescriptorFetch_stopped hmode), ?_⟩
    dsimp only
    rw [if_pos ⟨hres, howner⟩, resumeDma_stopped hmode]
    exact ⟨dmaAt_modDma_same .., fun e he => dmaAt_modDma_other _ _ _ _ he, rfl⟩
  · rw [exec_descriptorFetch, execDescriptorFetch_stopped hmode]
    dsimp only
    rw [if_neg fun hboth => h.elim (fun hf => Bool.noConfusion (hf.symm.trans hboth.1)) fun hne => hne hboth.2]
  · rw [exec_descriptorFetch]
    rcases h with ⟨hmode, h⟩ | ⟨hmode | hmode, rfl⟩
    · exact execDescriptorFetch_holds hmode h
    · exact execDescriptorFetch_unstarted hmode
    · exact execDescriptorFetch_stopped hmode
  · have hafter := descriptorDone_after (s := s) (u := u) (d := d) (x := x)
    have hdma : (descriptorDone s u d x).dma = (modDma s u d (descriptorEnded x)).dma := hafter.part .dma (by decide)
    have hat : ∀ e, dmaAt (descriptorDone s u d x) u e = dmaAt (modDma s u d (descriptorEnded x)) u e := fun e => by rw [dmaAt, hdma]; rfl
    refine ⟨_, (exec_descriptorComplete ..).trans (execDescriptorComplete_finished hdesc hmode hfin hpacket), ?_, ?_, ?_, ?_, ?_, fun e he => ?_,
      (((Only.refl [.regs, .overflow, .disp, .dma, .capture] s).step (modDma_only s u d (descriptorEnded x))).step hafter).eq⟩
    · rw [hat, dmaAt_modDma_same]; rfl
    · rw [hat, dmaAt_modDma_same]; rfl
    · rw [hat, dmaAt_modDma_same]; rfl
    · rw [hat, dmaAt_modDma_same]; rfl
    · rw [hat, dmaAt_modDma_same]
      simp [descriptorEnded]
    · rw [hat, dmaAt_modDma_other _ _ _ _ he]
  · exact ⟨_, exec_landed .., dmaAt_modDma_same .., fun e he => dmaAt_modDma_other _ _ _ _ he, rfl⟩
  · exact ⟨(exec_descriptorComplete ..).trans (execDescriptorComplete_none h), (exec_dmaStallResume ..).trans (execDmaStallResume_none h)⟩
  · refine ⟨fun h => ?_, fun h => ?_⟩
    · have hq := enqueue_only s (finOf 256 (by decide) x.flow) [stalledPacket s u d x]
      have hat : ∀ e, dmaAt (enqueue s (finOf 256 (by decide) x.flow) [stalledPacket s u d x]) u e = dmaAt s u e := fun e => by
        rw [dmaAt, dmaAt, hq.part .dma (by decide)]
      refine ⟨_, ((exec_dmaStallResume ..).trans (execDmaStallResume_stalled hdesc hmode)).trans (congrArg _ (if_pos h)), ?_, fun e he => ?_,
        (((Only.refl [.flows, .dma] s).step hq).step (modDma_only _ u d (stallEnded x))).eq⟩
      · rw [dmaAt_modDma_same, hat]
        rfl
      · rw [dmaAt_modDma_other _ _ _ _ he, hat]
    · exact ((exec_dmaStallResume ..).trans (execDmaStallResume_stalled hdesc hmode)).trans (congrArg _ (if_neg (Bool.eq_false_iff.1 h)))

end Sys2Proof.Machine
end

section
/-! PROOF. The bytes of DRAM that a write reaches, and the readouts of a capture (12_translation_dma.md R296, R297, R303, R304). -/

namespace Sys2Proof.Machine

set_option Elab.async false

/-! ## Bytes written -/

/-- A written range is undefined nowhere. -/
theorem find_defineRange_inside (l : List (Nat × Nat × Nat)) {lo hi a : Nat} (ha : lo ≤ a ∧ a < hi) :
    (defineRange l lo hi).find? (fun r => decide (r.1 ≤ a ∧ a < r.2.1)) = none := by
  rw [List.find?_eq_none]
  intro x hx
  obtain ⟨r, -, hx⟩ := List.mem_flatMap.1 hx
  rw [List.mem_append, List.mem_ite_nil_right, List.mem_ite_nil_right, List.mem_singleton, List.mem_singleton] at hx
  rw [decide_eq_true_eq]
  rcases hx with ⟨_, rfl⟩ | ⟨_, rfl⟩ <;> dsimp only <;> omega

theorem dramByte_putByte_same (d : DramState) (a : Nat) (b : BitVec 8) (hwf : assocWf unlistedByte d.mem = true) :
    dramByte (putByte d a b) a = b := by
  have htag : undefTag (putByte d a b) a = none := by
    rw [undefTag, putByte, find_defineRange_inside d.undef ⟨Nat.le_refl a, Nat.lt_succ_self a⟩]
    rfl
  rw [dramByte, htag]
  exact assocGet_put_same _ _ _ _ hwf

theorem dramByte_putByte_other (d : DramState) {a c : Nat} (b : BitVec 8) (h : c ≠ a) : dramByte (putByte d a b) c = dramByte d c := by
  have htag : undefTag (putByte d a b) c = undefTag d c := undefTag_defineRange (lo := a) (hi := a + 1) (Nat.lt_succ_self a) rfl (by omega)
  rw [dramByte, dramByte, htag]
  split
  · rfl
  · exact assocGet_put_other _ _ _ _ _ h

theorem dramByte_putBytes_other (l : List (BitVec 8)) (d : DramState) {a c : Nat} (h : c < a ∨ a + l.length ≤ c) :
    dramByte (putBytes d a l) c = dramByte d c := by
  induction l generalizing d a with
  | nil => rfl
  | cons b l ih =>
    rw [List.length_cons] at h
    exact (ih (putByte d a b) (by omega)).trans (dramByte_putByte_other d b (by omega))

theorem dramByte_putBytes_same (l : List (BitVec 8)) (d : DramState) {a i : Nat} (hwf : assocWf unlistedByte d.mem = true) (h : i < l.length) :
    dramByte (putBytes d a l) (a + i) = l[i] := by
  induction l generalizing d a i with
  | nil => exact absurd h (Nat.not_lt_zero i)
  | cons b l ih =>
    cases i with
    | zero => exact (dramByte_putBytes_other l _ (by omega)).trans (dramByte_putByte_same d a b hwf)
    | succ i =>
      rw [show a + (i + 1) = a + 1 + i by omega, List.getElem_cons_succ]
      exact ih (putByte d a b) (putByte_wf _ _ _ hwf) _

/-! ## Accesses that open rows -/

theorem activate1_cells (s : State) (u : UnitId) (ch : DramChan) (bank : Fin 16) (row : Nat) : CellsKept s (activate1 s u ch bank row) := by
  have hset : ∀ f : DramState → DramState, SameCells (s.dram.get u) (f (s.dram.get u)) → CellsKept s (setDram s u f) :=
    fun f h => .setDram s u h
  unfold activate1
  dsimp only
  split
  · exact (hset _ ⟨rfl, rfl⟩).trans (.of_only (((Only.refl [.counts, .regs] _).step (countUnit_only ..)).step (setFlag_only ..)))
  · exact hset _ ⟨rfl, rfl⟩

theorem touchBlock_cells (s : State) (u : UnitId) (a : Nat) : CellsKept s (touchBlock s u a) := by
  unfold touchBlock
  dsimp only
  exact (CellsKept.ite (.refl s) (activate1_cells ..)).trans (.setDram _ u ⟨rfl, rfl⟩)

theorem touchBytes_cells (s : State) (u : UnitId) (a n : Nat) : CellsKept s (touchBytes s u a n) :=
  .forEach (fun t b => touchBlock_cells t u b) _ s

/-- An access leaves the other unit's controller. -/
theorem activate1_otherUnit (s : State) (u : UnitId) (ch : DramChan) (bank : Fin 16) (row : Nat) :
    (activate1 s u ch bank row).dram.get u.other = s.dram.get u.other := by
  have hset : ∀ f : DramState → DramState, (setDram s u f).dram.get u.other = s.dram.get u.other := fun f => setDram_other ..
  unfold activate1
  dsimp only
  split
  · rw [← hset, (((Only.refl [.counts, .regs] _).step (countUnit_only ..)).step (setFlag_only ..)).part .dram (by decide)]
  · exact hset _

theorem touchBlock_otherUnit (s : State) (u : UnitId) (a : Nat) : (touchBlock s u a).dram.get u.other = s.dram.get u.other := by
  unfold touchBlock
  dsimp only
  rw [setDram_other]
  split
  · rfl
  · exact activate1_otherUnit ..

theorem touchBytes_otherUnit (s : State) (u : UnitId) (a n : Nat) : (touchBytes s u a n).dram.get u.other = s.dram.get u.other := by
  unfold touchBytes
  generalize blocksAt a n = l
  induction l generalizing s with
  | nil => rfl
  | cons b l ih => exact (ih (touchBlock s u b)).trans (touchBlock_otherUnit ..)

/-! ## Writes that stay within given addresses -/

/-- Of a unit's bytes those at the named addresses read as before, and the other unit's controller is as before. -/
structure BytesKept (u : UnitId) (p : Nat → Prop) (s t : State) : Prop where
  byte : ∀ a, p a → dramByte (t.dram.get u) a = dramByte (s.dram.get u) a
  other : t.dram.get u.other = s.dram.get u.other

namespace BytesKept

variable {s t r : State} {u : UnitId} {p : Nat → Prop}

theorem refl (u : UnitId) (p : Nat → Prop) (s : State) : BytesKept u p s s := ⟨fun _ _ => rfl, rfl⟩

theorem trans (h : BytesKept u p s t) (h' : BytesKept u p t r) : BytesKept u p s r :=
  ⟨fun a ha => (h'.byte a ha).trans (h.byte a ha), h'.other.trans h.other⟩

theorem of_dram (h : t.dram = s.dram) : BytesKept u p s t := ⟨fun a _ => by rw [h], by rw [h]⟩

theorem touch (s : State) (u : UnitId) (p : Nat → Prop) (a n : Nat) : BytesKept u p s (touchBytes s u a n) :=
  ⟨fun b _ => (touchBytes_cells s u a n).byte u b, touchBytes_otherUnit ..⟩

theorem put (s : State) (u : UnitId) {p : Nat → Prop} {a : Nat} {l : List (BitVec 8)} (h : ∀ c, p c → c < a ∨ a + l.length ≤ c) :
    BytesKept u p s (setDram s u fun d => putBytes d a l) := by
  refine ⟨fun c hc => ?_, setDram_other ..⟩
  rw [setDram_get]
  exact dramByte_putBytes_other l _ (h c hc)

end BytesKept

/-! ## Fields of a word -/

theorem fieldOf_insertField {w hi lo v n : Nat} (hhi : hi < n) (hv : v < 2 ^ (hi + 1 - lo)) :
    fieldOf (insertField w hi lo v % 2 ^ n) hi lo = v := by
  refine Nat.eq_of_testBit_eq fun i => ?_
  rw [fieldOf, Nat.testBit_mod_two_pow, Nat.testBit_shiftRight, Nat.testBit_mod_two_pow]
  by_cases hi' : i < hi + 1 - lo
  · have hin : lo + i < n := by omega
    simp [insertField, maskOff, Nat.testBit_or, Nat.testBit_xor, Nat.testBit_and, Nat.testBit_shiftLeft, hi', hin]
  · have hbig : v < 2 ^ i := Nat.lt_of_lt_of_le hv (Nat.pow_le_pow_right (by decide) (by omega))
    rw [Nat.testBit_lt_two_pow hbig, decide_eq_false hi', Bool.false_and]

end Sys2Proof.Machine
end

section
/-! PROOF. The readouts of a capture (12_translation_dma.md R296, R297, R303, R304). -/

namespace Sys2Proof.Machine

set_option Elab.async false

theorem exec_readoutStart (k : Client) (r : ReadoutId) (s : State) :
    exec (.readoutStart k r) s = .next (serveTrace s k (0x2901 + r.val) (doReadoutStart r)) := rfl

theorem exec_readoutAbort (k : Client) (r : ReadoutId) (s : State) :
    exec (.readoutAbort k r) s = .next (serveWrite s k (0x2901 + r.val) (doReadoutAbort r)) := rfl

theorem exec_readoutResume (k : Client) (r : ReadoutId) (s : State) :
    exec (.readoutResume k r) s = .next (serveWrite s k (0x2901 + r.val) (doReadoutResume r)) := rfl

/-! ## The descriptor chain -/

/-- One descriptor of the chain is written where its address translates. -/
def placeOne (u : UnitId) (r : ReadoutId) (x : State) (e : Descriptor × Nat) : State :=
  match translate x u (finOf 64 (by decide) (10 + r.val)) (descriptorArea + 64 * e.2) false with
  | .ok a => setDram (touchBytes x u a 64) u fun d => putBytes d a (descriptorBytes e.1)
  | .error _ => x

theorem placeChain_eq (s : State) (r : ReadoutId) (l : List Descriptor) :
    placeChain s r l = forEach l.zipIdx (placeOne (viewUnit s) r) s := rfl

theorem placeOne_only (u : UnitId) (r : ReadoutId) (x : State) (e : Descriptor × Nat) : Only [.regs, .dram, .counts] x (placeOne u r x e) := by
  unfold placeOne
  split
  · exact ((Only.refl _ x).step (touchBytes_only ..)).step (setDram_only ..)
  · exact .refl ..

/-- A byte that no descriptor of the readout's area reaches. -/
def OutsideArea (s : State) (u : UnitId) (r : ReadoutId) (a : Nat) : Prop :=
  ∀ i b, translate s u (finOf 64 (by decide) (10 + r.val)) (descriptorArea + 64 * i) false = .ok b → a < b ∨ b + 64 ≤ a

theorem placeOne_bytes {s x : State} {u : UnitId} {r : ReadoutId} (e : Descriptor × Nat) (hatu : x.atu = s.atu) :
    BytesKept u (OutsideArea s u r) x (placeOne u r x e) := by
  unfold placeOne
  split
  next a ha =>
    refine (BytesKept.touch x u _ a 64).trans (.put _ u fun c hc => ?_)
    rw [descriptorBytes, leBytes_length]
    refine hc e.2 a ?_
    rwa [translate, hatu] at ha
  next => exact .refl ..

theorem forEach_placeOne_bytes {s x : State} {u : UnitId} {r : ReadoutId} (l : List (Descriptor × Nat)) (hatu : x.atu = s.atu) :
    BytesKept u (OutsideArea s u r) x (forEach l (placeOne u r) x) := by
  induction l generalizing x with
  | nil => exact .refl ..
  | cons e l ih =>
    have hstep : (placeOne u r x e).atu = s.atu := ((placeOne_only u r x e).part .atu (by decide)).trans hatu
    exact (placeOne_bytes e hatu).trans (ih hstep)

/-! ## The start -/

/-- The reason of the check stands in the readout's status. -/
def reasonShown (s : State) (r : ReadoutId) : State := putField s (kReadout r 0x0A) 31 28 (readoutReason s r)

/-- The pictures that a readout asks for. -/
def askedSlots (s : State) (r : ReadoutId) : List RingSlot := (s.capture.slots.drop (firstPicture s r).toNat).take (cfg s (kReadout r 6))

/-- The readout's counters start, and its channel begins at the descriptor area. -/
def readoutPrepared (s : State) (r : ReadoutId) : State :=
  modDma (regPut (regPut (reasonShown s r) (kReadout r 8) 0) (kReadout r 9) (ceilDiv (lineElems s (cropOf s r).2.2.1) (packetElemsOf s r)))
    (viewUnit s) (readoutDma r) fun x =>
      { x with mode := .running, desc := none, descAddr := descriptorArea, pos := zeroPos, bytePos := 0, packetElems := 0, packetData := [], cause := 0 }

/-- The readout runs with the pictures asked for. -/
def readoutMarked (s : State) (r : ReadoutId) (x : State) : State :=
  { x with capture := { x.capture with
    mode := .reading
    readouts := vmod x.capture.readouts r fun _ => { running := true, todo := (askedSlots s r).map fun w => w.picture, flow := readoutFlow s r } } }

/-- A readout that starts. -/
def readoutStarted (s : State) (r : ReadoutId) : State :=
  readoutMarked s r (placeChain (readoutPrepared s r) r (buildChain s r (askedSlots s r)))

section
variable {s : State} {r : ReadoutId}

theorem doReadoutStart_refused (h : readoutReason s r ≠ 0 ∨ s.capture.readouts[r].running = true) :
    doReadoutStart r s = (reasonShown s r, some .presentState) := by
  unfold doReadoutStart
  dsimp only
  rw [if_pos h]
  rfl

theorem doReadoutStart_started (hreason : readoutReason s r = 0) (hrun : s.capture.readouts[r].running = false) (hasked : askedSlots s r ≠ []) :
    doReadoutStart r s = (readoutStarted s r, none) := by
  have hne : ¬ (readoutReason s r ≠ 0 ∨ s.capture.readouts[r].running = true) := by
    rw [hreason, hrun]
    decide
  have hlist : ((askedSlots s r).map fun w => w.picture).isEmpty ≠ true := by simpa using hasked
  unfold doReadoutStart
  dsimp only
  rw [if_neg hne]
  refine congrArg (·, none) ?_
  exact if_neg hlist

/-- A check that passes has its pictures in the ring. -/
theorem askedSlots_length (hreason : readoutReason s r = 0) : (askedSlots s r).length = cfg s (kReadout r 6) := by
  have hring : ¬ (firstPicture s r < 0 ∨ (s.capture.slots.length : Int) < firstPicture s r + cfg s (kReadout r 6)) := by
    intro h
    unfold readoutReason at hreason
    dsimp only at hreason
    split at hreason
    · exact absurd hreason (by decide)
    · split at hreason
      · exact absurd hreason (by decide)
      · split at hreason
        · exact absurd hreason (by decide)
        · split at hreason
          · exact absurd hreason (by decide)
          · exact absurd hreason (by decide)
  rw [askedSlots, List.length_take, List.length_drop]
  omega

theorem readoutReason_lt (s : State) (r : ReadoutId) : readoutReason s r < 2 ^ 4 := by
  unfold readoutReason
  dsimp only
  repeat' split
  all_goals decide

theorem readout_width (r : ReadoutId) : widthOf (kReadout r 0x0A) = 32 := by
  revert r
  decide

theorem readout_reason (hwf : assocWf defaultOf s.regs = true) : fieldOf (regGet (reasonShown s r) (kReadout r 0x0A)) 31 28 = readoutReason s r := by
  rw [reasonShown, putField, regGet_regPut_same _ _ _ hwf, readout_width]
  exact fieldOf_insertField (by decide) (readoutReason_lt s r)

theorem readoutPrepared_only (s : State) (r : ReadoutId) : Only [.regs, .dma] s (readoutPrepared s r) :=
  ((((Only.refl _ s).step (putField_only ..)).step (regPut_only ..)).step (regPut_only ..)).step (modDma_only ..)

theorem placeChain_only (s : State) (r : ReadoutId) (l : List Descriptor) : Only [.regs, .dram, .counts] s (placeChain s r l) := by
  rw [placeChain_eq]
  exact forEach_only (placeOne_only (viewUnit s) r) _ s

theorem readoutStarted_only (s : State) (r : ReadoutId) : Only [.regs, .dma, .dram, .counts, .capture] s (readoutStarted s r) :=
  (((Only.refl _ s).step (readoutPrepared_only s r)).step (placeChain_only ..)).step (l' := [.capture]) (.of_eq rfl)

theorem readoutStarted_capture (s : State) (r : ReadoutId) : (readoutStarted s r).capture =
    { s.capture with
      mode := .reading
      readouts := vmod s.capture.readouts r fun _ => { running := true, todo := (askedSlots s r).map fun w => w.picture, flow := readoutFlow s r } } := by
  have hcap : (placeChain (readoutPrepared s r) r (buildChain s r (askedSlots s r))).capture = s.capture :=
    ((placeChain_only ..).part .capture (by decide)).trans ((readoutPrepared_only s r).part .capture (by decide))
  rw [← hcap]
  rfl

theorem readoutStarted_dma (s : State) (r : ReadoutId) : (readoutStarted s r).dma = (readoutPrepared s r).dma :=
  (placeChain_only ..).part .dma (by decide)

theorem readoutStarted_bytes (s : State) (r : ReadoutId) :
    BytesKept (viewUnit s) (OutsideArea s (viewUnit s) r) s (readoutStarted s r) := by
  have hprep : BytesKept (viewUnit s) (OutsideArea s (viewUnit s) r) s (readoutPrepared s r) :=
    .of_dram ((readoutPrepared_only s r).part .dram (by decide))
  have hview : viewUnit (readoutPrepared s r) = viewUnit s := congrArg (·.active.getD .a) ((readoutPrepared_only s r).part .relay (by decide))
  refine hprep.trans ?_
  have hchain := forEach_placeOne_bytes (u := viewUnit s) (r := r) (buildChain s r (askedSlots s r)).zipIdx
    ((readoutPrepared_only s r).part .atu (by decide))
  rw [← hview, ← placeChain_eq, hview] at hchain
  exact hchain.trans (.of_dram rfl)

/-! ## Abort and resume -/

theorem doReadoutAbort_eq : doReadoutAbort r s = .ok (abortDma s (viewUnit s) (readoutDma r) 1) := rfl

theorem doReadoutResume_refused (h : (dmaAt s (viewUnit s) (readoutDma r)).mode ≠ .stopped) : doReadoutResume r s = .error .presentState := by
  unfold doReadoutResume
  dsimp only
  rw [decide_eq_false h, Bool.and_false, Bool.false_and]
  rfl

/-- A readout that goes on. -/
def readoutResumed (s : State) (r : ReadoutId) : State :=
  { modDma s (viewUnit s) (readoutDma r) resumed with capture := { s.capture with
    mode := .reading
    readouts := vmod s.capture.readouts r fun x => { x with running := true } } }

theorem readoutResumed_only (s : State) (r : ReadoutId) : Only [.dma, .capture] s (readoutResumed s r) := .of_eq rfl

theorem doReadoutResume_taken (hmode : s.capture.mode = .held ∨ s.capture.mode = .reading)
    (h : (dmaAt s (viewUnit s) (readoutDma r)).mode = .stopped) (htodo : s.capture.readouts[r].todo ≠ []) :
    doReadoutResume r s = .ok (readoutResumed s r) := by
  have hne : s.capture.readouts[r].todo.isEmpty = false := by simpa using htodo
  unfold doReadoutResume
  dsimp only
  rw [decide_eq_true hmode, decide_eq_true h, hne, resumeDma_stopped h]
  rfl

end

/-- A started readout runs with its pictures, the ring as it is, its channel at the start of its area. -/
theorem readoutStarted_state (s : State) (r : ReadoutId) :
    (readoutStarted s r).capture.mode = .reading ∧ (readoutStarted s r).capture.readouts[r].running = true ∧
    (readoutStarted s r).capture.readouts[r].todo.length = (askedSlots s r).length ∧ (readoutStarted s r).capture.slots = s.capture.slots ∧
    (dmaAt (readoutStarted s r) (viewUnit s) (readoutDma r)).mode = .running ∧
    (dmaAt (readoutStarted s r) (viewUnit s) (readoutDma r)).desc = none := by
  have hdma : dmaAt (readoutStarted s r) (viewUnit s) (readoutDma r) = dmaAt (readoutPrepared s r) (viewUnit s) (readoutDma r) := by
    rw [dmaAt, readoutStarted_dma]
    rfl
  rw [readoutStarted_capture, hdma, readoutPrepared, dmaAt_modDma_same]
  exact ⟨rfl, by simp [vmod], by simp [vmod], rfl, rfl, rfl⟩

/-- R303: a readout whose check passes starts. -/
theorem readoutStart_started {k : Client} {r : ReadoutId} {s : State} (hs : Served s k (0x2901 + r.val)) (hreason : readoutReason s r = 0)
    (hrun : s.capture.readouts[r].running = false) (hn : 0 < cfg s (kReadout r 6)) :
    ∃ t, exec (.readoutStart k r) s = .next t ∧ answered t k = some .ack ∧ t.capture.mode = .reading ∧
      t.capture.readouts[r].running = true ∧ t.capture.readouts[r].todo.length = cfg s (kReadout r 6) ∧
      t.capture.slots = s.capture.slots ∧ (dmaAt t (viewUnit s) (readoutDma r)).mode = .running ∧
      (dmaAt t (viewUnit s) (readoutDma r)).desc = none ∧
      (∀ a, OutsideArea s (viewUnit s) r a → dramByte (t.dram.get (viewUnit s)) a = dramByte (s.dram.get (viewUnit s)) a) ∧
      t.dram.get (viewUnit s).other = s.dram.get (viewUnit s).other ∧
      Only [.regs, .counts, .dram, .dma, .capture, .clients, .maint] s t := by
  have hlen : (askedSlots (touchClient s k) r).length = cfg s (kReadout r 6) := askedSlots_length (s := touchClient s k) hreason
  have hasked : askedSlots (touchClient s k) r ≠ [] := by
    intro hnil
    rw [hnil] at hlen
    exact absurd hn (by rw [← hlen]; decide)
  have hstart := doReadoutStart_started (s := touchClient s k) hreason hrun hasked
  have hexec : exec (.readoutStart k r) s = .next (answer (readoutStarted (touchClient s k) r) k .ack) := by
    rw [exec_readoutStart, serveTrace_ok hs (by rw [hstart]), hstart]
  obtain ⟨hmode, hrunning, htodo, hslots, hdma, hdesc⟩ := readoutStarted_state (touchClient s k) r
  have hbytes := readoutStarted_bytes (touchClient s k) r
  have honly := readoutStarted_only (touchClient s k) r
  generalize readoutStarted (touchClient s k) r = x at *
  exact ⟨_, hexec, answered_answer .., hmode, hrunning, htodo.trans hlen, hslots, hdma, hdesc, fun a ha => hbytes.byte a ha, hbytes.other,
    (((Only.refl _ s).step (touchClient_only s k)).step honly).step (answer_only _ k .ack)⟩

/-- R297: a readout's abort stops its active channel. -/
theorem readoutAbort_settled {k : Client} {r : ReadoutId} {s : State} (hs : Served s k (0x2901 + r.val)) :
    ∃ t, exec (.readoutAbort k r) s = .next t ∧ answered t k = some .ack ∧
      (dmaActive (dmaAt s (viewUnit s) (readoutDma r)) = true →
        (dmaAt t (viewUnit s) (readoutDma r)).mode = .stopped ∧ (dmaAt t (viewUnit s) (readoutDma r)).cause = 1) ∧
      (∀ d, d ≠ readoutDma r → dmaAt t (viewUnit s) d = dmaAt s (viewUnit s) d) ∧
      Only [.regs, .overflow, .disp, .dma, .capture, .clients, .maint] s t := by
  have habort : doReadoutAbort r (touchClient s k) = .ok (abortDma (touchClient s k) (viewUnit s) (readoutDma r) 1) := doReadoutAbort_eq
  have hexec := exec_acknowledged (exec_readoutAbort k r s) hs habort
  have hat : dmaActive (dmaAt s (viewUnit s) (readoutDma r)) = true → _ :=
    fun h => dmaAt_abortDma_same (touchClient s k) (viewUnit s) (d := readoutDma r) 1 h
  have hother := fun (d : DmaId) hd => dmaAt_abortDma_other (touchClient s k) (viewUnit s) (readoutDma r) (d' := d) 1 hd
  have honly := abortDma_only (touchClient s k) (viewUnit s) (readoutDma r) 1
  generalize abortDma (touchClient s k) (viewUnit s) (readoutDma r) 1 = x at *
  refine ⟨_, hexec, answered_answer .., fun hactive => ?_, fun d hd => hother d hd,
    (((Only.refl _ s).step (touchClient_only s k)).step honly).step (answer_only _ k .ack)⟩
  rw [dmaAt, answer_dma, ← dmaAt, hat hactive]
  exact ⟨rfl, rfl⟩

theorem readoutResumed_state (s : State) (r : ReadoutId) :
    (readoutResumed s r).capture.mode = .reading ∧ (readoutResumed s r).capture.readouts[r].running = true ∧
    (dmaAt (readoutResumed s r) (viewUnit s) (readoutDma r)).mode = .running ∧
    (dmaAt (readoutResumed s r) (viewUnit s) (readoutDma r)).pos = (dmaAt s (viewUnit s) (readoutDma r)).pos := by
  have hat : dmaAt (readoutResumed s r) (viewUnit s) (readoutDma r) = resumed (dmaAt s (viewUnit s) (readoutDma r)) := dmaAt_modDma_same ..
  rw [hat]
  exact ⟨rfl, by simp [readoutResumed, vmod], rfl, rfl⟩

/-- Settles O38: the started readout is `readoutStarted`, its chain inside its area; an abort stops and a resume starts its channel. -/
theorem readoutsStartAbortAndResume : Obligations.ReadoutsStartAbortAndResume := by
  intro k r s hs
  refine ⟨fun hreason hrun hn => ?_, fun h => ?_, ?_, fun h => ?_, fun hmode h htodo => ?_⟩
  · obtain ⟨t, hexec, hack, hmode, hrunning, htodo, hslots, hdma, hdesc, hbyte, hother, honly⟩ := readoutStart_started hs hreason hrun hn
    exact ⟨t, hexec, hack, hmode, hrunning, htodo, hslots, hdma, hdesc, hbyte, hother, honly.eq⟩
  · have hstart := doReadoutStart_refused (s := touchClient s k) h
    have hframe := (((Only.refl [.regs, .clients, .maint] s).step (touchClient_only s k)).step
      (putField_only (touchClient s k) (kReadout r 0x0A) 31 28 (readoutReason (touchClient s k) r))).step (answer_only _ k (.abort .presentState))
    refine ⟨answer (reasonShown (touchClient s k) r) k (.abort .presentState), ?_, answered_answer .., fun hwf => readout_reason (s := touchClient s k) hwf,
      hframe.eq⟩
    rw [exec_readoutStart, serveTrace_error hs (by rw [hstart]), hstart]
  · obtain ⟨t, hexec, hack, hactive, hother, honly⟩ := readoutAbort_settled (r := r) hs
    exact ⟨t, hexec, hack, hactive, hother, honly.eq⟩
  · exact exec_refused (exec_readoutResume k r s) hs (doReadoutResume_refused (s := touchClient s k) h)
  · have hexec := exec_acknowledged (exec_readoutResume k r s) hs (doReadoutResume_taken (s := touchClient s k) hmode h htodo)
    have honly := readoutResumed_only (touchClient s k) r
    obtain ⟨hreading, hrunning, hdma, hpos⟩ := readoutResumed_state (touchClient s k) r
    generalize readoutResumed (touchClient s k) r = x at *
    exact ⟨_, hexec, answered_answer .., hreading, hrunning, hdma, hpos,
      ((((Only.refl [.dma, .capture, .clients, .maint] s).step (touchClient_only s k)).step honly).step (answer_only _ k .ack)).eq⟩

end Sys2Proof.Machine
end

section
/-! PROOF. The capture's commands and triggers (12_translation_dma.md R300, R301, Table 12-6). -/

namespace Sys2Proof.Machine

set_option Elab.async false

theorem exec_arm (k : Client) (s : State) : exec (.arm k) s = .next (serveWrite s k 0x2900 doArm) := rfl

theorem exec_disarm (k : Client) (s : State) : exec (.disarm k) s = .next (serveWrite s k 0x2900 doDisarm) := rfl

theorem exec_release (k : Client) (s : State) : exec (.release k) s = .next (serveWrite s k 0x2900 doRelease) := rfl

theorem exec_trigger (k : Client) (s : State) : exec (.trigger k) s = .next (serveWrite s k 0x2900 doTrigger) := rfl

theorem exec_trigPinEdge (n : Fin 4) (falling : Bool) (s : State) : exec (.trigPinEdge n falling) s = execTrigPinEdge n falling s := rfl

theorem exec_triggerTimeReached (s : State) : exec .triggerTimeReached s = execTriggerTimeReached s := rfl

theorem exec_triggerTimeWrite (k : Client) (v : BitVec 128) (s : State) :
    exec (.triggerTimeWrite k v) s = .next (serveWrite s k 0x2900 (doTriggerTime v.toNat)) := rfl

/-! ## Arming, disarming and releasing -/

/-- The ring is armed, empty. -/
def armed (s : State) : State :=
  reportHeld { s with capture := { s.capture with
    mode := .armed, slots := [], writing := none, nextSlot := 0, awaiting := false, partialHeld := false } }

theorem armed_only (s : State) : Only [.regs, .capture] s (armed s) := by
  have hset : Only [.regs, .capture] s { s with capture := { s.capture with
    mode := .armed, slots := [], writing := none, nextSlot := 0, awaiting := false, partialHeld := false } } := .of_eq rfl
  exact hset.step (reportHeld_only _)

theorem captureIdle_only (s : State) : Only [.regs, .capture] s (captureIdle s) := by
  have hset : Only [.regs, .capture] s { s with capture := { s.capture with
    mode := .idle, slots := [], writing := none, awaiting := false, partialHeld := false, due := 0 } } := .of_eq rfl
  exact ((hset.step (clearFlag_only ..)).step (clearFlag_only ..)).step (reportHeld_only _)

section
variable {s : State}

theorem doArm_taken (h : s.capture.mode = .idle ∧ anyChannelRunning s = true ∧ 0 < s.capture.capacity) : doArm s = .ok (armed s) := if_pos h

theorem doArm_refused (h : s.capture.mode ≠ .idle ∨ anyChannelRunning s = false ∨ s.capture.capacity = 0) : doArm s = .error .presentState := by
  refine if_neg fun ⟨hmode, hrun, hcap⟩ => ?_
  rcases h with h | h | h
  · exact h hmode
  · exact Bool.noConfusion (hrun.symm.trans h)
  · exact Nat.ne_of_gt hcap h

theorem doDisarm_taken (h : s.capture.mode = .armed) : doDisarm s = .ok (captureIdle s) := if_pos h

theorem doDisarm_refused (h : s.capture.mode ≠ .armed) : doDisarm s = .error .presentState := if_neg h

theorem abortReadouts_eq (u : UnitId) : abortReadouts s u = abortAll [0, 1, 2, 3] u 1 s := rfl

/-- The ring is released: but in LOST, the readouts are aborted first. -/
def readoutsEnded (s : State) : State := if s.capture.mode = .lost then s else abortReadouts s (viewUnit s)

theorem doRelease_taken (h : s.capture.mode = .held ∨ s.capture.mode = .reading ∨ s.capture.mode = .lost) :
    doRelease s = .ok (captureIdle (readoutsEnded s)) := by
  unfold doRelease readoutsEnded
  rcases h with h | h | h <;> rw [h] <;> rfl

theorem doRelease_refused (hheld : s.capture.mode ≠ .held) (hreading : s.capture.mode ≠ .reading) (hlost : s.capture.mode ≠ .lost) :
    doRelease s = .error .presentState := by
  unfold doRelease
  split
  · exact absurd ‹_› hheld
  · exact absurd ‹_› hreading
  · exact absurd ‹_› hlost
  · rfl

theorem readoutsEnded_only (s : State) : Only [.dma, .regs, .overflow, .disp, .capture] s (readoutsEnded s) :=
  .ite (fun _ => .refl ..) fun _ => abortAll_only ..

/-- A channel that is not active when it is to be aborted stays so. -/
theorem abortAll_idle (l : List DmaId) (u : UnitId) (cause : Nat) (s : State) (d : DmaId) (h : dmaActive (dmaAt s u d) = false) :
    dmaActive (dmaAt (abortAll l u cause s) u d) = false := by
  induction l generalizing s with
  | nil => exact h
  | cons e l ih =>
    refine ih (abortDma s u e cause) ?_
    by_cases hd : d = e
    · rw [← hd, abortDma_idle s u cause h]
      exact h
    · rw [dmaAt_abortDma_other s u e cause hd]
      exact h

theorem abortAll_inactive {l : List DmaId} (u : UnitId) (cause : Nat) (s : State) {d : DmaId} (h : d ∈ l) :
    dmaActive (dmaAt (abortAll l u cause s) u d) = false := by
  cases hactive : dmaActive (dmaAt s u d) with
  | false => exact abortAll_idle l u cause s d hactive
  | true =>
    have hstopped := (abortAll_stopped l u cause s (.inr ⟨h, hactive⟩)).1
    rw [dmaActive, hstopped]
    decide

theorem mem_readoutChannels {d : DmaId} : d ∈ ([0, 1, 2, 3] : List DmaId) ↔ d.val < 4 := by
  revert d
  decide

theorem dmaAt_captureIdle (u : UnitId) (d : DmaId) : dmaAt (captureIdle s) u d = dmaAt s u d := by
  rw [dmaAt, dmaAt, (captureIdle_only s).part .dma (by decide)]

theorem readoutsEnded_inactive (hlost : s.capture.mode ≠ .lost) {d : DmaId} (hd : d.val < 4) :
    dmaActive (dmaAt (readoutsEnded s) (viewUnit s) d) = false := by
  rw [readoutsEnded, if_neg hlost]
  exact abortAll_inactive _ _ _ (mem_readoutChannels.2 hd)

theorem dmaAt_readoutsEnded_other {d : DmaId} (hd : 4 ≤ d.val) : dmaAt (readoutsEnded s) (viewUnit s) d = dmaAt s (viewUnit s) d := by
  unfold readoutsEnded
  split
  · rfl
  · exact abortAll_notMem _ _ _ _ fun hmem => Nat.not_lt.2 hd (mem_readoutChannels.1 hmem)

end

/-! ## Writes to the ring -/

/-- The parts that a write to the ring may change in any state: a fault of a unit that is not active starts its repair. -/
abbrev ringFaultParts : List StatePart := .counts :: faultParts

theorem memoryFault_only (s : State) (u : UnitId) : Only ringFaultParts s (memoryFault s u) :=
  ((Only.refl ringFaultParts s).step (raiseEmcyOf_only s u 0x5012 (kDram 0x10) 0)).step (reportUnitFault_only _ u 11)

theorem ringWrite_only (u : UnitId) (s : State) (v : Nat) (l : List (BitVec 8)) : Only ringFaultParts s (ringWrite u s v l) := by
  induction l generalizing s v with
  | nil => exact .refl ..
  | cons b t ih =>
    rw [ringWrite]
    split
    next k _ => exact ((Only.refl ringFaultParts s).step (noteFault_only s u 9 v k true)).step (memoryFault_only ..)
    next a _ => exact ((Only.refl ringFaultParts s).step (setDram_only s u fun d => putByte d a b)).step (ih ..)

theorem ringStore_only (s : State) (u : UnitId) (v : Nat) (l : List (BitVec 8)) : Only ringFaultParts s (ringStore s u v l) := by
  unfold ringStore
  cases (translate s u 9 v true).toOption with
  | none => exact ringWrite_only ..
  | some a => exact ((Only.refl ringFaultParts s).step (touchBytes_only s u a l.length)).step (ringWrite_only ..)

/-- An address that no byte of a ring write at `v` reaches. -/
def OutsideRing (s : State) (u : UnitId) (v n a : Nat) : Prop := ∀ i, i < n → translate s u 9 (v + i) true ≠ .ok a

theorem ringWrite_bytes {s x : State} {u : UnitId} {v : Nat} (l : List (BitVec 8)) (hactive : x.relay.active = some u) (hatu : x.atu = s.atu) :
    BytesKept u (OutsideRing s u v l.length) x (ringWrite u x v l) := by
  induction l generalizing x v with
  | nil => exact .refl ..
  | cons b t ih =>
    rw [ringWrite]
    split
    next k _ =>
      have hnote := noteFault_only x u 9 v k true
      have hrelay : (noteFault x u 9 v k true).relay.active = some u := (congrArg RelayState.active (hnote.part .relay (by decide))).trans hactive
      exact .of_dram (((memoryFault_active hrelay).1.part .dram (by decide)).trans (hnote.part .dram (by decide)))
    next a ha =>
      have hput : BytesKept u (OutsideRing s u v (b :: t).length) x (setDram x u fun d => putBytes d a [b]) := by
        refine .put x u fun c hc => ?_
        have hne : c ≠ a := fun hca => hc 0 (Nat.succ_pos _) (by rw [hca, translate, ← hatu]; exact ha)
        rw [List.length_singleton]
        omega
      refine hput.trans ⟨fun c hc => ?_, ?_⟩
      · refine (ih (x := setDram x u fun d => putByte d a b) (v := v + 1) hactive hatu).byte c fun i hi => ?_
        rw [Nat.add_assoc, Nat.add_comm 1 i]
        exact hc (i + 1) (Nat.succ_lt_succ hi)
      · exact (ih (x := setDram x u fun d => putByte d a b) (v := v + 1) hactive hatu).other

theorem ringStore_bytes {s : State} {u : UnitId} {v : Nat} (l : List (BitVec 8)) (hactive : s.relay.active = some u) :
    BytesKept u (OutsideRing s u v l.length) s (ringStore s u v l) := by
  unfold ringStore
  cases (translate s u 9 v true).toOption with
  | none => exact ringWrite_bytes l hactive rfl
  | some a =>
    have htouch := touchBytes_only s u a l.length
    exact (BytesKept.touch s u _ a l.length).trans (ringWrite_bytes l ((congrArg RelayState.active (htouch.part .relay (by decide))).trans hactive)
      (htouch.part .atu (by decide)))

/-! ## The trigger picture -/

theorem slotHeader_length (s : State) (w : RingSlot) : (slotHeader s w).length = 64 := by
  simp only [slotHeader, List.length_append, List.length_drop, leBytes_length]

/-- An address that no header of the ring's slots reaches. -/
def OutsideHeaders (s : State) (a : Nat) : Prop :=
  ∀ r ∈ s.capture.slots, ∀ i, i < 64 → translate s (viewUnit s) 9 (r.slot * s.capture.slotBytes + i) true ≠ .ok a

section
variable {s : State}

theorem markTrigger_only (s : State) (picture : Nat) : Only ringFaultParts s (markTrigger s picture) := by
  unfold markTrigger
  split
  · exact ringStore_only ..
  · exact .refl ..

theorem viewUnit_active (h : s.relay.active.isSome = true) : s.relay.active = some (viewUnit s) := by
  obtain ⟨u, hu⟩ := Option.isSome_iff_exists.1 h
  rw [viewUnit, hu]
  rfl

theorem markTrigger_active (picture : Nat) (h : s.relay.active.isSome = true) :
    BytesKept (viewUnit s) (OutsideHeaders s) s (markTrigger s picture) ∧
      Only [.regs, .overflow, .emcy, .log, .relay, .dram, .counts] s (markTrigger s picture) := by
  unfold markTrigger
  split
  next r hr =>
    have hmem := List.mem_of_find?_eq_some hr
    obtain ⟨hbyte, hother⟩ := ringStore_bytes (v := r.slot * s.capture.slotBytes) (slotHeader s r) (viewUnit_active h)
    refine ⟨⟨fun a ha => hbyte a fun i hi => ?_, hother⟩, (ringStore_active _ _ _ _ (viewUnit_active h)).1⟩
    rw [slotHeader_length] at hi
    exact ha r hmem i hi
  next => exact ⟨.refl .., .refl ..⟩

theorem keepBefore_only (s : State) : Only [.regs, .capture] s (keepBefore s) := by
  have hset : ∀ c, Only [.regs, .capture] s { s with capture := c } := fun c => .of_eq rfl
  exact .ite (fun _ => (hset _).step (setFlag_only ..)) fun _ => hset _

theorem captureHeld_only (s : State) (cut : Bool) : Only [.regs, .capture] s (captureHeld s cut) := by
  have hset : ∀ c, Only [.regs, .capture] s { s with capture := c } := fun c => .of_eq rfl
  have hflag : ∀ c : CaptureState, Only [.regs, .capture] s (if cut || s.capture.partialHeld then setFlag { s with capture := c } (kCapture 8) 31
      else { s with capture := c }) := fun c => .ite (fun _ => (hset c).step (setFlag_only ..)) fun _ => hset c
  exact (hflag _).step (reportHeld_only _)

/-- The trigger picture is named, and its header written again. -/
def triggerNamed (s : State) (picture done : Nat) : State :=
  markTrigger { s with capture := { s.capture with trigPicture := picture, awaiting := false, due := s.capture.q - done } } picture

/-- The pictures before the trigger are those asked for. -/
def triggerKept (s : State) (picture done : Nat) : State := keepBefore (regPut (triggerNamed s picture done) (kCapture 0x0B) picture)

theorem setTriggerPicture_eq (s : State) (picture done : Nat) : setTriggerPicture s picture done =
    if s.capture.q ≤ done then captureHeld (triggerKept s picture done) false else reportHeld (triggerKept s picture done) := rfl

theorem triggerNamed_only (s : State) (picture done : Nat) : Only (.capture :: ringFaultParts) s (triggerNamed s picture done) := by
  have hset : Only (.capture :: ringFaultParts) s
      { s with capture := { s.capture with trigPicture := picture, awaiting := false, due := s.capture.q - done } } := .of_eq rfl
  exact hset.step (markTrigger_only ..)

theorem triggerNamed_capture (s : State) (picture done : Nat) : (triggerNamed s picture done).capture =
    { s.capture with trigPicture := picture, awaiting := false, due := s.capture.q - done } :=
  (markTrigger_only { s with capture := { s.capture with trigPicture := picture, awaiting := false, due := s.capture.q - done } } picture).part
    .capture (by decide)

/-- The trigger's time and the time that is pending are as before. -/
structure TimesKept (c c' : CaptureState) : Prop where
  trigTb0 : c'.trigTb0 = c.trigTb0
  timePending : c'.timePending = c.timePending

theorem TimesKept.trans {c d e : CaptureState} (h : TimesKept c d) (h' : TimesKept d e) : TimesKept c e :=
  ⟨h'.trigTb0.trans h.trigTb0, h'.timePending.trans h.timePending⟩

theorem keepBefore_capture (s : State) : (keepBefore s).capture.mode = s.capture.mode ∧ TimesKept s.capture (keepBefore s).capture := by
  unfold keepBefore
  dsimp only
  split <;> exact ⟨rfl, rfl, rfl⟩

theorem triggerKept_capture (s : State) (picture done : Nat) :
    (triggerKept s picture done).capture.mode = s.capture.mode ∧ TimesKept s.capture (triggerKept s picture done).capture := by
  have hnamed : (regPut (triggerNamed s picture done) (kCapture 0x0B) picture).capture = _ := triggerNamed_capture s picture done
  obtain ⟨hmode, htime⟩ := keepBefore_capture (regPut (triggerNamed s picture done) (kCapture 0x0B) picture)
  rw [hnamed] at hmode htime
  exact ⟨hmode, htime.trigTb0, htime.timePending⟩

theorem captureHeld_capture (s : State) (cut : Bool) : (captureHeld s cut).capture.mode = .held ∧ TimesKept s.capture (captureHeld s cut).capture := by
  unfold captureHeld
  dsimp only
  split <;> exact ⟨rfl, rfl, rfl⟩

/-- The trigger picture leaves the capture collecting, or, where it is the last one asked for, held. -/
theorem setTriggerPicture_capture (s : State) (picture done : Nat) :
    (setTriggerPicture s picture done).capture.mode = (if s.capture.q ≤ done then .held else s.capture.mode) ∧
      TimesKept s.capture (setTriggerPicture s picture done).capture := by
  obtain ⟨hmode, htime⟩ := triggerKept_capture s picture done
  obtain ⟨hheld, hheldTime⟩ := captureHeld_capture (triggerKept s picture done) false
  rw [setTriggerPicture_eq]
  split
  · exact ⟨hheld, htime.trans hheldTime⟩
  · exact ⟨hmode, htime.trigTb0, htime.timePending⟩

theorem setTriggerPicture_after (s : State) (picture done : Nat) :
    Only [.regs, .capture] (triggerNamed s picture done) (setTriggerPicture s picture done) := by
  have hkept : Only [.regs, .capture] (triggerNamed s picture done) (triggerKept s picture done) :=
    ((Only.refl _ _).step (regPut_only _ (kCapture 0x0B) picture)).step (keepBefore_only _)
  rw [setTriggerPicture_eq]
  exact .ite (fun _ => hkept.step (captureHeld_only ..)) fun _ => hkept.step (reportHeld_only _)

theorem setTriggerPicture_active (picture done : Nat) (h : s.relay.active.isSome = true) :
    BytesKept (viewUnit s) (OutsideHeaders s) s (setTriggerPicture s picture done) ∧
      Only [.regs, .overflow, .emcy, .log, .relay, .dram, .counts, .capture] s (setTriggerPicture s picture done) := by
  have hafter := setTriggerPicture_after s picture done
  obtain ⟨hbytes, honly⟩ := markTrigger_active
    (s := { s with capture := { s.capture with trigPicture := picture, awaiting := false, due := s.capture.q - done } }) picture h
  have hset : Only [.regs, .overflow, .emcy, .log, .relay, .dram, .counts, .capture] s
      { s with capture := { s.capture with trigPicture := picture, awaiting := false, due := s.capture.q - done } } := .of_eq rfl
  exact ⟨BytesKept.trans (t := triggerNamed s picture done) ⟨hbytes.byte, hbytes.other⟩ (.of_dram (hafter.part .dram (by decide))),
    (hset.step honly).step hafter⟩

end

/-! ## The trigger -/

/-- An armed capture collects from its trigger's time on. -/
def triggerBegun (s : State) (stamp : Nat) : State :=
  { regPut s (kCapture 0x0C) (timeValue stamp) with capture := { s.capture with
    mode := .collecting
    p := applied s (kCapture 2)
    q := applied s (kCapture 3)
    due := applied s (kCapture 3)
    trigTb0 := stamp
    partialHeld := false
    awaiting := true } }

/-- The last picture stored at the trigger's time. -/
def triggerPicture (s : State) (stamp : Nat) : Option RingSlot :=
  if s.lap.dropped then none else ((s.capture.slots ++ s.capture.writing.toList).filter fun r => decide (r.tb0 ≤ stamp)).getLast?

section
variable {s : State}

theorem takeTrigger_armed (stamp : Nat) (h : s.capture.mode = .armed) : takeTrigger s stamp =
    (triggerPicture s stamp).elim (triggerBegun s stamp) fun r =>
      setTriggerPicture (triggerBegun s stamp) r.picture (if r.complete then 1 else 0) := by
  unfold takeTrigger triggerPicture
  rw [if_pos h]
  dsimp only
  split
  · rfl
  · split
    next h => rw [h]; rfl
    next h => rw [h]; rfl

theorem takeTrigger_ignored (stamp : Nat) (h : s.capture.mode ≠ .armed) : takeTrigger s stamp = bump s (kCapture 0x0E) := if_neg h

theorem triggerBegun_only (s : State) (stamp : Nat) : Only [.regs, .capture] s (triggerBegun s stamp) :=
  ((Only.refl _ s).step (regPut_only s (kCapture 0x0C) (timeValue stamp))).step (l' := [.capture]) (.of_eq rfl)

/-- The capture of a taken trigger: held only where at most one picture is asked for from the trigger on. -/
theorem takeTrigger_capture (stamp : Nat) (h : s.capture.mode = .armed) :
    ((takeTrigger s stamp).capture.mode = .collecting ∨ (takeTrigger s stamp).capture.mode = .held) ∧
    (2 ≤ applied s (kCapture 3) → (takeTrigger s stamp).capture.mode = .collecting) ∧ (takeTrigger s stamp).capture.trigTb0 = stamp := by
  rw [takeTrigger_armed stamp h]
  cases triggerPicture s stamp with
  | none => exact ⟨.inl rfl, fun _ => rfl, rfl⟩
  | some r =>
    have hone : (if r.complete then 1 else 0) ≤ 1 := by split <;> decide
    rw [Option.elim]
    generalize (if r.complete then 1 else 0) = done at hone
    obtain ⟨hmode, htime⟩ := setTriggerPicture_capture (triggerBegun s stamp) r.picture done
    have hq : (triggerBegun s stamp).capture.q = applied s (kCapture 3) := rfl
    rw [hq] at hmode
    refine ⟨?_, fun htwo => ?_, htime.trigTb0⟩
    · rw [hmode]
      split
      · exact .inr rfl
      · exact .inl rfl
    · rw [hmode, if_neg (by omega)]
      rfl

theorem takeTrigger_timePending (s : State) (stamp : Nat) : (takeTrigger s stamp).capture.timePending = s.capture.timePending := by
  by_cases h : s.capture.mode = .armed
  · rw [takeTrigger_armed stamp h]
    cases triggerPicture s stamp with
    | none => rfl
    | some r => exact (setTriggerPicture_capture (triggerBegun s stamp) r.picture _).2.timePending
  · rw [takeTrigger_ignored _ h, (bump_only ..).part .capture (by decide)]

/-- The parts that a trigger may change in any state. -/
theorem takeTrigger_only (s : State) (stamp : Nat) : Only (.capture :: ringFaultParts) s (takeTrigger s stamp) := by
  by_cases h : s.capture.mode = .armed
  · have hbegun : Only (.capture :: ringFaultParts) s (triggerBegun s stamp) := (triggerBegun_only s stamp).mono (by decide)
    rw [takeTrigger_armed stamp h]
    cases triggerPicture s stamp with
    | none => exact hbegun
    | some r => exact (hbegun.step (triggerNamed_only _ r.picture _)).step (setTriggerPicture_after _ r.picture _)
  · rw [takeTrigger_ignored _ h]
    exact (bump_only ..).mono (by decide)

theorem takeTrigger_taken (s : State) : TriggerTaken s (takeTrigger s s.time.tb0) := by
  refine ⟨takeTrigger_capture s.time.tb0, fun h => ?_⟩
  have hcap : (bump s (kCapture 0x0E)).capture = s.capture := (bump_only ..).part .capture (by decide)
  rw [takeTrigger_ignored _ h, hcap]
  exact ⟨rfl, rfl, fun hwf hlt => regGet_bump hwf hlt (by decide)⟩

theorem takeTrigger_dram (stamp : Nat) (h : s.capture.mode ≠ .armed) : (takeTrigger s stamp).dram = s.dram := by
  rw [takeTrigger_ignored _ h]
  exact (bump_only ..).part .dram (by decide)

/-- The parts that a trigger taken by an active unit may change. -/
abbrev triggerParts : List StatePart := [.regs, .overflow, .emcy, .log, .relay, .dram, .counts, .capture]

theorem takeTrigger_active (stamp : Nat) (h : s.relay.active.isSome = true ∨ s.capture.mode ≠ .armed) :
    BytesKept (viewUnit s) (OutsideHeaders s) s (takeTrigger s stamp) ∧ Only triggerParts s (takeTrigger s stamp) := by
  by_cases harmed : s.capture.mode = .armed
  · have hactive := h.resolve_right fun hne => hne harmed
    have hbegun := triggerBegun_only s stamp
    have hparts : Only triggerParts s (triggerBegun s stamp) := hbegun.mono (by decide)
    rw [takeTrigger_armed stamp harmed]
    cases triggerPicture s stamp with
    | none => exact ⟨.of_dram rfl, hparts⟩
    | some r =>
      obtain ⟨hbytes, honly⟩ := setTriggerPicture_active (s := triggerBegun s stamp) r.picture (if r.complete then 1 else 0) hactive
      exact ⟨⟨hbytes.byte, hbytes.other⟩, hparts.step honly⟩
  · rw [takeTrigger_ignored _ harmed]
    exact ⟨.of_dram ((bump_only ..).part .dram (by decide)), (bump_only ..).mono (by decide)⟩

theorem BytesKept.headers {t : State} (h : BytesKept (viewUnit s) (OutsideHeaders s) s t) : OnlySlotHeaders s t := ⟨h.other, h.byte⟩

/-- The trigger's effect in a state that differs in other parts only. -/
theorem TriggerTaken.of_parts {x t t' : State} (h : TriggerTaken x t) (hcap : x.capture.mode = s.capture.mode ∧ x.capture.slots = s.capture.slots)
    (happlied : x.dict.applied = s.dict.applied) (htime : x.time = s.time) (hregs : x.regs = s.regs) (ht : t'.capture = t.capture)
    (htrig : regGet t' (kCapture 0x0E) = regGet t (kCapture 0x0E)) : TriggerTaken s t' := by
  obtain ⟨hmode, hslots⟩ := hcap
  have hap : applied x (kCapture 3) = applied s (kCapture 3) := by rw [applied, happlied]; rfl
  have hreg : regGet x (kCapture 0x0E) = regGet s (kCapture 0x0E) := by rw [regGet, hregs]; rfl
  unfold TriggerTaken at h ⊢
  rw [ht, htrig, ← hmode, ← hslots, ← hap, ← hreg, ← htime, ← hregs]
  exact h

/-! ## The words stay canonical -/

/-- Words in canonical form stay so. -/
structure CanonStays (s t : State) : Prop where
  wf : assocWf defaultOf s.regs = true → assocWf defaultOf t.regs = true

namespace CanonStays

variable {s t r : State}

theorem refl (s : State) : CanonStays s s := ⟨id⟩

theorem trans (h : CanonStays s t) (h' : CanonStays t r) : CanonStays s r := ⟨fun hwf => h'.wf (h.wf hwf)⟩

theorem of_regs (h : t.regs = s.regs) : CanonStays s t := ⟨fun hwf => h ▸ hwf⟩

theorem of_flags {l : List Nat} (h : FlagsStay l s t) : CanonStays s t := ⟨h.wf⟩

theorem put (s : State) (k v : Nat) : CanonStays s (regPut s k v) := ⟨regPut_wf s k v⟩

theorem ite {p : Prop} [Decidable p] (ht : CanonStays s t) (hr : CanonStays s r) : CanonStays s (if p then t else r) := by
  split
  · exact ht
  · exact hr

theorem forEach {α : Type} {f : State → α → State} (hf : ∀ t a, CanonStays t (f t a)) (l : List α) (s : State) : CanonStays s (forEach l f s) := by
  induction l generalizing s with
  | nil => exact .refl s
  | cons a l ih => exact (hf s a).trans (ih (f s a))

end CanonStays

theorem activate1_canon (s : State) (u : UnitId) (ch : DramChan) (bank : Fin 16) (row : Nat) : CanonStays s (activate1 s u ch bank row) := by
  unfold activate1
  dsimp only
  split
  · exact ⟨fun hwf => regPut_wf _ _ _ hwf⟩
  · exact ⟨fun hwf => hwf⟩

theorem touchBytes_canon (s : State) (u : UnitId) (a n : Nat) : CanonStays s (touchBytes s u a n) :=
  .forEach (fun t b => by
    unfold touchBlock
    dsimp only
    exact (CanonStays.ite (.refl t) (activate1_canon ..)).trans (.of_regs rfl)) _ s

theorem noteFault_canon (s : State) (u : UnitId) (ctx : Fin 64) (v kind : Nat) (write : Bool) : CanonStays s (noteFault s u ctx v kind write) := by
  have hput : ∀ w, CanonStays s (regPut (bump s (kAtu 2)) (kAtu 3) w) := fun w => (CanonStays.of_flags (bump_flagsStay ..)).trans (.put ..)
  unfold noteFault
  exact .ite (.ite ((hput _).trans (.put ..)) (hput _)) (.refl s)

theorem ringWrite_canon (u : UnitId) (s : State) (v : Nat) (l : List (BitVec 8)) : CanonStays s (ringWrite u s v l) := by
  induction l generalizing s v with
  | nil => exact .refl s
  | cons b t ih =>
    rw [ringWrite]
    split
    next k _ =>
      exact ((noteFault_canon s u 9 v k true).trans (.of_flags (raiseEmcyOf_flagsStay ..))).trans (.of_flags (reportUnitFault_flagsStay ..))
    next a _ => exact ⟨(ih (setDram s u fun d => putByte d a b) (v + 1)).wf⟩

theorem markTrigger_canon (s : State) (picture : Nat) : CanonStays s (markTrigger s picture) := by
  unfold markTrigger
  split
  next r _ =>
    unfold ringStore
    cases (translate s (viewUnit s) 9 (r.slot * s.capture.slotBytes) true).toOption with
    | none => exact ringWrite_canon ..
    | some a => exact (touchBytes_canon ..).trans (ringWrite_canon ..)
  next => exact .refl s

theorem setTriggerPicture_canon (s : State) (picture done : Nat) : CanonStays s (setTriggerPicture s picture done) := by
  have hnamed : CanonStays s (triggerNamed s picture done) := ⟨(markTrigger_canon
    { s with capture := { s.capture with trigPicture := picture, awaiting := false, due := s.capture.q - done } } picture).wf⟩
  have hcut : ∀ x : State, CanonStays x (keepBefore x) := fun x => by
    unfold keepBefore
    dsimp only
    split
    · exact ⟨fun hwf => regPut_wf _ _ _ hwf⟩
    · exact ⟨fun hwf => hwf⟩
  have hkept : CanonStays s (triggerKept s picture done) := (hnamed.trans (.put ..)).trans (hcut _)
  have hheld : ∀ x : State, CanonStays x (captureHeld x false) := fun x => by
    unfold captureHeld
    dsimp only
    split
    · exact ⟨fun hwf => regPut_wf _ _ _ (regPut_wf _ _ _ hwf)⟩
    · exact ⟨fun hwf => regPut_wf _ _ _ hwf⟩
  rw [setTriggerPicture_eq]
  exact .ite (hkept.trans (hheld _)) (hkept.trans (.put ..))

theorem takeTrigger_canon (s : State) (stamp : Nat) : CanonStays s (takeTrigger s stamp) := by
  by_cases h : s.capture.mode = .armed
  · have hbegun : CanonStays s (triggerBegun s stamp) := (CanonStays.put s (kCapture 0x0C) (timeValue stamp)).trans (.of_regs rfl)
    rw [takeTrigger_armed stamp h]
    cases triggerPicture s stamp with
    | none => exact hbegun
    | some r => exact hbegun.trans (setTriggerPicture_canon ..)
  · rw [takeTrigger_ignored _ h]
    exact .of_flags (bump_flagsStay ..)

/-! ## The time written -/

/-- The trigger's time is written, pending where it has not passed. -/
def timeWritten (s : State) (v : Nat) : State :=
  { commitValue s (kCapture 5) v (unitPresent s .a) (unitPresent s .b) with
    capture := { s.capture with timePending := decide (tb0Value s < v) } }

theorem doTriggerTime_passed {v : Nat} (h : v ≠ 0 ∧ v ≤ tb0Value s) :
    doTriggerTime v s = .ok (setFlag (takeTrigger (timeWritten s v) s.time.tb0) (kCapture 8) 29) := if_pos h

theorem doTriggerTime_waits {v : Nat} (h : ¬ (v ≠ 0 ∧ v ≤ tb0Value s)) : doTriggerTime v s = .ok (timeWritten s v) := if_neg h

theorem timeWritten_only (s : State) (v : Nat) : Only [.dict, .capture] s (timeWritten s v) := .of_eq rfl

end

/-- A trigger's claims about the memory and the frame, whatever else the command changes. -/
theorem takeTrigger_settled {s x : State} {stamp : Nat} (hcap : x.capture.mode = s.capture.mode ∧ x.capture.slots = s.capture.slots ∧
    x.capture.slotBytes = s.capture.slotBytes) (hatu : x.atu = s.atu) (hdram : x.dram = s.dram) (hrelay : x.relay = s.relay) :
    (s.capture.mode ≠ .armed → (takeTrigger x stamp).dram = s.dram) ∧
    (s.relay.active.isSome = true ∨ s.capture.mode ≠ .armed → OnlySlotHeaders s (takeTrigger x stamp) ∧ Only triggerParts x (takeTrigger x stamp)) := by
  obtain ⟨hmode, hslots, hbytes⟩ := hcap
  refine ⟨fun h => (takeTrigger_dram stamp (hmode ▸ h)).trans hdram, fun h => ?_⟩
  have hview : viewUnit x = viewUnit s := congrArg (fun r : RelayState => r.active.getD .a) hrelay
  have hhead : OutsideHeaders x = OutsideHeaders s := by
    funext a
    unfold OutsideHeaders translate
    rw [hslots, hbytes, hatu, hview]
  obtain ⟨hkept, honly⟩ := takeTrigger_active (s := x) stamp (by rwa [hrelay, hmode])
  rw [hhead, hview] at hkept
  exact ⟨⟨hkept.other.trans (by rw [hdram]), fun a ha => (hkept.byte a ha).trans (by rw [hdram])⟩, honly⟩

theorem captureIdle_state (s : State) : (captureIdle s).capture.mode = .idle ∧ (captureIdle s).capture.slots = [] := ⟨rfl, rfl⟩

theorem armed_state (s : State) : (armed s).capture.mode = .armed ∧ (armed s).capture.slots = [] := ⟨rfl, rfl⟩

/-- R301: arm in IDLE with a channel running and a ring of pictures. -/
theorem arm_settled {k : Client} {s : State} (hs : Served s k 0x2900) (hmode : s.capture.mode = .idle) (hrun : anyChannelRunning s = true)
    (hcap : 0 < s.capture.capacity) :
    ∃ t, exec (.arm k) s = .next t ∧ answered t k = some .ack ∧ t.capture.mode = .armed ∧ t.capture.slots = [] ∧
      Only [.regs, .capture, .clients, .maint] s t := by
  have hexec := exec_acknowledged (exec_arm k s) hs (doArm_taken (s := touchClient s k) ⟨hmode, hrun, hcap⟩)
  have hstate := armed_state (touchClient s k)
  have honly := armed_only (touchClient s k)
  generalize armed (touchClient s k) = x at *
  refine ⟨answer x k .ack, hexec, answered_answer .., ?_, ?_, (((Only.refl _ s).step (touchClient_only s k)).step honly).step (answer_only _ k .ack)⟩
  · rw [answer_capture, hstate.1]
  · rw [answer_capture, hstate.2]

/-- R301: disarm while ARMED. -/
theorem disarm_settled {k : Client} {s : State} (hs : Served s k 0x2900) (hmode : s.capture.mode = .armed) :
    ∃ t, exec (.disarm k) s = .next t ∧ answered t k = some .ack ∧ t.capture.mode = .idle ∧ t.capture.slots = [] ∧
      Only [.regs, .capture, .clients, .maint] s t := by
  have hexec := exec_acknowledged (exec_disarm k s) hs (doDisarm_taken (s := touchClient s k) hmode)
  have hstate := captureIdle_state (touchClient s k)
  have honly := captureIdle_only (touchClient s k)
  generalize captureIdle (touchClient s k) = x at *
  refine ⟨answer x k .ack, hexec, answered_answer .., ?_, ?_, (((Only.refl _ s).step (touchClient_only s k)).step honly).step (answer_only _ k .ack)⟩
  · rw [answer_capture, hstate.1]
  · rw [answer_capture, hstate.2]

/-- R301: the release ends every running readout. -/
theorem captureRelease_settled (k : Client) (s : State) (hs : Served s k 0x2900)
    (h : s.capture.mode = .held ∨ s.capture.mode = .reading ∨ s.capture.mode = .lost) :
    ∃ t, exec (.release k) s = .next t ∧ answered t k = some .ack ∧ t.capture.mode = .idle ∧ t.capture.slots = [] ∧
      (s.capture.mode ≠ .lost → ∀ d : DmaId, d.val < 4 → dmaActive (dmaAt t (viewUnit s) d) = false) ∧
      (∀ d : DmaId, 4 ≤ d.val → dmaAt t (viewUnit s) d = dmaAt s (viewUnit s) d) ∧
      t = { s with regs := t.regs, overflow := t.overflow, disp := t.disp, dma := t.dma, capture := t.capture,
                   clients := t.clients, maint := t.maint } := by
  have hended : Only [.regs, .overflow, .disp, .dma, .capture, .clients, .maint] s (captureIdle (readoutsEnded (touchClient s k))) :=
    (((Only.refl _ s).step (touchClient_only s k)).step (readoutsEnded_only _)).step (captureIdle_only _)
  have hinactive : s.capture.mode ≠ .lost → ∀ d : DmaId, d.val < 4 →
      dmaActive (dmaAt (captureIdle (readoutsEnded (touchClient s k))) (viewUnit s) d) = false := fun hlost d hd => by
    rw [dmaAt_captureIdle]
    exact readoutsEnded_inactive (s := touchClient s k) hlost hd
  have hother : ∀ d : DmaId, 4 ≤ d.val →
      dmaAt (captureIdle (readoutsEnded (touchClient s k))) (viewUnit s) d = dmaAt s (viewUnit s) d := fun d hd => by
    rw [dmaAt_captureIdle]
    exact dmaAt_readoutsEnded_other (s := touchClient s k) hd
  have hstate := captureIdle_state (readoutsEnded (touchClient s k))
  have hrelease := exec_acknowledged (exec_release k s) hs (doRelease_taken (s := touchClient s k) h)
  generalize captureIdle (readoutsEnded (touchClient s k)) = x at *
  refine ⟨answer x k .ack, hrelease, answered_answer .., ?_, ?_, fun hlost d hd => ?_, fun d hd => ?_, (hended.step (answer_only _ k .ack)).eq⟩
  · rw [answer_capture, hstate.1]
  · rw [answer_capture, hstate.2]
  · rw [dmaAt, answer_dma]
    exact hinactive hlost d hd
  · rw [dmaAt, answer_dma]
    exact hother d hd

theorem tb0Value_touchClient (s : State) (k : Client) : tb0Value (touchClient s k) = tb0Value s := by
  rw [tb0Value, touchClient_time]
  rfl

/-- A capture with its pending time set: stated for any value, so that none is evaluated. -/
theorem pendingSet_state (c : CaptureState) (b : Bool) :
    ({ c with timePending := b }.mode = c.mode ∧ { c with timePending := b }.slots = c.slots ∧ { c with timePending := b }.slotBytes = c.slotBytes) ∧
      { c with timePending := b }.timePending = b := ⟨⟨rfl, rfl, rfl⟩, rfl⟩

theorem setCapture_dict (x : State) (c : CaptureState) : ({ x with capture := c } : State).dict = x.dict := rfl

/-- The time written is read back. -/
theorem cfg_timeWritten (s : State) (k : Client) (v : Nat) (hwf : assocWf defaultOf s.dict.master = true) :
    cfg (timeWritten (touchClient s k) v) (kCapture 5) = v := by
  have hdict : (timeWritten (touchClient s k) v).dict =
      (commitValue (touchClient s k) (kCapture 5) v (unitPresent (touchClient s k) .a) (unitPresent (touchClient s k) .b)).dict := setCapture_dict _ _
  have hcommit := cfg_commitValue_same (s := touchClient s k) (k := kCapture 5) v (unitPresent (touchClient s k) .a) (unitPresent (touchClient s k) .b)
    hwf (by decide)
  rw [cfg, written] at hcommit ⊢
  rw [hdict]
  exact hcommit

theorem timeWritten_capture (s : State) (v : Nat) : (timeWritten s v).capture = { s.capture with timePending := decide (tb0Value s < v) } := rfl

/-- What the trigger's time leaves: all but the time pending and the dictionary's value. -/
theorem timeWritten_state (s : State) (k : Client) (v : Nat) :
    (((timeWritten (touchClient s k) v).capture.mode = s.capture.mode ∧ (timeWritten (touchClient s k) v).capture.slots = s.capture.slots ∧
      (timeWritten (touchClient s k) v).capture.slotBytes = s.capture.slotBytes) ∧
    (timeWritten (touchClient s k) v).capture.timePending = decide (tb0Value s < v)) ∧ (timeWritten (touchClient s k) v).atu = s.atu ∧
    (timeWritten (touchClient s k) v).dram = s.dram ∧ (timeWritten (touchClient s k) v).relay = s.relay ∧
    (timeWritten (touchClient s k) v).dict.applied = s.dict.applied ∧ (timeWritten (touchClient s k) v).time = s.time ∧
    (timeWritten (touchClient s k) v).regs = s.regs := by
  refine ⟨?_, rfl, rfl, rfl, rfl, rfl, rfl⟩
  rw [timeWritten_capture, touchClient_capture, tb0Value_touchClient]
  exact pendingSet_state s.capture _

/-- R300: a trigger by command. -/
theorem triggerCommand_settled (k : Client) (s : State) (hs : Served s k 0x2900) :
    ∃ t, exec (.trigger k) s = .next t ∧ answered t k = some .ack ∧ TriggerTaken s t ∧
      (s.capture.mode ≠ .armed → t.dram = s.dram) ∧
      (s.relay.active.isSome = true ∨ s.capture.mode ≠ .armed →
        OnlySlotHeaders s t ∧
        t = { s with regs := t.regs, overflow := t.overflow, emcy := t.emcy, log := t.log, counts := t.counts, dram := t.dram,
                     relay := t.relay, capture := t.capture, clients := t.clients, maint := t.maint }) := by
  obtain ⟨hdram, hsettled⟩ := takeTrigger_settled (s := s) (x := touchClient s k) (stamp := s.time.tb0) ⟨rfl, rfl, rfl⟩ rfl rfl rfl
  have htaken := takeTrigger_taken (touchClient s k)
  have hexec : exec (.trigger k) s = .next (answer (takeTrigger (touchClient s k) s.time.tb0) k .ack) :=
    exec_acknowledged (exec_trigger k s) hs rfl
  rw [touchClient_time] at htaken
  generalize takeTrigger (touchClient s k) s.time.tb0 = y at *
  refine ⟨_, hexec, answered_answer .., htaken.of_parts ⟨rfl, rfl⟩ rfl rfl rfl rfl rfl, hdram, fun h => ?_⟩
  obtain ⟨hhead, honly⟩ := hsettled h
  exact ⟨hhead, ((((Only.refl [.regs, .overflow, .emcy, .log, .counts, .dram, .relay, .capture, .clients, .maint] s).step
    (touchClient_only s k)).step honly).step (answer_only _ k .ack)).eq⟩

/-- The time of an edge of a TRIG pin is stamped. -/
def edgeStamped (s : State) (n : Fin 4) : State := { s with pins := { s.pins with trigStamp := vmod s.pins.trigStamp n fun _ => s.time.tb0 } }

theorem execTrigPinEdge_taken {n : Fin 4} {falling : Bool} {s : State} (hon : (applied s (kCapture 4)).testBit n.val = true)
    (hedge : (applied s (kCapture 4)).testBit (4 + n.val) = falling) :
    execTrigPinEdge n falling s = .next (takeTrigger (edgeStamped s n) s.time.tb0) := if_pos ⟨hon, hedge⟩

/-- The time written has come. -/
def timeReached (s : State) : State := { s with capture := { s.capture with timePending := false } }

theorem execTriggerTimeReached_taken {s : State} (hpend : s.capture.timePending = true) (hreach : cfg s (kCapture 5) ≤ tb0Value s) :
    execTriggerTimeReached s = .next (takeTrigger (timeReached s) s.time.tb0) := if_pos ⟨hpend, hreach⟩

/-- R300: a trigger at the selected edge of an enabled pin. -/
theorem triggerEdge_settled (n : Fin 4) (falling : Bool) (s : State) (hon : (applied s (kCapture 4)).testBit n.val = true)
    (hedge : (applied s (kCapture 4)).testBit (4 + n.val) = falling) :
    ∃ t, exec (.trigPinEdge n falling) s = .next t ∧ TriggerTaken s t ∧ t.pins.trigStamp.get n = s.time.tb0 ∧
      (s.capture.mode ≠ .armed → t.dram = s.dram) ∧
      (s.relay.active.isSome = true ∨ s.capture.mode ≠ .armed →
        OnlySlotHeaders s t ∧
        t = { s with regs := t.regs, overflow := t.overflow, emcy := t.emcy, log := t.log, counts := t.counts, dram := t.dram,
                     relay := t.relay, capture := t.capture, pins := t.pins }) := by
  obtain ⟨hdram, hsettled⟩ := takeTrigger_settled (s := s) (x := edgeStamped s n) (stamp := s.time.tb0) ⟨rfl, rfl, rfl⟩ rfl rfl rfl
  have htaken : TriggerTaken (edgeStamped s n) (takeTrigger (edgeStamped s n) s.time.tb0) := takeTrigger_taken (edgeStamped s n)
  have hpins : (takeTrigger (edgeStamped s n) s.time.tb0).pins = (edgeStamped s n).pins := (takeTrigger_only ..).part .pins (by decide)
  have hexec := (exec_trigPinEdge ..).trans (execTrigPinEdge_taken hon hedge)
  have hstamp : Only [.pins] s (edgeStamped s n) := .of_eq rfl
  generalize takeTrigger (edgeStamped s n) s.time.tb0 = y at *
  refine ⟨_, hexec, htaken.of_parts ⟨rfl, rfl⟩ rfl rfl rfl rfl rfl, ?_, hdram, fun h => ?_⟩
  · rw [hpins]
    exact vmod_get_same _ _ fun _ => s.time.tb0
  · obtain ⟨hhead, honly⟩ := hsettled h
    exact ⟨hhead, (((Only.refl [.regs, .overflow, .emcy, .log, .counts, .dram, .relay, .capture, .pins] s).step hstamp).step honly).eq⟩

/-- R300: a trigger at the time written. -/
theorem triggerTime_settled (s : State) (hpend : s.capture.timePending = true) (hreach : cfg s (kCapture 5) ≤ tb0Value s) :
    ∃ t, exec .triggerTimeReached s = .next t ∧ t.capture.timePending = false ∧ TriggerTaken s t ∧
      (s.capture.mode ≠ .armed → t.dram = s.dram) ∧
      (s.relay.active.isSome = true ∨ s.capture.mode ≠ .armed →
        OnlySlotHeaders s t ∧
        t = { s with regs := t.regs, overflow := t.overflow, emcy := t.emcy, log := t.log, counts := t.counts, dram := t.dram,
                     relay := t.relay, capture := t.capture }) := by
  obtain ⟨hdram, hsettled⟩ := takeTrigger_settled (s := s) (x := timeReached s) (stamp := s.time.tb0) ⟨rfl, rfl, rfl⟩ rfl rfl rfl
  have htaken : TriggerTaken (timeReached s) (takeTrigger (timeReached s) s.time.tb0) := takeTrigger_taken (timeReached s)
  have hpending := takeTrigger_timePending (timeReached s) s.time.tb0
  have hexec := (exec_triggerTimeReached ..).trans (execTriggerTimeReached_taken hpend hreach)
  have hreached : Only [.capture] s (timeReached s) := .of_eq rfl
  generalize takeTrigger (timeReached s) s.time.tb0 = y at *
  refine ⟨_, hexec, hpending, htaken.of_parts ⟨rfl, rfl⟩ rfl rfl rfl rfl rfl, hdram, fun h => ?_⟩
  obtain ⟨hhead, honly⟩ := hsettled h
  exact ⟨hhead, (((Only.refl [.regs, .overflow, .emcy, .log, .counts, .dram, .relay, .capture] s).step hreached).step honly).eq⟩

/-- R300: a time that has passed triggers at its write. -/
theorem triggerTimeWrite_passed (k : Client) (v : BitVec 128) (s : State) (hs : Served s k 0x2900) (hpast : v.toNat ≠ 0 ∧ v.toNat ≤ tb0Value s) :
    ∃ t, exec (.triggerTimeWrite k v) s = .next t ∧ answered t k = some .ack ∧
      t.capture.timePending = decide (tb0Value s < v.toNat) ∧
      (assocWf defaultOf s.dict.master = true → cfg t (kCapture 5) = v.toNat) ∧
      (TriggerTaken s t ∧ (assocWf defaultOf s.regs = true → flag t (kCapture 8) 29 = true)) ∧
      (s.capture.mode ≠ .armed → t.dram = s.dram) ∧
      (s.relay.active.isSome = true ∨ s.capture.mode ≠ .armed →
        OnlySlotHeaders s t ∧
        Only [.dict, .regs, .overflow, .emcy, .log, .counts, .dram, .relay, .capture, .clients, .maint] s t) := by
  have hcfg := cfg_timeWritten s k v.toNat
  have hwritten := timeWritten_only (touchClient s k) v.toNat
  have hstate := timeWritten_state s k v.toNat
  have hexec := exec_acknowledged (exec_triggerTimeWrite k v s) hs (doTriggerTime_passed (s := touchClient s k) (by rwa [tb0Value_touchClient]))
  rw [touchClient_time] at hexec
  generalize timeWritten (touchClient s k) v.toNat = x at *
  obtain ⟨⟨hcap, hpend⟩, hatu, hdramx, hrelay, happlied, htime, hregs⟩ := hstate
  obtain ⟨hdram, hsettled⟩ := takeTrigger_settled (s := s) (x := x) (stamp := s.time.tb0) hcap hatu hdramx hrelay
  have htaken := takeTrigger_taken x
  rw [htime] at htaken
  have hpending := takeTrigger_timePending x s.time.tb0
  have hcanon := takeTrigger_canon x s.time.tb0
  have hdict := (takeTrigger_only x s.time.tb0).part .dict (by decide)
  generalize takeTrigger x s.time.tb0 = y at *
  refine ⟨answer (setFlag y (kCapture 8) 29) k .ack, hexec, answered_answer .., ?_, fun h => ?_,
    ⟨htaken.of_parts ⟨hcap.1, hcap.2.1⟩ happlied htime hregs ?_ ?_, fun h => ?_⟩, fun h => ?_, fun h => ?_⟩
  · rw [answer_capture, setFlag_capture, hpending, hpend]
  · rw [← hcfg h, cfg, cfg, written, written, answer_dict, setFlag_dict, hdict]
  · rw [answer_capture, setFlag_capture]
  · exact (regGet_answer ..).trans (regGet_regPut_other _ _ _ _ (by decide))
  · exact flag_setFlag_same (hcanon.wf (hregs ▸ h)) (by decide)
  · rw [answer_dram, setFlag_dram, hdram h]
  · obtain ⟨hhead, hparts⟩ := hsettled h
    refine ⟨⟨?_, fun a ha => ?_⟩, (((((Only.refl _ s).step (touchClient_only s k)).step hwritten).step hparts).step (setFlag_only ..)).step (answer_only _ k .ack)⟩
    · rw [answer_dram, setFlag_dram, hhead.1]
    · rw [answer_dram, setFlag_dram, hhead.2 a ha]

/-- A time that is not yet reached waits, one of 0 does nothing. -/
theorem triggerTimeWrite_waits (k : Client) (v : BitVec 128) (s : State) (hs : Served s k 0x2900) (hpast : ¬ (v.toNat ≠ 0 ∧ v.toNat ≤ tb0Value s)) :
    ∃ t, exec (.triggerTimeWrite k v) s = .next t ∧ answered t k = some .ack ∧
      t.capture.timePending = decide (tb0Value s < v.toNat) ∧
      (assocWf defaultOf s.dict.master = true → cfg t (kCapture 5) = v.toNat) ∧ t.regs = s.regs ∧ t.capture.mode = s.capture.mode ∧
      t.dram = s.dram ∧ Only [.dict, .capture, .clients, .maint] s t := by
  have hcfg := cfg_timeWritten s k v.toNat
  have hwritten := timeWritten_only (touchClient s k) v.toNat
  have hstate := timeWritten_state s k v.toNat
  have hexec := exec_acknowledged (exec_triggerTimeWrite k v s) hs (doTriggerTime_waits (s := touchClient s k) (by rwa [tb0Value_touchClient]))
  generalize timeWritten (touchClient s k) v.toNat = x at *
  obtain ⟨⟨hcap, hpend⟩, hatu, hdramx, hrelay, happlied, htime, hregs⟩ := hstate
  refine ⟨answer x k .ack, hexec, answered_answer .., ?_, fun h => ?_, ?_, ?_, ?_,
    (((Only.refl _ s).step (touchClient_only s k)).step hwritten).step (answer_only _ k .ack)⟩
  · rw [answer_capture, hpend]
  · rw [← hcfg h, cfg, cfg, written, written, answer_dict]
  · rw [answer_regs, hregs]
  · rw [answer_capture, hcap.1]
  · rw [answer_dram, hdramx]

theorem OnlySlotHeaders.of_dram {s t : State} (h : t.dram = s.dram) : OnlySlotHeaders s t := by
  unfold OnlySlotHeaders
  rw [h]
  exact ⟨rfl, fun _ _ => rfl⟩

/-- Settles O37: the commands by their states; each trigger through `takeTrigger_taken` and `takeTrigger_settled`. -/
theorem captureFollowsCommandsAndTriggers : Obligations.CaptureFollowsCommandsAndTriggers := by
  refine ⟨fun k s hs => ⟨fun hmode hrun hcap => ?_, fun h => ?_, fun h => ?_, fun h => ?_, captureRelease_settled k s hs, fun hheld hreading hlost => ?_⟩,
    triggerCommand_settled, fun n falling s => ⟨triggerEdge_settled n falling s, fun h => ?_⟩, fun s => ⟨triggerTime_settled s, fun h => ?_⟩,
    fun k v s hs => ?_⟩
  · obtain ⟨t, hexec, hack, harmed, hslots, honly⟩ := arm_settled hs hmode hrun hcap
    exact ⟨t, hexec, hack, harmed, hslots, honly.eq⟩
  · exact exec_refused (exec_arm k s) hs (doArm_refused (s := touchClient s k) h)
  · obtain ⟨t, hexec, hack, hidle, hslots, honly⟩ := disarm_settled hs h
    exact ⟨t, hexec, hack, hidle, hslots, honly.eq⟩
  · exact exec_refused (exec_disarm k s) hs (doDisarm_refused (s := touchClient s k) h)
  · exact exec_refused (exec_release k s) hs (doRelease_refused (s := touchClient s k) hheld hreading hlost)
  · exact (exec_trigPinEdge ..).trans (if_neg fun ⟨hon, hedge⟩ => h.elim (fun hoff => Bool.noConfusion (hon.symm.trans hoff)) fun hne => hne hedge)
  · exact (exec_triggerTimeReached ..).trans (if_neg fun ⟨hpend, hreach⟩ => h.elim (fun hoff => Bool.noConfusion (hpend.symm.trans hoff)) fun hlt =>
      Nat.not_le.2 hlt hreach)
  · have hzero : v.toNat ≠ 0 ↔ v ≠ 0 := not_congr ⟨fun h => BitVec.eq_of_toNat_eq h, fun h => congrArg BitVec.toNat h⟩
    by_cases hpast : v.toNat ≠ 0 ∧ v.toNat ≤ tb0Value s
    · obtain ⟨t, hexec, hack, hpend, hcfg, htaken, hdram, hparts⟩ := triggerTimeWrite_passed k v s hs hpast
      refine ⟨t, hexec, hack, hpend, hcfg, fun _ _ => htaken, fun h => ?_, hdram, fun h => ⟨(hparts h).1, (hparts h).2.eq⟩⟩
      rcases h with h | h
      · exact absurd h (hzero.1 hpast.1)
      · exact absurd h (Nat.not_lt.2 hpast.2)
    · obtain ⟨t, hexec, hack, hpend, hcfg, hregs, hmode, hdram, honly⟩ := triggerTimeWrite_waits k v s hs hpast
      exact ⟨t, hexec, hack, hpend, hcfg, fun h h' => absurd ⟨hzero.2 h, h'⟩ hpast, fun _ => ⟨hregs, hmode⟩, fun _ => hdram,
        fun _ => ⟨.of_dram hdram, (honly.mono (l' := [.dict, .regs, .overflow, .emcy, .log, .counts, .dram, .relay, .capture, .clients, .maint])
          (by decide)).eq⟩⟩

end Sys2Proof.Machine
end

section
/-! PROOF. Requests to DRAM: what a read and a write reach (11_dram.md R265 to R267, R276, R277, R280; 12_translation_dma.md R284). -/

namespace Sys2Proof.Machine

set_option Elab.async false

theorem exec_dramRequest (u : UnitId) (ch : DramChan) (waiting : List DramRequest) (s : State) :
    exec (.dramRequest u ch waiting) s = execDramRequest u ch waiting s := rfl

/-! ## Accesses -/

theorem setDram_cells_put (d : DramState) (a : Nat) (l : List (BitVec 8)) (hwf : assocWf unlistedByte d.mem = true)
    (h : ∀ i, (hi : i < l.length) → l[i] = dramByte d (a + i)) (c : Nat) : dramByte (putBytes d a l) c = dramByte d c := by
  by_cases hc : a ≤ c ∧ c < a + l.length
  · obtain ⟨i, rfl⟩ := Nat.exists_eq_add_of_le hc.1
    have hi : i < l.length := by omega
    rw [dramByte_putBytes_same l d hwf hi, h i hi]
  · exact dramByte_putBytes_other l d (by omega)

/-- A block that is written back as it reads stays as it was. -/
theorem writtenBack_byte (d : DramState) (a n : Nat) (hwf : assocWf unlistedByte d.mem = true) (c : Nat) :
    dramByte (putBytes d a (readBytes d a n)) c = dramByte d c :=
  setDram_cells_put d a _ hwf (fun i hi => by simp [readBytes]) c

/-- The access of a request: its rows open, and an engine task's status is good. -/
def accessed (s : State) (u : UnitId) (a : Nat) (r : DramRequest) : State :=
  match r.user with
  | .engineTask i => accessStatus (touchBytes s u a r.size) u i false
  | _ => touchBytes s u a r.size

/-- What a unit's memory and the parts outside an access keep. -/
structure AccessKept (u : UnitId) (l : List StatePart) (s t : State) : Prop where
  cells : CellsKept s t
  other : t.dram.get u.other = s.dram.get u.other
  frame : Only l s t

section
variable {s t : State} {u : UnitId}

theorem AccessKept.step {l l' : List StatePart} {r : State} (h : AccessKept u l s t) (h' : AccessKept u l' t r)
    (hl : (l'.all fun p => l.contains p) = true := by decide) : AccessKept u l s r :=
  ⟨h.cells.trans h'.cells, h'.other.trans h.other, h.frame.step h'.frame hl⟩

theorem AccessKept.of_only {l : List StatePart} (h : Only l s t) (hl : decide (StatePart.dram ∉ l) = true := by decide) : AccessKept u l s t := by
  have hdram : t.dram = s.dram := h.part .dram (of_decide_eq_true hl)
  exact ⟨.of_dram hdram, by rw [hdram], h⟩

theorem AccessKept.refl (u : UnitId) (l : List StatePart) (s : State) : AccessKept u l s s := ⟨.refl s, rfl, .refl l s⟩

theorem AccessKept.mono {l l' : List StatePart} (h : AccessKept u l s t) (hl : (l.all fun p => l'.contains p) = true := by decide) :
    AccessKept u l' s t := (AccessKept.refl u l' s).step h hl

theorem accessStatus_only (s : State) (u : UnitId) (i : Nat) (b : Bool) : Only [.disp] s (accessStatus s u i b) := .of_eq rfl

theorem touchBytes_access (s : State) (u : UnitId) (a n : Nat) : AccessKept u [.regs, .dram, .counts] s (touchBytes s u a n) :=
  ⟨touchBytes_cells s u a n, touchBytes_otherUnit .., touchBytes_only ..⟩

theorem accessed_access (s : State) (u : UnitId) (a : Nat) (r : DramRequest) : AccessKept u [.regs, .dram, .counts, .disp] s (accessed s u a r) := by
  have htouch : AccessKept u [.regs, .dram, .counts, .disp] s (touchBytes s u a r.size) := (touchBytes_access s u a r.size).mono
  unfold accessed
  split
  · exact htouch.step (.of_only (accessStatus_only ..))
  · exact htouch

/-- A request of a task, served: its status is as noted. -/
theorem findTask_accessStatus (s : State) (u : UnitId) (i : Nat) (b : Bool) {x : Task} (h : findTask (s.disp.get u) i = some x) :
    findTask ((accessStatus s u i b).disp.get u) i = some { x with failed := b } := by
  have hident : x.ident = i := by simpa using List.find?_some h
  have hsame : ∀ t : Task, ((if t.ident = i then { t with failed := b } else t).ident == i) = (t.ident == i) := fun t => by split <;> rfl
  rw [accessStatus, pair_mod_get, modTask, findTask, List.find?_map]
  simp only [Function.comp_def, hsame]
  rw [findTask] at h
  rw [h, Option.map_some, if_pos hident]

end

/-! ## What the ECC finds -/

section
variable (s : State) (u : UnitId) (a : Nat)

/-- The corrections counted and noted. -/
def correctionNoted (groups : Nat) : State :=
  logNoteLimited (if u = viewUnit s then countUnit s (kDram 0x0B) none groups
      else if a < segmentBytes then forEach (List.range groups) (fun x _ => bumpHalf x (key 0x2011 7) false) s else s)
    11 (kDram 0x0B) (dramChannel a)

theorem correctionNoted_only (groups : Nat) : Only [.regs, .overflow, .emcy, .log, .counts] s (correctionNoted s u a groups) := by
  have hhalf : Only [.regs, .overflow, .emcy, .log, .counts] s
      (if a < segmentBytes then forEach (List.range groups) (fun x _ => bumpHalf x (key 0x2011 7) false) s else s) :=
    .ite (fun _ => (forEach_only (fun x _ => bumpHalf_only ..) _ s).mono (by decide)) fun _ => .refl ..
  exact (Only.ite (fun _ => (countUnit_only ..).mono (by decide)) fun _ => hhalf).step (logNoteLimited_only ..)

/-- A corrected block is written back with the bytes it reads. -/
def writtenBack : State := setDram s u fun d => putBytes d (a / 64 * 64) (readBytes d (a / 64 * 64) 64)

theorem correctBlock_eq (groups : Nat) (newer : Bool) : correctBlock s u a groups newer =
    if newer then correctionNoted s u a groups else writtenBack (correctionNoted s u a groups) u a := rfl

end

/-- A read or a partial write whose block the ECC can correct leaves every byte. -/
structure BytesSame (u : UnitId) (l : List StatePart) (s t : State) : Prop where
  byte : ∀ c, dramByte (t.dram.get u) c = dramByte (s.dram.get u) c
  other : t.dram.get u.other = s.dram.get u.other
  frame : Only l s t

section
variable {s t : State} {u : UnitId} {l : List StatePart}

theorem AccessKept.bytes (h : AccessKept u l s t) : BytesSame u l s t := ⟨h.cells.byte u, h.other, h.frame⟩

theorem BytesSame.step {l' : List StatePart} {r : State} (h : BytesSame u l s t) (h' : BytesSame u l' t r)
    (hl : (l'.all fun p => l.contains p) = true := by decide) : BytesSame u l s r :=
  ⟨fun c => (h'.byte c).trans (h.byte c), h'.other.trans h.other, h.frame.step h'.frame hl⟩

theorem BytesSame.refl (u : UnitId) (l : List StatePart) (s : State) : BytesSame u l s s := ⟨fun _ => rfl, rfl, .refl l s⟩

theorem BytesSame.same (h : BytesSame u l s t) : DramSame s t := by
  have hunit : ∀ w, DramKept s t w := fun w => by
    rcases unit_eq_or_other u w with rfl | rfl
    · exact h.byte
    · exact fun c => by rw [h.other]
  exact ⟨hunit .a, hunit .b⟩

/-- The parts that a correction may change. -/
abbrev correctedParts : List StatePart := [.regs, .overflow, .emcy, .log, .counts, .dram]

theorem correctBlock_bytes (s : State) (u : UnitId) (a groups : Nat) (newer : Bool) (hwf : assocWf unlistedByte (s.dram.get u).mem = true) :
    BytesSame u correctedParts s (correctBlock s u a groups newer) := by
  have hnoted := correctionNoted_only s u a groups
  have hdram : (correctionNoted s u a groups).dram = s.dram := hnoted.part .dram (by decide)
  have hbase : BytesSame u correctedParts s (correctionNoted s u a groups) := ((AccessKept.of_only hnoted).mono).bytes
  rw [correctBlock_eq]
  split
  · exact hbase
  · refine hbase.step (l' := [.dram]) ⟨fun c => ?_, setDram_other .., setDram_only ..⟩
    rw [writtenBack, setDram_get]
    exact writtenBack_byte _ _ _ (by rw [hdram]; exact hwf) c

theorem correctBlock_newer (s : State) (u : UnitId) (a groups : Nat) : AccessKept u [.regs, .overflow, .emcy, .log, .counts] s (correctBlock s u a groups true) :=
  .of_only (correctionNoted_only ..)

theorem eccEffect_clean {r : DramRequest} (a : Nat) (newer : Bool) (h : r.ecc = .clean) : eccEffect s u a newer r = s := by
  unfold eccEffect
  rw [h]

theorem eccEffect_corrected {r : DramRequest} {n : Nat} (a : Nat) (newer : Bool) (h : r.ecc = .corrected n) :
    eccEffect s u a newer r = correctBlock s u a n newer := by
  unfold eccEffect
  rw [h]

theorem eccEffect_bytes {r : DramRequest} (a : Nat) (newer : Bool) (h : r.ecc ≠ .uncorrectable)
    (hwf : assocWf unlistedByte (s.dram.get u).mem = true) : BytesSame u correctedParts s (eccEffect s u a newer r) := by
  cases hecc : r.ecc with
  | clean =>
    rw [eccEffect_clean a newer hecc]
    exact .refl ..
  | corrected n =>
    rw [eccEffect_corrected a newer hecc]
    exact correctBlock_bytes s u a n newer hwf
  | uncorrectable => exact absurd hecc h

theorem eccEffect_newer {r : DramRequest} (a : Nat) (h : r.ecc ≠ .uncorrectable) :
    AccessKept u [.regs, .overflow, .emcy, .log, .counts] s (eccEffect s u a true r) := by
  cases hecc : r.ecc with
  | clean =>
    rw [eccEffect_clean a true hecc]
    exact .refl ..
  | corrected n =>
    rw [eccEffect_corrected a true hecc]
    exact correctBlock_newer s u a n
  | uncorrectable => exact absurd hecc h

theorem noteUncorrectable_only (s : State) (u : UnitId) (a : Nat) : Only [.regs, .counts] s (noteUncorrectable s u a) :=
  .ite (fun _ => ((((Only.refl _ s).step (countUnit_only s (kDram 0x0C) none 1)).step (regPut_only ..)).step (setFlag_only ..)).step
    (putField_only ..)) fun _ => .refl ..

theorem eccEffect_task {r : DramRequest} {i : Nat} (a : Nat) (newer : Bool) (h : r.ecc = .uncorrectable) (huser : r.user = .engineTask i) :
    eccEffect s u a newer r = accessStatus (noteUncorrectable s u a) u i true := by
  unfold eccEffect
  rw [h, huser]

/-- The rows of a window that the failed fetch leaves spoiled, in the active unit. -/
def fetchSpoiled (s : State) (u : UnitId) (a : Nat) (c : Chan) : State :=
  if decide (u = viewUnit s) = true then spoilRows (noteUncorrectable s u a) c else noteUncorrectable s u a

theorem fetchSpoiled_only (s : State) (u : UnitId) (a : Nat) (c : Chan) : Only [.regs, .counts, .streams] s (fetchSpoiled s u a c) := by
  have hnote : Only [.regs, .counts, .streams] s (noteUncorrectable s u a) := (noteUncorrectable_only s u a).mono (by decide)
  exact .ite (fun _ => hnote.step (l' := [.streams]) (.of_eq rfl)) fun _ => hnote

theorem eccEffect_window {r : DramRequest} {c : Chan} (a : Nat) (newer : Bool) (h : r.ecc = .uncorrectable) (huser : r.user = .windowFetch c) :
    eccEffect s u a newer r = memoryFault (fetchSpoiled s u a c) u := by
  unfold eccEffect
  rw [h, huser]
  rfl

theorem memoryFault_fault (h : s.relay.active = some u) : (memoryFault s u).relay.fault.isSome = true := by
  have hraise : (raiseEmcyOf s u 0x5012 (kDram 0x10) 0).relay = s.relay := (raiseEmcyOf_only ..).part .relay (by decide)
  rw [memoryFault, reportUnitFault_active (by rw [hraise]; exact h)]
  cases hfault : (raiseEmcyOf s u 0x5012 (kDram 0x10) 0).relay.fault with
  | none => rfl
  | some _ => rfl

end

/-! ## A request served -/

section
variable {s : State} {u : UnitId} {r : DramRequest} {a : Nat} {newer : Bool}

/-- The read part of a write: only a partial write meets the ECC. -/
def writeRead (s : State) (u : UnitId) (a : Nat) (r : DramRequest) : State :=
  if partialWrite a r.data.length then eccEffect (accessed s u a r) u a true r else accessed s u a r

theorem serveRequest_write (ha : translate s u r.ctx r.vaddr r.write = .ok a) (hw : r.write = true) :
    serveRequest s u newer r = setDram (writeRead s u a r) u fun d => putBytes d a r.data := by
  unfold serveRequest writeRead accessed
  rw [ha]
  exact if_pos hw

/-- A real-time read is sampled. -/
def readSampled (s x : State) (u : UnitId) (a : Nat) (r : DramRequest) : State :=
  if realTime s u r then monitorSample x u 5 (dramChannel a) (readLatency s u a r) else x

theorem readSampled_only (s x : State) (u : UnitId) (a : Nat) (r : DramRequest) : Only [.slots] x (readSampled s x u a r) :=
  .ite (fun _ => monitorSample_only ..) fun _ => .refl ..

theorem serveRequest_read (ha : translate s u r.ctx r.vaddr r.write = .ok a) (hw : r.write = false) :
    serveRequest s u newer r = readSampled s (eccEffect (accessed s u a r) u a newer r) u a r := by
  unfold serveRequest accessed readSampled
  rw [ha]
  exact if_neg (by rw [hw]; decide)

theorem writeRead_full (h : partialWrite a r.data.length = false) : writeRead s u a r = accessed s u a r := if_neg (by rw [h]; decide)

theorem writeRead_clean (h : r.ecc = .clean) : writeRead s u a r = accessed s u a r := by
  unfold writeRead
  rw [eccEffect_clean a true h]
  split <;> rfl

/-- The parts of a write: of one that reads no errors, and of one whose block is corrected. -/
theorem writeRead_kept (h : partialWrite a r.data.length = false ∨ r.ecc ≠ .uncorrectable) :
    AccessKept u [.regs, .overflow, .emcy, .log, .counts, .disp, .dram] s (writeRead s u a r) := by
  have hacc : AccessKept u [.regs, .overflow, .emcy, .log, .counts, .disp, .dram] s (accessed s u a r) := (accessed_access s u a r).mono
  unfold writeRead
  split
  next hpartial => exact hacc.step (eccEffect_newer a (h.resolve_left fun hfull => Bool.noConfusion (hfull.symm.trans hpartial)))
  next => exact hacc

/-- A write stores its bytes and no other. -/
theorem serveRequest_stores (ha : translate s u r.ctx r.vaddr r.write = .ok a) (hw : r.write = true)
    (h : partialWrite a r.data.length = false ∨ r.ecc ≠ .uncorrectable) (hwf : assocWf unlistedByte (s.dram.get u).mem = true) :
    (∀ i, (hi : i < r.data.length) → dramByte ((serveRequest s u newer r).dram.get u) (a + i) = r.data[i]) ∧
    (∀ c, c < a ∨ a + r.data.length ≤ c → dramByte ((serveRequest s u newer r).dram.get u) c = dramByte (s.dram.get u) c) ∧
    (serveRequest s u newer r).dram.get u.other = s.dram.get u.other ∧
    (partialWrite a r.data.length = false ∨ r.ecc = .clean → Only [.regs, .counts, .disp, .dram] s (serveRequest s u newer r)) ∧
    Only [.regs, .overflow, .emcy, .log, .counts, .disp, .dram] s (serveRequest s u newer r) := by
  have hread := writeRead_kept (s := s) (u := u) h
  have hmem : ((writeRead s u a r).dram.get u).mem = (s.dram.get u).mem := (hread.cells.cells u).mem
  rw [serveRequest_write ha hw, setDram_get, setDram_other]
  refine ⟨fun i hi => dramByte_putBytes_same r.data _ (by rw [hmem]; exact hwf) hi, fun c hc => (dramByte_putBytes_other r.data _ hc).trans (hread.cells.byte u c),
    hread.other, fun hclean => ?_, hread.frame.step (setDram_only ..)⟩
  have hacc : writeRead s u a r = accessed s u a r := hclean.elim writeRead_full writeRead_clean
  rw [hacc]
  exact (accessed_access s u a r).frame.mono (l' := [.regs, .counts, .disp, .dram]) (by decide) |>.step (setDram_only ..)

theorem accessed_task {i : Nat} {x : Task} (huser : r.user = .engineTask i) (hfind : findTask (s.disp.get u) i = some x) :
    findTask ((accessed s u a r).disp.get u) i = some { x with failed := false } := by
  have hdisp : (touchBytes s u a r.size).disp = s.disp := (touchBytes_only ..).part .disp (by decide)
  unfold accessed
  rw [huser]
  exact findTask_accessStatus _ _ _ _ (by rw [hdisp]; exact hfind)

/-- A read leaves every byte, also where the ECC corrects it. -/
theorem serveRequest_reads (ha : translate s u r.ctx r.vaddr r.write = .ok a) (hw : r.write = false) (h : r.ecc ≠ .uncorrectable)
    (hwf : assocWf unlistedByte (s.dram.get u).mem = true) :
    BytesSame u [.regs, .overflow, .emcy, .log, .counts, .disp, .dram, .slots] s (serveRequest s u newer r) ∧
    (serveRequest s u newer r).disp = (accessed s u a r).disp ∧
    (r.ecc = .clean → (serveRequest s u newer r).emcy = s.emcy ∧ (serveRequest s u newer r).log = s.log) := by
  have hacc := accessed_access s u a r
  have hmem : ((accessed s u a r).dram.get u).mem = (s.dram.get u).mem := (hacc.cells.cells u).mem
  have hecc := eccEffect_bytes (s := accessed s u a r) (u := u) a newer h (by rw [hmem]; exact hwf)
  have hsample := readSampled_only s (eccEffect (accessed s u a r) u a newer r) u a r
  rw [serveRequest_read ha hw]
  refine ⟨(((BytesSame.refl u _ s).step hacc.bytes).step hecc).step (AccessKept.of_only hsample).bytes,
    (hsample.part .disp (by decide)).trans (hecc.frame.part .disp (by decide)), fun hclean => ?_⟩
  rw [hsample.part .emcy (by decide), hsample.part .log (by decide), eccEffect_clean a newer hclean, hacc.frame.part .emcy (by decide),
    hacc.frame.part .log (by decide)]
  exact ⟨rfl, rfl⟩

/-- A task's read that the ECC cannot correct leaves its status failed. -/
theorem serveRequest_failedTask {i : Nat} {x : Task} (ha : translate s u r.ctx r.vaddr r.write = .ok a) (hw : r.write = false)
    (h : r.ecc = .uncorrectable) (huser : r.user = .engineTask i) (hfind : findTask (s.disp.get u) i = some x) :
    AccessKept u [.regs, .overflow, .counts, .disp, .dram] s (serveRequest s u newer r) ∧
    ∃ y, findTask ((serveRequest s u newer r).disp.get u) i = some y ∧ y.failed = true := by
  have hacc : AccessKept u [.regs, .overflow, .counts, .disp, .dram] s (accessed s u a r) := (accessed_access s u a r).mono
  have hnote := noteUncorrectable_only (accessed s u a r) u a
  have hplain : realTime s u r = false := by
    unfold realTime
    rw [huser]
  have hdisp : (noteUncorrectable (accessed s u a r) u a).disp = (accessed s u a r).disp := hnote.part .disp (by decide)
  rw [serveRequest_read ha hw, eccEffect_task a newer h huser, readSampled, if_neg (by rw [hplain]; decide)]
  exact ⟨(hacc.step (.of_only hnote)).step (.of_only (accessStatus_only ..)), _,
    findTask_accessStatus _ _ _ _ (by rw [hdisp]; exact accessed_task huser hfind), rfl⟩

/-- A window fetch that the ECC cannot correct is a fault of the active unit. -/
theorem serveRequest_failedFetch {c : Chan} (ha : translate s u r.ctx r.vaddr r.write = .ok a) (hw : r.write = false)
    (h : r.ecc = .uncorrectable) (huser : r.user = .windowFetch c) (hactive : s.relay.active = some u) :
    DramSame s (serveRequest s u newer r) ∧ (serveRequest s u newer r).relay.fault.isSome = true := by
  have hacc := accessed_access s u a r
  have hspoiled := fetchSpoiled_only (accessed s u a r) u a c
  have hrelay : (fetchSpoiled (accessed s u a r) u a c).relay = s.relay := (hspoiled.part .relay (by decide)).trans (hacc.frame.part .relay (by decide))
  have hfault : (memoryFault (fetchSpoiled (accessed s u a r) u a c) u).relay.fault.isSome = true := memoryFault_fault (by rw [hrelay]; exact hactive)
  have hparts := (memoryFault_active (s := fetchSpoiled (accessed s u a r) u a c) (u := u) (by rw [hrelay]; exact hactive)).1
  have hsample := readSampled_only s (memoryFault (fetchSpoiled (accessed s u a r) u a c) u) u a r
  rw [serveRequest_read ha hw, eccEffect_window a newer h huser]
  refine ⟨(((hacc.cells.trans (.of_only hspoiled)).trans (.of_only hparts)).trans (.of_only hsample)).same, ?_⟩
  rw [hsample.part .relay (by decide)]
  exact hfault

end

/-! ## The refresh and the debts of a DRAM under accesses -/

/-- The self-refresh state and the refresh debts are as before. -/
structure DebtsKept (d d' : DramState) : Prop where
  refresh : d'.refresh = d.refresh
  debt : ∀ c, (d'.chan.get c).debt = (d.chan.get c).debt

namespace DebtsKept

theorem refl (d : DramState) : DebtsKept d d := ⟨rfl, fun _ => rfl⟩

theorem trans {d e f : DramState} (h : DebtsKept d e) (h' : DebtsKept e f) : DebtsKept d f :=
  ⟨h'.refresh.trans h.refresh, fun c => (h'.debt c).trans (h.debt c)⟩

theorem channel (d : DramState) (ch : DramChan) {f : DramChannel → DramChannel} (h : ∀ x, (f x).debt = x.debt) : DebtsKept d (modChannel d ch f) := by
  refine ⟨rfl, fun c => ?_⟩
  by_cases hc : c = ch
  · rw [hc, modChannel_same, h]
  · rw [modChannel_other d f hc]

theorem putBytes (d : DramState) (a : Nat) (l : List (BitVec 8)) : DebtsKept d (putBytes d a l) := by
  induction l generalizing d a with
  | nil => exact .refl d
  | cons b l ih => exact (⟨rfl, fun _ => rfl⟩ : DebtsKept d (putByte d a b)).trans (ih ..)

end DebtsKept

theorem activate1_debts (s : State) (u : UnitId) (ch : DramChan) (bank : Fin 16) (row : Nat) :
    DebtsKept (s.dram.get u) ((activate1 s u ch bank row).dram.get u) := by
  have hset : ∀ f : DramChannel → DramChannel, (∀ x, (f x).debt = x.debt) →
      DebtsKept (s.dram.get u) ((setDram s u fun d => modChannel d ch f).dram.get u) := fun f hf => by
    rw [setDram_get]
    exact .channel _ _ hf
  unfold activate1
  dsimp only
  split
  · rw [(setFlag_only ..).part .dram (by decide), (countUnit_only ..).part .dram (by decide)]
    exact hset _ fun _ => rfl
  · exact hset _ fun _ => rfl

theorem touchBlock_debts (s : State) (u : UnitId) (a : Nat) : DebtsKept (s.dram.get u) ((touchBlock s u a).dram.get u) := by
  unfold touchBlock
  dsimp only
  rw [setDram_get]
  have hopen : DebtsKept (s.dram.get u) ((if rowOpen s u a then s else activate1 s u (channelOf a) (bankOf a) (dramRow a)).dram.get u) := by
    split
    · exact .refl _
    · exact activate1_debts ..
  refine hopen.trans (DebtsKept.trans (e := { (if rowOpen s u a then s else activate1 s u (channelOf a) (bankOf a) (dramRow a)).dram.get u with lastRequest := s.now })
    ⟨rfl, fun _ => rfl⟩ (.channel _ _ fun _ => rfl))

theorem touchBytes_debts (s : State) (u : UnitId) (a n : Nat) : DebtsKept (s.dram.get u) ((touchBytes s u a n).dram.get u) := by
  unfold touchBytes
  generalize blocksAt a n = l
  induction l generalizing s with
  | nil => exact .refl _
  | cons b l ih => exact (touchBlock_debts s u b).trans (ih (touchBlock s u b))

theorem accessed_debts (s : State) (u : UnitId) (a : Nat) (r : DramRequest) : DebtsKept (s.dram.get u) ((accessed s u a r).dram.get u) := by
  unfold accessed
  split
  · rw [(accessStatus_only ..).part .dram (by decide)]
    exact touchBytes_debts ..
  · exact touchBytes_debts ..

/-! ## The commands -/

section
variable {s v : State} {u : UnitId} {ch : DramChan} {waiting : List DramRequest} {r : DramRequest}

theorem serveHeld_early (h : (s.dram.get u).refresh ≠ .exiting ∨ s.now < (s.dram.get u).refreshAt) : serveHeld s u = s :=
  if_neg fun ⟨hexit, hdue⟩ => h.elim (fun hne => hne hexit) fun hlt => Nat.not_le.2 hlt hdue

theorem execDramRequest_active (hv : v = serveHeld s u) (hpick : pickRequest v u ch waiting = some r) (hactive : (v.dram.get u).refresh = .active) :
    execDramRequest u ch waiting s = .next (serveRequest v u (newerWrite v u waiting r) r) := by
  subst hv
  simp only [execDramRequest, hpick, hactive]

theorem execDramRequest_held (hv : serveHeld s u = s) (hpick : pickRequest s u ch waiting = some r)
    (h : (s.dram.get u).refresh = .inside ∨ (s.dram.get u).refresh = .exiting) : execDramRequest u ch waiting s = .next (holdRequest s u ch r) := by
  rcases h with h | h <;> simp only [execDramRequest, hv, hpick, h]

/-- An entry aborted: its refresh stays paid. -/
def entryAborted (s : State) (u : UnitId) : State :=
  setDram (if u = viewUnit s then countUnit s (kDram 0x12) none 1 else s) u fun x => { payDebt s.now x with refresh := .active, lastRequest := s.now }

theorem execDramRequest_entering (hv : serveHeld s u = s) (hpick : pickRequest s u ch waiting = some r) (h : (s.dram.get u).refresh = .entering) :
    execDramRequest u ch waiting s = .next (serveRequest (entryAborted s u) u (newerWrite s u waiting r) r) := by
  simp only [execDramRequest, hv, hpick, h]
  rfl

theorem execDramRequest_none (u : UnitId) (ch : DramChan) (s : State) : execDramRequest u ch [] s = .next (serveHeld s u) := rfl

theorem entryAborted_only (s : State) (u : UnitId) : Only [.counts, .dram] s (entryAborted s u) := by
  have hcount : Only [.counts, .dram] s (if u = viewUnit s then countUnit s (kDram 0x12) none 1 else s) :=
    .ite (fun _ => (countUnit_only ..).mono (by decide)) fun _ => .refl ..
  exact hcount.step (setDram_only ..)

theorem entryAborted_debts (s : State) (u : UnitId) : ((entryAborted s u).dram.get u).refresh = .active ∧
    ∀ c, (((entryAborted s u).dram.get u).chan.get c).debt = ((payDebt s.now (s.dram.get u)).chan.get c).debt := by
  have hdram : (if u = viewUnit s then countUnit s (kDram 0x12) none 1 else s).dram = s.dram :=
    (Only.ite (l := [.counts]) (fun _ => countUnit_only ..) fun _ => .refl ..).part .dram (by decide)
  rw [entryAborted, setDram_get, hdram]
  exact ⟨rfl, fun _ => rfl⟩

theorem holdRequest_state (s : State) (u : UnitId) (ch : DramChan) (r : DramRequest) :
    ((holdRequest s u ch r).dram.get u).held = (s.dram.get u).held ++ [⟨ch, r, s.now⟩] ∧ CellsKept s (holdRequest s u ch r) ∧
      Only [.counts, .dram] s (holdRequest s u ch r) := by
  have hset : CellsKept s (setDram s u fun x => { x with held := x.held ++ [⟨ch, r, s.now⟩] }) := .setDram s u ⟨rfl, rfl⟩
  have hget := setDram_get s u fun x => { x with held := x.held ++ [⟨ch, r, s.now⟩] }
  have honly : Only [.counts, .dram] s (setDram s u fun x => { x with held := x.held ++ [⟨ch, r, s.now⟩] }) := (setDram_only ..).mono (by decide)
  unfold holdRequest
  dsimp only
  split
  · have hcount := countUnit_only (setDram s u fun x => { x with held := x.held ++ [⟨ch, r, s.now⟩] }) (kDram 0x13) none 1
    rw [hcount.part .dram (by decide), hget]
    exact ⟨rfl, hset.trans (.of_only hcount), honly.step hcount⟩
  · rw [hget]
    exact ⟨rfl, hset, honly⟩

end

/-- Settles O30: a served request through `serveRequest`'s cases; one held, one that aborts the entry, none waiting. -/
theorem dramWritesStoreExactlyTheirBytes : Obligations.DramWritesStoreExactlyTheirBytes := by
  refine ⟨fun u ch waiting r a s v hv hpick ha hactive hwf => ?_, fun u ch waiting r s h hpick => ?_, fun u ch waiting r a s h hpick ha hw hfull => ?_,
    fun u s h => serveHeld_early h, fun u ch s => (exec_dramRequest ..).trans (execDramRequest_none ..)⟩
  · have hexec := (exec_dramRequest u ch waiting s).trans (execDramRequest_active hv hpick hactive)
    refine ⟨fun hw h => ?_, fun hw h => ?_, fun hw h => ⟨fun i x huser hfind => ?_, fun c huser hact => ?_⟩⟩
    · obtain ⟨hstored, hkept, hother, hclean, honly⟩ := serveRequest_stores (newer := newerWrite v u waiting r) ha hw h hwf
      exact ⟨_, hexec, hstored, hkept, hother, fun hc => (hclean hc).eq, honly.eq⟩
    · obtain ⟨hsame, hdisp, hclean⟩ := serveRequest_reads (newer := newerWrite v u waiting r) ha hw h hwf
      refine ⟨_, hexec, hsame.same, hsame.other, fun i x huser hfind => ?_, hclean, hsame.frame.eq⟩
      rw [hdisp]
      exact ⟨_, accessed_task huser hfind, rfl⟩
    · obtain ⟨hkept, hfailed⟩ := serveRequest_failedTask (newer := newerWrite v u waiting r) ha hw h huser hfind
      exact ⟨_, hexec, hkept.cells.same, hfailed, hkept.frame.eq⟩
    · obtain ⟨hsame, hfault⟩ := serveRequest_failedFetch (newer := newerWrite v u waiting r) ha hw h huser hact
      exact ⟨_, hexec, hsame, hfault⟩
  · have hv : serveHeld s u = s := serveHeld_early (h.imp (fun hin => by rw [hin]; decide) fun hex => hex.2)
    obtain ⟨hheld, hcells, honly⟩ := holdRequest_state s u ch r
    exact ⟨_, (exec_dramRequest ..).trans (execDramRequest_held hv hpick (h.imp_right fun hex => hex.1)), hheld, hcells.same, honly.eq⟩
  · have hv : serveHeld s u = s := serveHeld_early (.inl (by rw [h]; decide))
    have haborted := entryAborted_only s u
    obtain ⟨hrefresh, hdebt⟩ := entryAborted_debts s u
    have ha' : translate (entryAborted s u) u r.ctx r.vaddr r.write = .ok a := by
      rw [translate, haborted.part .atu (by decide)]
      exact ha
    have hserved := serveRequest_write (newer := newerWrite s u waiting r) ha' hw
    have hacc := accessed_access (entryAborted s u) u a r
    have hdebts := accessed_debts (entryAborted s u) u a r
    rw [writeRead_full hfull] at hserved
    refine ⟨_, ((exec_dramRequest ..).trans (execDramRequest_entering hv hpick h)).trans (congrArg _ hserved), ?_, fun c => ?_,
      ((haborted.mono (l' := [.regs, .counts, .disp, .dram]) (by decide)).step hacc.frame |>.step (setDram_only ..)).eq⟩
    · rw [setDram_get, (DebtsKept.putBytes ..).refresh, hdebts.refresh, hrefresh]
    · rw [setDram_get, (DebtsKept.putBytes ..).debt, hdebts.debt, hdebt]

end Sys2Proof.Machine
end

section
/-! PROOF. A DMA burst of one element (12_translation_dma.md R289, R291, R292). -/

namespace Sys2Proof.Machine

set_option Elab.async false

theorem exec_dmaBurst (u : UnitId) (d : DmaId) (found : List (Nat × EccResult)) (s : State) :
    exec (.dmaBurst u d found) s = execDmaBurst u d found s := rfl

/-! ## The blocks of an element -/

theorem nodup_eraseDups : ∀ l : List Int, l.eraseDups.Nodup
  | [] => by simp
  | a :: l => by
    rw [List.eraseDups_cons, List.nodup_cons, List.mem_eraseDups]
    exact ⟨by simp, nodup_eraseDups (l.filter fun b => !b == a)⟩
termination_by l => l.length
decreasing_by exact Nat.lt_succ_of_le (List.length_filter_le ..)

/-- An element of at most 64 bytes lies in two blocks. -/
theorem elemBlocks_length {base : Int} {n : Nat} (hn : n ≤ 64) : (([] ++ elemBlocks base n).eraseDups).length ≤ 2 := by
  refine (nodup_eraseDups _).length_le_of_subset (l₂ := [base / 64, base / 64 + 1]) fun b hb => ?_
  rw [List.mem_eraseDups, List.nil_append, elemBlocks, List.mem_eraseDups, List.mem_map] at hb
  obtain ⟨i, hi, rfl⟩ := hb
  rw [List.mem_range] at hi
  rw [List.mem_cons, List.mem_singleton]
  omega

/-! ## Reads -/

section
variable {s x : State} {u : UnitId}

theorem translateInt_congr (h : x.atu = s.atu) (ctx : Fin 64) (a : Int) (w : Bool) : translateInt x u ctx a w = translateInt s u ctx a w := by
  rw [translateInt, translateInt, translate, translate, h]

theorem homeByte_congr (hdram : ∀ a, dramByte (x.dram.get u) a = dramByte (s.dram.get u) a) (hbaton : x.baton = s.baton)
    (hstreams : x.streams = s.streams) (a : Nat) : homeByte x u a = homeByte s u a := by
  rw [homeByte, homeByte, hdram, hbaton, hstreams]

theorem touchBlock_access (s : State) (u : UnitId) (a : Nat) : AccessKept u [.regs, .dram, .counts] s (touchBlock s u a) :=
  ⟨touchBlock_cells s u a, touchBlock_otherUnit .., touchBlock_only ..⟩

theorem AccessKept.forEach {α : Type} {l : List StatePart} {f : State → α → State} (hf : ∀ t a, AccessKept u l t (f t a)) (xs : List α) (s : State) :
    AccessKept u l s (forEach xs f s) :=
  ⟨.forEach (fun t a => (hf t a).cells) xs s, by
    induction xs generalizing s with
    | nil => rfl
    | cons a xs ih => exact (ih (f s a)).trans (hf s a).other, forEach_only (fun t a => (hf t a).frame) xs s⟩

/-- The reads of a burst in which the ECC finds nothing. -/
theorem readBlocks_access (s : State) (u : UnitId) (ctx : Fin 64) (l : List Int) : AccessKept u [.regs, .dram, .counts] s (readBlocks s u ctx [] l) :=
  .forEach (fun t b => by
    dsimp only
    split
    · exact touchBlock_access ..
    · exact .refl ..) l s

theorem touchVirtual_access (s : State) (u : UnitId) (ctx : Fin 64) (base : Int) (n : Nat) (w : Bool) :
    AccessKept u [.regs, .dram, .counts] s (touchVirtual s u ctx base n w) :=
  .forEach (fun t b => by
    split
    · exact touchBlock_access ..
    · exact .refl ..) _ s

/-- An element whose bytes translate is read whole. -/
theorem readElem_ok {ctx : Fin 64} {base : Int} {n : Nat} {src : Nat → Nat} (hsrc : ∀ i, i < n → translateInt s u ctx (base + i) false = .ok (src i)) :
    ∀ fuel i, n ≤ i + fuel → readElem s u ctx base [] n fuel i = ((List.range' i (n - i)).map fun j => homeByte s u (src j), none)
  | 0, i, h => by
    rw [readElem, Nat.sub_eq_zero_of_le (by omega)]
    rfl
  | fuel + 1, i, h => by
    rw [readElem]
    split
    next hle =>
      rw [Nat.sub_eq_zero_of_le hle]
      rfl
    next hlt =>
      have hstep : n - i = n - (i + 1) + 1 := by omega
      rw [hsrc i (by omega), hstep, List.range'_succ, readElem_ok hsrc fuel (i + 1) (by omega)]
      rfl

theorem readElem_whole {ctx : Fin 64} {base : Int} {n : Nat} {src : Nat → Nat} (hsrc : ∀ i, i < n → translateInt s u ctx (base + i) false = .ok (src i)) :
    readElem s u ctx base [] n n 0 = ((List.range n).map fun j => homeByte s u (src j), none) := by
  rw [readElem_ok hsrc n 0 (by omega), List.range_eq_range', Nat.sub_zero]

/-! ## Writes -/

theorem writeElem_cons {ctx : Fin 64} {base : Int} {a : Nat} (b : BitVec 8) (l : List (BitVec 8)) (i : Nat)
    (h : translateInt s u ctx (base + i) true = .ok a) :
    writeElem u ctx base s (b :: l) i = writeElem u ctx base (setDram s u fun d => putByte d a b) l (i + 1) := by
  rw [writeElem, h]

/-- The bytes of an element that has been written from byte i on. -/
structure ElemWritten (u : UnitId) (dst : Nat → Nat) (l : List (BitVec 8)) (i : Nat) (s t : State) : Prop where
  written : ∀ j, (hj : j < l.length) → dramByte (t.dram.get u) (dst (i + j)) = l[j]
  kept : ∀ a, (∀ j, j < l.length → a ≠ dst (i + j)) → dramByte (t.dram.get u) a = dramByte (s.dram.get u) a
  other : t.dram.get u.other = s.dram.get u.other
  frame : Only [.dram] s t

/-- An element whose bytes translate to distinct addresses is written whole. -/
theorem writeElem_ok {ctx : Fin 64} {base : Int} {n : Nat} {dst : Nat → Nat} (l : List (BitVec 8)) {i : Nat} (hin : i + l.length ≤ n)
    (hdst : ∀ j, j < n → translateInt s u ctx (base + j) true = .ok (dst j)) (hinj : ∀ j k, j < n → k < n → dst j = dst k → j = k)
    (hwf : assocWf unlistedByte (s.dram.get u).mem = true) :
    ∃ t, writeElem u ctx base s l i = (t, i + l.length, none) ∧ ElemWritten u dst l i s t := by
  induction l generalizing s i with
  | nil => exact ⟨s, rfl, ⟨fun j hj => absurd hj (Nat.not_lt_zero j), fun _ _ => rfl, rfl, .refl ..⟩⟩
  | cons b l ih =>
    rw [List.length_cons] at hin
    have hget := setDram_get s u fun d => putByte d (dst i) b
    obtain ⟨t, ht, hwritten, hkept, hother, hframe⟩ := ih (s := setDram s u fun d => putByte d (dst i) b) (i := i + 1) (by omega)
      (fun j hj => (translateInt_congr rfl ctx _ true).trans (hdst j hj)) (by rw [hget]; exact putByte_wf _ _ _ hwf)
    rw [hget] at hkept
    refine ⟨t, ?_, fun j hj => ?_, fun a ha => ?_, hother.trans (setDram_other ..), ((setDram_only ..).step hframe)⟩
    · rw [writeElem_cons b l i (hdst i (by omega)), ht, List.length_cons]
      exact congrArg (fun m => (t, m, (none : Option ElemFault))) (by omega)
    · rw [List.length_cons] at hj
      cases j with
      | zero =>
        rw [Nat.add_zero, List.getElem_cons_zero, hkept (dst i) fun k hk heq => ?_, dramByte_putByte_same _ _ _ hwf]
        exact absurd (hinj i (i + 1 + k) (by omega) (by omega) heq) (by omega)
      | succ j =>
        rw [List.getElem_cons_succ, show i + (j + 1) = i + 1 + j by omega]
        exact hwritten j (by omega)
    · rw [hkept a fun k hk => by
        rw [show i + 1 + k = i + (k + 1) by omega]
        exact ha (k + 1) (Nat.succ_lt_succ hk)]
      exact dramByte_putByte_other _ b (ha 0 (Nat.succ_pos _))

end

/-! ## One element -/

theorem elemAddr_first (base : Nat) (step : Vector Int 3) : elemAddr base step zeroPos = base := by
  simp [elemAddr, zeroPos, vector_get_eq]

/-- The position after the only element. -/
theorem stepPos_only {x : Descriptor} (h : x.count = zeroPos) : stepPos x zeroPos = #v[0, 0, 1] := by
  unfold stepPos
  rw [h]
  rfl

theorem finishedPos_first {x : Descriptor} (h : x.count = zeroPos) : finishedPos x zeroPos = false := by
  unfold finishedPos
  rw [h]
  rfl

theorem finishedPos_after {x : Descriptor} (h : x.count = zeroPos) : finishedPos x #v[0, 0, 1] = true := by
  unfold finishedPos
  rw [h]
  rfl

theorem elemBytes_le {x : Descriptor} (h : descriptorInvalid x = false) : x.elemBytes ≤ 64 := by
  rw [descriptorInvalid, decide_eq_false_iff_not, not_or, not_or] at h
  omega

section
variable {s : State} {u : UnitId} {d : DmaId} {x : Descriptor}

/-- The blocks of an element have been read. -/
def blocksRead (s : State) (u : UnitId) (d : DmaId) (x : Descriptor) : State :=
  readBlocks s u (sourceContext d x) [] ((([] ++ elemBlocks (elemAddr x.srcAddr x.srcStep (dmaAt s u d).pos) x.elemBytes).eraseDups).filter
    fun i => !([] : List Int).contains i)

/-- A channel that has finished, or that does not run, moves nothing more. -/
theorem burstGo_ends {fuel : Nat} {blocks : List Int} {bytes : Nat} (hdesc : (dmaAt s u d).desc = some x)
    (h : (dmaAt s u d).mode ≠ .running ∨ finishedPos x (dmaAt s u d).pos = true) : burstGo u d [] (fuel + 1) blocks bytes s = s := by
  simp only [burstGo, hdesc, if_pos h]

/-- A burst moves its first element, of at most 64 bytes. -/
theorem burstGo_first {fuel : Nat} (hdesc : (dmaAt s u d).desc = some x) (hmode : (dmaAt s u d).mode = .running)
    (hpos : finishedPos x (dmaAt s u d).pos = false) (hvalid : descriptorInvalid x = false) :
    ∃ b, burstGo u d [] (fuel + 1) [] 0 s = burstGo u d [] fuel b (0 + x.elemBytes) (moveElem (blocksRead s u d x) u d x []) := by
  have hbytes := elemBytes_le hvalid
  have hblocks := elemBlocks_length (base := elemAddr x.srcAddr x.srcStep (dmaAt s u d).pos) hbytes
  have hruns : ¬ ((dmaAt s u d).mode ≠ .running ∨ finishedPos x (dmaAt s u d).pos = true) := by simp [hmode, hpos]
  have hfits : ¬ (16 < (([] ++ elemBlocks (elemAddr x.srcAddr x.srcStep (dmaAt s u d).pos) x.elemBytes).eraseDups).length ∨ 1024 < 0 + x.elemBytes) := by
    omega
  exact ⟨_, by simp only [burstGo, hdesc, if_neg hruns, if_neg hfits]; rfl⟩

theorem burstTurn_ready (h : burstTurn s u = some d) : burstReady (dmaAt s u d) = true :=
  List.find?_some (p := fun e => burstReady (dmaAt s u e)) h

theorem burstReady_running {y : Dma} (h : burstReady y = true) : y.mode = .running ∧ y.desc ≠ none := by
  rw [burstReady, Bool.and_eq_true, decide_eq_true_eq] at h
  refine ⟨h.1, fun hnone => ?_⟩
  rw [hnone] at h
  exact Bool.noConfusion h.2

/-- The turn is noted. -/
def turnNoted (s : State) (u : UnitId) (d : DmaId) : State := setDram s u fun x => { x with dmaLast := d.val }

theorem execDmaBurst_turn (h : burstTurn s u = some d) : execDmaBurst u d [] s = .next (burstGo u d [] 1024 [] 0 (turnNoted s u d)) := if_pos h

theorem turnNoted_access (s : State) (u : UnitId) (d : DmaId) : AccessKept u [.regs, .dram, .counts] s (turnNoted s u d) :=
  ⟨.setDram s u ⟨rfl, rfl⟩, setDram_other .., (setDram_only ..).mono (by decide)⟩

/-- The state in which the element's bytes move. -/
def elementBase (s : State) (u : UnitId) (d : DmaId) (x : Descriptor) : State := blocksRead (turnNoted s u d) u d x

theorem elementBase_access (s : State) (u : UnitId) (d : DmaId) (x : Descriptor) :
    AccessKept u [.regs, .dram, .counts] s (elementBase s u d x) := (turnNoted_access s u d).step (readBlocks_access ..)

/-- The whole burst of one element. -/
theorem execDmaBurst_element {t : State} {y : Dma} (h : burstTurn s u = some d) (hdesc : (dmaAt s u d).desc = some x)
    (hvalid : descriptorInvalid x = false) (hcount : x.count = zeroPos) (hpos : (dmaAt s u d).pos = zeroPos)
    (hmove : moveElem (elementBase s u d x) u d x [] = t) (hy : dmaAt t u d = y) (hdesc' : y.desc = some x)
    (hends : y.mode ≠ .running ∨ finishedPos x y.pos = true) : execDmaBurst u d [] s = .next t := by
  obtain ⟨hmode, -⟩ := burstReady_running (burstTurn_ready h)
  have hfirst : finishedPos x (dmaAt s u d).pos = false := by rw [hpos]; exact finishedPos_first hcount
  obtain ⟨b, hgo⟩ := burstGo_first (s := turnNoted s u d) (u := u) (d := d) (fuel := 1023) hdesc hmode hfirst hvalid
  subst hmove hy
  rw [execDmaBurst_turn h, hgo]
  exact congrArg _ (burstGo_ends hdesc' hends)

theorem dmaAt_elementBase (e : DmaId) : dmaAt (elementBase s u d x) u e = dmaAt s u e := by
  rw [dmaAt, dmaAt, (elementBase_access s u d x).frame.part .dma (by decide)]

theorem homeByte_elementBase (a : Nat) : homeByte (elementBase s u d x) u a = homeByte s u a :=
  homeByte_congr ((elementBase_access s u d x).cells.byte u) ((elementBase_access s u d x).frame.part .baton (by decide))
    ((elementBase_access s u d x).frame.part .streams (by decide)) a

theorem translateInt_elementBase (ctx : Fin 64) (a : Int) (w : Bool) : translateInt (elementBase s u d x) u ctx a w = translateInt s u ctx a w :=
  translateInt_congr ((elementBase_access s u d x).frame.part .atu (by decide)) ..

/-- The bytes read. -/
def elementRead (s : State) (u : UnitId) (x : Descriptor) (src : Nat → Nat) : List (BitVec 8) := (List.range x.elemBytes).map fun j => homeByte s u (src j)

theorem readElem_elementBase {src : Nat → Nat}
    (hsrc : ∀ i, i < x.elemBytes → translateInt s u (sourceContext d x) (x.srcAddr + i) false = .ok (src i)) :
    readElem (elementBase s u d x) u (sourceContext d x) x.srcAddr [] x.elemBytes x.elemBytes 0 = (elementRead s u x src, none) := by
  rw [readElem_whole fun i hi => (translateInt_elementBase ..).trans (hsrc i hi)]
  exact congrArg (·, none) (List.map_congr_left fun j _ => homeByte_elementBase (src j))

end

/-! ## To memory -/

/-- A channel whose element of n bytes has been written. -/
def elementMoved (n : Nat) (z : Dma) : Dma := { z with bytesWritten := z.bytesWritten + n, bytePos := n }

/-- A channel past its only element. -/
def pastElement (z : Dma) : Dma := { z with pos := #v[0, 0, 1], bytePos := 0 }

section
variable {s : State} {u : UnitId} {d : DmaId} {x : Descriptor}

theorem moveElem_memory {src : Nat → Nat} {w : State} (hkind : x.dstKind = 0) (hcount : x.count = zeroPos) (hpos : (dmaAt s u d).pos = zeroPos)
    (hbyte : (dmaAt s u d).bytePos = 0)
    (hsrc : ∀ i, i < x.elemBytes → translateInt s u (sourceContext d x) (x.srcAddr + i) false = .ok (src i))
    (hw : writeElem u x.dstCtx x.dstAddr (touchVirtual (elementBase s u d x) u x.dstCtx ((x.dstAddr : Int) + (0 : Nat)) (elementRead s u x src).length true)
      (elementRead s u x src) 0 = (w, x.elemBytes, none)) :
    moveElem (elementBase s u d x) u d x [] = modDma (modDma w u d (elementMoved x.elemBytes)) u d pastElement := by
  have hread := readElem_elementBase (d := d) hsrc
  unfold moveElem
  dsimp only
  rw [dmaAt_elementBase, hpos, hbyte, elemAddr_first, elemAddr_first, hread, if_pos hkind, hw, stepPos_only hcount]
  rfl

end

/-- R289: a burst to memory copies the element. -/
theorem dmaBurst_memory {u : UnitId} {d : DmaId} {x : Descriptor} {src dst : Nat → Nat} {s : State}
    (h : burstTurn s u = some d) (hdesc : (dmaAt s u d).desc = some x) (hvalid : descriptorInvalid x = false) (hkind : x.dstKind = 0)
    (hcount : x.count = zeroPos) (hpos : (dmaAt s u d).pos = zeroPos) (hbyte : (dmaAt s u d).bytePos = 0)
    (hwf : assocWf unlistedByte (s.dram.get u).mem = true)
    (hsrc : ∀ i, i < x.elemBytes → translateInt s u (sourceContext d x) (x.srcAddr + i) false = .ok (src i))
    (hdst : ∀ i, i < x.elemBytes → translateInt s u x.dstCtx (x.dstAddr + i) true = .ok (dst i))
    (hinj : ∀ i j, i < x.elemBytes → j < x.elemBytes → dst i = dst j → i = j) :
    ∃ t, exec (.dmaBurst u d []) s = .next t ∧
      (∀ i, i < x.elemBytes → dramByte (t.dram.get u) (dst i) = homeByte s u (src i)) ∧
      (∀ a, (∀ i, i < x.elemBytes → a ≠ dst i) → dramByte (t.dram.get u) a = dramByte (s.dram.get u) a) ∧
      (dmaAt t u d).bytesWritten = (dmaAt s u d).bytesWritten + x.elemBytes ∧ finishedPos x (dmaAt t u d).pos = true ∧
      (∀ e, e ≠ d → dmaAt t u e = dmaAt s u e) ∧ t.dram.get u.other = s.dram.get u.other ∧
      t.dma.get u.other = s.dma.get u.other ∧ Only [.regs, .counts, .dram, .dma] s t := by
  let b := touchVirtual (elementBase s u d x) u x.dstCtx ((x.dstAddr : Int) + (0 : Nat)) (elementRead s u x src).length true
  have hb : AccessKept u [.regs, .dram, .counts] s b := (elementBase_access s u d x).step (touchVirtual_access ..)
  have hlen : (elementRead s u x src).length = x.elemBytes := by simp [elementRead]
  have hmem : (b.dram.get u).mem = (s.dram.get u).mem := (hb.cells.cells u).mem
  obtain ⟨w, hw, hwritten, hkept, hother, hframe⟩ := writeElem_ok (s := b) (u := u) (ctx := x.dstCtx) (base := x.dstAddr) (dst := dst)
    (elementRead s u x src) (i := 0) (n := x.elemBytes) (by omega)
    (fun j hj => (translateInt_congr (hb.frame.part .atu (by decide)) ..).trans (hdst j hj)) hinj (by rw [hmem]; exact hwf)
  rw [Nat.zero_add, hlen] at hw
  have hdma : ∀ e, dmaAt w u e = dmaAt s u e := fun e => by
    rw [dmaAt, dmaAt, hframe.part .dma (by decide), hb.frame.part .dma (by decide)]
  have hmove := moveElem_memory hkind hcount hpos hbyte hsrc hw
  have hat : dmaAt (modDma (modDma w u d (elementMoved x.elemBytes)) u d pastElement) u d = pastElement (elementMoved x.elemBytes (dmaAt s u d)) := by
    rw [dmaAt_modDma_same, dmaAt_modDma_same, hdma]
  refine ⟨_, (exec_dmaBurst ..).trans (execDmaBurst_element h hdesc hvalid hcount hpos hmove hat hdesc (.inr (finishedPos_after hcount))),
    fun i hi => ?_, fun a ha => ?_, ?_, ?_, fun e he => ?_, hother.trans hb.other, ?_, ?_⟩
  · have hbyteWritten := hwritten i (by rw [hlen]; exact hi)
    rw [Nat.zero_add] at hbyteWritten
    refine hbyteWritten.trans ?_
    simp [elementRead]
  · refine (hkept a fun j hj => ?_).trans (hb.cells.byte u a)
    rw [Nat.zero_add]
    exact ha j (by rwa [hlen] at hj)
  · rw [hat]
    rfl
  · rw [hat]
    exact finishedPos_after hcount
  · rw [dmaAt_modDma_other _ _ _ _ he, dmaAt_modDma_other _ _ _ _ he, hdma]
  · rw [modDma_otherUnit, modDma_otherUnit, hframe.part .dma (by decide), hb.frame.part .dma (by decide)]
  · exact (((hb.frame.mono (l' := [.regs, .counts, .dram, .dma]) (by decide)).step hframe).step (modDma_only ..)).step (modDma_only ..)

/-! ## To a flow -/

/-- A channel with the element in its packet, past it. -/
def packetBegun (l : List (BitVec 8)) (z : Dma) : Dma := { z with pos := #v[0, 0, 1], packetElems := 1, packetData := z.packetData ++ l }

/-- A channel whose packet was refused. -/
def packetStalled (first : Vector Nat 3) (z : Dma) : Dma := { z with mode := .stalled, stalledAt := some first }

section
variable {s : State} {u : UnitId} {d : DmaId} {x : Descriptor}

theorem writePacket_taken {first : Vector Nat 3} {last : Bool}
    (h : flowTakes s (finOf 256 (by decide) x.flow) [readoutPacket s u d x first last] = true) : writePacket s u d x first last =
      modDma (enqueue s (finOf 256 (by decide) x.flow) [readoutPacket s u d x first last]) u d fun y =>
        { y with bytesWritten := y.bytesWritten + y.packetElems * x.elemBytes, packetElems := 0, packetData := [], stalledAt := none } := if_pos h

theorem writePacket_refused {first : Vector Nat 3} {last : Bool}
    (h : flowTakes s (finOf 256 (by decide) x.flow) [readoutPacket s u d x first last] = false) : writePacket s u d x first last =
      modDma (refuseFlow s (finOf 256 (by decide) x.flow)) u d (packetStalled first) := if_neg (Bool.eq_false_iff.1 h)

theorem refuseFlow_onlyFlow (s : State) (f : FlowId) : OnlyFlow f s (refuseFlow s f) := ⟨fun _ hg => getElem_vmod_other _ _ hg⟩

theorem refuseFlow_queue (s : State) (f : FlowId) : (refuseFlow s f).flows[f].queue = s.flows[f].queue := by
  rw [show (refuseFlow s f).flows[f] = { s.flows[f] with refusing := true } from getElem_vmod_same ..]

/-- What a packet's write leaves, taken or refused. -/
structure PacketWritten (f : FlowId) (u : UnitId) (d : DmaId) (x : Descriptor) (s t : State) : Prop where
  taken : (dmaAt t u d).mode = .running → (dmaAt t u d).packetElems = 0 ∧
    (dmaAt t u d).bytesWritten = (dmaAt s u d).bytesWritten + (dmaAt s u d).packetElems * x.elemBytes ∧
    t.flows[f].queue.length = s.flows[f].queue.length + 1
  refused : (dmaAt t u d).mode ≠ .running → (dmaAt t u d).mode = .stalled ∧ (dmaAt t u d).packetElems = (dmaAt s u d).packetElems ∧
    t.flows[f].queue = s.flows[f].queue
  desc : (dmaAt t u d).desc = (dmaAt s u d).desc
  pos : (dmaAt t u d).pos = (dmaAt s u d).pos
  flows : OnlyFlow f s t
  others : ∀ e, e ≠ d → dmaAt t u e = dmaAt s u e
  otherUnit : t.dma.get u.other = s.dma.get u.other
  frame : Only [.regs, .flows, .counts, .dma] s t

theorem writePacket_written {f : FlowId} (hf : f = finOf 256 (by decide) x.flow) (hmode : (dmaAt s u d).mode = .running) (first : Vector Nat 3)
    (last : Bool) : PacketWritten f u d x s (writePacket s u d x first last) := by
  subst hf
  cases h : flowTakes s (finOf 256 (by decide) x.flow) [readoutPacket s u d x first last] with
  | true =>
    rw [writePacket_taken h]
    have henq := enqueue_only s (finOf 256 (by decide) x.flow) [readoutPacket s u d x first last]
    have hdma : ∀ e, dmaAt (enqueue s (finOf 256 (by decide) x.flow) [readoutPacket s u d x first last]) u e = dmaAt s u e := fun e => by
      rw [dmaAt, dmaAt, henq.part .dma (by decide)]
    have hflow := enqueue_flow s (finOf 256 (by decide) x.flow) [readoutPacket s u d x first last]
    have honly := enqueue_onlyFlow s (finOf 256 (by decide) x.flow) [readoutPacket s u d x first last]
    have hother : (enqueue s (finOf 256 (by decide) x.flow) [readoutPacket s u d x first last]).dma = s.dma := henq.part .dma (by decide)
    generalize enqueue s (finOf 256 (by decide) x.flow) [readoutPacket s u d x first last] = q at *
    have hat := dmaAt_modDma_same q u d fun y =>
      { y with bytesWritten := y.bytesWritten + y.packetElems * x.elemBytes, packetElems := 0, packetData := [], stalledAt := none }
    rw [hdma] at hat
    refine ⟨fun _ => ?_, fun hne => ?_, ?_, ?_, ⟨honly.others⟩, fun e he => ?_, ?_, ((henq.mono (by decide)).step (modDma_only ..))⟩
    · rw [hat]
      refine ⟨rfl, rfl, ?_⟩
      rw [show ∀ g, (modDma q u d g).flows = q.flows from fun _ => rfl, hflow]
      simp [joined]
    · rw [hat] at hne
      exact absurd hmode hne
    · rw [hat]
    · rw [hat]
    · rw [dmaAt_modDma_other _ _ _ _ he, hdma]
    · rw [modDma_otherUnit, hother]
  | false =>
    rw [writePacket_refused h]
    have href := refuseFlow_only s (finOf 256 (by decide) x.flow)
    have hdma : ∀ e, dmaAt (refuseFlow s (finOf 256 (by decide) x.flow)) u e = dmaAt s u e := fun e => by
      rw [dmaAt, dmaAt, href.part .dma (by decide)]
    have hqueue := refuseFlow_queue s (finOf 256 (by decide) x.flow)
    have honly := refuseFlow_onlyFlow s (finOf 256 (by decide) x.flow)
    have hother : (refuseFlow s (finOf 256 (by decide) x.flow)).dma = s.dma := href.part .dma (by decide)
    generalize refuseFlow s (finOf 256 (by decide) x.flow) = q at *
    have hat := dmaAt_modDma_same q u d (packetStalled first)
    rw [hdma] at hat
    refine ⟨fun hrun => ?_, fun _ => ?_, ?_, ?_, ⟨honly.others⟩, fun e he => ?_, ?_, ((href.mono (by decide)).step (modDma_only ..))⟩
    · rw [hat] at hrun
      exact absurd hrun (by simp [packetStalled])
    · rw [hat]
      exact ⟨rfl, rfl, hqueue⟩
    · rw [hat]
      rfl
    · rw [hat]
      rfl
    · rw [dmaAt_modDma_other _ _ _ _ he, hdma]
    · rw [modDma_otherUnit, hother]

/-- The element stands in the packet. -/
def packetReady (s : State) (u : UnitId) (d : DmaId) (x : Descriptor) (l : List (BitVec 8)) : State :=
  modDma (elementBase s u d x) u d (packetBegun l)

theorem moveElem_flow {src : Nat → Nat} (hkind : x.dstKind = 1) (hcount : x.count = zeroPos) (hpos : (dmaAt s u d).pos = zeroPos)
    (hbyte : (dmaAt s u d).bytePos = 0) (helems : (dmaAt s u d).packetElems = 0)
    (hsrc : ∀ i, i < x.elemBytes → translateInt s u (sourceContext d x) (x.srcAddr + i) false = .ok (src i)) :
    moveElem (elementBase s u d x) u d x [] =
      writePacket (packetReady s u d x (elementRead s u x src)) u d x (packetFirst zeroPos 1) (finishedPos x #v[0, 0, 1]) := by
  have hread := readElem_elementBase (d := d) hsrc
  have hmem : ¬ x.dstKind = 0 := by omega
  have hlast : 0 + 1 = x.pktElems ∨ zeroPos.get 0 = x.count.get 0 := .inr (by rw [hcount])
  unfold moveElem
  dsimp only
  rw [dmaAt_elementBase, hpos, hbyte, helems, elemAddr_first x.srcAddr, hread, if_neg hmem, stepPos_only hcount]
  exact if_pos hlast

end

/-- R292: a burst to a flow writes its packet, or stalls on it. -/
theorem dmaBurst_flow {u : UnitId} {d : DmaId} {x : Descriptor} {f : FlowId} {src : Nat → Nat} {s : State}
    (h : burstTurn s u = some d) (hdesc : (dmaAt s u d).desc = some x) (hvalid : descriptorInvalid x = false) (hkind : x.dstKind = 1)
    (hcount : x.count = zeroPos) (hpos : (dmaAt s u d).pos = zeroPos) (hbyte : (dmaAt s u d).bytePos = 0) (helems : (dmaAt s u d).packetElems = 0)
    (hf : f = finOf 256 (by decide) x.flow)
    (hsrc : ∀ i, i < x.elemBytes → translateInt s u (sourceContext d x) (x.srcAddr + i) false = .ok (src i)) :
    ∃ t, exec (.dmaBurst u d []) s = .next t ∧ DramSame s t ∧
      ((dmaAt t u d).mode = .running → (dmaAt t u d).packetElems = 0 ∧
        (dmaAt t u d).bytesWritten = (dmaAt s u d).bytesWritten + x.elemBytes ∧
        t.flows[f].queue.length = s.flows[f].queue.length + 1) ∧
      ((dmaAt t u d).mode ≠ .running → (dmaAt t u d).mode = .stalled ∧ (dmaAt t u d).packetElems = 1 ∧
        t.flows[f].queue = s.flows[f].queue) ∧
      finishedPos x (dmaAt t u d).pos = true ∧ (∀ g, g ≠ f → t.flows[g] = s.flows[g]) ∧
      (∀ e, e ≠ d → dmaAt t u e = dmaAt s u e) ∧ t.dma.get u.other = s.dma.get u.other ∧
      Only [.regs, .overflow, .flows, .counts, .dram, .dma] s t := by
  obtain ⟨hmode, -⟩ := burstReady_running (burstTurn_ready h)
  have hbase := elementBase_access s u d x
  have hready : dmaAt (packetReady s u d x (elementRead s u x src)) u d = packetBegun (elementRead s u x src) (dmaAt s u d) := by
    rw [packetReady, dmaAt_modDma_same, dmaAt_elementBase]
  have hpacket := writePacket_written (s := packetReady s u d x (elementRead s u x src)) (u := u) (d := d) hf (by rw [hready]; exact hmode)
    (packetFirst zeroPos 1) (finishedPos x #v[0, 0, 1])
  have hmove := moveElem_flow hkind hcount hpos hbyte helems hsrc
  have hflows : (packetReady s u d x (elementRead s u x src)).flows = s.flows := hbase.frame.part .flows (by decide)
  have hdma : (packetReady s u d x (elementRead s u x src)).dma.get u.other = s.dma.get u.other := by
    rw [packetReady, modDma_otherUnit, hbase.frame.part .dma (by decide)]
  have hothers : ∀ e, e ≠ d → dmaAt (packetReady s u d x (elementRead s u x src)) u e = dmaAt s u e := fun e he => by
    rw [packetReady, dmaAt_modDma_other _ _ _ _ he, dmaAt_elementBase]
  have hcells : CellsKept s (packetReady s u d x (elementRead s u x src)) := hbase.cells.trans (.of_dram rfl)
  have hframe : Only [.regs, .overflow, .flows, .counts, .dram, .dma] s (packetReady s u d x (elementRead s u x src)) :=
    (hbase.frame.mono (l' := [.regs, .overflow, .flows, .counts, .dram, .dma]) (by decide)).step (modDma_only ..)
  generalize packetReady s u d x (elementRead s u x src) = p at *
  obtain ⟨htaken, hrefused, hdesc', hpos', honly, hoth, hunit, hparts⟩ := hpacket
  generalize writePacket p u d x (packetFirst zeroPos 1) (finishedPos x #v[0, 0, 1]) = t at *
  rw [hready] at htaken hrefused hdesc' hpos'
  have hfinished : finishedPos x (dmaAt t u d).pos = true := by rw [hpos']; exact finishedPos_after hcount
  refine ⟨t, (exec_dmaBurst ..).trans (execDmaBurst_element h hdesc hvalid hcount hpos hmove rfl (hdesc'.trans hdesc) (.inr hfinished)),
    (hcells.trans (.of_only hparts)).same, fun hrun => ?_, fun hstall => ?_, hfinished, fun g hg => ?_, fun e he => (hoth e he).trans (hothers e he),
    hunit.trans hdma, hframe.step hparts⟩
  · obtain ⟨hzero, hbytes, hqueue⟩ := htaken hrun
    rw [hflows] at hqueue
    exact ⟨hzero, by rw [hbytes]; simp [packetBegun], hqueue⟩
  · obtain ⟨hmode', hone, hqueue⟩ := hrefused hstall
    rw [hflows] at hqueue
    exact ⟨hmode', hone, hqueue⟩
  · rw [honly.others g hg, hflows]

/-- Settles O36: out of turn nothing moves; in its turn the element goes to memory (`dmaBurst_memory`) or to a flow (`dmaBurst_flow`). -/
theorem burstCopiesTheElement : Obligations.BurstCopiesTheElement := by
  refine ⟨fun u d found s h => (exec_dmaBurst ..).trans (if_neg h), fun u d s h hturn => ?_,
    fun u d x f src s h hdesc hvalid hkind hcount hpos hbyte helems hf hsrc => ?_,
    fun u d x src dst s h hdesc hvalid hkind hcount hpos hbyte hwf hsrc hdst hinj => ?_⟩
  · obtain ⟨hmode, hdesc⟩ := burstReady_running (burstTurn_ready hturn)
    exact h.elim (fun hne => hne hmode) fun hnone => hdesc hnone
  · obtain ⟨t, hexec, hsame, htaken, hrefused, hfin, hflows, hothers, hunit, honly⟩ :=
      dmaBurst_flow h hdesc hvalid hkind hcount hpos hbyte helems hf hsrc
    exact ⟨t, hexec, hsame, htaken, hrefused, hfin, hflows, hothers, hunit, honly.eq⟩
  · obtain ⟨t, hexec, hwritten, hkept, hbytes, hfin, hothers, hmem, hunit, honly⟩ :=
      dmaBurst_memory h hdesc hvalid hkind hcount hpos hbyte hwf hsrc hdst hinj
    exact ⟨t, hexec, hwritten, hkept, hbytes, hfin, hothers, hmem, hunit, honly.eq⟩

end Sys2Proof.Machine
end

section
/-! PROOF. The maintenance unlock, and saving the dictionary (17_dictionary.md R405, R419 to R421). -/

namespace Sys2Proof.Machine

set_option Elab.async false

theorem exec_challengeRead (k : Client) (s : State) : exec (.challengeRead k) s = execChallengeRead k s := rfl

theorem exec_responseWrite (k : Client) (v : BitVec 128) (s : State) :
    exec (.responseWrite k v) s = .next (serveTrace s k 0x5F08 (doResponse k v)) := rfl

theorem exec_maintenanceLock (k : Client) (s : State) : exec (.maintenanceLock k) s = .next (serveWrite s k 0x5F08 doLock) := rfl

theorem exec_unlockExpiry (s : State) : exec .unlockExpiry s = execUnlockExpiry s := rfl

theorem exec_unlockAttemptBlockExpiry (s : State) : exec .unlockAttemptBlockExpiry s = execUnlockAttemptBlockExpiry s := rfl

theorem exec_save (k : Client) (s : State) : exec (.save k) s = .next (serveEnd s k 0x1010 (doSave k)) := rfl

theorem exec_saveComplete (s : State) : exec .saveComplete s = execSaveComplete s := rfl

theorem exec_load (k : Client) (s : State) : exec (.load k) s = .next (serveWrite s k 0x1011 doLoad) := rfl

/-! ## A held client's answer -/

/-- A client that has its answer and is served again. -/
structure ClientDone (k : Client) (a : Answer) (s t : State) : Prop where
  answer : answered t k = some a
  free : (t.clients.get k).busy = false
  frame : Only [.regs, .ports, .flows, .counts, .clients] s t

theorem endWrite_served {s : State} {k : Client} {i : Nat} {f : State → State × WriteEnd} (h : Served s k i) :
    serveEnd s k i f = endWrite (f (touchClient s k)).1 k (f (touchClient s k)).2 := by
  obtain ⟨hserves, hgate⟩ := h
  simp only [serveEnd, hserves, hgate, if_true]

/-- A command whose answer comes with its state. -/
theorem serveTrace_taken {s x : State} {k : Client} {i : Nat} {f : State → State × Option Abort} (h : Served s k i)
    (hf : f (touchClient s k) = (x, none)) : serveTrace s k i f = answer x k .ack := by
  rw [serveTrace_ok h (by rw [hf]), hf]

theorem serveTrace_refused {s x : State} {k : Client} {i : Nat} {a : Abort} {f : State → State × Option Abort} (h : Served s k i)
    (hf : f (touchClient s k) = (x, some a)) : serveTrace s k i f = answer x k (.abort a) := by
  rw [serveTrace_error h (by rw [hf]), hf]

theorem clients_vmod_same (s : State) (k : Client) (f : ClientSlot → ClientSlot) : (vmod s.clients k f).get k = f (s.clients.get k) := vmod_get_same ..

/-- A reply leaves the client's answer, and the client is served again. -/
theorem sendReply_state (s : State) (k : Client) (r : Datagram) :
    answered (sendReply s k r) k = answered s k ∧ ((sendReply s k r).clients.get k).busy = false ∧
      Only [.regs, .ports, .flows, .counts, .clients] s (sendReply s k r) := by
  have hset : Only [.regs, .ports, .flows, .counts, .clients] s
      { s with clients := vmod s.clients k fun c => { c with lastReply := some r, busy := false, request := none } } := .of_eq rfl
  have hsend := fun x p kind dest n payload => endpointSend_only x p kind dest n payload
  unfold sendReply
  have hclients := fun x p kind dest n payload => (hsend x p kind dest n payload).part .clients (by decide)
  refine ⟨?_, ?_, hset.step (hsend ..)⟩
  · rw [answered, hclients, vmod_get_same]
    rfl
  · rw [hclients, vmod_get_same]

theorem replyAnswer_state (s : State) (k : Client) (d : Datagram) (final : Bool) (a : Answer) :
    answered (replyAnswer s k d final a) k = answered s k ∧ ((replyAnswer s k d final a).clients.get k).busy = false ∧
      Only [.regs, .ports, .flows, .counts, .clients] s (replyAnswer s k d final a) := by
  cases a <;> exact sendReply_state ..

theorem completeClient_done (s : State) (k : Client) (a : Answer) : ClientDone k a s (completeClient s k a) := by
  have hans : Only [.regs, .ports, .flows, .counts, .clients] s (answer s k a) := (answer_only ..).mono (by decide)
  unfold completeClient
  dsimp only
  split
  next d _ =>
    obtain ⟨hanswer, hfree, honly⟩ := replyAnswer_state (answer s k a) k d true a
    exact ⟨hanswer.trans (answered_answer ..), hfree, hans.step honly⟩
  next =>
    refine ⟨?_, ?_, hans.step (l' := [.clients]) (.of_eq rfl)⟩
    · rw [answered, vmod_get_same]
      exact answered_answer s k a
    · rw [vmod_get_same]

/-! ## The challenge and its response -/

section
variable {s : State} {k : Client}

/-- The challenge is drawn for its client. -/
def challengeDrawn (s : State) (k : Client) : State := drawChallenge (touchRead s k) k

theorem challengeDrawn_state (s : State) (k : Client) :
    (challengeDrawn s k).maint.challenges.get k = some (Config.challenge s.free) ∧ (challengeDrawn s k).free = s.free + 1 ∧
      Only [.free, .clients, .maint] s (challengeDrawn s k) := by
  refine ⟨?_, rfl, .of_eq rfl⟩
  exact vmod_get_same _ _ fun _ => some (Config.challenge s.free)

theorem responseBarred_touchClient : responseBarred (touchClient s k) k = responseBarred s k := by
  have howner : (touchClient s k).maint.owner = s.maint.owner := touchClient_owner ..
  have hrest : (touchClient s k).maint.blockUntil = s.maint.blockUntil ∧ (touchClient s k).maint.challenges = s.maint.challenges := by
    unfold touchClient
    dsimp only
    split <;> exact ⟨rfl, rfl⟩
  rw [responseBarred, responseBarred, howner, hrest.1, hrest.2]
  rfl

theorem touchClient_maint (s : State) (k : Client) : (touchClient s k).maint.owner = s.maint.owner ∧
    (touchClient s k).maint.challenges = s.maint.challenges ∧ (touchClient s k).maint.failures = s.maint.failures ∧
    (touchClient s k).maint.blockUntil = s.maint.blockUntil := by
  unfold touchClient
  dsimp only
  split <;> exact ⟨rfl, rfl, rfl, rfl⟩

/-- The challenge is used up. -/
def challengeUsed (s : State) (k : Client) : State := { s with maint := { s.maint with challenges := vmod s.maint.challenges k fun _ => none } }

/-- The client holds the unlock. -/
def unlockTaken (now : Nat) (k : Client) (x : State) : State :=
  { x with
    maint := { x.maint with owner := some k, lastWrite := now, failures := 0 }
    flash := { x.flash with limitOpen := true } }

/-- One mismatch more: the third in a row bars attempts until `until_`. -/
def mismatchCounted (n until_ : Nat) (x : State) : State :=
  { x with maint := { x.maint with
    failures := if n = 3 then 0 else n
    blockUntil := if n = 3 then some until_ else x.maint.blockUntil } }

theorem doResponse_barred (v : BitVec 128) (h : responseBarred s k = true) : doResponse k v s = (s, some .presentState) := if_pos h

theorem doResponse_match {v : BitVec 128} {c : BitVec 64} (h : responseBarred s k = false) (hc : s.maint.challenges.get k = some c)
    (hv : Config.hmac c Config.serialNumber = v) : doResponse k v s = (beginWatch (unlockTaken s.now k (challengeUsed s k)) 2, none) := by
  unfold doResponse
  rw [if_neg (by rw [h]; decide), hc]
  exact if_pos hv

theorem doResponse_mismatch {v : BitVec 128} {c : BitVec 64} (h : responseBarred s k = false) (hc : s.maint.challenges.get k = some c)
    (hv : Config.hmac c Config.serialNumber ≠ v) : doResponse k v s =
      (mismatchCounted (s.maint.failures + 1) (s.now + 60 * cyclesPerSec) (bump (challengeUsed s k) (key 0x5F08 5)), some .presentState) := by
  unfold doResponse
  rw [if_neg (by rw [h]; decide), hc]
  exact if_neg hv

/-- The state of an unlock that is taken. -/
theorem unlocked_state (s : State) (k : Client) :
    (beginWatch (unlockTaken s.now k (challengeUsed s k)) 2).maint.owner = some k ∧
    (beginWatch (unlockTaken s.now k (challengeUsed s k)) 2).maint.lastWrite = s.now ∧
    (beginWatch (unlockTaken s.now k (challengeUsed s k)) 2).maint.challenges.get k = none ∧
    (beginWatch (unlockTaken s.now k (challengeUsed s k)) 2).flash.limitOpen = true ∧
    (beginWatch (unlockTaken s.now k (challengeUsed s k)) 2).dict = s.dict := by
  have hwatch := beginWatch_only (unlockTaken s.now k (challengeUsed s k)) 2
  rw [hwatch.part .maint (by decide), hwatch.part .flash (by decide), hwatch.part .dict (by decide)]
  exact ⟨rfl, rfl, vmod_get_same _ _ fun _ => none, rfl, rfl⟩

theorem mismatchCounted_only (n until_ : Nat) (x : State) : Only [.maint] x (mismatchCounted n until_ x) := .of_eq rfl

theorem challengeUsed_only (s : State) (k : Client) : Only [.maint] s (challengeUsed s k) := .of_eq rfl

/-- The state after a mismatch. -/
theorem mismatch_state (s : State) (k : Client) (until_ : Nat) {t : State}
    (ht : t = mismatchCounted (s.maint.failures + 1) until_ (bump (challengeUsed s k) (key 0x5F08 5))) :
    t.maint.owner = s.maint.owner ∧ t.maint.challenges.get k = none ∧
    (s.maint.failures = 2 → t.maint.failures = 0 ∧ t.maint.blockUntil = some until_) ∧
    (s.maint.failures ≠ 2 → t.maint.failures = s.maint.failures + 1 ∧ t.maint.blockUntil = s.maint.blockUntil) ∧
    Only [.regs, .overflow, .maint] s t := by
  have hbump := bump_only (challengeUsed s k) (key 0x5F08 5)
  have hmaint : (bump (challengeUsed s k) (key 0x5F08 5)).maint = (challengeUsed s k).maint := hbump.part .maint (by decide)
  subst ht
  refine ⟨?_, ?_, fun h => ?_, fun h => ?_, (((Only.refl _ s).step (challengeUsed_only s k)).step hbump).step (mismatchCounted_only ..)⟩
  · rw [mismatchCounted, hmaint]
    rfl
  · rw [mismatchCounted, hmaint]
    exact vmod_get_same _ _ fun _ => none
  · have hthree : s.maint.failures + 1 = 3 := congrArg Nat.succ h
    rw [mismatchCounted, if_pos hthree, if_pos hthree]
    exact ⟨rfl, rfl⟩
  · have hthree : s.maint.failures + 1 ≠ 3 := fun he => h (Nat.succ.inj he)
    rw [mismatchCounted, if_neg hthree, if_neg hthree, hmaint]
    exact ⟨rfl, rfl⟩

end

/-! ## The lock and its expiry -/

section
variable {s : State}

theorem endUnlock_lockUnit (h : s.maint.owner.isSome = true) : (endUnlock s).ctrl.lockUnit = true := by
  rw [endUnlock_unlocked h, (watchTick_only _).part .ctrl (by decide), (abandonFirmware_only _).part .ctrl (by decide)]
  rfl

theorem execUnlockExpiry_due (howner : s.maint.owner.isSome = true) (h : s.maint.lastWrite + 600 * cyclesPerSec ≤ s.now) :
    execUnlockExpiry s = .next (endUnlock s) := if_pos ⟨howner, h⟩

theorem execUnlockExpiry_early (h : s.now < s.maint.lastWrite + 600 * cyclesPerSec) : execUnlockExpiry s = .next s :=
  if_neg fun hdue => Nat.not_le.2 h hdue.2

theorem execUnlockAttemptBlockExpiry_due {at_ : Nat} (h : s.maint.blockUntil = some at_) (hat : at_ ≤ s.now) :
    execUnlockAttemptBlockExpiry s = .next { s with maint := { s.maint with blockUntil := none } } := by
  unfold execUnlockAttemptBlockExpiry
  rw [h]
  exact if_pos hat

theorem execUnlockAttemptBlockExpiry_early {at_ : Nat} (h : s.maint.blockUntil = some at_) (hat : s.now < at_) :
    execUnlockAttemptBlockExpiry s = .next s := by
  unfold execUnlockAttemptBlockExpiry
  rw [h]
  exact if_neg (Nat.not_le.2 hat)

/-! ## Saving -/

/-- A save begins: its image waits for the flash. -/
def saveBegun (s : State) (k : Client) : State := { s with flash := { s.flash with saving := some (k, s.now, savedImage s), pulse := true, writing := .saved } }

theorem doSave_taken (k : Client) (h : s.flash.saving = none) : doSave k s = (saveBegun s k, .held) := by
  unfold doSave
  rw [h]
  rfl

theorem doSave_refused (k : Client) (h : s.flash.saving.isSome = true) : doSave k s = (s, .abort .presentState) := by
  obtain ⟨x, hx⟩ := Option.isSome_iff_exists.1 h
  unfold doSave
  rw [hx]

/-- The image stands in the area that did not hold the newest copy. -/
def imageStored (s : State) (image : SavedImage) : State :=
  { s with flash := { s.flash with
      saving := none
      pulse := false
      writing := .none
      saved := vmod s.flash.saved (1 - s.flash.savedNewest) fun _ => some image
      savedNewest := 1 - s.flash.savedNewest
      savedVoid := false } }

theorem execSaveComplete_idle (h : s.flash.saving = none) : execSaveComplete s = .next s := by
  unfold execSaveComplete
  rw [h]

theorem execSaveComplete_saving {k : Client} {at_ : Nat} {image : SavedImage} (h : s.flash.saving = some (k, at_, image)) :
    execSaveComplete s = .next (completeClient (imageStored s image) k .ack) := by
  unfold execSaveComplete
  rw [h]
  rfl

theorem other_area (a : Fin 2) : a ≠ 1 - a := by
  revert a
  decide

/-- The saved areas are void. -/
def savedDropped (s : State) : State := { s with flash := { s.flash with saved := .replicate 2 none, savedVoid := true } }

end

/-- R419: a response. -/
theorem responseWrite_settled (k : Client) (v : BitVec 128) (s : State) (hs : Served s k 0x5F08) :
    (responseBarred s k = true → ∃ t, exec (.responseWrite k v) s = .next t ∧ answered t k = some (.abort .presentState) ∧
      t.maint.owner = s.maint.owner ∧ t = { s with clients := t.clients, maint := t.maint }) ∧
    ∀ c, responseBarred s k = false → s.maint.challenges.get k = some c →
      (Config.hmac c Config.serialNumber = v → ∃ t, exec (.responseWrite k v) s = .next t ∧ answered t k = some .ack ∧
        t.maint.owner = some k ∧ t.maint.lastWrite = s.now ∧ t.maint.challenges.get k = none ∧ t.flash.limitOpen = true ∧ t.dict = s.dict) ∧
      (Config.hmac c Config.serialNumber ≠ v → ∃ t, exec (.responseWrite k v) s = .next t ∧
        answered t k = some (.abort .presentState) ∧ t.maint.owner = s.maint.owner ∧ t.maint.challenges.get k = none ∧
        (s.maint.failures = 2 → t.maint.failures = 0 ∧ t.maint.blockUntil = some (s.now + 60 * cyclesPerSec)) ∧
        (s.maint.failures ≠ 2 → t.maint.failures = s.maint.failures + 1 ∧ t.maint.blockUntil = s.maint.blockUntil) ∧
        t = { s with regs := t.regs, overflow := t.overflow, clients := t.clients, maint := t.maint }) := by
  obtain ⟨howner, hchallenges, hfailures, hblock⟩ := touchClient_maint s k
  have htouch := touchClient_only s k
  refine ⟨fun h => ?_, fun c h hc => ⟨fun hv => ?_, fun hv => ?_⟩⟩
  · have hresp := doResponse_barred v (responseBarred_touchClient.trans h)
    have hexec := (exec_responseWrite k v s).trans (congrArg _ (serveTrace_refused hs hresp))
    refine ⟨_, hexec, answered_answer .., ?_, (((Only.refl [.clients, .maint] s).step htouch).step (answer_only _ k (.abort .presentState))).eq⟩
    rw [answer_maint, howner]
  · have hresp := doResponse_match (responseBarred_touchClient.trans h) (by rw [hchallenges]; exact hc) hv
    have hexec := (exec_responseWrite k v s).trans (congrArg _ (serveTrace_taken hs hresp))
    obtain ⟨hmine, hlast, hused, hopen, hdict⟩ := unlocked_state (touchClient s k) k
    generalize beginWatch (unlockTaken (touchClient s k).now k (challengeUsed (touchClient s k) k)) 2 = x at *
    refine ⟨_, hexec, answered_answer .., ?_, ?_, ?_, ?_, ?_⟩
    · rw [answer_maint, hmine]
    · rw [answer_maint, hlast, touchClient_now]
    · rw [answer_maint, hused]
    · rw [answer_flash, hopen]
    · rw [answer_dict, hdict, touchClient_dict]
  · have hresp := doResponse_mismatch (responseBarred_touchClient.trans h) (by rw [hchallenges]; exact hc) hv
    have hexec := (exec_responseWrite k v s).trans (congrArg _ (serveTrace_refused hs hresp))
    rw [touchClient_now] at hexec
    generalize hx : mismatchCounted ((touchClient s k).maint.failures + 1) (s.now + 60 * cyclesPerSec)
      (bump (challengeUsed (touchClient s k) k) (key 0x5F08 5)) = x at hexec
    obtain ⟨hown, hused, hthird, hother, honly⟩ := mismatch_state (touchClient s k) k (s.now + 60 * cyclesPerSec) hx.symm
    rw [howner] at hown
    rw [hfailures] at hthird hother
    rw [hblock] at hother
    refine ⟨_, hexec, answered_answer .., ?_, ?_, ?_, ?_,
      ((((Only.refl [.regs, .overflow, .clients, .maint] s).step htouch).step honly).step (answer_only _ k (.abort .presentState))).eq⟩
    · rw [answer_maint, hown]
    · rw [answer_maint, hused]
    · rw [answer_maint]
      exact hthird
    · rw [answer_maint]
      exact hother

/-- R421: "save" and its end. -/
theorem saveEnd_settled (k : Client) (at_ : Nat) (image : SavedImage) (s : State) (h : s.flash.saving = some (k, at_, image)) :
    ∃ t, exec .saveComplete s = .next t ∧ answered t k = some .ack ∧ (t.clients.get k).busy = false ∧
      t.flash.saving = none ∧ t.flash.pulse = false ∧ t.flash.writing = .none ∧ t.flash.savedNewest = 1 - s.flash.savedNewest ∧
      t.flash.saved.get (1 - s.flash.savedNewest) = some image ∧
      t.flash.saved.get s.flash.savedNewest = s.flash.saved.get s.flash.savedNewest ∧ t.dict = s.dict := by
  obtain ⟨hanswer, hfree, honly⟩ := completeClient_done (imageStored s image) k .ack
  have hflash := honly.part .flash (by decide)
  refine ⟨_, (exec_saveComplete s).trans (execSaveComplete_saving h), hanswer, hfree, ?_⟩
  rw [hflash, honly.part .dict (by decide)]
  exact ⟨rfl, rfl, rfl, rfl, vmod_get_same _ _ fun _ => some image, vmod_get_other _ _ _ _ (other_area _), rfl⟩

/-- Settles O57: the challenge, the response (`responseWrite_settled`), the lock and its expiry, "save" and "load". -/
theorem unlockAndSaving : Obligations.UnlockAndSaving := by
  refine ⟨⟨fun k s hs => ?_, responseWrite_settled, fun k s hs => ?_, fun s howner => ⟨fun h => ?_, fun h => ?_⟩, fun at_ s h => ⟨fun hat => ?_, fun hat => ?_⟩⟩,
    fun k s hs => ⟨fun h => ?_, fun h => ?_⟩, fun s h => (exec_saveComplete s).trans (execSaveComplete_idle h), saveEnd_settled, fun k s hs => ?_⟩
  · obtain ⟨hdrawn, hfree, honly⟩ := challengeDrawn_state s k
    have hexec : exec (.challengeRead k) s = .next (answer (challengeDrawn s k) k (.value (leBytes 8 (Config.challenge s.free).toNat))) :=
      (exec_challengeRead k s).trans (if_pos hs)
    generalize challengeDrawn s k = x at *
    have hframe := (honly.step (answer_only x k (.value (leBytes 8 (Config.challenge s.free).toNat)))).eq
    refine ⟨_, hexec, ?_, answered_answer .., ?_⟩
    · rw [answer_maint, hdrawn]
    · rw [← hfree]
      exact hframe
  · have hlock := endUnlock_only (touchClient s k)
    refine ⟨_, exec_acknowledged (exec_maintenanceLock k s) hs rfl, answered_answer .., ?_, ?_⟩
    · rw [answer_maint, endUnlock_owner]
    · exact ((((Only.refl [.regs, .watch, .flash, .ctrl, .clients, .windows, .firmware, .maint] s).step (touchClient_only s k)).step hlock).step
        (answer_only _ k .ack)).eq
  · exact ⟨_, (exec_unlockExpiry s).trans (execUnlockExpiry_due howner h), endUnlock_owner s, endUnlock_lockUnit howner,
      ((Only.refl [.regs, .watch, .flash, .ctrl, .windows, .firmware, .maint] s).step (endUnlock_only s)).eq⟩
  · exact (exec_unlockExpiry s).trans (execUnlockExpiry_early h)
  · exact (exec_unlockAttemptBlockExpiry s).trans (execUnlockAttemptBlockExpiry_due h hat)
  · exact (exec_unlockAttemptBlockExpiry s).trans (execUnlockAttemptBlockExpiry_early h hat)
  · have hsave := doSave_taken (s := touchClient s k) k h
    refine ⟨holdClient (saveBegun (touchClient s k) k) k, ?_, ?_, rfl, rfl⟩
    · rw [exec_save, endWrite_served hs, hsave]
      rfl
    · exact congrArg ClientSlot.busy (clients_vmod_same (saveBegun (touchClient s k) k) k fun c => { c with busy := true })
  · have hsave := doSave_refused (s := touchClient s k) k h
    refine ⟨answer (touchClient s k) k (.abort .presentState), ?_, answered_answer ..,
      (((Only.refl [.clients, .maint] s).step (touchClient_only s k)).step (answer_only _ k (.abort .presentState))).eq⟩
    rw [exec_save, serveEnd_abort hs hsave]
  · exact ⟨_, exec_acknowledged (t := savedDropped (touchClient s k)) (exec_load k s) hs rfl, answered_answer .., rfl, rfl⟩

end Sys2Proof.Machine
end

section
/-! PROOF. Power-fail warning, stop, return, flush, area erase and log save (16_power_ageing.md R378, R379, R387 to R391). -/

namespace Sys2Proof.Machine

set_option Elab.async false

theorem exec_stageStart (s : State) : exec .stageStart s = execStageStart s := rfl

theorem exec_powerFailWarning (cause : Fin 8) (s : State) : exec (.powerFailWarning cause) s = execPowerFailWarning cause s := rfl

theorem exec_stageStop (s : State) : exec .stageStop s = execStageStop s := rfl

theorem exec_inputReturn (s : State) : exec .inputReturn s = execInputReturn s := rfl

theorem exec_flushComplete (s : State) : exec .flushComplete s = execFlushComplete s := rfl

theorem exec_powerFailAreaErase (s : State) : exec .powerFailAreaErase s = execPowerFailAreaErase s := rfl

theorem exec_logSave (s : State) : exec .logSave s = execLogSave s := rfl

/-! ## The start -/

section
variable {s : State}

/-- A stage that starts, its last stop's time kept. -/
def stageStarted (s : State) : State := { s with stage := { stageReset with stoppedAt := s.stage.stoppedAt } }

theorem execStageStart_running (h : s.stage.running = true) : execStageStart s = .next s := if_pos (.inl h)

theorem execStageStart_starts (hrun : s.stage.running = false) (hstop : s.stage.stopped = true → s.stage.stoppedAt + 100 * cyclesPerMs ≤ s.now)
    (hcrit : s.stage.criticalStop = true → s.stage.hvToggled = true) :
    execStageStart s = .next (if s.stage.criticalStop then setFlag (stageStarted s) kStage 21 else stageStarted s) := by
  refine if_neg ?_
  rintro (h | ⟨h, hlt⟩ | ⟨h, hne⟩)
  · exact Bool.noConfusion (hrun.symm.trans h)
  · exact Nat.not_le.2 hlt (hstop h)
  · exact hne (hcrit h)

/-! ## The warning -/

/-- The input's toggle is noted. -/
def toggleNoted (cause : Fin 8) (t : State) : State := { t with stage := { t.stage with hvToggled := t.stage.hvToggled || decide (cause.val = 2) } }

theorem execPowerFailWarning_taken {cause : Fin 8} (hrun : s.stage.running = true) (hcause : cause.val ≠ 0) (hnone : s.stage.warn = none) :
    execPowerFailWarning cause s = .next (toggleNoted cause (warnTaken s cause)) := by
  unfold execPowerFailWarning
  rw [if_pos ⟨hrun, hcause⟩, powerFailWarning_taken cause hnone]
  rfl

theorem execPowerFailWarning_none {cause : Fin 8} (h : s.stage.running = false ∨ cause.val = 0) :
    execPowerFailWarning cause s = .next (toggleNoted cause s) := by
  unfold execPowerFailWarning
  rw [if_neg fun ⟨hrun, hne⟩ => h.elim (fun hf => Bool.noConfusion (hf.symm.trans hrun)) hne]
  rfl

theorem warnStands_warnAt (x : State) (now : Nat) (cause : Fin 8) : (warnStands x now cause).stage.warnAt = now := rfl

theorem suspendErase_stage (x : State) : (suspendErase x).stage = x.stage := (suspendErase_only x).part .stage (by decide)

theorem warnTaken_warnAt (s : State) (cause : Fin 8) : (warnTaken s cause).stage.warnAt = s.now := by
  have hstage : (warnHeld (warnActions s cause) cause).stage = (warnActions s cause).stage := (warnHeld_only _ cause).part .stage (by decide)
  refine (congrArg StageState.warnAt hstage).trans ?_
  rw [warnActions_eq, suspendErase_stage]
  exact warnStands_warnAt ..

theorem plannerStopped_flagsStay (x : State) (now : Nat) : FlagsStay [key 0x5C10 5] x (plannerStopped x now) := by
  have hset : ∀ p : PlannerState, FlagsStay [key 0x5C10 5] x { x with planner := p } := fun p => .of_regs _ rfl
  unfold plannerStopped
  split
  · exact ((hset _).trans (regPut_flagsStay ..)).step (setFlag_flagsStay ..)
  · exact .refl ..

theorem warnHeld_flagsStay (x : State) (cause : Fin 8) : FlagsStay [] x (warnHeld x cause) := by
  unfold warnHeld
  split
  · exact setFlag_flagsStay ..
  · exact .refl ..

/-- The words that a warning may clear flags in: the planner's, its counts. -/
def warnKeys : List Nat := [key 0x5C00 0x0B, key 0x5082 2, key 0x5C10 5]

theorem warnShown_after (s : State) (cause : Fin 8) : FlagsStay warnKeys (setFlag (setFlag s kStage 31) kStage 30) (warnTaken s cause) := by
  have hshown : FlagsStay warnKeys (setFlag (setFlag s kStage 31) kStage 30) (warnShown s cause) :=
    ((FlagsStay.refl warnKeys _).step (bump_flagsStay ..)).step (raiseEmcy_flagsStay ..)
  have hstopped := hshown.step (plannerStopped_flagsStay (warnShown s cause) s.now)
  have hactions : FlagsStay warnKeys (setFlag (setFlag s kStage 31) kStage 30) (warnActions s cause) := by
    rw [warnActions_eq]
    exact hstopped.trans (.of_regs _ rfl)
  exact (hactions.step (warnHeld_flagsStay _ cause)).trans (.of_regs _ rfl)

theorem warnTaken_flags (s : State) (cause : Fin 8) (hwf : assocWf defaultOf s.regs = true) :
    flag (warnTaken s cause) kStage 31 = true ∧ flag (warnTaken s cause) kStage 30 = true := by
  have hwf1 : assocWf defaultOf (setFlag s kStage 31).regs = true := regPut_wf _ _ _ hwf
  have hwf2 : assocWf defaultOf (setFlag (setFlag s kStage 31) kStage 30).regs = true := regPut_wf _ _ _ hwf1
  have hafter := warnShown_after s cause
  exact ⟨hafter.stay hwf2 kStage 31 (by decide) (by decide)
      ((setFlag_flagsStay (setFlag s kStage 31) kStage 30).stay hwf1 kStage 31 (by decide) (by decide) (flag_setFlag_same hwf (by decide))),
    hafter.stay hwf2 kStage 30 (by decide) (by decide) (flag_setFlag_same hwf1 (by decide))⟩

theorem writeGate_warned {c : Fin 8} (h : s.stage.warn = some c) (k : Client) (i : Nat) : writeGate s k i ≠ none := by
  unfold writeGate
  rw [h]
  split
  · exact Option.some_ne_none _
  · exact Option.some_ne_none _

theorem writeGate_open (h : s.stage.warn = none) {k : Client} (i : Nat) (hk : hostRights s k = true) : writeGate s k i = none := by
  unfold writeGate
  rw [h, hk]
  rfl

/-! ## The stop -/

theorem cutPulse_saved {f : FlashState} (h : f.writing ≠ .saved) : (cutPulse f).saved = f.saved := by
  unfold cutPulse
  cases hw : f.writing with
  | saved => exact absurd hw h
  | history => rfl
  | log => rfl
  | none => rfl

theorem cutPulse_pfRecord (f : FlashState) : (cutPulse f).pfRecord = f.pfRecord := by
  unfold cutPulse
  cases f.writing <;> rfl

/-- The pulse in progress is cut. -/
def pulseCut (s : State) : State := { s with flash := cutPulse s.flash }

/-- The cold state of a power-on, the log kept where power was never good. -/
def coldPowered (s : State) : State := if s.rst.asserted.getLsbD 0 then keepLog s (moduleCold s true) else moduleCold s true

/-- The dies' values are recalled, and the power-on reset stands. -/
def powerStands (f : FlashState) (b : Bool) (now : Nat) (t : State) : State :=
  { t with
    planner := { t.planner with dies := recallDies f t.planner.dies }
    rst := { rstReset with assertedAt := .replicate 8 now }
    flash := { t.flash with suspended := b } }

theorem powerOn_eq (s : State) : powerOn s = powerStands (pulseCut s).flash (suspendErase s).flash.suspended s.now (coldPowered (pulseCut s)) := rfl

theorem coldPowered_only (s : State) : Only [.log, .flash] (moduleCold s true) (coldPowered s) := .ite (fun _ => .of_eq rfl) fun _ => .refl ..

theorem moduleCold_flash (s : State) : (moduleCold s true).flash.saved = s.flash.saved ∧ (moduleCold s true).flash.pfRecord = s.flash.pfRecord := ⟨rfl, rfl⟩

theorem coldPowered_flash (s : State) : (coldPowered s).flash.saved = s.flash.saved ∧ (coldPowered s).flash.pfRecord = s.flash.pfRecord := by
  have hcold := moduleCold_flash s
  unfold coldPowered
  generalize moduleCold s true = t at *
  split
  · exact hcold
  · exact hcold

theorem powerStands_only (f : FlashState) (b : Bool) (now : Nat) (t : State) : Only [.planner, .rst, .flash] t (powerStands f b now t) := .of_eq rfl

theorem powerStands_state (f : FlashState) (b : Bool) (now : Nat) (t : State) : (powerStands f b now t).rst.asserted = 1 ∧
    (powerStands f b now t).flash.saved = t.flash.saved ∧ (powerStands f b now t).flash.pfRecord = t.flash.pfRecord := ⟨rfl, rfl, rfl⟩

theorem moduleCold_dict (s : State) (b : Bool) : (moduleCold s b).dict = State.reset.dict ∧ (moduleCold s b).chans = State.reset.chans := ⟨rfl, rfl⟩

/-- What a power-on leaves of the dictionary, the channels and the flash. -/
theorem powerOn_state (s : State) : (powerOn s).rst.asserted = 1 ∧ (powerOn s).dict = State.reset.dict ∧ (powerOn s).chans = State.reset.chans ∧
    (s.flash.writing ≠ .saved → (powerOn s).flash.saved = s.flash.saved) ∧ (powerOn s).flash.pfRecord = s.flash.pfRecord := by
  have hflash := coldPowered_flash (pulseCut s)
  have hcold := coldPowered_only (pulseCut s)
  obtain ⟨hdict, hchans⟩ := moduleCold_dict (pulseCut s) true
  have hdict' := (hcold.part .dict (by decide)).trans hdict
  have hchans' := (hcold.part .chans (by decide)).trans hchans
  rw [powerOn_eq]
  generalize coldPowered (pulseCut s) = t at *
  obtain ⟨hrst, hsaved, hrecord⟩ := powerStands_state (pulseCut s).flash (suspendErase s).flash.suspended s.now t
  have hstands := powerStands_only (pulseCut s).flash (suspendErase s).flash.suspended s.now t
  exact ⟨hrst, (hstands.part .dict (by decide)).trans hdict', (hstands.part .chans (by decide)).trans hchans',
    fun h => (hsaved.trans hflash.1).trans (cutPulse_saved h), (hrecord.trans hflash.2).trans (cutPulse_pfRecord _)⟩

/-- The stage stopped: what it remembers until it starts again. -/
def stageStopped (s x : State) : State :=
  { x with
    stage := { stageReset with
      running := false
      stopped := true
      stoppedAt := s.now
      criticalStop := s.stage.criticalStop
      hvToggled := s.stage.hvToggled && !s.stage.criticalStop } }

theorem stageStopped_only (s x : State) : Only [.stage] x (stageStopped s x) := .of_eq rfl

theorem stageStopped_stage (s x : State) : (stageStopped s x).stage.running = false ∧ (stageStopped s x).stage.stopped = true ∧
    (stageStopped s x).stage.stoppedAt = s.now := ⟨rfl, rfl, rfl⟩

theorem execStageStop_none (h : s.stage.warn = none) : execStageStop s = .next s := by
  unfold execStageStop
  rw [h]

theorem execStageStop_held {c : Fin 8} (h : s.stage.warn = some c) (hc : c.val = 6) : execStageStop s = .next s := by
  unfold execStageStop
  rw [h]
  exact if_pos hc

theorem execStageStop_stops {c : Fin 8} (h : s.stage.warn = some c) (hc : c.val ≠ 6) : execStageStop s = .next (stageStopped s (powerOn s)) := by
  unfold execStageStop
  rw [h]
  exact if_neg hc

/-! ## The input's return -/

/-- The return is noted in the record of the warning. -/
def returnNoted (t : State) : State :=
  { t with
      stage := { t.stage with record := t.stage.record.map fun r => { r with returned := true } }
      flash := { t.flash with
        pfRecord := if t.stage.flush then t.flash.pfRecord
          else t.flash.pfRecord.map fun r => { r with returned := true } } }

theorem execInputReturn_none (h : s.stage.warn = none) : execInputReturn s = .next s :=
  if_neg fun hc => by rw [h] at hc; exact Bool.noConfusion hc.1

theorem execInputReturn_returns (hwarn : s.stage.warn.isSome = true) (hrun : s.stage.running = true) (hflag : flag s kStage 29 = true)
    (hat : s.stage.warnAt + cyclesPerMs ≤ s.now) : execInputReturn s = .next (returnNoted (clearWarning s)) := if_pos ⟨hwarn, hrun, hflag, hat⟩

theorem clearWarning_only (s : State) : Only [.regs, .stage] s (clearWarning s) :=
  (((Only.refl _ s).step (clearFlag_only s kStage 31)).step (clearFlag_only ..)).step (l' := [.stage]) (.of_eq rfl)

theorem clearWarning_warn (s : State) : (clearWarning s).stage.warn = none := rfl

theorem clearWarning_regs (s : State) : (clearWarning s).regs = (clearFlag (clearFlag s kStage 31) kStage 29).regs := rfl

theorem flag_clearFlag_cleared {s : State} {k b c : Nat} (hwf : assocWf defaultOf s.regs = true) (hflag : flag s k c = false) :
    flag (clearFlag s k b) k c = false := by
  rw [flag] at hflag
  rw [flag, clearFlag, regGet_regPut_same _ _ _ hwf, Nat.testBit_mod_two_pow, maskOff, Nat.testBit_xor, Nat.testBit_and, hflag]
  simp

theorem clearWarning_flags (hwf : assocWf defaultOf s.regs = true) : flag (clearWarning s) kStage 31 = false ∧ flag (clearWarning s) kStage 29 = false := by
  have hwf1 : assocWf defaultOf (clearFlag s kStage 31).regs = true := regPut_wf _ _ _ hwf
  rw [flag, flag, regGet, clearWarning_regs, ← regGet, ← flag, ← flag]
  exact ⟨flag_clearFlag_cleared hwf1 (flag_clearFlag_same 31 hwf), flag_clearFlag_same 29 hwf1⟩

theorem returnNoted_state (t : State) : (returnNoted t).stage.warn = t.stage.warn ∧ (returnNoted t).regs = t.regs ∧
    Only [.stage, .flash] t (returnNoted t) := ⟨rfl, rfl, .of_eq rfl⟩

/-! ## The flush, the area and the log -/

theorem execPowerFailAreaErase_begins (hwarn : s.stage.warn = none) (herased : s.flash.areaErased.get (1 - s.flash.areaNewest) = false)
    (hat : s.flash.areaEraseAt = none) : execPowerFailAreaErase s =
      .next { s with flash := { s.flash with areaEraseAt := some s.now, intents := areaSector (1 - s.flash.areaNewest) :: s.flash.intents } } := by
  refine if_neg ?_
  rw [hwarn, herased, hat]
  decide

theorem execLogSave_saves (hwarn : s.stage.warn = none) (hne : s.log.unsaved ≠ 0) (h : 64 ≤ s.log.unsaved ∨ s.log.savedAt + cyclesPerSec ≤ s.now) :
    execLogSave s = .next { s with
      log := { s.log with unsaved := 0, savedAt := s.now }
      flash := { s.flash with
        pulse := true
        writing := .log
        logSaved := (s.log.records.take s.log.unsaved ++ s.flash.logSaved).take 1024 } } := if_pos ⟨hne, h, by rw [hwarn]; rfl⟩

theorem execLogSave_waits (hfew : s.log.unsaved < 64) (hat : s.now < s.log.savedAt + cyclesPerSec) : execLogSave s = .next s :=
  if_neg fun h => h.2.1.elim (Nat.not_le.2 hfew) (Nat.not_le.2 hat)

end

/-- R378, R379: a warning that is taken. -/
theorem powerFailWarning_settled (cause : Fin 8) (s : State) (hrun : s.stage.running = true) (hcause : cause.val ≠ 0) (hnone : s.stage.warn = none) :
    ∃ t, exec (.powerFailWarning cause) s = .next t ∧ t.stage.warn = some cause ∧ t.stage.warnAt = s.now ∧
      (∀ k i, writeGate t k i ≠ none) ∧
      (assocWf defaultOf s.regs = true → flag t kStage 31 = true ∧ flag t kStage 30 = true) ∧
      t = { s with regs := t.regs, overflow := t.overflow, emcy := t.emcy, log := t.log, flash := t.flash, stage := t.stage,
                   planner := t.planner } := by
  have honly := warnTaken_only s cause
  have hwarn := warnTaken_warn s cause
  have hat := warnTaken_warnAt s cause
  have hflags := warnTaken_flags s cause
  have hexec := (exec_powerFailWarning cause s).trans (execPowerFailWarning_taken hrun hcause hnone)
  generalize warnTaken s cause = x at *
  have hnoted : (toggleNoted cause x).stage.warn = some cause := hwarn
  exact ⟨_, hexec, hwarn, hat, writeGate_warned hnoted, hflags, (honly.step (l' := [.stage]) (.of_eq rfl)).eq⟩

/-- Settles O52: each command by its case; the stop through `powerOn_state`, the return through `clearWarning`. -/
theorem powerFailWarnsStopsAndReturns : Obligations.PowerFailWarnsStopsAndReturns := by
  refine ⟨fun s => ⟨fun hrun hstop hcrit => ?_, fun h => (exec_stageStart s).trans (execStageStart_running h)⟩, powerFailWarning_settled,
    fun cause s h => (exec_powerFailWarning cause s).trans (execPowerFailWarning_none h),
    fun c s h => ⟨fun hc => (exec_stageStop s).trans (execStageStop_held h hc), fun hc => ?_⟩,
    fun s h => ⟨(exec_stageStop s).trans (execStageStop_none h), (exec_inputReturn s).trans (execInputReturn_none h)⟩,
    fun s hwarn hrun hflag hat => ?_, fun s h => ?_, fun s hwarn herased hat => ?_,
    fun s hwarn hne => ⟨fun h => ?_, fun hfew hat => (exec_logSave s).trans (execLogSave_waits hfew hat)⟩⟩
  · refine ⟨_, (exec_stageStart s).trans (execStageStart_starts hrun hstop hcrit), ?_⟩
    have hset : Only [.regs, .stage] s (stageStarted s) := .of_eq rfl
    split
    · exact ⟨rfl, rfl, rfl, (hset.step (setFlag_only ..)).eq⟩
    · exact ⟨rfl, rfl, rfl, hset.eq⟩
  · obtain ⟨hrst, hdict, hchans, hsaved, hrecord⟩ := powerOn_state s
    have hexec := (exec_stageStop s).trans (execStageStop_stops h hc)
    generalize powerOn s = x at *
    obtain ⟨hrun, hstopped, hat⟩ := stageStopped_stage s x
    have honly := stageStopped_only s x
    refine ⟨_, hexec, hrun, hstopped, hat, ?_, ?_, ?_, fun hw => ?_, ?_⟩
    · rw [honly.part .rst (by decide), hrst]
    · rw [honly.part .dict (by decide), hdict]
    · rw [honly.part .chans (by decide), hchans]
    · rw [honly.part .flash (by decide), hsaved hw]
    · rw [honly.part .flash (by decide), hrecord]
  · have hexec := (exec_inputReturn s).trans (execInputReturn_returns hwarn hrun hflag hat)
    have hnone := clearWarning_warn s
    have hflags := clearWarning_flags (s := s)
    have honly := clearWarning_only s
    generalize clearWarning s = x at *
    obtain ⟨hwarn', hregs, hnoted⟩ := returnNoted_state x
    refine ⟨_, hexec, hwarn'.trans hnone, fun k i hk => writeGate_open (hwarn'.trans hnone) i hk, fun hwf => ?_,
      ((honly.mono (l' := [.regs, .flash, .stage]) (by decide)).step hnoted).eq⟩
    rw [flag, flag, regGet, hregs]
    exact hflags hwf
  · refine ⟨_, (exec_flushComplete s).trans (if_pos h), rfl, rfl, vmod_get_same _ _ fun _ => false, rfl, rfl, rfl⟩
  · exact ⟨_, (exec_powerFailAreaErase s).trans (execPowerFailAreaErase_begins hwarn herased hat), rfl, rfl, rfl⟩
  · exact ⟨_, (exec_logSave s).trans (execLogSave_saves hwarn hne h), rfl, rfl, rfl⟩

end Sys2Proof.Machine
end

section
/-! PROOF. NMT, bus-off, SYNC, heartbeat and EMCY services of the CAN FD node (17_dictionary.md R408, R409, R422, R423). -/

namespace Sys2Proof.Machine

set_option Elab.async false

theorem exec_nmtStart (s : State) : exec .nmtStart s = .next (if nodeHears s then setNmt s .operational else s) := rfl

theorem exec_nmtStop (s : State) : exec .nmtStop s = .next (if nodeHears s then setNmt s .stopped else s) := rfl

theorem exec_nmtEnterPreOperational (s : State) :
    exec .nmtEnterPreOperational s = .next (if nodeHears s then setNmt s .preOperational else s) := rfl

theorem exec_resetNode (s : State) : exec .resetNode s = .next (if nodeHears s then resetNode s else s) := rfl

theorem exec_resetCommunication (s : State) :
    exec .resetCommunication s = .next (if nodeHears s then resetCommunication s else s) := rfl

theorem exec_canSyncRx (s : State) :
    exec .canSyncRx s = .next (if nodeHears s then regPut s (key 0x2002 7) (tb0Value s) else s) := rfl

theorem exec_heartbeat (s : State) : exec .heartbeat s = execHeartbeat s := rfl

theorem exec_emcySend (s : State) : exec .emcySend s = execEmcySend s := rfl

theorem exec_errorListEmpty (k : Client) (s : State) :
    exec (.errorListEmpty k) s = .next (serveWrite s k 0x1003 doErrorListEmpty) := rfl

/-! ## Reset Node and Reset Communication -/

/-- A log record that is pushed stands in the log. -/
theorem logPush_records_ne_nil (s : State) (r : LogRecord) : (logPush s r).log.records ≠ [] := by
  simp [logPush]

theorem logNote_records_ne_nil (s : State) (source k inst : Nat) : (logNote s source k inst).log.records ≠ [] :=
  logPush_records_ne_nil _ _

/-- A running channel refuses Reset Node, with a count and a note, unless 0x2002:05 is 1. -/
theorem resetNode_refused {s : State} (hrun : anyChannelRunning s = true) (hset : cfg s (key 0x2002 5) ≠ 1) :
    resetNode s = logNote (bump s (key 0x2002 6)) 0 (key 0x2002 6) 0 := if_pos ⟨hrun, hset⟩

theorem resetNode_taken {s : State} (h : anyChannelRunning s = false ∨ cfg s (key 0x2002 5) = 1) :
    resetNode s = assertModuleReset s 2 := by
  refine if_neg fun ⟨hrun, hset⟩ => ?_
  rcases h with hidle | hallow
  · exact absurd hrun (by simp [hidle])
  · exact hset hallow

theorem resetNode_ignored {s : State} (hears : nodeHears s = true) (hrun : anyChannelRunning s = true)
    (hset : cfg s (key 0x2002 5) ≠ 1) : ∃ t, exec .resetNode s = .next t ∧ t.log.records ≠ [] ∧
      t = { s with regs := t.regs, overflow := t.overflow, log := t.log } := by
  refine ⟨_, by rw [exec_resetNode, if_pos hears, resetNode_refused hrun hset], logNote_records_ne_nil _ _ _ _, ?_⟩
  exact ((Only.refl [.regs, .overflow, .log] s).step (bump_only ..)).step (logNote_only ..) |>.eq

theorem resetNode_moduleReset {s : State} (hears : nodeHears s = true)
    (h : anyChannelRunning s = false ∨ cfg s (key 0x2002 5) = 1) (hpulse : s.flash.pulse = false)
    (herase : s.flash.erasing = none) (harea : s.flash.areaEraseAt = none) :
    ∃ t, exec .resetNode s = .next t ∧ ModuleReset s t 2 := by
  refine ⟨_, by rw [exec_resetNode, if_pos hears, resetNode_taken h, assertModuleReset_now 2 hpulse herase harea], ?_⟩
  exact applyReset_moduleReset s 2

/-! ### The profile objects -/

/-- Puts at profile keys leave the objects from 0x2000 on as they are. -/
theorem assocGet_foldl_profile (v : Nat × Nat → Nat) (xs : Store) (j : Nat) (hj : 0x200000 ≤ j) (d : Store) :
    assocGet defaultOf (xs.foldl (fun st p => if p.1 / 256 < 0x2000 then assocPut defaultOf st p.1 (v p) else st) d) j =
      assocGet defaultOf d j := by
  induction xs generalizing d with
  | nil => rfl
  | cons p xs ih =>
    rw [List.foldl_cons, ih]
    split
    · exact assocGet_put_other _ _ _ _ _ (by omega)
    · rfl

/-- The profile objects of one store go back to their defaults, then to the saved values. -/
def profileBack (saved d : Store) : Store :=
  saved.foldl (fun st p => if p.1 / 256 < 0x2000 then assocPut defaultOf st p.1 p.2 else st)
    (d.foldl (fun st p => if p.1 / 256 < 0x2000 then assocPut defaultOf st p.1 (defaultOf p.1) else st) d)

theorem assocGet_profileBack (saved d : Store) {j : Nat} (hj : 0x200000 ≤ j) :
    assocGet defaultOf (profileBack saved d) j = assocGet defaultOf d j :=
  (assocGet_foldl_profile (·.2) saved j hj _).trans (assocGet_foldl_profile (fun p => defaultOf p.1) d j hj d)

theorem reloadProfile_only (s : State) : Only [.dict] s (reloadProfile s) := .of_eq rfl

theorem resetCommunication_only (s : State) : Only [.dict, .rst, .can, .clients] s (resetCommunication s) := .of_eq rfl

/-- The dictionary's three copies once the profile objects are reloaded. -/
theorem resetCommunication_dict (s : State) : ∃ saved, (resetCommunication s).dict = { s.dict with
    master := profileBack saved s.dict.master
    shadowA := if unitPresent s .a then profileBack saved s.dict.shadowA else s.dict.shadowA
    shadowB := if unitPresent s .b then profileBack saved s.dict.shadowB else s.dict.shadowB } :=
  ⟨match savedNewest s.flash with
    | some i => storeOf i.values
    | none => [], rfl⟩

theorem resetCommunication_cfg (s : State) {j : Nat} (hj : 0x200000 ≤ j) : cfg (resetCommunication s) j = cfg s j := by
  obtain ⟨saved, hdict⟩ := resetCommunication_dict s
  unfold cfg written
  rw [hdict]
  split
  · rfl
  · exact assocGet_profileBack saved _ hj

theorem resetCommunication_settled {s : State} (hears : nodeHears s = true) :
    ∃ t, exec .resetCommunication s = .next t ∧ t.can.nmt = .preOperational ∧ t.can.bootUps = s.can.bootUps + 1 ∧
      isAsserted t 5 = true ∧ (t.clients.get 0).transfer = none ∧ (∀ j, 0x200000 ≤ j → cfg t j = cfg s j) ∧
      t.dict.applied = s.dict.applied ∧ t = { s with dict := t.dict, rst := t.rst, can := t.can, clients := t.clients } := by
  refine ⟨resetCommunication s, by rw [exec_resetCommunication, if_pos hears], rfl, rfl, ?asserted, ?transfer,
    fun j hj => resetCommunication_cfg s hj, rfl, (resetCommunication_only s).eq⟩
  case asserted =>
    change (s.rst.asserted ||| BitVec.ofNat 8 (1 <<< 5)).getLsbD 5 = true
    rw [BitVec.getLsbD_or, show (BitVec.ofNat 8 (1 <<< 5)).getLsbD 5 = true from rfl, Bool.or_true]
  case transfer =>
    change ((vmod s.clients 0 fun c => { c with transfer := none, snapshot := none }).get 0).transfer = none
    rw [vmod_get_same]

/-! ## SYNC and bus-off -/

theorem canSyncRx_settled {s : State} (hears : nodeHears s = true) :
    ∃ t, exec .canSyncRx s = .next t ∧ t = { s with regs := t.regs } ∧ (∀ j, j ≠ key 0x2002 7 → regGet t j = regGet s j) ∧
      (assocWf defaultOf s.regs = true → regGet t (key 0x2002 7) = tb0Value s % 2 ^ widthOf (key 0x2002 7)) :=
  ⟨regPut s (key 0x2002 7) (tb0Value s), by rw [exec_canSyncRx, if_pos hears], rfl,
    fun _ hj => regGet_regPut_other _ _ _ _ hj, fun hwf => regGet_regPut_same _ _ _ hwf⟩

/-- The node off the bus, its USDO session lost. -/
def busLost (s : State) : State :=
  { s with
    can := { s.can with busOff := true }
    clients := vmod s.clients 0 fun c => { c with transfer := none, snapshot := none } }

theorem nodeHears_busOff {s : State} (h : s.can.busOff = true) : nodeHears s = false := by
  simp [nodeHears, h]

theorem canBusOff_settled (s : State) : ∃ t, exec .canBusOff s = .next t ∧ t.can = { s.can with busOff := true } ∧
    nodeHears t = false ∧ (t.clients.get 0).transfer = none ∧ (∀ k, k ≠ 0 → t.clients.get k = s.clients.get k) ∧
    t = { s with can := t.can, clients := t.clients } := by
  refine ⟨busLost s, rfl, rfl, nodeHears_busOff rfl, ?transfer, fun k hk => ?other, rfl⟩
  case transfer =>
    change ((vmod s.clients 0 fun c => { c with transfer := none, snapshot := none }).get 0).transfer = none
    rw [vmod_get_same]
  case other => exact vmod_get_other _ _ _ _ hk

/-- The node on the bus again. -/
def busBack (s : State) : State := { s with can := { s.can with busOff := false } }

theorem busBack_only (s : State) : Only [.can] s (busBack s) := .of_eq rfl

theorem busOffRecovery_settled {s : State} (hoff : s.can.busOff = true) :
    ∃ t, exec .busOffRecovery s = .next t ∧ t.can = { s.can with busOff := false } ∧
      (assocWf defaultOf s.regs = true → flag t (key 0x2002 8) 31 = true) ∧
      t = { s with regs := t.regs, overflow := t.overflow, emcy := t.emcy, log := t.log, can := t.can } := by
  have hexec : exec .busOffRecovery s = .next (raiseEmcy (setFlag (busBack s) (key 0x2002 8) 31) 0x8140 (key 0x2002 8) 0) :=
    if_pos hoff
  have hraise := ((Only.refl [.regs, .overflow, .emcy, .log] (busBack s)).step (setFlag_only (busBack s) (key 0x2002 8) 31)).step
    (raiseEmcy_only (setFlag (busBack s) (key 0x2002 8) 31) 0x8140 (key 0x2002 8) 0)
  refine ⟨_, hexec, hraise.part .can (by decide), fun hwf => ?_, ?_⟩
  · exact flag_raiseEmcy_setFlag (s := busBack s) 0x8140 (key 0x2002 8) 0 hwf
  · exact ((Only.refl [.regs, .overflow, .emcy, .log, .can] s).step (busBack_only s)).step hraise |>.eq

theorem busOffRecovery_onBus {s : State} (h : s.can.busOff = false) : exec .busOffRecovery s = .next s :=
  if_neg (by simp [h])

/-! ## Module-sent messages -/

theorem sendToSubscribers_only (s : State) (opcode : Nat) (payload : List Byte) :
    Only [.regs, .ports, .flows, .counts] s (sendToSubscribers s opcode payload) := by
  unfold sendToSubscribers
  dsimp only
  split
  · exact forEach_only (fun x e => endpointSend_only x ..) _ s
  · exact .refl _ s

theorem sendToSubscribers_none {s : State} (opcode : Nat) (payload : List Byte) (h : subscribers s = []) :
    sendToSubscribers s opcode payload = s := by
  unfold sendToSubscribers
  dsimp only
  split
  · rw [h]; rfl
  · rfl

/-- The time of the last heartbeat, noted. -/
def beatNoted (s : State) : State := { s with can := { s.can with heartbeatAt := s.now } }

theorem beatNoted_only (s : State) : Only [.can] s (beatNoted s) := .of_eq rfl

theorem heartbeat_settled {s : State} (hanswers : dictAnswers s = true) (hperiod : cfg s (key 0x1017 0) ≠ 0)
    (hdue : s.can.heartbeatAt + cfg s (key 0x1017 0) * cyclesPerMs ≤ s.now) :
    ∃ t, exec .heartbeat s = .next t ∧ t.can = { s.can with heartbeatAt := s.now } ∧
      (subscribers s = [] → t = { s with can := t.can }) ∧
      t = { s with regs := t.regs, ports := t.ports, flows := t.flows, counts := t.counts, can := t.can } := by
  have hexec : exec .heartbeat s = .next (sendToSubscribers (beatNoted s) 0x11 (heartbeatBytes s)) :=
    if_pos ⟨hanswers, hperiod, hdue⟩
  have hsent := sendToSubscribers_only (beatNoted s) 0x11 (heartbeatBytes s)
  refine ⟨_, hexec, hsent.part .can (by decide), fun hnone => ?_, ?_⟩
  · rw [sendToSubscribers_none (s := beatNoted s) _ _ hnone]; rfl
  · exact ((Only.refl [.regs, .ports, .flows, .counts, .can] s).step (beatNoted_only s)).step hsent |>.eq

theorem heartbeat_off {s : State} (h : cfg s (key 0x1017 0) = 0) : exec .heartbeat s = .next s :=
  if_neg fun ⟨_, hperiod, _⟩ => hperiod h

/-- The head of the EMCY queue has left. -/
def emcyLeft (s : State) (rest : List Emcy) (bytes : List Byte) : State :=
  { s with emcy := { s.emcy with queue := rest, sentAt := some s.now, lastSent := bytes } }

theorem emcyLeft_only (s : State) (rest : List Emcy) (bytes : List Byte) : Only [.emcy] s (emcyLeft s rest bytes) := .of_eq rfl

theorem emcySend_settled {s : State} {e : Emcy} {rest : List Emcy} (hanswers : dictAnswers s = true)
    (hqueue : s.emcy.queue = e :: rest) (hbus : s.can.busOff = false) (hfree : emcyFree s = true) :
    ∃ t, exec .emcySend s = .next t ∧
      t.emcy = { s.emcy with queue := rest, sentAt := some s.now, lastSent := emcyBytes e (errorRegister s) } ∧
      t = { s with regs := t.regs, emcy := t.emcy, ports := t.ports, flows := t.flows, counts := t.counts } := by
  have hexec : exec .emcySend s = .next (sendToSubscribers (emcyLeft s rest (emcyBytes e (errorRegister s))) 0x10
      (emcyBytes e (errorRegister s))) := by
    rw [exec_emcySend, execEmcySend, hqueue]
    exact if_pos ⟨hanswers, by simp [hbus], hfree⟩
  have hsent := sendToSubscribers_only (emcyLeft s rest (emcyBytes e (errorRegister s))) 0x10 (emcyBytes e (errorRegister s))
  refine ⟨_, hexec, hsent.part .emcy (by decide), ?_⟩
  exact ((Only.refl [.regs, .emcy, .ports, .flows, .counts] s).step (emcyLeft_only ..)).step hsent |>.eq

theorem emcySend_waits {s : State} (h : s.emcy.queue = [] ∨ s.can.busOff = true ∨ emcyFree s = false) :
    exec .emcySend s = .next s := by
  rw [exec_emcySend, execEmcySend]
  split
  next e rest hqueue =>
    refine if_neg fun ⟨_, hbus, hfree⟩ => ?_
    rcases h with hempty | hoff | hheld
    · simp [hqueue] at hempty
    · exact hbus hoff
    · simp [hheld] at hfree
  next => rfl

/-- Settles O55: each service of the node by its own lemma; a node that does not hear leaves every NMT command and SYNC. -/
theorem canNodeFollowsItsServices : Obligations.CanNodeFollowsItsServices := by
  unfold Obligations.CanNodeFollowsItsServices
  refine ⟨fun s hears => ⟨?start, ?stop, ?preOperational, resetNode_ignored hears, resetNode_moduleReset hears,
      resetCommunication_settled hears, canSyncRx_settled hears⟩,
    fun s hdeaf => ⟨?_, ?_, ?_, ?_, ?_, ?_⟩,
    fun s => ⟨canBusOff_settled s, busOffRecovery_settled, busOffRecovery_onBus⟩,
    fun s hanswers => ⟨heartbeat_settled hanswers, heartbeat_off, fun e rest => emcySend_settled hanswers, emcySend_waits⟩,
    fun k s hserved => exec_acknowledged (exec_errorListEmpty k s) hserved rfl⟩
  case start => rw [exec_nmtStart, if_pos hears]; rfl
  case stop => rw [exec_nmtStop, if_pos hears]; rfl
  case preOperational => rw [exec_nmtEnterPreOperational, if_pos hears]; rfl
  all_goals
    simp only [exec_nmtStart, exec_nmtStop, exec_nmtEnterPreOperational, exec_resetNode, exec_resetCommunication,
      exec_canSyncRx, hdeaf, Bool.false_eq_true, if_false]

end Sys2Proof.Machine
end

section
/-! PROOF. Phase faults, the current limit and telemetry of the power stage (16_power_ageing.md R380 to R387). -/

namespace Sys2Proof.Machine

set_option Elab.async false

theorem exec_phaseFault (i : Fin 7) (s : State) : exec (.phaseFault i) s = execPhaseFault i s := rfl

theorem exec_currentClamp (s : State) : exec .currentClamp s = execCurrentClamp s := rfl

theorem exec_telemetryFrameRx (f : TelemetryFrame) (s : State) : exec (.telemetryFrameRx f) s = execTelemetryFrameRx f s := rfl

theorem exec_telemetryLost (s : State) : exec .telemetryLost s = .next (telemetryLost s) := rfl

/-! ## What a warning leaves in the stage -/

/-- The stage's telemetry and its phases, which a warning leaves. -/
structure TelemetryKept (s t : State) : Prop where
  alive : t.stage.alive = s.stage.alive
  badFrames : t.stage.badFrames = s.stage.badFrames
  lost : t.stage.lost = s.stage.lost
  phases : t.stage.phases = s.stage.phases

namespace TelemetryKept

variable {s t u : State}

theorem of_stage (h : t.stage = s.stage) : TelemetryKept s t := ⟨by rw [h], by rw [h], by rw [h], by rw [h]⟩

theorem trans (h : TelemetryKept s t) (h' : TelemetryKept t u) : TelemetryKept s u :=
  ⟨h'.alive.trans h.alive, h'.badFrames.trans h.badFrames, h'.lost.trans h.lost, h'.phases.trans h.phases⟩

end TelemetryKept

theorem warnStands_telemetry (x : State) (now : Nat) (cause : Fin 8) : TelemetryKept x (warnStands x now cause) := ⟨rfl, rfl, rfl, rfl⟩

theorem warnActions_telemetry (s : State) (cause : Fin 8) : TelemetryKept s (warnActions s cause) := by
  have hbefore := ((Only.refl [.regs, .overflow, .emcy, .log, .planner] s).step (warnShown_only s cause)).step
    (plannerStopped_only (warnShown s cause) s.now)
  rw [warnActions_eq]
  exact ((TelemetryKept.of_stage (hbefore.part .stage (by decide))).trans (warnStands_telemetry _ s.now cause)).trans
    (.of_stage (suspendErase_stage _))

theorem warnTaken_telemetry (s : State) (cause : Fin 8) : TelemetryKept s (warnTaken s cause) :=
  ((warnActions_telemetry s cause).trans (.of_stage ((warnHeld_only _ cause).part .stage (by decide)))).trans ⟨rfl, rfl, rfl, rfl⟩

theorem powerFailWarning_telemetry (s : State) (cause : Fin 8) : TelemetryKept s (powerFailWarning s cause) := by
  rw [powerFailWarning_eq]
  split
  · exact .of_stage rfl
  · exact warnTaken_telemetry s cause

/-- After a warning's start the stage stands under one. -/
theorem powerFailWarning_isSome (s : State) (cause : Fin 8) : (powerFailWarning s cause).stage.warn.isSome = true := by
  rw [powerFailWarning_eq]
  split
  next h =>
    cases hwarn : s.stage.warn with
    | none => rw [hwarn] at h; exact absurd h Bool.false_ne_true
    | some _ => rfl
  next => rw [warnTaken_warn]; rfl

theorem warnActions_flagsStay (s : State) (cause : Fin 8) : FlagsStay warnKeys s (warnActions s cause) := by
  have hset := ((FlagsStay.refl warnKeys s).step (setFlag_flagsStay s kStage 31)).step (setFlag_flagsStay (setFlag s kStage 31) kStage 30)
  have hshown : FlagsStay warnKeys s (warnShown s cause) := (hset.step (bump_flagsStay ..)).step (raiseEmcy_flagsStay ..)
  rw [warnActions_eq]
  exact (hshown.step (plannerStopped_flagsStay (warnShown s cause) s.now)).trans (.of_regs _ rfl)

theorem powerFailWarning_flagsStay (s : State) (cause : Fin 8) : FlagsStay warnKeys s (powerFailWarning s cause) := by
  rw [powerFailWarning_eq]
  split
  · exact .refl ..
  · exact ((warnActions_flagsStay s cause).step (warnHeld_flagsStay _ cause)).trans (.of_regs _ rfl)

/-! ## Phases (R380 to R382) -/

/-- A phase out of service, counted and shown. -/
def phaseShown (s : State) (left : BitVec 7) : State :=
  regPut (bump (setFlag { s with stage := { s.stage with phases := left } } kStage 26) (key 0x5C00 8)) (key 0x5C00 7) left.toNat

/-- The same with its EMCY, at the level that the phases left give. -/
def phaseReported (s : State) (i : Fin 7) (left : BitVec 7) : State :=
  raiseEmcyWith (phaseShown s left) 0x3200 (if phaseCount left = 6 then 1 else 2) (unitBit (phaseShown s left)) (kStage * 256 + i.val)

/-- Rails of the inactive unit go at the next tick, and no planned switch is pending. -/
def railsShort (t : State) (now : Nat) : State :=
  { dropSwitch (powerFault t) with stage := { (dropSwitch (powerFault t)).stage with shortAt := some now } }

/-- What follows a phase fault, by the phases left. -/
def phaseFollowed (t : State) (now : Nat) (left : BitVec 7) : State :=
  if phaseCount left = 6 then setFlag t kStage 27
  else if phaseCount left = 5 then railsShort t now
  else powerFailWarning t 4

theorem execPhaseFault_inService {i : Fin 7} {s : State} (h : s.stage.phases.getLsbD i.val = true) (left : BitVec 7)
    (hleft : left = s.stage.phases &&& ~~~ (BitVec.ofNat 7 (1 <<< i.val))) :
    execPhaseFault i s = .next (phaseFollowed (phaseReported s i left) s.now left) := by
  subst hleft
  unfold execPhaseFault phaseFollowed phaseReported phaseShown railsShort
  rw [if_pos h]
  dsimp only
  split
  · rfl
  · split
    · rfl
    · rfl

/-- The state that a phase fault begins from: the phase is out. -/
def phaseOut (s : State) (left : BitVec 7) : State := { s with stage := { s.stage with phases := left } }

theorem phaseOut_only (s : State) (left : BitVec 7) : Only [.stage] s (phaseOut s left) := .of_eq rfl

theorem phaseReported_only (s : State) (i : Fin 7) (left : BitVec 7) :
    Only [.regs, .overflow, .emcy, .log] (phaseOut s left) (phaseReported s i left) :=
  ((((Only.refl _ _).step (setFlag_only (phaseOut s left) kStage 26)).step (bump_only ..)).step (regPut_only ..)).step (raiseEmcyWith_only ..)

theorem phaseReported_flag (s : State) (i : Fin 7) (left : BitVec 7) (hwf : assocWf defaultOf s.regs = true) :
    assocWf defaultOf (phaseReported s i left).regs = true ∧ flag (phaseReported s i left) kStage 26 = true := by
  have hset : assocWf defaultOf (setFlag (phaseOut s left) kStage 26).regs = true := regPut_wf _ _ _ hwf
  have hstay : FlagsStay [key 0x5C00 7, key 0x5C00 8, key 0x5082 2] (setFlag (phaseOut s left) kStage 26) (phaseReported s i left) :=
    (((FlagsStay.refl _ _).step (bump_flagsStay _ (key 0x5C00 8))).step (regPut_flagsStay _ (key 0x5C00 7) left.toNat)).step
      (raiseEmcyWith_flagsStay ..)
  exact ⟨hstay.wf hset, hstay.stay hset kStage 26 (by decide) (by decide) (flag_setFlag_same (s := phaseOut s left) hwf (by decide))⟩

/-- The parts a phase fault may change. -/
def phaseParts : List StatePart := [.regs, .overflow, .emcy, .log, .relay, .flash, .stage, .planner]

theorem railsShort_only (t : State) (now : Nat) : Only [.regs, .relay, .stage] t (railsShort t now) :=
  ((Only.refl _ t).step (powerFault_only t)).step (l' := [.relay, .stage]) (.of_eq rfl)

theorem phaseFollowed_only (t : State) (now : Nat) (left : BitVec 7) : Only phaseParts t (phaseFollowed t now left) :=
  .ite (fun _ => (Only.refl _ t).step (setFlag_only ..)) fun _ =>
    .ite (fun _ => (Only.refl _ t).step (railsShort_only t now)) fun _ => (Only.refl _ t).step (powerFailWarning_only ..)

theorem phaseFollowed_flagsStay (t : State) (now : Nat) (left : BitVec 7) : FlagsStay warnKeys t (phaseFollowed t now left) := by
  unfold phaseFollowed
  split
  · exact (FlagsStay.refl _ t).step (setFlag_flagsStay ..)
  · split
    · exact ((FlagsStay.refl _ t).step (setFlag_flagsStay t kIntegrity 28)).trans (.of_regs _ rfl)
    · exact powerFailWarning_flagsStay t 4

theorem phaseFollowed_phases (t : State) (now : Nat) (left : BitVec 7) : (phaseFollowed t now left).stage.phases = t.stage.phases := by
  unfold phaseFollowed
  split
  · rfl
  · split
    · rfl
    · exact (powerFailWarning_telemetry t 4).phases

theorem phaseFollowed_six {t : State} (now : Nat) {left : BitVec 7} (h : phaseCount left = 6) :
    (phaseFollowed t now left).stage.warn = t.stage.warn ∧ (phaseFollowed t now left).relay = t.relay := by
  rw [phaseFollowed, if_pos h]
  exact ⟨rfl, rfl⟩

theorem phaseFollowed_five {t : State} (now : Nat) {left : BitVec 7} (h : phaseCount left = 5) :
    (phaseFollowed t now left).stage.shortAt = some now ∧ (phaseFollowed t now left).relay.planned = false ∧
      (phaseFollowed t now left).stage.warn = t.stage.warn := by
  rw [phaseFollowed, if_neg (by omega), if_pos h]
  exact ⟨rfl, rfl, rfl⟩

theorem phaseFollowed_few {t : State} (now : Nat) {left : BitVec 7} (h : phaseCount left < 5) :
    (phaseFollowed t now left).stage.warn.isSome = true := by
  rw [phaseFollowed, if_neg (by omega), if_neg (by omega)]
  exact powerFailWarning_isSome t 4

theorem phaseFault_settled (i : Fin 7) (left : BitVec 7) (s : State)
    (hleft : left = s.stage.phases &&& ~~~ (BitVec.ofNat 7 (1 <<< i.val))) (h : s.stage.phases.getLsbD i.val = true) :
    ∃ t, exec (.phaseFault i) s = .next t ∧ t.stage.phases = left ∧
      (assocWf defaultOf s.regs = true → flag t kStage 26 = true) ∧
      (phaseCount left = 6 → t.stage.warn = s.stage.warn ∧ t.relay = s.relay) ∧
      (phaseCount left = 5 → t.stage.shortAt = some s.now ∧ t.relay.planned = false ∧ t.stage.warn = s.stage.warn) ∧
      (phaseCount left < 5 → t.stage.warn.isSome = true) ∧
      t = { s with regs := t.regs, overflow := t.overflow, emcy := t.emcy, log := t.log, relay := t.relay, flash := t.flash,
                   stage := t.stage, planner := t.planner } := by
  have hexec := (exec_phaseFault i s).trans (execPhaseFault_inService h left hleft)
  have hreported := phaseReported_only s i left
  have hstage : (phaseReported s i left).stage = { s.stage with phases := left } := hreported.part .stage (by decide)
  have hrelay : (phaseReported s i left).relay = s.relay := hreported.part .relay (by decide)
  have hflag := phaseReported_flag s i left
  have honly : Only phaseParts s (phaseReported s i left) :=
    ((Only.refl phaseParts s).step (phaseOut_only s left)).step hreported
  generalize phaseReported s i left = x at *
  refine ⟨_, hexec, ?phases, fun hwf => ?flag, fun hsix => ?six, fun hfive => ?five, fun hfew => phaseFollowed_few s.now hfew,
    (honly.step (phaseFollowed_only x s.now left)).eq⟩
  case phases => rw [phaseFollowed_phases, hstage]
  case flag =>
    obtain ⟨hwf', hset⟩ := hflag hwf
    exact (phaseFollowed_flagsStay x s.now left).stay hwf' kStage 26 (by decide) (by decide) hset
  case six =>
    obtain ⟨hwarn, hkept⟩ := phaseFollowed_six s.now hsix (t := x)
    exact ⟨by rw [hwarn, hstage], hkept.trans hrelay⟩
  case five =>
    obtain ⟨hshort, hplanned, hwarn⟩ := phaseFollowed_five s.now hfive (t := x)
    exact ⟨hshort, hplanned, by rw [hwarn, hstage]⟩

theorem phaseFault_outOfService {i : Fin 7} {s : State} (h : s.stage.phases.getLsbD i.val = false) : exec (.phaseFault i) s = .next s :=
  if_neg (by rw [h]; exact Bool.false_ne_true)

/-! ## The current limit (R383) -/

/-- The flags, the count and the EMCY of the current limit. -/
def clampShown (s : State) : State :=
  raiseEmcy (powerFault (bump (setFlag (setFlag s kStage 25) kStage 24) (key 0x5C00 0x0A))) 0x2100 kStage 0

theorem clampBegins_stage (s : State) : clampBegins s = { clampShown s with stage := { (clampShown s).stage with clampAt := some s.now } } := rfl

theorem clampShown_only (s : State) : Only [.regs, .overflow, .emcy, .log] s (clampShown s) :=
  (((((Only.refl _ s).step (setFlag_only s kStage 25)).step (setFlag_only ..)).step (bump_only ..)).step (powerFault_only _)).step
    (raiseEmcy_only ..)

theorem clampBegins_only (s : State) : Only [.regs, .overflow, .emcy, .log, .stage] s (clampBegins s) :=
  ((Only.refl _ s).step (clampShown_only s)).step (l' := [.stage]) (.of_eq rfl)

theorem clampShown_flags (s : State) (hwf : assocWf defaultOf s.regs = true) :
    flag (clampShown s) kStage 25 = true ∧ flag (clampShown s) kStage 24 = true ∧ flag (clampShown s) kIntegrity 28 = true := by
  have hwf1 : assocWf defaultOf (setFlag s kStage 25).regs = true := regPut_wf _ _ _ hwf
  have hwf2 : assocWf defaultOf (setFlag (setFlag s kStage 25) kStage 24).regs = true := regPut_wf _ _ _ hwf1
  have hbump := bump_flagsStay (setFlag (setFlag s kStage 25) kStage 24) (key 0x5C00 0x0A)
  have hlater : FlagsStay [key 0x5C00 0x0A, key 0x5082 2] (setFlag (setFlag s kStage 25) kStage 24) (clampShown s) :=
    (((FlagsStay.refl _ _).step hbump).step (setFlag_flagsStay _ kIntegrity 28)).step (raiseEmcy_flagsStay ..)
  refine ⟨hlater.stay hwf2 kStage 25 (by decide) (by decide) ?_,
    hlater.stay hwf2 kStage 24 (by decide) (by decide) (flag_setFlag_same hwf1 (by decide)),
    flag_raiseEmcy_setFlag (s := bump (setFlag (setFlag s kStage 25) kStage 24) (key 0x5C00 0x0A)) 0x2100 kStage 0 (hbump.wf hwf2)⟩
  exact (setFlag_flagsStay (setFlag s kStage 25) kStage 24).stay hwf1 kStage 25 (by decide) (by decide) (flag_setFlag_same hwf (by decide))

theorem currentClamp_begins {s : State} (h : s.stage.clampAt = none) :
    ∃ t, exec .currentClamp s = .next t ∧ t.stage = { s.stage with clampAt := some s.now } ∧
      (assocWf defaultOf s.regs = true → flag t kStage 25 = true ∧ flag t kStage 24 = true ∧ flag t kIntegrity 28 = true) ∧
      t = { s with regs := t.regs, overflow := t.overflow, emcy := t.emcy, log := t.log, stage := t.stage } := by
  have hexec : exec .currentClamp s = .next (clampBegins s) := by
    rw [exec_currentClamp, execCurrentClamp, h]
  have hstage : (clampShown s).stage = s.stage := (clampShown_only s).part .stage (by decide)
  have hflags := clampShown_flags s
  have honly := clampBegins_only s
  rw [clampBegins_stage] at hexec honly
  generalize clampShown s = x at *
  refine ⟨_, hexec, ?_, hflags, honly.eq⟩
  change { x.stage with clampAt := some s.now } = _
  rw [hstage]

theorem execCurrentClamp_acting {s : State} {start : Nat} (h : s.stage.clampAt = some start) :
    execCurrentClamp s = if start + cyclesPerMs ≤ s.now then .next (powerFailWarning s 3) else .next s := by
  unfold execCurrentClamp
  rw [h]

theorem Only.codingKept {l : List StatePart} {s t : State} (h : Only l s t)
    (hl : ∀ p ∈ [StatePart.dict, .chans, .streams, .flows], p ∉ l := by decide) : CodingKept s t :=
  ⟨h.part .dict (hl _ (by decide)), h.part .chans (hl _ (by decide)), h.part .streams (hl _ (by decide)),
    h.part .flows (hl _ (by decide))⟩

/-! ## Telemetry (R386, R387) -/

/-- Telemetry newly lost, shown and reported. -/
def lossShown (s : State) : State :=
  raiseEmcyWith (setFlag (powerFault s) kStage 23) 0x3200 2 (unitBit s) (kStage * 256)

/-- The same, noted in the stage. -/
def lossNoted (s : State) : State := { lossShown s with stage := { (lossShown s).stage with lost := true } }

/-- What a warning with cause 6 does, where none stands. -/
def lossWarned (t : State) : State :=
  match t.stage.warn with
  | some _ => t
  | none => warnActions t 6

theorem telemetryLost_known {s : State} (h : s.stage.lost = true) : telemetryLost s = s := if_pos h

theorem telemetryLost_newly {s : State} (h : s.stage.lost = false) : telemetryLost s = lossWarned (lossNoted s) :=
  if_neg (by rw [h]; exact Bool.false_ne_true)

theorem lossShown_only (s : State) : Only [.regs, .overflow, .emcy, .log] s (lossShown s) :=
  (((Only.refl _ s).step (powerFault_only s)).step (setFlag_only ..)).step (raiseEmcyWith_only ..)

theorem lossNoted_only (s : State) : Only [.regs, .overflow, .emcy, .log, .stage] s (lossNoted s) :=
  ((Only.refl _ s).step (lossShown_only s)).step (l' := [.stage]) (.of_eq rfl)

theorem lossWarned_only (t : State) : Only [.regs, .overflow, .emcy, .log, .planner, .stage, .flash] t (lossWarned t) := by
  unfold lossWarned
  split
  · exact .refl ..
  · exact warnActions_only t 6

theorem lossWarned_telemetry (t : State) : TelemetryKept t (lossWarned t) := by
  unfold lossWarned
  split
  · exact .of_stage rfl
  · exact warnActions_telemetry t 6

theorem lossWarned_isSome (t : State) : (lossWarned t).stage.warn.isSome = true := by
  unfold lossWarned
  split
  next h => rw [h]; rfl
  next => rw [warnActions_warn]; rfl

theorem lossWarned_flagsStay (t : State) : FlagsStay warnKeys t (lossWarned t) := by
  unfold lossWarned
  split
  · exact .refl ..
  · exact warnActions_flagsStay t 6

theorem lossNoted_flags (s : State) (hwf : assocWf defaultOf s.regs = true) :
    assocWf defaultOf (lossNoted s).regs = true ∧ flag (lossNoted s) kStage 23 = true ∧ flag (lossNoted s) kIntegrity 28 = true := by
  have hwf1 : assocWf defaultOf (powerFault s).regs = true := regPut_wf _ _ _ hwf
  have hwf2 : assocWf defaultOf (setFlag (powerFault s) kStage 23).regs = true := regPut_wf _ _ _ hwf1
  have hemcy : FlagsStay lostKeys (setFlag (powerFault s) kStage 23) (lossShown s) := raiseEmcyWith_flagsStay ..
  have hpower : flag (powerFault s) kIntegrity 28 = true := flag_setFlag_same hwf (by decide)
  refine ⟨hemcy.wf hwf2, hemcy.stay hwf2 kStage 23 (by decide) (by decide) (flag_setFlag_same hwf1 (by decide)),
    hemcy.stay hwf2 kIntegrity 28 (by decide) (by decide) ?_⟩
  exact (setFlag_flagsStay (powerFault s) kStage 23).stay hwf1 kIntegrity 28 (by decide) (by decide) hpower

theorem telemetryLost_settled {s : State} (h : s.stage.lost = false) :
    ∃ t, exec .telemetryLost s = .next t ∧ t.stage.lost = true ∧ t.stage.warn.isSome = true ∧
      (assocWf defaultOf s.regs = true → flag t kStage 23 = true ∧ flag t kIntegrity 28 = true) ∧ CodingKept s t := by
  have hexec : exec .telemetryLost s = .next (lossWarned (lossNoted s)) := by rw [exec_telemetryLost, telemetryLost_newly h]
  have hlost : (lossNoted s).stage.lost = true := rfl
  have hflags := lossNoted_flags s
  have honly : Only [.regs, .overflow, .emcy, .log, .stage, .planner, .flash] s (lossNoted s) := (lossNoted_only s).mono (by decide)
  generalize lossNoted s = x at *
  refine ⟨_, hexec, (lossWarned_telemetry x).lost.trans hlost, lossWarned_isSome x, fun hwf => ?_,
    (honly.step (lossWarned_only x)).codingKept⟩
  obtain ⟨hwf', hstage, hpower⟩ := hflags hwf
  exact ⟨(lossWarned_flagsStay x).stay hwf' kStage 23 (by decide) (by decide) hstage,
    (lossWarned_flagsStay x).stay hwf' kIntegrity 28 (by decide) (by decide) hpower⟩

/-- A loss, new or known, leaves telemetry lost and the count of bad frames as it is. -/
theorem telemetryLost_stage (s : State) : (telemetryLost s).stage.lost = true ∧ (telemetryLost s).stage.badFrames = s.stage.badFrames := by
  cases h : s.stage.lost with
  | true => rw [telemetryLost_known h]; exact ⟨h, rfl⟩
  | false =>
    have hshown : (lossShown s).stage = s.stage := (lossShown_only s).part .stage (by decide)
    have hstage : (lossNoted s).stage.badFrames = s.stage.badFrames := by
      change (lossShown s).stage.badFrames = _
      rw [hshown]
    have hlost : (lossNoted s).stage.lost = true := rfl
    rw [telemetryLost_newly h]
    generalize lossNoted s = x at *
    exact ⟨(lossWarned_telemetry x).lost.trans hlost, (lossWarned_telemetry x).badFrames.trans hstage⟩

/-! ### Frames -/

/-- The ALIVE value of a frame follows the last one's. -/
def inSequence (s : State) (f : TelemetryFrame) : Bool :=
  match s.stage.alive with
  | some a => decide (f.alive = a + 1)
  | none => true

/-- The warning as a good frame says it. -/
def frameWarned (t : State) (f : TelemetryFrame) : State :=
  if f.flags.getLsbD 7 then
    match t.stage.warn with
    | some c => if c.val = 6 ∧ (finOf 8 (by decide) f.cause.toNat).val ≠ 6 then warnActions t (finOf 8 (by decide) f.cause.toNat) else t
    | none => warnActions t (finOf 8 (by decide) f.cause.toNat)
  else
    match t.stage.warn with
    | some _ => clearWarning t
    | none => t

/-- The state after a bad frame, before telemetry is given up. -/
def frameMissed (s : State) (f : TelemetryFrame) : State :=
  { s with stage := { s.stage with
    badFrames := s.stage.badFrames + 1
    alive := if decide (crc16 0x1D0F#16 (frameBytes f) = f.crc) then some f.alive else s.stage.alive.map (· + 1) } }

theorem execTelemetryFrameRx_good {f : TelemetryFrame} {s : State}
    (h : (decide (crc16 0x1D0F#16 (frameBytes f) = f.crc) && inSequence s f) = true) :
    execTelemetryFrameRx f s = .next (frameWarned (telemetryApply s f) f) := by
  refine (if_pos h).trans ?_
  unfold frameWarned
  split
  · rfl
  · rfl

theorem execTelemetryFrameRx_bad {f : TelemetryFrame} {s : State}
    (h : (decide (crc16 0x1D0F#16 (frameBytes f) = f.crc) && inSequence s f) = false) :
    execTelemetryFrameRx f s =
      if 4 ≤ s.stage.badFrames + 1 then .next (telemetryLost (frameMissed s f)) else .next (frameMissed s f) :=
  if_neg fun hgood => Bool.false_ne_true (h.symm.trans hgood)

theorem inSequence_of {f : TelemetryFrame} {s : State} (h : ∀ a, s.stage.alive = some a → f.alive = a + 1) : inSequence s f = true := by
  unfold inSequence
  split
  next a ha => exact decide_eq_true (h a ha)
  next => rfl

theorem inSequence_broken {f : TelemetryFrame} {s : State} {a : BitVec 8} (ha : s.stage.alive = some a) (h : f.alive ≠ a + 1) :
    inSequence s f = false := by
  unfold inSequence
  rw [ha]
  exact decide_eq_false h

theorem frameWarned_telemetry (t : State) (f : TelemetryFrame) : TelemetryKept t (frameWarned t f) := by
  unfold frameWarned
  split
  · split
    · split
      · exact warnActions_telemetry ..
      · exact .of_stage rfl
    · exact warnActions_telemetry ..
  · split
    · exact ⟨rfl, rfl, rfl, rfl⟩
    · exact .of_stage rfl

theorem frameWarned_only (t : State) (f : TelemetryFrame) :
    Only [.regs, .overflow, .emcy, .log, .planner, .stage, .flash] t (frameWarned t f) := by
  unfold frameWarned
  split
  · split
    · exact .ite (fun _ => warnActions_only ..) fun _ => .refl ..
    · exact warnActions_only ..
  · split
    · exact (clearWarning_only t).mono (by decide)
    · exact .refl ..

theorem frameWarned_ended {t : State} {f : TelemetryFrame} (h : f.flags.getLsbD 7 = false) : (frameWarned t f).stage.warn = none := by
  rw [frameWarned, if_neg (by rw [h]; exact Bool.false_ne_true)]
  split
  · exact clearWarning_warn t
  next hnone => exact hnone

theorem frameWarned_isSome {t : State} {f : TelemetryFrame} (h : f.flags.getLsbD 7 = true) :
    (frameWarned t f).stage.warn.isSome = true := by
  rw [frameWarned, if_pos h]
  split
  next c hc =>
    split
    · rw [warnActions_warn]; rfl
    · rw [hc]; rfl
  · rw [warnActions_warn]; rfl

/-! ### A good frame's flags and values -/

/-- The words of a good frame, and the current limit where it begins to act. -/
def frameShown (s : State) (f : TelemetryFrame) : State :=
  let s0 := if f.flags.getLsbD 6 ∧ s.stage.clampAt = none then clampBegins s else s
  let s1 := if f.flags.getLsbD 5 then setFlag s0 kStage 26 else s0
  let s2 := if s.stage.railsRemoved.isSome then setFlag s1 kStage 20 else s1
  let t := putFlag (putFlag (putFlag (putFlag s2 kStage 25 (f.flags.getLsbD 6)) kStage 27 (f.flags.getLsbD 4)) kStage 29
    (f.flags.getLsbD 3)) kStage 28 (f.flags.getLsbD 1)
  let t1 := regPut t (key 0x5C00 7) (f.phases.toNat % 128)
  match slowKey f.slowId.toNat with
  | some k => regPut t1 k f.slowValue.toNat
  | none => t1

/-- The stage as a good frame leaves it. -/
def frameStaged (t : State) (f : TelemetryFrame) : State :=
  { t with stage := { t.stage with
      alive := some f.alive
      badFrames := 0
      lost := false
      phases := f.phases.setWidth 7
      clampAt := if f.flags.getLsbD 6 then t.stage.clampAt else none } }

theorem telemetryApply_eq (s : State) (f : TelemetryFrame) : telemetryApply s f = frameStaged (frameShown s f) f := rfl

theorem frameShown_only (s : State) (f : TelemetryFrame) : Only [.regs, .overflow, .emcy, .log, .stage] s (frameShown s f) := by
  have h0 : Only [.regs, .overflow, .emcy, .log, .stage] s (if f.flags.getLsbD 6 ∧ s.stage.clampAt = none then clampBegins s else s) :=
    .ite (fun _ => clampBegins_only s) fun _ => .refl ..
  unfold frameShown
  dsimp only
  generalize (if f.flags.getLsbD 6 ∧ s.stage.clampAt = none then clampBegins s else s) = x at *
  have h1 : Only [.regs, .overflow, .emcy, .log, .stage] s (if f.flags.getLsbD 5 then setFlag x kStage 26 else x) :=
    .ite (fun _ => h0.step (setFlag_only ..)) fun _ => h0
  generalize (if f.flags.getLsbD 5 then setFlag x kStage 26 else x) = y at *
  have h2 : Only [.regs, .overflow, .emcy, .log, .stage] s (if s.stage.railsRemoved.isSome then setFlag y kStage 20 else y) :=
    .ite (fun _ => h1.step (setFlag_only ..)) fun _ => h1
  generalize (if s.stage.railsRemoved.isSome then setFlag y kStage 20 else y) = z at *
  have h3 := ((((h2.step (putFlag_only z kStage 25 (f.flags.getLsbD 6))).step (putFlag_only _ kStage 27 (f.flags.getLsbD 4))).step
    (putFlag_only _ kStage 29 (f.flags.getLsbD 3))).step (putFlag_only _ kStage 28 (f.flags.getLsbD 1))).step
    (regPut_only _ (key 0x5C00 7) (f.phases.toNat % 128))
  split
  · exact h3.step (regPut_only ..)
  · exact h3

theorem goodFrame_settled {f : TelemetryFrame} {s : State} (hcrc : crc16 0x1D0F#16 (frameBytes f) = f.crc)
    (halive : ∀ a, s.stage.alive = some a → f.alive = a + 1) :
    ∃ t, exec (.telemetryFrameRx f) s = .next t ∧ t.stage.alive = some f.alive ∧ t.stage.badFrames = 0 ∧ t.stage.lost = false ∧
      t.stage.phases = f.phases.setWidth 7 ∧ (f.flags.getLsbD 7 = false → t.stage.warn = none) ∧
      (f.flags.getLsbD 7 = true → t.stage.warn.isSome = true) ∧ CodingKept s t := by
  have hexec := (exec_telemetryFrameRx f s).trans
    (execTelemetryFrameRx_good (by rw [decide_eq_true hcrc, inSequence_of halive]; rfl))
  have hshown : Only [.regs, .overflow, .emcy, .log, .stage, .planner, .flash] s (frameShown s f) := (frameShown_only s f).mono (by decide)
  rw [telemetryApply_eq] at hexec
  generalize frameShown s f = x at *
  have hstaged : Only [.regs, .overflow, .emcy, .log, .stage, .planner, .flash] s (frameStaged x f) :=
    hshown.step (l' := [.stage]) (.of_eq rfl)
  have hkept := frameWarned_telemetry (frameStaged x f) f
  exact ⟨_, hexec, hkept.alive, hkept.badFrames, hkept.lost, hkept.phases, frameWarned_ended, frameWarned_isSome,
    (hstaged.step (frameWarned_only (frameStaged x f) f)).codingKept⟩

theorem badFrame_settled {f : TelemetryFrame} {s : State}
    (h : crc16 0x1D0F#16 (frameBytes f) ≠ f.crc ∨ ∃ a, s.stage.alive = some a ∧ f.alive ≠ a + 1) :
    ∃ t, exec (.telemetryFrameRx f) s = .next t ∧ t.stage.badFrames = s.stage.badFrames + 1 ∧
      (s.stage.badFrames < 3 → t = { s with stage := t.stage } ∧ t.stage.lost = s.stage.lost ∧ t.stage.warn = s.stage.warn) ∧
      (3 ≤ s.stage.badFrames → t.stage.lost = true) := by
  have hbad : (decide (crc16 0x1D0F#16 (frameBytes f) = f.crc) && inSequence s f) = false := by
    rcases h with hcrc | ⟨a, ha, hne⟩
    · rw [decide_eq_false hcrc]; rfl
    · rw [inSequence_broken ha hne, Bool.and_false]
  have hexec := (exec_telemetryFrameRx f s).trans (execTelemetryFrameRx_bad hbad)
  by_cases hfew : s.stage.badFrames < 3
  · rw [if_neg (by omega)] at hexec
    exact ⟨_, hexec, rfl, fun _ => ⟨rfl, rfl, rfl⟩, fun hmany => absurd hmany (by omega)⟩
  · rw [if_pos (by omega)] at hexec
    obtain ⟨hlost, hcount⟩ := telemetryLost_stage (frameMissed s f)
    exact ⟨_, hexec, hcount, fun hlow => absurd hlow hfew, fun _ => hlost⟩

end Sys2Proof.Machine
end

section
/-! PROOF. The margin planner: its runs, the voltage steps and the end of a worn unit's relay duty (16_power_ageing.md R397 to R401). -/

namespace Sys2Proof.Machine

set_option Elab.async false

theorem exec_plannerRun (m : PlanMeasure) (s : State) : exec (.plannerRun m) s = execPlannerRun m s := rfl

theorem exec_planNow (k : Client) (m : PlanMeasure) (s : State) :
    exec (.planNow k m) s = .next (serveWrite s k 0x5C10 fun t => .ok (runPlan t m)) := rfl

theorem exec_voltageStep (die : DieId) (s : State) : exec (.voltageStep die) s = execVoltageStep die s := rfl

theorem exec_wornDutyEnd (die : DieId) (s : State) : exec (.wornDutyEnd die) s = execWornDutyEnd die s := rfl

/-! ## One die's part of a run -/

section
variable (s : State) (m : PlanMeasure) (die : DieId)

/-- The canary steps of a die with those of this run. -/
def dieSteps : Nat := min 255 ((s.planner.dies.get die).steps + (if 0 < (m.dies.get die).canaryEvents then 1 else 0))

/-- The offset that Table 16-5 asks for, before its bound. -/
def dieNeed : Nat := requiredOffset (s.planner.dies.get die).target (degradationOf die (m.dies.get die)) (dieSteps s m die) die

/-- The forecast of a die, in days. -/
def dieForecast : Nat := forecastOf s die (degradationOf die (m.dies.get die))

def dieWorn : Bool := (s.planner.dies.get die).worn || decide (60 < dieNeed s m die)

def dieNotice365 : Bool := decide (dieForecast s m die < 365) || dieWorn s m die

def dieNotice180 : Bool := decide (dieForecast s m die < 180)

/-- A die's record once its part of the run is done. -/
def diePlan : DieState :=
  { (if die = 2 then s.planner.dies.get die else refreshFloor (s.planner.dies.get die) (m.dies.get die).eccErrors) with
    target := min 60 (dieNeed s m die)
    steps := dieSteps s m die
    skipped := false
    worn := dieWorn s m die
    noticed365 := (s.planner.dies.get die).noticed365 || dieNotice365 s m die
    noticed180 := (s.planner.dies.get die).noticed180 || dieNotice180 s m die
    noticeAt := if dieNotice365 s m die && (s.planner.dies.get die).noticeAt.isNone then some s.planner.hours
      else (s.planner.dies.get die).noticeAt }

/-- The words of a die's part of the run. -/
def dieWords : State :=
  let left := match (diePlan s m die).noticeAt with
    | some h => 180 - (s.planner.hours - h) / 24
    | none => 0xFFFF
  regPut (regPut (regPut (regPut (bumpBy (regPut s (kDie die 1) (degradationOf die (m.dies.get die))) (kDie die 4) (m.dies.get die).canaryEvents)
    (kDie die 3) (dieSteps s m die)) (kDie die 5) (60 - min 60 (dieNeed s m die))) (kDie die 6) (dieForecast s m die)) (kDie die 8) left

/-- The same with the flags and the notice. -/
def dieShown : State :=
  let t := dieWords s m die
  let t1 := if dieWorn s m die then setFlag t kPlanner 29 else t
  let t2 := if (s.planner.dies.get die).floor < (diePlan s m die).floor then setFlag t1 kPlanner 26 else t1
  if (dieNotice365 s m die && !(s.planner.dies.get die).noticed365) || (dieNotice180 s m die && !(s.planner.dies.get die).noticed180) then
    raiseEmcy (setFlag t2 kPlanner 30) 0xFF0A kPlanner die.val
  else t2

/-- A die's record and its history entry stored. -/
def dieStored (t : State) : State :=
  { t with
    planner := { t.planner with dies := vmod t.planner.dies die fun _ => diePlan s m die }
    flash := { t.flash with
      pulse := true
      writing := .history
      history := (⟨s.planner.hours, die, degradationOf die (m.dies.get die), dieSteps s m die, min 60 (dieNeed s m die),
        dieForecast s m die, true⟩ :: t.flash.history).take 8192 } }

/-- A die skipped, its unit in repair. -/
def dieSkipped : State :=
  { s with planner := { s.planner with dies := vmod s.planner.dies die fun x => { x with skipped := true } } }

theorem planDie_eq : planDie s m die =
    if (dieUnit die).any (inRepair s) then dieSkipped s die else dieStored s m die (dieShown s m die) := by
  unfold planDie dieSkipped dieStored dieShown dieWords diePlan dieNotice365 dieNotice180 dieForecast dieWorn dieNeed dieSteps
  rfl

theorem dieWords_only : Only [.regs, .overflow] s (dieWords s m die) :=
  ((((((Only.refl _ s).step (regPut_only ..)).step (bumpBy_only ..)).step (regPut_only ..)).step (regPut_only ..)).step
    (regPut_only ..)).step (regPut_only ..)

theorem dieShown_only : Only [.regs, .overflow, .emcy, .log] s (dieShown s m die) := by
  have hwords : Only [.regs, .overflow, .emcy, .log] s (dieWords s m die) := (dieWords_only s m die).mono (by decide)
  unfold dieShown
  dsimp only
  have h1 := Only.ite (c := dieWorn s m die = true) (fun _ => hwords.step (setFlag_only (dieWords s m die) kPlanner 29)) fun _ => hwords
  generalize (if dieWorn s m die then setFlag (dieWords s m die) kPlanner 29 else dieWords s m die) = x at *
  have h2 := Only.ite (c := (s.planner.dies.get die).floor < (diePlan s m die).floor) (fun _ => h1.step (setFlag_only x kPlanner 26)) fun _ => h1
  generalize (if (s.planner.dies.get die).floor < (diePlan s m die).floor then setFlag x kPlanner 26 else x) = y at *
  exact .ite (fun _ => (h2.step (setFlag_only y kPlanner 30)).step (raiseEmcy_only ..)) fun _ => h2

theorem planDie_only : Only [.regs, .overflow, .emcy, .log, .flash, .planner] s (planDie s m die) := by
  rw [planDie_eq]
  exact .ite (fun _ => .of_eq rfl) fun _ =>
    ((Only.refl [.regs, .overflow, .emcy, .log, .flash, .planner] s).step (dieShown_only s m die)).step (l' := [.flash, .planner]) (.of_eq rfl)

theorem refreshFloor_inUse (d : DieState) (errors : Nat) : (refreshFloor d errors).inUse = d.inUse := by
  unfold refreshFloor
  repeat' split
  all_goals rfl

theorem diePlan_inUse : (diePlan s m die).inUse = (s.planner.dies.get die).inUse := by
  change (if die = 2 then s.planner.dies.get die else refreshFloor (s.planner.dies.get die) (m.dies.get die).eccErrors).inUse = _
  split
  · rfl
  · exact refreshFloor_inUse ..

theorem diePlan_target : (diePlan s m die).target = min 60 (dieNeed s m die) := rfl

theorem diePlan_skipped : (diePlan s m die).skipped = false := rfl

end

/-- What a die's part of a run leaves: its record planned, the others, the last run's end and the lanes' values as before. -/
structure DiePlanned (s : State) (m : PlanMeasure) (die : DieId) (t : State) : Prop where
  same : t.planner.dies.get die = diePlan s m die
  others : ∀ d, d ≠ die → t.planner.dies.get d = s.planner.dies.get d
  lastEnd : t.planner.lastEnd = s.planner.lastEnd
  equal : t.flash.equal = s.flash.equal

theorem dieStored_planned (s : State) (m : PlanMeasure) (die : DieId) {t : State} (hplanner : t.planner = s.planner)
    (hflash : t.flash = s.flash) : DiePlanned s m die (dieStored s m die t) := by
  refine ⟨vmod_get_same t.planner.dies die fun _ => diePlan s m die, fun d hd => ?_, ?_, ?_⟩
  · exact (vmod_get_other t.planner.dies die d (fun _ => diePlan s m die) hd).trans (by rw [hplanner])
  · change t.planner.lastEnd = _
    rw [hplanner]
  · change t.flash.equal = _
    rw [hflash]

theorem planDie_planned {s : State} (m : PlanMeasure) (die : DieId) (h : s.relay.repair = .none) :
    DiePlanned s m die (planDie s m die) := by
  have hnone : ¬ (dieUnit die).any (inRepair s) = true := by
    cases dieUnit die with
    | none => exact Bool.false_ne_true
    | some u => simp [inRepair, h]
  have hshown := dieShown_only s m die
  rw [planDie_eq, if_neg hnone]
  exact dieStored_planned s m die (hshown.part .planner (by decide)) (hshown.part .flash (by decide))

/-! ## Steps 4 and 5 for a unit -/

/-- A sensor lane whose adapted value is stored. -/
def laneGood (x : Lane) : Bool := decide (x.mode = .locked) && decide (24 ≤ x.eye)

/-- A good lane takes the value it has adapted to. -/
def laneAdapted (v : Nat) (x : Lane) : Lane := if laneGood x then { x with equal := v } else x

/-- The last-good value of a good lane, the old one of another. -/
def equalOf (x : Lane) (w : Option StoredWord) : Option StoredWord := if laneGood x then some ⟨x.equal, true⟩ else w

/-- The lanes of a unit, those that are good with the value they have adapted to. -/
def lanesAdapted (free : Nat) (xs : Vector Lane 64) : Vector Lane 64 :=
  xs.mapFinIdx fun i x _ => laneAdapted (Config.freeValue 64 (free + i)).toNat x

/-- The last-good values of a unit's sensor lanes. -/
def equalStored (lanes : Vector Lane 64) (equal : Vector (Option StoredWord) 64) : Vector (Option StoredWord) 64 :=
  equal.mapFinIdx fun i w hi => equalOf lanes[i] w

theorem lanesAdapted_get (free : Nat) (xs : Vector Lane 64) (n : LaneId) :
    (lanesAdapted free xs).get n = laneAdapted (Config.freeValue 64 (free + n.val)).toNat (xs.get n) :=
  Vector.getElem_mapFinIdx (xs := xs) (f := fun i x _ => laneAdapted (Config.freeValue 64 (free + i)).toNat x) n.isLt

theorem equalStored_get (lanes : Vector Lane 64) (equal : Vector (Option StoredWord) 64) (n : LaneId) :
    (equalStored lanes equal).get n = equalOf (lanes.get n) (equal.get n) :=
  Vector.getElem_mapFinIdx (xs := equal) (f := fun i w hi => equalOf lanes[i] w) n.isLt

/-- A lane that adapts keeps its mode and its eye. -/
theorem laneGood_adapted (free : Nat) (xs : Vector Lane 64) (n : LaneId) : laneGood ((lanesAdapted free xs).get n) = laneGood (xs.get n) := by
  rw [lanesAdapted_get, laneAdapted]
  split
  · rfl
  · rfl

/-- What steps 4 and 5 of a unit do to its sensor lanes and their last-good values; the other unit's stay. -/
structure LanesPlanned (s : State) (u : UnitId) (t : State) : Prop where
  good : ∀ n, laneGood (laneAt s u n) = true → (t.flash.equal.get u).get n = some ⟨(laneAt t u n).equal, true⟩
  rest : ∀ n, laneGood (laneAt s u n) = false →
    laneAt t u n = laneAt s u n ∧ (t.flash.equal.get u).get n = (s.flash.equal.get u).get n
  otherLanes : t.lanes.get u.other = s.lanes.get u.other
  otherEqual : t.flash.equal.get u.other = s.flash.equal.get u.other

theorem storeLanes_state (s : State) (u : UnitId) (net : BitVec 16) :
    (storeLanes s u net).lanes = s.lanes.set u (lanesAdapted s.free (s.lanes.get u)) ∧
      (storeLanes s u net).flash.equal =
        s.flash.equal.set u (equalStored (lanesAdapted s.free (s.lanes.get u)) (s.flash.equal.get u)) := ⟨rfl, rfl⟩

theorem LanesPlanned.of_state {s t : State} {u : UnitId} (free : Nat)
    (hlanes : t.lanes = s.lanes.set u (lanesAdapted free (s.lanes.get u)))
    (hequal : t.flash.equal = s.flash.equal.set u (equalStored (lanesAdapted free (s.lanes.get u)) (s.flash.equal.get u))) :
    LanesPlanned s u t := by
  have hadapted : ∀ n, laneGood ((lanesAdapted free (s.lanes.get u)).get n) = laneGood (laneAt s u n) :=
    laneGood_adapted free (s.lanes.get u)
  refine ⟨fun n hgood => ?_, fun n hrest => ⟨?_, ?_⟩, by rw [hlanes, pair_set_other], by rw [hequal, pair_set_other]⟩
  · rw [hequal, laneAt, hlanes, pair_set_get, pair_set_get, equalStored_get, equalOf, hadapted, if_pos hgood]
  · rw [laneAt, hlanes, pair_set_get, lanesAdapted_get, laneAdapted]
    exact if_neg (by rw [← laneAt, hrest]; exact Bool.false_ne_true)
  · rw [hequal, pair_set_get, equalStored_get, equalOf, hadapted, hrest]
    rfl

theorem storeLanes_only (s : State) (u : UnitId) (net : BitVec 16) : Only [.free, .lanes, .flash] s (storeLanes s u net) := .of_eq rfl

theorem storeTraining_only (s : State) (u : UnitId) : Only [.free, .flash] s (storeTraining s u) := .of_eq rfl

theorem storeTraining_lanes (s : State) (u : UnitId) :
    (storeTraining s u).lanes = s.lanes ∧ (storeTraining s u).flash.equal = s.flash.equal := ⟨rfl, rfl⟩

/-- The last-good lane and training values of a unit. -/
def unitStored (s : State) (m : PlanMeasure) (u : UnitId) : State :=
  storeTraining (storeLanes s u (if u = .a then m.goodNetA else m.goodNetB)) u

/-- A unit's values with LANE_MARGIN_LOW. -/
def unitPlanned (s : State) (m : PlanMeasure) (u : UnitId) : State :=
  if m.lowNet || lowSensorLane s then setFlag (unitStored s m u) kPlanner 25 else unitStored s m u

theorem planUnit_eq (s : State) (m : PlanMeasure) (u : UnitId) : planUnit s m u = if inRepair s u then s else unitPlanned s m u := rfl

theorem unitStored_only (s : State) (m : PlanMeasure) (u : UnitId) : Only [.free, .lanes, .flash] s (unitStored s m u) :=
  (storeLanes_only ..).step (storeTraining_only ..)

theorem unitPlanned_only (s : State) (m : PlanMeasure) (u : UnitId) : Only [.free, .regs, .lanes, .flash] s (unitPlanned s m u) := by
  have hstored : Only [.free, .regs, .lanes, .flash] s (unitStored s m u) := (unitStored_only s m u).mono (by decide)
  exact .ite (fun _ => hstored.step (setFlag_only ..)) fun _ => hstored

theorem planUnit_only (s : State) (m : PlanMeasure) (u : UnitId) : Only [.free, .regs, .lanes, .flash] s (planUnit s m u) := by
  rw [planUnit_eq]
  exact .ite (fun _ => .refl ..) fun _ => unitPlanned_only ..

theorem unitStored_lanes (s : State) (m : PlanMeasure) (u : UnitId) : LanesPlanned s u (unitStored s m u) := by
  obtain ⟨hlanes, hequal⟩ := storeLanes_state s u (if u = .a then m.goodNetA else m.goodNetB)
  obtain ⟨hlanes', hequal'⟩ := storeTraining_lanes (storeLanes s u (if u = .a then m.goodNetA else m.goodNetB)) u
  exact .of_state s.free (hlanes'.trans hlanes) (hequal'.trans hequal)

theorem LanesPlanned.congr {s t t' : State} {u : UnitId} (h : LanesPlanned s u t) (hlanes : t'.lanes = t.lanes)
    (hequal : t'.flash.equal = t.flash.equal) : LanesPlanned s u t' := by
  obtain ⟨hgood, hrest, hother, hotherEqual⟩ := h
  refine ⟨fun n hn => ?_, fun n hn => ?_, by rw [hlanes, hother], by rw [hequal, hotherEqual]⟩
  · rw [hequal, laneAt, hlanes]
    exact hgood n hn
  · rw [hequal, laneAt, hlanes]
    exact hrest n hn

theorem inRepair_none {s : State} (h : s.relay.repair = .none) (u : UnitId) : inRepair s u = false := by
  simp [inRepair, h]

theorem planUnit_planned {s : State} (m : PlanMeasure) (u : UnitId) (h : s.relay.repair = .none) :
    planUnit s m u = unitPlanned s m u := by
  rw [planUnit_eq, if_neg (by rw [inRepair_none h]; exact Bool.false_ne_true)]

theorem unitPlanned_lanes (s : State) (m : PlanMeasure) (u : UnitId) : LanesPlanned s u (unitPlanned s m u) := by
  unfold unitPlanned
  split
  · exact (unitStored_lanes s m u).congr rfl rfl
  · exact unitStored_lanes s m u

theorem unitPlanned_lowNet {s : State} {m : PlanMeasure} (u : UnitId) (h : m.lowNet = true) (hwf : assocWf defaultOf s.regs = true) :
    assocWf defaultOf (unitPlanned s m u).regs = true ∧ flag (unitPlanned s m u) kPlanner 25 = true := by
  have hregs : assocWf defaultOf (unitStored s m u).regs = true := hwf
  rw [unitPlanned, h, Bool.true_or, if_pos rfl]
  exact ⟨regPut_wf _ _ _ hregs, flag_setFlag_same hregs (by decide)⟩

/-! ## A run -/

/-- The record of a die as a run leaves it: its offset asked for, the one in use as before. -/
def DieSet (s : State) (m : PlanMeasure) (die : DieId) (d : DieState) : Prop :=
  d.target = min 60 (dieNeed s m die) ∧ d.inUse = (s.planner.dies.get die).inUse

theorem diePlan_set {s x : State} (m : PlanMeasure) {die : DieId} (h : x.planner.dies.get die = s.planner.dies.get die) :
    DieSet s m die (diePlan x m die) := by
  refine ⟨?_, by rw [diePlan_inUse, h]⟩
  rw [diePlan_target, dieNeed, dieNeed, dieSteps, dieSteps, h]

/-- The dies' parts of a run. -/
def diesPlanned (s : State) (m : PlanMeasure) : State := planDie (planDie (planDie s m 0) m 1) m 2

/-- The units' parts after them. -/
def unitsPlanned (s : State) (m : PlanMeasure) : State := planUnit (planUnit (diesPlanned s m) m .a) m .b

/-- The summary of a run, its request and its mark cleared. -/
def runCleared (x : State) : State := clearFlag (clearFlag (planSummary x) kPlanner 31) kPlanner 27

/-- A run's end noted. -/
def runEnded (x : State) (now : Nat) : State := { x with planner := { x.planner with lastEnd := some now } }

theorem runPlan_eq (s : State) (m : PlanMeasure) : runPlan s m = runEnded (runCleared (unitsPlanned s m)) s.now := by
  unfold runPlan runEnded runCleared unitsPlanned diesPlanned
  rfl

/-- The parts a run may change. -/
def planParts : List StatePart := [.free, .regs, .overflow, .emcy, .log, .lanes, .flash, .planner]

theorem diesPlanned_only (s : State) (m : PlanMeasure) : Only [.regs, .overflow, .emcy, .log, .flash, .planner] s (diesPlanned s m) :=
  ((planDie_only s m 0).step (planDie_only _ m 1)).step (planDie_only _ m 2)

theorem unitsPlanned_only (s : State) (m : PlanMeasure) : Only planParts s (unitsPlanned s m) :=
  (((Only.refl planParts s).step (diesPlanned_only s m)).step (planUnit_only _ m .a)).step (planUnit_only _ m .b)

theorem planSummary_only (s : State) : Only [.regs] s (planSummary s) :=
  ((regPut_only ..).step (regPut_only ..)).step (regPut_only ..)

theorem runCleared_only (x : State) : Only [.regs] x (runCleared x) :=
  ((planSummary_only x).step (clearFlag_only _ kPlanner 31)).step (clearFlag_only _ kPlanner 27)

theorem runEnded_only (x : State) (now : Nat) : Only [.planner] x (runEnded x now) := .of_eq rfl

theorem runPlan_only (s : State) (m : PlanMeasure) : Only planParts s (runPlan s m) := by
  rw [runPlan_eq]
  exact ((unitsPlanned_only s m).step (runCleared_only _)).step (runEnded_only ..)

theorem runEnded_state (x : State) (now : Nat) : (runEnded x now).planner = { x.planner with lastEnd := some now } ∧
    (runEnded x now).regs = x.regs ∧ (runEnded x now).lanes = x.lanes ∧ (runEnded x now).flash = x.flash := ⟨rfl, rfl, rfl, rfl⟩

theorem runPlan_lastEnd (s : State) (m : PlanMeasure) : (runPlan s m).planner.lastEnd = some s.now := by
  rw [runPlan_eq, (runEnded_state _ s.now).1]

theorem planSummary_flagsStay (s : State) : FlagsStay [key 0x5C10 3, key 0x5C10 4, key 0x5C10 2] s (planSummary s) :=
  ((FlagsStay.refl _ s).step (regPut_flagsStay s (key 0x5C10 3) _)).step (regPut_flagsStay _ (key 0x5C10 4) _) |>.step
    (regPut_flagsStay _ (key 0x5C10 2) _)

theorem runCleared_flag {x : State} (hwf : assocWf defaultOf x.regs = true) (h : flag x kPlanner 25 = true) :
    flag (runCleared x) kPlanner 25 = true := by
  have hsummary := planSummary_flagsStay x
  have hset := hsummary.stay hwf kPlanner 25 (by decide) (by decide) h
  have hwf1 := hsummary.wf hwf
  unfold runCleared
  generalize planSummary x = y at *
  have hwf2 : assocWf defaultOf (clearFlag y kPlanner 31).regs = true := regPut_wf _ _ _ hwf1
  exact flag_clearFlag_other hwf2 (by decide) (by decide) (flag_clearFlag_other hwf1 (by decide) (by decide) hset)

/-- With no unit in repair each die of a run is planned, and the last-good lane values stay until the units' parts. -/
theorem diesPlanned_dies {s : State} (m : PlanMeasure) (h : s.relay.repair = .none) :
    (∀ die, DieSet s m die ((diesPlanned s m).planner.dies.get die)) ∧ (diesPlanned s m).flash.equal = s.flash.equal := by
  have h0 := planDie_planned m 0 h
  have hrepair0 : (planDie s m 0).relay.repair = .none :=
    (congrArg RelayState.repair ((planDie_only s m 0).part .relay (by decide))).trans h
  unfold diesPlanned
  generalize planDie s m 0 = x at *
  have h1 := planDie_planned m 1 hrepair0
  have hrepair1 : (planDie x m 1).relay.repair = .none :=
    (congrArg RelayState.repair ((planDie_only x m 1).part .relay (by decide))).trans hrepair0
  generalize planDie x m 1 = y at *
  have h2 := planDie_planned m 2 hrepair1
  generalize planDie y m 2 = z at *
  refine ⟨fun die => ?_, (h2.equal.trans h1.equal).trans h0.equal⟩
  have hcases : die = 0 ∨ die = 1 ∨ die = 2 := by revert die; decide
  rcases hcases with rfl | rfl | rfl
  · rw [h2.others 0 (by decide), h1.others 0 (by decide), h0.same]
    exact diePlan_set m rfl
  · rw [h2.others 1 (by decide), h1.same]
    exact diePlan_set m (h0.others 1 (by decide))
  · rw [h2.same]
    exact diePlan_set m ((h1.others 2 (by decide)).trans (h0.others 2 (by decide)))

/-- What a run does to the sensor lanes of every unit. -/
def LanesRun (s t : State) : Prop := ∀ (u : UnitId) (n : LaneId),
  (laneGood (laneAt s u n) = true → (t.flash.equal.get u).get n = some ⟨(laneAt t u n).equal, true⟩) ∧
    (laneGood (laneAt s u n) = false → laneAt t u n = laneAt s u n ∧ (t.flash.equal.get u).get n = (s.flash.equal.get u).get n)

/-- The units' parts, one after the other, plan the lanes of both. -/
theorem LanesRun.of_units {s x y z : State} (hlanes : x.lanes = s.lanes) (hequal : x.flash.equal = s.flash.equal)
    (ha : LanesPlanned x .a y) (hb : LanesPlanned y .b z) : LanesRun s z := by
  have hza : z.lanes.get .a = y.lanes.get .a := hb.otherLanes
  have hea : z.flash.equal.get .a = y.flash.equal.get .a := hb.otherEqual
  have hyb : y.lanes.get .b = s.lanes.get .b := ha.otherLanes.trans (by rw [hlanes]; rfl)
  have heb : y.flash.equal.get .b = s.flash.equal.get .b := ha.otherEqual.trans (by rw [hequal]; rfl)
  intro u n
  cases u with
  | a =>
    have hgood := ha.good n
    have hrest := ha.rest n
    rw [laneAt, hlanes] at hgood hrest
    rw [hequal] at hrest
    exact ⟨fun h => by rw [hea, laneAt, hza]; exact hgood h, fun h => by rw [hea, laneAt, hza]; exact hrest h⟩
  | b =>
    have hgood := hb.good n
    have hrest := hb.rest n
    rw [laneAt, hyb] at hgood hrest
    rw [heb] at hrest
    exact ⟨hgood, hrest⟩

theorem planDie_canon (s : State) (m : PlanMeasure) (die : DieId) : CanonStays s (planDie s m die) := by
  have hput : ∀ {x : State} k v, CanonStays s x → CanonStays s (regPut x k v) := fun k v h => h.trans (.put _ k v)
  have hwords : CanonStays s (dieWords s m die) := hput _ _ (hput _ _ (hput _ _ (hput _ _
    ((hput _ _ (.refl s)).trans (.of_flags (bumpBy_flagsStay ..))))))
  have hset : ∀ {x : State} (p : Prop) [Decidable p] b, CanonStays s x → CanonStays s (if p then setFlag x kPlanner b else x) :=
    fun p _ b h => h.trans (.ite (.put ..) (.refl _))
  have hshown : CanonStays s (dieShown s m die) :=
    (hset _ 26 (hset _ 29 hwords)).trans (.ite ((CanonStays.put ..).trans (.of_flags (raiseEmcy_flagsStay ..))) (.refl _))
  rw [planDie_eq]
  exact .ite (.of_regs rfl) (hshown.trans (.of_regs rfl))

/-- What the units' parts of a run leave, with no unit in repair. -/
theorem unitsPlanned_state {s : State} (m : PlanMeasure) (h : s.relay.repair = .none) : LanesRun s (unitsPlanned s m) ∧
    (∀ die, DieSet s m die ((unitsPlanned s m).planner.dies.get die)) ∧
    (assocWf defaultOf s.regs = true → m.lowNet = true →
      assocWf defaultOf (unitsPlanned s m).regs = true ∧ flag (unitsPlanned s m) kPlanner 25 = true) := by
  obtain ⟨hdies, hequal⟩ := diesPlanned_dies m h
  have honly := diesPlanned_only s m
  have hlanes : (diesPlanned s m).lanes = s.lanes := honly.part .lanes (by decide)
  have hrelay : (diesPlanned s m).relay = s.relay := honly.part .relay (by decide)
  have hwfd : assocWf defaultOf s.regs = true → assocWf defaultOf (diesPlanned s m).regs = true := fun hwf =>
    (((planDie_canon s m 0).trans (planDie_canon _ m 1)).trans (planDie_canon _ m 2)).wf hwf
  unfold unitsPlanned
  generalize diesPlanned s m = x at *
  have hrepair : x.relay.repair = .none := by rw [hrelay, h]
  have hunit := planUnit_only x m .a
  have hrepair' : (planUnit x m .a).relay.repair = .none :=
    (congrArg RelayState.repair (hunit.part .relay (by decide))).trans hrepair
  rw [planUnit_planned m .b hrepair', planUnit_planned m .a hrepair]
  refine ⟨.of_units hlanes hequal (unitPlanned_lanes x m .a) (unitPlanned_lanes _ m .b), fun die => ?_, fun hwf hlow => ?_⟩
  · rw [(unitPlanned_only _ m .b).part .planner (by decide), (unitPlanned_only x m .a).part .planner (by decide)]
    exact hdies die
  · exact unitPlanned_lowNet .b hlow (unitPlanned_lowNet .a hlow (hwfd hwf)).1

theorem runPlan_state {s : State} (m : PlanMeasure) (h : s.relay.repair = .none) : LanesRun s (runPlan s m) ∧
    (∀ die, DieSet s m die ((runPlan s m).planner.dies.get die)) ∧
    (assocWf defaultOf s.regs = true → m.lowNet = true → flag (runPlan s m) kPlanner 25 = true) := by
  obtain ⟨hlanes, hdies, hflag⟩ := unitsPlanned_state m h
  rw [runPlan_eq]
  generalize unitsPlanned s m = x at *
  have hregs := runCleared_only x
  have hcleared := fun hwf => runCleared_flag (x := x) hwf
  have hl : (runCleared x).lanes = x.lanes := hregs.part .lanes (by decide)
  have hf : (runCleared x).flash = x.flash := hregs.part .flash (by decide)
  have hp : (runCleared x).planner = x.planner := hregs.part .planner (by decide)
  generalize runCleared x = y at *
  obtain ⟨hplanner, hregs', hlanes', hflash⟩ := runEnded_state y s.now
  refine ⟨fun u n => ?_, fun die => ?_, fun hwf hlow => ?_⟩
  · rw [laneAt, laneAt, hlanes', hflash, hl, hf]
    exact hlanes u n
  · rw [hplanner, hp]
    exact hdies die
  · obtain ⟨hwf', hset⟩ := hflag hwf hlow
    rw [flag, regGet, hregs', ← regGet, ← flag]
    exact hcleared hwf' hset

theorem laneGood_of {x : Lane} (hmode : x.mode = .locked) (heye : 24 ≤ x.eye) : laneGood x = true := by
  rw [laneGood, decide_eq_true hmode, decide_eq_true heye]
  rfl

theorem laneGood_not {x : Lane} (h : x.mode ≠ .locked ∨ x.eye < 24) : laneGood x = false := by
  rcases h with hmode | heye
  · rw [laneGood, decide_eq_false hmode, Bool.false_and]
  · rw [laneGood, decide_eq_false (by omega : ¬ 24 ≤ x.eye), Bool.and_false]

/-! ## The commands -/

theorem execPlannerRun_warned {m : PlanMeasure} {s : State} (h : s.stage.warn.isSome = true) : execPlannerRun m s = .next s := if_pos h

theorem execPlannerRun_due {m : PlanMeasure} {s : State} (hwarn : s.stage.warn = none) (hdue : planDue s = true) :
    execPlannerRun m s = .next (runPlan s m) := by
  rw [execPlannerRun, hwarn]
  exact (if_neg Bool.false_ne_true).trans (if_pos hdue)

theorem execPlannerRun_skipped {m : PlanMeasure} {s : State} (hwarn : s.stage.warn = none) (hdue : planDue s = false) :
    execPlannerRun m s = match skippedReady s with
      | some die => .next (planSummary ((dieUnit die).elim (planDie s m die) fun u => planUnit (planDie s m die) m u))
      | none => .next s := by
  rw [execPlannerRun, hwarn]
  exact (if_neg Bool.false_ne_true).trans (if_neg (by rw [hdue]; exact Bool.false_ne_true))

theorem plannerRun_due (m : PlanMeasure) (s : State) (hdue : planDue s = true) (hwarn : s.stage.warn = none) (hrepair : s.relay.repair = .none) :
    ∃ t, exec (.plannerRun m) s = .next t ∧ t.planner.lastEnd = some s.now ∧
      (∀ die : DieId, (t.planner.dies.get die).target =
        min 60 (requiredOffset (s.planner.dies.get die).target (degradationOf die (m.dies.get die))
          (min 255 ((s.planner.dies.get die).steps + (if 0 < (m.dies.get die).canaryEvents then 1 else 0))) die) ∧
        (t.planner.dies.get die).inUse = (s.planner.dies.get die).inUse) ∧
      (∀ (u : UnitId) (n : LaneId), (laneAt s u n).mode = .locked → 24 ≤ (laneAt s u n).eye →
        (t.flash.equal.get u).get n = some ⟨(laneAt t u n).equal, true⟩) ∧
      (∀ (u : UnitId) (n : LaneId), (laneAt s u n).mode ≠ .locked ∨ (laneAt s u n).eye < 24 →
        laneAt t u n = laneAt s u n ∧ (t.flash.equal.get u).get n = (s.flash.equal.get u).get n) ∧
      (assocWf defaultOf s.regs = true → m.lowNet = true → flag t kPlanner 25 = true) ∧
      t = { s with free := t.free, regs := t.regs, overflow := t.overflow, emcy := t.emcy, log := t.log, lanes := t.lanes,
                   flash := t.flash, planner := t.planner } := by
  obtain ⟨hlanes, hdies, hflag⟩ := runPlan_state m hrepair
  exact ⟨runPlan s m, (exec_plannerRun m s).trans (execPlannerRun_due hwarn hdue), runPlan_lastEnd s m, hdies,
    fun u n hmode heye => (hlanes u n).1 (laneGood_of hmode heye), fun u n h => (hlanes u n).2 (laneGood_not h), hflag,
    (runPlan_only s m).eq⟩

theorem plannerRun_idle (m : PlanMeasure) (s : State) (h : planDue s = false ∧ skippedReady s = none ∨ s.stage.warn.isSome = true) :
    exec (.plannerRun m) s = .next s := by
  rw [exec_plannerRun]
  cases hwarn : s.stage.warn with
  | some c => exact execPlannerRun_warned (by rw [hwarn]; rfl)
  | none =>
    rcases h with ⟨hdue, hnone⟩ | hsome
    · rw [execPlannerRun_skipped hwarn hdue, hnone]
    · rw [hwarn] at hsome
      exact absurd hsome Bool.false_ne_true

theorem skippedReady_unit {s : State} {die : DieId} (h : skippedReady s = some die) : ∃ u, dieUnit die = some u := by
  unfold skippedReady at h
  split at h
  next u hu =>
    split at h
    · obtain rfl := Option.some.inj h
      cases u
      · exact ⟨.a, rfl⟩
      · exact ⟨.b, rfl⟩
    · exact absurd h (Option.some_ne_none die).symm
  · exact absurd h (Option.some_ne_none die).symm

theorem plannerRun_skippedDie (m : PlanMeasure) (die : DieId) (s : State) (hdue : planDue s = false) (hskipped : skippedReady s = some die)
    (hwarn : s.stage.warn = none) (hrepair : s.relay.repair = .none) :
    ∃ t, exec (.plannerRun m) s = .next t ∧ (t.planner.dies.get die).skipped = false ∧
      (∀ d, d ≠ die → t.planner.dies.get d = s.planner.dies.get d) ∧ t.planner.lastEnd = s.planner.lastEnd ∧
      (∀ (u : UnitId) (n : LaneId), dieUnit die = some u → (laneAt s u n).mode = .locked → 24 ≤ (laneAt s u n).eye →
        (t.flash.equal.get u).get n = some ⟨(laneAt t u n).equal, true⟩) ∧ CodingKept s t := by
  obtain ⟨u, hu⟩ := skippedReady_unit hskipped
  have hexec : exec (.plannerRun m) s = .next (planSummary (planUnit (planDie s m die) m u)) := by
    rw [exec_plannerRun, execPlannerRun_skipped hwarn hdue, hskipped]
    dsimp only
    rw [hu]
    rfl
  obtain ⟨hsame, hothers, hlast, -⟩ := planDie_planned m die hrepair
  have hdie := planDie_only s m die
  generalize planDie s m die = x at *
  have hrepair' : x.relay.repair = .none := by rw [show x.relay = s.relay from hdie.part .relay (by decide), hrepair]
  have hlanes : x.lanes = s.lanes := hdie.part .lanes (by decide)
  rw [planUnit_planned m u hrepair'] at hexec
  have hunit := unitPlanned_only x m u
  have hgood := (unitPlanned_lanes x m u).good
  generalize unitPlanned x m u = y at *
  have hsummary := planSummary_only y
  have hplanner : (planSummary y).planner = x.planner :=
    (hsummary.part .planner (by decide) : (planSummary y).planner = y.planner).trans (hunit.part .planner (by decide))
  have hy : (planSummary y).lanes = y.lanes := hsummary.part .lanes (by decide)
  have hf : (planSummary y).flash = y.flash := hsummary.part .flash (by decide)
  generalize planSummary y = z at *
  refine ⟨z, hexec, by rw [hplanner, hsame]; exact diePlan_skipped .., fun d hd => by rw [hplanner, hothers d hd], by rw [hplanner, hlast],
    fun v n hv hmode heye => ?_, ?_⟩
  · obtain rfl := Option.some.inj (hu.symm.trans hv)
    rw [hf, laneAt, hy]
    exact hgood n (by rw [laneAt, hlanes]; exact laneGood_of hmode heye)
  · exact (((Only.refl planParts s).step hdie).step hunit).step hsummary |>.codingKept

theorem planNow_settled (k : Client) (m : PlanMeasure) (s : State) (hserved : Served s k 0x5C10) :
    ∃ t, exec (.planNow k m) s = .next t ∧ answered t k = some .ack ∧ t.planner.lastEnd = some s.now ∧
      (s.relay.repair = .none → ∀ die : DieId, (t.planner.dies.get die).target =
        min 60 (requiredOffset (s.planner.dies.get die).target (degradationOf die (m.dies.get die))
          (min 255 ((s.planner.dies.get die).steps + (if 0 < (m.dies.get die).canaryEvents then 1 else 0))) die)) ∧ CodingKept s t := by
  have hexec := exec_acknowledged (exec_planNow k m s) hserved rfl
  have hlast := runPlan_lastEnd (touchClient s k) m
  have hdies := fun h => (runPlan_state (s := touchClient s k) m h).2.1
  have honly := (runPlan_only (touchClient s k) m).codingKept
  generalize runPlan (touchClient s k) m = x at *
  obtain ⟨hdict, hchans, hstreams, hflows⟩ := honly
  refine ⟨answer x k .ack, hexec, answered_answer .., ?_, fun h die => ?_, ?_⟩
  · rw [answer_planner, hlast, touchClient_now]
  · rw [touchClient_relay] at hdies
    have hset := (hdies h die).1
    rw [dieNeed, dieSteps, touchClient_planner] at hset
    rw [answer_planner]
    exact hset
  · refine ⟨?_, ?_, ?_, ?_⟩
    · rw [answer_dict, hdict, touchClient_dict]
    · rw [answer_chans, hchans, touchClient_chans]
    · rw [answer_streams, hstreams, touchClient_streams]
    · rw [answer_flows, hflows, touchClient_flows]

/-! ## Voltage steps and the relay duty -/

/-- A die's record changed. -/
def dieModified (s : State) (die : DieId) (f : DieState → DieState) : State :=
  { s with planner := { s.planner with dies := vmod s.planner.dies die f } }

theorem dieModified_same (s : State) (die : DieId) (f : DieState → DieState) :
    (dieModified s die f).planner.dies.get die = f (s.planner.dies.get die) := vmod_get_same ..

theorem dieModified_other (s : State) (die : DieId) (f : DieState → DieState) (d : DieId) (hd : d ≠ die) :
    (dieModified s die f).planner.dies.get d = s.planner.dies.get d := vmod_get_other _ _ _ _ hd

theorem voltageStep_up (die : DieId) (s : State) (hbelow : (s.planner.dies.get die).inUse < (s.planner.dies.get die).target)
    (hat : ∀ at_, (s.planner.dies.get die).stepAt = some at_ → at_ + cyclesPerMs ≤ s.now) :
    ∃ t, exec (.voltageStep die) s = .next t ∧ (t.planner.dies.get die).stepAt = some s.now ∧
      (t.planner.dies.get die).inUse = min (s.planner.dies.get die).target ((s.planner.dies.get die).inUse + 5) ∧
      (∀ d, d ≠ die → t.planner.dies.get d = s.planner.dies.get d) ∧ t = { s with planner := t.planner } := by
  have hfree : (s.planner.dies.get die).stepAt = none ∨ (s.planner.dies.get die).stepAt.getD 0 + cyclesPerMs ≤ s.now := by
    cases hstep : (s.planner.dies.get die).stepAt with
    | none => exact .inl rfl
    | some n => exact .inr (hat n hstep)
  refine ⟨dieModified s die fun x => { x with inUse := min x.target (x.inUse + 5), stepAt := some s.now }, if_pos ⟨hbelow, hfree⟩, ?_, ?_,
    dieModified_other s die _, rfl⟩
  · rw [dieModified_same]
  · rw [dieModified_same]

theorem voltageStep_done (die : DieId) (s : State) (h : (s.planner.dies.get die).target ≤ (s.planner.dies.get die).inUse) :
    exec (.voltageStep die) s = .next s := if_neg fun ⟨hbelow, _⟩ => absurd hbelow (by omega)

theorem dieUnit_unit {die : DieId} (h : die ≠ 2) : ∃ u, dieUnit die = some u := by
  have hcases : die = 0 ∨ die = 1 ∨ die = 2 := by clear h; revert die; decide
  rcases hcases with rfl | rfl | rfl
  · exact ⟨.a, rfl⟩
  · exact ⟨.b, rfl⟩
  · exact absurd rfl h

theorem execWornDutyEnd_worn {die : DieId} {start : Nat} {s : State} (hat : (s.planner.dies.get die).noticeAt = some start) (hdie : die ≠ 2) :
    execWornDutyEnd die s = if (s.planner.dies.get die).worn ∧ start + 180 * 24 ≤ s.planner.hours then
      .next (dieModified s die fun x => { x with dutyEnded := true }) else .next s := by
  obtain ⟨u, hu⟩ := dieUnit_unit hdie
  unfold execWornDutyEnd
  simp only [hat, hu]
  rfl

theorem wornDutyEnd_settled (die : DieId) (start : Nat) (s : State) (hat : (s.planner.dies.get die).noticeAt = some start) (hdie : die ≠ 2)
    (hworn : (s.planner.dies.get die).worn = true) :
    (start + 4320 ≤ s.planner.hours → ∃ t, exec (.wornDutyEnd die) s = .next t ∧ (t.planner.dies.get die).dutyEnded = true ∧
      (∀ d, d ≠ die → t.planner.dies.get d = s.planner.dies.get d) ∧ t = { s with planner := t.planner }) ∧
    (s.planner.hours < start + 4320 → exec (.wornDutyEnd die) s = .next s) := by
  have hexec := (exec_wornDutyEnd die s).trans (execWornDutyEnd_worn hat hdie)
  refine ⟨fun hlate => ?_, fun hearly => by rw [hexec, if_neg fun ⟨_, h⟩ => absurd h (by omega)]⟩
  rw [if_pos ⟨hworn, hlate⟩] at hexec
  exact ⟨_, hexec, by rw [dieModified_same], dieModified_other s die _, rfl⟩

/-- Settles O53: each command of the stage and of the planner by its lemma; a run through its dies' and its units' parts. -/
theorem phasesTelemetryAndPlanner : Obligations.PhasesTelemetryAndPlanner := by
  unfold Obligations.PhasesTelemetryAndPlanner
  refine ⟨⟨fun i left s hleft => ⟨phaseFault_outOfService, phaseFault_settled i left s hleft⟩,
      fun s => ⟨currentClamp_begins, fun start hstart => ⟨fun hlong => ?_, fun hshort => ?_⟩⟩,
      fun f s => goodFrame_settled, fun f s => badFrame_settled,
      fun s => ⟨fun hlost => by rw [exec_telemetryLost, telemetryLost_known hlost], telemetryLost_settled⟩⟩,
    plannerRun_due, plannerRun_idle, plannerRun_skippedDie, planNow_settled, voltageStep_up, voltageStep_done, wornDutyEnd_settled⟩
  · refine ⟨powerFailWarning s 3, by rw [exec_currentClamp, execCurrentClamp_acting hstart, if_pos hlong], powerFailWarning_isSome s 3, ?_⟩
    exact (powerFailWarning_only s 3).codingKept
  · rw [exec_currentClamp, execCurrentClamp_acting hstart, if_neg (by omega)]

end Sys2Proof.Machine
end

section
/-! PROOF. The release steps: the check of the limit record and the steps that follow it (08_network.md R211, 14_integrity.md R340,
15_reset.md R370, R375). -/

namespace Sys2Proof.Machine

set_option Elab.async false

theorem exec_limitRecordCheck (s : State) : exec .limitRecordCheck s = execLimitRecordCheck s := rfl

theorem exec_releaseStepDone (s : State) : exec .releaseStepDone s = execReleaseStepDone s := rfl

/-! ## The limit record -/

/-- The words of the check: the unfinished sectors and the current limit in force. -/
def limitWords (s : State) (l : LimitRecord) : State :=
  regPut (regPut s (key 0x2100 8) s.flash.intents.length) (key 0x5C00 9) (if limitGood l then l.current else 270)

/-- The same with the record's fault raised or cleared. -/
def limitShown (s : State) (l : LimitRecord) : State :=
  if limitGood l then clearFlag (limitWords s l) kIntegrity 30
  else raiseEmcy (setFlag (limitWords s l) kIntegrity 30) 0x6300 kIntegrity 0

/-- The same at each port. -/
def portsTold (s : State) (good : Bool) : State := forEach allPorts (fun x p => putFlag x (kPort p 0x0B) 26 (!good)) s

/-- A port with its ceiling bucket full, of a depth in bytes. -/
def portFilled (depth : Nat) (p : Port) : Port := { p with bucket := depth * 2 ^ 24 }

/-- The release begun: the record in force, the journal free, each port with its ceiling bucket. -/
def releaseBegun (t : State) (s : State) (l : LimitRecord) : State :=
  { t with
      free := if s.flash.limitOpen then s.free + 1 else s.free
      rst := { t.rst with limitChecked := true, step := 1, stepAt := s.now }
      ports := t.ports.mapFinIdx fun i p hi => portFilled (l.ceilDepth.get ⟨i, hi⟩) p
      flash := { t.flash with
        limit := l
        limitOpen := false
        suspended := false
        intents := []
        regions := t.flash.regions.mapFinIdx fun i r _ =>
          { r with reErased := s.flash.intents.any (sectorIn i) } } }

theorem execLimitRecordCheck_taken {s : State} (h : s.rst.releasing = true) (hstep : s.rst.step = 0) :
    execLimitRecordCheck s =
      .next (releaseBegun (portsTold (limitShown s (recordInForce s)) (limitGood (recordInForce s))) s (recordInForce s)) :=
  if_pos ⟨h, by rw [hstep]; rfl⟩

theorem execLimitRecordCheck_idle {s : State} (h : s.rst.releasing = false ∨ s.rst.step ≠ 0) : execLimitRecordCheck s = .next s := by
  refine if_neg fun ⟨hreleasing, hstep⟩ => ?_
  rcases h with hidle | hlater
  · exact Bool.noConfusion (hidle.symm.trans hreleasing)
  · exact hlater (Fin.ext hstep)

theorem limitWords_only (s : State) (l : LimitRecord) : Only [.regs] s (limitWords s l) := (regPut_only ..).step (regPut_only ..)

theorem limitShown_only (s : State) (l : LimitRecord) : Only [.regs, .overflow, .emcy, .log] s (limitShown s l) := by
  have hwords : Only [.regs, .overflow, .emcy, .log] s (limitWords s l) := (limitWords_only s l).mono (by decide)
  exact .ite (fun _ => hwords.step (clearFlag_only ..)) fun _ => (hwords.step (setFlag_only ..)).step (raiseEmcy_only ..)

theorem portsTold_only (s : State) (good : Bool) : Only [.regs] s (portsTold s good) := forEach_only (fun _ _ => putFlag_only ..) _ s

theorem releaseBegun_only (t s : State) (l : LimitRecord) : Only [.free, .rst, .ports, .flash] t (releaseBegun t s l) := .of_eq rfl

/-- The ports' words leave the words of the check. -/
theorem portsTold_regGet (s : State) (good : Bool) {k : Nat} (hk : ∀ p : PortId, k ≠ kPort p 0x0B) :
    regGet (portsTold s good) k = regGet s k := by
  unfold portsTold
  generalize allPorts = l
  induction l generalizing s with
  | nil => rfl
  | cons p l ih =>
    refine (ih _).trans ?_
    dsimp only
    unfold putFlag
    split
    · exact regGet_regPut_other _ _ _ _ (hk p)
    · exact regGet_regPut_other _ _ _ _ (hk p)

theorem limitShown_good {s : State} {l : LimitRecord} (h : limitGood l = true) :
    limitShown s l = clearFlag (limitWords s l) kIntegrity 30 := if_pos h

theorem limitShown_bad {s : State} {l : LimitRecord} (h : limitGood l = false) :
    limitShown s l = raiseEmcy (setFlag (limitWords s l) kIntegrity 30) 0x6300 kIntegrity 0 :=
  if_neg (by rw [h]; exact Bool.false_ne_true)

theorem limitWords_current {s : State} (l : LimitRecord) (hwf : assocWf defaultOf s.regs = true) :
    regGet (limitWords s l) (key 0x5C00 9) = (if limitGood l then l.current else 270) % 2 ^ widthOf (key 0x5C00 9) :=
  regGet_regPut_same _ _ _ (regPut_wf _ _ _ hwf)

theorem limitGood_current {l : LimitRecord} (h : limitGood l = true) : l.current ≤ 270 := by
  unfold limitGood at h
  simp only [Bool.and_eq_true, decide_eq_true_eq] at h
  obtain ⟨_, _, hle⟩ := h
  exact hle

/-- The flag of the record and the current limit that the check shows. -/
theorem limitShown_words {s : State} (l : LimitRecord) (hwf : assocWf defaultOf s.regs = true) :
    flag (limitShown s l) kIntegrity 30 = !limitGood l ∧ (limitGood l = false → regGet (limitShown s l) (key 0x5C00 9) = 270) ∧
      (limitGood l = true → regGet (limitShown s l) (key 0x5C00 9) = l.current) := by
  have hwf1 : assocWf defaultOf (limitWords s l).regs = true := regPut_wf _ _ _ (regPut_wf _ _ _ hwf)
  have hcurrent := limitWords_current l hwf
  cases h : limitGood l with
  | true =>
    have hlow := limitGood_current h
    rw [h, if_pos rfl, Nat.mod_eq_of_lt (lt_of_le_of_lt hlow (by decide))] at hcurrent
    rw [limitShown_good h, flag_clearFlag_same 30 hwf1]
    refine ⟨rfl, fun hbad => Bool.noConfusion hbad, fun _ => ?_⟩
    rw [clearFlag_except (limitWords s l) kIntegrity 30 (key 0x5C00 9) (by decide), hcurrent]
  | false =>
    rw [h, if_neg Bool.false_ne_true] at hcurrent
    rw [limitShown_bad h, flag_raiseEmcy_setFlag 0x6300 kIntegrity 0 hwf1]
    refine ⟨rfl, fun _ => ?_, fun hgood => Bool.noConfusion hgood⟩
    rw [raiseEmcy_except _ 0x6300 kIntegrity 0 (key 0x5C00 9) (by decide),
      setFlag_except (limitWords s l) kIntegrity 30 (key 0x5C00 9) (by decide), hcurrent]
    decide

theorem kPort_ne_integrity (p : PortId) : kIntegrity ≠ kPort p 0x0B := by
  revert p
  decide

theorem kPort_ne_current (p : PortId) : key 0x5C00 9 ≠ kPort p 0x0B := by
  revert p
  decide

theorem releaseBegun_state (t s : State) (l : LimitRecord) : (releaseBegun t s l).rst.step = 1 ∧ (releaseBegun t s l).rst.limitChecked = true ∧
    (releaseBegun t s l).flash.intents = [] ∧ (releaseBegun t s l).flash.limit = l ∧ (releaseBegun t s l).flash.limitOpen = false ∧
    (releaseBegun t s l).regs = t.regs ∧ (releaseBegun t s l).free = (if s.flash.limitOpen then s.free + 1 else s.free) :=
  ⟨rfl, rfl, rfl, rfl, rfl, rfl, rfl⟩

theorem releaseBegun_port (t s : State) (l : LimitRecord) (p : PortId) :
    (releaseBegun t s l).ports[p] = portFilled (l.ceilDepth.get p) t.ports[p] :=
  Vector.getElem_mapFinIdx (xs := t.ports) (f := fun i p hi => portFilled (l.ceilDepth.get ⟨i, hi⟩) p) p.isLt

theorem recordInForce_open {s : State} (h : s.flash.limitOpen = true) :
    recordInForce s = s.flash.limit ∨ ∃ b, recordInForce s = parseLimit b := by
  rw [recordInForce, if_pos h]
  split
  next b _ => exact .inr ⟨b, rfl⟩
  next => exact .inl rfl

theorem recordInForce_closed {s : State} (h : s.flash.limitOpen = false) : recordInForce s = s.flash.limit :=
  if_neg (by rw [h]; exact Bool.false_ne_true)

theorem limitRecordCheck_settled (l : LimitRecord) (s : State) (hreleasing : s.rst.releasing = true) (hstep : s.rst.step = 0)
    (hl : l = recordInForce s) : ∃ t, exec .limitRecordCheck s = .next t ∧ t.rst.step = 1 ∧
    t.rst.limitChecked = true ∧ t.flash.intents = [] ∧ t.flash.limit = l ∧ t.flash.limitOpen = false ∧
    (s.flash.limitOpen = false → l = s.flash.limit ∧ t.free = s.free) ∧
    (s.flash.limitOpen = true → l = s.flash.limit ∨ ∃ b, l = parseLimit b) ∧
    (assocWf defaultOf s.regs = true → flag t kIntegrity 30 = !limitGood l ∧
      (limitGood l = false → regGet t (key 0x5C00 9) = 270) ∧ (limitGood l = true → regGet t (key 0x5C00 9) = l.current)) ∧
    (∀ p : PortId, t.ports[p] = { s.ports[p] with bucket := l.ceilDepth.get p * 2 ^ 24 }) ∧
    t = { s with free := t.free, regs := t.regs, overflow := t.overflow, emcy := t.emcy, log := t.log, ports := t.ports, rst := t.rst,
                 flash := t.flash } := by
  have hexec := (exec_limitRecordCheck s).trans (execLimitRecordCheck_taken hreleasing hstep)
  rw [← hl] at hexec
  have htold : Only [.free, .regs, .overflow, .emcy, .log, .ports, .rst, .flash] s (portsTold (limitShown s l) (limitGood l)) :=
    ((Only.refl _ s).step (limitShown_only s l)).step (portsTold_only ..)
  have hshown := fun hwf => limitShown_words (s := s) l hwf
  have hflag : flag (portsTold (limitShown s l) (limitGood l)) kIntegrity 30 = flag (limitShown s l) kIntegrity 30 :=
    congrArg (Nat.testBit · 30) (portsTold_regGet _ _ kPort_ne_integrity)
  have hcurrent := portsTold_regGet (limitShown s l) (limitGood l) kPort_ne_current
  have hports : (portsTold (limitShown s l) (limitGood l)).ports = s.ports :=
    ((portsTold_only (limitShown s l) (limitGood l)).part .ports (by decide) :
      (portsTold (limitShown s l) (limitGood l)).ports = (limitShown s l).ports).trans ((limitShown_only s l).part .ports (by decide))
  generalize portsTold (limitShown s l) (limitGood l) = x at *
  generalize limitShown s l = y at *
  obtain ⟨h1, h2, h3, h4, h5, hregs, hfree⟩ := releaseBegun_state x s l
  refine ⟨_, hexec, h1, h2, h3, h4, h5, fun hclosed => ⟨hl.trans (recordInForce_closed hclosed), ?free⟩,
    fun hopen => ?written, fun hwf => ?words, fun p => ?port, ((htold).step (releaseBegun_only x s l)).eq⟩
  case free => rw [hfree, hclosed, if_neg Bool.false_ne_true]
  case written => rw [hl]; exact recordInForce_open hopen
  case words =>
    rw [flag, regGet, hregs, ← regGet, ← flag, hflag, regGet, hregs, ← regGet, hcurrent]
    exact hshown hwf
  case port => rw [releaseBegun_port, hports, portFilled]

/-! ## The steps that follow -/

/-- The DRAM of both units after training. -/
def unitsTrained (s : State) : State :=
  drawFree (drawFree { s with
    dram := ⟨trainChannels s .a (Config.freeValue 32 s.free), trainChannels s .b (Config.freeValue 32 (s.free + 1))⟩ })

/-- Whether every channel of the unit in view has trained. -/
def viewTrained (x : State) : Bool := (x.dram.get (viewUnit x)).chan.toList.all fun c => c.trained

theorem trainUnits_eq (s : State) : trainUnits s =
    if viewTrained (unitsTrained s) then unitsTrained s else setFlag (unitsTrained s) (key 0x2800 0x10) 26 := rfl

theorem unitsTrained_only (s : State) : Only [.free, .dram] s (unitsTrained s) := .of_eq rfl

theorem trainUnits_only (s : State) : Only [.free, .regs, .dram] s (trainUnits s) := by
  have htrained : Only [.free, .regs, .dram] s (unitsTrained s) := (unitsTrained_only s).mono (by decide)
  rw [trainUnits_eq]
  exact .ite (fun _ => htrained) fun _ => htrained.step (setFlag_only ..)

theorem trainUnits_dram (s : State) : (trainUnits s).dram =
    ⟨trainChannels s .a (Config.freeValue 32 s.free), trainChannels s .b (Config.freeValue 32 (s.free + 1))⟩ := by
  rw [trainUnits_eq]
  split
  · rfl
  · rfl

theorem trainUnits_get (s : State) (u : UnitId) : ∃ failed, (trainUnits s).dram.get u = trainChannels s u failed := by
  rw [trainUnits_dram]
  cases u
  · exact ⟨_, rfl⟩
  · exact ⟨_, rfl⟩

/-- A channel trains from its value in the flash, unless it does not pass. -/
def chanTrained (w : Option StoredWord) (failed : Bool) (c : DramChannel) : DramChannel :=
  { c with trained := (goodWord w).isSome && !failed }

theorem trainChannels_get (s : State) (u : UnitId) (failed : BitVec 32) (c : DramChan) : (trainChannels s u failed).chan.get c =
    chanTrained ((s.flash.training.get u).get c) (failed.getLsbD c.val) ((s.dram.get u).chan.get c) :=
  Vector.getElem_mapFinIdx (xs := (s.dram.get u).chan)
    (f := fun i x hi => chanTrained ((s.flash.training.get u).get ⟨i, hi⟩) (failed.getLsbD i) x) c.isLt

/-- A channel is trained from a readable last-good value alone. -/
theorem trainUnits_trained {s : State} {u : UnitId} {c : DramChan} (h : (((trainUnits s).dram.get u).chan.get c).trained = true) :
    (goodWord ((s.flash.training.get u).get c)).isSome = true := by
  obtain ⟨failed, hdram⟩ := trainUnits_get s u
  rw [hdram, trainChannels_get, chanTrained, Bool.and_eq_true] at h
  exact h.1

theorem trainUnits_mem (s : State) : (trainUnits s).dram.a.mem = s.dram.a.mem ∧ (trainUnits s).dram.b.mem = s.dram.b.mem := by
  rw [trainUnits_dram]
  exact ⟨rfl, rfl⟩

theorem viewTrained_all {x : State} (h : viewTrained x = true) (c : DramChan) : ((x.dram.get (viewUnit x)).chan.get c).trained = true := by
  unfold viewTrained at h
  rw [List.all_eq_true] at h
  exact h _ (by rw [vector_get_eq, Vector.mem_toList_iff]; exact Vector.getElem_mem c.isLt)

/-- A channel of the unit in view that has not trained sets TRAINING_FALLBACK. -/
theorem trainUnits_fallback {s : State} {c : DramChan} (hwf : assocWf defaultOf s.regs = true)
    (h : (((trainUnits s).dram.get (viewUnit s)).chan.get c).trained = false) : flag (trainUnits s) (key 0x2800 0x10) 26 = true := by
  have hregs : (unitsTrained s).regs = s.regs := (unitsTrained_only s).part .regs (by decide)
  have hview : viewUnit (unitsTrained s) = viewUnit s := rfl
  rw [trainUnits_eq] at h ⊢
  generalize unitsTrained s = x at *
  by_cases hall : viewTrained x = true
  · rw [if_pos hall, ← hview, viewTrained_all hall] at h
    exact Bool.noConfusion h
  · rw [if_neg hall]
    exact flag_setFlag_same (by rw [hregs]; exact hwf) (by decide)

/-- The state that a step's own blocks leave. -/
def stepWorked (s : State) : State := if s.rst.step.val = 2 then trainUnits s else s

/-- The next step begun. -/
def stepBegun (t s : State) : State :=
  { t with
      rst := { s.rst with
        step := if s.rst.step.val = 6 then 0 else s.rst.step + 1
        releasing := s.rst.releasing && decide (s.rst.step.val ≠ 6)
        stepAt := s.now }
      ctrl := if s.rst.step.val = 4 then { s.ctrl with mode := .booting } else s.ctrl
      boot := if s.rst.step.val = 4 then startBoots s else s.boot
      time := if s.rst.step.val = 5 then { s.time with tb3Start := s.now, tb0 := 0, tb1Start := s.now * 256, groupStart := s.now * 256 }
        else s.time
      lap := if s.rst.step.val = 5 then { s.lap with lastTick := s.now, nextTick := s.now + 15000 } else s.lap }

theorem execReleaseStepDone_begun {s : State} (hclock : s.rst.pendingClock = 0) (hstep : s.rst.step.val ≠ 0) :
    execReleaseStepDone s = .next (stepBegun (stepWorked s) s) :=
  if_neg fun h => h.elim (fun hpending => hpending hclock) hstep

theorem stepBegun_only (t s : State) : Only [.lap, .time, .boot, .rst, .ctrl] t (stepBegun t s) := .of_eq rfl

theorem stepWorked_only (s : State) : Only [.free, .regs, .dram] s (stepWorked s) := .ite (fun _ => trainUnits_only s) fun _ => .refl ..

theorem stepBegun_flag (t s : State) (k b : Nat) : flag (stepBegun t s) k b = flag t k b := by
  rw [flag, flag, regGet, regGet, (stepBegun_only t s).part .regs (by decide)]

theorem stepBegun_step (t s : State) : (stepBegun t s).rst.step.val = if s.rst.step.val = 6 then 0 else s.rst.step.val + 1 := by
  change (if s.rst.step.val = 6 then 0 else s.rst.step + 1 : Fin 7).val = _
  generalize s.rst.step = n
  revert n
  decide

theorem stepBegun_boots {t s : State} (h : s.rst.step.val = 4) {u : UnitId} (hrepair : ¬ (s.relay.repair ≠ .none ∧ s.relay.repairUnit = u))
    (hrails : s.stage.railsRemoved ≠ some u) : ((stepBegun t s).boot.get u).mode = .booting := by
  have hboot : (stepBegun t s).boot = startBoots s := if_pos h
  have hstart : ¬ ((s.relay.repair ≠ .none ∧ s.relay.repairUnit = u) ∨ s.stage.railsRemoved = some u) := not_or.2 ⟨hrepair, hrails⟩
  rw [hboot]
  cases u
  · exact congrArg UnitBoot.mode (if_neg hstart)
  · exact congrArg UnitBoot.mode (if_neg hstart)

theorem releaseStepDone_settled (s : State) (hclock : s.rst.pendingClock = 0) (hstep : s.rst.step.val ≠ 0) :
    ∃ t, exec .releaseStepDone s = .next t ∧
    t.rst.step.val = (if s.rst.step.val = 6 then 0 else s.rst.step.val + 1) ∧ t.rst.stepAt = s.now ∧
    (s.rst.step.val = 2 → ∀ u c, (((t.dram.get u).chan.get c).trained = true →
        (goodWord ((s.flash.training.get u).get c)).isSome = true) ∧
      (u = viewUnit s → ((t.dram.get u).chan.get c).trained = false → assocWf defaultOf s.regs = true → flag t (key 0x2800 0x10) 26 = true)) ∧
    (s.rst.step.val ≠ 2 → t.dram = s.dram ∧ t.regs = s.regs ∧ t.free = s.free) ∧
    (s.rst.step.val = 6 → t.rst.releasing = false) ∧
    (s.rst.step.val = 4 → t.ctrl.mode = .booting ∧
      ∀ u, ¬ (s.relay.repair ≠ .none ∧ s.relay.repairUnit = u) → s.stage.railsRemoved ≠ some u → (t.boot.get u).mode = .booting) ∧
    (s.rst.step.val ≠ 4 → t.ctrl = s.ctrl ∧ t.boot = s.boot) ∧
    (s.rst.step.val = 5 → t.time.tb0 = 0 ∧ tb3Ref t = 0 ∧ t.lap.nextTick = s.now + 15000) ∧
    (s.rst.step.val ≠ 5 → t.time = s.time ∧ t.lap = s.lap) ∧ t.dram.a.mem = s.dram.a.mem ∧ t.dram.b.mem = s.dram.b.mem ∧
    t = { s with free := t.free, regs := t.regs, lap := t.lap, time := t.time, dram := t.dram, boot := t.boot, rst := t.rst, ctrl := t.ctrl } := by
  have hexec := (exec_releaseStepDone s).trans (execReleaseStepDone_begun hclock hstep)
  have hworked := stepWorked_only s
  have htrains : s.rst.step.val = 2 → stepWorked s = trainUnits s := fun h => if_pos h
  have hrests : s.rst.step.val ≠ 2 → stepWorked s = s := fun h => if_neg h
  have hnow : (stepWorked s).now = s.now := hworked.part .now (by decide)
  have hmem : (stepWorked s).dram.a.mem = s.dram.a.mem ∧ (stepWorked s).dram.b.mem = s.dram.b.mem := by
    by_cases h : s.rst.step.val = 2
    · rw [htrains h]; exact trainUnits_mem s
    · rw [hrests h]; exact ⟨rfl, rfl⟩
  generalize stepWorked s = x at *
  obtain ⟨hmemA, hmemB⟩ := hmem
  refine ⟨stepBegun x s, hexec, stepBegun_step x s, rfl, fun h u c => ⟨fun htrained => ?_, fun hu hnot hwf => ?_⟩, fun h => ?_, fun h => ?_,
    fun h => ⟨?_, fun u => stepBegun_boots h⟩, fun h => ⟨if_neg h, if_neg h⟩, fun h => ?_, fun h => ⟨if_neg h, if_neg h⟩, hmemA, hmemB, ?_⟩
  · have hdram : (stepBegun x s).dram = (trainUnits s).dram := by rw [← htrains h]; rfl
    exact trainUnits_trained (by rw [← hdram]; exact htrained)
  · have hdram : (stepBegun x s).dram = (trainUnits s).dram := by rw [← htrains h]; rfl
    rw [stepBegun_flag, htrains h]
    rw [hu, hdram] at hnot
    exact trainUnits_fallback hwf hnot
  · rw [hrests h]
    exact ⟨rfl, rfl, rfl⟩
  · change (s.rst.releasing && decide (s.rst.step.val ≠ 6)) = false
    rw [h]
    simp
  · have hctrl : (stepBegun x s).ctrl = { s.ctrl with mode := .booting } := if_pos h
    rw [hctrl]
  · have htime : (stepBegun x s).time = { s.time with tb3Start := s.now, tb0 := 0, tb1Start := s.now * 256, groupStart := s.now * 256 } :=
      if_pos h
    have hlap : (stepBegun x s).lap = { s.lap with lastTick := s.now, nextTick := s.now + 15000 } := if_pos h
    have hnow' : (stepBegun x s).now = s.now := hnow
    refine ⟨by rw [htime], ?_, by rw [hlap]⟩
    rw [tb3Ref, htime, hnow', Nat.sub_self, Nat.zero_div]
  · exact ((Only.refl [.free, .regs, .lap, .time, .dram, .boot, .rst, .ctrl] s).step hworked).step (stepBegun_only x s) |>.eq

end Sys2Proof.Machine
end

section
/-! PROOF. The images and the dictionary boot or fail as stated (15_reset.md R371 to R373, 17_dictionary.md R405, R424). -/

namespace Sys2Proof.Machine

set_option Elab.async false

theorem exec_controllerImageCheck (hs : Vector PackageHeader 2) (s : State) :
    exec (.controllerImageCheck hs) s = execControllerImageCheck hs s := rfl

theorem exec_dictionaryLoad (s : State) : exec .dictionaryLoad s = execDictionaryLoad s := rfl

theorem exec_unitImageCheck (u : UnitId) (x : UnitImage) (s : State) : exec (.unitImageCheck u x) s = execUnitImageCheck u x s := rfl

theorem exec_bootComplete (u : UnitId) (s : State) : exec (.bootComplete u) s = execBootComplete u s := rfl

/-! ## Regions -/

theorem readRegions_only (s : State) (hs : Vector PackageHeader 2) : Only [.flash] s (readRegions s hs) := .of_eq rfl

/-! ## The controller's image -/

/-- The controller's image shown, the second region noted. -/
def imageShown (t : State) (i : Fin 2) (second : Bool) : State :=
  let t1 := regPut t (key 0x2100 7) (imageWord t.flash.regions i)
  if second then setFlag t1 kReset 27 else t1

/-- The controller goes on from its image; firmware is loaded into the other region. -/
def controllerImaged (t : State) (i : Fin 2) : State :=
  { t with ctrl := { t.ctrl with mode := .imageOk }, firmware := { t.firmware with region := 1 - i } }

theorem execControllerImageCheck_good {hs : Vector PackageHeader 2} {s : State} {i : Fin 2} {second : Bool} (hmode : s.ctrl.mode = .booting)
    (h : bootRegion (readRegions s hs).flash.regions = some (i, second)) :
    execControllerImageCheck hs s = .next (controllerImaged (imageShown (readRegions s hs) i second) i) := by
  refine (if_pos hmode).trans ?_
  dsimp only
  rw [h]
  rfl

theorem execControllerImageCheck_none {hs : Vector PackageHeader 2} {s : State} (hmode : s.ctrl.mode = .booting)
    (h : bootRegion (readRegions s hs).flash.regions = none) :
    execControllerImageCheck hs s = .next { readRegions s hs with ctrl := { s.ctrl with mode := .recovery } } := by
  refine (if_pos hmode).trans ?_
  dsimp only
  rw [h]
  rfl

theorem imageShown_only (t : State) (i : Fin 2) (second : Bool) : Only [.regs] t (imageShown t i second) :=
  .ite (fun _ => (regPut_only ..).step (setFlag_only ..)) fun _ => regPut_only ..

theorem imageShown_second {t : State} (i : Fin 2) (hwf : assocWf defaultOf t.regs = true) : flag (imageShown t i true) kReset 27 = true :=
  flag_setFlag_same (s := regPut t (key 0x2100 7) (imageWord t.flash.regions i)) (regPut_wf _ _ _ hwf) (by decide)

theorem controllerImaged_only (t : State) (i : Fin 2) : Only [.ctrl, .firmware] t (controllerImaged t i) := .of_eq rfl

theorem controllerImaged_state (t : State) (i : Fin 2) : (controllerImaged t i).ctrl.mode = .imageOk ∧
    (controllerImaged t i).firmware.region = 1 - i ∧ (controllerImaged t i).flash = t.flash ∧ (controllerImaged t i).regs = t.regs :=
  ⟨rfl, rfl, rfl, rfl⟩

theorem controllerImageCheck_good (hs : Vector PackageHeader 2) (s : State) (hmode : s.ctrl.mode = .booting) (i : Fin 2) (second : Bool)
    (h : bootRegion (readRegions s hs).flash.regions = some (i, second)) :
    ∃ t, exec (.controllerImageCheck hs) s = .next t ∧ t.ctrl.mode = .imageOk ∧ t.firmware.region = 1 - i ∧
      t.flash = (readRegions s hs).flash ∧
      (second = true → assocWf defaultOf s.regs = true → flag t kReset 27 = true) ∧
      t = { s with regs := t.regs, flash := t.flash, ctrl := t.ctrl, firmware := t.firmware } := by
  have hexec := (exec_controllerImageCheck hs s).trans (execControllerImageCheck_good hmode h)
  have hread : (readRegions s hs).regs = s.regs := (readRegions_only s hs).part .regs (by decide)
  have hshown := imageShown_only (readRegions s hs) i second
  have hflash : (imageShown (readRegions s hs) i second).flash = (readRegions s hs).flash := hshown.part .flash (by decide)
  have honly := ((Only.refl [.regs, .flash, .ctrl, .firmware] s).step (readRegions_only s hs)).step hshown
  have hflag : second = true → assocWf defaultOf s.regs = true → flag (imageShown (readRegions s hs) i second) kReset 27 = true := by
    rintro rfl hwf
    exact imageShown_second i (by rw [hread]; exact hwf)
  generalize imageShown (readRegions s hs) i second = x at *
  obtain ⟨hctrl, hfirm, hkept, hregs⟩ := controllerImaged_state x i
  refine ⟨_, hexec, hctrl, hfirm, hkept.trans hflash, fun hsecond hwf => ?_, (honly.step (controllerImaged_only x i)).eq⟩
  rw [flag, regGet, hregs, ← regGet, ← flag]
  exact hflag hsecond hwf

/-! ## The dictionary -/

/-- The values of the newest readable saved copy, or the defaults. -/
def savedValues (s : State) : Store :=
  match savedNewest s.flash with
  | some i => storeOf i.values
  | none => []

/-- The dictionary loaded into every copy; the controller runs. -/
def dictLoaded (s : State) (values : Store) : State :=
  { s with
      dict := { s.dict with master := values, shadowA := values, shadowB := values, applied := values }
      ctrl := { s.ctrl with mode := .running } }

/-- A flow with the tokens of a reset. -/
def flowTokens (n : Nat) (x : Flow) : Flow := { x with tokens := n }

/-- The node, the meters and the counts of the shapers begin as the dictionary says. -/
def servicesBegun (t : State) : State :=
  { t with
      can := nodeStart t
      meters := ⟨metersFull t, metersFull t⟩
      flows := t.flows.mapFinIdx fun i x hi => flowTokens (resetCount t ⟨i, hi⟩) x }

/-- The reports of a load: no readable copy, the second region, the power-fail record. -/
def loadReported (t : State) (bad : Bool) : State :=
  showPowerFail (noteFallback (if bad then raiseEmcy (setFlag t kReset 24) 0x6301 kReset 0 else t))

theorem execDictionaryLoad_loaded {s : State} (h : s.ctrl.mode = .imageOk) : execDictionaryLoad s =
    .next (loadReported (servicesBegun (dictLoaded s (savedValues s))) (!s.flash.savedVoid && (savedNewest s.flash).isNone)) :=
  if_pos h

theorem noteFallback_only (t : State) : Only [.regs, .overflow, .emcy, .log] t (noteFallback t) := by
  unfold noteFallback
  split
  · exact raiseEmcy_only ..
  · exact .refl ..

theorem showPowerFail_only (t : State) : Only [.regs, .flash] t (showPowerFail t) := .of_eq rfl

theorem showPowerFail_flash (t : State) : (showPowerFail t).flash = { t.flash with pfRecord := none } := rfl

/-- What is noted before the record is shown. -/
def loadNoted (t : State) (bad : Bool) : State := noteFallback (if bad then raiseEmcy (setFlag t kReset 24) 0x6301 kReset 0 else t)

theorem loadNoted_only (t : State) (bad : Bool) : Only [.regs, .overflow, .emcy, .log] t (loadNoted t bad) := by
  have hbad : Only [.regs, .overflow, .emcy, .log] t (if bad then raiseEmcy (setFlag t kReset 24) 0x6301 kReset 0 else t) :=
    .ite (fun _ => ((Only.refl _ t).step (setFlag_only t kReset 24)).step (raiseEmcy_only ..)) fun _ => .refl ..
  exact hbad.step (noteFallback_only _)

theorem loadReported_only (t : State) (bad : Bool) : Only [.regs, .overflow, .emcy, .log, .flash] t (loadReported t bad) :=
  ((Only.refl _ t).step (loadNoted_only t bad)).step (showPowerFail_only (loadNoted t bad))

theorem loadReported_flash (t : State) (bad : Bool) : (loadReported t bad).flash = { t.flash with pfRecord := none } := by
  have hnoted : (loadNoted t bad).flash = t.flash := (loadNoted_only t bad).part .flash (by decide)
  have hshown := showPowerFail_flash (loadNoted t bad)
  rw [hnoted] at hshown
  exact hshown

theorem dictLoaded_only (s : State) (values : Store) : Only [.dict, .ctrl] s (dictLoaded s values) := .of_eq rfl

theorem servicesBegun_only (t : State) : Only [.flows, .meters, .can] t (servicesBegun t) := .of_eq rfl

theorem servicesBegun_flow (t : State) (f : FlowId) : (servicesBegun t).flows.get f = flowTokens (resetCount t f) (t.flows.get f) :=
  Vector.getElem_mapFinIdx (xs := t.flows) (f := fun i x hi => flowTokens (resetCount t ⟨i, hi⟩) x) f.isLt

theorem cfg_congr {s t : State} (hdict : t.dict = s.dict) (k : Nat) : cfg t k = cfg s k := by
  rw [cfg, cfg, written, written, hdict]

/-- The count a shaper begins with depends on the dictionary and on what the flow carries. -/
theorem resetCount_congr {s t : State} {f : FlowId} (hdict : t.dict = s.dict) (hcarries : t.flows[f].carries = s.flows[f].carries) :
    resetCount t f = resetCount s f := by
  rw [resetCount, resetCount, burstCount, burstCount, flowBurst, flowBurst, flowLimit, flowLimit, cfg_congr hdict, applied, applied, applied,
    applied, hdict, hcarries]

theorem nodeStart_state (t : State) : (nodeStart t).nmt = .preOperational ∧ (nodeStart t).nodeId = cfg t (key 0x2002 1) ∧
    (nodeStart t).bootUps = t.can.bootUps + 1 := ⟨rfl, rfl, rfl⟩

theorem dictionaryLoad_settled (s : State) (h : s.ctrl.mode = .imageOk) : ∃ t, exec .dictionaryLoad s = .next t ∧ dictAnswers t = true ∧
    t.dict.master = savedValues s ∧
    t.dict.shadowA = t.dict.master ∧ t.dict.shadowB = t.dict.master ∧ t.dict.applied = t.dict.master ∧
    t.can.nmt = .preOperational ∧ t.can.nodeId = cfg t (key 0x2002 1) ∧ t.can.bootUps = s.can.bootUps + 1 ∧
    t.flash = { s.flash with pfRecord := none } ∧ (∀ f : FlowId, t.flows.get f = { s.flows.get f with tokens := resetCount t f }) ∧
    t = { s with flows := t.flows, dict := t.dict, regs := t.regs, overflow := t.overflow, emcy := t.emcy, log := t.log, meters := t.meters,
                 flash := t.flash, ctrl := t.ctrl, can := t.can } := by
  have hexec := (exec_dictionaryLoad s).trans (execDictionaryLoad_loaded h)
  have hloaded : Only [.flows, .dict, .regs, .overflow, .emcy, .log, .meters, .flash, .ctrl, .can] s (dictLoaded s (savedValues s)) :=
    (dictLoaded_only s _).mono (by decide)
  have hdict : (dictLoaded s (savedValues s)).dict =
      { s.dict with master := savedValues s, shadowA := savedValues s, shadowB := savedValues s, applied := savedValues s } := rfl
  have hflows : (dictLoaded s (savedValues s)).flows = s.flows := rfl
  have hmode : (dictLoaded s (savedValues s)).ctrl.mode = .running := rfl
  have hcan : (dictLoaded s (savedValues s)).can = s.can := rfl
  have hflash : (dictLoaded s (savedValues s)).flash = s.flash := rfl
  generalize dictLoaded s (savedValues s) = x at *
  have hbegun := servicesBegun_only x
  have hdict' : (servicesBegun x).dict = x.dict := hbegun.part .dict (by decide)
  have hmode' : (servicesBegun x).ctrl = x.ctrl := hbegun.part .ctrl (by decide)
  have hflash' : (servicesBegun x).flash = x.flash := hbegun.part .flash (by decide)
  have hcan' : (servicesBegun x).can = nodeStart x := rfl
  have hflow := servicesBegun_flow x
  generalize servicesBegun x = y at *
  have hreported := loadReported_only y (!s.flash.savedVoid && (savedNewest s.flash).isNone)
  have hshown := loadReported_flash y (!s.flash.savedVoid && (savedNewest s.flash).isNone)
  generalize loadReported y (!s.flash.savedVoid && (savedNewest s.flash).isNone) = z at *
  have hzdict : z.dict = x.dict := (hreported.part .dict (by decide) : z.dict = y.dict).trans hdict'
  have hzcan : z.can = nodeStart x := (hreported.part .can (by decide) : z.can = y.can).trans hcan'
  have hzctrl : z.ctrl = x.ctrl := (hreported.part .ctrl (by decide) : z.ctrl = y.ctrl).trans hmode'
  have hzflows : z.flows = y.flows := hreported.part .flows (by decide)
  obtain ⟨hnmt, hnode, hboot⟩ := nodeStart_state x
  refine ⟨z, hexec, ?answers, by rw [hzdict, hdict], by rw [hzdict, hdict], by rw [hzdict, hdict], by rw [hzdict, hdict],
    by rw [hzcan, hnmt], by rw [hzcan, hnode, cfg_congr hzdict], by rw [hzcan, hboot, hcan], by rw [hshown, hflash', hflash],
    fun f => ?flow, ((hloaded.step hbegun).step hreported).eq⟩
  case answers =>
    rw [dictAnswers, hzctrl, hmode]
    rfl
  case flow =>
    have hcarries : z.flows[f].carries = x.flows[f].carries := by
      change (z.flows.get f).carries = (x.flows.get f).carries
      rw [hzflows, hflow, flowTokens]
    rw [resetCount_congr hzdict hcarries, hzflows, hflow, hflows, flowTokens]

/-! ## A unit's image -/

/-- The words of a unit's good image. -/
def unitImageWords (t : State) (u : UnitId) (i : Fin 2) : State :=
  clearFlag (regPut t (key 0x2100 (5 + u.bit)) (imageWord t.flash.regions i)) kReset (26 - u.bit)

/-- The same, the second region noted. -/
def unitImageShown (t : State) (u : UnitId) (i : Fin 2) (second : Bool) : State :=
  if second then raiseEmcyOf (setFlag (unitImageWords t u i) kReset 27) u 0x6000 kReset u.bit else unitImageWords t u i

/-- A unit's boot changed. -/
def bootChanged (t : State) (u : UnitId) (f : UnitBoot → UnitBoot) : State := { t with boot := t.boot.mod u f }

theorem execUnitImageCheck_good {u : UnitId} {hs : Vector PackageHeader 2} {l : List TaskDecl} {s : State} {i : Fin 2} {second : Bool}
    (hmode : (s.boot.get u).mode = .booting) (h : bootRegion (readRegions s hs).flash.regions = some (i, second)) :
    execUnitImageCheck u ⟨hs, l⟩ s = .next (bootChanged (unitImageShown (readRegions s hs) u i second) u fun b =>
      { b with mode := .imageChecked, tasks := l }) := by
  refine (if_pos hmode).trans ?_
  dsimp only
  rw [h]
  rfl

/-- The boot fault of a unit without a good image. -/
def bootFaulted (t : State) (u : UnitId) : State := bootChanged (setFlag t kReset (26 - u.bit)) u fun b => { b with mode := .bootFault }

theorem execUnitImageCheck_none {u : UnitId} {hs : Vector PackageHeader 2} {l : List TaskDecl} {s : State}
    (hmode : (s.boot.get u).mode = .booting) (h : bootRegion (readRegions s hs).flash.regions = none)
    (hrepair : ¬ (s.relay.repair = .booting ∧ s.relay.repairUnit = u)) :
    execUnitImageCheck u ⟨hs, l⟩ s = .next (homeLateAct (bootFaulted (readRegions s hs) u)) := by
  refine (if_pos hmode).trans ?_
  dsimp only
  rw [h]
  exact if_neg hrepair

theorem unitImageShown_only (t : State) (u : UnitId) (i : Fin 2) (second : Bool) :
    Only [.regs, .overflow, .emcy, .log] t (unitImageShown t u i second) := by
  have hwords : Only [.regs, .overflow, .emcy, .log] t (unitImageWords t u i) :=
    ((Only.refl _ t).step (regPut_only ..)).step (clearFlag_only ..)
  exact .ite (fun _ => (hwords.step (setFlag_only ..)).step (raiseEmcyOf_only ..)) fun _ => hwords

theorem bootChanged_only (t : State) (u : UnitId) (f : UnitBoot → UnitBoot) : Only [.boot] t (bootChanged t u f) := .of_eq rfl

theorem bootChanged_same (t : State) (u : UnitId) (f : UnitBoot → UnitBoot) : (bootChanged t u f).boot.get u = f (t.boot.get u) :=
  pair_mod_get ..

theorem bootChanged_other (t : State) (u : UnitId) (f : UnitBoot → UnitBoot) : (bootChanged t u f).boot.get u.other = t.boot.get u.other :=
  pair_mod_other ..

theorem unitImageCheck_good (u : UnitId) (hs : Vector PackageHeader 2) (l : List TaskDecl) (s : State)
    (hmode : (s.boot.get u).mode = .booting) (r : Fin 2 × Bool) (h : bootRegion (readRegions s hs).flash.regions = some r) :
    ∃ t, exec (.unitImageCheck u ⟨hs, l⟩) s = .next t ∧
      (t.boot.get u).mode = .imageChecked ∧ (t.boot.get u).tasks = l ∧ t.boot.get u.other = s.boot.get u.other ∧ t.flash = (readRegions s hs).flash ∧
      t = { s with regs := t.regs, overflow := t.overflow, emcy := t.emcy, log := t.log, boot := t.boot, flash := t.flash } := by
  have hexec := (exec_unitImageCheck u ⟨hs, l⟩ s).trans (execUnitImageCheck_good hmode h)
  have hshown := unitImageShown_only (readRegions s hs) u r.1 r.2
  have hflash : (unitImageShown (readRegions s hs) u r.1 r.2).flash = (readRegions s hs).flash := hshown.part .flash (by decide)
  have honly := ((Only.refl [.regs, .overflow, .emcy, .log, .boot, .flash] s).step (readRegions_only s hs)).step hshown
  have hboot : (unitImageShown (readRegions s hs) u r.1 r.2).boot = s.boot := hshown.part .boot (by decide)
  generalize unitImageShown (readRegions s hs) u r.1 r.2 = x at *
  refine ⟨_, hexec, by rw [bootChanged_same], by rw [bootChanged_same], by rw [bootChanged_other, hboot],
    ((bootChanged_only x u _).part .flash (by decide)).trans hflash, (honly.step (bootChanged_only x u _)).eq⟩

/-! ### A unit without a good image -/

theorem refuseFlow_flagsStay (s : State) (f : FlowId) : FlagsStay [] s (refuseFlow s f) := by
  have hcounted : FlagsStay [] s (countUnit s (kFlow f 0x10) (some false) 1) := .of_regs _ rfl
  have hshown := hcounted.trans (setFlag_flagsStay _ (kFlow f 0x0A) 22)
  exact hshown.trans (FlagsStay.of_regs (t := refuseFlow s f) [] rfl)

theorem offerDatagram_flagsStay (s : State) (p : PortId) (pk : Packet) : FlagsStay [] s (offerDatagram s p pk) := by
  unfold offerDatagram
  split
  · exact .of_regs _ rfl
  · split
    · exact .of_regs _ ((enqueue_only ..).part .regs (by decide))
    · exact (refuseFlow_flagsStay s (endpointFlow p)).trans (.of_regs _ rfl)

theorem sendReport_flagsStay (s : State) (p : PortId) (groups : List Nat) : FlagsStay [] s (sendReport s p groups) := by
  unfold sendReport
  split
  · exact .refl ..
  · exact offerDatagram_flagsStay ..

theorem announcePort_flagsStay (s : State) (p : PortId) : FlagsStay [] s (announcePort s p) := by
  unfold announcePort
  split
  · exact (offerDatagram_flagsStay ..).trans (sendReport_flagsStay ..)
  · exact .refl ..

theorem activate_flagsStay (s : State) (u : UnitId) : FlagsStay [key 0x2100 4] s (activate s u) := by
  have hfallback : FlagsStay [key 0x2100 4] s
      (if (s.dram.get u).chan.toList.all fun c => c.trained then s else setFlag s (key 0x2800 0x10) 26) := by
    split
    · exact .refl ..
    · exact (FlagsStay.refl _ s).step (setFlag_flagsStay ..)
  have hreported : FlagsStay [key 0x2100 4] s (unitActive (bootReported s u) u) :=
    (hfallback.step (regPut_flagsStay _ (key 0x2100 4) _)).trans (.of_regs _ rfl)
  rw [activate_eq]
  exact hreported.step (forEach_flagsStay announcePort_flagsStay allPorts (unitActive (bootReported s u) u))

/-- The late home unit is given up only where no unit is active. -/
theorem homeLateAct_cases (t : State) : homeLateAct t = t ∨ t.relay.active = none ∧ ∃ o, homeLateAct t = activate t o := by
  unfold homeLateAct
  dsimp only
  split
  next h => exact .inr ⟨Option.isNone_iff_eq_none.1 h.1, _, rfl⟩
  next => exact .inl rfl

theorem homeLateAct_only (t : State) : Only [.regs, .relay, .ports, .mon, .flows, .counts] t (homeLateAct t) := by
  rcases homeLateAct_cases t with h | ⟨_, o, h⟩
  · rw [h]; exact .refl ..
  · rw [h]; exact activate_only t o

theorem homeLateAct_flagsStay (t : State) : FlagsStay [key 0x2100 4] t (homeLateAct t) := by
  rcases homeLateAct_cases t with h | ⟨_, o, h⟩
  · rw [h]; exact .refl ..
  · rw [h]; exact activate_flagsStay t o

theorem homeLateAct_active {t : State} (h : t.relay.active.isSome = true) : homeLateAct t = t := by
  rcases homeLateAct_cases t with hsame | ⟨hnone, _⟩
  · exact hsame
  · rw [hnone] at h
    exact absurd h Bool.false_ne_true

theorem bootFaulted_only (t : State) (u : UnitId) : Only [.regs, .boot] t (bootFaulted t u) :=
  ((Only.refl _ t).step (setFlag_only ..)).step (bootChanged_only ..)

theorem bootFaulted_flag {t : State} (u : UnitId) (hwf : assocWf defaultOf t.regs = true) :
    assocWf defaultOf (bootFaulted t u).regs = true ∧ flag (bootFaulted t u) kReset (26 - u.bit) = true := by
  have hbit : 26 - u.bit < widthOf kReset := by cases u <;> decide
  exact ⟨regPut_wf _ _ _ hwf, flag_setFlag_same hwf hbit⟩

theorem unitImageCheck_none (u : UnitId) (hs : Vector PackageHeader 2) (l : List TaskDecl) (s : State)
    (hmode : (s.boot.get u).mode = .booting) (h : bootRegion (readRegions s hs).flash.regions = none)
    (hrepair : ¬ (s.relay.repair = .booting ∧ s.relay.repairUnit = u)) :
    ∃ t, exec (.unitImageCheck u ⟨hs, l⟩) s = .next t ∧ (t.boot.get u).mode = .bootFault ∧
      (assocWf defaultOf s.regs = true → flag t kReset (26 - u.bit) = true) ∧
      t.dict = s.dict ∧ t.chans = s.chans ∧ t.streams = s.streams ∧ (s.relay.active.isSome = true → t.flows = s.flows) := by
  have hexec := (exec_unitImageCheck u ⟨hs, l⟩ s).trans (execUnitImageCheck_none hmode h hrepair)
  have hread : (readRegions s hs).regs = s.regs := (readRegions_only s hs).part .regs (by decide)
  have honly := ((Only.refl [.regs, .flash, .boot] s).step (readRegions_only s hs)).step (bootFaulted_only (readRegions s hs) u)
  have hboot : (bootFaulted (readRegions s hs) u).boot.get u = { (setFlag (readRegions s hs) kReset (26 - u.bit)).boot.get u with mode := .bootFault } :=
    bootChanged_same ..
  have hflag := fun hwf => bootFaulted_flag (t := readRegions s hs) u hwf
  rw [hread] at hflag
  generalize bootFaulted (readRegions s hs) u = x at *
  have hlate := homeLateAct_only x
  have hrelay : x.relay = s.relay := honly.part .relay (by decide)
  have hflows : x.flows = s.flows := honly.part .flows (by decide)
  refine ⟨homeLateAct x, hexec, ?_, fun hwf => ?_, ?_, ?_, ?_, fun hactive => ?_⟩
  · rw [(hlate.part .boot (by decide) : (homeLateAct x).boot = x.boot), hboot]
  · obtain ⟨hwf', hset⟩ := hflag hwf
    refine (homeLateAct_flagsStay x).stay hwf' kReset _ (by decide) ?_ hset
    cases u <;> decide
  · exact (hlate.part .dict (by decide)).trans (honly.part .dict (by decide))
  · exact (hlate.part .chans (by decide)).trans (honly.part .chans (by decide))
  · exact (hlate.part .streams (by decide)).trans (honly.part .streams (by decide))
  · rw [homeLateAct_active (by rw [hrelay]; exact hactive), hflows]

/-! ## The end of a unit's boot -/

/-- The dictionary with the whole shadow image of unit u. -/
def shadowTaken (d : DictState) (u : UnitId) : DictState :=
  match u with
  | .a => { d with shadowA := d.master }
  | .b => { d with shadowB := d.master }

/-- A unit booted with its tasks, the shadow image its own. -/
def unitBooted (s : State) (u : UnitId) : State :=
  { s with
      boot := s.boot.mod u fun b => { b with mode := .booted, bootedAt := s.now }
      disp := s.disp.set u (bootTasks (s.boot.get u).tasks)
      dict := shadowTaken s.dict u
      relay := if s.relay.repair = .booting ∧ s.relay.repairUnit = u then { s.relay with repair := .testing } else s.relay }

/-- A planner run asked for, at first use. -/
def runAsked (t : State) (s : State) : State :=
  if s.planner.lastEnd.isNone then putFlag (setFlag t (key 0x5C10 5) 31) (key 0x5C10 5) 27 s.flash.history.isEmpty else t

theorem execBootComplete_checked {u : UnitId} {s : State} (h : (s.boot.get u).mode = .imageChecked) :
    execBootComplete u s = .next (runAsked (unitBooted s u) s) := if_pos h

theorem runAsked_only (t s : State) : Only [.regs] t (runAsked t s) :=
  .ite (fun _ => (setFlag_only ..).step (putFlag_only ..)) fun _ => .refl ..

theorem unitBooted_only (s : State) (u : UnitId) : Only [.dict, .disp, .relay, .boot] s (unitBooted s u) := .of_eq rfl

theorem bootComplete_settled (u : UnitId) (s : State) (h : (s.boot.get u).mode = .imageChecked) : ∃ t, exec (.bootComplete u) s = .next t ∧
    t.disp = s.disp.set u (bootTasks (s.boot.get u).tasks) ∧
    (t.boot.get u).mode = .booted ∧ (t.boot.get u).bootedAt = s.now ∧ t.boot.get u.other = s.boot.get u.other ∧
    (u = .a → t.dict = { s.dict with shadowA := s.dict.master }) ∧ (u = .b → t.dict = { s.dict with shadowB := s.dict.master }) ∧
    (s.relay.repair = .booting → s.relay.repairUnit = u → t.relay.repair = .testing) ∧
    (s.relay.repair ≠ .booting → t.relay = s.relay) ∧
    t = { s with dict := t.dict, regs := t.regs, disp := t.disp, relay := t.relay, boot := t.boot } := by
  have hexec := (exec_bootComplete u s).trans (execBootComplete_checked h)
  have honly : Only [.dict, .regs, .disp, .relay, .boot] s (unitBooted s u) := (unitBooted_only s u).mono (by decide)
  have hdisp : (unitBooted s u).disp = s.disp.set u (bootTasks (s.boot.get u).tasks) := rfl
  have hboot : (unitBooted s u).boot = s.boot.mod u fun b => { b with mode := .booted, bootedAt := s.now } := rfl
  have hdict : (unitBooted s u).dict = shadowTaken s.dict u := rfl
  have hrelay : (unitBooted s u).relay =
      if s.relay.repair = .booting ∧ s.relay.repairUnit = u then { s.relay with repair := .testing } else s.relay := rfl
  generalize unitBooted s u = x at *
  have hasked := runAsked_only x s
  refine ⟨runAsked x s, hexec, (hasked.part .disp (by decide)).trans hdisp, ?_, ?_, ?_, ?_, ?_, fun hrepair hu => ?_, fun hrepair => ?_,
    (honly.step hasked).eq⟩
  · rw [(hasked.part .boot (by decide) : (runAsked x s).boot = x.boot), hboot, pair_mod_get]
  · rw [(hasked.part .boot (by decide) : (runAsked x s).boot = x.boot), hboot, pair_mod_get]
  · rw [(hasked.part .boot (by decide) : (runAsked x s).boot = x.boot), hboot, pair_mod_other]
  · rintro rfl
    exact (hasked.part .dict (by decide)).trans hdict
  · rintro rfl
    exact (hasked.part .dict (by decide)).trans hdict
  · rw [(hasked.part .relay (by decide) : (runAsked x s).relay = x.relay), hrelay, if_pos ⟨hrepair, hu⟩]
  · rw [(hasked.part .relay (by decide) : (runAsked x s).relay = x.relay), hrelay, if_neg fun hboth => hrepair hboth.1]

/-- Settles O51: the check of the limit record, the steps, then each boot by its lemma. -/
theorem bringUpRunsItsSteps : Obligations.BringUpRunsItsSteps := by
  unfold Obligations.BringUpRunsItsSteps
  refine ⟨⟨limitRecordCheck_settled, fun s h => (exec_limitRecordCheck s).trans (execLimitRecordCheck_idle h),
      fun s h => (exec_releaseStepDone s).trans (if_pos h), releaseStepDone_settled⟩,
    fun hs s hmode => ⟨fun h => (exec_controllerImageCheck hs s).trans (execControllerImageCheck_none hmode h), controllerImageCheck_good hs s hmode⟩,
    dictionaryLoad_settled, fun u hs l s hmode => ⟨unitImageCheck_good u hs l s hmode, unitImageCheck_none u hs l s hmode⟩, bootComplete_settled⟩

end Sys2Proof.Machine
end

section
/-! PROOF. Bulk windows: opened, filled, read, committed, abandoned (17_dictionary.md R415 to R418). -/

namespace Sys2Proof.Machine

set_option Elab.async false

theorem exec_windowOpenWrite (k : Client) (w : WinId) (s : State) :
    exec (.windowOpenWrite k w) s = .next (serveEnd s k (0x5F01 + w.val) (doOpenWrite k w)) := rfl

theorem exec_windowOpenRead (k : Client) (w : WinId) (s : State) :
    exec (.windowOpenRead k w) s = .next (serveEnd s k (0x5F01 + w.val) (doOpenRead k w)) := rfl

theorem exec_windowData_write (k : Client) (w : WinId) (data : List Byte) (s : State) :
    exec (.windowData k w true data) s = .next (serveEnd s k (0x5F01 + w.val) (doDataWrite k w data)) := rfl

theorem exec_windowCommit (k : Client) (w : WinId) (s : State) :
    exec (.windowCommit k w) s = .next (serveEnd s k (0x5F01 + w.val) (doWinCommit k w)) := rfl

theorem exec_windowAbandon (k : Client) (w : WinId) (s : State) :
    exec (.windowAbandon k w) s = .next (serveEnd s k (0x5F01 + w.val) (doWinAbandon k w)) := rfl

theorem exec_windowTimeout (w : WinId) (s : State) : exec (.windowTimeout w) s = execWindowTimeout w s := rfl

/-! ## A served command and its answer -/

section
variable {s x : State} {k : Client} {i : Nat} {f : State → State × WriteEnd}

theorem serveEnd_acked (h : Served s k i) (hf : f (touchClient s k) = (x, .ack)) : serveEnd s k i f = answer x k .ack := by
  rw [endWrite_served h, hf]
  rfl

theorem serveEnd_aborted {a : Abort} (h : Served s k i) (hf : f (touchClient s k) = (x, .abort a)) :
    serveEnd s k i f = answer x k (.abort a) := by
  rw [endWrite_served h, hf]
  rfl

end

/-- A served command's state and answer leave what the command itself leaves, but for its client and the unlock's last write. -/
theorem Only.served {l : List StatePart} {s x : State} {k : Client} (a : Answer) (h : Only l (touchClient s k) x) :
    Only (.clients :: .maint :: l) s (answer x k a) := by
  have htouch : Only (.clients :: .maint :: l) s (touchClient s k) := (touchClient_only s k).mono (by simp)
  exact (htouch.trans (h.mono fun p hp => by simp [hp])).trans ((answer_only x k a).mono (by simp))

section
variable (s : State) (k : Client) (w : WinId)

theorem winAt_touchClient : winAt (touchClient s k) w = winAt s w := by rw [winAt, winAt, touchClient_windows]

theorem winAt_answer (a : Answer) : winAt (answer s k a) w = winAt s w := by rw [winAt, winAt, answer_windows]

theorem winAt_modWin (f : Window → Window) : winAt (modWin s w f) w = f (winAt s w) := vmod_get_same ..

theorem winAt_modWin_other {v : WinId} (f : Window → Window) (h : v ≠ w) : winAt (modWin s w f) v = winAt s v := vmod_get_other _ _ _ _ h

theorem modWin_only (f : Window → Window) : Only [.windows] s (modWin s w f) := .of_eq rfl

theorem openWriteRefused_touchClient : openWriteRefused (touchClient s k) k w = openWriteRefused s k w := by
  have howner : (touchClient s k).maint.owner = s.maint.owner := touchClient_owner ..
  have hunlocked : unlocked (touchClient s k) k = unlocked s k := by rw [unlocked, unlocked, howner]
  unfold openWriteRefused
  rw [hunlocked]
  rfl

end

/-! ## Opening -/

section
variable {s : State} {k : Client} {w : WinId}

theorem doOpenWrite_opens (h : openWriteRefused s k w = none) : doOpenWrite k w s =
    (if isPackage (winTarget s w) then beginErase (openedWindow s k w .openWrite (winLength s w) []) w
      else openedWindow s k w .openWrite (winLength s w) [], .ack) := by
  rw [doOpenWrite, h]

theorem doOpenWrite_refused {r : Bool × Abort} (h : openWriteRefused s k w = some r) : doOpenWrite k w s = refuseOpen s w r := by
  rw [doOpenWrite, h]

/-- A busy window's refusal leaves every window. -/
theorem openWriteRefused_busy (h : winBusy (winAt s w) = true) : openWriteRefused s k w = some (false, .presentState) := if_pos h

end

/-- The window as an open write leaves it. -/
def OpenForWriting (s : State) (k : Client) (w : WinId) (t : State) : Prop :=
  (winAt t w).mode = .openWrite ∧ (winAt t w).owner = some k ∧ (winAt t w).length = winLength s w ∧ (winAt t w).pos = 0

theorem openedWindow_opens (s : State) (k : Client) (w : WinId) :
    OpenForWriting s k w (openedWindow s k w .openWrite (winLength s w) []) := by
  unfold OpenForWriting openedWindow
  rw [winAt_modWin]
  exact ⟨rfl, rfl, rfl, rfl⟩

theorem openedWindow_only (s : State) (k : Client) (w : WinId) (mode : WinMode) (n : Nat) (l : List Byte) :
    Only [.windows] s (openedWindow s k w mode n l) := modWin_only ..

theorem beginErase_only (s : State) (w : WinId) : Only [.firmware, .flash] s (beginErase s w) := .of_eq rfl

theorem beginErase_state (s : State) (w : WinId) : (beginErase s w).windows = s.windows ∧ (beginErase s w).firmware.mode = .erasing ∧
    (beginErase s w).firmware.window = some w ∧ ((beginErase s w).flash.regions.get s.firmware.region).header = none ∧
    ((beginErase s w).flash.regions.get s.firmware.region).blank = true := by
  have hregion : (beginErase s w).flash.regions.get s.firmware.region =
      { s.flash.regions.get s.firmware.region with header := none, blank := true } := vmod_get_same ..
  refine ⟨rfl, rfl, rfl, ?_, ?_⟩
  · rw [hregion]
  · rw [hregion]

theorem windowOpenWrite_opens (k : Client) (w : WinId) (s : State) (hserved : Served s k (0x5F01 + w.val))
    (hopen : openWriteRefused s k w = none) : ∃ t, exec (.windowOpenWrite k w) s = .next t ∧ answered t k = some .ack ∧
      (winAt t w).mode = .openWrite ∧ (winAt t w).owner = some k ∧ (winAt t w).length = winLength s w ∧ (winAt t w).pos = 0 ∧
      (isPackage (winTarget s w) = true → t.firmware.mode = .erasing ∧ t.firmware.window = some w ∧
        (t.flash.regions.get s.firmware.region).header = none ∧ (t.flash.regions.get s.firmware.region).blank = true) ∧
      (isPackage (winTarget s w) = false → t = { s with windows := t.windows, clients := t.clients, maint := t.maint }) := by
  have hdo := doOpenWrite_opens ((openWriteRefused_touchClient s k w).trans hopen)
  have hopened := openedWindow_opens (touchClient s k) k w
  have hlength : winLength (touchClient s k) w = winLength s w := rfl
  have htarget : winTarget (touchClient s k) w = winTarget s w := rfl
  have honly := openedWindow_only (touchClient s k) k w .openWrite (winLength (touchClient s k) w) []
  have hfirmware : (openedWindow (touchClient s k) k w .openWrite (winLength (touchClient s k) w) []).firmware = s.firmware := rfl
  rw [htarget] at hdo
  generalize openedWindow (touchClient s k) k w .openWrite (winLength (touchClient s k) w) [] = x at *
  obtain ⟨hmode, howner, hlen, hpos⟩ := hopened
  rw [hlength] at hlen
  cases hpackage : isPackage (winTarget s w) with
  | true =>
    rw [hpackage, if_pos rfl] at hdo
    have hexec := (exec_windowOpenWrite k w s).trans (congrArg _ (serveEnd_acked hserved hdo))
    obtain ⟨hwindows, hfm, hfw, hheader, hblank⟩ := beginErase_state x w
    rw [hfirmware] at hheader hblank
    generalize beginErase x w = y at *
    have hwin : winAt (answer y k .ack) w = winAt x w := by rw [winAt_answer, winAt, hwindows, ← winAt]
    refine ⟨answer y k .ack, hexec, answered_answer .., by rw [hwin, hmode], by rw [hwin, howner], by rw [hwin, hlen], by rw [hwin, hpos],
      fun _ => ?_, fun h => Bool.noConfusion h⟩
    rw [answer_firmware, answer_flash]
    exact ⟨hfm, hfw, hheader, hblank⟩
  | false =>
    rw [hpackage, if_neg Bool.false_ne_true] at hdo
    have hexec := (exec_windowOpenWrite k w s).trans (congrArg _ (serveEnd_acked hserved hdo))
    have hwin := winAt_answer x k w .ack
    exact ⟨answer x k .ack, hexec, answered_answer .., by rw [hwin, hmode], by rw [hwin, howner], by rw [hwin, hlen], by rw [hwin, hpos],
      fun h => Bool.noConfusion h, fun _ => (honly.served .ack).eq⟩

theorem refuseOpen_only (s : State) (w : WinId) (r : Bool × Abort) : Only [.windows] s (refuseOpen s w r).1 :=
  .ite (fun _ => modWin_only ..) fun _ => .refl ..

theorem refuseOpen_end (s : State) (w : WinId) (r : Bool × Abort) : refuseOpen s w r = ((refuseOpen s w r).1, .abort r.2) := rfl

theorem windowOpenWrite_refused (k : Client) (w : WinId) (s : State) (hserved : Served s k (0x5F01 + w.val)) (r : Bool × Abort)
    (hrefused : openWriteRefused s k w = some r) : ∃ t, exec (.windowOpenWrite k w) s = .next t ∧ answered t k = some (.abort r.2) ∧
      (winBusy (winAt s w) = true → t.windows = s.windows) ∧
      t = { s with windows := t.windows, clients := t.clients, maint := t.maint } := by
  have hdo := (doOpenWrite_refused ((openWriteRefused_touchClient s k w).trans hrefused)).trans (refuseOpen_end (touchClient s k) w r)
  have hexec := (exec_windowOpenWrite k w s).trans (congrArg _ (serveEnd_aborted hserved hdo))
  have honly := refuseOpen_only (touchClient s k) w r
  have hbusy : winBusy (winAt s w) = true → (refuseOpen (touchClient s k) w r).1 = touchClient s k := fun h => by
    obtain rfl := Option.some.inj (hrefused.symm.trans (openWriteRefused_busy h))
    rfl
  generalize (refuseOpen (touchClient s k) w r).1 = x at *
  refine ⟨answer x k (.abort r.2), hexec, answered_answer .., fun h => ?_, (honly.served _).eq⟩
  rw [answer_windows, hbusy h, touchClient_windows]

/-- The content of an open read, its length stored, the window open for its owner. -/
def readOpened (s : State) (k : Client) (w : WinId) (f : FlowId) : State :=
  openedWindow (storeValue s (kWin w 2) (sessionDescription s f).length) k w .openRead (sessionDescription s f).length (sessionDescription s f)

theorem doOpenRead_opens {s : State} {k : Client} {w : WinId} {f : FlowId} (hbusy : winBusy (winAt s w) = false)
    (hflow : flowTarget (winTarget s w) = some f) (hcheck : winCheck s w = false) :
    doOpenRead k w s = (readOpened s k w f, .ack) := by
  rw [doOpenRead, hbusy, if_neg Bool.false_ne_true, hflow]
  dsimp only
  rw [hcheck, Bool.false_and, if_neg Bool.false_ne_true]
  rfl

theorem readOpened_only (s : State) (k : Client) (w : WinId) (f : FlowId) : Only [.dict, .windows] s (readOpened s k w f) :=
  ((Only.refl _ s).step (storeValue_only ..)).step (openedWindow_only ..)

theorem readOpened_window (s : State) (k : Client) (w : WinId) (f : FlowId) : (winAt (readOpened s k w f) w).mode = .openRead ∧
    (winAt (readOpened s k w f) w).owner = some k ∧ (winAt (readOpened s k w f) w).content = sessionDescription s f ∧
    (winAt (readOpened s k w f) w).length = (winAt (readOpened s k w f) w).content.length := by
  unfold readOpened openedWindow
  rw [winAt_modWin]
  exact ⟨rfl, rfl, rfl, rfl⟩

theorem windowOpenRead_opens (k : Client) (w : WinId) (s : State) (hserved : Served s k (0x5F01 + w.val)) (f : FlowId)
    (hbusy : winBusy (winAt s w) = false) (hflow : flowTarget (winTarget s w) = some f) (hcheck : winCheck s w = false) :
    ∃ t, exec (.windowOpenRead k w) s = .next t ∧ answered t k = some .ack ∧ (winAt t w).mode = .openRead ∧
        (winAt t w).owner = some k ∧ (winAt t w).content = sessionDescription (touchClient s k) f ∧
        (winAt t w).length = (winAt t w).content.length ∧
        t = { s with dict := t.dict, windows := t.windows, clients := t.clients, maint := t.maint } := by
  have hdo : doOpenRead k w (touchClient s k) = (readOpened (touchClient s k) k w f, .ack) :=
    doOpenRead_opens (by rw [winAt_touchClient, hbusy]) hflow hcheck
  have hexec := (exec_windowOpenRead k w s).trans (congrArg _ (serveEnd_acked hserved hdo))
  have hwindow := readOpened_window (touchClient s k) k w f
  have honly := readOpened_only (touchClient s k) k w f
  generalize readOpened (touchClient s k) k w f = x at *
  obtain ⟨hmode, howner, hcontent, hlength⟩ := hwindow
  have hwin := winAt_answer x k w .ack
  exact ⟨answer x k .ack, hexec, answered_answer .., by rw [hwin, hmode], by rw [hwin, howner], by rw [hwin, hcontent], by rw [hwin, hlength],
    (honly.served .ack).eq⟩

/-! ## Data -/

theorem putWords_only (s : State) (w : WinId) (data : List Byte) : Only [.windows] s (putWords s w data) := modWin_only ..

theorem putWords_window (s : State) (w : WinId) (data : List Byte) : (winAt (putWords s w data) w).content = (winAt s w).content ++ data ∧
    (winAt (putWords s w data) w).pos = (winAt s w).pos + data.length := by
  unfold putWords
  rw [winAt_modWin]
  exact ⟨rfl, rfl⟩

section
variable {s : State} {k : Client} {w : WinId}

theorem doDataWrite_puts {data : List Byte} (hmode : (winAt s w).mode = .openWrite) (howner : (winAt s w).owner = some k)
    (hlen : data.length ≠ 0) (hwhole : data.length % 16 = 0) (hroom : (winAt s w).pos + data.length ≤ wordsUp (winAt s w).length)
    (hfirmware : s.firmware.window ≠ some w) : doDataWrite k w data s = (putWords s w data, .ack) := by
  unfold doDataWrite
  dsimp only
  rw [if_neg (not_or.2 ⟨not_not_intro hmode, not_not_intro howner⟩), if_neg (not_or.2 ⟨hlen, not_not_intro hwhole⟩),
    if_neg (Nat.not_lt.2 hroom), if_neg hfirmware]

theorem doDataWrite_refused (data : List Byte) (h : (winAt s w).mode ≠ .openWrite ∨ (winAt s w).owner ≠ some k) :
    doDataWrite k w data s = (s, .abort .presentState) := if_pos h

/-- A window whose position has moved on by a word. -/
def wordRead (s : State) (w : WinId) (now : Nat) : State := modWin s w fun y => { y with pos := y.pos + 16, lastAt := now }

theorem doDataRead_reads (hmode : (winAt s w).mode = .openRead) (howner : (winAt s w).owner = some k)
    (hpos : (winAt s w).pos < (winAt s w).length) : doDataRead k w s = .ok (wordRead s w s.now, dataWord (winAt s w)) := by
  unfold doDataRead
  dsimp only
  rw [if_neg (not_or.2 ⟨not_not_intro hmode, not_not_intro howner⟩), if_neg (Nat.not_le.2 hpos)]
  rfl

end

theorem windowData_puts (k : Client) (w : WinId) (s : State) (hserved : Served s k (0x5F01 + w.val)) (data : List Byte)
    (hmode : (winAt s w).mode = .openWrite) (howner : (winAt s w).owner = some k) (hlen : data.length ≠ 0) (hwhole : data.length % 16 = 0)
    (hroom : (winAt s w).pos + data.length ≤ wordsUp (winAt s w).length) (hfirmware : s.firmware.window ≠ some w) :
    ∃ t, exec (.windowData k w true data) s = .next t ∧ answered t k = some .ack ∧
        (winAt t w).content = (winAt s w).content ++ data ∧ (winAt t w).pos = (winAt s w).pos + data.length ∧
        (∀ v, v ≠ w → winAt t v = winAt s v) ∧ t = { s with windows := t.windows, clients := t.clients, maint := t.maint } := by
  have hat := winAt_touchClient s k w
  have hdo : doDataWrite k w data (touchClient s k) = (putWords (touchClient s k) w data, .ack) :=
    doDataWrite_puts (by rw [hat, hmode]) (by rw [hat, howner]) hlen hwhole (by rw [hat]; exact hroom)
      (by rw [touchClient_firmware]; exact hfirmware)
  have hexec := (exec_windowData_write k w data s).trans (congrArg _ (serveEnd_acked hserved hdo))
  obtain ⟨hcontent, hpos⟩ := putWords_window (touchClient s k) w data
  have hother : ∀ v, v ≠ w → winAt (putWords (touchClient s k) w data) v = winAt s v := fun v hv =>
    (winAt_modWin_other _ w _ hv).trans (winAt_touchClient s k v)
  have honly := putWords_only (touchClient s k) w data
  rw [hat] at hcontent hpos
  generalize putWords (touchClient s k) w data = x at *
  have hwin := fun v => winAt_answer x k v .ack
  exact ⟨answer x k .ack, hexec, answered_answer .., by rw [hwin, hcontent], by rw [hwin, hpos], fun v hv => (hwin v).trans (hother v hv),
    (honly.served .ack).eq⟩

theorem windowData_refused (k : Client) (w : WinId) (s : State) (hserved : Served s k (0x5F01 + w.val)) (data : List Byte)
    (h : (winAt s w).mode ≠ .openWrite ∨ (winAt s w).owner ≠ some k) : ∃ t, exec (.windowData k w true data) s = .next t ∧
      answered t k = some (.abort .presentState) ∧ t = { s with clients := t.clients, maint := t.maint } := by
  have hdo : doDataWrite k w data (touchClient s k) = (touchClient s k, .abort .presentState) :=
    doDataWrite_refused data (by rw [winAt_touchClient]; exact h)
  exact ⟨_, (exec_windowData_write k w data s).trans (congrArg _ (serveEnd_aborted hserved hdo)), answered_answer ..,
    ((Only.refl [] _).served _).eq⟩

theorem exec_windowData_read {k : Client} {w : WinId} {s x : State} {l : List Byte} (hserves : serves s k (0x5F01 + w.val) = true)
    (hdo : doDataRead k w (touchRead s k) = .ok (x, l)) : exec (.windowData k w false []) s = .next (answer x k (.value l)) := by
  have hexec : exec (.windowData k w false []) s = execWindowData k w false [] s := rfl
  rw [hexec, execWindowData, if_neg Bool.false_ne_true, if_pos hserves, hdo]

theorem windowData_reads (k : Client) (w : WinId) (s : State) (hserved : Served s k (0x5F01 + w.val)) (hmode : (winAt s w).mode = .openRead)
    (howner : (winAt s w).owner = some k) (hpos : (winAt s w).pos < (winAt s w).length) :
    ∃ t, exec (.windowData k w false []) s = .next t ∧ answered t k = some (.value (dataWord (winAt s w))) ∧
        (winAt t w).pos = (winAt s w).pos + 16 ∧ t = { s with windows := t.windows, clients := t.clients } := by
  have hat : winAt (touchRead s k) w = winAt s w := by rw [winAt, winAt, touchRead_windows]
  have hdo := doDataRead_reads (s := touchRead s k) (k := k) (by rw [hat, hmode]) (by rw [hat, howner]) (by rw [hat]; exact hpos)
  have hexec := exec_windowData_read hserved.1 hdo
  have hmoved : (winAt (wordRead (touchRead s k) w (touchRead s k).now) w).pos = (winAt s w).pos + 16 := by
    rw [wordRead, winAt_modWin, hat]
  have honly : Only [.windows] (touchRead s k) (wordRead (touchRead s k) w (touchRead s k).now) := modWin_only ..
  rw [hat] at hexec
  generalize wordRead (touchRead s k) w (touchRead s k).now = x at *
  refine ⟨answer x k (.value (dataWord (winAt s w))), hexec, answered_answer .., by rw [winAt_answer, hmoved], ?_⟩
  exact (((Only.refl [.windows, .clients] s).step (touchRead_only s k)).step honly).step (answer_only x k _) |>.eq

/-! ## Commit -/

section
variable {s : State} {k : Client} {w : WinId}

theorem doWinCommit_refused (h : (winAt s w).mode ≠ .openWrite ∨ (winAt s w).owner ≠ some k ∨ (winAt s w).pos < (winAt s w).length) :
    doWinCommit k w s = (s, .abort .presentState) := if_pos h

/-- A committed package is verified. -/
def verifyBegun (s : State) (w : WinId) (now : Nat) : State :=
  modWin { s with firmware := { s.firmware with mode := .verifying } } w fun y => { y with mode := .committing, lastAt := now }

theorem doWinCommit_package (hmode : (winAt s w).mode = .openWrite) (howner : (winAt s w).owner = some k)
    (hpos : (winAt s w).length ≤ (winAt s w).pos) (hwindow : s.firmware.window = some w) (hready : s.firmware.mode = .ready) :
    doWinCommit k w s = (verifyBegun s w s.now, .ack) := by
  unfold doWinCommit
  dsimp only
  rw [if_neg (not_or.2 ⟨not_not_intro hmode, not_or.2 ⟨not_not_intro howner, Nat.not_lt.2 hpos⟩⟩), if_pos hwindow,
    if_neg (not_not_intro hready)]
  rfl

theorem doWinCommit_map {c : Chan} {n : StreamId} (hmode : (winAt s w).mode = .openWrite) (howner : (winAt s w).owner = some k)
    (hpos : (winAt s w).length ≤ (winAt s w).pos) (hwindow : s.firmware.window ≠ some w)
    (hmap : mapTarget ((winAt s w).target / 65536, (winAt s w).target / 256 % 256) = some (c, n)) :
    doWinCommit k w s = (deliverMap s w c n, .ack) := by
  unfold doWinCommit
  dsimp only
  rw [if_neg (not_or.2 ⟨not_not_intro hmode, not_or.2 ⟨not_not_intro howner, Nat.not_lt.2 hpos⟩⟩), if_neg hwindow, hmap]

theorem checkWindow_unchecked {x : Window} (h : x.check = false) : checkWindow s x = (s, true) :=
  if_neg (by rw [h]; exact Bool.false_ne_true)

theorem deliverMap_taken {c : Chan} {n : StreamId} {z : State} (hcheck : (winAt s w).check = false)
    (hmap : doMapData c n ((winAt s w).content.take (winAt s w).length) s = .ok z) : deliverMap s w c n = closeWindow z w .committed 0 := by
  unfold deliverMap
  dsimp only
  rw [checkWindow_unchecked hcheck, if_pos rfl]
  dsimp only
  rw [hmap]

/-- Map data changes the streams and the map's words alone. -/
theorem doMapData_only {c : Chan} {n : StreamId} {data : List Byte} {s z : State} (h : doMapData c n data s = .ok z) :
    Only [.regs, .streams] s z := by
  unfold doMapData mapWrite at h
  split at h
  · split at h
    · exact absurd h (by simp)
    · obtain rfl := Except.ok.inj h
      exact ((Only.refl _ s).step (modMap_only s n _)).step (reportMap_only _ n)
  · exact absurd h (by simp)

end

theorem closeWindow_window (s : State) (w : WinId) (mode : WinMode) (reason : Nat) : (winAt (closeWindow s w mode reason) w).mode = mode ∧
    (winAt (closeWindow s w mode reason) w).owner = none ∧ (winAt (closeWindow s w mode reason) w).reason = reason := by
  have hclosed : winAt (closeWindow s w mode reason) w =
      { winAt s w with mode := mode, reason := reason, owner := none, content := [], check := false } := vmod_get_same ..
  rw [hclosed]
  exact ⟨rfl, rfl, rfl⟩

theorem closeWindow_other (s : State) (w : WinId) (mode : WinMode) (reason : Nat) {v : WinId} (h : v ≠ w) :
    winAt (closeWindow s w mode reason) v = winAt s v := vmod_get_other _ _ _ _ h

theorem windowCommit_refused (k : Client) (w : WinId) (s : State) (hserved : Served s k (0x5F01 + w.val))
    (h : (winAt s w).mode ≠ .openWrite ∨ (winAt s w).owner ≠ some k ∨ (winAt s w).pos < (winAt s w).length) :
    ∃ t, exec (.windowCommit k w) s = .next t ∧ answered t k = some (.abort .presentState) ∧
        t = { s with clients := t.clients, maint := t.maint } := by
  have hdo : doWinCommit k w (touchClient s k) = (touchClient s k, .abort .presentState) :=
    doWinCommit_refused (by rw [winAt_touchClient]; exact h)
  exact ⟨_, (exec_windowCommit k w s).trans (congrArg _ (serveEnd_aborted hserved hdo)), answered_answer ..,
    ((Only.refl [] _).served _).eq⟩

theorem windowCommit_map (k : Client) (w : WinId) (s : State) (hserved : Served s k (0x5F01 + w.val)) (c : Chan) (n : StreamId) (z : State)
    (hmode : (winAt s w).mode = .openWrite) (howner : (winAt s w).owner = some k) (hpos : (winAt s w).length ≤ (winAt s w).pos)
    (hcheck : (winAt s w).check = false) (hwindow : s.firmware.window ≠ some w)
    (htarget : mapTarget ((winAt s w).target / 65536, (winAt s w).target / 256 % 256) = some (c, n))
    (hmap : doMapData c n ((winAt s w).content.take (winAt s w).length) (touchClient s k) = .ok z) :
    ∃ t, exec (.windowCommit k w) s = .next t ∧ answered t k = some .ack ∧ (winAt t w).mode = .committed ∧
        t.streams = z.streams ∧ (∀ v, v ≠ w → winAt t v = winAt s v) := by
  have hat := winAt_touchClient s k w
  have hdo : doWinCommit k w (touchClient s k) = (deliverMap (touchClient s k) w c n, .ack) :=
    doWinCommit_map (by rw [hat, hmode]) (by rw [hat, howner]) (by rw [hat]; exact hpos) (by rw [touchClient_firmware]; exact hwindow)
      (by rw [hat]; exact htarget)
  rw [deliverMap_taken (by rw [hat, hcheck]) (by rw [hat]; exact hmap)] at hdo
  have hexec := (exec_windowCommit k w s).trans (congrArg _ (serveEnd_acked hserved hdo))
  have hwindows : z.windows = (touchClient s k).windows := (doMapData_only hmap).part .windows (by decide)
  have hclosed := (closeWindow_window z w .committed 0).1
  have hother : ∀ v, v ≠ w → winAt (closeWindow z w .committed 0) v = winAt s v := fun v hv => by
    rw [closeWindow_other z w .committed 0 hv, winAt, hwindows, touchClient_windows, ← winAt]
  have hstreams : (closeWindow z w .committed 0).streams = z.streams := (closeWindow_only z w .committed 0).part .streams (by decide)
  generalize closeWindow z w .committed 0 = x at *
  have hwin := fun v => winAt_answer x k v .ack
  exact ⟨answer x k .ack, hexec, answered_answer .., by rw [hwin, hclosed], by rw [answer_streams, hstreams],
    fun v hv => (hwin v).trans (hother v hv)⟩

theorem windowCommit_package (k : Client) (w : WinId) (s : State) (hserved : Served s k (0x5F01 + w.val))
    (hmode : (winAt s w).mode = .openWrite) (howner : (winAt s w).owner = some k) (hpos : (winAt s w).length ≤ (winAt s w).pos)
    (hwindow : s.firmware.window = some w) (hready : s.firmware.mode = .ready) :
    ∃ t, exec (.windowCommit k w) s = .next t ∧ answered t k = some .ack ∧ (winAt t w).mode = .committing ∧
        t.firmware = { s.firmware with mode := .verifying } ∧
        t = { s with windows := t.windows, firmware := t.firmware, clients := t.clients, maint := t.maint } := by
  have hat := winAt_touchClient s k w
  have hdo : doWinCommit k w (touchClient s k) = (verifyBegun (touchClient s k) w (touchClient s k).now, .ack) :=
    doWinCommit_package (by rw [hat, hmode]) (by rw [hat, howner]) (by rw [hat]; exact hpos) hwindow hready
  have hexec := (exec_windowCommit k w s).trans (congrArg _ (serveEnd_acked hserved hdo))
  have hmode' : (winAt (verifyBegun (touchClient s k) w (touchClient s k).now) w).mode = .committing := by
    unfold verifyBegun
    rw [winAt_modWin]
  have hfirmware : (verifyBegun (touchClient s k) w (touchClient s k).now).firmware = { s.firmware with mode := .verifying } := rfl
  have honly : Only [.windows, .firmware] (touchClient s k) (verifyBegun (touchClient s k) w (touchClient s k).now) := .of_eq rfl
  generalize verifyBegun (touchClient s k) w (touchClient s k).now = x at *
  exact ⟨answer x k .ack, hexec, answered_answer .., by rw [winAt_answer, hmode'], by rw [answer_firmware, hfirmware], (honly.served .ack).eq⟩

/-! ## Abandoning -/

theorem dropWindow_eq (s : State) (w : WinId) (reason : Nat) :
    dropWindow s w reason = closeWindow (if s.firmware.window = some w then abandonFirmware s else s) w .closed reason := rfl

theorem dropWindow_only (s : State) (w : WinId) (reason : Nat) : Only [.flash, .windows, .firmware] s (dropWindow s w reason) := by
  have hdropped : Only [.flash, .windows, .firmware] s (if s.firmware.window = some w then abandonFirmware s else s) :=
    .ite (fun _ => (abandonFirmware_only s).mono (by decide)) fun _ => .refl ..
  rw [dropWindow_eq]
  exact hdropped.step (closeWindow_only ..)

theorem abandonFirmware_window {s : State} {w : WinId} (h : s.firmware.window = some w) : (abandonFirmware s).firmware.window = none := by
  unfold abandonFirmware
  rw [h]

theorem dropWindow_window (s : State) (w : WinId) (reason : Nat) : (winAt (dropWindow s w reason) w).mode = .closed ∧
    (winAt (dropWindow s w reason) w).owner = none ∧ (winAt (dropWindow s w reason) w).reason = reason ∧
    (s.firmware.window = some w → (dropWindow s w reason).firmware.window = none) := by
  rw [dropWindow_eq]
  obtain ⟨hmode, howner, hreason⟩ := closeWindow_window (if s.firmware.window = some w then abandonFirmware s else s) w .closed reason
  refine ⟨hmode, howner, hreason, fun h => ?_⟩
  rw [(closeWindow_only (if s.firmware.window = some w then abandonFirmware s else s) w .closed reason).part .firmware (by decide), if_pos h]
  exact abandonFirmware_window h

/-- An owner's abandon drops its window; of one that is not open, closes it. -/
theorem doWinAbandon_cases {s : State} {k : Client} {w : WinId} (h : (winAt s w).owner = some k ∨ winBusy (winAt s w) = false) :
    (winBusy (winAt s w) = true ∧ doWinAbandon k w s = (dropWindow s w 0, .ack)) ∨
      winBusy (winAt s w) = false ∧ doWinAbandon k w s = (closeWindow s w .closed 0, .ack) := by
  cases hbusy : winBusy (winAt s w) with
  | true =>
    have howner := h.resolve_right (by rw [hbusy]; exact Bool.noConfusion)
    exact .inl ⟨rfl, if_pos ⟨hbusy, howner⟩⟩
  | false =>
    have hnot : ¬ winBusy (winAt s w) = true := by rw [hbusy]; exact Bool.false_ne_true
    exact .inr ⟨rfl, (if_neg fun hboth => hnot hboth.1).trans (if_neg hnot)⟩

theorem windowAbandon_settled (k : Client) (w : WinId) (s : State) (hserved : Served s k (0x5F01 + w.val))
    (h : (winAt s w).owner = some k ∨ winBusy (winAt s w) = false) : ∃ t, exec (.windowAbandon k w) s = .next t ∧
      answered t k = some .ack ∧ (winAt t w).mode = .closed ∧ (winAt t w).owner = none ∧
      (winBusy (winAt s w) = true → s.firmware.window = some w → t.firmware.window = none) ∧
      t = { s with flash := t.flash, windows := t.windows, firmware := t.firmware, clients := t.clients, maint := t.maint } := by
  have hat := winAt_touchClient s k w
  have hcases := doWinAbandon_cases (s := touchClient s k) (w := w) (by rw [hat]; exact h)
  rw [hat] at hcases
  rcases hcases with ⟨hbusy, hdo⟩ | ⟨hfree, hdo⟩
  · have hexec := (exec_windowAbandon k w s).trans (congrArg _ (serveEnd_acked hserved hdo))
    obtain ⟨hmode, howner, -, hdropped⟩ := dropWindow_window (touchClient s k) w 0
    have honly := dropWindow_only (touchClient s k) w 0
    rw [touchClient_firmware] at hdropped
    generalize dropWindow (touchClient s k) w 0 = x at *
    have hwin := winAt_answer x k w .ack
    exact ⟨answer x k .ack, hexec, answered_answer .., by rw [hwin, hmode], by rw [hwin, howner],
      fun _ hwindow => by rw [answer_firmware, hdropped hwindow], (honly.served .ack).eq⟩
  · have hexec := (exec_windowAbandon k w s).trans (congrArg _ (serveEnd_acked hserved hdo))
    obtain ⟨hmode, howner, -⟩ := closeWindow_window (touchClient s k) w .closed 0
    have honly : Only [.flash, .windows, .firmware] (touchClient s k) (closeWindow (touchClient s k) w .closed 0) :=
      (closeWindow_only (touchClient s k) w .closed 0).mono (by decide)
    generalize closeWindow (touchClient s k) w .closed 0 = x at *
    have hwin := winAt_answer x k w .ack
    exact ⟨answer x k .ack, hexec, answered_answer .., by rw [hwin, hmode], by rw [hwin, howner],
      fun hbusy => Bool.noConfusion (hfree.symm.trans hbusy), (honly.served .ack).eq⟩

theorem execWindowTimeout_open {w : WinId} {s : State} (h : (winAt s w).mode = .openWrite ∨ (winAt s w).mode = .openRead) :
    execWindowTimeout w s = if (winAt s w).lastAt + 60 * cyclesPerSec ≤ s.now then .next (dropWindow s w 3) else .next s := by
  unfold execWindowTimeout
  rcases h with h | h
  · simp only [h]
  · simp only [h]

theorem windowTimeout_open (w : WinId) (s : State) (h : (winAt s w).mode = .openWrite ∨ (winAt s w).mode = .openRead) :
    ((winAt s w).lastAt + 60 * cyclesPerSec ≤ s.now → ∃ t, exec (.windowTimeout w) s = .next t ∧
        (winAt t w).mode = .closed ∧ (winAt t w).reason = 3 ∧
        t = { s with flash := t.flash, windows := t.windows, firmware := t.firmware }) ∧
      (s.now < (winAt s w).lastAt + 60 * cyclesPerSec → exec (.windowTimeout w) s = .next s) := by
  have hexec := (exec_windowTimeout w s).trans (execWindowTimeout_open h)
  refine ⟨fun hlate => ?_, fun hearly => by rw [hexec, if_neg (Nat.not_le.2 hearly)]⟩
  obtain ⟨hmode, -, hreason, -⟩ := dropWindow_window s w 3
  exact ⟨_, by rw [hexec, if_pos hlate], hmode, hreason, (dropWindow_only s w 3).eq⟩

theorem windowTimeout_closed (w : WinId) (s : State) (h : (winAt s w).mode = .closed) : exec (.windowTimeout w) s = .next s := by
  rw [exec_windowTimeout, execWindowTimeout]
  simp only [h]

end Sys2Proof.Machine
end

section
/-! PROOF. Firmware packages: the erase, the program buffer, the tests (17_dictionary.md R418; 15_reset.md R371, R372). -/

namespace Sys2Proof.Machine

set_option Elab.async false

theorem exec_firmwareEraseDone (s : State) : exec .firmwareEraseDone s = execFirmwareEraseDone s := rfl

theorem exec_programBufferRoom (failed : Bool) (s : State) : exec (.programBufferRoom failed) s = execProgramBufferRoom failed s := rfl

theorem exec_firmwareVerifyDone (h : PackageHeader) (s : State) : exec (.firmwareVerifyDone h) s = execFirmwareVerifyDone h s := rfl

/-! ## The erase -/

theorem firmwareEraseDone_erasing {s : State} (h : s.firmware.mode = .erasing) : ∃ t, exec .firmwareEraseDone s = .next t ∧
    t.firmware = { s.firmware with mode := .ready } ∧ t.flash = { s.flash with
      erasing := none, intents := s.flash.intents.erase (s.firmware.region.val * 1536) } ∧
    t = { s with firmware := t.firmware, flash := t.flash } := by
  refine ⟨{ s with
      firmware := { s.firmware with mode := .ready }
      flash := { s.flash with erasing := none, intents := s.flash.intents.erase (s.firmware.region.val * 1536) } }, ?_, rfl, rfl, rfl⟩
  rw [exec_firmwareEraseDone, execFirmwareEraseDone, h]

theorem firmwareEraseDone_other {s : State} (h : s.firmware.mode ≠ .erasing) : exec .firmwareEraseDone s = .next s := by
  rw [exec_firmwareEraseDone, execFirmwareEraseDone]
  split
  next herasing => exact absurd herasing h
  next => rfl

/-! ## The program buffer -/

/-- The buffer drained, a word that failed to program noted. -/
def roomFreed (failed : Bool) (s : State) : State :=
  bufferDrain { s with firmware := { s.firmware with badWord := s.firmware.badWord || (failed && s.firmware.window.isSome) } }

theorem roomFreed_only (failed : Bool) (s : State) : Only [.firmware] s (roomFreed failed s) := .of_eq rfl

theorem roomFreed_state (failed : Bool) (s : State) : (roomFreed failed s).firmware.room = (bufferDrain s).firmware.room ∧
    (roomFreed failed s).firmware.held = s.firmware.held ∧
    (roomFreed failed s).firmware.badWord = (s.firmware.badWord || (failed && s.firmware.window.isSome)) := ⟨rfl, rfl, rfl⟩

/-- Held words in the buffer and in the window. -/
def heldEntered (t : State) (w : WinId) (data : List Byte) : State :=
  putWords { t with firmware := { t.firmware with room := t.firmware.room - data.length, held := none } } w data

theorem execProgramBufferRoom_held {failed : Bool} {s : State} {k : Client} {w : WinId} {data : List Byte}
    (h : s.firmware.held = some (k, w, data)) : execProgramBufferRoom failed s =
      if data.length ≤ (roomFreed failed s).firmware.room then .next (completeClient (heldEntered (roomFreed failed s) w data) k .ack)
      else .next (roomFreed failed s) := by
  have hheld : (roomFreed failed s).firmware.held = some (k, w, data) := h
  unfold execProgramBufferRoom
  rw [← roomFreed.eq_def]
  dsimp only
  rw [hheld]
  rfl

theorem execProgramBufferRoom_none {failed : Bool} {s : State} (h : s.firmware.held = none) :
    execProgramBufferRoom failed s = .next (roomFreed failed s) := by
  have hheld : (roomFreed failed s).firmware.held = none := h
  unfold execProgramBufferRoom
  rw [← roomFreed.eq_def]
  dsimp only
  rw [hheld]

theorem heldEntered_only (t : State) (w : WinId) (data : List Byte) : Only [.firmware, .windows] t (heldEntered t w data) := .of_eq rfl

theorem heldEntered_state (t : State) (w : WinId) (data : List Byte) : (heldEntered t w data).firmware.held = none ∧
    (heldEntered t w data).firmware.room = t.firmware.room - data.length ∧
    (winAt (heldEntered t w data) w).content = (winAt t w).content ++ data :=
  ⟨rfl, rfl, (putWords_window { t with firmware := { t.firmware with room := t.firmware.room - data.length, held := none } } w data).1⟩

theorem programBufferRoom_enters (failed : Bool) (k : Client) (w : WinId) (data : List Byte) (s : State)
    (hheld : s.firmware.held = some (k, w, data)) (hroom : data.length ≤ (bufferDrain s).firmware.room) :
    ∃ t, exec (.programBufferRoom failed) s = .next t ∧ t.firmware.held = none ∧ answered t k = some .ack ∧
      (t.clients.get k).busy = false ∧ (winAt t w).content = (winAt s w).content ++ data ∧
      t.firmware.room = (bufferDrain s).firmware.room - data.length ∧ t.dict = s.dict := by
  have hexec := (exec_programBufferRoom failed s).trans (execProgramBufferRoom_held hheld)
  obtain ⟨hfreed, -, -⟩ := roomFreed_state failed s
  have hfreedOnly := roomFreed_only failed s
  have hwindows : (roomFreed failed s).windows = s.windows := hfreedOnly.part .windows (by decide)
  rw [hfreed, if_pos hroom] at hexec
  generalize roomFreed failed s = x at *
  obtain ⟨hnone, hless, hcontent⟩ := heldEntered_state x w data
  have hentered := hfreedOnly.mono (l' := [.firmware, .windows]) (by decide) |>.step (heldEntered_only x w data)
  generalize heldEntered x w data = y at *
  obtain ⟨hanswer, hfree, honly⟩ := completeClient_done y k .ack
  have hfirmware : (completeClient y k .ack).firmware = y.firmware := honly.part .firmware (by decide)
  have hwin : (completeClient y k .ack).windows = y.windows := honly.part .windows (by decide)
  refine ⟨completeClient y k .ack, hexec, by rw [hfirmware, hnone], hanswer, hfree, ?_, by rw [hfirmware, hless, hfreed],
    (honly.part .dict (by decide)).trans (hentered.part .dict (by decide))⟩
  rw [winAt, hwin, ← winAt, hcontent, winAt, hwindows, ← winAt]

theorem programBufferRoom_full (failed : Bool) (k : Client) (w : WinId) (data : List Byte) (s : State)
    (hheld : s.firmware.held = some (k, w, data)) (hroom : (bufferDrain s).firmware.room < data.length) :
    ∃ t, exec (.programBufferRoom failed) s = .next t ∧ t.firmware.held = s.firmware.held ∧ t = { s with firmware := t.firmware } := by
  have hexec := (exec_programBufferRoom failed s).trans (execProgramBufferRoom_held hheld)
  obtain ⟨hfreed, hkept, -⟩ := roomFreed_state failed s
  rw [hfreed, if_neg (Nat.not_le.2 hroom)] at hexec
  exact ⟨_, hexec, hkept, (roomFreed_only failed s).eq⟩

theorem programBufferRoom_none (failed : Bool) (s : State) (hheld : s.firmware.held = none) :
    ∃ t, exec (.programBufferRoom failed) s = .next t ∧
      (s.firmware.window.isSome = true → failed = true → t.firmware.badWord = true) ∧ t = { s with firmware := t.firmware } := by
  have hexec := (exec_programBufferRoom failed s).trans (execProgramBufferRoom_none hheld)
  refine ⟨_, hexec, fun hwindow hfailed => ?_, (roomFreed_only failed s).eq⟩
  rw [(roomFreed_state failed s).2.2, hwindow, hfailed]
  exact Bool.or_true _

/-! ## The tests -/

/-- The window closed on a package's result. -/
def packageClosed (x : State) (w : WinId) (reason : Nat) : State :=
  closeWindow x w (if decide (reason = 0) then .committed else .failed) (if decide (reason = 0) then 0 else if reason = 7 then 2 else 4)

/-- The package staged, or failed with its region's header erased. -/
def packageResult (t : State) (reason : Nat) (h : PackageHeader) : State :=
  { t with
    firmware := { t.firmware with
      mode := if decide (reason = 0) then .staged else .failed
      reason := reason
      window := none
      badWord := false }
    flash := { t.flash with
      regions := vmod t.flash.regions t.firmware.region fun _ =>
        { header := if decide (reason = 0) then some h else none, reErased := false, blank := !decide (reason = 0) } } }

theorem verifyPackage_eq (s : State) (w : WinId) (h : PackageHeader) : verifyPackage s w h =
    packageResult (packageClosed (checkWindow s (winAt s w)).1 w (updateReason s.firmware.badWord (checkWindow s (winAt s w)).2 h))
      (updateReason s.firmware.badWord (checkWindow s (winAt s w)).2 h) h := rfl

/-- What the tests of a package leave. -/
structure PackageTested (s : State) (w : WinId) (h : PackageHeader) (reason : Nat) (t : State) : Prop where
  window : t.firmware.window = none
  shown : t.firmware.reason = reason
  good : reason = 0 → t.firmware.mode = .staged ∧ (winAt t w).mode = .committed ∧ (t.flash.regions.get s.firmware.region).header = some h
  bad : reason ≠ 0 → t.firmware.mode = .failed ∧ (winAt t w).mode = .failed ∧ (t.flash.regions.get s.firmware.region).header = none

theorem packageResult_region (t : State) (reason : Nat) (h : PackageHeader) :
    (packageResult t reason h).flash.regions.get t.firmware.region =
      { header := if decide (reason = 0) then some h else none, reErased := false, blank := !decide (reason = 0) } :=
  vmod_get_same t.flash.regions t.firmware.region fun _ => _

theorem packageResult_tested {s x : State} (w : WinId) (h : PackageHeader) (reason : Nat) (hfirmware : x.firmware = s.firmware) :
    PackageTested s w h reason (packageResult (packageClosed x w reason) reason h) := by
  have hregion := packageResult_region (packageClosed x w reason) reason h
  have hsame : (packageClosed x w reason).firmware.region = s.firmware.region :=
    (show (packageClosed x w reason).firmware.region = x.firmware.region from rfl).trans (by rw [hfirmware])
  have hmode : (winAt (packageResult (packageClosed x w reason) reason h) w).mode = if decide (reason = 0) then .committed else .failed :=
    (closeWindow_window x w _ _).1
  rw [hsame] at hregion
  refine ⟨rfl, rfl, fun hgood => ?_, fun hbad => ?_⟩
  · rw [decide_eq_true hgood] at hmode hregion
    exact ⟨if_pos (decide_eq_true hgood), hmode, by rw [hregion]; rfl⟩
  · rw [decide_eq_false hbad] at hmode hregion
    exact ⟨if_neg (by rw [decide_eq_false hbad]; exact Bool.false_ne_true), hmode, by rw [hregion]; rfl⟩

theorem checkWindow_only (s : State) (x : Window) : Only [.regs, .overflow, .disp, .cv] s (checkWindow s x).1 := by
  unfold checkWindow
  split
  · obtain ⟨good, hends⟩ := endRecord_ends s 7 ⟨x.content.take x.length, 0, none, none⟩
    exact ((cvEnd_only s 7 _ good).mono (by decide)).trans hends.only
  · exact .refl ..

theorem packageResult_only (t : State) (reason : Nat) (h : PackageHeader) : Only [.firmware, .flash] t (packageResult t reason h) := .of_eq rfl

theorem verifyPackage_only (s : State) (w : WinId) (h : PackageHeader) :
    Only [.regs, .overflow, .disp, .cv, .windows, .firmware, .flash] s (verifyPackage s w h) := by
  have hchecked : Only [.regs, .overflow, .disp, .cv, .windows, .firmware, .flash] s (checkWindow s (winAt s w)).1 :=
    (checkWindow_only s (winAt s w)).mono (by decide)
  rw [verifyPackage_eq]
  exact (hchecked.step (closeWindow_only _ w _ _)).step (packageResult_only _ _ h)

theorem verifyPackage_tested (s : State) (w : WinId) (h : PackageHeader) :
    PackageTested s w h (updateReason s.firmware.badWord (checkWindow s (winAt s w)).2 h) (verifyPackage s w h) := by
  rw [verifyPackage_eq]
  exact packageResult_tested w h _ ((checkWindow_only s (winAt s w)).part .firmware (by decide))

theorem execFirmwareVerifyDone_verifies {h : PackageHeader} {w : WinId} {s : State} (hmode : s.firmware.mode = .verifying)
    (hwindow : s.firmware.window = some w) : execFirmwareVerifyDone h s = .next (verifyPackage s w h) := by
  unfold execFirmwareVerifyDone
  rw [hmode, hwindow]

theorem firmwareVerifyDone_other (h : PackageHeader) (s : State) (hother : s.firmware.mode ≠ .verifying ∨ s.firmware.window = none) :
    exec (.firmwareVerifyDone h) s = .next s := by
  rw [exec_firmwareVerifyDone, execFirmwareVerifyDone]
  split
  next w hmode hwindow =>
    rcases hother with hne | hnone
    · exact absurd hmode hne
    · exact absurd (hnone.symm.trans hwindow) (Option.some_ne_none w).symm
  next => rfl

theorem verifyPackage_unchecked {s : State} {w : WinId} (h : PackageHeader) (hcheck : (winAt s w).check = false) :
    Only [.flash, .windows, .firmware] s (verifyPackage s w h) := by
  rw [verifyPackage_eq, checkWindow_unchecked hcheck]
  exact ((Only.refl [.flash, .windows, .firmware] s).step (closeWindow_only s w _ _)).step (packageResult_only _ _ h)

/-- Settles O56: each window command by its lemma, then the erase, the program buffer and the tests of a package. -/
theorem windowsAndPackages : Obligations.WindowsAndPackages := by
  unfold Obligations.WindowsAndPackages
  refine ⟨fun k w s hserved => ⟨windowOpenWrite_opens k w s hserved, windowOpenWrite_refused k w s hserved, windowOpenRead_opens k w s hserved,
      windowData_puts k w s hserved, windowData_refused k w s hserved, windowData_reads k w s hserved, windowCommit_refused k w s hserved,
      windowCommit_map k w s hserved, windowCommit_package k w s hserved, windowAbandon_settled k w s hserved, windowTimeout_open w s,
      windowTimeout_closed w s⟩,
    fun s => ⟨firmwareEraseDone_erasing, firmwareEraseDone_other⟩, programBufferRoom_enters, programBufferRoom_full, programBufferRoom_none,
    fun h w s hmode hwindow _ => ?_, fun h w s hmode hwindow hcheck => ?_, firmwareVerifyDone_other⟩
  · obtain ⟨hnone, hreason, hgood, hbad⟩ := verifyPackage_tested s w h
    refine ⟨verifyPackage s w h, (exec_firmwareVerifyDone h s).trans (execFirmwareVerifyDone_verifies hmode hwindow), hnone, hreason, ?_, ?_,
      (verifyPackage_only s w h).codingKept⟩
    · rw [hreason]; exact hgood
    · rw [hreason]; exact hbad
  · obtain ⟨hnone, hreason, hgood, hbad⟩ := verifyPackage_tested s w h
    rw [checkWindow_unchecked hcheck] at hreason hgood hbad
    exact ⟨verifyPackage s w h, (exec_firmwareVerifyDone h s).trans (execFirmwareVerifyDone_verifies hmode hwindow), hnone, hreason, hgood, hbad,
      (verifyPackage_unchecked h hcheck).eq⟩

end Sys2Proof.Machine
end

section
/-! PROOF. A write of an object leaves the clients' slots to the route that brought it (17_dictionary.md R411 to R413): every control object
and every plain value. -/

namespace Sys2Proof.Machine

set_option Elab.async false

/-- The clients' slots stay. -/
structure ClientsKept (s t : State) : Prop where
  clients : t.clients = s.clients

namespace ClientsKept

variable {s t v : State}

theorem refl (s : State) : ClientsKept s s := ⟨rfl⟩

theorem trans (h : ClientsKept s t) (h' : ClientsKept t v) : ClientsKept s v := ⟨h'.clients.trans h.clients⟩

theorem of_only {l : List StatePart} (h : Only l s t) (hl : decide (StatePart.clients ∉ l) = true := by decide) : ClientsKept s t :=
  ⟨h.part .clients (of_decide_eq_true hl)⟩

theorem ite {p : Prop} [Decidable p] (ht : p → ClientsKept s t) (hv : ¬ p → ClientsKept s v) : ClientsKept s (if p then t else v) := by
  split
  next hp => exact ht hp
  next hp => exact hv hp

end ClientsKept

/-- A write whose state keeps the clients' slots where it is allowed. -/
def WriteKept (f : State → Except Abort State) : Prop := ∀ s t, f s = .ok t → ClientsKept s t

theorem liftWrite_clients {f : State → Except Abort State} (h : WriteKept f) (s : State) : ClientsKept s (liftWrite f s).1 := by
  unfold liftWrite
  split
  next t ht => exact h s t ht
  next => exact .refl s

/-- Nothing is allowed by an error. -/
theorem ne_ok {t : State} {a : Abort} {p : Prop} (h : (Except.error a : Except Abort State) = .ok t) : p := by
  cases h

/-! ## The relay's commands -/

theorem startHoldOff_clients (s : State) : ClientsKept s (startHoldOff s) := .ite (fun _ => ⟨rfl⟩) fun _ => .refl s

theorem doRetry_writeKept : WriteKept doRetry := by
  intro s t h
  unfold doRetry at h
  split at h
  · exact ne_ok h
  · split at h
    · exact ne_ok h
    · split at h
      · obtain rfl := Except.ok.inj h
        refine ClientsKept.trans ?_ (.of_only (startRepair_only _ _))
        exact ⟨rfl⟩
      · obtain rfl := Except.ok.inj h
        exact .refl s

theorem relayCommand_writeKept (v : Nat) : WriteKept (relayCommand v) := by
  intro s t h
  unfold relayCommand at h
  split at h
  · unfold doPlanned at h
    split at h
    · exact ne_ok h
    · obtain rfl := Except.ok.inj h
      exact ⟨rfl⟩
  · unfold doForced at h
    split at h
    · exact ne_ok h
    · obtain rfl := Except.ok.inj h
      exact ⟨rfl⟩
  · unfold doLockout at h
    split at h
    · exact ne_ok h
    · obtain rfl := Except.ok.inj h
      exact ⟨rfl⟩
  · obtain rfl := Except.ok.inj h
    refine .ite (fun _ => ClientsKept.trans ?_ (startHoldOff_clients _)) fun _ => .refl s
    exact ⟨rfl⟩
  · obtain rfl := Except.ok.inj h
    exact ⟨rfl⟩
  · exact doRetry_writeKept s t h

theorem doReversionLock_writeKept (v : Nat) : WriteKept (doReversionLock v) := by
  intro s t h
  unfold doReversionLock at h
  split at h
  · exact ne_ok h
  · dsimp only at h
    split at h
    · obtain rfl := Except.ok.inj h
      exact ⟨rfl⟩
    · obtain rfl := Except.ok.inj h
      refine ClientsKept.trans ?_ (startHoldOff_clients _)
      exact ⟨rfl⟩

/-! ## Blocks, groups, capture -/

theorem doBlockReset_writeKept (k : Client) (mask : BitVec 32) : WriteKept (doBlockReset k mask) := by
  intro s t h
  cases hrefused : blockRefused s k mask with
  | some a => rw [doBlockReset_refused (h := hrefused)] at h; exact ne_ok h
  | none =>
    rw [doBlockReset_taken (h := hrefused)] at h
    obtain rfl := Except.ok.inj h
    exact .of_only (blocksReset_only s mask)

theorem countWrite_clients (s : State) (k v : Nat) (perPicture : Bool) : ClientsKept s (countWrite s k v perPicture) := ⟨rfl⟩

theorem forEach_clients {α : Type} {f : State → α → State} (hf : ∀ t a, ClientsKept t (f t a)) (l : List α) (s : State) :
    ClientsKept s (forEach l f s) := by
  induction l generalizing s with
  | nil => exact .refl s
  | cons a l ih => exact (hf s a).trans (ih (f s a))

theorem groupCommand_writeKept (k : Client) (v : Nat) : WriteKept (groupCommand k v) := by
  intro s t h
  unfold groupCommand at h
  split at h
  · unfold doGroupOpen at h
    split at h
    · exact ne_ok h
    · obtain rfl := Except.ok.inj h
      exact ⟨rfl⟩
  · unfold doGroupCommit at h
    split at h
    · obtain rfl := Except.ok.inj h
      refine ClientsKept.trans ?_ (forEach_clients (fun _ _ => countWrite_clients ..) _ _)
      exact ⟨rfl⟩
    · exact ne_ok h
  · unfold doGroupAbandon at h
    split at h
    · obtain rfl := Except.ok.inj h
      exact ⟨rfl⟩
    · exact ne_ok h

theorem takeTrigger_clients (s : State) (stamp : Nat) : ClientsKept s (takeTrigger s stamp) := .of_only (takeTrigger_only s stamp)

theorem doTriggerTime_writeKept (v : Nat) : WriteKept (doTriggerTime v) := by
  intro s t h
  unfold doTriggerTime at h
  dsimp only at h
  split at h
  · obtain rfl := Except.ok.inj h
    refine (ClientsKept.trans ?_ (takeTrigger_clients _ _)).trans (.of_only (setFlag_only _ (kCapture 8) 29))
    exact ⟨rfl⟩
  · obtain rfl := Except.ok.inj h
    exact ⟨rfl⟩

theorem captureCommand_writeKept (v : Nat) : WriteKept (captureCommand v) := by
  intro s t h
  unfold captureCommand at h
  split at h
  · unfold doArm at h
    split at h
    · obtain rfl := Except.ok.inj h
      exact .of_only (armed_only s)
    · exact ne_ok h
  · obtain rfl := Except.ok.inj h
    exact takeTrigger_clients ..
  · have habort : ClientsKept s (abortReadouts s (viewUnit s)) := .of_only (by rw [abortReadouts_eq]; exact abortAll_only ..)
    unfold doRelease at h
    split at h
    · obtain rfl := Except.ok.inj h
      exact habort.trans (.of_only (captureIdle_only _))
    · obtain rfl := Except.ok.inj h
      exact habort.trans (.of_only (captureIdle_only _))
    · obtain rfl := Except.ok.inj h
      exact .of_only (captureIdle_only s)
    · exact ne_ok h
  · unfold doDisarm at h
    split at h
    · obtain rfl := Except.ok.inj h
      exact .of_only (captureIdle_only s)
    · exact ne_ok h

theorem doReturnEnable_writeKept (v : Nat) : WriteKept (doReturnEnable v) := by
  intro s t h
  unfold doReturnEnable at h
  split at h
  · exact ne_ok h
  · dsimp only at h
    split at h
    · obtain rfl := Except.ok.inj h
      exact ⟨rfl⟩
    · split at h
      · obtain rfl := Except.ok.inj h
        exact ⟨rfl⟩
      · obtain rfl := Except.ok.inj h
        refine ClientsKept.trans ?_ (.of_only (announceJoins_only s _))
        exact ⟨rfl⟩

/-! ## The unlock -/

theorem doResponse_clients (k : Client) (v : BitVec 128) (s : State) : ClientsKept s (doResponse k v s).1 := by
  unfold doResponse
  split
  · exact .refl s
  · dsimp only
    split
    · refine ClientsKept.trans ?_ (.of_only (beginWatch_only _ 2))
      exact ⟨rfl⟩
    · have hused : ClientsKept s (challengeUsed s k) := ⟨rfl⟩
      exact (hused.trans (.of_only (bump_only (challengeUsed s k) (key 0x5F08 5)))).trans ⟨rfl⟩

theorem doLock_writeKept : WriteKept doLock := by
  intro s t h
  obtain rfl := Except.ok.inj h
  exact .of_only (endUnlock_only s)

/-! ## Channels, maps, readouts, windows -/

theorem streamsStarted_clients (s : State) (c : Chan) : ClientsKept s (streamsStarted s c) := by
  have hlatch : ∀ t l p, ClientsKept t (forEach l (fun x n => latchStream x p n) t) := fun t l p =>
    .of_only (forEach_only (fun _ _ => latchStream_only ..) l t)
  have hstart : ∀ t l p, ClientsKept t (forEach l (fun x n => startStream x p n) t) := fun t l p =>
    .of_only (forEach_only (fun _ _ => startStream_only ..) l t)
  have hcarry : ∀ t (l : List FlowId), ClientsKept t (forEach l (fun x f => carryFlow x c f) t) := fun t l =>
    .of_only (forEach_only (fun _ _ => carryFlow_only ..) l t)
  have hcount : ∀ t, ClientsKept t (forEach allFlows startCount t) := fun t => .of_only (forEach_only (fun _ _ => modFlow_only ..) _ t)
  have hreport : ∀ t, ClientsKept t (forEach allChans reportCarried t) := fun t =>
    .of_only (forEach_only (fun _ _ => reportCarried_only ..) _ t)
  exact (((((hlatch ..).trans (.of_only (reportTraffic_only ..))).trans (hstart ..)).trans (hcarry ..)).trans (hcount _)).trans (hreport _)

/-- A count of the ring, committed and applied. -/
theorem ringCount_clients (x : State) (k v : Nat) :
    ClientsKept x (applyValue (commitValue x k v (unitPresent x .a) (unitPresent x .b)) k v) := ⟨rfl⟩

theorem ringConfigure_clients (s : State) : ClientsKept s (ringConfigure s) := by
  have hshown : ClientsKept s (regPut (regPut (regPut s (kCapture 9) (ringCapacity s)) (kCapture 0x0A) (ringSlotBytes s)) (kCapture 0x0F)
      (ringRate s)) := .of_only (((regPut_only ..).step (regPut_only ..)).step (regPut_only ..))
  unfold ringConfigure
  dsimp only
  generalize regPut (regPut (regPut s (kCapture 9) (ringCapacity s)) (kCapture 0x0A) (ringSlotBytes s)) (kCapture 0x0F) (ringRate s) = x at *
  have hsized : ∀ c : CaptureState, ClientsKept s { x with capture := c } := fun _ => ⟨hshown.clients⟩
  split
  · refine ClientsKept.trans ?_ (.of_only (setFlag_only _ _ 27))
    exact (hsized _).trans ((ringCount_clients ..).trans (ringCount_clients ..))
  · exact hsized _

theorem startWatched_clients (s : State) (c : Chan) : ClientsKept s (startWatched s c) :=
  (((ClientsKept.of_only (freshRects_only s c)).trans (.of_only (reportClass3_only ..))).trans (ringConfigure_clients _)).trans
    (.of_only (beginWatch_only ..))

theorem beginStart_clients (s : State) (c : Chan) (loads : List AtuLoad) : ClientsKept s (beginStart s c loads) := by
  have hwatched := ((streamsStarted_clients s c).trans (.of_only (modChan_only _ c freshLadder))).trans (startWatched_clients _ c)
  rw [beginStart_eq]
  exact ((hwatched.trans (.of_only (loadContexts_only ..))).trans (.of_only (modChan_only ..))).trans (.of_only (setMode_only ..))

/-- A start's values and checks. -/
theorem startChecked_clients (s : State) (c : Chan) : ClientsKept s (startChecks (valuesTaken s c) c).1 :=
  (ClientsKept.of_only (valuesTaken_only s c)).trans (.of_only (startChecks_only ..))

theorem doChannelStart_clients (c : Chan) (loads : List AtuLoad) (s : State) : ClientsKept s (doChannelStart c loads s).1 := by
  have hchecked := startChecked_clients s c
  have hsettled : ClientsKept s (if newConfiguration s (valuesTaken s c) then settleConfiguration (startChecks (valuesTaken s c) c).1
      else (startChecks (valuesTaken s c) c).1) :=
    .ite (fun _ => hchecked.trans (.of_only (settleConfiguration_only _))) fun _ => hchecked
  unfold doChannelStart
  split
  · exact .refl s
  · exact .refl s
  · exact .refl s
  · exact .refl s
  · dsimp only
    split
    · exact hsettled.trans (beginStart_clients ..)
    · refine ClientsKept.trans ?_ (.of_only (setMode_only ..))
      exact ⟨hchecked.clients⟩

theorem doChannelStop_writeKept (c : Chan) : WriteKept (doChannelStop c) := by
  intro s t h
  obtain rfl := Except.ok.inj h
  exact (ClientsKept.of_only (storeValue_only ..)).trans (.of_only (forEach_only (fun _ _ => stopChannel_only ..) _ _))

theorem doVerifyEnable_writeKept (k : Client) (c : Chan) (v : Nat) : WriteKept (doVerifyEnable k c v) := by
  intro s t h
  unfold doVerifyEnable at h
  split at h
  · exact ne_ok h
  · split at h
    · exact ne_ok h
    · obtain rfl := Except.ok.inj h
      exact (ClientsKept.of_only (storeValue_only ..)).trans (.of_only (modChan_only ..))

theorem mapWrite_clients {s t : State} {c : Chan} {n : StreamId} {ok : MapState → Option Abort} {f : MapState → MapState}
    (h : mapWrite s c n ok f = .ok t) : ClientsKept s t := by
  unfold mapWrite at h
  split at h
  · split at h
    · exact ne_ok h
    · obtain rfl := Except.ok.inj h
      exact (ClientsKept.of_only (modMap_only s n f)).trans (.of_only (reportMap_only _ n))
  · exact ne_ok h

theorem mapCommand_writeKept (c : Chan) (n : StreamId) (v : Nat) : WriteKept (mapCommand c n v) := by
  intro s t h
  unfold mapCommand at h
  split at h
  · exact mapWrite_clients h
  · exact mapWrite_clients h
  · exact mapWrite_clients h

theorem channelWrite_clients {k : Client} {i sub v : Nat} {data : List Byte} {s : State} {r : State × WriteEnd}
    (h : channelWrite k i sub v data s = some r) : ClientsKept s r.1 := by
  unfold channelWrite at h
  dsimp only at h
  split at h
  · obtain rfl := Option.some.inj h
    split
    · exact (ClientsKept.of_only (drawFree_only s)).trans (doChannelStart_clients ..)
    · exact liftWrite_clients (doChannelStop_writeKept _) s
  · split at h
    · obtain rfl := Option.some.inj h
      exact liftWrite_clients (doVerifyEnable_writeKept _ _ _) s
    · split at h
      · obtain rfl := Option.some.inj h
        exact liftWrite_clients (mapCommand_writeKept _ _ _) s
      · split at h
        · obtain rfl := Option.some.inj h
          exact liftWrite_clients (fun _ _ => mapWrite_clients) s
        · cases h

theorem resumeDma_clients (s : State) (u : UnitId) (d : DmaId) : ClientsKept s (resumeDma s u d) := by
  unfold resumeDma
  exact .ite (fun _ => .of_only (modDma_only s u d _)) fun _ => .refl s

theorem doReadoutResume_writeKept (r : ReadoutId) : WriteKept (doReadoutResume r) := by
  intro s t h
  have hresumed := resumeDma_clients s (viewUnit s) (readoutDma r)
  unfold doReadoutResume at h
  dsimp only at h
  generalize resumeDma s (viewUnit s) (readoutDma r) = x at *
  split at h
  · obtain rfl := Except.ok.inj h
    exact ⟨hresumed.clients⟩
  · exact ne_ok h

theorem doReadoutStart_clients (r : ReadoutId) (s : State) : ClientsKept s (doReadoutStart r s).1 := by
  have hshown : ClientsKept s (putField s (kReadout r 0x0A) 31 28 (readoutReason s r)) := .of_only (putField_only ..)
  unfold doReadoutStart
  dsimp only
  generalize putField s (kReadout r 0x0A) 31 28 (readoutReason s r) = x at *
  split
  · exact hshown
  · have hcounted : ClientsKept s (regPut (regPut x (kReadout r 8) 0) (kReadout r 9)
        (ceilDiv (lineElems s (cropOf s r).2.2.1) (packetElemsOf s r))) := ⟨hshown.clients⟩
    generalize regPut (regPut x (kReadout r 8) 0) (kReadout r 9) (ceilDiv (lineElems s (cropOf s r).2.2.1) (packetElemsOf s r)) = y at *
    refine .ite (fun _ => hcounted) fun _ => ?_
    have hplaced := fun z l => ClientsKept.of_only (placeChain_only z r l)
    exact ⟨(hplaced _ _).clients.trans hcounted.clients⟩

theorem readoutCommand_clients (r : ReadoutId) (v : Nat) (s : State) : ClientsKept s (readoutCommand r v s).1 := by
  unfold readoutCommand
  split
  · exact doReadoutStart_clients r s
  · exact .of_only (abortDma_only ..)
  · exact liftWrite_clients (doReadoutResume_writeKept r) s

theorem doMonitorClear_writeKept (m : SlotId) (v : Nat) : WriteKept (doMonitorClear m v) := by
  intro s t h
  unfold doMonitorClear at h
  split at h
  · exact ne_ok h
  · obtain rfl := Except.ok.inj h
    exact ⟨rfl⟩

theorem closeWindow_clients (s : State) (w : WinId) (mode : WinMode) (reason : Nat) : ClientsKept s (closeWindow s w mode reason) := ⟨rfl⟩

theorem doOpenWrite_clients (k : Client) (w : WinId) (s : State) : ClientsKept s (doOpenWrite k w s).1 := by
  unfold doOpenWrite
  split
  · exact .of_only (refuseOpen_only s w _)
  · exact .ite (fun _ => ⟨rfl⟩) fun _ => ⟨rfl⟩

theorem doOpenRead_clients (k : Client) (w : WinId) (s : State) : ClientsKept s (doOpenRead k w s).1 := by
  unfold doOpenRead
  split
  · exact .refl s
  · split
    · exact .of_only (refuseOpen_only s w _)
    · split
      · exact .refl s
      · exact ⟨rfl⟩

theorem deliverMap_clients (s : State) (w : WinId) (c : Chan) (n : StreamId) : ClientsKept s (deliverMap s w c n) := by
  have hchecked : ClientsKept s (checkWindow s (winAt s w)).1 := .of_only (checkWindow_only s (winAt s w))
  unfold deliverMap
  dsimp only
  split
  · split
    next t ht => exact (hchecked.trans (mapWrite_clients ht)).trans (closeWindow_clients ..)
    next => exact hchecked.trans (closeWindow_clients ..)
  · exact hchecked.trans (closeWindow_clients ..)

theorem doWinCommit_clients (k : Client) (w : WinId) (s : State) : ClientsKept s (doWinCommit k w s).1 := by
  unfold doWinCommit
  dsimp only
  split
  · exact .refl s
  · split
    · split
      · exact .refl s
      · exact ⟨rfl⟩
    · split
      · exact deliverMap_clients ..
      · exact closeWindow_clients ..

theorem doWinAbandon_clients (k : Client) (w : WinId) (s : State) : ClientsKept s (doWinAbandon k w s).1 := by
  unfold doWinAbandon
  dsimp only
  split
  · exact .of_only (dropWindow_only s w 0)
  · split
    · exact .refl s
    · exact closeWindow_clients ..

theorem doWinControl_clients (k : Client) (w : WinId) (v : Nat) (s : State) : ClientsKept s (doWinControl k w v s).1 := by
  unfold doWinControl
  split
  · exact doOpenWrite_clients k w s
  · split
    · exact doOpenRead_clients k w s
    · split
      · exact doWinCommit_clients k w s
      · exact doWinAbandon_clients k w s

theorem doDataWrite_clients (k : Client) (w : WinId) (data : List Byte) (s : State) : ClientsKept s (doDataWrite k w data s).1 := by
  unfold doDataWrite programWords
  dsimp only
  repeat' split
  all_goals exact ⟨rfl⟩

/-! ## Every control object -/

theorem doSave_clients (k : Client) (s : State) : ClientsKept s (doSave k s).1 := by
  unfold doSave
  split
  · exact .refl s
  · exact ⟨rfl⟩

theorem baseWrite_clients {k : Client} {i sub v : Nat} {s : State} {r : State × WriteEnd} (h : baseWrite k i sub v s = some r) :
    ClientsKept s r.1 := by
  unfold baseWrite at h
  split at h
  · obtain rfl := Option.some.inj h; exact ⟨rfl⟩
  · obtain rfl := Option.some.inj h; exact doSave_clients k s
  · obtain rfl := Option.some.inj h; exact ⟨rfl⟩
  · obtain rfl := Option.some.inj h; exact liftWrite_clients (relayCommand_writeKept v) s
  · obtain rfl := Option.some.inj h; exact liftWrite_clients (doReversionLock_writeKept v) s
  · obtain rfl := Option.some.inj h; exact liftWrite_clients (doBlockReset_writeKept _ _) s
  · obtain rfl := Option.some.inj h; exact liftWrite_clients (groupCommand_writeKept k v) s
  · obtain rfl := Option.some.inj h; exact liftWrite_clients (doTriggerTime_writeKept v) s
  · obtain rfl := Option.some.inj h; exact liftWrite_clients (captureCommand_writeKept v) s
  · obtain rfl := Option.some.inj h; exact liftWrite_clients (doReturnEnable_writeKept v) s
  · obtain rfl := Option.some.inj h; exact ⟨rfl⟩
  · obtain rfl := Option.some.inj h; exact ⟨rfl⟩
  · obtain rfl := Option.some.inj h; exact doResponse_clients ..
  · obtain rfl := Option.some.inj h; exact liftWrite_clients doLock_writeKept s
  · cases h

theorem commandWrite_clients {k : Client} {i sub v : Nat} {data : List Byte} {s : State} {r : State × WriteEnd}
    (h : commandWrite k i sub v data s = some r) : ClientsKept s r.1 := by
  unfold commandWrite at h
  split at h
  · exact channelWrite_clients h
  · split at h
    · obtain rfl := Option.some.inj h
      exact readoutCommand_clients ..
    · split at h
      · obtain rfl := Option.some.inj h
        exact liftWrite_clients (doMonitorClear_writeKept _ _) s
      · split at h
        · obtain rfl := Option.some.inj h
          exact doWinControl_clients ..
        · exact baseWrite_clients h

/-! ## Plain values, and every write -/

theorem clearStatus_clients (s : State) (i sub v : Nat) (r : ObjRow) : ClientsKept s (clearStatus s i sub v r) := by
  have hput : ClientsKept s (regPut s (key i sub) (maskOff (regGet s (key i sub)) (v &&& r.clear))) := .of_only (regPut_only ..)
  unfold clearStatus
  generalize regPut s (key i sub) (maskOff (regGet s (key i sub)) (v &&& r.clear)) = x at *
  have hregister : ClientsKept x (settleRegister x) :=
    (ClientsKept.ite (fun _ => .of_only (emcyEnqueue_only x ⟨0, 0, 0, unitBit x, 0⟩)) fun _ => .refl x).trans ⟨rfl⟩
  exact hput.trans hregister

theorem shadowWrite_writeKept (k : Client) (ky v : Nat) (perPicture : Bool) : WriteKept fun t => shadowWrite t k ky v perPicture := by
  intro s t h
  dsimp only at h
  unfold shadowWrite at h
  split at h
  · split at h
    · exact ne_ok h
    · obtain rfl := Except.ok.inj h
      exact ⟨rfl⟩
  · obtain rfl := Except.ok.inj h
    exact countWrite_clients ..

theorem storeSettled_clients (s : State) (i sub v : Nat) : ClientsKept s (storeSettled s i sub v) :=
  (ClientsKept.of_only (storeValue_only ..)).trans (.of_only (storeSettled_only s i sub v))

theorem storePlain_clients (k : Client) (i sub v : Nat) (r : ObjRow) (s : State) : ClientsKept s (storePlain k i sub v r s).1 := by
  unfold storePlain
  split
  · exact clearStatus_clients ..
  · split
    · exact liftWrite_clients (shadowWrite_writeKept _ _ _ _) s
    · exact liftWrite_clients (shadowWrite_writeKept _ _ _ _) s
    · split
      · exact .refl s
      · exact storeSettled_clients ..
    · exact storeSettled_clients ..

theorem writeValue_clients (k : Client) (i sub : Nat) (r : ObjRow) (data : List Byte) (s : State) :
    ClientsKept s (writeValue k i sub r data s).1 := by
  unfold writeValue
  dsimp only
  split
  · exact .refl s
  · split
    · exact .refl s
    · split
      · exact .refl s
      · split
        · exact .refl s
        · split
          next x hx => exact commandWrite_clients hx
          next => exact storePlain_clients ..

/-- A write of any object keeps the clients' slots. -/
theorem writeObject_clients (k : Client) (i sub : Nat) (data : List Byte) (s : State) : ClientsKept s (writeObject k i sub data s).1 := by
  unfold writeObject
  split
  · exact .refl s
  · split
    · exact .refl s
    next r _ =>
      split
      · exact .refl s
      · split
        · split
          · exact doDataWrite_clients ..
          · cases hcommand : commandWrite k i sub 0 data s with
            | some x => exact commandWrite_clients hcommand
            | none => exact .refl s
        · exact writeValue_clients ..

end Sys2Proof.Machine
end

section
/-! PROOF. The two routes to the dictionary: CAN FD requests and dictionary datagrams (17_dictionary.md R406, R407, R410 to R413). -/

namespace Sys2Proof.Machine

set_option Elab.async false

theorem exec_usdoTransfer (r : DictRequest) (s : State) : exec (.usdoTransfer r) s = execUsdoTransfer r s := rfl

theorem exec_transferTimeout (k : Client) (s : State) : exec (.transferTimeout k) s = execTransferTimeout k s := rfl

theorem exec_dictionaryDatagram (p : PortId) (ip port : Nat) (d : Datagram) (s : State) :
    exec (.dictionaryDatagram p ip port d) s = execDictionaryDatagram p ip port d s := rfl

theorem exec_clientSlotTimeout (k : Client) (s : State) : exec (.clientSlotTimeout k) s = execClientSlotTimeout k s := rfl

/-! ## USDO requests -/

section
variable {s : State}

theorem usdo_busy (r : DictRequest) (s : State) (h : (s.clients.get 0).busy = true) : exec (.usdoTransfer r) s = .next s := if_pos h

theorem not_busy (h : (s.clients.get 0).busy = false) : ¬ (s.clients.get 0).busy = true := by
  rw [h]
  exact Bool.false_ne_true

theorem serves_stampClient (s : State) (j k : Client) (i : Nat) : serves (stampClient s j) k i = serves s k i := rfl

theorem answerRead_ok {x t : State} {k : Client} {i sub : Nat} {bytes : List Byte} (h : readObject k i sub (touchRead x k) = .ok (t, bytes)) :
    answerRead x k i sub = answer t k (.value bytes) := by
  rw [answerRead, h]

theorem answerRead_error {x : State} {k : Client} {i sub : Nat} {a : Abort} (h : readObject k i sub (touchRead x k) = .error a) :
    answerRead x k i sub = answer x k (.abort a) := by
  rw [answerRead, h]

theorem usdo_read (i sub : Nat) (s : State) (hfree : (s.clients.get 0).busy = false) (hserves : serves s 0 i = true) :
    (∀ t bytes, readObject 0 i sub (touchRead (stampClient s 0) 0) = .ok (t, bytes) →
      exec (.usdoTransfer (.read i sub)) s = .next (answer t 0 (.value bytes))) ∧
    ∀ a, readObject 0 i sub (touchRead (stampClient s 0) 0) = .error a →
      exec (.usdoTransfer (.read i sub)) s = .next (answer (stampClient s 0) 0 (.abort a)) := by
  have hexec : exec (.usdoTransfer (.read i sub)) s = .next (answerRead (stampClient s 0) 0 i sub) :=
    (if_neg (not_busy hfree)).trans (if_pos ((serves_stampClient s 0 0 i).trans hserves))
  exact ⟨fun t bytes h => by rw [hexec, answerRead_ok h], fun a h => by rw [hexec, answerRead_error h]⟩

theorem usdo_write (i sub : Nat) (data : List Byte) (s : State) (hfree : (s.clients.get 0).busy = false) :
    exec (.usdoTransfer (.write i sub data)) s = exec (.objectWrite 0 i sub data) (stampClient s 0) := if_neg (not_busy hfree)

theorem usdo_segment {i sub offset : Nat} {data : List Byte} {final : Bool} (hfree : (s.clients.get 0).busy = false) :
    exec (.usdoTransfer (.segment i sub offset data final)) s =
      .next (serveEnd (stampClient s 0) 0 i (takeSegment 0 i sub offset data final)) := if_neg (not_busy hfree)

theorem served_stampClient {i : Nat} (h : Served s 0 i) : Served (stampClient s 0) 0 i := by
  obtain ⟨hserves, hgate⟩ := h
  have hrights : hostRights (stampClient s 0) 0 = hostRights s 0 := rfl
  refine ⟨hserves, ?_⟩
  unfold writeGate at hgate ⊢
  rw [hrights]
  exact hgate

/-! ### Segments -/

/-- The slot's transfer as a request finds it. -/
theorem transfer_touched (s : State) (j k : Client) : ((touchClient (stampClient s j) k).clients.get k).transfer = (s.clients.get k).transfer := by
  have htouch : (touchClient (stampClient s j) k).clients.get k = { (stampClient s j).clients.get k with lastAt := s.now } := vmod_get_same ..
  rw [htouch]
  by_cases h : k = j
  · subst h
    have hstamp : (stampClient s k).clients.get k = { s.clients.get k with stamp := stampNow s } := vmod_get_same ..
    rw [hstamp]
  · have hstamp : (stampClient s j).clients.get k = s.clients.get k := vmod_get_other _ _ _ _ h
    rw [hstamp]

theorem setTransfer_transfer (s : State) (k : Client) (t : Option Transfer) : ((setTransfer s k t).clients.get k).transfer = t := by
  have hset : (setTransfer s k t).clients.get k = { s.clients.get k with transfer := t } := vmod_get_same ..
  rw [hset]

theorem setTransfer_only (s : State) (k : Client) (t : Option Transfer) : Only [.clients] s (setTransfer s k t) := .of_eq rfl

/-- A transfer set to what it is. -/
theorem setTransfer_same {s : State} {k : Client} {t : Option Transfer} (h : (s.clients.get k).transfer = t) : setTransfer s k t = s := by
  have hclients : (vmod s.clients k fun c => { c with transfer := t }) = s.clients := by
    apply Vector.ext
    intro i hi
    rw [← vector_get_eq _ ⟨i, hi⟩, ← vector_get_eq s.clients ⟨i, hi⟩]
    by_cases hik : (⟨i, hi⟩ : Client) = k
    · rw [hik, vmod_get_same, ← h]
    · rw [vmod_get_other _ _ _ _ hik]
  rw [setTransfer, hclients]

theorem takeSegment_follows {k : Client} {i sub offset : Nat} {data : List Byte} {x : Transfer} {s : State} (hx : (s.clients.get k).transfer = some x)
    (hi : x.index = i) (hsub : x.sub = sub) (hoffset : offset = x.data.length) (hne : offset ≠ 0)
    (hlen : x.data.length + data.length ≤ 2097152) :
    takeSegment k i sub offset data false s = (setTransfer s k (some ⟨i, sub, x.data ++ data, s.now⟩), .ack) := by
  have hfits : segmentFits (some x) i sub offset = true := decide_eq_true ⟨hi, hsub, hoffset⟩
  have hdata : segmentData (some x) offset data = x.data ++ data := if_neg hne
  unfold takeSegment
  dsimp only
  rw [hx, hfits, Bool.or_true, if_pos rfl, hdata, if_neg (by rw [List.length_append]; omega), if_neg Bool.false_ne_true]

theorem takeSegment_whole {k : Client} {i sub : Nat} {data : List Byte} {s : State} (hx : (s.clients.get k).transfer = none)
    (hlen : data.length ≤ 2097152) : takeSegment k i sub 0 data true s = writeObject k i sub data s := by
  unfold takeSegment
  dsimp only
  have hdata : segmentData none 0 data = data := rfl
  have hbegins : (segmentBegins none i sub 0 || segmentFits none i sub 0) = true := rfl
  rw [hx, hbegins, setTransfer_same hx, hdata, if_neg (Nat.not_lt.2 hlen), if_pos rfl, if_pos rfl]

theorem takeSegment_gap {k : Client} {i sub offset : Nat} {data : List Byte} {final : Bool} {s : State} (hx : (s.clients.get k).transfer = none)
    (hne : offset ≠ 0) : takeSegment k i sub offset data final s = (setTransfer s k none, .abort .lengthMismatch) := by
  have hbegins : segmentBegins none i sub offset = false := by rw [segmentBegins, decide_eq_false hne, Bool.false_and]
  unfold takeSegment
  dsimp only
  rw [hx, hbegins]
  exact if_neg Bool.false_ne_true

theorem serveEnd_congr {k : Client} {i : Nat} {f g : State → State × WriteEnd} (h : f (touchClient s k) = g (touchClient s k)) :
    serveEnd s k i f = serveEnd s k i g := by
  unfold serveEnd
  rw [h]

theorem answer_transfer (s : State) (k : Client) (a : Answer) : ((answer s k a).clients.get k).transfer = (s.clients.get k).transfer := by
  have hset : (answer s k a).clients.get k = { s.clients.get k with answer := some a } := vmod_get_same ..
  rw [hset]

theorem stampClient_only (s : State) (k : Client) : Only [.clients] s (stampClient s k) := .of_eq rfl

/-- What a served request of a stamped client leaves. -/
theorem segment_frame {s : State} {k : Client} (t : Option Transfer) (a : Answer) :
    Only [.clients, .maint] s (answer (setTransfer (touchClient (stampClient s k) k) k t) k a) :=
  ((((Only.refl _ s).step (stampClient_only s k)).step (touchClient_only ..)).step (setTransfer_only ..)).step (answer_only ..)

theorem segment_follows (i sub offset : Nat) (data : List Byte) (s : State) (hserved : Served s 0 i) (hfree : (s.clients.get 0).busy = false)
    (x : Transfer) (hx : (s.clients.get 0).transfer = some x) (hi : x.index = i) (hsub : x.sub = sub) (hoffset : offset = x.data.length)
    (hne : offset ≠ 0) (hlen : x.data.length + data.length ≤ 2097152) :
    ∃ t, exec (.usdoTransfer (.segment i sub offset data false)) s = .next t ∧ answered t 0 = some .ack ∧
        (t.clients.get 0).transfer = some ⟨i, sub, x.data ++ data, s.now⟩ ∧
        t = { s with clients := t.clients, maint := t.maint } := by
  have hdo := takeSegment_follows (s := touchClient (stampClient s 0) 0) (data := data) ((transfer_touched s 0 0).trans hx) hi hsub hoffset hne hlen
  have hexec := (usdo_segment hfree).trans (congrArg _ (serveEnd_acked (served_stampClient hserved) hdo))
  have hnow : (touchClient (stampClient s 0) 0).now = s.now := rfl
  rw [hnow] at hexec
  have honly := segment_frame (s := s) (k := 0) (some ⟨i, sub, x.data ++ data, s.now⟩) .ack
  exact ⟨_, hexec, answered_answer .., (answer_transfer ..).trans (setTransfer_transfer ..), honly.eq⟩

theorem segment_whole (i sub : Nat) (data : List Byte) (s : State) (hfree : (s.clients.get 0).busy = false)
    (hx : (s.clients.get 0).transfer = none) (hlen : data.length ≤ 2097152) :
    exec (.usdoTransfer (.segment i sub 0 data true)) s = exec (.usdoTransfer (.write i sub data)) s := by
  rw [usdo_segment hfree, usdo_write i sub data s hfree, exec_objectWrite]
  exact congrArg _ (serveEnd_congr (takeSegment_whole ((transfer_touched s 0 0).trans hx) hlen))

theorem segment_gap (i sub offset : Nat) (data : List Byte) (s : State) (hserved : Served s 0 i) (hfree : (s.clients.get 0).busy = false)
    (hx : (s.clients.get 0).transfer = none) (hne : offset ≠ 0) :
    ∃ t, exec (.usdoTransfer (.segment i sub offset data false)) s = .next t ∧
      answered t 0 = some (.abort .lengthMismatch) ∧ t = { s with clients := t.clients, maint := t.maint } := by
  have hdo := takeSegment_gap (i := i) (sub := sub) (data := data) (final := false) ((transfer_touched s 0 0).trans hx) hne
  have hexec := (usdo_segment hfree).trans (congrArg _ (serveEnd_aborted (served_stampClient hserved) hdo))
  exact ⟨_, hexec, answered_answer .., (segment_frame none _).eq⟩

end

/-! ## Replies -/

/-- The slot as a reply leaves it. -/
theorem sendReply_slot (s : State) (k : Client) (r : Datagram) :
    (sendReply s k r).clients.get k = { s.clients.get k with lastReply := some r, busy := false, request := none } := by
  have hsend := fun x p kind dest n payload => (endpointSend_only x p kind dest n payload).part .clients (by decide)
  unfold sendReply
  rw [hsend, vmod_get_same]

theorem sendReply_only (s : State) (k : Client) (r : Datagram) : Only [.regs, .ports, .flows, .counts, .clients] s (sendReply s k r) :=
  (sendReply_state s k r).2.2

/-- A reply to d, from client k's slot. -/
structure RepliesTo (d r : Datagram) : Prop where
  sequence : r.sequence = d.sequence
  opcode : r.opcode = 0x80 + d.opcode
  crc : r.crc = datagramCrc r

theorem replyTo_replies (s : State) (k : Client) (d : Datagram) (final : Bool) (payload : List Byte) (abort : Nat) :
    RepliesTo d (replyTo s k d final payload abort) := ⟨rfl, rfl, rfl⟩

theorem replyTo_state (s : State) (k : Client) (d : Datagram) (final : Bool) (payload : List Byte) (abort : Nat) :
    (replyTo s k d final payload abort).payload = payload ∧ (replyTo s k d final payload abort).abort = abort ∧
      (replyTo s k d final payload abort).stamp = (s.clients.get k).stamp := ⟨rfl, rfl, rfl⟩

/-- Every answer goes out as one reply. -/
theorem replyAnswer_sends (s : State) (k : Client) (d : Datagram) (final : Bool) (a : Answer) :
    ∃ r, RepliesTo d r ∧ replyAnswer s k d final a = sendReply s k r := by
  cases a with
  | value data => exact ⟨_, replyTo_replies s k d final data 0, rfl⟩
  | ack => exact ⟨_, replyTo_replies s k d true [] 0, rfl⟩
  | abort x => exact ⟨_, replyTo_replies s k d true [] x.code, rfl⟩

theorem answer_slot (s : State) (k : Client) (a : Answer) : (answer s k a).clients.get k = { s.clients.get k with answer := some a } :=
  vmod_get_same ..

theorem completeClient_transfer (s : State) (k : Client) (a : Answer) :
    ((completeClient s k a).clients.get k).transfer = (s.clients.get k).transfer := by
  unfold completeClient
  dsimp only
  split
  next d _ =>
    obtain ⟨r, -, hr⟩ := replyAnswer_sends (answer s k a) k d true a
    rw [hr, sendReply_slot, answer_slot]
  next => rw [vmod_get_same, answer_slot]

theorem transferTimeout_settled (k : Client) (x : Transfer) (s : State) (hx : (s.clients.get k).transfer = some x) :
    (x.lastAt + cyclesPerSec ≤ s.now → ∃ t, exec (.transferTimeout k) s = .next t ∧ (t.clients.get k).transfer = none ∧
      answered t k = some (.abort .protocolTimeout) ∧ t.dict = s.dict) ∧
    (s.now < x.lastAt + cyclesPerSec → exec (.transferTimeout k) s = .next s) := by
  have hexec : exec (.transferTimeout k) s =
      if x.lastAt + cyclesPerSec ≤ s.now then .next (completeClient (setTransfer s k none) k (.abort .protocolTimeout)) else .next s := by
    rw [exec_transferTimeout, execTransferTimeout, hx]
  refine ⟨fun hlate => ?_, fun hearly => by rw [hexec, if_neg (Nat.not_le.2 hearly)]⟩
  rw [if_pos hlate] at hexec
  obtain ⟨hanswer, -, honly⟩ := completeClient_done (setTransfer s k none) k (.abort .protocolTimeout)
  exact ⟨_, hexec, (completeClient_transfer ..).trans (setTransfer_transfer ..), hanswer, honly.part .dict (by decide)⟩

/-! ## Reading keeps the slots -/

theorem restartPeak_clients (s : State) (i sub : Nat) (r : ObjRow) : ClientsKept s (restartPeak s i sub r) := by
  unfold restartPeak
  split
  · exact .ite (fun _ => .of_only (putSigned_only ..)) fun _ => .of_only (regPut_only ..)
  · exact .refl s

theorem readObject_clients {k : Client} {i sub : Nat} {s t : State} {bytes : List Byte} (h : readObject k i sub s = .ok (t, bytes)) :
    ClientsKept s t := by
  unfold readObject at h
  split at h
  · cases h
  · cases h
  next r _ _ =>
    split at h
    · unfold doDataRead at h
      dsimp only at h
      split at h
      · cases h
      · split at h
        · cases h
        · obtain ⟨rfl, -⟩ := Prod.mk.inj (Except.ok.inj h)
          exact .of_only (modWin_only ..)
    · split at h
      · obtain ⟨rfl, -⟩ := Prod.mk.inj (Except.ok.inj h)
        exact ⟨rfl⟩
      · split at h
        · obtain ⟨rfl, -⟩ := Prod.mk.inj (Except.ok.inj h)
          exact ⟨rfl⟩
        · obtain ⟨rfl, -⟩ := Prod.mk.inj (Except.ok.inj h)
          exact restartPeak_clients ..

/-! ## Datagrams -/

section
variable {s : State} {k : Client} {src : Nat × Nat} {p : PortId} {host : Bool}

/-- A new client's slot. -/
def slotNew (s : State) (src : Nat × Nat) (p : PortId) (host : Bool) : ClientSlot :=
  { clientReset with source := some src, port := p, host := host, lastAt := s.now }

theorem enterSlot_new (h : (s.clients.get k).source = none) : (enterSlot s k src p host).clients.get k = slotNew s src p host := by
  have hset : (enterSlot s k src p host).clients.get k =
      { (if (s.clients.get k).source = some src then s.clients.get k else clientReset) with
        source := some src, port := p, host := host, lastAt := s.now } := vmod_get_same ..
  rw [hset, h, if_neg (Option.some_ne_none src).symm]
  rfl

theorem enterSlot_known (h : (s.clients.get k).source = some src) : (enterSlot s k src p host).clients.get k =
    { s.clients.get k with source := some src, port := p, host := host, lastAt := s.now } := by
  have hset : (enterSlot s k src p host).clients.get k =
      { (if (s.clients.get k).source = some src then s.clients.get k else clientReset) with
        source := some src, port := p, host := host, lastAt := s.now } := vmod_get_same ..
  rw [hset, if_pos h]

theorem stampClient_slot (s : State) (k : Client) : (stampClient s k).clients.get k = { s.clients.get k with stamp := stampNow s } :=
  vmod_get_same ..

theorem stampNow_enterSlot : stampNow (enterSlot s k src p host) = stampNow s := rfl

theorem enterSlot_only (s : State) (k : Client) (src : Nat × Nat) (p : PortId) (host : Bool) : Only [.clients] s (enterSlot s k src p host) :=
  .of_eq rfl

/-- The slot of a new client's stamped request. -/
theorem stamped_new (h : (s.clients.get k).source = none) : (stampClient (enterSlot s k src p host) k).clients.get k =
    { slotNew s src p host with stamp := stampNow s } := by
  rw [stampClient_slot, enterSlot_new h, stampNow_enterSlot]

/-- A request's own answer, where it repeats no other. -/
def freshReply (w : State) (k : Client) (d : Datagram) : State :=
  if d.opcode = 1 then datagramRead w k d else if d.opcode = 2 then datagramWrite w k d else datagramNmt w k d

theorem serveDatagram_fresh {x : State} {d : Datagram} (hbusy : (x.clients.get k).busy = false) (hlast : (x.clients.get k).lastReply = none) :
    serveDatagram x k d = freshReply (stampClient x k) k d := by
  have hnone : ((stampClient x k).clients.get k).lastReply = none := by rw [stampClient_slot, hlast]
  unfold serveDatagram
  rw [hbusy, if_neg Bool.false_ne_true]
  dsimp only
  rw [hnone]
  rfl

/-- The reply of a request repeated, as it goes out again. -/
def replyAgain (r : Datagram) : Datagram := { r with flags := r.flags ||| 2, crc := 0 }

theorem serveDatagram_repeated {x : State} {d r : Datagram} (hbusy : (x.clients.get k).busy = false)
    (hlast : (x.clients.get k).lastReply = some r) (hseq : r.sequence = d.sequence) :
    serveDatagram x k d = endpointSend (stampClient x k) ((stampClient x k).clients.get k).port (.reply k) (replyDest (stampClient x k) k)
      (datagramFrame (replyAgain r).payload.length) (.datagram (datagramBytes (replyAgain r) ++ leBytes 4 (datagramCrc (replyAgain r)).toNat)) := by
  have hsome : ((stampClient x k).clients.get k).lastReply = some r := by rw [stampClient_slot, hlast]
  unfold serveDatagram
  rw [hbusy, if_neg Bool.false_ne_true]
  dsimp only
  rw [hsome]
  exact if_pos hseq

/-! ### The requests of a new client -/

/-- A read at offset 0, its snapshot kept in the slot. -/
def snapshotTaken (t : State) (k : Client) (ky : Nat) (bytes : List Byte) : State :=
  { t with clients := vmod t.clients k fun c => { c with snapshot := some (ky, bytes) } }

theorem datagramRead_ok {w t : State} {d : Datagram} {bytes : List Byte} (hoffset : d.offset = 0)
    (h : readObject k d.index d.sub (touchRead w k) = .ok (t, bytes)) : datagramRead w k d =
      sendReply (answer (snapshotTaken t k (key d.index d.sub) bytes) k (.value (bytes.take 1024))) k
        (replyTo (answer (snapshotTaken t k (key d.index d.sub) bytes) k (.value (bytes.take 1024))) k d (readChunk bytes 0).2 (bytes.take 1024) 0) := by
  unfold datagramRead
  rw [if_pos hoffset, h]
  rfl

theorem snapshotTaken_slot (t : State) (k : Client) (ky : Nat) (bytes : List Byte) :
    (snapshotTaken t k ky bytes).clients.get k = { t.clients.get k with snapshot := some (ky, bytes) } := vmod_get_same ..

theorem touchRead_slot (s : State) (k : Client) : (touchRead s k).clients.get k = { s.clients.get k with lastAt := s.now } := vmod_get_same ..

end

end Sys2Proof.Machine
end

section
/-! PROOF. What a dictionary datagram's sender is answered, and how its slot is freed (17_dictionary.md R410 to R413, R420). -/

namespace Sys2Proof.Machine

set_option Elab.async false

/-! ## A new client's read, write and NMT command -/

section
variable {s w : State} {k : Client} {src : Nat × Nat} {p : PortId} {host : Bool}

/-- The slot that answers a read. -/
theorem readAnswered_slot {t : State} {i sub : Nat} {bytes : List Byte} (a : Answer) (hslot : w.clients.get k = { slotNew s src p host with stamp := stampNow s })
    (h : readObject k i sub (touchRead w k) = .ok (t, bytes)) :
    ((answer (snapshotTaken t k (key i sub) bytes) k a).clients.get k).source = some src ∧
      ((answer (snapshotTaken t k (key i sub) bytes) k a).clients.get k).stamp = stampNow s := by
  rw [answer_slot, snapshotTaken_slot, (readObject_clients h).clients, touchRead_slot, hslot]
  exact ⟨rfl, rfl⟩

theorem datagramRead_replies {t : State} {d : Datagram} {bytes : List Byte} (hslot : w.clients.get k = { slotNew s src p host with stamp := stampNow s })
    (hoffset : d.offset = 0) (hopcode : d.opcode = 1) (h : readObject k d.index d.sub (touchRead w k) = .ok (t, bytes)) :
    ∃ r, ((datagramRead w k d).clients.get k).source = some src ∧ ((datagramRead w k d).clients.get k).lastReply = some r ∧
      r.sequence = d.sequence ∧ r.opcode = 0x81 ∧ r.payload = bytes.take 1024 ∧ r.abort = 0 ∧ r.stamp = stampNow s ∧ r.crc = datagramCrc r ∧
      (datagramRead w k d).dict = t.dict := by
  obtain ⟨hsource, hstamp⟩ := readAnswered_slot (.value (bytes.take 1024)) hslot h
  have hdict : (answer (snapshotTaken t k (key d.index d.sub) bytes) k (.value (bytes.take 1024))).dict = t.dict := rfl
  have hread := datagramRead_ok hoffset h
  generalize answer (snapshotTaken t k (key d.index d.sub) bytes) k (.value (bytes.take 1024)) = x at *
  obtain ⟨hsequence, hcode, hcrc⟩ := replyTo_replies x k d (readChunk bytes 0).2 (bytes.take 1024) 0
  obtain ⟨hpayload, habort, hstamped⟩ := replyTo_state x k d (readChunk bytes 0).2 (bytes.take 1024) 0
  generalize replyTo x k d (readChunk bytes 0).2 (bytes.take 1024) 0 = r at *
  refine ⟨r, ?_, ?_, hsequence, by rw [hcode, hopcode], hpayload, habort, by rw [hstamped, hstamp], hcrc, ?_⟩
  · rw [hread, sendReply_slot, hsource]
  · rw [hread, sendReply_slot]
  · rw [hread, (sendReply_only x k r).part .dict (by decide), hdict]

theorem takeSegment_source (k : Client) (i sub offset : Nat) (data : List Byte) (final : Bool) (x : State) :
    (((takeSegment k i sub offset data final x).1).clients.get k).source = (x.clients.get k).source := by
  have hset : ∀ t, ((setTransfer x k t).clients.get k).source = (x.clients.get k).source := fun t => by
    have hslot : (setTransfer x k t).clients.get k = { x.clients.get k with transfer := t } := vmod_get_same ..
    rw [hslot]
  unfold takeSegment
  dsimp only
  split
  · split
    · exact hset none
    · split
      · rw [(writeObject_clients k i sub _ (setTransfer x k none)).clients]
        exact hset none
      · exact hset _
  · exact hset none

theorem answer_source (x : State) (k : Client) (a : Answer) :
    ((answer x k a).clients.get k).source = (x.clients.get k).source := by
  rw [answer_slot]

theorem endWrite_source (x : State) (k : Client) (e : WriteEnd) : ((endWrite x k e).clients.get k).source = (x.clients.get k).source := by
  have hhold : (holdClient x k).clients.get k = { x.clients.get k with busy := true } := vmod_get_same ..
  cases e with
  | ack => exact answer_source x k .ack
  | abort a => exact answer_source x k (.abort a)
  | held =>
    change ((holdClient x k).clients.get k).source = _
    rw [hhold]

theorem endWrite_answered {x : State} {k : Client} {e : WriteEnd} (h : ((endWrite x k e).clients.get k).busy = false) :
    ∃ a, ((endWrite x k e).clients.get k).answer = some a := by
  have hhold : (holdClient x k).clients.get k = { x.clients.get k with busy := true } := vmod_get_same ..
  cases e with
  | ack => exact ⟨.ack, congrArg ClientSlot.answer (answer_slot x k .ack)⟩
  | abort a => exact ⟨.abort a, congrArg ClientSlot.answer (answer_slot x k (.abort a))⟩
  | held =>
    have hbusy : ((endWrite x k .held).clients.get k).busy = true := congrArg ClientSlot.busy hhold
    exact Bool.noConfusion (hbusy.symm.trans h)

theorem touchClient_source (x : State) (k : Client) : ((touchClient x k).clients.get k).source = (x.clients.get k).source := by
  have hslot : (touchClient x k).clients.get k = { x.clients.get k with lastAt := x.now } := vmod_get_same ..
  rw [hslot]

/-- A served write's slot keeps its source, and has an answer unless it is held. -/
theorem serveEnd_slot {x : State} {k : Client} {i : Nat} {f : State → State × WriteEnd} (hserves : serves x k i = true)
    (hf : ∀ y, (((f y).1).clients.get k).source = (y.clients.get k).source) :
    ((serveEnd x k i f).clients.get k).source = (x.clients.get k).source ∧
      (((serveEnd x k i f).clients.get k).busy = false → ∃ a, ((serveEnd x k i f).clients.get k).answer = some a) := by
  unfold serveEnd
  rw [if_pos hserves]
  split
  next a _ => exact ⟨answer_source x k (.abort a), fun _ => ⟨_, congrArg ClientSlot.answer (answer_slot x k (.abort a))⟩⟩
  next => exact ⟨(endWrite_source ..).trans ((hf _).trans (touchClient_source x k)), endWrite_answered⟩

theorem datagramWrite_replies {d : Datagram} {v : State} (hslot : w.clients.get k = { slotNew s src p host with stamp := stampNow s })
    (hserves : serves w k d.index = true) (hoffset : d.offset = 0) (hflags : d.flags % 2 = 1) (hopcode : d.opcode = 2)
    (hv : v = serveEnd w k d.index (takeSegment k d.index d.sub 0 d.payload true)) (hfree : (v.clients.get k).busy = false) :
    ∃ r, ((datagramWrite w k d).clients.get k).source = some src ∧ ((datagramWrite w k d).clients.get k).lastReply = some r ∧
      r.sequence = d.sequence ∧ r.opcode = 0x82 ∧ r.crc = datagramCrc r ∧ (datagramWrite w k d).dict = v.dict := by
  obtain ⟨hsource, hanswered⟩ := serveEnd_slot hserves (takeSegment_source k d.index d.sub 0 d.payload true)
  rw [← hv, hslot] at hsource
  rw [← hv] at hanswered
  obtain ⟨a, ha⟩ := hanswered hfree
  have hwrite : datagramWrite w k d = replyAnswer v k d true a := by
    unfold datagramWrite
    rw [hoffset, decide_eq_true hflags, ← hv]
    dsimp only
    rw [hfree, if_neg Bool.false_ne_true, ha]
  obtain ⟨r, ⟨hsequence, hcode, hcrc⟩, hsend⟩ := replyAnswer_sends v k d true a
  refine ⟨r, ?_, ?_, hsequence, by rw [hcode, hopcode], hcrc, ?_⟩
  · rw [hwrite, hsend, sendReply_slot]
    exact hsource
  · rw [hwrite, hsend, sendReply_slot]
  · rw [hwrite, hsend, (sendReply_only v k r).part .dict (by decide)]

end

/-! ## The datagram -/

section
variable {p : PortId} {ip port : Nat} {d : Datagram} {s : State}

theorem execDatagram_silent (h : dictAnswers s = false) : execDictionaryDatagram p ip port d s = .next s :=
  if_neg fun ⟨hanswers, _⟩ => Bool.noConfusion (h.symm.trans hanswers)

theorem execDatagram_discarded (hanswers : dictAnswers s = true) (hport : portServes s p = true) (hactive : s.relay.active.isSome = true)
    (h : accessEntry s ip = none ∨ datagramGood d = false) : execDictionaryDatagram p ip port d s = .next (bumpHalf s discardKey true) := by
  refine (if_pos ⟨hanswers, hport, hactive⟩).trans ?_
  cases hentry : accessEntry s ip with
  | none => rfl
  | some e =>
    have hbad := h.resolve_left (by rw [hentry]; exact Option.some_ne_none e)
    exact if_pos (by rw [hbad]; exact Bool.false_ne_true)

theorem execDatagram_served {e : Nat} {k : Client} (hanswers : dictAnswers s = true) (hport : portServes s p = true)
    (hactive : s.relay.active.isSome = true) (hentry : accessEntry s ip = some e) (hgood : datagramGood d = true)
    (hslot : slotFor s (ip, port) = some k) :
    execDictionaryDatagram p ip port d s = .next (serveDatagram (enterSlot s k (ip, port) p (e.testBit 62)) k d) := by
  refine (if_pos ⟨hanswers, hport, hactive⟩).trans ?_
  rw [hentry]
  refine (if_neg (not_not_intro hgood)).trans ?_
  rw [hslot]

/-- A new client's datagram has its own reply. -/
theorem serveDatagram_new {k : Client} {src : Nat × Nat} (host : Bool) (h : (s.clients.get k).source = none) :
    serveDatagram (enterSlot s k src p host) k d = freshReply (stampClient (enterSlot s k src p host) k) k d :=
  serveDatagram_fresh (by rw [enterSlot_new h]; rfl) (by rw [enterSlot_new h]; rfl)

theorem freshReply_read {w : State} {k : Client} (h : d.opcode = 1) : freshReply w k d = datagramRead w k d := if_pos h

theorem freshReply_write {w : State} {k : Client} (h : d.opcode = 2) : freshReply w k d = datagramWrite w k d :=
  (if_neg (by omega)).trans (if_pos h)

theorem freshReply_nmt {w : State} {k : Client} (h : d.opcode = 0x20) : freshReply w k d = datagramNmt w k d :=
  (if_neg (by omega)).trans (if_neg (by omega))

/-- With host rights an NMT datagram is carried out. -/
theorem datagramNmt_host {w : State} {k : Client} (h : (w.clients.get k).host = true) :
    datagramNmt w k d = nmtCommand w ((d.payload.map BitVec.toNat).headD 0) := by
  refine if_pos ?_
  have hslot : w.clients[k].host = true := h
  rw [hostRights, hslot, Bool.or_true]

end

theorem datagram_read {p : PortId} {ip port : Nat} {d : Datagram} {s : State} {e : Nat} {k : Client} {w : State}
    (hw : w = stampClient (enterSlot s k (ip, port) p (e.testBit 62)) k)
    (hexec : execDictionaryDatagram p ip port d s = .next (serveDatagram (enterSlot s k (ip, port) p (e.testBit 62)) k d))
    (t : State) (bytes : List Byte) (hnew : (s.clients.get k).source = none) (hopcode : d.opcode = 1) (hoffset : d.offset = 0)
    (hread : readObject k d.index d.sub (touchRead w k) = .ok (t, bytes)) :
    ∃ z r, exec (.dictionaryDatagram p ip port d) s = .next z ∧ (z.clients.get k).source = some (ip, port) ∧
      (z.clients.get k).lastReply = some r ∧ r.sequence = d.sequence ∧ r.opcode = 0x81 ∧ r.payload = bytes.take 1024 ∧
      r.abort = 0 ∧ r.stamp = stampNow s ∧ r.crc = datagramCrc r ∧ z.dict = t.dict := by
  have hslot := stamped_new (src := (ip, port)) (p := p) (host := e.testBit 62) hnew
  rw [serveDatagram_new (e.testBit 62) hnew, ← hw, freshReply_read hopcode] at hexec
  rw [← hw] at hslot
  obtain ⟨r, hr⟩ := datagramRead_replies hslot hoffset hopcode hread
  exact ⟨_, r, (exec_dictionaryDatagram p ip port d s).trans hexec, hr⟩

theorem datagram_write {p : PortId} {ip port : Nat} {d : Datagram} {s : State} {e : Nat} {k : Client} {w : State}
    (hw : w = stampClient (enterSlot s k (ip, port) p (e.testBit 62)) k)
    (hexec : execDictionaryDatagram p ip port d s = .next (serveDatagram (enterSlot s k (ip, port) p (e.testBit 62)) k d))
    (v : State) (hnew : (s.clients.get k).source = none) (hopcode : d.opcode = 2) (hoffset : d.offset = 0) (hflags : d.flags % 2 = 1)
    (hserves : serves s k d.index = true) (hv : v = serveEnd w k d.index (takeSegment k d.index d.sub 0 d.payload true))
    (hfree : (v.clients.get k).busy = false) :
    ∃ z r, exec (.dictionaryDatagram p ip port d) s = .next z ∧ (z.clients.get k).source = some (ip, port) ∧
      (z.clients.get k).lastReply = some r ∧ r.sequence = d.sequence ∧ r.opcode = 0x82 ∧ r.crc = datagramCrc r ∧
      z.dict = v.dict := by
  have hslot := stamped_new (src := (ip, port)) (p := p) (host := e.testBit 62) hnew
  have hserves' : serves w k d.index = true := by rw [hw]; exact hserves
  rw [serveDatagram_new (e.testBit 62) hnew, ← hw, freshReply_write hopcode] at hexec
  rw [← hw] at hslot
  obtain ⟨r, hr⟩ := datagramWrite_replies hslot hserves' hoffset hflags hopcode hv hfree
  exact ⟨_, r, (exec_dictionaryDatagram p ip port d s).trans hexec, hr⟩

theorem datagram_nmt {p : PortId} {ip port : Nat} {d : Datagram} {s : State} {e : Nat} {k : Client} {w : State}
    (hw : w = stampClient (enterSlot s k (ip, port) p (e.testBit 62)) k)
    (hexec : execDictionaryDatagram p ip port d s = .next (serveDatagram (enterSlot s k (ip, port) p (e.testBit 62)) k d))
    (hnew : (s.clients.get k).source = none) (hopcode : d.opcode = 0x20) (hhost : e.testBit 62 = true) :
    exec (.dictionaryDatagram p ip port d) s = .next (nmtCommand w ((d.payload.map BitVec.toNat).headD 0)) := by
  have hslot := stamped_new (src := (ip, port)) (p := p) (host := e.testBit 62) hnew
  rw [serveDatagram_new (e.testBit 62) hnew, ← hw, freshReply_nmt hopcode, datagramNmt_host (by rw [hw, hslot]; exact hhost)] at hexec
  exact (exec_dictionaryDatagram p ip port d s).trans hexec

theorem datagram_repeated {p : PortId} {ip port : Nat} {d : Datagram} {s : State} {e : Nat} {k : Client}
    (hexec : execDictionaryDatagram p ip port d s = .next (serveDatagram (enterSlot s k (ip, port) p (e.testBit 62)) k d))
    (r : Datagram) (hknown : (s.clients.get k).source = some (ip, port)) (hfree : (s.clients.get k).busy = false)
    (hlast : (s.clients.get k).lastReply = some r) (hseq : r.sequence = d.sequence) :
    ∃ z, exec (.dictionaryDatagram p ip port d) s = .next z ∧ (z.clients.get k).lastReply = some r ∧
      z = { s with regs := z.regs, ports := z.ports, flows := z.flows, counts := z.counts, clients := z.clients } := by
  have hslot := enterSlot_known (p := p) (host := e.testBit 62) hknown
  have hentered := (Only.refl [.regs, .ports, .flows, .counts, .clients] s).step (enterSlot_only s k (ip, port) p (e.testBit 62))
  generalize enterSlot s k (ip, port) p (e.testBit 62) = x at *
  have hlast' : (x.clients.get k).lastReply = some r := by rw [hslot, hlast]
  rw [serveDatagram_repeated (by rw [hslot, hfree]) hlast' hseq] at hexec
  have hstamped := stampClient_slot x k
  have honly := hentered.step (stampClient_only x k)
  generalize stampClient x k = y at *
  have hsend := endpointSend_only y (y.clients.get k).port (.reply k) (replyDest y k) (datagramFrame (replyAgain r).payload.length)
    (.datagram (datagramBytes (replyAgain r) ++ leBytes 4 (datagramCrc (replyAgain r)).toNat))
  refine ⟨_, (exec_dictionaryDatagram p ip port d s).trans hexec, ?_, (honly.step hsend).eq⟩
  rw [hsend.part .clients (by decide), hstamped, hlast']

/-! ## Slots freed -/

/-- A slot freed, its challenge with it. -/
def slotFreed (t : State) (k : Client) : State :=
  { t with
      clients := vmod t.clients k fun _ => clientReset
      maint := { t.maint with challenges := vmod t.maint.challenges k fun _ => none } }

theorem execClientSlotTimeout_late {k : Client} {s : State} (hk : k ≠ 0) (hsource : (s.clients.get k).source.isSome = true)
    (hlate : (s.clients.get k).lastAt + 10 * cyclesPerSec ≤ s.now) : execClientSlotTimeout k s =
      .next (slotFreed (if s.maint.owner = some k then endUnlock s else s) k) := if_pos ⟨hk, hsource, hlate⟩

theorem slotFreed_state (t : State) (k : Client) : (slotFreed t k).clients.get k = clientReset ∧
    (slotFreed t k).maint.challenges.get k = none ∧ (slotFreed t k).maint.owner = t.maint.owner ∧
    (∀ j, j ≠ k → (slotFreed t k).clients.get j = t.clients.get j) ∧ (slotFreed t k).dict = t.dict :=
  ⟨vmod_get_same t.clients k fun _ => clientReset, vmod_get_same t.maint.challenges k fun _ => none, rfl,
    fun j hj => vmod_get_other t.clients k j (fun _ => clientReset) hj, rfl⟩

/-- The state in which a slot is freed: its client holds no unlock. -/
theorem unlockEnded_state (s : State) (k : Client) : (if s.maint.owner = some k then endUnlock s else s).maint.owner ≠ some k ∧
    Only [.windows, .firmware, .flash, .maint, .ctrl, .regs, .watch] s (if s.maint.owner = some k then endUnlock s else s) := by
  split
  next h => exact ⟨by rw [endUnlock_owner]; exact (Option.some_ne_none k).symm, endUnlock_only s⟩
  next h => exact ⟨h, .refl ..⟩

theorem clientSlotTimeout_settled (k : Client) (s : State) (hk : k ≠ 0) (hsource : (s.clients.get k).source.isSome = true) :
    ((s.clients.get k).lastAt + 10 * cyclesPerSec ≤ s.now → ∃ t, exec (.clientSlotTimeout k) s = .next t ∧
      t.clients.get k = clientReset ∧ t.maint.challenges.get k = none ∧ t.maint.owner ≠ some k ∧
      (∀ j, j ≠ k → t.clients.get j = s.clients.get j) ∧ t.dict = s.dict) ∧
    (s.now < (s.clients.get k).lastAt + 10 * cyclesPerSec → exec (.clientSlotTimeout k) s = .next s) := by
  refine ⟨fun hlate => ?_, fun hearly => if_neg fun ⟨_, _, hlate⟩ => absurd hlate (Nat.not_le.2 hearly)⟩
  have hexec := (exec_clientSlotTimeout k s).trans (execClientSlotTimeout_late hk hsource hlate)
  obtain ⟨howner, honly⟩ := unlockEnded_state s k
  generalize (if s.maint.owner = some k then endUnlock s else s) = x at *
  obtain ⟨hreset, hchallenge, hkept, hothers, hdict⟩ := slotFreed_state x k
  have hclients : x.clients = s.clients := honly.part .clients (by decide)
  exact ⟨_, hexec, hreset, hchallenge, by rw [hkept]; exact howner, fun j hj => (hothers j hj).trans (by rw [hclients]),
    hdict.trans (honly.part .dict (by decide))⟩

/-- Settles O54: the USDO requests, the transfers, the datagrams by the request of their sender, the slots freed. -/
theorem routesServeTheDictionary : Obligations.RoutesServeTheDictionary := by
  unfold Obligations.RoutesServeTheDictionary
  refine ⟨usdo_busy, usdo_read, usdo_write, fun i sub offset data s hserved hfree => ⟨segment_follows i sub offset data s hserved hfree,
      segment_whole i sub data s hfree, segment_gap i sub offset data s hserved hfree⟩, transferTimeout_settled,
    fun p ip port d s => ⟨fun h => (exec_dictionaryDatagram p ip port d s).trans (execDatagram_silent h),
      fun hanswers hport hactive h => (exec_dictionaryDatagram p ip port d s).trans (execDatagram_discarded hanswers hport hactive h),
      fun e k w hw hanswers hport hactive hentry hgood hslot => ?_⟩,
    clientSlotTimeout_settled⟩
  have hexec := execDatagram_served hanswers hport hactive hentry hgood hslot
  exact ⟨datagram_read hw hexec, datagram_write hw hexec, datagram_nmt hw hexec, datagram_repeated hexec⟩

end Sys2Proof.Machine
end
